-- ==== Sys2Proof/Word.lean ====
section
/-! DEFINITION. The word types of Fylaldo W1 and the type of its sparse tables. -/

namespace Sys2Proof

/-- One byte of a letter, receipt, page or configuration image (R12). -/
abbrev Byte := BitVec 8

/-- One flit of the Post Network: 128 data bits (09_post_network, "Links and frames"). -/
abbrev Flit := BitVec 128

/-- A physical core index: region [19:13], router [12:6], port [5:0] (R36). -/
abbrev CoreIdx := BitVec 20

/-- A region index 16 * Y + X (R29). -/
abbrev RegionIdx := BitVec 7

/-- A sparse table: (key, row) pairs with keys strictly rising. A key that is not listed reads as the
row's reset value, which each table names beside its accessor. -/
abbrev Tab (α : Type) := List (Nat × α)

end Sys2Proof
end

