-- ==== Sys2Proof/Config.lean ====
section
/-! DEFINITION. What the surroundings fix for the block (the integration configuration of R475 and R476),
what a job declares (the manifest of R419), what the Archive keeps (the Ledger), and the free values the
manual leaves open. -/

namespace Sys2Proof

/-! ### Free values: constants with no body, so no proof can see what they are -/

/-- FREE VALUE. A bit the manual leaves open, indexed by the model's own counter `State.free`.
Used where R149 and R439 allow a reading to lag by one cycle. (DESIGN CHOICE, log 17.) -/
opaque Config.freeBit : Nat → Bool

/-- FREE VALUE. A 64-bit word the manual leaves open, indexed by `Block.free`. (DESIGN CHOICE, log 17.) -/
opaque Config.freeWord : Nat → BitVec 64

/-! ### Names the manual uses for states and codes -/

/-- Core states, coded 0x0 to 0x7 (R42). -/
inductive CoreSt where
  | active | probation | suspect | fenced | spare | retired | unscreened | absent
  deriving DecidableEq, Repr

/-- Life-cycle states, coded 0 to 4 (R123). -/
inductive LifeCycle where
  | manufacture | provisioned | field | rma | decommissioned
  deriving DecidableEq, Repr

/-- Service states, coded 0x0 to 0x7 (R337). -/
inductive SvcState where
  | booting | bringup | ready | job | warmReset | coldReset | safe | outOfService
  deriving DecidableEq, Repr

/-- Postmark states, coded 0x0 to 0x3 (R135). -/
inductive PmState where
  | unset | armed | loaded | slipped
  deriving DecidableEq, Repr

/-- Local stop causes, coded 0x1 to 0xA (R440). -/
inductive StopCause where
  | urgentLetter | stopCtrl | stopAt | syncSlip | launchAbort | parcelVoteLate | parcelOverrun
  | teardown | shutdown | parcelStop
  deriving DecidableEq, Repr

/-- Tile verdicts, coded 0b000 to 0b101 (R217). -/
inductive Verdict where
  | clean | mismatchResidue | mismatchStamp | mismatchDuplicate | uncheckable | late
  deriving DecidableEq, Repr

/-- Check codes of a tile verdict message (R201, R218). -/
inductive Check where
  | p | f | t | n
  deriving DecidableEq, Repr

/-- States of a parcel generation (R382). -/
inductive GenState where
  | reserving | capturing | committing | single | double | failed
  deriving DecidableEq, Repr

/-- Results of a test unit, coded 0x0 to 0x5 (R269). -/
inductive TestResult where
  | pass | fail | timeout | katCheck | windowLost | aborted
  deriving DecidableEq, Repr

/-- Test triggers, coded 0x0 to 0x8 (R264). -/
inductive Trigger where
  | powerUp | reset | fill | conviction | operands | suspicion | restore | sweep | spareSweep
  deriving DecidableEq, Repr

/-! ### The integration configuration (R249, R250, R476) -/

/-- A region record: clock ratios and test concurrency (R146, R249, R476). -/
structure RegionCfg where
  p : Nat := 22
  q : Nat := 1
  pt : Nat := 10
  qt : Nat := 1
  testConc : Nat := 1
  deriving DecidableEq, Repr

/-- A known-answer-tile entry (R250). -/
structure KatEntry where
  inFmt : BitVec 64 := 0xF
  outType : Nat := 0xC
  katLen : Nat := 0
  katId : Nat := 0
  expSig : BitVec 32 := 0
  expDigest : BitVec 32 := 0
  deriving DecidableEq, Repr

/-- The integration configuration as read at step 3 of R339 (R475, R476). -/
structure IntegrationConfig where
  /-- boot_sel, image slot (R121, R476). -/
  bootSel : Nat := 0
  /-- pc_len in beats (R367). -/
  pcLen : Nat := 0
  /-- ext_chan_base (R351). -/
  extChanBase : Nat := 0x80
  /-- Populated-region mask (R5). -/
  regions : BitVec 128 := 0
  /-- Core-state length in beats (R78). -/
  csLen : Nat := 1
  /-- Router-to-Letterbox leg in units of 0.125 ns (R142). -/
  lbLeg : Nat := 0
  /-- Parcel store survives a warm reset (R388). -/
  storeWarm : Bool := false
  /-- Parcel store survives a cold reset (R388). -/
  storeCold : Bool := false
  /-- Host cores accept images (R422). -/
  images : Bool := false
  /-- Courier transmit credits for channels 0 to 9 (R107). -/
  credits : List Nat := []
  fullLen : Nat := 1
  fullSig : BitVec 32 := 0
  fTmax : Nat := 0
  /-- slice_len and slice_sig of slices 0 to S - 1 (R249). -/
  slices : List (Nat × BitVec 32) := []
  /-- bank_sig of banks 0 to bank_cnt - 1 (R249). -/
  bankSigs : List (BitVec 32) := []
  bankLen : Nat := 0
  /-- The KAT set (R250). -/
  kats : List KatEntry := []
  /-- Region records 0 to 127. -/
  regionCfg : List RegionCfg := []
  /-- Distance-class nibbles and wave bytes as the image holds them, by byte offset (R475). -/
  image : List Host.Cell := []
  /-- Core positions that hold a host core, as inclusive ranges (R5, R6). -/
  present : List (Nat × Nat) := []
  deriving DecidableEq, Repr

/-! ### The job manifest (R419) -/

/-- One Timetable entry (R346). -/
structure TtEntry where
  isFinal : Bool := false
  exact : Bool := false
  expCyc : Nat := 0
  expPm : Nat := 0
  deriving DecidableEq, Repr

/-- A ROLES record (R419). -/
structure RoleRec where
  role : Nat := 0
  core : Nat := 0
  spare : Bool := false
  ownTiles : Nat := 0
  deriving DecidableEq, Repr

/-- A window record (R185). -/
structure WindowRec where
  window : Nat := 0
  tidLo : Nat := 0
  tidHi : Nat := 0
  deriving DecidableEq, Repr

/-- A slot record (R186). -/
structure SlotRec where
  role : Nat := 0
  slot : Nat := 0
  referee : Bool := false
  window : Nat := 0
  readOffset : Nat := 0
  deriving DecidableEq, Repr

/-- An idle-slot record (R259). -/
structure IdleRec where
  role : Nat := 0
  banksIdle : Bool := false
  bankLo : Nat := 0
  bankHi : Nat := 0
  startOffset : Nat := 0
  deriving DecidableEq, Repr

/-- A PARCEL section record of a manifest (R419). -/
structure HostSect where
  kind : Nat := 1
  pages : Nat := 0
  addr : Nat := 0
  deriving DecidableEq, Repr

/-- A RESTORE_MAP record (R419). -/
structure RestoreRec where
  isRole : Bool := false
  new : Nat := 0
  old : Nat := 0
  deriving DecidableEq, Repr

/-- A job manifest (R419). -/
structure Manifest where
  jobSeed : BitVec 64 := 0
  slotLen : Nat := 0
  firstStep : Nat := 0
  wafer : Nat := 0
  shadowFrac : Nat := 16
  regions : BitVec 128 := 0
  roles : List RoleRec := []
  windows : List WindowRec := []
  slots : List SlotRec := []
  idle : List IdleRec := []
  timetables : List (Nat × List TtEntry) := []
  parcel : List HostSect := []
  restoreMap : List RestoreRec := []
  /-- SHA-384 of the manifest's bytes (R369, R420). -/
  digest : BitVec 384 := 0
  deriving DecidableEq, Repr

/-! ### The Ledger (R31, R122, R231) -/

/-- Per-core history kept in the Ledgers (R231, R232). The reset value is the default of R234:
PROBATION with 32 pips and fence count 0. -/
structure CoreHist where
  /-- State without the UNSCREENED overlay of R232. -/
  st : CoreSt := .probation
  /-- The core is UNSCREENED; `st` is then the state recorded before (R232). -/
  unscreened : Bool := false
  pips : Nat := 32
  fences : Nat := 0
  /-- Start count of the probation period; none until the first launch (R234). -/
  probStart : Option Nat := none
  /-- Franked steps carried since the period began (R232). -/
  franked : Nat := 0
  /-- Hours, by number, in which a charge was decided and whose clean hours have not been given yet (R230). -/
  charged : List Nat := []
  /-- Count since which the core has been in a state that earns clean hours (R230). -/
  eligibleSince : Nat := 0
  /-- A full rolling test has passed since the core became SUSPECT without role (R232). -/
  rolled : Bool := false
  deriving DecidableEq, Repr

/-- A parcel generation's record in its own wafer's Ledger (R382). -/
structure GenRec where
  gen : Nat := 0
  state : GenState := .reserving
  step : Nat := 0
  root : BitVec 384 := 0
  pages : Nat := 0
  epoch : Nat := 0
  holder1 : Nat := 0
  holder2 : Nat := 0
  exposure : Nat := 0
  /-- Bases that the two Holders granted (R375), read again at re-replication (R385). -/
  base1 : Nat := 0
  base2 : Nat := 0
  deriving DecidableEq, Repr

/-- A record a Holder keeps for one held copy (R386). -/
structure HoldRec where
  holdee : Nat := 0
  gen : Nat := 0
  epoch : Nat := 0
  base : Nat := 0
  pages : Nat := 0
  root : BitVec 384 := 0
  committed : Bool := false
  /-- LOST under R388. -/
  lost : Bool := false
  /-- Count of the reservation or of its latest renewal (R387). -/
  since : Nat := 0
  deriving DecidableEq, Repr

/-- A fill as the fill ledger records it: its latest phase, 1 ALLOCATED to 6 DONE and 7 ABANDONED, with the count of that
phase (R31, R238). -/
structure FillRec where
  role : Nat := 0
  src : Nat := 0
  dst : Nat := 0
  phase : Nat := 1
  since : Nat := 0
  deriving DecidableEq, Repr

/-- What the persisted Ledger holds (R31, R122, R231, R274, R382, R386, R392, R407, R429). -/
structure LedgerData where
  /-- Per-core history; a position not listed has none (R234). -/
  hist : Tab CoreHist := []
  /-- Job epoch, 1 to 65,535; zero before the first job (R392). -/
  epoch : Nat := 0
  /-- Last accepted seq per sender address (R407). -/
  senders : Tab (BitVec 32) := []
  bmGen : Nat := 0
  bmDigest : BitVec 384 := 0
  stepDecided : Nat := 0
  stepFranked : Nat := 0
  /-- Postmark counts of the IEEE 1687 network openings (R274). -/
  openings : List Nat := []
  /-- Parcel generation number of the latest parcel that reached S (R382). -/
  lastGen : Nat := 0
  /-- Generation records, newest first (R382). -/
  gens : List GenRec := []
  /-- The record of the generation in progress (R382). -/
  inGen : Option GenRec := none
  /-- Held copies of other wafers (R386). -/
  holds : List HoldRec := []
  /-- The Head Office's copy of every core's pips (R31). -/
  hoPips : Tab Nat := []
  /-- Fill ledger of the Head Office, oldest first (R31, R238). -/
  fillLog : List FillRec := []
  deriving DecidableEq, Repr

/-- A Ledger slot of the Archive: the sequence number and CRC-64 of its header, and its body (R122). (DESIGN CHOICE, log 6.) -/
structure LedgerImage where
  seq : Nat := 0
  data : LedgerData := {}
  crc : BitVec 64 := 0
  deriving DecidableEq, Repr

/-- FREE VALUE. The CRC-64 over a Ledger body (R122): the manual gives the check, and not the bytes that lay a Ledger out. (DESIGN CHOICE, log 125.) -/
opaque Config.ledgerCrc : LedgerData → BitVec 64

/-- FREE VALUE. The 64-bit beats of a Ledger body on ar_wd_data, by number (R119). (DESIGN CHOICE, log 125.) -/
opaque Config.ledgerBeat : LedgerData → Nat → BitVec 64

/-- The header's check agrees with the body (R122). -/
def LedgerImage.valid (x : LedgerImage) : Bool := decide (x.crc = Config.ledgerCrc x.data)

/-! ### Tile formats shared by commands and state -/

/-- One measured Postmark leg: the node it ends at and its 64 round trips in 0.125 ns units (R141). (DESIGN CHOICE, log 6.) -/
structure LegSample where
  /-- Node: 0 a Head Office reader; 1 + n Courier node n; 32 + r Office node r;
  256 + 128 r + x router x of region r. -/
  node : Nat
  trips : List Nat
  deriving DecidableEq, Repr

end Sys2Proof
end

