-- ==== Sys2Proof/Syntax.lean ====
section
/-! DEFINITION. The commands W1 takes: one constructor for each row of spec/opcode_table.json, with the
signals, addresses and answers each one brings from outside the block. -/

namespace Sys2Proof

/-- A weight beat of the Core Tap (02_core_tap_port, "Weight and activation taps"). -/
structure WeightBeat where
  first : Bool
  last : Bool
  tag : BitVec 2
  fmt : BitVec 4
  k : BitVec 8
  n : BitVec 8
  kseg : BitVec 3
  data : BitVec 256
  scale : BitVec 16
  stamp : BitVec 32
  tid : BitVec 32
  deriving DecidableEq, Repr

/-- An activation beat of the Core Tap. -/
structure ActBeat where
  tag : BitVec 2
  fmt : BitVec 4
  kseg : BitVec 3
  rowLast : Bool
  tileLast : Bool
  data : BitVec 256
  scale : BitVec 16
  deriving DecidableEq, Repr

/-- A drain cycle of the accumulator tap: 32 lanes of 48 bits (R58). -/
structure AccBeat where
  vld : BitVec 32
  data : BitVec 1536
  wide : Bool
  lsbExp : BitVec 8
  tag : BitVec 2
  rowLast : Bool
  tileLast : Bool
  deriving DecidableEq, Repr

/-- An output beat of the Core Tap (R57). -/
structure OutBeat where
  tag : BitVec 2
  fmt : BitVec 4
  rowLast : Bool
  tileLast : Bool
  data : BitVec 256
  deriving DecidableEq, Repr

/-- A weight beat of an Intake Tap (R91). -/
structure IntakeBeat where
  first : Bool
  last : Bool
  fmt : BitVec 4
  k : BitVec 8
  n : BitVec 8
  kseg : BitVec 3
  tid : BitVec 32
  data : BitVec 256
  scale : BitVec 16
  deriving DecidableEq, Repr

/-- A reduction beat on one side of an Egress Tap (R96). -/
structure EgressBeat where
  first : Bool
  last : Bool
  grp : BitVec 16
  lv : BitVec 8
  lsbExp : BitVec 8
  data : BitVec 512
  step : BitVec 32
  deriving DecidableEq, Repr

/-- A message-lane flit: 512 data bits with even parity per 32-bit lane (03_system_ports, "Courier ports"). -/
structure CourierFlit where
  sop : Bool
  eop : Bool
  data : BitVec 512
  par : BitVec 16
  deriving DecidableEq, Repr

/-- An IMAGE packet as a Letterbox receives it (R424). -/
structure ImagePacket where
  pktIdx : BitVec 14
  imageId : BitVec 16
  bytes : BitVec 384
  deriving DecidableEq, Repr

/-- What the two Holders and the copies answer to a restore (R389, R390). A root is zero when it is
missing: LOST, or unanswered within 10,000,000,000 ticks. (DESIGN CHOICE, log 6.) -/
structure RestoreAnswers where
  root1 : BitVec 384
  root2 : BitVec 384
  /-- Page 0 and the table pages as read from each copy, as (page, bytes); empty when unreadable. -/
  head1 : List (List Byte)
  head2 : List (List Byte)
  /-- The data pages as read from each copy, in page order; empty where unreadable. -/
  data1 : List (List Byte)
  data2 : List (List Byte)
  /-- The data pages read back after the restore from each copy: host sections and core-state beats (R390). -/
  back1 : List (List Byte)
  back2 : List (List Byte)
  /-- CORE_STATE records read from the parcel: old role and the record's beats. -/
  records : List (Nat × List Flit)
  /-- Promotions of the parcel's Dice state: old role, identifier, remaining steps. -/
  promotions : List (Nat × Nat × Nat)
  /-- Checker bursts of the parcel's Dice state: old role and own tiles still to plant (R216). -/
  bursts : List (Nat × Nat)
  /-- Rate codes of SUSPECT, PROBATION and ACTIVE, and thr_ld, of the parcel's Dice state (R216). -/
  rates : Nat × Nat × Nat × Nat
  /-- Running counters of the parcel's Dice state by region: draws, selections, placements, DICE_SHORT, DICE_DROP, then
  the outcomes (R216). -/
  counters : List (Nat × List Nat)
  deriving DecidableEq, Repr

/-- Results of the power-up tests of the Head Office and of the debug domain beside it (R252, R272). -/
structure DomainTests where
  ho : Bool
  dbg : Bool
  deriving DecidableEq, Repr

/-- A read of the descriptor table: `clash` when the slot's referee descriptor is written in the same cycle (R68, R215). -/
structure DescRead where
  slot : BitVec 8
  clash : Bool
  deriving DecidableEq, Repr

/-- A test to drive: the unit that stands on the core, or one of the full test engine of the open network, with mode and
unit number (R75, R274). -/
structure TestDrive where
  core : CoreIdx
  engine : Option (BitVec 2 × BitVec 16)
  deriving DecidableEq, Repr

/-- A frame of a router or node: `differs` when the two lookups of the path of a packet to inject disagree (R283, R292). -/
structure FrameTurn where
  unit : BitVec 24
  differs : Bool
  deriving DecidableEq, Repr

/-- A table swap of a region: the routers to route around, and the routers whose stage packet goes through the Post (R300, R303). -/
structure SwapPlan where
  around : BitVec 128
  away : List (BitVec 14)
  deriving DecidableEq, Repr

/-- The memories of R482 that can hold an uncorrectable word. -/
inductive SramUnit where
  | letterbox (core : CoreIdx)
  | office (region : RegionIdx) (member : BitVec 1)
  | headOffice
  | courier (n : BitVec 4) (id : BitVec 10)
  | trace
  deriving DecidableEq, Repr

/-- The segment insertion bits of the IEEE 1687 network (R469). -/
inductive Sib where
  | ho | pm
  | cr (n : BitVec 4)
  | rg (r : RegionIdx)
  | oa (r : RegionIdx)
  | ob (r : RegionIdx)
  | cl (r : RegionIdx) (c : BitVec 7)
  | rs (r : RegionIdx) (c : BitVec 7)
  | lb (core : CoreIdx)
  | ls (core : CoreIdx)
  | cap (core : CoreIdx)
  deriving DecidableEq, Repr

/-- The commands of the block: one constructor for each row of spec/opcode_table.json. (DESIGN CHOICE, log 6.) -/
inductive Instr where
  /-- BLOCK_POWER_ON_RESET (R88): rs_por_n asserts; every output of W1 takes its reset value and the Postmark returns to UNSET with base 0. -/
  | blockPowerOnReset
  /-- BLOCK_RESET_RELEASE (R339): rs_por_n deasserts; W1 samples life-cycle and identifiers and starts the bring-up sequence with the Postmark domain. -/
  | blockResetRelease (lc lcInv : BitVec 3) (arPresent idVld : Bool) (feed loop : BitVec 16) (rack : BitVec 24) (mfgId : BitVec 11) (rgnVok : BitVec 128)
  /-- POSTMARK_DOMAIN_TEST_DONE (R252): Postmark and stop-tree self-test and leg calibration end; on failure SAFE with STOP_TREE, otherwise the Head Office domain powers up. -/
  | postmarkDomainTestDone (pass : Bool) (legs : List LegSample)
  /-- HEAD_OFFICE_TEST_DONE (R252): The Head Office test ends; on pass mg_alarm_n is released and the image load starts, on failure SAFE with HO_TEST_FAIL. -/
  | headOfficeTestDone (tests : DomainTests) (bootSel : BitVec 1) (slot0 slot1 : Option (List Byte))
  /-- CONFIGURATION_CHECK (R477): The integration configuration is read and checked; a bad configuration makes the block behave as for NO_IMAGE. -/
  | configurationCheck (image : List Host.Cell) (present : List (Nat × Nat))
  /-- LEDGER_RELOAD_DONE (R122): The Head Office Ledger is reloaded from the valid slot with the higher sequence number, or defaults apply. -/
  | ledgerReloadDone (slotA slotB : Option LedgerImage)
  /-- OFFICE_MEMBER_TEST_DONE (R252): An Office twin member finishes its power-up test; a failed member never serves. -/
  | officeMemberTestDone (region : RegionIdx) (member : BitVec 1) (pass : Bool) (legs : List LegSample)
  /-- ROUTER_LOOPBACK_DONE (R252): A router finishes its power-up loopback; a failed router is lost and its cluster fenced. -/
  | routerLoopbackDone (region : RegionIdx) (router : BitVec 7) (pass : Bool)
  /-- COURIER_DOMAIN_TEST_DONE (R252): A Courier domain finishes its port loopback and tap tile; a failure disables the port or the domain. -/
  | courierDomainTestDone (n : BitVec 4) (portPass tapPass : Bool)
  /-- OFFICE_LEDGER_DELIVERED (R340): An Office Ledger slice arrives and the Office applies its held test results to pips and states. -/
  | officeLedgerDelivered (region : RegionIdx)
  /-- WAVE_REQUEST (R341): W1 requests the next power wave in order once the previous handshake has ended and 200 us have passed since the last request. -/
  | waveRequest
  /-- WAVE_ACK (R114): pw_wave_ack rises; W1 lowers its request, and the wave's Letterboxes and core tests begin. -/
  | waveAck
  /-- WAVE_FAIL (R115): pw_wave_fail rises; W1 completes the handshake and reports the wave's cores FENCED without role for the power cycle. -/
  | waveFail
  /-- WAVE_TIMEOUT (R115): 5 ms pass without an answer to a wave; it is handled as a failed wave. -/
  | waveTimeout
  /-- BOARD_MAP_PUBLICATION (R344): After every region finishes core tests, a Board Map generation is published, BOARD_MAP_READY is queued and the service state becomes READY. -/
  | boardMapPublication
  /-- CORE_POR_ASSERT (R48): ct_por_n falls; the Letterbox and Tally Reducer reset and the core's summaries stop. -/
  | corePorAssert (core : CoreIdx)
  /-- CORE_POR_RELEASE (R147): ct_por_n deasserts; the Letterbox runs its self-test and starts the alignment handshake. -/
  | corePorRelease (core : CoreIdx) (ctrlPass checkPass : Bool)
  /-- ALIGNMENT_EPOCH_CHECK (R148): At an alignment epoch the Letterbox checks its core-cycle count against the tree count, completing or repeating the handshake or raising CLOCK_UNDECLARED. -/
  | alignmentEpochCheck (core : CoreIdx) (cycles : BitVec 16)
  /-- CLOCK_CHANGE_DECLARED (R158): ct_clk_chg rises and the Letterbox judges milestones by core-cycle counts. -/
  | clockChangeDeclared (core : CoreIdx)
  /-- CLOCK_CHANGE_ENDED (R158): ct_clk_chg falls and the Letterbox reruns the alignment handshake, staying in core-cycle mode until it succeeds. -/
  | clockChangeEnded (core : CoreIdx)
  /-- WEIGHT_BEAT (R52): A weight beat is accepted and its converted lanes are added into v for its tag, with the stamp computed alongside. -/
  | weightBeat (core : CoreIdx) (b : WeightBeat)
  /-- ACTIVATION_BEAT (R54): An activation beat is accepted; at a row's end X·v mod 8191 is placed in the row queue. -/
  | activationBeat (core : CoreIdx) (b : ActBeat)
  /-- ACCUMULATOR_DRAIN (R59): The Tally Reducer folds a drain cycle of accumulator lanes and drives the row residue 4 cycles after the row's last lanes. -/
  | accumulatorDrain (core : CoreIdx) (b : AccBeat)
  /-- ROW_COMPARE (R61): Once a tally residue and its queued row result are both present, the Letterbox compares them, applying any planted offset. -/
  | rowCompare (core : CoreIdx)
  /-- OUTPUT_BEAT (R57): An output beat is accepted for the result digest and plausibility canaries. -/
  | outputBeat (core : CoreIdx) (b : OutBeat)
  /-- SATURATION_PULSE (R182): ct_sat pulses and marks the open tile's sat bit. -/
  | saturationPulse (core : CoreIdx)
  /-- FLUSH_STICKY (R172): ct_flush_sticky is seen high and gives the open tiles the flush mark. -/
  | flushSticky (core : CoreIdx) (level : Bool)
  /-- TILE_VERDICT (R218): Once a tile's activation, tally and output ends are all seen, the Letterbox sends its verdict message with digest and plausibility byte. -/
  | tileVerdict (core : CoreIdx) (tag : BitVec 2)
  /-- CORE_SUMMARY (R219): After the final milestone and the last own-tile verdict, the Letterbox sends the core summary for the step slot. -/
  | coreSummary (core : CoreIdx)
  /-- MILESTONE (R348): ct_ms_vld is sampled; the milestone is stamped and judged against the Timetable. -/
  | milestone (core : CoreIdx) (id : BitVec 6) (cyc : BitVec 48)
  /-- STALL (R348): The core-cycle count reaches exp_cyc + 1,024 without the expected milestone and STALL is reported once per slot. -/
  | stall (core : CoreIdx)
  /-- WAIT_BEGIN (R66): ct_wait_vld pulses and the Letterbox holds the new waiting-on descriptor. -/
  | waitBegin (core : CoreIdx) (chan : BitVec 8) (peer : BitVec 20)
  /-- WAIT_CLEAR (R66): ct_wait_clr pulses and the held descriptor is cleared. -/
  | waitClear (core : CoreIdx)
  /-- SHADOW_DESCRIPTOR_READ (R68): The core reads a descriptor-table entry and receives it in the next cycle, kind 0 if unwritten. -/
  | shadowDescriptorRead (core : CoreIdx) (read : DescRead)
  /-- FENCE_ORDER (R71): The Letterbox lowers ct_fence_n to start the fence sequence and closes open tiles UNCHECKABLE. -/
  | fenceOrder (core : CoreIdx) (toHold : Bool)
  /-- FENCE_ACK (R71): ct_fence_ack rises; the Letterbox isolates the core and, for FENCED, continues into hold and clock gating. -/
  | fenceAck (core : CoreIdx)
  /-- FENCE_TIMEOUT (R70): 256 cycles pass without ct_fence_ack; the Letterbox isolates at cycle 257 and reports FENCE_TIMEOUT. -/
  | fenceTimeout (core : CoreIdx)
  /-- CORE_RELEASE (R72): At a step boundary or outside a job the Letterbox runs the fence in reverse, leaving the clock gated while a stop holds it. -/
  | coreRelease (core : CoreIdx)
  /-- TEST_REQUEST (R75): With the core fenced and isolated, the Letterbox drives mode and budget and raises ct_tst_req. -/
  | testRequest (drive : TestDrive)
  /-- TEST_ACK (R76): ct_tst_ack rises and the core's test runs against its budget. -/
  | testAck (core : CoreIdx)
  /-- TEST_DONE (R77): ct_tst_done rises; the Letterbox samples pass and signature, re-initialises the core and reports the result. -/
  | testDone (core : CoreIdx) (pass : Bool) (sig : BitVec 32)
  /-- TEST_TIMEOUT (R76): ct_tst_ack or ct_tst_done does not rise in time and the test counts as failed. -/
  | testTimeout (core : CoreIdx)
  /-- CAPTURE_REQUEST (R79): The Letterbox raises ct_cap_req to read or load core state, ungating a stopped core for the duration. -/
  | captureRequest (core : CoreIdx) (load : Bool) (beats : BitVec 13)
  /-- CAPTURE_ACK (R78): ct_cap_ack rises and the capture path opens. -/
  | captureAck (core : CoreIdx)
  /-- CAPTURE_BEAT (R78): A capture beat moves with valid and ready both high; at the last or pc_len-th beat the request falls. -/
  | captureBeat (core : CoreIdx) (data : BitVec 128) (last : Bool)
  /-- CAPTURE_TIMEOUT (R79): ct_cap_ack does not rise within 16 cycles or the beat count is wrong; the image is invalid. -/
  | captureTimeout (core : CoreIdx)
  /-- CAPTURE_CLOSE (R79): ct_cap_ack falls and the Letterbox regates the clock 2 cycles later if the core was stopped. -/
  | captureClose (core : CoreIdx)
  /-- INTAKE_BEAT (R91): An Intake Tap beat is accepted and folded into the tile's stamp, which is emitted 6 cycles after it_last. -/
  | intakeBeat (n : BitVec 4) (b : IntakeBeat)
  /-- EGRESS_INPUT_BEAT (R96): A reduction input beat is folded into its group's input sum. -/
  | egressInputBeat (n : BitVec 4) (b : EgressBeat)
  /-- EGRESS_OUTPUT_BEAT (R97): A reduction output beat is folded into its group's output sum, closing the group when both sides have ended. -/
  | egressOutputBeat (n : BitVec 4) (b : EgressBeat)
  /-- EGRESS_STEP_END (R98): et_step_end pulses; open groups of the step close UNCHECKABLE and the summary is sent to the Head Office. -/
  | egressStepEnd (n : BitVec 4) (step : BitVec 32)
  /-- FRANK_PRESENT (R101): At the common count F_c every enabled Frank port presents the FRANK or WITHHELD notice. -/
  | frankPresent
  /-- FRANK_ACCEPT (R101): et_fr_rdy meets et_fr_vld; the notice is accepted and the next queued notice may follow. -/
  | frankAccept (n : BitVec 4)
  /-- CR_LINK_UP (R107): cr_link_up rises and the port starts with its configured transmit credits. -/
  | crLinkUp (n : BitVec 4)
  /-- CR_LINK_DOWN (R108): cr_link_up falls; the port stops issuing and completes outstanding transfers with response 1. -/
  | crLinkDown (n : BitVec 4)
  /-- CR_WRITE_RESPONSE (R103): A write response returns and is matched by identifier. -/
  | crWriteResponse (n : BitVec 4) (id : BitVec 10) (resp : BitVec 2)
  /-- CR_READ_BEAT (R104): A read beat arrives and its parity is checked. -/
  | crReadBeat (n : BitVec 4) (id : BitVec 10) (data : BitVec 2048) (par : BitVec 64) (last : Bool) (resp : BitVec 2)
  /-- CR_FLIT_TRANSMIT (R107): W1 sends a message-lane flit on a channel for which it holds a credit. -/
  | crFlitTransmit (n : BitVec 4) (vc : BitVec 4)
  /-- CR_CREDIT_RETURN (R107): A credit pulse on cr_mt_crd returns one transmit credit for a channel. -/
  | crCreditReturn (n : BitVec 4) (vc : BitVec 4)
  /-- CR_FLIT_RECEIVE (R107): A received flit enters the channel buffer; one without a credit is discarded with CR_OVERRUN. -/
  | crFlitReceive (n : BitVec 4) (vc : BitVec 4) (f : CourierFlit)
  /-- FLEET_PACKET_RECEIVE (R319): A whole fleet packet is unpacked, checked by fcrc and sent on in transit or delivered to the Head Office. -/
  | fleetPacketReceive (n : BitVec 4) (vc : BitVec 4)
  /-- TRANSIT_SLOT_REPORT (R323): Every 10,000 ticks or on a change, a port reports arrived and freed counts for its transit slots. -/
  | transitSlotReport (n : BitVec 4)
  /-- TRANSIT_LOST (R323): Arrived stays below sent for 20,000 ticks and the source resets its sent count. -/
  | transitLost (n : BitVec 4) (vc : BitVec 4) (source : BitVec 5)
  /-- HOST_DONE (R89): rs_host_done pulses and W1 continues the requested reset, or counts SPURIOUS_DONE if none is raised. -/
  | hostDone
  /-- EXTERNAL_RESET_REQUEST (R90): rs_ext_req_n is low for 2 ck_ref cycles and W1 raises rs_cold_req within 1 us. -/
  | externalResetRequest
  /-- SYNC_PULSE (R137): A counted ck_sync pulse applies an armed load or is latched and checked against V + 10·k·P. -/
  | syncPulse (long : Bool)
  /-- SYNC_MISSING (R137): No sync pulse arrives for 2·P cycles and SYNC_MISSING is raised. -/
  | syncMissing
  /-- REF_LOST (R87): 36 ck_ho cycles pass without a ck_ref edge and the block enters SAFE with REF_LOST. -/
  | refLost
  /-- LEG_REMEASURE (R144): Once per second every leg is remeasured and PM_DRIFT is raised where it moved more than 0.5 ns. -/
  | legRemeasure (legs : List LegSample)
  /-- POWER_ID_VALID (R117): pw_id_vld rises or the identifiers change and W1 takes new identifiers. -/
  | powerIdValid (vld : Bool) (feed loop : BitVec 16) (rack : BitVec 24)
  /-- REGION_VOK_FALL (R116): pw_rgn_vok falls during a structural test, whose result is discarded and the test rerun. -/
  | regionVokFall (region : RegionIdx) (restored : Bool)
  /-- TEST_WINDOW (R256): A core's test window is not met within 100 ms or fails three times and the core stays FENCED without role. -/
  | testWindow (core : CoreIdx)
  /-- SHUTDOWN_REQUEST (R118): pw_shdn_req rises; W1 stops the host, abandons a parcel capture and persists the Ledger. -/
  | shutdownRequest
  /-- ARCHIVE_DONE (R119): ar_done pulses and W1 issues its next Archive command. -/
  | archiveDone (status : BitVec 2)
  /-- KEY_PORT_WORD (R124): A key word arrives on the key port; the twelfth completes the load and a bad load zeroizes the slot. -/
  | keyPortWord (slot : BitVec 2) (data : BitVec 32) (last : Bool)
  /-- ZEROIZE_REQUEST (R125): sc_zero_req rises; every key slot is zeroed and sc_zero_done pulses. -/
  | zeroizeRequest
  /-- STOP_INPUT (R126): st_stop_in_n is low for 2 ck_ref cycles; the received latch is set and a stop is registered. -/
  | stopInput (level : Bool)
  /-- STOP_OUTPUT_PULSE_END (R454): 100 ck_ref cycles after it fell, st_stop_out_n rises again. -/
  | stopOutputPulseEnd
  /-- STOP_COUNT_REACHED (R453): At the stop count each Letterbox gates its core and writes its stop record; STOP_TAKEN is queued. -/
  | stopCountReached
  /-- STOP_RELEASED (R458): A stop's causes and latch clear; the wafer computes its resume count and contributes it to collective 14. -/
  | stopReleased
  /-- RESUME_COUNT_REACHED (R459): At R* every Letterbox ungates its core and pending counts shift later; RESUMED is queued. -/
  | resumeCountReached
  /-- RESUME_LATE (R458): The resume result has not arrived by R less 300,000 ticks and the wafer originates an urgent stop. -/
  | resumeLate
  /-- LAUNCH_ARM_DEADLINE (R152): At L − 200,000 ticks with Letterboxes unarmed, Viloladric originates a stop and LAUNCH ends LAUNCH_ABORTED. -/
  | launchArmDeadline
  /-- LAUNCH_COUNT_REACHED (R151): At L each armed Letterbox ungates its core and the final LAUNCH receipt issues. -/
  | launchCountReached
  /-- STEP_BOUNDARY (R43): At a step boundary W1 publishes the new Board Map generation, releases fenced cores and completes armed fills. -/
  | stepBoundary
  /-- DICE_FILL (R197): Once the region verdict is complete the Office draws, ranks and places tiles in shadow slots and delivers the descriptors. -/
  | diceFill (region : RegionIdx) (tiles : List (BitVec 20 × BitVec 32)) (late : List (BitVec 20 × BitVec 8))
  /-- OFFICE_VERDICT_RECEIVE (R203): The Office files a tile verdict message, checks its Loaded Die draw and decides any comparison now complete. -/
  | officeVerdictReceive (region : RegionIdx) (cluster : BitVec 7)
  /-- CORE_SUMMARY_RECEIVE (R219): The Office receives a core summary and checks its count against the manifest. -/
  | coreSummaryReceive (region : RegionIdx) (cluster : BitVec 7)
  /-- REGION_VERDICT_DEADLINE (R225): At D_r the Office closes open comparisons, sets LATE, names roles for relocation and sends the region record. -/
  | regionVerdictDeadline (region : RegionIdx)
  /-- REGION_RECORD_RECEIVE (R226): The Head Office receives a region record for the step. -/
  | regionRecordReceive
  /-- EGRESS_SUMMARY_RECEIVE (R98): The Head Office receives an Egress Tap summary for a step. -/
  | egressSummaryReceive
  /-- STEP_DECISION (R228): At D_h the Head Office franks or withholds the step, forms its digest and queues the step-decision event. -/
  | stepDecision
  /-- DECISION_RECEIVE (R237): The step decision reaches an Office, which allocates spares for named roles and starts fills. -/
  | decisionReceive (region : RegionIdx)
  /-- FILL_PHASE_COMPLETE (R238): A fill phase (test, capture, load) completes and the fill advances, reaching ARMED with role epochs advanced. -/
  | fillPhaseComplete (region : RegionIdx) (role : BitVec 20) (ok : Bool)
  /-- FILL_TIMEOUT (R238): A fill is not ARMED within 1,000,000 ticks of ALLOCATED and ends as a failure of the target. -/
  | fillTimeout (region : RegionIdx) (role : BitVec 20)
  /-- CLEAN_HOUR (R230): At the first boundary after an hour boundary each eligible uncharged core loses one pip and state changes apply. -/
  | cleanHour
  /-- WAIT_GRAPH_BUILD (R351): At T_end + 2,000 ticks Viloladric builds the wait-for graph, classifies stall roots and sends them to the Offices. -/
  | waitGraphBuild
  /-- STALL_EVENT_RECEIVE (R461): A STALL or WAIT_UPDATE event is forwarded by the Office and filed at the Head Office. -/
  | stallEventReceive (region : RegionIdx) (cluster : BitVec 7)
  /-- EVENT_FORWARD (R461): An Office forwards rate-limited Letterbox or router events at most once per code per 10 us. -/
  | eventForward (region : RegionIdx)
  /-- TEST_UNIT_PLACE (R261): The Office scheduler starts a queued unit on a core when a window opens that can hold it. -/
  | testUnitPlace (region : RegionIdx)
  /-- STANDBY_PERIOD (R272): standby_period elapses and the standby member is tested with mirroring stopped. -/
  | standbyPeriod (region : RegionIdx)
  /-- STANDBY_COPY_DONE (R25): The standby finishes copying Ledger and queues and becomes eligible. -/
  | standbyCopyDone (region : RegionIdx)
  /-- PLANNED_SWAP (R24): In a drain gap or outside a job the primary and eligible standby swap roles within 10 us. -/
  | plannedSwap (region : RegionIdx)
  /-- ROUTER_ROUND (R272): In a drain gap the Office routes around a router, runs its 5 us loopback and swaps back. -/
  | routerRound (region : RegionIdx) (pass : Bool)
  /-- OFFICE_PRIMARY_FAIL (R26): The serving Office member fails and the standby takes over or reloads; the step in flight is not franked. -/
  | officePrimaryFail (region : RegionIdx)
  /-- LOCKSTEP_DISAGREE (R30): The Head Office lockstep cores disagree; both stop, the alarm rises and the host is held in SAFE. -/
  | lockstepDisagree
  /-- SRAM_UNCORRECTABLE (R482): A block SRAM read finds an uncorrectable word and the owning unit fails as the table states. -/
  | sramUncorrectable (mem : SramUnit)
  /-- ROUTER_FRAME (R292): In each frame a router or node orders arrived packets by age, assigns outputs, deflects or discards, then injects. -/
  | routerFrame (turn : FrameTurn)
  /-- SEAM_DELIVER (R306): A packet held in a seam buffer is delivered on the far side at the next frame boundary. -/
  | seamDeliver (unit : BitVec 24) (dir : BitVec 2)
  /-- TERMINAL_RECEIVE (R295): A terminal receives a packet and delivers it or turns it into a Returned packet. -/
  | terminalReceive (unit : BitVec 24) (full : Bool)
  /-- RETURNED_RECEIVE (R297): A Returned packet reaches its sender, which resends, drops or reports by reason. -/
  | returnedReceive (unit : BitVec 24)
  /-- RESEND_TIMER (R297): 64 frames after a NO_BUFFER or NOT_SERVING return, the sender resends the held copy. -/
  | resendTimer (unit : BitVec 24)
  /-- CONGESTION_SAMPLE (R307): At each multiple of 10,000 ticks a router forms and sends its occupancy and deflection byte. -/
  | congestionSample (region : RegionIdx) (router : BitVec 7)
  /-- REGION_MAP_SEND (R308): An Office sends the Head Office its region map and updates its throttle level and router limits. -/
  | regionMapSend (region : RegionIdx)
  /-- WAFER_MAP_BROADCAST (R310): Every 100 us Viloladric sends every Office the wafer map's region maxima. -/
  | waferMapBroadcast
  /-- TABLE_SWAP_START (R300): Viloladric writes new entries into the inactive table version and, once acknowledged, stages the inject-version change. -/
  | tableSwapStart (region : RegionIdx) (plan : SwapPlan)
  /-- TABLE_VERSION_RETIRE (R300): 13,000 ticks after activation the old table version is retired. -/
  | tableVersionRetire
  /-- STAGED_ACTIVATION (R304): At act_pm a target applies a complete stage or discards it; a sender missing ACKs reports STAGE_PARTIAL. -/
  | stagedActivation (unit : BitVec 24)
  /-- STAGE_ACK_TIMEOUT (R305): An ACK has not arrived in 30,000 ticks and the sequencer resends, at most 4 times. -/
  | stageAckTimeout (unit target : BitVec 24)
  /-- FLEET_HELLO (R331): A HELLO or HELLO_REPLY message arrives and the partner entry is created, refreshed or refused. -/
  | fleetHello
  /-- HELLO_PERIODIC (R329): Every 1,000,000,000 ticks W1 sends HELLO to its neighbours, Holders and holdees. -/
  | helloPeriodic
  /-- PARTNER_STALE (R331): A partner is silent past its limit and becomes STALE, triggering Holder reselection. -/
  | partnerStale (wafer : BitVec 16)
  /-- PARTNER_REMOVE (R331): A partner STALE or REFUSED for 60,000,000,000 ticks is removed unless it holds a parcel link. -/
  | partnerRemove (wafer : BitVec 16)
  /-- LETTER_MESSAGE (R397): A LETTER fleet message arrives and is placed in the fleet command ring of its sender. -/
  | letterMessage
  /-- LETTER_FWD (R325): A relay receives a LETTER_FWD to serve or reserves a slot and forwards a Request beyond 12 hops. -/
  | letterFwd
  /-- RECEIPT_MESSAGE (R325): A RECEIPT or REFUSED reply fills its reserved slot and is placed in the ring, or relayed back. -/
  | receiptMessage
  /-- REPLY_TIMEOUT (R325): A reply slot sees no Reply for 10,000,000 ticks and is released with REPLY_TIMEOUT. -/
  | replyTimeout (slot : BitVec 10)
  /-- FRAGMENT_TIMEOUT (R324): A message still missing fragments 100,000 ticks after its first is discarded. -/
  | fragmentTimeout (source : BitVec 16) (reqSeq : BitVec 16)
  /-- RING_LETTER_RELAY (R397): A host-side letter whose destination is another wafer is sent unchanged as a LETTER message. -/
  | ringLetterRelay (ring : BitVec 6)
  /-- BULK_OPEN (R326): A BULK_OPEN request arrives; the receiver reserves reassembly space and grants credits. -/
  | bulkOpen
  /-- BULK_GRANT (R326): A BULK_GRANT arrives and gives the sender its initial credits. -/
  | bulkGrant
  /-- BULK_DATA (R326): A BULK_DATA packet is reassembled and a credit returned. -/
  | bulkData
  /-- BULK_CREDIT (R326): A BULK_CREDIT returns credits to the stream's counter. -/
  | bulkCredit
  /-- BULK_CREDIT_TIMEOUT (R336): A stream sits 10,000,000 ticks without credit and ends. -/
  | bulkCreditTimeout (stream : BitVec 6)
  /-- COLL_UP (R327): A child's contribution arrives and, once all are in, the combined result goes to the parent. -/
  | collUp
  /-- COLL_DOWN (R327): A collective result arrives from the parent, is applied and passed to the children. -/
  | collDown
  /-- COLL_TIMEOUT (R327): A collective is incomplete 10,000,000 ticks after it began and ends with COLL_TIMEOUT. -/
  | collTimeout (id : BitVec 4)
  /-- HOST_WARM_TIMEOUT (R357): rs_host_done does not pulse within 300 ms and the warm request turns into a cold reset. -/
  | hostWarmTimeout
  /-- HOST_COLD_TIMEOUT (R360): rs_host_done does not pulse within 5,500 ms and W1 enters OUT_OF_SERVICE. -/
  | hostColdTimeout
  /-- PARCEL_PREPARE (R375): At the due count less one hour Viloladric selects Holders and sends PARCEL_RESERVE. -/
  | parcelPrepare
  /-- PARCEL_RESERVE_RENEW (R375): Each minute until the parcel is taken the reservations are renewed. -/
  | parcelReserveRenew
  /-- PARCEL_VOTE_LATE (R377): The vote result has not arrived by the launch less 300,000 ticks and the wafer originates an urgent stop. -/
  | parcelVoteLate
  /-- PARCEL_STOP (R378): At S every job core is gated and capture of core state, Dice pages and host sections begins. -/
  | parcelStop
  /-- PARCEL_ROOT_BUILD (R378): When every data page is written on both copies, the Head Office builds table pages, computes the root and writes page 0. -/
  | parcelRootBuild
  /-- PARCEL_COMMIT_SEND (R378): After the last write response the Head Office sends PARCEL_COMMIT to both Holders. -/
  | parcelCommitSend
  /-- PARCEL_OVERRUN (R381): Pages remain unread at S + t_stop − 100,000 and the wafer originates an urgent stop. -/
  | parcelOverrun
  /-- PARCEL_UNGATE (R378): At S + t_stop each Letterbox ungates its core and later slot launches move by t_stop. -/
  | parcelUngate
  /-- PARCEL_COMMIT_ANSWER (R382): A Holder's commit receipt arrives and the generation becomes SINGLE or DOUBLE, releasing older ones. -/
  | parcelCommitAnswer (second ok : Bool)
  /-- PARCEL_COMMIT_TIMEOUT (R384): No commit receipt within 60,000,000,000 ticks and that copy fails. -/
  | parcelCommitTimeout (second : Bool)
  /-- RESERVATION_LAPSE (R387): A Holder reservation not committed or renewed in 600,000,000,000 ticks lapses. -/
  | reservationLapse (holdee : BitVec 16) (gen : BitVec 32)
  /-- TEARDOWN_QUIESCED (R393): The quiesce counters read zero; JOB_ENDED is queued and the service state becomes READY. -/
  | teardownQuiesced
  /-- TEARDOWN_FORCE (R393): 50,000,000 ticks after the epoch advanced, W1 forces the drop of remaining slots and transfers. -/
  | teardownForce
  /-- IMAGE_PACKET (R424): A Letterbox receives an IMAGE packet, segment-loads it and sets its bitmap bit. -/
  | imagePacket (core : CoreIdx) (p : ImagePacket)
  /-- IMAGE_ROUND_END (R424): An Office collects missing runs and requests them for the next round, failing targets after round 8. -/
  | imageRoundEnd (region : RegionIdx)
  /-- IMAGE_READBACK_DONE (R425): A target reads its image back and compares the SHA-384, releasing or retrying the target. -/
  | imageReadbackDone (core : CoreIdx) (data : List Byte)
  /-- HELLO (R409): Letter 0x001 opens a session on overlapping versions and returns version and state. -/
  | hello (ring : BitVec 6)
  /-- IDENTIFY (R412): Letter 0x002 returns IDCODE, wafer, life-cycle, service state and region mask. -/
  | identify (ring : BitVec 6)
  /-- INVENTORY (R421): Letter 0x003 takes a snapshot and answers in seven parts. -/
  | inventory (ring : BitVec 6)
  /-- MEASURE (R412): Letter 0x004 returns the image measurement, slot and length. -/
  | measure (ring : BitVec 6)
  /-- JOB_LOAD (R420): Letter 0x101 reads and checks the manifest and loads the job. -/
  | jobLoad (ring : BitVec 6) (data : Option (List Byte))
  /-- LAUNCH (R150): Letter 0x102 checks the launch count and arms every Letterbox with L. -/
  | launch (ring : BitVec 6) (unarmed : List CoreIdx)
  /-- STOP_AT (R153): Letter 0x103 arms a scheduled stop at count S. -/
  | stopAt (ring : BitVec 6)
  /-- URGENT_STOP (R127): Letter 0x104 originates a stop on the stop tree. -/
  | urgentStop (ring : BitVec 6)
  /-- STOP_RELEASE (R457): Letter 0x105 clears a letter-clearable cause and the received latch, refused while st_stop_in_n is 0. -/
  | stopRelease (ring : BitVec 6)
  /-- JOB_TEARDOWN (R393): Letter 0x106 stops the job, advances the epoch and abandons job-scoped work. -/
  | jobTeardown (ring : BitVec 6)
  /-- POSTMARK_LOAD (R136): Letter 0x107 arms a Postmark load of V with period P at the next sync pulse. -/
  | postmarkLoad (ring : BitVec 6)
  /-- FORMAT_LOAD (R166): Letter 0x201 checks format entries and loads them by staged multicast. -/
  | formatLoad (ring : BitVec 6) (missedCores : List CoreIdx) (missedTaps : BitVec 16)
  /-- DICE_RATES (R193): Letter 0x202 sets the rate codes and thr_ld. -/
  | diceRates (ring : BitVec 6)
  /-- CANARY_BANDS (R184): Letter 0x203 sets canary policies and magnitude bands. -/
  | canaryBands (ring : BitVec 6)
  /-- VERDICT_POLICY (R247): Letter 0x301 sets replay_limit and unscreened_limit. -/
  | verdictPolicy (ring : BitVec 6)
  /-- STEP_QUERY (R413): Letter 0x302 returns the decision, reasons and digest of a recent step. -/
  | stepQuery (ring : BitVec 6)
  /-- CORE_QUERY (R413): Letter 0x303 returns a core's Board Map entry, pips, fence count and probation start. -/
  | coreQuery (ring : BitVec 6)
  /-- TEST_POLICY (R263): Letter 0x401 sets the test policy. -/
  | testPolicy (ring : BitVec 6)
  /-- TEST_SWEEP (R271): Letter 0x402 starts a sweep of units over a region mask outside a job. -/
  | testSweep (ring : BitVec 6)
  /-- CORE_RESTORE (R232): Letter 0x403 tests a once-fenced core and returns it as SUSPECT or retires it. -/
  | coreRestore (ring : BitVec 6)
  /-- TEST_COURIER (R272): Letter 0x404 disables a Courier port, runs its loopback and re-enables it. -/
  | testCourier (ring : BitVec 6) (pass : Bool)
  /-- OFFICE_SWAP (R414): Letter 0x405 orders a planned swap of a region's Office members. -/
  | officeSwap (ring : BitVec 6)
  /-- COURIER_POWER (R414): Letter 0x406 power-cycles and retests a Courier domain. -/
  | courierPower (ring : BitVec 6) (portPass tapPass : Bool)
  /-- FLEET_RINGS (R314): Letter 0x501 declares ring lengths and the own wafer number. -/
  | fleetRings (ring : BitVec 6)
  /-- COURIER_ENABLE (R415): Letter 0x502 sets the Courier port enable mask. -/
  | courierEnable (ring : BitVec 6)
  /-- PARTNER_QUERY (R415): Letter 0x503 returns partner entries. -/
  | partnerQuery (ring : BitVec 6)
  /-- PARCEL_POLICY (R373): Letter 0x601 sets interval, attempts and t_stop. -/
  | parcelPolicy (ring : BitVec 6)
  /-- HOLDER_CAP (R416): Letter 0x602 sets the parcel space offered to others. -/
  | holderCap (ring : BitVec 6)
  /-- PARCEL_RESERVE (R386): Letter 0x610 reserves parcel store space on a Holder. -/
  | parcelReserve (ring : BitVec 6)
  /-- PARCEL_COMMIT (R386): Letter 0x611 commits a reserved parcel copy with its root. -/
  | parcelCommit (ring : BitVec 6)
  /-- PARCEL_QUERY (R386): Letter 0x612 returns a holdee's committed records. -/
  | parcelQuery (ring : BitVec 6)
  /-- PARCEL_RELEASE (R386): Letter 0x613 ends a Holder record. -/
  | parcelRelease (ring : BitVec 6)
  /-- PARCEL_RESTORE (R390): Letter 0x620 settles a reference root and restores the parcel into the new job. -/
  | parcelRestore (ring : BitVec 6) (answers : RestoreAnswers)
  /-- WARM_RESET (R356): Letter 0x701 starts a warm compute reset, or OUT_OF_SERVICE under escalation. -/
  | warmReset (ring : BitVec 6)
  /-- COLD_RESET (R359): Letter 0x702 starts a cold reset. -/
  | coldReset (ring : BitVec 6)
  /-- RESET_POLICY (R365): Letter 0x703 sets reset_count, reset_window and auto_warm. -/
  | resetPolicy (ring : BitVec 6)
  /-- COUNTER_SELECT (R462): Letter 0x801 sets and zeroes a counter on a range of Letterboxes. -/
  | counterSelect (ring : BitVec 6)
  /-- COUNTER_READ (R464): Letter 0x802 returns a core's 16 counters and codes. -/
  | counterRead (ring : BitVec 6)
  /-- TRACE_CONTROL (R466): Letter 0x803 configures and controls the trace buffer. -/
  | traceControl (ring : BitVec 6)
  /-- TRACE_TRIGGER (R466): A traced event matches trig_code and the trace freezes, optionally originating a stop. -/
  | traceTrigger
  /-- EXPORT (R467): Letter 0x804 writes stop records, counters, maps, Ledger, histograms or trace to host memory. -/
  | exportData (ring : BitVec 6)
  /-- IMAGE_LOAD (R423): Letter 0x901 reads, measures and distributes a host-core image. -/
  | imageLoad (ring : BitVec 6) (data : Option (List Byte))
  /-- IMAGE_STATUS (R423): Letter 0x902 returns image distribution progress. -/
  | imageStatus (ring : BitVec 6)
  /-- IMAGE_ABORT (R423): Letter 0x903 ends an image load. -/
  | imageAbort (ring : BitVec 6)
  /-- REGISTER_WRITE (R110): A management write to a register without a row of its own sets, clears or ignores fields. -/
  | registerWrite (offset : BitVec 16) (value : BitVec 32)
  /-- MANAGEMENT_PORT_RESET (R429): mg_rst_n resets the management port logic only. -/
  | managementPortReset
  /-- RING_DOORBELL (R432): A doorbell write advances ltr_tail or is ignored with RING_OVERRUN. -/
  | ringDoorbell (ring : BitVec 6) (value : BitVec 32)
  /-- RING_POP (R433): A pop write releases the receipt at rcp_head or sets pop_empty. -/
  | ringPop (ring : BitVec 6) (value : BitVec 32)
  /-- PM_COUNT_READ (R439): A read of PM_COUNT_LO captures the whole 64-bit count. -/
  | pmCountRead
  /-- PM_LATCH_CAPTURE (R438): A write to PM_LATCH_CTRL captures the count into PM_LATCH. -/
  | pmLatchCapture (value : BitVec 32)
  /-- STOP_CTRL_URGENT (R441): A write of STOP_CTRL.urgent originates an urgent stop in any state. -/
  | stopCtrlUrgent (value : BitVec 32)
  /-- CR_ENABLE_WRITE (R445): A CR_ENABLE write enables or disables Courier ports, subject to faults and parcel capture. -/
  | crEnableWrite (value : BitVec 32)
  /-- KEY_LOAD_BEGIN (R450): KEY_CTRL.begin starts a key load into a slot. -/
  | keyLoadBegin (value : BitVec 32)
  /-- KEY_WINDOW_LOCK (R450): KEY_CTRL.lock locks the key window until rs_por_n. -/
  | keyWindowLock (value : BitVec 32)
  /-- KEY_WINDOW_ZEROIZE (R450): KEY_CTRL.zeroize zeroizes every key slot as sc_zero_req does. -/
  | keyWindowZeroize (value : BitVec 32)
  /-- KEY_DATA_WRITE (R450): A KEY_DATA write adds a key word, the twelfth completing the load. -/
  | keyDataWrite (value : BitVec 32)
  /-- TAP_RESET (R129): tp_trst_n or five TMS ones reset the TAP to Test-Logic-Reset with IDCODE selected. -/
  | tapReset
  /-- IJTAG_ACCESS_SELECT (R131): IJTAG_ACCESS is selected; in MANUFACTURE or RMA keys are zeroized and the network opens. -/
  | ijtagAccessSelect
  /-- SIB_OPEN (R470): Opening a scan-chain SIB stops its unit's clock and fails it until the next cold reset. -/
  | sibOpen (sib : Sib)
  /-- CORE_CAP_UPDATE (R471): At Update-DR with req set the Letterbox moves one capture beat of a stopped core into CORE_CAP. -/
  | coreCapUpdate (core : CoreIdx) (load : Bool) (beat : BitVec 128) (last : Bool)
  /-- STANDBY_TEST_DONE (R272): The in-service standby test of at most 40 ms ends; on a pass the Ledger and queue copy starts, and on a failure STANDBY_FAIL is raised and the member stays ineligible. -/
  | standbyTestDone (region : RegionIdx) (pass : Bool)
  /-- ROUTER_LOST (R301): A router fails in service; its cluster is fenced at once, its traffic is lost and a table swap to route around it begins. -/
  | routerLost (region : RegionIdx) (router : BitVec 7)
  /-- RESET_WINDOW_EXPIRY (R442): The Postmark reaches RST_EXPIRY, the oldest warm-reset record leaves reset_window, and RST_COUNTS.in_window falls. -/
  | resetWindowExpiry
  deriving DecidableEq, Repr

end Sys2Proof
end

