-- ==== Sys2Proof/Machine/State.lean ====
section
/-! DEFINITION. The state of Fylaldo W1 as plain data: every register, table, queue, counter, mode and pin the
manual names, and the queue of commands that wait. Each field's comment says [width; file and rule; reset value].
"DESIGN CHOICE log n" after a reset value names the log entry of a value the manual does not give. -/

namespace Sys2Proof.Machine

open Sys2Proof

/-- Why a step stops. -/
inductive Fault where
  /-- Raised by the idle tick when ten more ticks would pass 2^64 - 1: R134 provides no wrap handling.
  Safe: the machine stops where the manual gives no count. -/
  | postmarkWrap
  deriving DecidableEq, Repr

/-- Why a command has no meaning. -/
inductive Refusal where
  /-- Raised by the dispatch for a command that has no meaning yet. Safe. -/
  | notModelled (mnemonic : String)
  deriving DecidableEq, Repr

/-! ### Post Network packets -/

/-- A packet of the Post Network (R284, R285, R287). -/
structure Packet where
  /-- Header flit [128; 09 R285; 0]. -/
  hdr : BitVec 128 := 0
  /-- Payload flits, 0 to 4 [128 each; 09 R284; none]. -/
  pl : List Flit := []
  /-- sb_crc [32; 09 R287; 0]. -/
  crc : BitVec 32 := 0
  /-- The payload parity wires agree with the flits [1; 09 R287; 1]. -/
  parOk : Bool := true
  /-- Lane of the transit slot reserved for a fleet packet at its leaving port [4; 10 R323; 0]. -/
  lane : Nat := 0
  /-- fcrc of a fleet packet, formed by the Head Office where it began [32; 10 R318; 0]. -/
  fcrc : BitVec 32 := 0
  /-- Node at whose terminal port the packet stands received, for a terminal with several ports [7; 09 R280, R306; 0]. -/
  via : Nat := 0
  deriving DecidableEq, Repr

/-- A packet in a seam buffer with the frames it has waited (R294, R306). -/
structure SeamSlot where
  /-- Packet held [09 R306; none]. -/
  pkt : Packet
  /-- Whole frames waited in the buffer [10; 09 R294; 0]. -/
  frames : Nat := 0
  deriving DecidableEq, Repr

/-- A copy of a packet kept for resending (R298). -/
structure Held where
  pkt : Packet
  /-- Times resent after NO_BUFFER (R297). -/
  tries : Nat := 0
  /-- A resend is waiting for its 64 frames (R297). -/
  waiting : Bool := false
  /-- Resent once after MOVED, and once after NOT_SERVING (R297). -/
  moved : Bool := false
  notServing : Bool := false
  deriving DecidableEq, Repr

/-- A stage a target holds until its activation count (R303, R304). -/
structure Stage where
  /-- Sending unit (R304). -/
  sender : Nat
  stageId : Nat
  act : Nat
  cnt : Nat
  /-- Packets received: index and content flits. -/
  got : List (Nat × List Flit)
  svc : Nat
  deriving DecidableEq, Repr

/-- A staged multicast a sequencer runs (R303, R305): targets that have not acknowledged, with resends. -/
structure StageSend where
  stageId : Nat
  act : Nat
  /-- Service, content flits after the stage flit, and count of the last sending. -/
  svc : Nat := 0x11
  content : List Flit := []
  sentAt : Nat := 0
  /-- Target unit and resends so far. -/
  missing : List (Nat × Nat)
  deriving DecidableEq, Repr

/-! ### Core Tap: Letterbox and Tally Reducer -/

/-- One tile a Letterbox holds open for a tag (R52 to R63, R176, R200, R211). -/
structure Tile where
  /-- Age order of opening, for the oldest open tile of R62. -/
  age : Nat := 0
  tid : BitVec 32 := 0
  step : BitVec 32 := 0
  /-- Descriptor kind and slot; kind 0 for the core's own tile (R218). -/
  kind : Nat := 0
  slot : Nat := 0
  /-- The tile is test traffic (R266). -/
  test : Bool := false
  wFmt : Nat := 0
  k : Nat := 1
  n : Nat := 1
  stampIn : BitVec 32 := 0
  wBeats : Nat := 0
  /-- Beats seen per segment: the column counters of R52. -/
  cols : Tab Nat := []
  /-- v, 256 residues (R52). -/
  v : Tab Nat := []
  /-- Positional sum P of R178. -/
  psum : Nat := 0
  /-- A beat's column index reached N (R52). -/
  wide : Bool := false
  wLast : Bool := false
  aFmt : Option Nat := none
  /-- Running sum of the activation row (R174). -/
  rowAcc : Nat := 0
  rowsAct : Nat := 0
  actEnd : Bool := false
  /-- Tally residues seen, in row order (R200). -/
  tallies : List Nat := []
  tlyEnd : Bool := false
  oFmt : Option Nat := none
  /-- Output elements of the row now arriving, as codes. -/
  outRow : List Nat := []
  /-- Output bytes of finished rows (R200). -/
  outRows : List (List Byte) := []
  outEnd : Bool := false
  /-- Running maximum of floor(log2 |y|), offset by 8, clamped (R182). -/
  mag : Option Nat := none
  outSpecial : Bool := false
  sat : Bool := false
  scaleRange : Bool := false
  flush : Bool := false
  resBad : Bool := false
  stampBad : Bool := false
  /-- Special value or invalid code seen (R170). -/
  special : Bool := false
  /-- INPUT_SPECIAL, ENCODING and FORMAT_MISUSE already reported for the tile; FORMAT_MISUSE on its input side (R170). -/
  saidSpecial : Bool := false
  saidEncoding : Bool := false
  saidMisuse : Bool := false
  misuse : Bool := false
  /-- FORMAT_MISUSE of the output side already reported (R57). -/
  saidOut : Bool := false
  /-- UNCHECKABLE for a port event, misuse, a fence or a missed planting (R55, R62, R74, R170, R212). -/
  port : Bool := false
  /-- Number of row comparisons made. -/
  compared : Nat := 0
  /-- Planted offset (R211). -/
  planted : Option Nat := none
  caught : Bool := false
  missed : Bool := false
  /-- Closed early: the verdict may leave without the three ends (R55, R62, R74). -/
  closed : Bool := false
  deriving DecidableEq, Repr

/-- The Tally Reducer's accumulation for a tag (R163, R175). -/
structure TallyAcc where
  acc : Nat := 0
  /-- ct_acc_lsb_exp sampled in the tile's first drain cycle (R175). -/
  exp : Option (BitVec 8) := none
  deriving DecidableEq, Repr

/-- A unit of test in progress on a core (R75 to R77). -/
structure TestRun where
  mode : Nat := 0
  unit : Nat := 0
  trigger : Trigger := .powerUp
  /-- 1 once ct_tst_req is high. -/
  requested : Bool := false
  acked : Bool := false
  /-- Digest, residue failure and skip of the KAT tile (R267). -/
  digest : BitVec 32 := 0
  resFail : Bool := false
  /-- A stop arrived while the unit ran: it ends ABORTED (R275). -/
  aborted : Bool := false
  /-- pw_rgn_vok fell: the result is discarded (R116). -/
  lost : Bool := false
  /-- Driven by the full test engine of the open IEEE 1687 network, not by an Office (R274). -/
  engine : Bool := false
  deriving DecidableEq, Repr

/-- Capture channel of a core (R78, R79). -/
structure Capture where
  load : Bool := false
  want : Nat := 0
  moved : Nat := 0
  acked : Bool := false
  /-- Beats read, in order. -/
  beats : List Flit := []
  /-- The clock was gated when the request began (R79). -/
  gated : Bool := false
  /-- The capture of a parcel: the core abandons the rest of its image (R368). -/
  short : Bool := false
  invalid : Bool := false
  ended : Bool := false
  deriving DecidableEq, Repr

/-- Outputs of one Core Tap (02, signal tables). -/
structure CorePins where
  /-- ct_fence_n [1; 02 "Fence, isolate, clock-gate and hold"; 0]. -/
  fenceN : Bool := false
  /-- ct_iso_n [1; 02; 0]. -/
  isoN : Bool := false
  /-- ct_cg_n [1; 02; 1]. -/
  cgN : Bool := true
  /-- ct_hold_rst_n [1; 02; 0]. -/
  holdN : Bool := false
  /-- ct_reinit pulses given [count; 02 R76; 0]. -/
  reinits : Nat := 0
  /-- ct_shd_desc [64; 02 R67; 0]. -/
  shdDesc : BitVec 64 := 0
  /-- ct_tst_req [1; 02 R75; 0]. -/
  tstReq : Bool := false
  /-- ct_tst_mode [3; 02; 0]. -/
  tstMode : BitVec 3 := 0
  /-- ct_tst_slice [16; 02; 0]. -/
  tstSlice : BitVec 16 := 0
  /-- ct_tst_bank [8; 02; 0]. -/
  tstBank : BitVec 8 := 0
  /-- ct_tst_budget [20; 02 R75; 0]. -/
  tstBudget : BitVec 20 := 0
  /-- ct_cap_req [1; 02 R78; 0]. -/
  capReq : Bool := false
  /-- ct_cap_dir [1; 02; 0]. -/
  capDir : Bool := false
  /-- ct_cap_rdy [1; 02; 0]. -/
  capRdy : Bool := false
  /-- ct_cap_wvld [1; 02; 0]. -/
  capWvld : Bool := false
  /-- ct_cap_wdata [128; 02; 0]. -/
  capWdata : Flit := 0
  /-- ct_cap_wlast [1; 02; 0]. -/
  capWlast : Bool := false
  /-- ct_tly_vld, ct_tly_res, ct_tly_tag, ct_tly_last: the last residue driven [1, 13, 2, 1; 02 R59; 0]. -/
  tlyVld : Bool := false
  tlyRes : BitVec 13 := 0
  tlyTag : BitVec 2 := 0
  tlyLast : Bool := false
  deriving DecidableEq, Repr

/-- Timing of one Letterbox: alignment, slot count, Timetable (R146 to R159, R346 to R350). -/
structure CoreTime where
  /-- ct_clk_chg as last seen [1; 02 R49; 0, DESIGN CHOICE log 12]. -/
  clkChg : Bool := false
  /-- Alignment handshake complete [1; 04 R147; 0]. -/
  aligned : Bool := false
  /-- Aligned under pt and qt instead of p and q [1; 08 R255; 0]. -/
  testRatio : Bool := false
  /-- First alignment epoch E [64; 04 R147; 0]. -/
  epoch : Nat := 0
  /-- Handshake attempts made, at most 8 [4; 04 R147; 0]. -/
  tries : Nat := 0
  /-- ALIGN_FAIL reported: the core is held unreleased [1; 04 R147; 0]. -/
  failed : Bool := false
  /-- Core-cycle mode [1; 04 R158, R159; 0]. -/
  cmode : Bool := false
  /-- CLOCK_UNDECLARED raised in this slot; the next milestone is a slip [1; 04 R159; 0]. -/
  undeclared : Bool := false
  slipNext : Bool := false
  /-- Launch count armed by staged multicast [64; 04 R150; none]. -/
  armed : Option Nat := none
  /-- Core cycles of the slot [48; 02 R65; 0]. -/
  cyc : BitVec 48 := 0
  /-- Expected Timetable entry [6; 11 R348; 0]. -/
  expect : Nat := 0
  /-- Worst Timetable status of the slot: 0 on time, 1 slip, 2 stall, 3 undeclared (R219, R350) [2; 07 R219; 0]. -/
  status : Nat := 0
  stalled : Bool := false
  /-- Entry whose STALL was reported, and a slip of the slot already charged (R348, R350) [6 + 1, 1; 11; none, 0]. -/
  stallEntry : Option Nat := none
  slipped : Bool := false
  /-- Postmark count of the STALL (R352). -/
  stallPm : Nat := 0
  finalSeen : Bool := false
  /-- Last milestone reached in the slot [6 + 1; 15 R456; none]. -/
  lastMs : Option Nat := none
  /-- Stamp of the last milestone [64; 02 R65; 0]. -/
  lastStamp : Nat := 0
  /-- Waiting-on descriptor: channel and peer [8 + 20; 02 R66; none]. -/
  wait : Option (Nat × Nat) := none
  /-- The descriptor was cleared and no milestone has come since (R352). -/
  cleared : Bool := false
  /-- Timetable [64 x 128; 11 R346; empty]. -/
  timetable : List TtEntry := []
  deriving DecidableEq, Repr

/-- The screening part of one Letterbox. -/
structure CoreScreen where
  /-- Format table [16 x 64; 05 R164; 0xF each]. -/
  fmt : List (BitVec 64) := List.replicate 16 0xF
  /-- Open tiles by tag [4; 02 R52; none]. -/
  tiles : Tab Tile := []
  /-- Next age number (model's order of opening, R62). -/
  nextAge : Nat := 0
  /-- Tags taken by a weight tile whose ct_tly_last has not been seen yet [4; 02 R55; none]. -/
  tagBusy : List Nat := []
  /-- Row queue: tag and X·v residue [512 x 15; 02 R62; empty]. -/
  rowq : List (Nat × Nat) := []
  /-- Tally residues that wait for their comparison: tag, residue, last [02 R61; empty]. -/
  tlyq : List (Nat × Nat × Bool) := []
  /-- Tally Reducer accumulation per tag [05 R175; empty]. -/
  tacc : Tab TallyAcc := []
  /-- Shadow descriptor table [256 x 64; 02 R68; kind 0]. -/
  desc : Tab (BitVec 64) := []
  /-- Descriptors read whose recomputation has not begun: slot and descriptor [02 R68; none]. -/
  reads : List (Nat × BitVec 64) := []
  /-- ct_flush_sticky as last seen, and the count since which it is 1 [1, 64; 02; 0, DESIGN CHOICE log 12]. -/
  sticky : Bool := false
  stickyAt : Nat := 0
  /-- Own tiles verdicted in the slot [24; 07 R219; 0]. -/
  ownTiles : Nat := 0
  summarySent : Bool := false
  /-- Checker burst: own class E tiles still to plant [5; 06 R214; 0]. -/
  burst : Nat := 0
  deriving DecidableEq, Repr

/-- Fence, test and capture sequencers of one Letterbox. -/
structure CoreCtl where
  /-- A fence sequence runs and waits for ct_fence_ack [1; 02 R71; 0]. -/
  fencing : Bool := false
  /-- A fence order up to isolation waits for the end of a capture [1; 02 "When controls meet"; 0]. -/
  fenceWait : Bool := false
  /-- It continues into hold and gating (FENCED). -/
  toHold : Bool := false
  /-- ct_fence_ack as last seen [1; 02; 0, DESIGN CHOICE log 12]. -/
  fenceAck : Bool := false
  /-- The core's fence ended in FENCE_TIMEOUT [1; 02 R75; 0]. -/
  fenceTo : Bool := false
  /-- A stop holds the core's clock [1; 02 R73; 0]. -/
  stopGated : Bool := false
  /-- Pre-launch hold of a working core [1; 04 "Scheduled launch"; 0]. -/
  launchGated : Bool := false
  /-- The core was powered while its Office domain was off: UNSCREENED until it is tested [1; 01 R44; 0]. -/
  early : Bool := false
  /-- Letterbox control path failed: held in reset (R258). -/
  ctrlFail : Bool := false
  /-- Letterbox failed: check path, burst or loss of attachment (R246, R258). -/
  failed : Bool := false
  test : Option TestRun := none
  /-- Attempts ended by pw_rgn_vok [2; 08 R256; 0]. -/
  vokFalls : Nat := 0
  /-- The power-up or reset test still runs: mode 0, then the KAT (R253). -/
  puStage : Nat := 0
  cap : Option Capture := none
  /-- Latest stop record [128; 15 R456; 0]. -/
  stopRec : BitVec 128 := 0
  /-- Event counters: code and value [16 x (16 + 32); 15 R462; 0]. -/
  counters : List (Nat × Nat) := List.replicate 16 (0, 0)
  /-- CORE_CAP register [160; 15 R471; 0]. -/
  coreCap : BitVec 160 := 0
  deriving DecidableEq, Repr

/-- Image reception of one Letterbox (R424, R425). -/
structure CoreImage where
  /-- 16,384-bit receipt bitmap as the list of set bits [16384; 13 R424; 0]. -/
  got : List Nat := []
  /-- Packets dropped because their bit was set. -/
  dups : Nat := 0
  /-- Bytes segment-loaded, by offset [13 R422; none]. -/
  store : List Host.Cell := []
  /-- Readback mismatches so far. -/
  misses : Nat := 0
  /-- The one further pass of R425 has not begun with a whole round yet [1; 13 R425; 0]. -/
  again : Bool := false
  done : Bool := false
  failed : Bool := false
  deriving DecidableEq, Repr

/-- Post Network end of a Letterbox, router, member or port (R298, R299, R303). -/
structure NetEnd where
  /-- Next packet sequence number [8; 09 R285; 0]. -/
  seq : BitVec 8 := 0
  /-- Packets that wait to be injected [09 R298; empty]. -/
  tx : List Packet := []
  /-- The seam buffer from a Letterbox to its router, oldest first [16 flits; 01 R46, 09 R306; empty]. -/
  seam : List SeamSlot := []
  /-- An address lookup has differed once and is repeated [1; 09 R283; 0]. -/
  lookup1 : Bool := false
  /-- Held copies: the last 16 of a Letterbox, 256 of a member or the Head Office [09 R298; empty]. -/
  held : List Held := []
  /-- Packets delivered by a router and not yet received [09 R295; empty]. -/
  rx : List Packet := []
  /-- Packets discarded as malformed [count; 09 R287; 0]. -/
  malformed : Nat := 0
  /-- Role epoch [8; 09 R299; 0]. -/
  epoch : BitVec 8 := 0
  /-- Forwarding record: unit and epoch [24 + 8; 09 R299; none]. -/
  fwd : Option (Nat × Nat) := none
  /-- Stages held until their activation counts [09 R304; empty]. -/
  stages : List Stage := []
  /-- Stages this unit sequences [09 R305; empty]. -/
  sends : List StageSend := []
  deriving DecidableEq, Repr

/-- One core position: Core Tap, Letterbox and Tally Reducer. -/
structure Core where
  /-- ct_por_n as last seen [1; 02; 0, DESIGN CHOICE log 12]. -/
  porN : Bool := false
  pins : CorePins := {}
  time : CoreTime := {}
  scr : CoreScreen := {}
  ctl : CoreCtl := {}
  img : CoreImage := {}
  net : NetEnd := {}
  deriving DecidableEq, Repr

/-! ### Offices, routers and nodes -/

/-- A tile verdict the Office holds for the step (R202, R218). -/
structure TileRec where
  role : Nat := 0
  core : Nat := 0
  tid : Nat := 0
  digest : BitVec 32 := 0
  verdict : Verdict := .clean
  check : Check := .p
  kind : Nat := 0
  slot : Nat := 0
  stampAlso : Bool := false
  /-- Row 8 of R203: the mismatch names no role (R235). -/
  noName : Bool := false
  deriving DecidableEq, Repr

/-- A placed tile and its comparison (R196, R202, R205). -/
structure Placement where
  role : Nat := 0
  tid : Nat := 0
  window : Nat := 0
  /-- Role and slot that recompute the tile. -/
  shRole : Nat := 0
  shSlot : Nat := 0
  orig : Option TileRec := none
  shadow : Option TileRec := none
  /-- Referee role and slot, once written (R205). -/
  ref : Option (Nat × Nat) := none
  /-- Third Throw between original and referee only: row 4 of R203 (R208). -/
  twoWay : Bool := false
  /-- Source core of the referee's descriptor, and the Postmark count of the decision for a Third Throw (R205, R206). -/
  refSrc : Nat := 0
  refAt : Option Nat := none
  closed : Bool := false
  abandoned : Bool := false
  deriving DecidableEq, Repr

/-- What an Office knows of a role's step (R219, R226). -/
structure RoleStep where
  /-- Own-tile verdict messages arrived. -/
  msgs : Nat := 0
  /-- Count and Timetable status of its summary. -/
  summary : Option (Nat × Nat) := none
  /-- Tiles of the core with INPUT_SPECIAL, and with each of plaus bits 4 to 7 (R183). -/
  special : Nat := 0
  canary : List Nat := [0, 0, 0, 0]
  deriving DecidableEq, Repr

/-- A promotion (R194, R195). (DESIGN CHOICE, log 73.) -/
structure Promo where
  role : Nat := 0
  tid : Nat := 0
  left : Nat := 4
  deriving DecidableEq, Repr

/-- A relocation table entry (R240). -/
structure Reloc where
  role : Nat := 0
  valid : Bool := false
  fromLocal : Nat := 0
  toLocal : Nat := 0
  reason : Nat := 0
  step : Nat := 0
  /-- role_ext of the entry, zero on W1 [8; 07 R240; 0]. -/
  roleExt : Nat := 0
  deriving DecidableEq, Repr

/-- A fill of the fill ledger (R238). -/
structure Fill where
  role : Nat := 0
  src : Nat := 0
  dst : Nat := 0
  /-- Phase code 1 to 7 (R238). -/
  phase : Nat := 1
  started : Nat := 0
  /-- Core-state image captured. -/
  image : List Flit := []
  /-- The image has been loaded into the target (R238). -/
  loaded : Bool := false
  deriving DecidableEq, Repr

/-- A queued test unit (R264). -/
structure TestUnit where
  core : Nat := 0
  mode : Nat := 0
  unit : Nat := 0
  trigger : Trigger := .conviction
  due : Nat := 0
  /-- Step slot in which it fell due (R262). -/
  dueSlot : Nat := 0
  deriving DecidableEq, Repr

/-- A checker burst an Office has ordered (R214). -/
structure Burst where
  core : Nat := 0
  caught : Nat := 0
  deriving DecidableEq, Repr

/-- An event the Office holds for its 10 us window (R461). -/
structure EvHold where
  code : Nat := 0
  count : Nat := 0
  unit : Nat := 0
  first : Nat := 0
  body : List Byte := []
  deriving DecidableEq, Repr

/-- What a Letterbox reports of a verdicted tile beside its message: the weight element type that chooses the
conviction tests (R264), and STAMP_ALSO (R176, R204). (DESIGN CHOICE, log 62.) -/
structure TileNote where
  core : Nat := 0
  tid : Nat := 0
  kind : Nat := 0
  elem : Nat := 0
  also : Bool := false
  /-- The tile ended UNCHECKABLE and INPUT_SPECIAL was reported for it (R183). -/
  special : Bool := false
  deriving DecidableEq, Repr

/-- Step aggregation of an Office (R203, R219, R220, R226). -/
structure OfficeStep where
  /-- Step the Office collects [32; 07; 0]. -/
  step : Nat := 0
  /-- Reason mask [32; 07 R220; 0]. -/
  reasons : BitVec 32 := 0
  /-- Own tiles and recomputations received [07 R218; empty]. -/
  tiles : List TileRec := []
  /-- Placements of the step with their comparisons [8192; 06 R202; empty]. -/
  places : List Placement := []
  /-- Counts and summaries by physical core index [07 R219, 05 R183; empty]. -/
  roles : Tab RoleStep := []
  /-- Roles named for relocation with reason codes [07 R235, R240; empty]. -/
  named : List (Nat × Nat) := []
  /-- Stall roots and downstream roles the Head Office sent (R353). -/
  roots : List Nat := []
  downstream : List Nat := []
  /-- Referee slots already given a tile [06 R205; empty]. -/
  refUsed : List (Nat × Nat) := []
  /-- The region record of the step has been sent [07 R225; 0]. -/
  sent : Bool := false
  /-- Roles whose core a canary with policy 1 named: all their tiles are promoted (R184, R194) [20 each; 05 R184; empty]. -/
  promoteRoles : List Nat := []
  /-- The descriptors of the step after this one have been filled, and the promotions left after that fill [1; 06 R194, R197; 0, empty]. -/
  filled : Bool := false
  /-- The decision to withhold the step has reached the Office (R242) [1; 07 R242; 0]. -/
  received : Bool := false
  /-- The router round has had its turn in this drain gap [1; 08 R272; 0]. -/
  rounded : Bool := false
  promosNext : List Promo := []
  /-- Promotions that the fill served, should their descriptor miss the launch [06 R194, R198; empty]. -/
  served : List Promo := []
  /-- Recomputations and tiles of the step as their Letterboxes reported them beside the verdict message [06 R204, R209; empty]. -/
  notes : List TileNote := []
  deriving DecidableEq, Repr

/-- Dice instance of an Office (R216). -/
structure DiceSt where
  /-- Next step number to fill [32; 06 R216; 0]. -/
  nextStep : Nat := 0
  promos : List Promo := []
  draws : Nat := 0
  selections : Nat := 0
  placements : Nat := 0
  short : Nat := 0
  drop : Nat := 0
  late : Nat := 0
  /-- The realised shadow fraction of the latest fill: shadow slots, and tiles that lie in windows [20, 32; 06 R187; 0]. -/
  slots : Nat := 0
  inWindows : Nat := 0
  /-- Outcome counters by code: 0 STAMP_FIRST, 1 SHADOW_READ, 2 AGREE, 3 CHECKER_ORIGINAL, 4 CHECKER_SHADOW,
  5 DECLARATION, 6 CONVICT_SHADOW, 7 CONVICT_ORIGINAL, 8 CONVICT_BOTH, 9 ALL_DIFFER, 10 REFEREE_FAILED,
  11 REFEREE_READ, 12 UNRESOLVED, 13 ABANDONED [06 R203, R207, R210, R216; 0]. -/
  outcomes : Tab Nat := []
  deriving DecidableEq, Repr

/-- What a standby holds that no longer mirrors its primary: the region's per-core history and the event queues, as
they stood when mirroring stopped (R23, R25). -/
structure TwinCopy where
  /-- Per-core history of the region [2 MiB; 01 R23; empty]. -/
  hist : Tab CoreHist := []
  /-- Event queues by cluster, and the events held in them [1 MiB; 01 R23; empty]. -/
  evq : Tab (List Packet) := []
  events : List EvHold := []
  deriving DecidableEq, Repr

/-- One Office twin member (R23 to R28). -/
structure Member where
  /-- Passed its power-up test [1; 08 R252; 0]. -/
  passed : Bool := false
  /-- Failed: never serves until the domain is next powered [1; 08; 0]. -/
  failed : Bool := false
  /-- Eligible to serve or to swap [1; 01 R25; 0]. -/
  eligible : Bool := false
  /-- Standby test in progress, and its copy [1 + 1; 01 R25; 0]. -/
  testing : Bool := false
  copying : Bool := false
  /-- Failed its standby test: ineligible until the domain is next powered [1; 08 R272; 0]. -/
  barred : Bool := false
  /-- The copy held since mirroring stopped; none while the member mirrors or serves: its Ledger and queues are then
  the region's own [2 MiB + 1 MiB; 01 R23, R25; none]. -/
  copy : Option TwinCopy := none
  net : NetEnd := {}
  /-- Attachment table by node terminal port, in each version; an entry not listed is the first one written, the lowest
  populated node [49 x 8, twice; 09 R291; the first entries]. -/
  att0 : Tab (BitVec 8) := []
  att1 : Tab (BitVec 8) := []
  /-- Throttle level [2; 09 R309; 1 (R311)]. -/
  level : Nat := 1
  /-- A whole sample period has met the leave condition of the level. -/
  calm : Bool := false
  /-- Complete region maps formed since power-up [4; 09 R311; 0]. -/
  maps : Nat := 0
  deriving DecidableEq, Repr

/-- One region's Office (twin), whose Ledger and queues the two members mirror (R23). -/
structure Office where
  /-- Office domain powered [1; 01 R44; 0]. -/
  powered : Bool := false
  memA : Member := {}
  memB : Member := {}
  /-- Serving member: 0 A, 1 B [1; 09 R290; 0]. -/
  serving : Bool := false
  /-- A standby that was not eligible reloads and serves from the next boundary (R27). -/
  reload : Bool := false
  /-- Both members failed (R28). -/
  dead : Bool := false
  /-- Ledger slice delivered [1; 11 R340; 0]. -/
  ledgerIn : Bool := false
  /-- Routers whose power-up loopback has ended [128; 08 R252; 0]. -/
  looped : BitVec 128 := 0
  /-- Test results held until the slice arrives: core, failed [11 R340; empty]. -/
  heldRes : List (Nat × Bool) := []
  /-- Event queues by cluster [128 x 512 flits; 09 R309; empty]. -/
  evq : Tab (List Packet) := []
  st : OfficeStep := {}
  dice : DiceSt := {}
  /-- Ordered checker bursts [06 R214; empty]. -/
  bursts : List Burst := []
  /-- Relocation table [256 x 128; 07 R240; empty]. -/
  relocs : List Reloc := []
  /-- Magnitude histograms by 16 x tag + bucket [256 x 16 x 32; 05 R183; 0]. -/
  hist : Tab Nat := []
  /-- Test queue [1024; 08 R264; empty]. -/
  testq : List TestUnit := []
  /-- Entries of priority 1 to 3 that a full queue dropped, queued again at the next boundary [08 R265; empty]. -/
  dropped : List TestUnit := []
  /-- Unit in progress [08 R260; none]. -/
  running : Option TestUnit := none
  /-- Ticks of units placed per core in the window: core, core cycles [08 R261; empty]. -/
  spent : List (Nat × Nat) := []
  /-- Next SPARE core of the spare sweep and its next unit [08 R264; 0]. -/
  sweepCore : Nat := 0
  sweepUnit : Nat := 0
  /-- Passed units of a full rolling test, per core [08 R265; empty]. -/
  rolling : Tab Nat := []
  /-- Cores of the region that a TEST_SWEEP has still to take, in order [08 R271; empty]. -/
  sweepq : List Nat := []
  /-- Next router of the round [7; 08 R272; 0]. -/
  round : Nat := 0
  /-- Events held for the 10 us rate limit, and forwarding counts per code [15 R461; empty]. -/
  events : List EvHold := []
  lastFwd : Tab Nat := []
  /-- Sample bytes of the region map in formation [128 x 8; 09 R307; none]. -/
  samples : Tab (BitVec 8) := []
  returned : Nat := 0
  discards : Nat := 0
  seamDefl : Nat := 0
  /-- Count of the latest standby test's start [64; 08 R272; 0]. -/
  lastStandby : Nat := 0
  /-- A planned swap has been ordered and waits for eligibility [1; 08 R275; 0]. -/
  swapWait : Bool := false
  /-- Region maxima received from Viloladric [16 x 128; 09 R310; none]. -/
  maxima : Tab Nat := []
  deriving DecidableEq, Repr

/-- A router or an Office torus node (R289 to R294). -/
structure Router where
  /-- Lost: failed loopback or failed in service [1; 08 R252; 0]. -/
  lost : Bool := false
  /-- Packets arrived for the coming frame, by input port: 0 +X, 1 -X, 2 +Y, 3 -Y sides [4; 09 R284; none]. -/
  inp : Tab Packet := []
  /-- Packets that neighbours already one frame ahead have sent for the frame after it [4; 09 R284; none]. -/
  nxt : Tab Packet := []
  /-- Direction table by entry, in each version; an entry not listed is the first one written, around no lost router
  [130 or 128 x 8, twice; 09 R289; the first entries]. -/
  dir0 : Tab (BitVec 8) := []
  dir1 : Tab (BitVec 8) := []
  /-- Serving-member register [1; 09 R290; 0]. -/
  serving : Bool := false
  /-- Inject-version register [1; 09 R300; 0]. -/
  inject : Bool := false
  /-- Seam buffers on the torus outputs of a node, by output [16 flits each; 09 R306; empty]. -/
  seams : Tab (List SeamSlot) := []
  /-- Frame number, for alternating injection [09 R293; 0]. -/
  frame : Nat := 0
  /-- Round-robin position among terminal ports, and whose turn the gateway's next packet finds [7, 1; 09 R293; 0, 1]. -/
  rr : Nat := 0
  gateTurn : Bool := true
  /-- Injections in the current 16 frames, and the limit: 16 means unlimited [09 R310; limit 8 (R311)]. -/
  injected : Nat := 0
  limit : Nat := 8
  /-- Busy and offered output frames and deflections since the last sample [09 R307; 0]. -/
  busy : Nat := 0
  offered : Nat := 0
  defl : Nat := 0
  /-- SEAM_DEFLECT count by output: 0 to 3 torus ports, 4 the terminal ports [32; 09 R306; 0]. -/
  seamDefl : Tab Nat := []
  /-- Discards by code: HDR_CRC, AGED, UNROUTABLE, MISROUTE, NO_EXIT, malformed [09 R286, R292; 0]. -/
  drops : Tab Nat := []
  net : NetEnd := {}
  deriving DecidableEq, Repr

/-! ### Courier domains -/

/-- An open tile of an Intake Tap (R91). -/
structure IntakeTile where
  tid : BitVec 32 := 0
  fmt : Nat := 0
  k : Nat := 1
  n : Nat := 1
  beats : Nat := 0
  cols : Tab Nat := []
  psum : Nat := 0
  wide : Bool := false
  deriving DecidableEq, Repr

/-- An open group of an Egress Tap (R96, R97, R484). -/
structure EgressGroup where
  grp : Nat := 0
  step : Option Nat := none
  inExp : Option (BitVec 8) := none
  outExp : Option (BitVec 8) := none
  inSum : Nat := 0
  outSum : Nat := 0
  inEnd : Bool := false
  outEnd : Bool := false
  unchk : Bool := false
  deriving DecidableEq, Repr

/-- Per-step counts of an Egress Tap (R99). -/
structure EgressCount where
  step : Option Nat := none
  closed : Nat := 0
  mismatch : Nat := 0
  unchk : Nat := 0
  /-- First group not clean, and its kind. -/
  first : Option (Nat × Bool) := none
  /-- Its place in the order in which groups were found not clean (R484). -/
  firstAt : Nat := 0
  deriving DecidableEq, Repr

/-- A notice on a Frank port (R100 to R102). -/
structure Notice where
  /-- et_fr_kind: FRANK is 0b01, WITHHELD 0b10. -/
  frank : Bool := false
  step : BitVec 32 := 0
  epoch : BitVec 16 := 0
  digest : BitVec 128 := 0
  pm : BitVec 64 := 0
  deriving DecidableEq, Repr

/-- What a Courier transfer is for (R103, R378, R384). -/
inductive XferUse where
  /-- Copy 1 (false) or 2 (true) of a parcel chunk. -/
  | parcelWrite (second : Bool) (chunk : Nat)
  | parcelRead (chunk : Nat)
  /-- Re-replication (R385): a chunk read from the surviving Holder, and its write to the new one. -/
  | copyRead (chunk : Nat)
  | copyWrite (chunk : Nat)
  /-- A 64 KiB piece of an EXPORT (R467). -/
  | exportWrite (piece : Nat)
  | other
  deriving DecidableEq, Repr

/-- An outstanding Courier transfer (R103). -/
structure Xfer where
  id : Nat := 0
  write : Bool := false
  wafer : Nat := 0
  addr : Nat := 0
  beats : Nat := 1
  got : Nat := 0
  data : List (BitVec 2048) := []
  bad : Bool := false
  use : XferUse := .other
  /-- Retired by a forced teardown (R393). -/
  retired : Bool := false
  tries : Nat := 0
  deriving DecidableEq, Repr

/-- A transit slot of a leaving port as its owner and its source see it (R323). -/
structure Transit where
  sent : BitVec 4 := 0
  arrived : BitVec 4 := 0
  freed : BitVec 4 := 0
  /-- arrived and freed as last reported to the source. -/
  seenArr : BitVec 4 := 0
  seenFree : BitVec 4 := 0
  /-- The packet held. -/
  pkt : Option Packet := none
  /-- Count since which arrived stays below sent. -/
  since : Nat := 0
  deriving DecidableEq, Repr

/-- Delivery credits of a Courier port for a queue of the Head Office: packets sent by the port, arrived and freed at the Head
Office, and these as last reported; 16 may be on their way or queued (R323, R324). (DESIGN CHOICE, log 61.) -/
structure Delivery where
  sent : BitVec 5 := 0
  arrived : BitVec 5 := 0
  freed : BitVec 5 := 0
  seenArr : BitVec 5 := 0
  seenFree : BitVec 5 := 0
  /-- Count since which arrived stays below sent. -/
  since : Nat := 0
  deriving DecidableEq, Repr

/-- One Courier domain: Courier port, Intake Tap, Egress Tap and Frank port of the same index. -/
structure Courier where
  /-- Domain powered [1; 01; 0]. -/
  powered : Bool := false
  /-- Domain disabled: dom_fail of CR_FAULT [1; 14 R444; 0]. -/
  domFail : Bool := false
  /-- port_fail of CR_FAULT [1; 14 R444; 0]. -/
  portFail : Bool := false
  /-- en bit of CR_ENABLE [1; 14 R444; 0]. -/
  en : Bool := false
  /-- cr_link_up as last seen [1; 03; 0, DESIGN CHOICE log 12]. -/
  linkUp : Bool := false
  /-- Transmit credits by channel [10 x 8; 03 R107; 0]. -/
  credits : List Nat := List.replicate 10 0
  /-- Flits that wait to be sent, by channel [03 R107; empty]. -/
  txq : Tab (List CourierFlit) := []
  /-- Last flit driven on cr_mt_data, cr_mt_vc, cr_mt_sop, cr_mt_eop, cr_mt_par, with cr_mt_vld [512 + 4 + 1 + 1 + 16; 03; none]. -/
  mt : Option (Nat × CourierFlit) := none
  /-- Receive buffers by channel [10 x 64 flits; 03 R107; empty]. -/
  rxq : Tab (List CourierFlit) := []
  /-- Credits returned on cr_mr_crd by channel, and credits the host still holds [10 x 7; 03 R107; 64]. -/
  hostCr : List Nat := List.replicate 10 64
  /-- Outstanding transfers [1024; 03 R103; none]. -/
  xfers : List Xfer := []
  nextId : Nat := 0
  /-- Request channel outputs cr_aw_*, cr_ar_*: write, wafer, address, length, identifier of the last request [03; none]. -/
  req : Option (Bool × Nat × Nat × Nat × Nat) := none
  /-- Write beats that the port has driven on cr_w_data [03 R103; 0]. -/
  wBeats : Nat := 0
  /-- cr_w_data of the last write beat driven; its parity follows from it [2,048; 03 R103; 0]. -/
  wData : BitVec 2048 := 0
  /-- Transit slots by 16 x channel + source port [10 x 16; 10 R323; empty]. -/
  transit : Tab Transit := []
  /-- Delivery credits for the Head Office's Request and Forward queues [16 each; 10 R323, R324; 0]. -/
  dlvReq : Delivery := {}
  dlvFwd : Delivery := {}
  /-- Malformed flits, CR_OVERRUN, FLEET_CRC, MISDELIVERED, LINK_DOWN_DROP counts [03, 10; 0]. -/
  malformed : Nat := 0
  overrun : Nat := 0
  /-- Post Network ends of the Courier port, the Intake Tap and the Egress Tap (R279). -/
  net : NetEnd := {}
  netI : NetEnd := {}
  netE : NetEnd := {}
  /-- Attachment entries of the Courier port, as a member's [17 x 8, twice; 10 R319; the first entries]. -/
  att0 : Tab (BitVec 8) := []
  att1 : Tab (BitVec 8) := []
  /-- Parts of core-state records that CAPTURE packets have brought, by role: place and beats [12 R378; empty]. -/
  caps : Tab (List (Nat × List Flit)) := []
  /-- Intake Tap: format table [16 x 64; 03 R95; 0xF each]. -/
  itFmt : List (BitVec 64) := List.replicate 16 0xF
  itTile : Option IntakeTile := none
  /-- it_stamp_vld pulses given, with the last it_stamp and it_stamp_tid [count, 32, 32; 03 R92; 0]. -/
  itPulses : Nat := 0
  itStamp : BitVec 32 := 0
  itStampTid : BitVec 32 := 0
  /-- The stamps that the last beat sends with their identifiers, in order: an it_first that closes an open tile and is it_last
  too sends two, one cycle apart [32 + 32 each; 03 R92; none]. -/
  itStamps : List (BitVec 32 × BitVec 32) := []
  itIgnored : Nat := 0
  /-- Egress Tap: open groups, oldest first [64; 03 R97; none]. -/
  groups : List EgressGroup := []
  counts : List EgressCount := []
  /-- Stray group identifiers charged to the next et_step_end (R484). -/
  stray : List Nat := []
  /-- Groups found not clean so far, and the place of the first stray one in that order (model's own, for first_grp of R484). -/
  uncleanSeq : Nat := 0
  strayAt : Nat := 0
  /-- Frank port: notices queued, the one presented first [4; 03 R102; none]. -/
  notices : List Notice := []
  /-- et_fr_vld [1; 03; 0]. -/
  frVld : Bool := false
  deriving DecidableEq, Repr

/-! ### Wafer-level blocks -/

/-- Inputs of the wafer-level ports, as last sampled. (DESIGN CHOICE, log 12.) -/
structure Env where
  /-- rs_por_n [1; 03 R88; 0]. -/
  porN : Bool := false
  /-- sc_lc and sc_lc_inv as sampled at the deassertion of rs_por_n [3 + 3; 03 R123; 0, DESIGN CHOICE log 12]. -/
  lc : BitVec 3 := 0
  lcInv : BitVec 3 := 0
  /-- ar_present [1; 03 R121; 0, DESIGN CHOICE log 12]. -/
  arPresent : Bool := false
  /-- pw_blk_vok [1; 03 R88; 0, DESIGN CHOICE log 12]. -/
  blkVok : Bool := false
  /-- pw_id_vld and the identifiers [1, 16, 16, 24; 03 R117; 0, DESIGN CHOICE log 12]. -/
  idVld : Bool := false
  feedIn : BitVec 16 := 0
  loopIn : BitVec 16 := 0
  rackIn : BitVec 24 := 0
  /-- pw_rgn_vok by region [128; 03 R116; 0, DESIGN CHOICE log 12]. -/
  rgnVok : BitVec 128 := 0
  /-- pw_shdn_req [1; 03 R118; 0, DESIGN CHOICE log 12]. -/
  shdnReq : Bool := false
  /-- st_stop_in_n [1; 03 R126; 1, DESIGN CHOICE log 12]. -/
  stopInN : Bool := true
  /-- tp_mfg_id [11; 03 R130; 0, DESIGN CHOICE log 12]. -/
  mfgId : BitVec 11 := 0
  deriving DecidableEq, Repr

/-- Outputs of the wafer-level ports that one unit drives. (DESIGN CHOICE, log 8 and 111.) -/
structure Outs where
  /-- rs_warm_req [1; 03 R89; 0]. -/
  warmReq : Bool := false
  /-- rs_cold_req [1; 03 R89; 0]. -/
  coldReq : Bool := false
  /-- mg_alarm_n [1; 03 R113; 0]. -/
  alarmN : Bool := false
  /-- mg_alarm_code [4; 03 R113; 0x1]. -/
  alarmCode : BitVec 4 := 1
  /-- pw_wave_req, pw_wave_op, pw_wave_id [1, 1, 6; 03 R114; 0]. -/
  waveReq : Bool := false
  waveOp : Bool := false
  waveId : BitVec 6 := 0
  /-- pw_shdn_rdy [1; 03 R118; 0]. -/
  shdnRdy : Bool := false
  /-- st_stop_out_n [1; 03 R127; 1]. -/
  stopOutN : Bool := true
  /-- sc_key_err pulses given [count; 03 R124; 0]. -/
  keyErr : Nat := 0
  /-- sc_zero_done pulses given [count; 03 R125; 0]. -/
  zeroDone : Nat := 0
  /-- sc_keys_zero [1; 03; 1]. -/
  keysZero : Bool := true
  /-- mg_rsp_data and mg_rsp_err of the last response [32, 2; 03; 0]. -/
  rspData : BitVec 32 := 0
  rspErr : BitVec 2 := 0
  /-- Responses given [count; 03 R111; 0]. -/
  rsps : Nat := 0
  /-- ar_cmd_op, ar_cmd_page, ar_cmd_cnt of the command in progress [2, 32, 8; 03 R119; none]. -/
  arCmd : Option (BitVec 2 × BitVec 32 × BitVec 8) := none
  deriving DecidableEq, Repr

/-- The Postmark (R133 to R149, R438). -/
structure Postmark where
  /-- Postmark and stop-tree domain powered [1; 01; 0]. -/
  powered : Bool := false
  /-- Count [64; 04 R133; 0]. -/
  count : BitVec 64 := 0
  /-- PM_STATUS.state [4; 04 R135; UNSET]. -/
  state : PmState := .unset
  /-- PM_STATUS flags slip, missing, drift, width [1 each; 14 R438; 0]. -/
  slip : Bool := false
  missing : Bool := false
  drift : Bool := false
  width : Bool := false
  /-- PM_COUNT capture [64; 14 R439; 0]. -/
  cap : BitVec 64 := 0
  /-- PM_LATCH [64; 14 R438; 0]. -/
  latch : BitVec 64 := 0
  /-- PM_SYNC_LATCH [64; 14 R438; 0]. -/
  syncLatch : BitVec 64 := 0
  /-- PM_LOAD_V and PM_LOAD_P [64, 30; 14 R438; 0]. -/
  loadV : BitVec 64 := 0
  loadP : BitVec 30 := 0
  /-- Count at which the state last became LOADED [64; 07 R230; 0]. -/
  loadedAt : Nat := 0
  /-- Latest hour boundary whose clean hours have been given [64; 07 R230; 0]. -/
  hourAt : Nat := 0
  /-- V and P of the load in force, and the k of the last counted pulse [04 R137; 0]. -/
  baseV : Nat := 0
  baseP : Nat := 0
  lastK : Nat := 0
  /-- ck_ref cycles since the first cycle of the last counted pulse; none before any [04 R86; none]. -/
  since : Option Nat := none
  /-- Applied leg offsets by node, in 0.125 ns [11 each; 04 R140; 0]. -/
  offsets : Tab Nat := []
  /-- Fresh measurements not yet applied [04 R144; none]. -/
  fresh : Tab Nat := []
  /-- Nodes now beyond the drift threshold [04 R144; none]. -/
  drifted : List Nat := []
  /-- RST_COUNTS.cold [16; 14 R442; 0]. -/
  coldCount : Nat := 0
  deriving DecidableEq, Repr

/-- Service state, bring-up and power waves. -/
structure Svc where
  /-- SVC_STATE.state [4; 14 R435; BOOTING]. -/
  state : SvcState := .booting
  /-- Alarm code with which SAFE was entered [4; 03 R113; 0]. -/
  safeCause : Nat := 0
  /-- The controller cores have stopped: a disagreement, or a failed Head Office test [1; 01 R30; 0]. -/
  halted : Bool := false
  /-- Life-cycle state as taken [3; 03 R123; MANUFACTURE, DESIGN CHOICE log 12]. -/
  lc : LifeCycle := .manufacture
  /-- LC_STATE.invalid [1; 14 R435; 0, DESIGN CHOICE log 12]. -/
  lcInvalid : Bool := false
  /-- Head Office domain powered and debug domain powered [1, 1; 01; 0]. -/
  hoOn : Bool := false
  dbgOn : Bool := false
  /-- The debug domain failed its power-up test: the test port is unavailable [1; 08 R272; 0]. -/
  dbgFail : Bool := false
  /-- Head Office test passed; Viloladric runs [1; 11 R339; 0]. -/
  hoPassed : Bool := false
  /-- Image loaded; NO_IMAGE otherwise [1; 03 R121; 0]. -/
  imageOk : Bool := false
  /-- Head Office Ledger reloaded: step 4 of R339 ended [1; 11 R339; 0]. -/
  ledgerOk : Bool := false
  /-- Postmark domain test passed in this bring-up [1; 08 R252; 0]. -/
  pmOk : Bool := false
  /-- A reset is in progress that repeats the core tests: 0 none, 1 warm, 2 cold [2; 11 R356, R359; 0]. -/
  reset : Nat := 0
  /-- Count by which rs_host_done must pulse [64; 11 R357, R360; 0]. -/
  resetDue : Nat := 0
  /-- rs_host_done has come for the reset [1; 11 R359; 0]. -/
  hostDone : Bool := false
  /-- The domains of the cold reset's step 4 have been powered off (R359) [1; 11 R359; 0]. -/
  coldOff : Bool := false
  /-- Cause code of a cold reset that waits for the wave handshake to end, 0 for none (R362) [4; 11 R362; 0]. -/
  coldWait : Nat := 0
  /-- PWR_STATUS phase and slow [2, 1; 14 R443; 0]. -/
  wavePhase : BitVec 2 := 0
  slow : Bool := false
  /-- Count of the latest and of the first wave request [64; 11 R341, R342; none]. -/
  waveAt : Option Nat := none
  wave1 : Option Nat := none
  /-- Waves requested or passed over in this bring-up [64; 11 R341; 0]. -/
  wavesDone : BitVec 64 := 0
  /-- PWR_WAVE_ON, PWR_WAVE_FAIL [64, 64; 14 R443; 0]. -/
  waveOn : BitVec 64 := 0
  waveFail : BitVec 64 := 0
  /-- Identifiers taken under R117 [16, 16, 24; 14 R443; 0]. -/
  feed : BitVec 16 := 0
  loop : BitVec 16 := 0
  rack : BitVec 24 := 0
  /-- Shutdown in progress [1; 03 R118; 0]. -/
  shutting : Bool := false
  deriving DecidableEq, Repr

/-- Management registers of the Head Office domain (R428 to R451). -/
structure Mgmt where
  /-- ID_WAFER.wafer and wafer_vld [15, 1; 14 R435; 0]. -/
  wafer : BitVec 15 := 0
  waferVld : Bool := false
  /-- IRQ_RING_STATUS and IRQ_RING_ENABLE [64, 64; 14 R436; 0]. -/
  irqRing : BitVec 64 := 0
  irqRingEn : BitVec 64 := 0
  /-- IRQ_MISC_STATUS and IRQ_MISC_ENABLE [6, 6; 14 R436; 0]. -/
  irqMisc : BitVec 6 := 0
  irqMiscEn : BitVec 6 := 0
  /-- ERR_SUMMARY [9; 14 R446; 0]. -/
  err : BitVec 9 := 0
  /-- ERR_FIRST offset, cause, valid [16, 5, 1; 14 R446; 0]. -/
  errOff : BitVec 16 := 0
  errCause : BitVec 5 := 0
  errVld : Bool := false
  /-- ERR_COUNT [16; 14 R446; 0]. -/
  errCount : Nat := 0
  /-- MEAS_DIGEST, MEAS_INFO.slot, MEAS_INFO.valid, MEAS_LEN [384, 1, 1, 25; 14 R448; 0]. -/
  meas : BitVec 384 := 0
  measSlot : Bool := false
  measVld : Bool := false
  measLen : Nat := 0
  deriving DecidableEq, Repr

/-- A command or event ring (R396 to R400, R431). -/
structure Ring where
  /-- ltr_head, ltr_tail [5, 5; 14 R431; 0]. -/
  ltrHead : Nat := 0
  ltrTail : Nat := 0
  /-- rcp_head, rcp_tail [8, 8; 14 R431; 0]. -/
  rcpHead : Nat := 0
  rcpTail : Nat := 0
  /-- RING_DEST.dest_wafer [15; 14 R431; 0]. -/
  dest : BitVec 15 := 0
  /-- Records held, from rcp_head [256 bytes each; 13 R396; empty]. -/
  recs : List (List Byte) := []
  /-- Letters of a fleet ring: bytes, source wafer, wafer that holds the reply slot, the slot, req_seq [13 R396, 10 R320; empty]. -/
  inbox : List (List Byte × Nat × Nat × Nat × Nat) := []
  /-- The letter at the head has passed checks 1 to 10 and waits for its row. -/
  ready : Bool := false
  /-- The letter at the head goes to another wafer: the destination read when it reached the head (R434). -/
  away : Option Nat := none
  /-- The head letter has been relayed and waits for its reply (R397). -/
  relayed : Bool := false
  /-- Letters from the head on that waited for authentication at the latest zeroization (R125) [5; 03 R125; 0]. -/
  stale : Nat := 0
  /-- The letter last taken has not produced its first receipt yet (R398) [1; 13 R398; 0]. -/
  busy : Bool := false
  /-- Receipts held because the slots are full [13 R398; empty]. -/
  held : List (List Byte) := []
  /-- Event ring's sequence number and EVENT_LOST count not yet carried [32, 32; 13 R400; 0]. -/
  seq : BitVec 32 := 0
  lost : Nat := 0
  deriving DecidableEq, Repr

/-- An accepted letter whose receipt is cached (R408). -/
structure CacheEntry where
  sender : Nat := 0
  seq : BitVec 32 := 0
  tag : BitVec 128 := 0
  receipt : Option (List Byte) := none
  /-- Rings on which a retry waits for the first receipt, with the reply slot of a fleet letter. -/
  waiting : List (Nat × Option (Nat × Nat × Nat)) := []
  deriving DecidableEq, Repr

/-- A letter with an interim receipt and no final one (R410). -/
structure Outst where
  ring : Nat := 0
  opcode : Nat := 0
  seq : BitVec 32 := 0
  sender : Nat := 0
  slot : Nat := 0
  unauth : Bool := false
  /-- Parameter bytes. -/
  params : List Byte := []
  /-- Values the final receipt needs (counts, failures, records). -/
  acc : List Nat := []
  /-- Wafer that holds the reply slot, the slot and req_seq of a fleet letter that has no Reply yet (R325). -/
  reply : Option (Nat × Nat × Nat) := none
  /-- It has produced no receipt yet: its ring waits (R398, R412). -/
  silent : Bool := false
  deriving DecidableEq, Repr

/-- Letters, sessions and rings. -/
structure Mail where
  rings : Tab Ring := []
  /-- Open sessions by sender address [48 each; 13 R409; none]. -/
  sessions : List Nat := []
  /-- Receipt cache, newest first [1024; 13 R408; empty]. -/
  cache : List CacheEntry := []
  /-- seq of the last letter this Head Office sent to a Holder [32; 13 R407; 0, DESIGN CHOICE log 21]. -/
  outSeq : BitVec 32 := 0
  /-- Outstanding letters [13 R410; none]. -/
  outst : List Outst := []
  deriving DecidableEq, Repr

/-- Keys and key loads (R124, R125, R449, R450). -/
structure Keys where
  /-- Four slots [384 each; 03 R124; 0]. -/
  slots : List (BitVec 384) := List.replicate 4 0
  /-- Port load in progress: slot, or 4 + slot once it has been rejected, and words so far [03 R124; none]. -/
  port : Option (Nat × List (BitVec 32)) := none
  /-- Window load in progress: slot and words so far [14 R450; none]. -/
  win : Option (Nat × List (BitVec 32)) := none
  /-- KEY_STATUS.slot [2; 14 R449; 0]. -/
  winSlot : BitVec 2 := 0
  /-- KEY_STATUS locked, last_ok, last_err [1 each; 14 R449; 0]. -/
  locked : Bool := false
  lastOk : Bool := false
  lastErr : Bool := false
  deriving DecidableEq, Repr

/-- Persisting the Ledger (R122, R118). -/
structure Archive where
  /-- Slots A and B as persisted [03 R122; none]. -/
  slotA : Option LedgerImage := none
  slotB : Option LedgerImage := none
  /-- Persist in progress: step 0 body, 1 flush, 2 header, 3 flush [2; 03 R122; none]. -/
  step : Option Nat := none
  /-- Next page of the body to write [32; 03 R119; 0]. -/
  page : Nat := 0
  /-- Target slot is B [1; 03 R122; 0]. -/
  toB : Bool := false
  /-- Media or range errors answered [count; 03 R119; 0]. -/
  errors : Nat := 0
  deriving DecidableEq, Repr

/-- Board Map working copy and publication (R41 to R43). -/
structure BoardMap where
  /-- Logical role by core [20 + 1; 01 R41; none]. -/
  roles : Tab Nat := []
  /-- Core state as the last published generation gives it [01 R43; none]. -/
  published : Tab (CoreSt × Option Nat) := []
  /-- A change waits for publication [1; 01 R43; 0]. -/
  dirty : Bool := false
  /-- Latest published generation and digest [32, 384; 01 R43; 0]. -/
  gen : BitVec 32 := 0
  digest : BitVec 384 := 0
  /-- Cores that read FENCED without role for the power cycle, with why: 1 wave, 2 test window, 3 Letterbox control
  path, 4 Office twin, 5 image, 6 cluster lost [01, 03 R115, 08 R256, R258; none]. -/
  blocked : Tab Nat := []
  deriving DecidableEq, Repr

/-- The decision record of a step (R228, R413 STEP_QUERY). -/
structure StepRec where
  step : Nat := 0
  frank : Bool := false
  replays : Nat := 0
  mask : BitVec 32 := 0
  digest : BitVec 128 := 0
  fc : Nat := 0
  deriving DecidableEq, Repr

/-- A region record at the Head Office (R226). -/
structure RegionRec where
  region : Nat := 0
  step : Nat := 0
  reasons : BitVec 32 := 0
  digestSum : BitVec 32 := 0
  tileCount : Nat := 0
  mismatch : Nat := 0
  unchk : Nat := 0
  suspects : Nat := 0
  unscreened : Nat := 0
  deriving DecidableEq, Repr

/-- An Egress Tap summary at the Head Office (R99). -/
structure EgressRec where
  n : Nat := 0
  step : Nat := 0
  clean : Bool := false
  deriving DecidableEq, Repr

/-- A STALL or WAIT_UPDATE event at the Head Office (R461). -/
structure StallRec where
  role : Nat := 0
  entry : Nat := 0
  update : Bool := false
  desc : Option (Nat × Nat) := none
  pm : Nat := 0
  deriving DecidableEq, Repr

/-- Job and step control in the Head Office. -/
structure Job where
  /-- The loaded manifest [13 R419; none]. -/
  man : Option Manifest := none
  /-- JOB_STATUS armed, launched [1, 1; 14 R435; 0]. -/
  armed : Bool := false
  launched : Bool := false
  /-- Launch count L and count at which arming completed [64; 04 R150; 0]. -/
  launchAt : Nat := 0
  armedAt : Nat := 0
  armedCnt : Nat := 0
  /-- Letterboxes that did not confirm arming [04 R152; empty]. -/
  unarmed : List Nat := []
  /-- Step number of the slot, its launch count, shift of its expected counts by stops [07, 15 R459; 0]. -/
  step : Nat := 0
  slotAt : Nat := 0
  shift : Nat := 0
  /-- The stops of the slot: stop count and shift [64 each; 15 R459; empty]. -/
  shifts : List (Nat × Nat) := []
  /-- Further shift of the next slot launch alone: a stop after T_end, or a parcel stop [64; 15 R459, 12 R378; 0]. -/
  lateShift : Nat := 0
  /-- Slot index since launch, and whether a slot runs [07; 0]. -/
  slotIx : Nat := 0
  inSlot : Bool := false
  /-- The slot's step has been decided [07 R228; 0]. -/
  decided : Bool := false
  /-- The slot's wait-for graph has been built [1; 11 R351; 0]. -/
  graphed : Bool := false
  /-- Cores that lose a pip at the next boundary for a clean hour [20 each; 07 R230; empty]. -/
  hourDue : List Nat := []
  lastMask : BitVec 32 := 0
  /-- The slot is a replay: number of the replay [07 R236; 0]. -/
  replay : Nat := 0
  /-- Number of the replay that a withheld decision orders; 0 after a frank [3; 07 R236; 0]. -/
  withheld : Nat := 0
  /-- The job stops at the next slot launch [07 R236; 0]. -/
  stopNext : Bool := false
  /-- Own reasons of the Head Office so far: STOP [07 R220; 0]. -/
  hoReasons : BitVec 32 := 0
  /-- Decision history [1024; 13 R413; empty]. -/
  hist : List StepRec := []
  /-- Region records and egress summaries received for the step [07 R226, 03 R98; none]. -/
  recs : List RegionRec := []
  egress : List EgressRec := []
  stalls : List StallRec := []
  /-- Slots in a row that met the WAFER_HANG test (R361). -/
  hangs : Nat := 0
  /-- Fills of the wafer [07 R238; none]. -/
  fills : List Fill := []
  /-- Copies of the Offices' relocation tables [128 x 256 x 128; 07 R240; empty]. -/
  relocs : Tab (List Reloc) := []
  /-- Notices due at F_c [03 R101; none]. -/
  due : List Notice := []
  /-- Teardown in progress: count of step 2, and the ring of its letter [12 R393; none]. -/
  tearing : Option Nat := none
  forcedX : Nat := 0
  forcedR : Nat := 0
  /-- The primary KAT chosen at LAUNCH [08 R264; none]. -/
  primaryKat : Option Nat := none
  deriving DecidableEq, Repr

/-- Stop tree, stop causes and resumption (R452 to R459). -/
structure Stop where
  /-- STOP_STATUS.stopped [1; 14 R440; 0]. -/
  stopped : Bool := false
  /-- Local causes in force [15 R457; none]. -/
  causes : List StopCause := []
  /-- STOP_STATUS.cause: latest local cause [4; 14 R440; 0]. -/
  last : Option StopCause := none
  /-- Received latch [1; 15 R454; 0]. -/
  latch : Bool := false
  /-- Count at which a stop under way gates the cores [64; 15 R452; none]. -/
  at_ : Option Nat := none
  /-- Armed scheduled stop: STOP_AT registers [64; 14 R440; none]. -/
  sched : Option Nat := none
  /-- STOP_LAST [64; 14 R440; 0]. -/
  lastAt : BitVec 64 := 0
  /-- Count at which the stop-out pulse began [64; 15 R454; none]. -/
  pulseAt : Option Nat := none
  /-- Resumption: own R, collective 14 result R* [64; 15 R458; none]. -/
  ownR : Option Nat := none
  resumeAt : Option Nat := none
  deriving DecidableEq, Repr

/-- Policies the letters set. -/
structure Policy where
  /-- Rate codes of SUSPECT, PROBATION, ACTIVE [6 each; 06 R193; 0, 3, 6]. -/
  rdSuspect : Nat := 0
  rdProbation : Nat := 3
  rdActive : Nat := 6
  /-- thr_ld [32; 06 R211; 0x0006_8DB9]. -/
  thrLd : BitVec 32 := 0x00068DB9
  /-- Canary policies OUT_SPECIAL, SATURATION, SCALE_RANGE, FLUSH, MAGNITUDE [2 each; 05 R184; 1, 0, 1, 0, 0]. -/
  canary : List Nat := [1, 0, 1, 0, 0]
  /-- Magnitude bands by layer tag, lo and hi [4 + 4; 05 R183; 0 and 15]. -/
  bands : Tab (Nat × Nat) := []
  /-- replay_limit, unscreened_limit [07 R236, R247; 2, 0]. -/
  replayLimit : Nat := 2
  unscreenedLimit : Nat := 0
  /-- B_s in us, recovery_steps, spare_sweep, standby_period in hours, router_round [08 R263; 40, 4, 1, 12, 1]. -/
  sliceBudget : Nat := 40
  recovery : Nat := 4
  spareSweep : Bool := true
  standbyHours : Nat := 12
  routerRound : Bool := true
  /-- Parcel interval in minutes, t_stop in ticks, attempts [12 R373; 60, 45,000,000, 3]. -/
  interval : Nat := 60
  tStop : Nat := 45000000
  attempts : Nat := 3
  /-- reset_count, reset_window, auto_warm [14 R442; 3, 60, 1]. -/
  resetCount : Nat := 3
  resetWindow : Nat := 60
  autoWarm : Bool := true
  /-- holder_cap in GiB [16; 10 R329; 0, DESIGN CHOICE log 14]. -/
  holderCap : Nat := 0
  /-- The format table the Head Office last loaded [16 x 64; 05 R164; 0xF each]. -/
  fmt : List (BitVec 64) := List.replicate 16 0xF
  deriving DecidableEq, Repr

/-- Reset history (R363, R442). -/
structure ResetLog where
  /-- Warm-reset counts, newest first [64 each; 11 R363; none]. -/
  warmAt : List Nat := []
  /-- RST_COUNTS.warm [8; 14 R442; 0]. -/
  warm : Nat := 0
  /-- RST_LAST cause and kind [4, 2; 14 R442; 0]. -/
  cause : Nat := 0
  kind : Nat := 0
  /-- Records that still count in the window [4; 14 R442; 0]. -/
  inWindow : Nat := 0
  deriving DecidableEq, Repr

/-- A partner entry (R330). -/
structure Partner where
  /-- 0 LIVE, 1 STALE, 2 REFUSED. -/
  state : Nat := 0
  version : Nat := 0
  refuse : Nat := 0
  feed : Nat := 0
  loop : Nat := 0
  rack : Nat := 0
  idVld : Bool := false
  pmState : Nat := 0
  epoch : Nat := 0
  cap : Nat := 0
  heard : Nat := 0
  /-- Count since which it has been STALE or REFUSED. -/
  since : Nat := 0
  deriving DecidableEq, Repr

/-- A fleet message as the Head Office assembles it (R320, R324). -/
structure FleetMsg where
  src : Nat := 0
  mclass : Nat := 0
  mtype : Nat := 0
  rtag : Nat := 0
  epoch : Nat := 0
  final : Nat := 0
  orig : Nat := 0
  reqSeq : Nat := 0
  last : Nat := 0
  /-- Fragments so far: index and bytes. -/
  frags : List (Nat × List Byte) := []
  /-- Count of the first fragment. -/
  first : Nat := 0
  /-- Courier port of arrival. -/
  port : Nat := 0
  deriving DecidableEq, Repr

/-- A reply slot (R324, R325). -/
structure ReplySlot where
  reqSeq : Nat := 0
  since : Nat := 0
  /-- Local ring of the relayed letter; or the requester whose request this wafer relays: wafer, rtag, req_seq. -/
  ring : Option Nat := none
  relay : Option (Nat × Nat × Nat) := none
  /-- What the request was: mtype. -/
  mtype : Nat := 0
  /-- A letter of this Head Office to a Holder: opcode, and which copy or generation it is about (R378, R383, R388). -/
  own : Option (Nat × Nat) := none
  deriving DecidableEq, Repr

/-- A Bulk stream (R326, R336). -/
structure BulkStream where
  peer : Nat := 0
  sender : Bool := false
  /-- req_seq of the BULK_OPEN, which its later messages repeat. -/
  tag : Nat := 0
  /-- rtag and epoch of the BULK_OPEN, which its BULK_DATA repeat (R326). -/
  rtag : Nat := 0
  epoch : Nat := 0
  credits : Nat := 0
  /-- Packets reassembled or waiting to be sent. -/
  pkts : List (List Byte) := []
  /-- Count since which the stream has had no credit. -/
  since : Nat := 0
  deriving DecidableEq, Repr

/-- A collective in progress (R327). -/
structure Coll where
  op : Nat := 0
  /-- Own contribution and those of the children that have come. -/
  own : Option (List Nat) := none
  kids : List (Nat × List Nat) := []
  since : Nat := 0
  deriving DecidableEq, Repr

/-- Messaging between wafers (10). -/
structure Fleet where
  /-- Ring lengths [8 x 8; 10 R314; 1 each, DESIGN CHOICE log 15]. -/
  len : List Nat := List.replicate 8 1
  partners : Tab Partner := []
  /-- Partial messages, in order of their first fragments [10 R324; empty]. -/
  parts : List FleetMsg := []
  /-- Whole messages that wait: requests, forwards, replies, bulk, collective [10 R324; empty]. -/
  requests : List FleetMsg := []
  forwards : List FleetMsg := []
  replies : List FleetMsg := []
  bulk : List FleetMsg := []
  colls : List FleetMsg := []
  /-- Reply slots [1024; 10 R324; free]. -/
  slots : Tab ReplySlot := []
  /-- Next message sequence number [16; 10 R320; 0]. -/
  reqSeq : Nat := 0
  /-- Bulk reassembly: the streams being received [64; 10 R324; none]. -/
  streams : Tab BulkStream := []
  /-- The streams of which this wafer is the sender (R326) [none]. -/
  bulkOut : Tab BulkStream := []
  /-- Collectives by id [16; 10 R327; none], and ids that ended with COLL_TIMEOUT. -/
  coll : Tab Coll := []
  ended : List Nat := []
  /-- Count of the latest periodic HELLO [64; 10 R329; none]. -/
  helloAt : Option Nat := none
  /-- FLEET_CRC, MISDELIVERED, LINK_DOWN_DROP, malformed, REPLY_STRAY, dead letters by kind [10, 12 R394; 0]. -/
  drops : Tab Nat := []
  deriving DecidableEq, Repr

/-- Re-replication of a SINGLE generation (R385). -/
structure Rerep where
  gen : Nat := 0
  /-- The surviving Holder and the new one. -/
  survivor : Nat := 0
  holder : Nat := 0
  /-- Base granted by the new Holder; none until it has answered. -/
  base : Option Nat := none
  /-- Base of the survivor's copy. -/
  source : Nat := 0
  pages : Nat := 0
  epoch : Nat := 0
  root : BitVec 384 := 0
  /-- Chunks not yet written, and the next one to read. -/
  left : Nat := 0
  next : Nat := 0
  /-- Chunks that wait to be read again, no port having been free to write them. -/
  again : List Nat := []
  committing : Bool := false
  /-- Holders that failed as the new Holder. -/
  tried : List Nat := []
  deriving DecidableEq, Repr

/-- Taking and keeping parcels (12). -/
structure Parcel where
  /-- Holder 1, Holder 2 or stand-in, exposure mask [10 R334; none]. -/
  holder1 : Option Nat := none
  holder2 : Option Nat := none
  exposure : BitVec 6 := 0
  /-- Selection failed with NO_HOLDER. -/
  noHolder : Bool := false
  /-- Latest due count served, or the launch count less one [64; 12 R373, R376; 0]. -/
  served : Nat := 0
  /-- Due count being served, and votes cast for it [12 R376; none]. -/
  due : Option Nat := none
  votes : Nat := 0
  voting : Bool := false
  /-- The vote's parcel stop count S once armed [64; 12 R376; none]. -/
  stopAt : Option Nat := none
  /-- S of the parcel stop in force [64; 12 R378; none]. -/
  inStop : Option Nat := none
  /-- S, and the Board Map generation and digest in force at S, of the newest parcel stop [64, 32, 384; 12 R369; 0]. -/
  stopPm : Nat := 0
  stopMap : Nat := 0
  stopDigest : BitVec 384 := 0
  /-- Reservations granted: base addresses [64; 12 R375; none]. -/
  base1 : Option Nat := none
  base2 : Option Nat := none
  reservedAt : Nat := 0
  /-- Pages of the sections captured, and page CRCs [12 R378; empty]. -/
  pagesLeft : Nat := 0
  crcs : Tab (BitVec 64) := []
  records : Tab (List Flit) := []
  /-- Chunks written on copy 1 and copy 2, retries per copy and chunk, copies failed [12 R384; none]. -/
  done1 : List Nat := []
  done2 : List Nat := []
  retries : Tab Nat := []
  fail1 : Bool := false
  fail2 : Bool := false
  /-- Root built; commits sent and answered [12 R378, R382; 0]. -/
  root : Option (BitVec 384) := none
  committing : Bool := false
  commitAt : Nat := 0
  ans1 : Option Bool := none
  ans2 : Option Bool := none
  /-- Chunks that wait for a transfer identifier [12 R379; empty]. -/
  todo : List Nat := []
  /-- Writes that wait for a port: copy, chunk, data [12 R379; empty]. -/
  writes : List (Bool × Nat × List (BitVec 2048)) := []
  /-- The Courier port assigned to each region at preparation [12 R378; none]. -/
  ports : Tab Nat := []
  /-- The table pages and page 0 are being written [1; 12 R378; 0]. -/
  rooting : Bool := false
  /-- Re-replication of a SINGLE generation [12 R385; none]. -/
  rerep : Option Rerep := none
  /-- SINGLE generations whose re-replication waits for the one in progress: generation, survivor [12 R385; empty]. -/
  rerepq : List (Nat × Nat) := []
  /-- Space freed and the count until which it is not granted: pages, count [12 R387; none]. -/
  cooling : List (Nat × Nat) := []
  deriving DecidableEq, Repr

/-- Image distribution in the Head Office (R423 to R425). -/
structure ImageLoad where
  active : Bool := false
  /-- Image buffer and its SHA-384 [768 KiB, 384; 13 R423; empty]. -/
  bytes : List Byte := []
  digest : BitVec 384 := 0
  imageId : BitVec 16 := 0
  /-- Round in progress, 1 to 8 [4; 13 R424; 0]. -/
  round : Nat := 0
  /-- Populated regions of the letter's mask, and those that have ended the round [128 each; 13 R423, R424; 0]. -/
  regions : BitVec 128 := 0
  ended : BitVec 128 := 0
  targets : List Nat := []
  /-- Packets that each region's Office requested for the round in progress, as runs of start and length; none asked for
  all in round 1 [13 R424; none]. -/
  asked : Tab (List (Nat × Nat)) := []
  deriving DecidableEq, Repr

/-- The Viloladric side of the Post Network: the Head Office terminal, tables and maps. -/
structure PostCtl where
  net : NetEnd := {}
  /-- Active table version [1; 09 R300; 0]. -/
  ver : Bool := false
  /-- Routers each version routes around, by region [09 R300; none]. -/
  around0 : Tab (BitVec 128) := []
  around1 : Tab (BitVec 128) := []
  /-- Swap in progress: activation count [64; 09 R300; none]. -/
  swapAt : Option Nat := none
  /-- Count at which a version last stopped being injected [64; 09 R300; 0]. -/
  retiredAt : Nat := 0
  /-- Swaps that wait for the one in progress: region and routers [09 R301; none]. -/
  swapq : List (Nat × BitVec 128) := []
  /-- Region maps, latest and the sample count of each [09 R308; none]. -/
  maps : Tab (List (BitVec 8)) := []
  mapAge : Tab Nat := []
  /-- Packets of a region's map that wait for the rest of it: sequence number and flits [09 R308; none]. -/
  mapParts : Tab (List (Nat × List Flit)) := []
  /-- Attachment table of the Head Office, as a member's [49 x 8, twice; 09 R291; the first entries]. -/
  att0 : Tab (BitVec 8) := []
  att1 : Tab (BitVec 8) := []
  /-- The last wafer maps, newest first [256; 15 R467; empty]. -/
  waferMaps : List (Tab (List (BitVec 8))) := []
  /-- Next stage identifier [16; 09 R303; 0]. -/
  stageId : Nat := 0
  deriving DecidableEq, Repr

/-- A trace entry (R465): 32 bytes. -/
structure TraceEntry where
  pm : Nat := 0
  code : Nat := 0
  ring : Nat := 0
  unit : Nat := 0
  body : List Byte := []
  deriving DecidableEq, Repr

/-- States of the IEEE 1149.1 controller (R129). -/
inductive TapSt where
  | testLogicReset | runTestIdle
  | selectDr | captureDr | shiftDr | exit1Dr | pauseDr | exit2Dr | updateDr
  | selectIr | captureIr | shiftIr | exit1Ir | pauseIr | exit2Ir | updateIr
  deriving DecidableEq, Repr

/-- Debug domain: trace, TAP and IEEE 1687 network (15). -/
structure Debug where
  /-- TRACE_CONTROL word in force [64; 15 R466; 0]. -/
  ctrl : BitVec 64 := 0
  /-- Trace state: 0 off, 1 running, 2 frozen [2; 15 R466; 0]. -/
  state : Nat := 0
  /-- Trace buffer, oldest first [16,384 x 256; 15 R465; empty]. -/
  trace : List TraceEntry := []
  /-- Index of the trigger entry [15; 15 R466; none], a match not yet served, entries left after it. -/
  trig : Option Nat := none
  matched : Option Nat := none
  post : Option Nat := none
  /-- Instruction register of the TAP [8; 03 R129; IDCODE 0x01]. -/
  tapIr : BitVec 8 := 1
  /-- Controller state of the TAP [4; 03 R129; Test-Logic-Reset]. -/
  tap : TapSt := .testLogicReset
  /-- Shift register between tp_tdi and tp_tdo, the bit next out first: the instruction register's, or that of the register
  the instruction names [03 R129; empty]. -/
  tapSh : List Bool := []
  /-- tp_tdo and tp_tdo_en [1, 1; 03 "Test"; 0, 0]. -/
  tdo : Bool := false
  tdoEn : Bool := false
  /-- IJTAG_ACCESS has been selected and the keys zeroized: the network opens at the next Run-Test/Idle [1; 03 R131; 0]. -/
  netDue : Bool := false
  /-- IEEE 1687 network open [1; 08 R274; 0]. -/
  netOpen : Bool := false
  /-- Open segment insertion bits [15 R469; none]. -/
  sibs : List Sib := []
  /-- SPURIOUS_DONE count [03 R89; 0]. -/
  spurious : Nat := 0
  /-- EXPORT in progress: the results its receipt will carry; pieces not yet answered; pieces that wait for a
  transfer identifier, with their address and beats [15 R467, R468; none]. -/
  exporting : Option (List Byte) := none
  exportLeft : Nat := 0
  exportTodo : List (Nat × Nat × List (BitVec 2048)) := []
  deriving DecidableEq, Repr

/-- Core-level units. -/
structure Units where
  /-- Core positions by physical index; an unlisted one has `Core`'s reset values. -/
  cores : Tab Core := []
  /-- Offices by region. -/
  offices : Tab Office := []
  /-- Routers by 128 x region + router. -/
  routers : Tab Router := []
  /-- Office torus nodes by region. -/
  nodes : Tab Router := []
  /-- Courier domains 0 to 15. -/
  couriers : Tab Courier := []
  deriving DecidableEq, Repr

/-- Head Office blocks. -/
structure Office0 where
  mgmt : Mgmt := {}
  mail : Mail := {}
  job : Job := {}
  policy : Policy := {}
  resets : ResetLog := {}
  fleet : Fleet := {}
  parcel : Parcel := {}
  image : ImageLoad := {}
  post : PostCtl := {}
  bm : BoardMap := {}
  deriving DecidableEq, Repr

/-- Everything of the block but its command queue. -/
structure Block where
  env : Env := {}
  outs : Outs := {}
  pm : Postmark := {}
  svc : Svc := {}
  keys : Keys := {}
  cfg : Option IntegrationConfig := none
  ledger : LedgerData := {}
  arch : Archive := {}
  stop : Stop := {}
  ho : Office0 := {}
  units : Units := {}
  dbg : Debug := {}
  /-- Letter windows of rings 0 to 39: byte 8192 x ring + 256 x slot + offset [8 each; 14 R432; 0, DESIGN CHOICE log 13]. -/
  letters : List Host.Cell := []
  /-- The model's own counter of free values drawn (DESIGN CHOICE log 16). -/
  free : Nat := 0
  deriving DecidableEq, Repr

/-- The state: the block and the commands that wait, first in, first out. -/
structure State where
  blk : Block := {}
  pending : List Instr := []
  deriving DecidableEq, Repr

/-- The machine right after reset: rs_por_n is asserted, every output of W1 holds its reset value, the Postmark is
UNSET with count 0 (R88, R139) and no command waits. (DESIGN CHOICE, log 10 and 13.) -/
def State.reset : State := {}

end Sys2Proof.Machine
end

