-- ==== Sys2Proof/Machine/Bits.lean ====
section
/-! DEFINITION. Sparse tables, bit fields, byte order and lists: the helpers every meaning uses. -/

namespace Sys2Proof.Machine

open Sys2Proof

/-! ### Sparse tables with rising keys -/

/-- The row of key k, none where it is not listed. -/
def tget {α : Type} (t : Tab α) (k : Nat) : Option α :=
  match t with
  | [] => none
  | (j, a) :: r => if j = k then some a else tget r k

/-- Write row a at key k, keeping keys rising. -/
def tset {α : Type} (t : Tab α) (k : Nat) (a : α) : Tab α :=
  match t with
  | [] => [(k, a)]
  | (j, x) :: r => if k < j then (k, a) :: (j, x) :: r else if k = j then (k, a) :: r else (j, x) :: tset r k a

/-- Remove key k. -/
def tdel {α : Type} (t : Tab α) (k : Nat) : Tab α := t.filter (fun p => p.1 ≠ k)

/-- Rows of a count table: an unlisted key counts 0. -/
def tcnt (t : Tab Nat) (k : Nat) : Nat := (tget t k).getD 0

/-- Add n to a count. -/
def tadd (t : Tab Nat) (k n : Nat) : Tab Nat := tset t k (tcnt t k + n)

/-- Apply f to every row. -/
def tmap {α : Type} (f : Nat → α → α) (t : Tab α) : Tab α := t.map (fun p => (p.1, f p.1 p.2))

/-- Keys rise strictly. -/
def tabSorted {α : Type} : Tab α → Bool
  | [] => true
  | [_] => true
  | (j, _) :: (k, b) :: r => decide (j < k) && tabSorted ((k, b) :: r)

/-- Set element i of a list; beyond the end nothing changes. -/
def lset {α : Type} (l : List α) (i : Nat) (a : α) : List α := l.set i a

/-- Element i of a list of counts, 0 beyond the end. -/
def lnat (l : List Nat) (i : Nat) : Nat := l.getD i 0

/-- The first n elements from i on. -/
def slice {α : Type} (l : List α) (i n : Nat) : List α := (l.drop i).take n

/-- The numbers lo, lo + 1, ... below lo + n. -/
def rangeFrom (lo n : Nat) : List Nat := (List.range n).map (lo + ·)

/-- Insert into a list ordered by a Bool order, after equal elements. -/
def insertBy {α : Type} (le : α → α → Bool) (a : α) : List α → List α
  | [] => [a]
  | b :: r => if le b a then b :: insertBy le a r else a :: b :: r

/-- Insertion sort, stable. -/
def sortBy {α : Type} (le : α → α → Bool) (l : List α) : List α := l.foldl (fun acc a => insertBy le a acc) []

/-- Compare lists of keys in order: true when the first is not greater. -/
def keysLe : List Nat → List Nat → Bool
  | [], _ => true
  | _ :: _, [] => false
  | a :: r, b :: s => if a < b then true else if b < a then false else keysLe r s

/-- Remove repeats, keeping first occurrences. -/
def dedup (l : List Nat) : List Nat := l.foldl (fun acc a => if acc.contains a then acc else acc ++ [a]) []

/-! ### Bit fields of natural numbers -/

/-- Bits [lo + w - 1 : lo] of v (R12). -/
def fld (v lo w : Nat) : Nat := (v / 2 ^ lo) % 2 ^ w

/-- Bit i of v. -/
def bit (v i : Nat) : Bool := fld v i 1 = 1

/-- A Bool as 0 or 1. -/
def b01 (x : Bool) : Nat := if x then 1 else 0

/-- Fields (offset, value) added into one word. -/
def packF (fs : List (Nat × Nat)) : Nat := fs.foldl (fun acc p => acc + p.2 * 2 ^ p.1) 0

/-- Bit i of a mask of units. -/
def maskBit {w : Nat} (m : BitVec w) (i : Nat) : Bool := m.getLsbD i

/-- A mask with bit i set (or cleared). -/
def maskSet {w : Nat} (m : BitVec w) (i : Nat) (x : Bool) : BitVec w :=
  if x then m ||| ((1 : BitVec w) <<< i) else m &&& ~~~ ((1 : BitVec w) <<< i)

/-- Set bits of a mask, ascending. -/
def maskBits {w : Nat} (m : BitVec w) : List Nat := (List.range w).filter (fun i => maskBit m i)

/-- A signed reading of the low w bits of v. -/
def sgn (v w : Nat) : Int := if 2 * (v % 2 ^ w) < 2 ^ w then ((v % 2 ^ w : Nat) : Int) else ((v % 2 ^ w : Nat) : Int) - ((2 ^ w : Nat) : Int)

/-- Saturating counter of w bits. -/
def sat (w v : Nat) : Nat := if v < 2 ^ w then v else 2 ^ w - 1

/-- Round v up to a multiple of m. -/
def roundUp (v m : Nat) : Nat := ((v + m - 1) / m) * m

/-- Ceiling of a / b. -/
def ceilDiv (a b : Nat) : Nat := (a + b - 1) / b

/-! ### Bytes, little-endian (R12) -/

/-- The n bytes of v, least significant first. -/
def le (n v : Nat) : List Byte :=
  match n with
  | 0 => []
  | k + 1 => BitVec.ofNat 8 v :: le k (v / 256)

/-- The value of a little-endian byte string. -/
def ofLe : List Byte → Nat
  | [] => 0
  | b :: r => b.toNat + 256 * ofLe r

/-- The value of a big-endian byte string. -/
def ofBe (l : List Byte) : Nat := l.foldl (fun acc b => acc * 256 + b.toNat) 0

/-- n bytes at offset o, read little-endian; bytes beyond the end read zero. -/
def rd (l : List Byte) (o n : Nat) : Nat := ofLe (slice l o n)

/-- Pad with zeros to n bytes. -/
def padTo (n : Nat) (l : List Byte) : List Byte := l ++ List.replicate (n - l.length) 0

/-- The bytes of a list are all zero. -/
def allZero (l : List Byte) : Bool := l.all (· = 0)

/-- The w-bit codes packed from bit 0 of the first byte, zero-padded to a whole byte (R200). -/
def packCodes (w : Nat) (codes : List Nat) : List Byte :=
  le (ceilDiv (w * codes.length) 8) (codes.foldr (fun c acc => c % 2 ^ w + 2 ^ w * acc) 0)

/-- A 128-bit flit as 16 bytes. -/
def flitBytes (f : Flit) : List Byte := le 16 f.toNat

/-- A flit from bytes. -/
def bytesFlit (l : List Byte) : Flit := BitVec.ofNat 128 (ofLe (l.take 16))

/-- Cut bytes into flits of 16. -/
def toFlits (n : Nat) (l : List Byte) : List Flit :=
  match n with
  | 0 => []
  | k + 1 => bytesFlit l :: toFlits k (l.drop 16)

/-! ### Byte memory in canonical form: addresses rising, no zero byte listed -/

/-- The byte at an address; an unlisted address reads 0. (DESIGN CHOICE, log 13.) -/
def memRead (m : List Host.Cell) (a : Nat) : Byte :=
  match m with
  | [] => 0
  | (j, x) :: r => if j = a then x else memRead r a

/-- Write one byte, keeping the canonical form. (DESIGN CHOICE, log 13.) -/
def memWrite (m : List Host.Cell) (a : Nat) (x : Byte) : List Host.Cell :=
  match m with
  | [] => if x = 0 then [] else [(a, x)]
  | (j, y) :: r =>
    if a < j then (if x = 0 then (j, y) :: r else (a, x) :: (j, y) :: r)
    else if a = j then (if x = 0 then r else (a, x) :: r)
    else (j, y) :: memWrite r a x

/-- Write bytes from address a upward. -/
def memWrites (m : List Host.Cell) (a : Nat) : List Byte → List Host.Cell
  | [] => m
  | x :: r => memWrites (memWrite m a x) (a + 1) r

/-- Read n bytes from address a upward. -/
def memReads (m : List Host.Cell) (a n : Nat) : List Byte := (List.range n).map (fun i => memRead m (a + i))

/-- The canonical form: every address at least lo, strictly rising, and no listed byte zero. -/
def memWfFrom (lo : Nat) : List Host.Cell → Bool
  | [] => true
  | (j, x) :: r => decide (lo ≤ j) && decide (x ≠ 0) && memWfFrom (j + 1) r

/-- Memory.wf: the canonical form of the letter memory. (DESIGN CHOICE, log 13.) -/
def Memory.wf (m : List Host.Cell) : Bool := memWfFrom 0 m

end Sys2Proof.Machine
end

