-- ==== Sys2Proof/Machine/Crypto.lean ====
section
/-! DEFINITION. The checks the manual computes: CRC-16 of R286, CRC-32C of R200, CRC-64 of R371, SHA-384 of R43,
R121, R227, R371 and R420, HMAC-SHA-384 of R404, and the Dice function of R190. -/

namespace Sys2Proof.Machine

open Sys2Proof

/-! ### Cyclic redundancy checks -/

/-- One bit of an unreflected CRC-16 with polynomial 0x1021. -/
def crc16Bit (c : BitVec 16) : BitVec 16 := if c.msb then (c <<< 1) ^^^ 0x1021 else c <<< 1

/-- One byte of the CRC-16. -/
def crc16Byte (c : BitVec 16) (b : Byte) : BitVec 16 :=
  (List.range 8).foldl (fun c _ => crc16Bit c) (c ^^^ ((b.setWidth 16) <<< 8))

/-- CRC-16, initial value 0xFFFF, no reflection, no final XOR (R286). -/
def crc16 (l : List Byte) : BitVec 16 := l.foldl crc16Byte 0xFFFF

/-- One bit of the reflected CRC-32C: 0x82F6_3B78 is 0x1EDC_6F41 reflected (R200). -/
def crc32Bit (c : BitVec 32) : BitVec 32 := if c.getLsbD 0 then (c >>> 1) ^^^ 0x82F63B78 else c >>> 1

/-- One byte of the CRC-32C. -/
def crc32Byte (c : BitVec 32) (b : Byte) : BitVec 32 :=
  (List.range 8).foldl (fun c _ => crc32Bit c) (c ^^^ b.setWidth 32)

/-- CRC-32C with the parameters of R200. -/
def crc32c (l : List Byte) : BitVec 32 := l.foldl crc32Byte 0xFFFFFFFF ^^^ 0xFFFFFFFF

/-- One bit of the reflected CRC-64: 0xC96C_5795_D787_0F42 is 0x42F0_E1EB_A9EA_3693 reflected (R371). -/
def crc64Bit (c : BitVec 64) : BitVec 64 := if c.getLsbD 0 then (c >>> 1) ^^^ 0xC96C5795D7870F42 else c >>> 1

/-- One byte of the CRC-64. -/
def crc64Byte (c : BitVec 64) (b : Byte) : BitVec 64 :=
  (List.range 8).foldl (fun c _ => crc64Bit c) (c ^^^ b.setWidth 64)

/-- CRC-64 with the parameters of R371. -/
def crc64 (l : List Byte) : BitVec 64 := l.foldl crc64Byte 0xFFFFFFFFFFFFFFFF ^^^ 0xFFFFFFFFFFFFFFFF

/-! ### SHA-384 (FIPS 180-4)

FIPS 180-4 names its constants by what they are, so they are computed here and no table of them is written: the first
64 bits of the fractional parts of cube roots (rounds) and of square roots (initial value) of primes. -/

/-- The largest r below 2^n above the bits already set with r^e at most x, found from the top bit down. -/
def rootBits (e x : Nat) : Nat → Nat → Nat
  | 0, r => r
  | n + 1, r => rootBits e x n (if (r + 2 ^ n) ^ e ≤ x then r + 2 ^ n else r)

/-- The first 64 bits of the fractional part of the e-th root of p, for p below 8^e. -/
def rootFraction (e p : Nat) : BitVec 64 := BitVec.ofNat 64 (rootBits e (p * 2 ^ (64 * e)) 67 0)

/-- The first eighty primes: no number below 410 but these lacks a smaller divisor among the primes to 19. -/
def shaPrimes : List Nat :=
  (List.range 410).filter (fun n => decide (2 ≤ n) && [2, 3, 5, 7, 11, 13, 17, 19].all (fun d => decide (n ≤ d) || decide (n % d ≠ 0)))

/-- One constant for each round. -/
def shaK : List (BitVec 64) := shaPrimes.map (rootFraction 3)

/-- The initial hash value of SHA-384, of the ninth to the sixteenth prime. -/
def sha384Init : List (BitVec 64) := ((shaPrimes.drop 8).take 8).map (rootFraction 2)

/-- Exclusive or of the rotations of x by each amount. -/
def rotations (l : List Nat) (x : BitVec 64) : BitVec 64 := l.foldl (fun y n => y ^^^ x.rotateRight n) 0

/-- The message schedule: n further words in front of the words so far, newest first. -/
def shaSchedule : Nat → List (BitVec 64) → List (BitVec 64)
  | 0, w => w
  | n + 1, w =>
    let back (i : Nat) := w.getD (i - 1) 0
    let low := rotations [1, 8] (back 15) ^^^ back 15 >>> 7
    let high := rotations [19, 61] (back 2) ^^^ back 2 >>> 6
    shaSchedule n ((back 16 + low + back 7 + high) :: w)

/-- One round on the eight working variables, held in order in a list: the other six move down one place. -/
def shaRound (v : List (BitVec 64)) (kw : BitVec 64) : List (BitVec 64) :=
  let x (i : Nat) := v.getD i 0
  let choice := x 6 ^^^ (x 4 &&& (x 5 ^^^ x 6))
  let majority := (x 0 &&& (x 1 ||| x 2)) ||| (x 1 &&& x 2)
  let t := x 7 + rotations [14, 18, 41] (x 4) + choice + kw
  (t + rotations [28, 34, 39] (x 0) + majority) :: lset (v.take 7) 3 (x 3 + t)

/-- One 128-byte block. -/
def shaBlock (hv : List (BitVec 64)) (blk : List Byte) : List (BitVec 64) :=
  let first := (List.range 16).map (fun i => BitVec.ofNat 64 (ofBe (slice blk (8 * i) 8)))
  let words := (shaSchedule 64 first.reverse).reverse
  List.zipWith (· + ·) hv ((List.zipWith (· + ·) shaK words).foldl shaRound hv)

/-- The padded message: 0x80, zeros, and the 128-bit big-endian bit length. -/
def shaPad (l : List Byte) : List Byte :=
  let n := l.length
  let z := (128 - (n + 17) % 128) % 128
  l ++ [0x80] ++ List.replicate z 0 ++ (le 16 (8 * n)).reverse

/-- The blocks of a padded message, at most n of them. -/
def shaBlocks (n : Nat) (hv : List (BitVec 64)) (l : List Byte) : List (BitVec 64) :=
  match n with
  | 0 => hv
  | k + 1 => if l.isEmpty then hv else shaBlocks k (shaBlock hv (l.take 128)) (l.drop 128)

/-- SHA-384 of a byte string, as its 48 bytes in order. -/
def sha384 (l : List Byte) : List Byte :=
  let p := shaPad l
  let hv := shaBlocks (p.length / 128) sha384Init p
  (hv.take 6).flatMap (fun x => (le 8 x.toNat).reverse)

/-- SHA-384 as a 384-bit value, byte 0 at [7:0] (R12, R448). -/
def sha384v (l : List Byte) : BitVec 384 := BitVec.ofNat 384 (ofLe (sha384 l))

/-- HMAC-SHA-384 under FIPS 198-1 with a 48-byte key (R404). -/
def hmac384 (key msg : List Byte) : List Byte :=
  let k := padTo 128 key
  sha384 (k.map (· ^^^ 0x5C) ++ sha384 (k.map (· ^^^ 0x36) ++ msg))

/-- The tag of R404: bytes 0 to 15 of the HMAC. -/
def tagOf (key : BitVec 384) (msg : List Byte) : BitVec 128 :=
  BitVec.ofNat 128 (ofLe ((hmac384 (le 48 key.toNat) msg).take 16))

/-! ### The Dice (R190, R191) -/

/-- mix of R190. -/
def mix (x : BitVec 64) : BitVec 64 :=
  let x := x ^^^ (x >>> 33)
  let x := x * 0xD6E8FEB86659FD93
  let x := x ^^^ (x >>> 29)
  let x := x * 0xA0F295C13B6E4D27
  x ^^^ (x >>> 32)

/-- dice of R190: the selector u and the auxiliary value. -/
def dice (seed : BitVec 64) (domain step role tid : Nat) : Nat × Nat :=
  let k := mix (seed ^^^ BitVec.ofNat 64 (domain % 256 * 2 ^ 56))
  let h := mix (k ^^^ BitVec.ofNat 64 step)
  let h := mix (h ^^^ BitVec.ofNat 64 (role * 2 ^ 32) ^^^ BitVec.ofNat 64 tid)
  (h.toNat / 2 ^ 32, h.toNat % 2 ^ 32)

end Sys2Proof.Machine
end

