-- ==== Sys2Proof/Machine/Operands.lean ====
section
/-! DEFINITION. Operand forms: residues modulo 8191, format descriptors, elements and scales, the Intake Stamp and
the plausibility byte (05_residue_screening). -/

namespace Sys2Proof.Machine

open Sys2Proof

/-- The Mersenne prime 2^13 - 1 (R160). -/
def M13 : Nat := 8191

/-- 13-bit left rotation by t, then reduced into 0 to 8,190 (R161, R162). -/
def rot13 (q t : Nat) : Nat :=
  let t := t % 13
  (((q * 2 ^ t) % 8192) + q / 2 ^ (13 - t)) % M13

/-- E mod 13 in the range 0 to 12 (R161). -/
def emod13 (e : Int) : Nat := (e % 13).toNat

/-- The negative of a residue. -/
def negRes (r : Nat) : Nat := (M13 - r % M13) % M13

/-- Residue of (-1)^s * q * 2^e (R161). -/
def resOf (s : Bool) (q : Nat) (e : Int) : Nat :=
  let r := rot13 q (emod13 e)
  if s then negRes r else r

/-- The 13-bit chunks of a word of width b added from bit 0 upward (R163). -/
def chunkSum (b v : Nat) : Nat :=
  (List.range (ceilDiv b 13)).foldl (fun acc i => acc + fld v (13 * i) 13) 0

/-- Residue of a two's-complement word of width b (R163). -/
def foldWord (b v : Nat) : Nat :=
  let u := v % 2 ^ b
  let neg := if bit u (b - 1) then 2 ^ b % M13 else 0
  (chunkSum b u + (M13 - neg)) % M13

/-! ### Format descriptors (R164) -/

/-- elem_type, scale_type, block16, tally_class, flush_in, flush_scale of a descriptor. -/
def fElem (d : BitVec 64) : Nat := fld d.toNat 0 4
def fScale (d : BitVec 64) : Nat := fld d.toNat 4 2
def fBlock16 (d : BitVec 64) : Bool := bit d.toNat 6
def fClassB (d : BitVec 64) : Bool := bit d.toNat 7
def fFlushIn (d : BitVec 64) : Bool := bit d.toNat 8
def fFlushScale (d : BitVec 64) : Bool := bit d.toNat 9
def fNan (d : BitVec 64) : Nat := fld d.toNat 10 2
def fSum (d : BitVec 64) : Nat := fld d.toNat 12 2
def fEmin (d : BitVec 64) : Int := sgn (fld d.toNat 16 8) 8
def fEmax (d : BitVec 64) : Int := sgn (fld d.toNat 24 8) 8

/-- Element width of a type on the weight and activation taps; 8 for a type that is not allowed there (R50, R165). -/
def elemWidth (t : Nat) : Nat :=
  match t with
  | 0 => 4 | 1 => 6 | 2 => 6 | 3 => 8 | 4 => 8 | 5 => 8 | 6 => 4 | 7 => 2 | 8 => 2 | 9 => 1 | _ => 8

/-- The type is allowed on the weight and activation taps (R165). -/
def inputType (t : Nat) : Bool := t ≤ 9

/-- The type is allowed on the output (R165). -/
def outputType (t : Nat) : Bool := t = 3 || t = 4 || t = 5 || t = 10 || t = 11 || t = 12

/-- Output element width; 16 for a type not allowed there (R57). -/
def outWidth (t : Nat) : Nat := if t = 3 || t = 4 || t = 5 then 8 else 16

/-- An entry R166 accepts: no reserved code, reserved bits zero, scale_emin not above scale_emax. -/
def fmtOk (d : BitVec 64) : Bool :=
  fElem d ≤ 12 && fScale d ≠ 3 && fNan d ≠ 3 && fSum d ≠ 3 && fEmin d ≤ fEmax d

/-- What an element or a scale decodes to (R167, R168). -/
inductive Dec where
  /-- (-1)^s * q * 2^e. -/
  | num (s : Bool) (q : Nat) (e : Int)
  /-- NaN or Inf. -/
  | special
  /-- Invalid code. -/
  | invalid
  deriving DecidableEq, Repr

/-- A floating element: width of exponent and mantissa fields, exponent bias of the subnormals. -/
def decFloat (ew mw : Nat) (e0 : Int) (c : Nat) : Dec :=
  let m := fld c 0 mw
  let e := fld c mw ew
  let s := bit c (mw + ew)
  if e = 0 then .num s m e0 else .num s (2 ^ mw + m) (e0 + (e : Int) - 1)

/-- A two's-complement element. -/
def decInt (w c : Nat) : Dec := let v := sgn c w; .num (decide (v < 0)) v.natAbs 0

/-- The decoding table of R167. -/
def decElem (t c : Nat) : Dec :=
  match t with
  | 0 => decFloat 2 1 (-1) c
  | 1 => decFloat 2 3 (-3) c
  | 2 => decFloat 3 2 (-4) c
  | 3 => if fld c 3 4 = 15 ∧ fld c 0 3 = 7 then .special else decFloat 4 3 (-9) c
  | 4 => if fld c 2 5 = 31 then .special else decFloat 5 2 (-16) c
  | 5 => decInt 8 c
  | 6 => decInt 4 c
  | 7 => decInt 2 c
  | 8 => match fld c 0 2 with
    | 0 => .num false 0 0
    | 1 => .num false 1 0
    | 3 => .num true 1 0
    | _ => .invalid
  | 9 => .num (bit c 0) 1 0
  | _ => .invalid

/-- The element is subnormal: floating, exponent field 0, mantissa not 0 (R167). -/
def isSub (t c : Nat) : Bool :=
  match t with
  | 0 => fld c 1 2 = 0 && fld c 0 1 ≠ 0
  | 1 => fld c 3 2 = 0 && fld c 0 3 ≠ 0
  | 2 => fld c 2 3 = 0 && fld c 0 2 ≠ 0
  | 3 => fld c 3 4 = 0 && fld c 0 3 ≠ 0
  | 4 => fld c 2 5 = 0 && fld c 0 2 ≠ 0
  | _ => false

/-- A scale: scale_type and raw code (R168). No scale is the value 1. -/
def decScale (st c : Nat) : Dec :=
  match st with
  | 1 => if c = 255 then .special else .num false 1 ((c : Int) - 127)
  | 2 => decElem 3 c
  | _ => .num false 1 0

/-- The scale's exponent for the scale-range canary; none for a zero or flushed scale, and for no scale (R169). -/
def scaleExp (st : Nat) (flushScale : Bool) (c : Nat) : Option Int :=
  match st with
  | 1 => if c = 255 then none else some ((c : Int) - 127)
  | 2 =>
    if fld c 3 4 = 15 ∧ fld c 0 3 = 7 then none
    else if fld c 3 4 ≠ 0 then some ((fld c 3 4 : Int) - 7)
    else if fld c 0 3 = 0 ∨ flushScale then none else some (-6)
  | _ => none

/-- The raw scale code that applies to lane j (R51). -/
def laneScale (d : BitVec 64) (scale j : Nat) : Nat :=
  if fScale d = 0 then 0 else if fBlock16 d ∧ 16 ≤ j then fld scale 8 8 else fld scale 0 8

/-- What one lane converts to: its residue, or none for a special or invalid value; the flags say special, invalid. -/
structure LaneOut where
  res : Option Nat := none
  special : Bool := false
  invalid : Bool := false
  deriving DecidableEq, Repr

/-- Convert element code c with scale code sc under a descriptor (R167, R168, R170). -/
def convLane (d : BitVec 64) (c sc : Nat) : LaneOut :=
  if ¬ inputType (fElem d) then { invalid := true }
  else
    match decElem (fElem d) c, decScale (fScale d) sc with
    | .invalid, .special => { special := true, invalid := true }
    | .invalid, _ => { invalid := true }
    | .special, _ => { special := true }
    | _, .special => { special := true }
    | _, .invalid => { invalid := true }
    | .num s q e, .num s2 q2 e2 =>
      if fFlushIn d ∧ isSub (fElem d) c then { res := some 0 }
      else if fFlushScale d ∧ fScale d = 2 ∧ isSub 3 sc then { res := some 0 }
      else { res := some (resOf s q e * resOf s2 q2 e2 % M13) }

/-- psi of R178: the residue, or (c_e + 256 * c_s) mod 8191 for a special or invalid value. -/
def psi (d : BitVec 64) (c sc : Nat) : Nat :=
  match (convLane d c sc).res with
  | some r => r
  | none => (c + 256 * sc) % M13

/-- The element codes of a beat's lanes that lie below K, with the lane number (R50). -/
def beatLanes (d : BitVec 64) (k kseg data : Nat) : List (Nat × Nat) :=
  let w := elemWidth (fElem d)
  ((List.range 32).filter (fun j => 32 * kseg + j < k)).map (fun j => (j, fld data (w * j) w))

/-- The scale codes that apply in a beat with valid lanes (R51, R169). -/
def beatScales (d : BitVec 64) (k kseg scale : Nat) : List Nat :=
  if fScale d = 0 then []
  else if fBlock16 d then
    (if 32 * kseg < k then [fld scale 0 8] else []) ++ (if 32 * kseg + 16 < k then [fld scale 8 8] else [])
  else if 32 * kseg < k then [fld scale 0 8] else []

/-- Some scale of the beat lies outside [scale_emin, scale_emax] (R169, R182). -/
def beatRange (d : BitVec 64) (k kseg scale : Nat) : Bool :=
  (beatScales d k kseg scale).any (fun c =>
    match scaleExp (fScale d) (fFlushScale d) c with
    | none => false
    | some e => e < fEmin d || fEmax d < e)

/-- The identity check of R179. -/
def stampId (tid k n fmt : Nat) : Nat :=
  (fld tid 0 16 + fld tid 16 16 + 256 * (k - 1) + (n - 1) + 4096 * fmt) % 65536

/-- The positional contribution of one beat to P (R178). -/
def beatP (d : BitVec 64) (k kseg col data scale : Nat) : Nat :=
  (beatLanes d k kseg data).foldl (fun acc p =>
    (acc + rot13 (psi d p.2 (laneScale d scale p.1)) ((32 * kseg + p.1 + 5 * col) % 13)) % M13) 0

/-- The Intake Stamp (R178). -/
def stampOf (psum beats tid k n fmt : Nat) : Nat :=
  packF [(0, psum % M13), (13, beats % 8), (16, stampId tid k n fmt)]

/-- The number of beats of a weight tile (R52). -/
def tileBeats (k n : Nat) : Nat := n * ceilDiv k 32

/-! ### Outputs and the plausibility byte (R182) -/

/-- floor(log2 |y|) of an output code, none for zero, NaN or Inf; the flag says NaN or Inf. -/
def outMag (t c : Nat) : Option Int × Bool :=
  let lg (q : Nat) (e : Int) : Option Int := if q = 0 then none else some ((Nat.log2 q : Int) + e)
  match t with
  | 10 =>
    if fld c 10 5 = 31 then (none, true)
    else if fld c 10 5 = 0 then (lg (fld c 0 10) (-24), false) else (lg (1024 + fld c 0 10) ((fld c 10 5 : Int) - 25), false)
  | 11 =>
    if fld c 7 8 = 255 then (none, true)
    else if fld c 7 8 = 0 then (lg (fld c 0 7) (-133), false) else (lg (128 + fld c 0 7) ((fld c 7 8 : Int) - 134), false)
  | 12 => (lg (sgn c 16).natAbs 0, false)
  | t =>
    match decElem t c with
    | .num _ q e => (lg q e, false)
    | .special => (none, true)
    | .invalid => (none, false)

/-- mag_bucket of one output: min(15, max(0, floor(log2 |y|) + 8)) (R182). -/
def magBucket (l : Int) : Nat := min 15 (l + 8).toNat

/-- Accumulator lanes of a drain cycle as (value, width) (R58, R163, R175). -/
def accLanes (b : AccBeat) : List (Nat × Nat) :=
  if b.wide then
    ((List.range 16).filter (fun i => maskBit b.vld (2 * i))).map (fun i => (fld b.data.toNat (96 * i) 96, 96))
  else
    ((List.range 32).filter (fun i => maskBit b.vld i)).map (fun i => (fld b.data.toNat (48 * i) 48, 48))

/-- A lane pair of a wide cycle carries two different valid bits: R58 is broken. (DESIGN CHOICE, log 53.) -/
def accSplit (b : AccBeat) : Bool :=
  b.wide && (List.range 16).any (fun i => maskBit b.vld (2 * i) != maskBit b.vld (2 * i + 1))

/-- Residue of the valid lanes of a drain cycle (R175). -/
def accFold (b : AccBeat) : Nat := (accLanes b).foldl (fun acc p => (acc + foldWord p.2 p.1) % M13) 0

/-- Residue of the valid 64-bit lanes of an egress beat, rotated by the exponent (R181). -/
def egressFold (lv : BitVec 8) (data : BitVec 512) (exp : BitVec 8) : Nat :=
  let s := ((List.range 8).filter (fun i => maskBit lv i)).foldl
    (fun acc i => (acc + foldWord 64 (fld data.toNat (64 * i) 64)) % M13) 0
  rot13 s (emod13 (sgn exp.toNat 8))

end Sys2Proof.Machine
end

