-- ==== Sys2Proof/Machine/Events.lean ====
section
/-! DEFINITION. The event codes of R460, in the order of its table. -/

namespace Sys2Proof.Machine

/-! ### Ring 56 -/

/-- STEP_DECISION (R460). -/
def evStepDecision : Nat := 0x8001
/-- BOARD_MAP_READY (R460). -/
def evBoardMapReady : Nat := 0x8002
/-- JOB_ENDED (R460). -/
def evJobEnded : Nat := 0x8003
/-- OUT_SPECIAL (R460). -/
def evOutSpecial : Nat := 0x8004
/-- SATURATION (R460). -/
def evSaturation : Nat := 0x8005
/-- SCALE_RANGE (R460). -/
def evScaleRange : Nat := 0x8006
/-- FLUSH (R460). -/
def evFlush : Nat := 0x8007
/-- MAGNITUDE (R460). -/
def evMagnitude : Nat := 0x8008
/-- REPLAY_EXHAUSTED (R460). -/
def evReplayExhausted : Nat := 0x8009
/-- NO_SPARE (R460). -/
def evNoSpare : Nat := 0x800A
/-- SPARE_FAILED (R460). -/
def evSpareFailed : Nat := 0x800B
/-- SOURCE_LOST (R460). -/
def evSourceLost : Nat := 0x800C
/-- DECLARATION_SUSPECT (R460). -/
def evDeclarationSuspect : Nat := 0x800D
/-- OPERANDS_SUSPECT (R460). -/
def evOperandsSuspect : Nat := 0x800E
/-- CHECKER_TRANSIENT (R460). -/
def evCheckerTransient : Nat := 0x800F
/-- LOADED_DIE_MISSED (R460). -/
def evLoadedDieMissed : Nat := 0x8010
/-- FLUSH_UNDECLARED (R460). -/
def evFlushUndeclared : Nat := 0x8011
/-- DICE_SHORT (R460). -/
def evDiceShort : Nat := 0x8012
/-- DICE_DROP (R460). -/
def evDiceDrop : Nat := 0x8013
/-- DICE_LATE (R460). -/
def evDiceLate : Nat := 0x8014
/-- SHADOW_MISSING (R460). -/
def evShadowMissing : Nat := 0x8015
/-- STAMP_ALSO (R460). -/
def evStampAlso : Nat := 0x8016
/-- UNSCREENED_LIMIT (R460). -/
def evUnscreenedLimit : Nat := 0x8017

/-! ### Ring 57 -/

/-- TEST_RESULT (R460). -/
def evTestResult : Nat := 0x8101
/-- TEST_WINDOW (R460). -/
def evTestWindow : Nat := 0x8102
/-- TEST_QUEUE_FULL (R460). -/
def evTestQueueFull : Nat := 0x8103
/-- BANK_WAIT (R460). -/
def evBankWait : Nat := 0x8104
/-- STANDBY_FAIL (R460). -/
def evStandbyFail : Nat := 0x8105
/-- OFFICE_TEST_FAIL (R460). -/
def evOfficeTestFail : Nat := 0x8106

/-! ### Ring 58 -/

/-- PORT_ORDER (R460). -/
def evPortOrder : Nat := 0x8201
/-- PORT_TAG (R460). -/
def evPortTag : Nat := 0x8202
/-- PORT_LAG (R460). -/
def evPortLag : Nat := 0x8203
/-- FENCE_TIMEOUT (R460). -/
def evFenceTimeout : Nat := 0x8204
/-- TEST_TIMEOUT (R460). -/
def evTestTimeout : Nat := 0x8205
/-- CAPTURE_TIMEOUT (R460). -/
def evCaptureTimeout : Nat := 0x8206
/-- INTAKE_ORDER (R460). -/
def evIntakeOrder : Nat := 0x8207
/-- EGRESS_LAG (R460). -/
def evEgressLag : Nat := 0x8208
/-- FRANK_STUCK (R460). -/
def evFrankStuck : Nat := 0x8209
/-- CR_PARITY (R460). -/
def evCrParity : Nat := 0x820A
/-- CR_OVERRUN (R460). -/
def evCrOverrun : Nat := 0x820B
/-- SPURIOUS_DONE (R460). -/
def evSpuriousDone : Nat := 0x820C
/-- INPUT_SPECIAL (R460). -/
def evInputSpecial : Nat := 0x820D
/-- ENCODING (R460). -/
def evEncoding : Nat := 0x820E
/-- FORMAT_MISUSE (R460). -/
def evFormatMisuse : Nat := 0x820F
/-- ALIGN_FAIL (R460). -/
def evAlignFail : Nat := 0x8210
/-- CLOCK_UNDECLARED (R460). -/
def evClockUndeclared : Nat := 0x8211
/-- TIMETABLE_SLIP (R460). -/
def evTimetableSlip : Nat := 0x8212
/-- STALL (R460). -/
def evStall : Nat := 0x8213
/-- INGRESS_STALL (R460). -/
def evIngressStall : Nat := 0x8214
/-- EGRESS_STALL (R460). -/
def evEgressStall : Nat := 0x8215
/-- IO_STALL (R460). -/
def evIoStall : Nat := 0x8216
/-- WAFER_HANG (R460). -/
def evWaferHang : Nat := 0x8217
/-- LOOKUP_MISMATCH (R460). -/
def evLookupMismatch : Nat := 0x8218
/-- HDR_CRC (R460). -/
def evHdrCrc : Nat := 0x8219
/-- E2E_PARITY (R460). -/
def evE2eParity : Nat := 0x821A
/-- E2E_CRC (R460). -/
def evE2eCrc : Nat := 0x821B
/-- AGED (R460). -/
def evAged : Nat := 0x821C
/-- UNROUTABLE (R460). -/
def evUnroutable : Nat := 0x821D
/-- MISROUTE (R460). -/
def evMisroute : Nat := 0x821E
/-- RETURN_LOST (R460). -/
def evReturnLost : Nat := 0x821F
/-- TX_DROP (R460). -/
def evTxDrop : Nat := 0x8220
/-- TX_OVERFLOW (R460). -/
def evTxOverflow : Nat := 0x8221
/-- ADDRESSEE_MOVED (R460). -/
def evAddresseeMoved : Nat := 0x8222
/-- STAGE_INCOMPLETE (R460). -/
def evStageIncomplete : Nat := 0x8223
/-- STAGE_PARTIAL (R460). -/
def evStagePartial : Nat := 0x8224
/-- RING_OVERRUN (R460). -/
def evRingOverrun : Nat := 0x8225
/-- EVENT_LOST (R460). -/
def evEventLost : Nat := 0x8226
/-- NO_EXIT (R460). -/
def evNoExit : Nat := 0x8227
/-- EGRESS_ORDER (R460). -/
def evEgressOrder : Nat := 0x8228

/-! ### Ring 59 -/

/-- FLEET_CRC (R460). -/
def evFleetCrc : Nat := 0x8301
/-- MISDELIVERED (R460). -/
def evMisdelivered : Nat := 0x8302
/-- TRANSIT_LOST (R460). -/
def evTransitLost : Nat := 0x8303
/-- REPLY_STRAY (R460). -/
def evReplyStray : Nat := 0x8304
/-- COLL_TIMEOUT (R460). -/
def evCollTimeout : Nat := 0x8305
/-- LINK_DOWN_DROP (R460). -/
def evLinkDownDrop : Nat := 0x8306
/-- PARTNER_LIVE (R460). -/
def evPartnerLive : Nat := 0x8307
/-- PARTNER_STALE (R460). -/
def evPartnerStale : Nat := 0x8308
/-- PARTNER_REFUSED (R460). -/
def evPartnerRefused : Nat := 0x8309
/-- HOLDER_EXPOSED (R460). -/
def evHolderExposed : Nat := 0x830A
/-- HOLDER_CORRELATED (R460). -/
def evHolderCorrelated : Nat := 0x830B
/-- DEAD_LETTER (R460). -/
def evDeadLetter : Nat := 0x830C

/-! ### Ring 60 -/

/-- PARCEL_DOUBLE (R460). -/
def evParcelDouble : Nat := 0x8401
/-- PARCEL_SINGLE (R460). -/
def evParcelSingle : Nat := 0x8402
/-- PARCEL_FAILED (R460). -/
def evParcelFailed : Nat := 0x8403
/-- PARCEL_SKIPPED (R460). -/
def evParcelSkipped : Nat := 0x8404
/-- PARCEL_NOT_FRANKED (R460). -/
def evParcelNotFranked : Nat := 0x8405
/-- PARCEL_FILL_BUSY (R460). -/
def evParcelFillBusy : Nat := 0x8406
/-- PARCEL_NO_HOLDER (R460). -/
def evParcelNoHolder : Nat := 0x8407
/-- PARCEL_TOO_SLOW (R460). -/
def evParcelTooSlow : Nat := 0x8408
/-- PARCEL_COMMIT_BUSY (R460). -/
def evParcelCommitBusy : Nat := 0x8409
/-- PARCEL_VOTE_LATE (R460). -/
def evParcelVoteLate : Nat := 0x840A
/-- PARCEL_OVERRUN (R460). -/
def evParcelOverrun : Nat := 0x840B
/-- PARCEL_COPY_BAD (R460). -/
def evParcelCopyBad : Nat := 0x840C
/-- LEDGER_ROOT_MISMATCH (R460). -/
def evLedgerRootMismatch : Nat := 0x840D

/-! ### Ring 61 -/

/-- KEY_LOADED (R460). -/
def evKeyLoaded : Nat := 0x8501
/-- KEY_REJECTED (R460). -/
def evKeyRejected : Nat := 0x8502
/-- ZEROIZED (R460). -/
def evZeroized : Nat := 0x8503
/-- NETWORK_OPENED (R460). -/
def evNetworkOpened : Nat := 0x8504

/-! ### Ring 62 -/

/-- SVC_STATE_CHANGE (R460). -/
def evSvcStateChange : Nat := 0x8601
/-- SYNC_SLIP (R460). -/
def evSyncSlip : Nat := 0x8602
/-- SYNC_MISSING (R460). -/
def evSyncMissing : Nat := 0x8603
/-- SYNC_WIDTH (R460). -/
def evSyncWidth : Nat := 0x8604
/-- PM_DRIFT (R460). -/
def evPmDrift : Nat := 0x8605
/-- BRINGUP_SLOW (R460). -/
def evBringupSlow : Nat := 0x8606
/-- HOST_WARM_TIMEOUT (R460). -/
def evHostWarmTimeout : Nat := 0x8607
/-- HOST_COLD_TIMEOUT (R460). -/
def evHostColdTimeout : Nat := 0x8608
/-- POWER_ID_CHANGE (R460). -/
def evPowerIdChange : Nat := 0x8609
/-- SHUTDOWN_REQ (R460). -/
def evShutdownReq : Nat := 0x860A

/-! ### Ring 63 -/

/-- STOP_TAKEN (R460). -/
def evStopTaken : Nat := 0x8701
/-- STOP_RELEASED (R460). -/
def evStopReleased : Nat := 0x8702
/-- RESUMED (R460). -/
def evResumed : Nat := 0x8703
/-- RESUME_LATE (R460). -/
def evResumeLate : Nat := 0x8704
/-- TRACE_TRIGGER (R460). -/
def evTraceTrigger : Nat := 0x8705
/-- TRACE_FULL (R460). -/
def evTraceFull : Nat := 0x8706
/-- EXPORT_DONE (R460). -/
def evExportDone : Nat := 0x8707

end Sys2Proof.Machine
end

