-- ==== Sys2Proof/Machine/Ops.lean ====
section
/-! DEFINITION. The named operations over the block's state: rows of units, time, events, interrupts, errors, the
alarm, core states and the Board Map. -/

namespace Sys2Proof.Machine

open Sys2Proof

/-! ### Rows of units -/

def Block.core (b : Block) (i : Nat) : Core := (tget b.units.cores i).getD {}
def Block.office (b : Block) (r : Nat) : Office := (tget b.units.offices r).getD {}
def Block.router (b : Block) (k : Nat) : Router := (tget b.units.routers k).getD {}
def Block.node (b : Block) (r : Nat) : Router := (tget b.units.nodes r).getD {}
def Block.courier (b : Block) (n : Nat) : Courier := (tget b.units.couriers n).getD {}

def Block.setCore (b : Block) (i : Nat) (c : Core) : Block := { b with units := { b.units with cores := tset b.units.cores i c } }
def Block.setOffice (b : Block) (r : Nat) (o : Office) : Block := { b with units := { b.units with offices := tset b.units.offices r o } }
def Block.setRouter (b : Block) (k : Nat) (x : Router) : Block := { b with units := { b.units with routers := tset b.units.routers k x } }
def Block.setNode (b : Block) (r : Nat) (x : Router) : Block := { b with units := { b.units with nodes := tset b.units.nodes r x } }
def Block.setCourier (b : Block) (n : Nat) (c : Courier) : Block := { b with units := { b.units with couriers := tset b.units.couriers n c } }

def Block.modCore (b : Block) (i : Nat) (f : Core → Core) : Block := b.setCore i (f (b.core i))
def Block.modOffice (b : Block) (r : Nat) (f : Office → Office) : Block := b.setOffice r (f (b.office r))
def Block.modRouter (b : Block) (k : Nat) (f : Router → Router) : Block := b.setRouter k (f (b.router k))
def Block.modNode (b : Block) (r : Nat) (f : Router → Router) : Block := b.setNode r (f (b.node r))
def Block.modCourier (b : Block) (n : Nat) (f : Courier → Courier) : Block := b.setCourier n (f (b.courier n))

/-- Update every unit of a table that the state holds a row for. -/
def Block.allCores (b : Block) (f : Core → Core) : Block := { b with units := { b.units with cores := tmap (fun _ c => f c) b.units.cores } }
def Block.allOffices (b : Block) (f : Office → Office) : Block := { b with units := { b.units with offices := tmap (fun _ o => f o) b.units.offices } }
def Block.allRouters (b : Block) (f : Router → Router) : Block := { b with units := { b.units with routers := tmap (fun _ x => f x) b.units.routers } }
def Block.allNodes (b : Block) (f : Router → Router) : Block := { b with units := { b.units with nodes := tmap (fun _ x => f x) b.units.nodes } }
def Block.allCouriers (b : Block) (f : Courier → Courier) : Block := { b with units := { b.units with couriers := tmap (fun _ c => f c) b.units.couriers } }

/-- Update every router and every node of the Post Network. -/
def Block.allHops (b : Block) (f : Router → Router) : Block := (b.allRouters f).allNodes f

/-- Fold an update over a list of units. -/
def forEach {α : Type} (l : List α) (f : α → Block → Block) (b : Block) : Block := l.foldl (fun b a => f a b) b

def Block.modJob (b : Block) (f : Job → Job) : Block := { b with ho := { b.ho with job := f b.ho.job } }
def Block.modMgmt (b : Block) (f : Mgmt → Mgmt) : Block := { b with ho := { b.ho with mgmt := f b.ho.mgmt } }
def Block.modMail (b : Block) (f : Mail → Mail) : Block := { b with ho := { b.ho with mail := f b.ho.mail } }
def Block.modFleet (b : Block) (f : Fleet → Fleet) : Block := { b with ho := { b.ho with fleet := f b.ho.fleet } }
def Block.modParcel (b : Block) (f : Parcel → Parcel) : Block := { b with ho := { b.ho with parcel := f b.ho.parcel } }
def Block.modPost (b : Block) (f : PostCtl → PostCtl) : Block := { b with ho := { b.ho with post := f b.ho.post } }
def Block.modBm (b : Block) (f : BoardMap → BoardMap) : Block := { b with ho := { b.ho with bm := f b.ho.bm } }
def Block.modPolicy (b : Block) (f : Policy → Policy) : Block := { b with ho := { b.ho with policy := f b.ho.policy } }
def Block.modImage (b : Block) (f : ImageLoad → ImageLoad) : Block := { b with ho := { b.ho with image := f b.ho.image } }
def Block.modResets (b : Block) (f : ResetLog → ResetLog) : Block := { b with ho := { b.ho with resets := f b.ho.resets } }
def Block.modSvc (b : Block) (f : Svc → Svc) : Block := { b with svc := f b.svc }
def Block.modPm (b : Block) (f : Postmark → Postmark) : Block := { b with pm := f b.pm }
def Block.modStop (b : Block) (f : Stop → Stop) : Block := { b with stop := f b.stop }
def Block.modOuts (b : Block) (f : Outs → Outs) : Block := { b with outs := f b.outs }
def Block.modEnv (b : Block) (f : Env → Env) : Block := { b with env := f b.env }
def Block.modKeys (b : Block) (f : Keys → Keys) : Block := { b with keys := f b.keys }
def Block.modLedger (b : Block) (f : LedgerData → LedgerData) : Block := { b with ledger := f b.ledger }
def Block.modDebug (b : Block) (f : Debug → Debug) : Block := { b with dbg := f b.dbg }

/-- The ring r. -/
def Block.ring (b : Block) (r : Nat) : Ring := (tget b.ho.mail.rings r).getD {}
def Block.modRing (b : Block) (r : Nat) (f : Ring → Ring) : Block :=
  b.modMail (fun m => { m with rings := tset m.rings r (f (b.ring r)) })

/-- The Head Office domain lost power between two states: step 4 of a cold reset was reached (R359). -/
def hoLost (old new : Block) : Bool :=
  new.svc.coldOff && (!old.svc.coldOff || decide (new.pm.coldCount ≠ old.pm.coldCount))

/-- What no command changes but the two of rs_por_n: that input and the inputs sampled at its deassertion (R88, R121,
R123, R130). The letter windows are changed by management writes alone (R432) and lost with the Head Office domain (R359). (DESIGN CHOICE, log 4.) -/
def held (old new : Block) : Block :=
  { new with
    env := { new.env with porN := old.env.porN, lc := old.env.lc, lcInv := old.env.lcInv, arPresent := old.env.arPresent, mfgId := old.env.mfgId }
    letters := if hoLost old new then [] else old.letters }

/-- Carry out a command's effect on the block. While rs_por_n is 0 the block holds its reset values and takes no
command but the release of the reset (R88). (DESIGN CHOICE, log 1 and 4.) -/
def act (f : Block → Block) (s : State) : Host.Outcome State Fault Refusal :=
  .next { blk := if s.blk.env.porN then held s.blk (f s.blk) else s.blk, pending := s.pending }

/-! ### Time -/

/-- The Postmark count (R133). -/
def Block.now (b : Block) : Nat := b.pm.count.toNat

/-- Let time pass until count n: a command of a later count moves the count there; a count already past stays (R133, R134). (DESIGN CHOICE, log 2 and 112.) -/
def advTo (n : Nat) (b : Block) : Block :=
  if b.pm.powered ∧ b.now < n ∧ n < 2 ^ 64 then
    b.modPm (fun p => { p with count := BitVec.ofNat 64 n, since := p.since.map (· + (n - b.now) / 10) })
  else b

/-- Draw a free bit. (DESIGN CHOICE, log 16 and 17.) -/
def freshBit (b : Block) : Bool × Block := (Config.freeBit b.free, { b with free := b.free + 1 })
/-- Draw a free word. (DESIGN CHOICE, log 16 and 17.) -/
def freshWord (b : Block) : BitVec 64 × Block := (Config.freeWord b.free, { b with free := b.free + 1 })

/-! ### Configuration and positions -/

/-- Region, router and port of a core position (R36). -/
def regionOf (i : Nat) : Nat := i / 8192 % 128
def clusterOf (i : Nat) : Nat := i / 64 % 128
def portOf (i : Nat) : Nat := i % 64
/-- Region-local index: router x 64 + port (R237). -/
def localOf (i : Nat) : Nat := i % 8192

/-- The core position holds a host core of a populated region (R5, R6). -/
def Block.present (b : Block) (i : Nat) : Bool :=
  match b.cfg with
  | none => false
  | some c => decide (i < 2 ^ 20) && maskBit c.regions (regionOf i) && c.present.any (fun p => decide (p.1 ≤ i) && decide (i ≤ p.2))

def Block.populated (b : Block) (r : Nat) : Bool := match b.cfg with | none => false | some c => maskBit c.regions r
def Block.popRegions (b : Block) : List Nat := (List.range 128).filter (fun r => b.populated r)
/-- Present cores of a region, ascending. -/
def Block.regionCores (b : Block) (r : Nat) : List Nat := (rangeFrom (8192 * r) 8192).filter (fun i => b.present i)
def Block.presentCores (b : Block) : List Nat := b.popRegions.flatMap (fun r => b.regionCores r)
/-- Region record: ratios and test concurrency (R476). -/
def Block.rcfg (b : Block) (r : Nat) : RegionCfg := match b.cfg with | none => {} | some c => c.regionCfg.getD r {}
/-- Distance class of a core position (R37, R475). -/
def Block.distClass (b : Block) (i : Nat) : Nat :=
  match b.cfg with
  | none => 0
  | some c => let x := (memRead c.image (4096 + i / 2)).toNat; if i % 2 = 0 then x % 16 else x / 16
/-- Wave of a core position (R114, R475). -/
def Block.waveOf (b : Block) (i : Nat) : Nat := match b.cfg with | none => 0 | some c => (memRead c.image (0x81000 + i)).toNat
/-- Core-state length in beats (R78). -/
def Block.csLen (b : Block) : Nat := match b.cfg with | none => 1 | some c => c.csLen
def Block.pcLen (b : Block) : Nat := match b.cfg with | none => 0 | some c => c.pcLen

/-- Ticks of n core cycles at the run ratio of a region, rounded down (R148) and up (R261). (DEDUCED, log 19.) -/
def cycTicks (g : RegionCfg) (n : Nat) : Nat := 10 * g.q * n / g.p
def cycTicksUp (g : RegionCfg) (n : Nat) : Nat := ceilDiv (10 * g.q * n) g.p
/-- Core cycles that end at or before t ticks at the run ratio. -/
def ticksCyc (g : RegionCfg) (t : Nat) : Nat := t * g.p / (10 * g.q)

/-- Own wafer number. -/
def Block.wafer (b : Block) : Nat := b.ho.mgmt.wafer.toNat
/-- A job is launched or armed. -/
def Block.inJob (b : Block) : Bool := b.ho.job.armed || b.ho.job.launched
/-- Viloladric runs: the Head Office domain is on, its test has passed, an image is loaded, and the block is not in a
SAFE that stops it. In the SAFE of a DECOMMISSIONED block, entered in place of loading the image, letters are answered
all the same (R337, R338). (DEDUCED, log 118.) -/
def Block.hoRuns (b : Block) : Bool :=
  b.svc.hoOn && !b.svc.halted && b.svc.hoPassed && (b.svc.imageOk || (decide (b.svc.state = .safe) && decide (b.svc.safeCause = 7))) && !(decide (b.svc.state = .safe) && (decide (b.svc.safeCause = 2) || decide (b.svc.safeCause = 3)))
/-- The test port is there: the debug domain is powered and passed its power-up test (R272). -/
def Block.tapOn (b : Block) : Bool := b.svc.dbgOn && !b.svc.dbgFail
/-- The parcel being taken, from S until its commits are settled (R382). -/
def Block.taking (b : Block) : Option GenRec :=
  b.ledger.inGen.filter (fun g => match g.state with | .reserving => false | .failed => false | _ => true)
/-- A parcel capture runs. -/
def Block.capturing (b : Block) : Bool := match b.taking with | some g => decide (g.state = .capturing) | none => false
/-- Write the Ledger's record of the generation in progress (R382). -/
def setGen (g : Option GenRec) (b : Block) : Block := b.modLedger (fun l => { l with inGen := g })

/-! ### Registers that record: interrupts and errors (R436, R446, R447) -/

/-- Set ring r's interrupt status bit (R437). -/
def setIrqRing (r : Nat) (b : Block) : Block := b.modMgmt (fun m => { m with irqRing := maskSet m.irqRing r true })
/-- Set IRQ_MISC_STATUS bit i: 0 err, 1 svc, 2 pm, 3 shdn, 4 alarm, 5 keys (R436). -/
def setIrqMisc (i : Nat) (b : Block) : Block := b.modMgmt (fun m => { m with irqMisc := maskSet m.irqMisc i true })

/-- Record an access (or a lost event) that sets ERR_SUMMARY bit `cause` (R446, R447). -/
def recordErr (offset cause : Nat) (b : Block) : Block :=
  setIrqMisc 0 (b.modMgmt (fun m => { m with
    err := maskSet m.err cause true
    errOff := if m.err = 0 then BitVec.ofNat 16 offset else m.errOff
    errCause := if m.err = 0 then BitVec.ofNat 5 cause else m.errCause
    errVld := if m.err = 0 then true else m.errVld
    errCount := sat 16 (m.errCount + 1) }))

/-! ### Rings, records and events (R396 to R400, R465) -/

/-- Size of a ring's pointers (R431). -/
def ringSize (r : Nat) : Nat := if r < 56 then 32 else 256
/-- Records a ring holds. -/
def ringFill (x : Ring) (r : Nat) : Nat := (x.rcpTail + ringSize r - x.rcpHead) % ringSize r
/-- The ring has room for one more record. -/
def ringRoom (x : Ring) (r : Nat) : Bool := decide (ringFill x r + 1 < ringSize r)

/-- Place a record at rcp_tail and set the ring's status bit (R437). -/
def placeRecord (r : Nat) (rc : List Byte) (b : Block) : Block :=
  setIrqRing r (b.modRing r (fun x => { x with recs := x.recs ++ [rc], rcpTail := (x.rcpTail + 1) % ringSize r }))

/-- A receipt header and its results (R402). -/
def receiptBytes (opcode : Nat) (final more cached : Bool) (seq epoch status part parts detail tag : Nat) (res : List Byte) : List Byte :=
  le 16 (packF [(0, 1), (4, opcode), (16, b01 final), (17, b01 more), (18, b01 cached), (24, res.length), (32, seq),
    (64, epoch), (80, status), (96, part), (104, parts), (112, detail)]) ++ le 16 tag ++ res

/-- The results of an event record: first count, source unit, occurrences, body; cut at 224 bytes (R400). (DESIGN CHOICE, log 106.) -/
def eventResults (pm unit occ : Nat) (body : List Byte) : List Byte × Nat :=
  let full := le 8 pm ++ le 3 unit ++ [0] ++ le 4 occ ++ body
  (full.take 224, if full.length > 224 then 1 else 0)

/-- The ring that an event code belongs to (R460). -/
def evRing (code : Nat) : Nat := 56 + (code - 0x8000) / 256

/-- Place an event record in ring r with the ring's next sequence number (R400). -/
def putEvent (r code pm unit occ : Nat) (body : List Byte) (b : Block) : Block :=
  let rb := eventResults pm unit occ body
  (placeRecord r (receiptBytes 0xF00 true false false (b.ring r).seq.toNat b.ledger.epoch code 0 1 rb.2 0 rb.1) b).modRing r
    (fun x => { x with seq := x.seq + 1 })

/-- The count of lost events goes first, in a record of its own (R400). (DESIGN CHOICE, log 105.) -/
def putLost (r : Nat) (b : Block) : Block :=
  if 0 < (b.ring r).lost ∧ ringRoom (b.ring r) r then
    (putEvent r evEventLost b.now 0x400000 (b.ring r).lost [] b).modRing r (fun x => { x with lost := 0 })
  else b

/-- Place an event record, or drop it when the ring is full (R400). (DESIGN CHOICE, log 105.) -/
def admitEvent (code pm unit occ : Nat) (body : List Byte) (b : Block) : Block :=
  let r := evRing code
  let b1 := putLost r b
  if ringRoom (b1.ring r) r then putEvent r code pm unit occ body b1
  else recordErr r 8 (b1.modRing r (fun x => { x with lost := x.lost + 1 }))

/-- Trace an event before its ring admits it (R465, R466). (DESIGN CHOICE, log 102.) -/
def traceEvent (code pm unit : Nat) (body : List Byte) (b : Block) : Block :=
  let d := b.dbg
  let c := d.ctrl.toNat
  if d.state = 1 ∧ bit (fld c 2 8) (evRing code - 56) ∧ d.exporting.isNone then
    let full := decide (16384 ≤ d.trace.length)
    if full ∧ ¬ bit c 1 then
      admitEvent evTraceFull b.now 0x400000 1 [] (b.modDebug (fun d => { d with state := 2 }))
    else
      let tr := (if full then d.trace.drop 1 else d.trace) ++ [⟨pm, code, evRing code, unit, body.take 17⟩]
      let hit := decide (fld c 10 2 ≠ 0) && decide (fld c 16 16 = code) && d.trig.isNone && d.matched.isNone
      let post := if hit then some (fld c 32 16) else d.post.map (· - 1)
      b.modDebug (fun d => { d with
        trace := tr
        state := if post = some 0 then 2 else d.state
        trig := if full then d.trig.map (· - 1) else d.trig
        matched := if hit then some (tr.length - 1) else if full then d.matched.map (· - 1) else d.matched
        post := post })
  else b

/-- Raise an event: trace it and place it in its ring. With the Head Office domain off there is no ring. -/
def postEventN (code pm unit occ : Nat) (body : List Byte) (b : Block) : Block :=
  if b.svc.hoOn then admitEvent code pm unit occ body (traceEvent code pm unit body b) else b

def postEvent (code unit : Nat) (body : List Byte) (b : Block) : Block := postEventN code b.now unit 1 body b

/-- An event of the Head Office itself. (DESIGN CHOICE, log 105.) -/
def hoEvent (code : Nat) (body : List Byte) (b : Block) : Block := postEvent code 0x400000 body b

/-- Units of R36. -/
def unitCore (i : Nat) : Nat := i
def unitRouter (k : Nat) : Nat := 0x100000 + k
def unitOffice (r : Nat) : Nat := 0x200000 + r
def unitMember (r m : Nat) : Nat := 0x300000 + 2 * r + m
def unitHO : Nat := 0x400000
def unitCourier (n : Nat) : Nat := 0x500000 + n
def unitIntake (n : Nat) : Nat := 0x600000 + n
def unitEgress (n : Nat) : Nat := 0x700000 + n

/-- Count n occurrences of a code in a Letterbox's counters (R462, R463). -/
def bumpCtr (i code n : Nat) (b : Block) : Block :=
  b.modCore i (fun c => { c with ctl := { c.ctl with counters := c.ctl.counters.map (fun p => if p.1 = code ∧ code ≠ 0 then (p.1, sat 32 (p.2 + n)) else p) } })

/-- File an event that a Letterbox or router originates with its Office, which forwards it under R461. (DESIGN CHOICE, log 55.) -/
def fileEvent (r code unit : Nat) (body : List Byte) (b : Block) : Block :=
  let add (l : List EvHold) : List EvHold :=
    if l.any (fun e => decide (e.code = code)) then l.map (fun e => if e.code = code then { e with count := e.count + 1 } else e)
    else l ++ [⟨code, 1, unit, b.now, body⟩]
  b.modOffice r (fun o => { o with events := add o.events })

/-- The Letterbox of a core runs: out of ct_por_n, with a working control path (R48, R258). -/
def Core.lbOn (c : Core) : Bool := c.porN && !c.ctl.ctrlFail

/-- The Letterbox of a core still has its Post Network attachment: its router is not lost (R22, R32). -/
def Block.attached (b : Block) (i : Nat) : Bool := !(b.router (i / 64)).lost

/-- An event of a Letterbox: counted there and, through its router, filed with its Office (R22, R461, R463). (DESIGN CHOICE, log 55.) -/
def lbEvent (i code : Nat) (body : List Byte) (b : Block) : Block :=
  let b := bumpCtr i code 1 b
  if b.attached i then fileEvent (regionOf i) code (unitCore i) body b else b

/-! ### Alarm and service state (R113, R337) -/

/-- Raise an alarm cause: a lower code replaces the one shown; BOOTING gives way to the cause that ends booting. (DESIGN CHOICE, log 23.) -/
def raiseAlarm (code : Nat) (b : Block) : Block :=
  if b.outs.alarmN ∨ b.outs.alarmCode = 1 ∨ code < b.outs.alarmCode.toNat then
    setIrqMisc 4 (b.modOuts (fun o => { o with alarmN := false, alarmCode := BitVec.ofNat 4 code }))
  else b

/-- Enter a service state (R337). -/
def setSvc (st : SvcState) (b : Block) : Block :=
  if b.svc.state = st then b
  else hoEvent evSvcStateChange [] (setIrqMisc 1 (b.modSvc (fun s => { s with state := st })))

/-- Set PM_STATUS.state (R135, R436). -/
def setPmState (st : PmState) (b : Block) : Block :=
  if b.pm.state = st then b else setIrqMisc 2 (b.modPm (fun p => { p with state := st }))

/-! ### Core history, states and the Board Map (R41 to R43, R229 to R232) -/

def Block.hist (b : Block) (i : Nat) : CoreHist := (tget b.ledger.hist i).getD {}
/-- Write a core's history, with the copy of its pips that the Head Office keeps (R31). -/
def Block.setHist (b : Block) (i : Nat) (h : CoreHist) : Block :=
  b.modLedger (fun l => { l with hist := tset l.hist i h, hoPips := tset l.hoPips i h.pips })
def Block.modHist (b : Block) (i : Nat) (f : CoreHist → CoreHist) : Block := b.setHist i (f (b.hist i))

/-- The state W1 reports for a core position (R42, R115, R232, R256, R258). -/
def Block.coreState (b : Block) (i : Nat) : CoreSt :=
  if ¬ b.present i then .absent
  else if (tget b.ho.bm.blocked i).isSome then .fenced
  else if (b.hist i).unscreened then .unscreened else (b.hist i).st

/-- Code of a core state (R42). -/
def stCode : CoreSt → Nat
  | .active => 0 | .probation => 1 | .suspect => 2 | .fenced => 3 | .spare => 4 | .retired => 5 | .unscreened => 6 | .absent => 7

/-- The role on a core (R41). -/
def Block.roleOf (b : Block) (i : Nat) : Option Nat :=
  if (tget b.ho.bm.blocked i).isSome then none else tget b.ho.bm.roles i

/-- The core that carries a role (R39). -/
def Block.coreOf (b : Block) (role : Nat) : Option Nat := (b.ho.bm.roles.find? (fun p => p.2 = role)).map (·.1)

/-- A Board Map entry (R41). -/
def bmEntry (i st cls : Nat) (role : Option Nat) : Nat :=
  packF [(0, i), (20, st), (24, cls), (32, role.getD 0), (52, b01 role.isSome)]
def Block.entry (b : Block) (i : Nat) : Nat := bmEntry i (stCode (b.coreState i)) (b.distClass i) (b.roleOf i)

/-- Publish a Board Map generation (R43): generation plus one, digest over every entry in index order. (DEDUCED, log 26; DESIGN CHOICE, log 107.) -/
def publish (b : Block) : Block :=
  let gen := b.ledger.bmGen + 1
  let dg := sha384v ((List.range (2 ^ 20)).flatMap (fun i => le 8 (b.entry i)))
  (b.modBm (fun m => { m with
    gen := BitVec.ofNat 32 gen, digest := dg, dirty := false
    published := b.presentCores.map (fun i => (i, (b.coreState i, b.roleOf i))) })).modLedger
    (fun l => { l with bmGen := gen, bmDigest := dg })

/-- The working copy differs from the latest generation. -/
def bmMark (b : Block) : Block := b.modBm (fun m => { m with dirty := true })

/-- Viloladric publishes changes as they come: outside a job, once the first generation is out. A job that SAFE has
ended has no further boundary. -/
def Block.publishes (b : Block) : Bool :=
  match b.svc.state with
  | .ready => !b.inJob
  | .job => !b.inJob
  | .outOfService => b.hoRuns && !b.inJob
  | .safe => b.hoRuns && b.svc.ledgerOk
  | _ => false

/-- Outside a job a changed working copy is published (R43). (DESIGN CHOICE, log 107.) -/
def publishDue (b : Block) : Block := if b.ho.bm.dirty ∧ b.publishes then publish b else b

/-- The working copy has changed: outside a job a generation follows at once, in a job at the next boundary (R43). (DESIGN CHOICE, log 107.) -/
def bmChanged (b : Block) : Block := publishDue (bmMark b)

/-! ### The loaded job -/

/-- The loaded manifest, or the empty one. -/
def Block.man (b : Block) : Manifest := b.ho.job.man.getD {}
/-- Working roles of the manifest, ascending. -/
def Block.workRoles (b : Block) : List Nat := sortBy (fun a c => decide (a ≤ c)) ((b.man.roles.filter (fun r => !r.spare)).map (·.role))
/-- Roles that cores of a region carry. -/
def Block.regionRoles (b : Block) (r : Nat) : List Nat :=
  sortBy (fun a c => decide (a ≤ c)) ((b.ho.bm.roles.filter (fun p => decide (regionOf p.1 = r))).map (·.2))
/-- Working cores of the job. -/
def Block.workCores (b : Block) : List Nat := b.ho.bm.roles.map (·.1)
/-- Timetable of a role (R346). -/
def Block.timetable (b : Block) (role : Nat) : List TtEntry := ((b.man.timetables.find? (fun p => p.1 = role)).map (·.2)).getD []
/-- Own tiles a role declares per step (R219). -/
def Block.declTiles (b : Block) (role : Nat) : Nat := ((b.man.roles.find? (fun r => !r.spare && r.role = role)).map (·.ownTiles)).getD 0
/-- Ticks from slot launch to T_end: the largest expected count among the final milestones (R222). (DEDUCED, log 69.) -/
def Block.tEndOff (b : Block) : Nat := b.man.timetables.foldl (fun m p => p.2.foldl (fun m e => if e.isFinal then max m e.expPm else m) m) 0
/-- T_end of the slot (R222, R459). (DEDUCED, log 69.) -/
def Block.tEnd (b : Block) : Nat := b.ho.job.slotAt + b.ho.job.shift + b.tEndOff
/-- Launch count of the next slot (R224, R378, R459). -/
def Block.nextSlot (b : Block) : Nat := b.ho.job.slotAt + b.ho.job.shift + b.ho.job.lateShift + b.man.slotLen


/-! ### Fencing a core into FENCED (R71, R74, R77) -/

/-- The pins of a core fenced into hold and gating at once (R71). -/
def holdPins (p : CorePins) : CorePins := { p with fenceN := false, isoN := false, holdN := false, cgN := false, tstReq := false }

/-- Close every open tile UNCHECKABLE, unless it holds a mismatch (R74); rows and residues that wait go with them. (DESIGN CHOICE, log 54.) -/
def closeTiles (c : CoreScreen) : CoreScreen :=
  { c with tiles := tmap (fun _ t => { t with port := true, closed := true }) c.tiles, rowq := [], tlyq := [] }

/-- The core's logic is re-initialised or held in reset: no tally residue of an earlier tile is on its way (R55, R71, R76). (DESIGN CHOICE, log 52.) -/
def settleTags (c : Core) : Core := { c with scr := { c.scr with tagBusy := [] } }

/-- A Letterbox lowers ct_fence_n and starts the fence sequence (R71, R74). -/
def beginFence (toHold : Bool) (c : Core) : Core :=
  if ¬ c.porN then c
  else { c with
    pins := { c.pins with fenceN := false }
    scr := closeTiles c.scr
    ctl := { c.ctl with fencing := true, toHold := toHold || c.ctl.toHold } }

/-- Continue a fence at isolation: into hold and gating for FENCED (R71). -/
def isolate (c : Core) : Core :=
  if c.ctl.toHold then settleTags { c with pins := { c.pins with isoN := false, holdN := false, cgN := false }, ctl := { c.ctl with fencing := false } }
  else { c with pins := { c.pins with isoN := false }, ctl := { c.ctl with fencing := false } }

/-- Order a core into FENCED (R71). A test or a capture in progress runs to its end first; the order then stands in
`toHold` (R77 and "When controls meet" of 02_core_tap_port). -/
def fenceHold (i : Nat) (b : Block) : Block :=
  b.modCore i (fun c =>
    if ¬ c.porN then c
    else if c.ctl.test.isSome ∨ c.ctl.cap.isSome then { c with ctl := { c.ctl with toHold := true } }
    else if ¬ c.pins.isoN then (isolate { c with ctl := { c.ctl with toHold := true } })
    else beginFence true c)

/-! ### Stopping the job, and fills that end (R236, R238, R240, R244, R245) -/

/-- Withhold further starts: the job stops at the next slot launch, as a scheduled stop there (R236). -/
def stopJobNext (b : Block) : Block :=
  if b.ho.job.launched then
    (b.modJob (fun j => { j with stopNext := true })).modStop (fun s => { s with sched := some b.nextSlot })
  else b

/-- A fill runs until it is DONE or ABANDONED (R238). -/
def Fill.runs (f : Fill) : Bool := decide (f.phase < 6)

/-- The fill ledger with a fill at a phase (R31, R238). -/
def recordFill (ph now : Nat) (log : List FillRec) (f : Fill) : List FillRec :=
  let same (x : FillRec) : Bool := decide (x.role = f.role) && decide (x.src = f.src) && decide (x.dst = f.dst) && decide (x.phase < 6)
  let rc : FillRec := { role := f.role, src := f.src, dst := f.dst, phase := ph, since := now }
  if log.any same then log.map (fun x => if same x then rc else x) else log ++ [rc]

/-- Move the fills that a test admits to a phase, which the fill ledger of the Head Office records (R238). -/
def fillTo (pick : Fill → Bool) (ph : Nat) (b : Block) : Block :=
  (b.modJob (fun j => { j with fills := j.fills.map (fun f => if pick f then { f with phase := ph } else f) })).modLedger
    (fun l => { l with fillLog := (b.ho.job.fills.filter pick).foldl (recordFill ph b.now) l.fillLog })

/-- Change a region's relocation table, and the copy that the Head Office keeps (R240). -/
def modRelocs (r : Nat) (f : List Reloc → List Reloc) (b : Block) : Block :=
  (b.modOffice r (fun o => { o with relocs := f o.relocs })).modJob (fun j => { j with relocs := tset j.relocs r (f (b.office r).relocs) })

/-- Every fill ends, as ABANDONED (R245, R248). -/
def endFills (b : Block) : Block := (fillTo Fill.runs 7 b).modJob (fun j => { j with fills := [] })

/-- A fill fails: it is ABANDONED, its entry left invalid, the replay abandoned with it, and the job stops at the next slot
launch (R236, R238, R244, R245). -/
def failFill (role code : Nat) (b : Block) : Block :=
  let mine (f : Fill) : Bool := decide (f.role = role) && f.runs
  if b.ho.job.fills.any mine then
    let b := forEach (b.ho.job.fills.filter mine) (fun f b => modRelocs (regionOf f.dst)
      (fun l => l.map (fun (x : Reloc) => if x.role = role ∧ x.toLocal = localOf f.dst ∧ x.step = b.ho.job.step then { x with valid := false } else x)) b) b
    stopJobNext (hoEvent code (le 4 role) (fillTo mine 7 b))
  else b

/-- A core that is the target of a running fill has failed (R245). -/
def failTarget (i : Nat) (b : Block) : Block :=
  forEach (b.ho.job.fills.filter (fun f => decide (f.dst = i) && f.runs)) (fun f b => failFill f.role evSpareFailed b) b

/-! ### Reasons, named roles and core states (R220, R232, R235) -/

/-- Add a reason to the region's mask for the step slot (R220). (DESIGN CHOICE, log 70.) -/
def addReason (r bitno : Nat) (b : Block) : Block :=
  b.modOffice r (fun o => { o with st := { o.st with reasons := maskSet o.st.reasons bitno true } })

/-- Name a role for relocation with a reason code of R240 (R235). (DESIGN CHOICE, log 70 and 71.) -/
def nameRole (r role code : Nat) (b : Block) : Block :=
  b.modOffice r (fun o => { o with st := { o.st with named := if o.st.named.contains (role, code) then o.st.named else o.st.named ++ [(role, code)] } })

/-- Fence a core into FENCED (R232): its Letterbox runs R71, its fence count rises, RETIRED at two; a role it carries is
named and the slot withheld with reason FENCE (R220, R235, R240), and a fill whose target it is fails (R245). -/
def fenceState (i : Nat) (byTest : Bool) (b : Block) : Block :=
  let h := b.hist i
  let b := fenceHold i (bmChanged (b.setHist i { h with
    unscreened := false, fences := h.fences + 1, st := if 2 ≤ h.fences + 1 then .retired else .fenced }))
  let b := failTarget i b
  match b.roleOf i with
  | some role => if b.ho.job.launched then nameRole (regionOf i) role (if byTest then 7 else 6) (addReason (regionOf i) 6 b) else b
  | none => b

/-- The hour that a count falls in (R230). -/
def hourOf (n : Nat) : Nat := n / 3600000000000

/-- A history that a charge changes: the hour of the charge is no clean hour (R229, R230). -/
def chargedTo (pips now : Nat) (h : CoreHist) : CoreHist :=
  { h with pips := pips, charged := if h.charged.contains (hourOf now) then h.charged else h.charged ++ [hourOf now] }

/-- States in which pips and failed tests act (R232). -/
def inService (st : CoreSt) : Bool := match st with | .active | .probation | .suspect | .spare => true | _ => false

/-- The tested states: those, and UNSCREENED (R257). -/
def tested (st : CoreSt) : Bool := inService st || decide (st = .unscreened)

/-- A core whose test failed: pips 255 and FENCED (R229, R232, R270). An UNSCREENED core is fenced alike, as R258 has it
for the tests of power-up and reset. (DEDUCED, log 135.) -/
def failTest (i : Nat) (b : Block) : Block :=
  let b := b.modHist i (fun h => chargedTo 255 b.now h)
  if inService (b.hist i).st then fenceState i true b else b

/-- Queue a test unit with an Office (R264, R265). -/
def trigPrio : Trigger → Nat
  | .fill => 0 | .conviction => 1 | .operands => 2 | .suspicion => 3 | .restore => 4 | .sweep => 5 | .spareSweep => 6
  | .powerUp => 7 | .reset => 8
def trigCode : Trigger → Nat
  | .powerUp => 0 | .reset => 1 | .fill => 2 | .conviction => 3 | .operands => 4 | .suspicion => 5 | .restore => 6
  | .sweep => 7 | .spareSweep => 8

/-- Index of the newest entry of the lowest priority present. -/
def dropIndex (q : List TestUnit) : Nat :=
  let worst := q.foldl (fun m u => max m (trigPrio u.trigger)) 0
  ((List.range q.length).filter (fun i => match q[i]? with | some u => trigPrio u.trigger = worst | none => false)).getLastD 0

def queueUnit (r : Nat) (u : TestUnit) (b : Block) : Block :=
  let q := (b.office r).testq
  if q.length < 1024 then b.modOffice r (fun o => { o with testq := q ++ [u] })
  else
    let q := q ++ [u]
    let again := match q[dropIndex q]? with
      | some x => if 1 ≤ trigPrio x.trigger ∧ trigPrio x.trigger ≤ 3 then [x] else []
      | none => []
    postEvent evTestQueueFull (unitOffice r) [] (b.modOffice r (fun o => { o with testq := q.eraseIdx (dropIndex q), dropped := o.dropped ++ again }))

def Block.unit (b : Block) (i mode unit : Nat) (t : Trigger) : TestUnit := ⟨i, mode, unit, t, b.now, b.ho.job.slotIx⟩

/-- Index in the KAT set of the entry with the lowest kat_id (R253, R264). -/
def Block.lowKat (b : Block) : Nat :=
  match b.cfg with
  | none => 0
  | some g => (List.range g.kats.length).foldl (fun m k => if (g.kats.getD k {}).katId < (g.kats.getD m {}).katId then k else m) 0

/-- The job's primary KAT (R264). -/
def Block.fillKat (b : Block) : Nat := b.ho.job.primaryKat.getD b.lowKat

/-- The units of a full rolling test: slices, then banks (R265). -/
def Block.rollUnits (b : Block) (i : Nat) (t : Trigger) : List TestUnit :=
  match b.cfg with
  | none => []
  | some c => (List.range c.slices.length).map (fun s => b.unit i 1 s t) ++ (List.range c.bankSigs.length).map (fun k => b.unit i 2 k t)

/-- A core becomes SUSPECT without a role: SUSPICION is queued for it (R264). -/
def queueSuspicion (i : Nat) (b : Block) : Block :=
  forEach (b.rollUnits i .suspicion) (queueUnit (regionOf i))
    ((b.modHist i (fun h => { h with rolled := false })).modOffice (regionOf i) (fun o => { o with rolling := tdel o.rolling i }))

/-- Apply the boundary rows of R232 to one core. (DESIGN CHOICE, log 63.) -/
def boundaryState (i : Nat) (b : Block) : Block :=
  let h := b.hist i
  let role := (b.roleOf i).isSome
  let toSuspect (b : Block) : Block :=
    let b := bmMark (b.setHist i { h with st := .suspect, rolled := false })
    if role then b else queueSuspicion i b
  if h.unscreened then b
  else match h.st with
  | .active => if 64 ≤ h.pips then toSuspect b else b
  | .probation => if 64 ≤ h.pips then toSuspect b
      else if 10000 ≤ h.franked then bmMark (b.setHist i { h with st := .active }) else b
  | .spare => if 64 ≤ h.pips then toSuspect b else b
  | .suspect =>
    if role then (if h.pips ≤ 48 then bmMark (b.setHist i { h with st := .probation, probStart := some b.now, franked := 0 }) else b)
    else if h.pips ≤ 48 ∧ h.rolled then bmMark (b.setHist i { h with st := .spare }) else b
  | _ => b

/-- A clean hour of a core, and the row of R232 that its whole hour satisfies (R230, R232). -/
def cleanPip (hour i : Nat) (b : Block) : Block :=
  let h := b.hist i
  let b := b.setHist i { h with pips := h.pips - 1 }
  match h.st, h.probStart with
  | .probation, some t => if t ≤ hour ∧ h.pips - 1 < 64 then bmMark (b.modHist i (fun h => { h with st := .active })) else b
  | _, _ => b

/-- The boundary effects on one core that its history alone decides: each clean hour that is due, then R232. (DESIGN CHOICE, log 79.) -/
def boundaryCore (i : Nat) (b : Block) : Block :=
  let hour := hourOf b.now * 3600000000000 - 3600000000000
  boundaryState i (forEach (b.ho.job.hourDue.filter (fun x => decide (x = i))) (fun i b => cleanPip hour i b) b)

/-- The boundary effects of every core (R230, R232). -/
def boundaryAll (b : Block) : Block :=
  let b := forEach (dedup (b.ho.job.hourDue ++ b.ledger.hist.map (·.1))) boundaryCore b
  b.modJob (fun j => { j with hourDue := [] })

/-- Charge pips to a core (R229); at 192 it is FENCED at once, unless it is UNSCREENED, a state that has no such row (R232). -/
def charge (i n : Nat) (b : Block) : Block :=
  if ¬ b.present i then b
  else
    let b := b.modHist i (fun h => chargedTo (min 255 (h.pips + n)) b.now h)
    let b := if 192 ≤ (b.hist i).pips ∧ inService (b.coreState i) then fenceState i false b else b
    if b.inJob then b else publishDue (boundaryState i b)

/-- A core becomes UNSCREENED (R232, R246): a role it carries withholds the slot with reason UNSCREENED. -/
def unscreen (i : Nat) (b : Block) : Block :=
  if ¬ b.present i ∨ (b.hist i).unscreened then b
  else
    let b := bmChanged (b.modHist i (fun h => { h with unscreened := true }))
    if (b.roleOf i).isSome ∧ b.ho.job.launched then addReason (regionOf i) 7 b else b

/-- A Letterbox has failed (R246). -/
def failLetterbox (i : Nat) (b : Block) : Block :=
  unscreen i (b.modCore i (fun c => { c with ctl := { c.ctl with failed := true } }))

/-- Put a core under the FENCED-without-role overlay with a reason code (R115, R256, R258, R425). (DESIGN CHOICE, log 33.) -/
def blockCore (i why : Nat) (b : Block) : Block := bmChanged (b.modBm (fun m => { m with blocked := tset m.blocked i why }))

/-- Working roles on UNSCREENED cores (R247). -/
def Block.unscreenedRoles (b : Block) : Nat := (b.ho.bm.roles.filter (fun p => decide (b.coreState p.1 = .unscreened))).length

end Sys2Proof.Machine
end

