-- ==== Sys2Proof/Machine/Post.lean ====
section
/-! DEFINITION. Post Network operations: addresses and paths, packets and their checks, direction tables, sending
(09_post_network). -/

namespace Sys2Proof.Machine

open Sys2Proof

/-! ### Network ends by unit number (R36) -/

def unitKind (u : Nat) : Nat := u / 2 ^ 20
def unitIndex (u : Nat) : Nat := u % 2 ^ 20

/-- The serving member of an office. -/
def Office.server (o : Office) : Member := if o.serving then o.memB else o.memA
def Office.standby (o : Office) : Member := if o.serving then o.memA else o.memB
def Office.modServer (o : Office) (f : Member → Member) : Office :=
  if o.serving then { o with memB := f o.memB } else { o with memA := f o.memA }
def Office.modStandby (o : Office) (f : Member → Member) : Office :=
  if o.serving then { o with memA := f o.memA } else { o with memB := f o.memB }

/-- The network end of a unit; an Office role's is its serving member's. -/
def Block.net (b : Block) (u : Nat) : NetEnd :=
  match unitKind u with
  | 0 => (b.core (unitIndex u)).net
  | 1 => (b.router (unitIndex u)).net
  | 2 => (b.office (unitIndex u)).server.net
  | 3 => if unitIndex u % 2 = 0 then (b.office (unitIndex u / 2)).memA.net else (b.office (unitIndex u / 2)).memB.net
  | 4 => b.ho.post.net
  | 5 => (b.courier (unitIndex u)).net
  | 6 => (b.courier (unitIndex u)).netI
  | 7 => (b.courier (unitIndex u)).netE
  | _ => {}

/-- Change the network end of a unit. -/
def Block.modNet (b : Block) (u : Nat) (f : NetEnd → NetEnd) : Block :=
  match unitKind u with
  | 0 => b.modCore (unitIndex u) (fun c => { c with net := f c.net })
  | 1 => b.modRouter (unitIndex u) (fun c => { c with net := f c.net })
  | 2 => b.modOffice (unitIndex u) (fun o => o.modServer (fun m => { m with net := f m.net }))
  | 3 => b.modOffice (unitIndex u / 2) (fun o =>
      if unitIndex u % 2 = 0 then { o with memA := { o.memA with net := f o.memA.net } } else { o with memB := { o.memB with net := f o.memB.net } })
  | 4 => b.modPost (fun p => { p with net := f p.net })
  | 5 => b.modCourier (unitIndex u) (fun c => { c with net := f c.net })
  | 6 => b.modCourier (unitIndex u) (fun c => { c with netI := f c.netI })
  | 7 => b.modCourier (unitIndex u) (fun c => { c with netE := f c.netE })
  | _ => b

/-! ### Paths (R279 to R282) -/

/-- The nodes that a terminal attaches to, as region indices (R279). -/
def attachNodes (u : Nat) : List Nat :=
  match unitKind u with
  | 4 => [16 * 3 + 7, 16 * 3 + 8, 16 * 4 + 7, 16 * 4 + 8]
  | 2 => [unitIndex u]
  | 3 => [unitIndex u / 2]
  | 0 => []
  | 1 => []
  | _ => let n := unitIndex u; if n < 8 then [16 * n, 16 * n + 1] else [16 * (n - 8) + 15, 16 * (n - 8) + 14]

/-- The attachment table's first node: the lowest-indexed populated node of the terminal (R291). -/
def Block.attach (b : Block) (u : Nat) : Option Nat :=
  ((attachNodes u).filter (fun r => b.populated r)).foldl (fun m r => match m with | none => some r | some x => some (min x r)) none

/-- The attachment table that a unit holds, in the version that is injected; other units hold none (R291, R319). -/
def Block.attTable (b : Block) (u : Nat) : Tab (BitVec 8) :=
  let pick (t0 t1 : Tab (BitVec 8)) : Tab (BitVec 8) := if b.ho.post.ver then t1 else t0
  match unitKind u with
  | 2 => let m := (b.office (unitIndex u)).server; pick m.att0 m.att1
  | 3 => let o := b.office (unitIndex u / 2); let m := if unitIndex u % 2 = 0 then o.memA else o.memB; pick m.att0 m.att1
  | 4 => pick b.ho.post.att0 b.ho.post.att1
  | 5 => let c := b.courier (unitIndex u); pick c.att0 c.att1
  | _ => []

/-- Node terminal port of a unit (R279). -/
def nodePort (u : Nat) : Nat :=
  match unitKind u with
  | 2 => 2 | 3 => unitIndex u % 2 | 4 => 3 | 5 => 4 + unitIndex u | 6 => 20 + unitIndex u | _ => 36 + unitIndex u

/-- A path: level, region, router (x, y), port, node bit (R282). -/
structure Path where
  lvl : Nat := 0
  region : Nat := 0
  x : Nat := 0
  y : Nat := 0
  port : Nat := 0
  node : Nat := 0
  deriving DecidableEq, Repr

/-- The on-wafer path of a unit (R282); none where it attaches to no populated node. -/
def Block.path (b : Block) (u : Nat) : Option Path :=
  let i := unitIndex u
  match unitKind u with
  | 0 => some ⟨0, regionOf i, clusterOf i % 16, clusterOf i / 16, portOf i, 0⟩
  | 1 => some ⟨0, i / 128, i % 16, i % 128 / 16, 0, 1⟩
  | 2 => some ⟨1, i, 0, 0, 2, 0⟩
  | 3 => some ⟨1, i / 2, 0, 0, i % 2, 0⟩
  | k => if k < 8 then (b.attach u).map (fun r => ⟨1, r, 0, 0, nodePort u, 0⟩) else none

/-- The node that a sender's attachment table gives for a terminal: entry bits [6:0], when bit 7 says that it is valid (R291). -/
def Block.attachFor (b : Block) (src dst : Nat) : Option Nat :=
  match tget (b.attTable src) (nodePort dst) with
  | some e => if bit e.toNat 7 then some (e.toNat % 128) else none
  | none => b.attach dst

/-- The path that a sender writes for a destination (R276, R282, R291). -/
def Block.pathTo (b : Block) (src dst : Nat) : Option Path :=
  if 4 ≤ unitKind dst ∧ unitKind dst < 8 then (b.attachFor src dst).map (fun r => ⟨1, r, 0, 0, nodePort dst, 0⟩) else b.path dst

/-- The unit at a path. -/
def pathUnit (p : Path) : Nat :=
  if p.lvl = 0 then
    (if p.node = 1 then unitRouter (128 * p.region + 16 * p.y + p.x) else 8192 * p.region + 64 * (16 * p.y + p.x) + p.port)
  else if p.port = 2 then unitOffice p.region
  else if p.port < 2 then unitMember p.region p.port
  else if p.port = 3 then unitHO
  else if p.port < 20 then unitCourier (p.port - 4)
  else if p.port < 36 then unitIntake (p.port - 20)
  else unitEgress (p.port - 36)

/-! ### Headers (R285, R286) -/

/-- Fields of a header: (offset, width) reads. -/
def hF (h : BitVec 128) (lo w : Nat) : Nat := fld h.toNat lo w
def hPtype (h : BitVec 128) : Nat := hF h 0 3
def hLen (h : BitVec 128) : Nat := hF h 3 3
def hTv (h : BitVec 128) : Bool := bit h.toNat 6
def hFleet (h : BitVec 128) : Bool := bit h.toNat 7
def hAge (h : BitVec 128) : Nat := hF h 10 10
def hSvc (h : BitVec 128) : Nat := hF h 43 8
def hEpoch (h : BitVec 128) : Nat := hF h 51 8
def hSsvc (h : BitVec 128) : Nat := hF h 80 8
def hSeq (h : BitVec 128) : Nat := hF h 88 8
def hRcode (h : BitVec 128) : Nat := hF h 96 4
def hDst (h : BitVec 128) : Path := ⟨hF h 29 1, 16 * hF h 26 3 + hF h 22 4, hF h 30 4, hF h 34 3, hF h 37 6, hF h 100 1⟩
def hSrc (h : BitVec 128) : Path := ⟨hF h 66 1, 16 * hF h 63 3 + hF h 59 4, hF h 67 4, hF h 71 3, hF h 74 6, hF h 101 1⟩

/-- Replace a field of a header. -/
def hSet (h : BitVec 128) (lo w v : Nat) : BitVec 128 :=
  BitVec.ofNat 128 (h.toNat - fld h.toNat lo w * 2 ^ lo + v % 2 ^ w * 2 ^ lo)

/-- hcrc over header bits [111:0] (R286). -/
def hcrcOf (h : BitVec 128) : Nat := (crc16 (le 14 h.toNat)).toNat
/-- Regenerate hcrc. -/
def hSeal (h : BitVec 128) : BitVec 128 := hSet h 112 16 (hcrcOf h)
/-- The header's CRC holds (R286). -/
def hOk (h : BitVec 128) : Bool := hF h 112 16 = hcrcOf h

/-- sb_crc over header bits [111:0], age taken as zero, and the payload (R287). -/
def pktCrc (h : BitVec 128) (pl : List Flit) : BitVec 32 := crc32c (le 14 (hSet h 10 10 0).toNat ++ pl.flatMap flitBytes)

/-- A header without age and hcrc (R285). -/
def mkHdr (ptype len : Nat) (fleet : Bool) (d : Path) (svc epoch : Nat) (s : Path) (ssvc seq rcode : Nat) : BitVec 128 :=
  BitVec.ofNat 128 (packF [(0, ptype), (3, len), (7, b01 fleet), (22, d.region % 16), (26, d.region / 16), (29, d.lvl), (30, d.x), (34, d.y),
    (37, d.port), (43, svc), (51, epoch), (59, s.region % 16), (63, s.region / 16), (66, s.lvl), (67, s.x), (71, s.y), (74, s.port),
    (80, ssvc), (88, seq), (96, rcode), (100, d.node), (101, s.node)])

/-- Reserved fields of a route flit are zero, no hop has its GRW bit, and it counts 1 to 12 hops (R288, R14). -/
def routeBad (f : Flit) : Bool :=
  let n := fld f.toNat 56 4
  fld f.toNat 124 4 ≠ 0 || n = 0 || 12 < n || (List.range 12).any (fun i => bit f.toNat (68 + 5 * i))

/-- Reserved bits of payload flit 0 or 1 that the header gives a layout: stage flit, route flit, forwarding hint (R288, R296, R303). -/
def flitsBad (p : Packet) : Bool :=
  let f0 := (p.pl.getD 0 0).toNat
  (decide (hPtype p.hdr = 1) && (p.pl.isEmpty || decide (fld f0 112 16 ≠ 0))) ||
  (decide (hPtype p.hdr = 3) && (p.pl.isEmpty || (decide (hRcode p.hdr = 1) && decide (fld (p.pl.getD 1 0).toNat 33 95 ≠ 0)))) ||
  (hFleet p.hdr && (p.pl.isEmpty || routeBad (p.pl.getD 0 0)))

/-- Reserved bits of the payloads whose layout a rule gives: tile verdicts and core summaries (R218, R219), stalls (R461), region
records (R226), the last part of a region map (R308), egress summaries (R99). -/
def loadBad (p : Packet) : Bool :=
  let f0 := (p.pl.getD 0 0).toNat
  hPtype p.hdr = 0 && !hFleet p.hdr && (match hSvc p.hdr with
    | 0x01 => decide (fld f0 90 6 ≠ 0 ∨ fld f0 112 16 ≠ 0)
    | 0x08 => p.pl.any (fun f => decide (fld f.toNat 120 8 ≠ 0))
    | 0x10 => decide (fld (p.pl.getD 1 0).toNat 80 48 ≠ 0)
    | 0x12 => decide ((hDst p.hdr).lvl = 1) && decide ((hSrc p.hdr).lvl = 1) && decide (p.pl.length = 1) && decide (fld f0 52 12 ≠ 0)
    | 0x14 => decide (fld f0 98 30 ≠ 0)
    | _ => false)

/-- A packet is malformed: reserved ptype, len above 4 or not its payload, nonzero RSV or GRW field (R287, R14). -/
def pktBad (p : Packet) : Bool :=
  4 ≤ hPtype p.hdr || 4 < hLen p.hdr || hLen p.hdr ≠ p.pl.length || hF p.hdr 20 2 ≠ 0 || hF p.hdr 102 2 ≠ 0 || hF p.hdr 104 8 ≠ 0 ||
    flitsBad p || loadBad p

/-! ### Sending (R298) -/

/-- Copies a sender keeps (R298): a Letterbox 16, a member or the Head Office 256, and any other terminal 256 too. (DESIGN CHOICE, log 139.) -/
def heldMax (u : Nat) : Nat := if unitKind u = 0 then 16 else 256

/-- Flits of packets held. -/
def flitsOf (l : List Packet) : Nat := l.foldl (fun a p => a + p.pl.length + 1) 0

/-- A seam buffer of 16 flits admits a packet (R306). -/
def seamRoom (l : List SeamSlot) (p : Packet) : Bool := decide (flitsOf (l.map (·.pkt)) + p.pl.length + 1 ≤ 16)

/-- A Letterbox's queue moves whole packets into the seam buffer toward its router while there is room (R46, R306). -/
def fillSeam : List Packet → List SeamSlot → List Packet × List SeamSlot
  | [], s => ([], s)
  | p :: l, s => if seamRoom s p then fillSeam l (s ++ [{ pkt := p }]) else (p :: l, s)
def NetEnd.shift (e : NetEnd) : NetEnd := let x := fillSeam e.tx e.seam; { e with tx := x.1, seam := x.2 }

/-- Where a unit reports: Letterboxes and routers file with their Office, every other unit with the Head Office (R461). (DESIGN CHOICE, log 55.) -/
def unitEvent (u code : Nat) (b : Block) : Block :=
  match unitKind u with
  | 0 => lbEvent (unitIndex u) code [] b
  | 1 => fileEvent (unitIndex u / 128) code u [] b
  | _ => postEvent code u [] b

/-- Queue a packet at its sender: a Letterbox's queue of 32 drops it with TX_OVERFLOW when full (R298), and a Returned packet
that is dropped so counts as RETURN_LOST (R296). -/
def enqueue (u : Nat) (p : Packet) (b : Block) : Block :=
  if unitKind u ≠ 0 then b.modNet u (fun e => { e with tx := e.tx ++ [p] })
  else if 32 ≤ (b.net u).tx.length then
    let b := lbEvent (unitIndex u) evTxOverflow [] b
    if hPtype p.hdr = 3 then lbEvent (unitIndex u) evReturnLost [] b else b
  else bumpCtr (unitIndex u) 0x0012 1 (b.modNet u (fun e => ({ e with tx := e.tx ++ [p] }).shift))

/-- Send a packet and keep a copy of it for resending (R298). -/
def sendKept (u : Nat) (p : Packet) (b : Block) : Block :=
  enqueue u p (b.modNet u (fun e => { e with held := (e.held ++ [({ pkt := p } : Held)]).drop (e.held.length + 1 - heldMax u) }))

/-- Send a packet from a unit to a unit, naming the lane of a reserved transit slot and the fcrc of a fleet packet; a
destination with no populated node is not sent. -/
def sendPktL (lane : Nat) (fcrc : BitVec 32) (src dst ptype svc ssvc epoch : Nat) (fleet : Bool) (pl : List Flit) (b : Block) : Block :=
  match b.path src, b.pathTo src dst with
  | some s, some d =>
    let seq := (b.net src).seq.toNat
    sendKept src { hdr := mkHdr ptype pl.length fleet d svc epoch s ssvc seq 0, pl := pl, lane := lane, fcrc := fcrc }
      (b.modNet src (fun e => { e with seq := e.seq + 1 }))
  | _, _ => b

/-- Send a packet from a unit to a unit. -/
def sendPkt (src dst ptype svc ssvc epoch : Nat) (fleet : Bool) (pl : List Flit) (b : Block) : Block :=
  sendPktL 0 0 src dst ptype svc ssvc epoch fleet pl b

/-- An ordinary unicast. -/
def unicast (src dst svc : Nat) (pl : List Flit) (b : Block) : Block := sendPkt src dst 0 svc svc 0 false pl b

/-- Set tv from the inject-version register and seal CRC and header at injection (R293, R300, R287). -/
def sealPkt (tv : Bool) (p : Packet) : Packet :=
  let h := hSet (hSet p.hdr 6 1 (b01 tv)) 10 10 0
  { p with hdr := hSeal h, crc := pktCrc h p.pl }

/-- Add n hops or frames to age, saturating at 1,023, and regenerate hcrc (R286, R294). -/
def ageBy (n : Nat) (p : Packet) : Packet := { p with hdr := hSeal (hSet p.hdr 10 10 (min 1023 (hAge p.hdr + n))) }

/-! ### Torus geometry and direction tables (R289 to R291) -/

/-- The neighbour in direction 0 +X, 1 -X, 2 +Y, 3 -Y on a 16 x 8 torus, by index 16 y + x. -/
def torusStep (k dir : Nat) : Nat :=
  let x := k % 16
  let y := k / 16 % 8
  match dir with
  | 0 => 16 * y + (x + 1) % 16
  | 1 => 16 * y + (x + 15) % 16
  | 2 => 16 * ((y + 1) % 8) + x
  | _ => 16 * ((y + 7) % 8) + x

/-- The opposite direction: the input port on which a packet sent in direction dir arrives. -/
def opp (dir : Nat) : Nat := match dir with | 0 => 1 | 1 => 0 | 2 => 3 | _ => 2

/-- Direction along one axis of size n for offset d = (to - from) mod n, + when equal. -/
def axisDir (n d plus minus : Nat) : Option Nat := if d = 0 then none else if 2 * d ≤ n then some plus else some minus

/-- Pref and alt toward a destination when no unit is dead: along X first, then Y. -/
def geoEntry (src dst : Nat) : Nat × Nat :=
  let dx := (dst % 16 + 16 - src % 16) % 16
  let dy := (dst / 16 % 8 + 8 - src / 16 % 8) % 8
  match axisDir 16 dx 0 1, axisDir 8 dy 2 3 with
  | none, none => (4, 5)
  | some a, none => (a, 5)
  | none, some a => (a, 5)
  | some a, some c => (a, c)

/-- Distances toward dst over live units: n rounds of relaxation; 999 is unreachable. -/
def relax (dead : List Nat) (dst : Nat) : Nat → List Nat → List Nat
  | 0, d => d
  | n + 1, d => relax dead dst n ((List.range 128).map (fun k =>
      if k = dst then (if dead.contains k then 999 else 0)
      else if dead.contains k then 999
      else min (lnat d k) (1 + (List.range 4).foldl (fun m dir => min m (lnat d (torusStep k dir))) 998)))

/-- Pref and alt toward dst around dead units: directions that come nearer, the geometric choice first; 7 is UNROUTABLE. -/
def awayEntry (dead : List Nat) (src dst : Nat) : Nat × Nat :=
  if src = dst then (4, 5)
  else
    let d := relax dead dst 40 (List.replicate 128 999)
    let here := lnat d src
    if 999 ≤ here then (7, 5)
    else
      let g := geoEntry src dst
      let good := ([g.1, g.2, 0, 1, 2, 3].filter (fun dir => decide (dir < 4) && decide (lnat d (torusStep src dir) < here)))
      match dedup good with
      | [] => (7, 5)
      | [a] => (a, 5)
      | a :: c :: _ => (a, c)

/-- The table entry of a unit of a torus toward a destination. -/
def torusEntry (dead : List Nat) (src dst : Nat) : Nat × Nat :=
  if dead.isEmpty then geoEntry src dst else awayEntry dead src dst

/-- Routers that a table version routes around, by region. -/
def Block.around (b : Block) (ver : Bool) : Tab (BitVec 128) := if ver then b.ho.post.around1 else b.ho.post.around0

/-- Regions with no traffic through their nodes (R45). -/
def Block.deadNodes (b : Block) : List Nat := (List.range 128).filter (fun r => !b.populated r)

/-- Gateway columns of a member (R278). -/
def gateCols (memB : Bool) : List Nat := if memB then [7, 15] else [0, 8]

/-- The gateway routers of a member, in index order (R278). -/
def gateRouters (memB : Bool) : List Nat := (List.range 128).filter (fun k => (gateCols memB).contains (k % 16))

/-- Entry 128 or 129 at router (x, y): toward the nearer gateway column in the row, +X when equally near (R291). With routers
lost, toward the nearest gateway that is left. (DESIGN CHOICE, log 87.) -/
def gateEntry (dead : List Nat) (memB : Bool) (k : Nat) : Nat × Nat :=
  if (gateCols memB).contains (k % 16) then (4, 5)
  else if dead.isEmpty then
    let ds := (gateCols memB).map (fun c => ((c + 16 - k % 16) % 16, (k % 16 + 16 - c) % 16))
    let plus : Nat := ds.foldl (fun m d => min m d.1) 99
    let minus : Nat := ds.foldl (fun m d => min m d.2) 99
    if plus ≤ minus then (0, 5) else (1, 5)
  else
    let far (g : Nat) : Nat := lnat (relax dead g 40 (List.replicate 128 999)) k
    match ((gateRouters memB).filter (fun g => decide (far g < 999))).foldl (fun (m : Option Nat) g => match m with
      | none => some g
      | some x => if far g < far x then some g else some x) none with
    | some g => awayEntry dead k g
    | none => (7, 5)

/-- A table entry in its 8 bits, and what it says (R289). -/
def entryByte (e : Nat × Nat) : BitVec 8 := BitVec.ofNat 8 (packF [(0, e.1), (3, e.2)])
def entryOf (x : BitVec 8) : Nat × Nat := (fld x.toNat 0 3, fld x.toNat 3 3)

/-- Entry e of the table that Viloladric writes into router k of a region, around some routers (R289, R291). -/
def newEntry (dead : List Nat) (k e : Nat) : Nat × Nat :=
  if e < 128 then torusEntry dead k e else gateEntry dead (decide (e = 129)) k

/-- A direction table of a version. -/
def Router.dirs (x : Router) (ver : Bool) : Tab (BitVec 8) := if ver then x.dir1 else x.dir0
def Router.setDirs (ver : Bool) (t : Tab (BitVec 8)) (x : Router) : Router := if ver then { x with dir1 := t } else { x with dir0 := t }

/-- Write a version of a region's direction tables around some routers: entries unlike the first ones are listed (R289, R300). -/
def writeTables (ver : Bool) (r : Nat) (dead : List Nat) (b : Block) : Block :=
  forEach ((List.range 128).filter (fun k => !dead.contains k)) (fun k b => b.modRouter (128 * r + k)
    (Router.setDirs ver ((List.range 130).filterMap (fun e =>
      let n := entryByte (newEntry dead k e)
      if n = entryByte (newEntry [] k e) then none else some (e, n))))) b

/-- The entry a packet meets at router k of region r (R289, R290). -/
def Block.routerEntry (b : Block) (r k : Nat) (h : BitVec 128) : Nat × Nat :=
  let x := b.router (128 * r + k)
  let d := hDst h
  let e := if d.lvl = 0 then 16 * d.y + d.x else 128 + b01 x.serving
  match tget (x.dirs (hTv h)) e with
  | some v => entryOf v
  | none => newEntry [] k e

/-- The entry a packet meets at the node of region r (R289). -/
def Block.nodeEntry (b : Block) (r : Nat) (h : BitVec 128) : Nat × Nat :=
  match tget ((b.node r).dirs (hTv h)) (hDst h).region with
  | some v => entryOf v
  | none => torusEntry b.deadNodes r (hDst h).region

end Sys2Proof.Machine
end

