-- ==== Sys2Proof/Machine/Mail.lean ====
section
/-! DEFINITION. Gnonil operations: routes between wafers and fleet messages, letters and their checks, receipts,
sessions and the receipt cache (10_fleet_messaging, 13_gnonil_commands). -/

namespace Sys2Proof.Machine

open Sys2Proof

/-! ### Rings of wafers and routes (R313 to R316) -/

/-- Coordinates of a wafer in mixed radix (R314). -/
def coords : List Nat → Nat → List Nat
  | [], _ => []
  | l :: r, w => w % (max l 1) :: coords r (w / max l 1)

/-- The wafer with given coordinates. -/
def ofCoords : List Nat → List Nat → Nat
  | l :: r, c :: s => c + max l 1 * ofCoords r s
  | _, _ => 0

/-- Hops on ring r from coordinate a to c: leaving ports (R315). -/
def ringHops (r l a c : Nat) : List Nat :=
  let d := (c + l - a) % max l 1
  if 2 * d ≤ l then List.replicate d (2 * r) else List.replicate (l - d) (2 * r + 1)

/-- The whole route between two wafers, rings in ascending index (R315). -/
def routeOf (len : List Nat) (a c : Nat) : List Nat :=
  let ca := coords len a
  let cc := coords len c
  (List.range 8).flatMap (fun r => ringHops r (lnat len r) (lnat ca r) (lnat cc r))

/-- The wafer one hop away through a port. -/
def hopTo (len : List Nat) (w port : Nat) : Nat :=
  let c := coords len w
  let r := port / 2
  let l := max (lnat len r) 1
  ofCoords len (c.set r (if port % 2 = 0 then (lnat c r + 1) % l else (lnat c r + l - 1) % l))

/-- Wafers that the rings hold (R314). -/
def fleetSize (len : List Nat) : Nat := len.foldl (fun a l => a * max l 1) 1

/-- A Courier port that runs: enabled, powered, link up (R107 to R109). -/
def Block.portUp (b : Block) (n : Nat) : Bool :=
  let c := b.courier n
  c.powered && !c.domFail && c.en && c.linkUp

/-- The route to send by: the first 12 hops, and the relay when the route is longer (R315). None: no route (R336). -/
def Block.route (b : Block) (dst : Nat) : Option (List Nat × Option Nat) :=
  let len := b.ho.fleet.len
  let hops := routeOf len b.wafer dst
  if hops.isEmpty ∨ fleetSize len ≤ dst ∨ ¬ b.portUp (hops.getD 0 0) then none
  else if hops.length ≤ 12 then some (hops, none)
  else some (hops.take 12, some ((hops.take 12).foldl (hopTo len) b.wafer))

/-- A route flit (R288). -/
def routeFlit (dst src dunit : Nat) (hops : List Nat) : Flit :=
  BitVec.ofNat 128 (packF ([(0, dst), (16, src), (32, dunit), (56, hops.length)] ++
    (List.range hops.length).map (fun i => (64 + 5 * i, lnat hops i))))

/-- A fleet message header (R320). -/
def msgHdr (cls mtype ix last rtag n epoch final orig reqSeq : Nat) : Flit :=
  BitVec.ofNat 128 (packF [(0, cls), (8, mtype), (16, ix), (19, last), (24, rtag), (40, n), (48, epoch), (64, final), (80, orig), (96, reqSeq)])

/-- The hop by a port crosses its ring's dateline: from L - 1 to 0 or back (R316). -/
def Block.crosses (b : Block) (port : Nat) : Bool :=
  let l := lnat b.ho.fleet.len (port / 2)
  let c := lnat (coords b.ho.fleet.len b.wafer) (port / 2)
  if port % 2 = 0 then c + 1 = l else c = 0

/-- The lane of a packet that leaves by a port: collective packets by direction, others by the dateline rule, from the
port and channel of arrival (R105, R316, R317). -/
def Block.laneFor (b : Block) (cls port : Nat) (down : Bool) (arr : Option (Nat × Nat)) : Nat :=
  if cls = 3 then 6 + b01 down
  else
    let cont := match arr with
      | some (p, ch) => decide (p / 2 = port / 2) && decide (p % 2 ≠ port % 2) && decide (ch = 1)
      | none => false
    2 * cls + b01 (b.crosses port || cont)

/-- fcrc: over the route flit with hop_ptr zero, then payload flits 1 to len - 1 (R318). -/
def fcrcOf (pl : List Flit) : Nat :=
  match pl with
  | [] => 0
  | r :: rest => (crc32c (flitBytes (hSet r 60 4 0) ++ rest.flatMap flitBytes)).toNat

/-- A transit slot of a leaving port (R323). -/
def Block.slotAt (b : Block) (port lane src : Nat) : Transit := (tget (b.courier port).transit (16 * lane + src)).getD {}

/-- A port reports the counts of a source's slots to it, the Head Office's under its own index: a RELAY packet with fleet = 0
(R323). The spec lays the report out nowhere: arrived and freed, 4 bits each, by channel. (DESIGN CHOICE, log 60.) -/
def reportTo (n src : Nat) (b : Block) : Block :=
  let word := packF ((List.range 10).flatMap (fun vc => let t := b.slotAt n vc src; [(8 * vc, t.arrived.toNat), (8 * vc + 4, t.freed.toNat)]))
  sendPkt (unitCourier n) (if src = n then unitHO else unitCourier src) 0 0x15 0x15 0 false [BitVec.ofNat 128 word] b

/-- Send a fleet message of an originating wafer in fragments of 32 bytes toward a wafer by given hops (R318 to R320). -/
def sendFragsFrom (src : Nat) (hops : List Nat) (dst cls mtype rtag epoch final orig reqSeq : Nat) (bytes : List Byte) (b : Block) : Block :=
  let last := (max 1 (ceilDiv bytes.length 32)) - 1
  forEach (List.range (last + 1)) (fun i b =>
    let d := slice bytes (32 * i) 32
    let pl := [routeFlit dst src unitHO hops, msgHdr cls mtype i last rtag d.length epoch final orig reqSeq] ++ toFlits (ceilDiv d.length 16) d
    sendPktL (b.laneFor cls (hops.getD 0 0) (decide (mtype = 0x31)) none) (BitVec.ofNat 32 (fcrcOf pl)) unitHO (unitCourier (hops.getD 0 0)) 0 0x15 0x15 0 true pl b) b

/-- Send a fleet message of this wafer. -/
def sendFrags (hops : List Nat) (dst cls mtype rtag epoch final orig reqSeq : Nat) (bytes : List Byte) (b : Block) : Block :=
  sendFragsFrom b.wafer hops dst cls mtype rtag epoch final orig reqSeq bytes b

/-- Send a Reply to the wafer that holds the reply slot (R325); with no route it is lost. -/
def sendReply (mtype dst rtag reqSeq epoch : Nat) (bytes : List Byte) (b : Block) : Block :=
  match b.route dst with
  | some (hops, _) => sendFrags hops dst 1 mtype rtag epoch dst dst reqSeq bytes b
  | none => b

/-- A free reply slot (R324). -/
def Block.freeSlot (b : Block) : Option Nat := (List.range 1024).find? (fun k => (tget b.ho.fleet.slots k).isNone)

/-- Send a Request, or the Forward of a relay, that has a reply slot reserved for it; none when no slot is free or no
route exists (R325, R336). The result says BUSY (0x0307), NO_ROUTE (0x0501) or sent (0). -/
def sendRequestFrom (src mtype dst epoch : Nat) (bytes : List Byte) (ring : Option Nat) (relay : Option (Nat × Nat × Nat)) (fwd : Bool) (b : Block) : Nat × Block :=
  match b.route dst with
  | none => (0x0501, b)
  | some (hops, via) =>
    match b.freeSlot with
    | none => (0x0307, b)
    | some k =>
      let sq := b.ho.fleet.reqSeq
      let b := b.modFleet (fun f => { f with reqSeq := (sq + 1) % 65536, slots := tset f.slots k ⟨sq, b.now, ring, relay, mtype, none⟩ })
      (0, sendFragsFrom src hops (via.getD dst) (if fwd then 2 else 0) mtype k epoch dst b.wafer sq bytes b)

/-- Send a Request of this wafer. -/
def sendRequest (mtype dst epoch : Nat) (bytes : List Byte) (ring : Option Nat) (b : Block) : Nat × Block :=
  sendRequestFrom b.wafer mtype dst epoch bytes ring none false b

/-- Count a dead letter by kind: 16 letters, 17 responses for retired identifiers, 18 fleet Requests, 19 other fleet
messages, 20 job-scoped packets, 21 PARCEL_COMMIT (R394). -/
def deadLetter (kind : Nat) (b : Block) : Block :=
  hoEvent evDeadLetter [] (b.modFleet (fun f => { f with drops := tadd f.drops kind 1 }))

/-! ### Letters (R401) -/

/-- A letter as W1 takes it: its bytes and where it came from. -/
structure Letter where
  ring : Nat := 0
  bytes : List Byte := []
  /-- Source wafer of the route flit; none for a host-side ring. -/
  src : Option Nat := none
  /-- Wafer that holds the reply slot, the slot, and req_seq; none for a host-side ring. -/
  reply : Option (Nat × Nat × Nat) := none
  deriving DecidableEq, Repr

def Letter.w (l : Letter) : Nat := rd l.bytes 0 4
def Letter.ver (l : Letter) : Nat := fld l.w 0 4
def Letter.opcode (l : Letter) : Nat := fld l.w 4 12
def Letter.slot (l : Letter) : Nat := fld l.w 16 2
def Letter.unauth (l : Letter) : Bool := bit l.w 18
def Letter.retry (l : Letter) : Bool := bit l.w 19
def Letter.plen (l : Letter) : Nat := fld l.w 24 8
def Letter.seq (l : Letter) : Nat := rd l.bytes 4 4
def Letter.epoch (l : Letter) : Nat := rd l.bytes 8 2
def Letter.sender (l : Letter) : Nat := rd l.bytes 10 6
def Letter.tag (l : Letter) : Nat := rd l.bytes 16 16
def Letter.params (l : Letter) : List Byte := slice l.bytes 32 l.plen
/-- n parameter bytes at offset o; bytes beyond plen read zero. (DESIGN CHOICE, log 97.) -/
def Letter.p (l : Letter) (o n : Nat) : Nat := rd l.params o n

/-- The letter at the head of a ring (R397, R432). -/
def Block.headLetter (b : Block) (r : Nat) : Option Letter :=
  let x := b.ring r
  if r < 40 then
    if x.ltrHead = x.ltrTail then none
    else
      let base := 8192 * r + 256 * x.ltrHead
      let plen := (memRead b.letters (base + 3)).toNat
      some ⟨r, memReads b.letters base (min 256 (32 + plen)), none, none⟩
  else match x.inbox with
    | [] => none
    | (bytes, src, orig, rtag, rs) :: _ => some ⟨r, bytes, some src, some (orig, rtag, rs)⟩

/-- Drop the head letter of a ring. -/
def advanceHead (r : Nat) (b : Block) : Block :=
  b.modRing r (fun x => { x with ltrHead := (x.ltrHead + 1) % 32, inbox := x.inbox.drop 1, ready := false, away := none, relayed := false, stale := x.stale - 1 })

/-- Letters whose work goes on after an interim receipt (R410, R412 to R418, R423). -/
def longOp (op : Nat) : Bool := [0x101, 0x102, 0x106, 0x402, 0x403, 0x404, 0x405, 0x406, 0x620, 0x701, 0x804, 0x901].contains op
/-- Letters that exclude one another (R410). -/
def exclOp (op : Nat) : Bool := [0x101, 0x106, 0x620, 0x901, 0x402].contains op

/-- Every opcode of protocol version 1 (R412 to R418, R423). -/
def opcodes : List Nat :=
  [0x001, 0x002, 0x003, 0x004, 0x101, 0x102, 0x103, 0x104, 0x105, 0x106, 0x107, 0x201, 0x202, 0x203, 0x301, 0x302, 0x303,
   0x401, 0x402, 0x403, 0x404, 0x405, 0x406, 0x501, 0x502, 0x503, 0x601, 0x602, 0x610, 0x611, 0x612, 0x613, 0x620,
   0x701, 0x702, 0x703, 0x801, 0x802, 0x803, 0x804, 0x901, 0x902, 0x903]

/-- Slot s authorizes an opcode (R403). -/
def slotOk (s op : Nat) : Bool :=
  let g := op / 256
  let holder := decide (0x610 ≤ op) && decide (op ≤ 0x613)
  let stopGrp := decide (0x103 ≤ op) && decide (op ≤ 0x105)
  match s with
  | 0 => g = 0 || (g = 1 && !stopGrp) || g = 2 || g = 3 || op = 0x601 || op = 0x602 || op = 0x620 || g = 9
  | 1 => (g ≤ 7 && !holder) || g = 9
  | 2 => g = 0 || holder
  | _ => g = 0 || stopGrp || g = 8

/-- The life-cycle state permits an opcode (R273). -/
def lifeOk (lc : LifeCycle) (op : Nat) : Bool :=
  let jobs := op = 0x101 || op = 0x102 || op = 0x620
  let tests := decide (0x401 ≤ op) && decide (op ≤ 0x406)
  match lc with
  | .field => true
  | .decommissioned => !jobs && !tests
  | _ => !jobs

/-- Parameter bytes that are RSV padding, by opcode, as the tables name them (R412 to R418, R423). The bytes that fill up a
letter whose parameters end short of a multiple of 4 are none of them. (DESIGN CHOICE, log 122.) -/
def padBytes (op : Nat) : List Nat :=
  match op with
  | 0x001 => [1, 2, 3]
  | 0x101 => []
  | 0x201 => [2, 3]
  | 0x202 => [3]
  | 0x203 => [7]
  | 0x301 => [1]
  | 0x401 => [6, 7]
  | 0x402 => [18, 19]
  | 0x501 => [10, 11]
  | 0x503 => [3]
  | 0x601 => [3]
  | 0x610 => [6, 7]
  | 0x611 => [6, 7]
  | 0x612 => [2, 3]
  | 0x613 => [2, 3]
  | 0x620 => [2, 3]
  | 0x801 => [9]
  | 0x804 => [1, 2, 3]
  | 0x901 => [12, 13, 14, 15, 81, 82, 83]
  | _ => []

/-- RSV bits of parameters that are not whole padding bytes: (byte, mask). Bits [7:3] of the units byte of TEST_SWEEP are
taken as RSV. (DESIGN CHOICE, log 122.) -/
def padBits (op : Nat) : List (Nat × Nat) :=
  match op with
  | 0x402 => [(16, 0xF8)]
  | 0x803 => [(1, 0xF0), (6, 0xFE), (7, 0xFF)]
  | _ => []

/-- The first nonzero reserved field: status 0x0103 RSV_FIELD or 0x0104 GRW_FIELD with its byte offset within the
letter (R406 check 7, R485). -/
def rsvCheck (l : Letter) : Option (Nat × Nat) :=
  let op := l.opcode
  let ps := l.params
  if fld l.w 20 3 ≠ 0 then some (0x0103, 2)
  else if bit l.w 23 then some (0x0104, 2)
  else
    let pads := (padBytes op).filter (fun o => rd ps o 1 ≠ 0) ++ ((padBits op).filter (fun p => rd ps p.1 1 &&& p.2 ≠ 0)).map (·.1)
    let fmts := if op = 0x201 then (List.range (min 16 (rd ps 1 1))).flatMap (fun i =>
        let e := rd ps (4 + 8 * i) 8
        (if fld e 14 2 ≠ 0 then [(4 + 8 * i + 1, 0x0103)] else []) ++ (if fld e 32 8 ≠ 0 then [(4 + 8 * i + 4, 0x0103)] else []) ++
        (if fld e 40 8 ≠ 0 then [(4 + 8 * i + 5, 0x0103)] else []) ++ (if fld e 48 8 ≠ 0 then [(4 + 8 * i + 6, 0x0104)] else []) ++
        (if fld e 56 8 ≠ 0 then [(4 + 8 * i + 7, 0x0104)] else [])) else []
    match sortBy (fun a c => decide (a.1 ≤ c.1)) (pads.map (fun o => (o, 0x0103)) ++ fmts) with
    | [] => none
    | (o, st) :: _ => some (st, 32 + o)

/-! ### Receipts (R402, R404, R408) -/

/-- The key of a slot. -/
def Block.key (b : Block) (s : Nat) : BitVec 384 := b.keys.slots.getD s 0

/-- A letter's context, kept while it is outstanding. -/
def Letter.out (l : Letter) (acc : List Nat) : Outst :=
  ⟨l.ring, l.opcode, BitVec.ofNat 32 l.seq, l.sender, l.slot, l.unauth, l.params, acc, l.reply, false⟩

/-- The receipt's bytes, tagged with the letter's slot unless it carries a zero tag (R404). -/
def Block.sealRcpt (b : Block) (o : Outst) (zeroTag final more cached : Bool) (status part parts detail : Nat) (res : List Byte) : List Byte :=
  let mk (t : Nat) := receiptBytes o.opcode final more cached o.seq.toNat b.ledger.epoch status part parts detail t res
  if zeroTag ∨ o.unauth then mk 0 else mk (tagOf (b.key o.slot) ((mk 0).take 16 ++ res)).toNat

/-- Place a receipt in a command ring, or hold it when the slots are full (R398). A fleet ring's receipt leaves at once
as the one RECEIPT message that answers the Request (R325, R437); a later receipt of the same letter has no reply slot,
and a retry finds it in the cache. -/
def putReceipt (r : Nat) (reply : Option (Nat × Nat × Nat)) (rc : List Byte) (b : Block) : Block :=
  match reply with
  | some (orig, rtag, rs) =>
    let b := setIrqRing r (b.modRing r (fun x => { x with rcpTail := (x.rcpTail + 1) % 32, rcpHead := (x.rcpHead + 1) % 32 }))
    sendReply 0x11 orig rtag rs 0 rc b
  | none =>
    if 40 ≤ r then b
    else if (b.ring r).held.isEmpty ∧ ringRoom (b.ring r) r then placeRecord r rc b
    else b.modRing r (fun x => { x with held := x.held ++ [rc] })

/-- A receipt resent with cached = 1 (R408). -/
def Block.cachedRcpt (b : Block) (slot : Nat) (rc : List Byte) : List Byte :=
  let h := rc.take 16
  let h2 := le 16 (ofLe h - fld (ofLe h) 18 1 * 2 ^ 18 + 2 ^ 18)
  let res := rc.drop 32
  if allZero (slice rc 16 16) then h2 ++ slice rc 16 16 ++ res
  else h2 ++ le 16 (tagOf (b.key slot) (h2 ++ res)).toNat ++ res

/-- Issue a receipt for a letter: place it, keep it in the cache, and answer retries that wait (R408). (DESIGN CHOICE, log 90.) -/
def issue (o : Outst) (zeroTag final more : Bool) (status part parts detail : Nat) (res : List Byte) (b : Block) : Block :=
  let rc := b.sealRcpt o zeroTag final more false status part parts detail res
  let waiters := (b.ho.mail.cache.find? (fun e => e.sender = o.sender ∧ e.seq = o.seq)).map (·.waiting)
  let b := putReceipt o.ring o.reply rc b
  let b := b.modMail (fun m => { m with cache := m.cache.map (fun e =>
    if e.sender = o.sender ∧ e.seq = o.seq then { e with receipt := some rc, waiting := [] } else e) })
  forEach (waiters.getD []) (fun w b => putReceipt w.1 w.2 (b.cachedRcpt o.slot rc) b) b

/-- Refuse a letter at checks 1 to 5: its seq is not recorded, so the cache keeps what it holds (R407, R408). -/
def refuseA (l : Letter) (zeroTag : Bool) (status detail : Nat) (b : Block) : Block :=
  putReceipt l.ring l.reply (b.sealRcpt (l.out []) zeroTag true false false status 0 1 detail []) b

/-- Refuse an accepted letter. -/
def refuseL (l : Letter) (zeroTag : Bool) (status detail : Nat) (b : Block) : Block :=
  issue (l.out []) zeroTag true false status 0 1 detail [] b

/-- The accumulated values of an outstanding letter. -/
def Block.outAcc (b : Block) (op : Nat) : List Nat := ((b.ho.mail.outst.find? (fun o => o.opcode = op)).map (·.acc)).getD []
def modOutst (op : Nat) (f : List Nat → List Nat) (b : Block) : Block :=
  b.modMail (fun m => { m with outst := m.outst.map (fun o => if o.opcode = op then { o with acc := f o.acc } else o) })
def Block.outOp (b : Block) (op : Nat) : Bool := b.ho.mail.outst.any (fun o => o.opcode = op)

/-! ### Acceptance (R406 to R409) -/

/-- Outcome of checks 1 to 10. -/
inductive Accept where
  /-- Refused; the flag asks for a zero tag. -/
  | refuse (zeroTag : Bool) (status detail : Nat)
  /-- A retry that is answered by the cached receipt. -/
  | resend (rc : List Byte)
  /-- A retry whose original has produced no receipt yet. -/
  | wait
  /-- Passed; the new seq is to be recorded. -/
  | pass
  deriving DecidableEq, Repr

/-- The tag that the letter must carry, and the one a retry is matched by: retry taken as 0 (DEDUCED, log 20). -/
def Block.letterTag (b : Block) (l : Letter) (retry0 : Bool) : BitVec 128 :=
  let h := l.bytes.take 16
  let h := if retry0 ∧ l.retry then le 16 (ofLe h - 2 ^ 19) else h
  tagOf (b.key l.slot) (h ++ l.params)

/-- The zero key authenticates letters (R405). -/
def Block.zeroKeyOk (b : Block) : Bool := decide (b.svc.lc = .manufacture) || decide (b.svc.lc = .rma)

/-- Check 3 (R405, R406). A letter that waited at a zeroization fails, whatever its tag (R125, R132). (DEDUCED, log 20 and 121.) -/
def Block.authCheck (b : Block) (l : Letter) : Option Nat :=
  if l.unauth then (if l.opcode = 0x001 ∨ l.opcode = 0x002 then none else some 3)
  else if (b.key l.slot = 0 ∨ 0 < (b.ring l.ring).stale) ∧ ¬ b.zeroKeyOk then some 2
  else if 0 < (b.ring l.ring).stale then some 1
  else if BitVec.ofNat 128 l.tag = b.letterTag l false then none else some 1

/-- A seq is new for a sender (R407). -/
def Block.seqNew (b : Block) (sender seq : Nat) : Bool :=
  match tget b.ledger.senders sender with
  | none => true
  | some last => let d := (seq + 2 ^ 32 - last.toNat) % 2 ^ 32; decide (1 ≤ d) && decide (d ≤ 2 ^ 31 - 1)

/-- Checks 1 to 5: also says whether the letter's seq is to be recorded. -/
def Block.checksA (b : Block) (l : Letter) : Accept :=
  let bad4 := match l.src with
    | some src => decide (l.sender / 2 ^ 32 ≠ src)
    | none => b.ho.mgmt.waferVld && decide (l.sender / 2 ^ 32 ≠ b.wafer)
  if l.ver ≠ 1 then .refuse true 0x0100 0
  else if 224 < l.plen ∨ l.plen % 4 ≠ 0 ∨ 32 + l.plen ≠ l.bytes.length then .refuse true 0x0101 0
  else match b.authCheck l with
  | some d => .refuse true 0x0200 d
  | none =>
    if bad4 then .refuse false 0x0108 0
    else if b.seqNew l.sender l.seq then
      (if (tget b.ledger.senders l.sender).isNone ∧ 40960 ≤ b.ledger.senders.length then .refuse false 0x0500 0 else .pass)
    else if l.retry then
      match b.ho.mail.cache.find? (fun e => e.sender = l.sender ∧ e.seq = BitVec.ofNat 32 l.seq) with
      | none => .refuse false 0x0106 0
      | some e =>
        if e.tag ≠ (if l.unauth then 0 else b.letterTag l true) then .refuse false 0x0105 0
        else match e.receipt with
          | some rc => .resend rc
          | none => .wait
    else .refuse false 0x0105 0

/-- Checks 6 to 10. -/
def Block.checksB (b : Block) (l : Letter) : Option (Nat × Nat) :=
  if l.opcode ≠ 0x001 ∧ ¬ b.ho.mail.sessions.contains l.sender then some (0x0107, 0)
  else match rsvCheck l with
  | some e => some e
  | none =>
    if ¬ opcodes.contains l.opcode then some (0x0102, 0)
    else if ¬ slotOk l.slot l.opcode ∧ ¬ l.unauth then some (0x0201, 0)
    else if ¬ lifeOk b.svc.lc l.opcode then some (0x0202, 0)
    else none

/-- Record an accepted seq and open a cache entry, keeping the newest 1,024 (R407, R408). -/
def recordSeq (l : Letter) (b : Block) : Block :=
  let t := if l.unauth then 0 else b.letterTag l true
  (b.modLedger (fun d => { d with senders := tset d.senders l.sender (BitVec.ofNat 32 l.seq) })).modMail
    (fun m => { m with cache := (⟨l.sender, BitVec.ofNat 32 l.seq, t, none, []⟩ :: m.cache).take 1024 })

/-- Service states in which letters are consumed (R338). -/
def Block.consumes (b : Block) : Bool :=
  b.hoRuns && (match b.svc.state with | .booting => false | .coldReset => false | _ => true)

/-- Take the letters at the head of a ring until one waits for its row, goes to another wafer, or the ring stops
(R397, R398, R406). (DESIGN CHOICE, log 97.) -/
def pump (r : Nat) (fuel : Nat) (b : Block) : Block :=
  match fuel with
  | 0 => b
  | n + 1 =>
    let x := b.ring r
    if ¬ b.consumes ∨ x.ready ∨ x.busy ∨ x.away.isSome ∨ ¬ x.held.isEmpty ∨ ¬ ringRoom x r then b
    else match b.headLetter r with
    | none => b
    | some l =>
      if r < 40 ∧ b.ho.mgmt.waferVld ∧ x.dest.toNat ≠ b.wafer then b.modRing r (fun x => { x with away := some x.dest.toNat })
      else match b.checksA l with
      | .refuse z st d => pump r n (advanceHead r (refuseA l z st d b))
      | .resend rc => pump r n (advanceHead r (putReceipt r l.reply (b.cachedRcpt l.slot rc) b))
      | .wait => pump r n (advanceHead r (b.modMail (fun m => { m with cache := m.cache.map (fun e =>
          if e.sender = l.sender ∧ e.seq = BitVec.ofNat 32 l.seq then { e with waiting := e.waiting ++ [(r, l.reply)] } else e) })))
      | .pass =>
        let b := recordSeq l b
        match b.checksB l with
        | some (st, d) => pump r n (advanceHead r (refuseL l false st d b))
        | none => b.modRing r (fun x => { x with ready := true })

/-- The ring of a letter goes on once its first receipt is out (R398). -/
def unbusy (r : Nat) (b : Block) : Block := pump r 32 (b.modRing r (fun x => { x with busy := false }))

/-- End an outstanding letter of an opcode with its final receipt (R410). -/
def finishOp (op status detail : Nat) (res : List Byte) (b : Block) : Block :=
  match b.ho.mail.outst.find? (fun o => o.opcode = op) with
  | none => b
  | some o =>
    let b := issue o false true false status 0 1 detail res (b.modMail (fun m => { m with outst := m.outst.filter (fun x => x.opcode ≠ op) }))
    if o.silent then unbusy o.ring b else b

/-- The first receipt of an outstanding letter that has produced none (R412, LAUNCH). -/
def firstReceipt (op : Nat) (res : List Byte) (b : Block) : Block :=
  match b.ho.mail.outst.find? (fun o => o.opcode = op) with
  | none => b
  | some o =>
    if o.silent then
      unbusy o.ring (issue o false false false 1 0 1 0 res (b.modMail (fun m => { m with outst := m.outst.map (fun (x : Outst) =>
        if x.opcode = op then { x with silent := false, reply := none } else x) })))
    else b

/-- Pump every ring: on entering a state that admits letters. -/
def pumpAll (b : Block) : Block := forEach (List.range 56) (fun r b => pump r 32 b) b

/-- Room has come in a ring: place held receipts, then take letters (R398). -/
def drainHeld (r : Nat) (b : Block) : Block :=
  match (b.ring r).held with
  | rc :: _ => if ringRoom (b.ring r) r then pump r 32 (placeRecord r rc (b.modRing r (fun x => { x with held := x.held.drop 1 }))) else b
  | [] => pump r 32 b

/-- Check 11: the status with which a service state refuses an opcode (R337, R338, R364). -/
def admits (st : SvcState) (op : Nat) : Option Nat :=
  let ident := [0x001, 0x002, 0x003, 0x004].contains op
  let query := op = 0x302 || op = 0x303
  let dbg := op / 256 = 8
  match st with
  | .ready => if op = 0x102 || op = 0x103 || op = 0x106 then some 0x0304 else none
  | .job => none
  | .bringup => if ident || query || op = 0x104 || op = 0x105 || op = 0x702 || dbg then none else some 0x0300
  | .warmReset => if op = 0x701 then some 0x0307
      else if ident || query || op = 0x702 || (dbg && op ≠ 0x804) then none else some 0x0300
  | .safe => if ident || query || op = 0x702 || dbg then none else some 0x0301
  | .outOfService => if ident || op = 0x702 || op = 0x703 || dbg then none else some 0x0302
  | _ => some 0x0300

/-- Groups whose job_epoch is checked (R406 check 12, R394). -/
def epochOp (op : Nat) : Bool := let g := op / 256; g = 1 || g = 2 || g = 3 || g = 6

/-- What a letter's own meaning answers. -/
inductive Reply where
  /-- Refused with status and detail; nothing carried out. -/
  | refuse (status detail : Nat)
  /-- One final receipt OK. -/
  | done (res : List Byte) (b : Block)
  /-- Outstanding with no receipt yet: its ring waits for the first one. -/
  | later (acc : List Nat) (b : Block)
  /-- An interim receipt; the letter is outstanding with these values. -/
  | interim (res : List Byte) (acc : List Nat) (b : Block)
  /-- An interim receipt followed at once by the final one. -/
  | whole (res : List Byte) (status detail : Nat) (res2 : List Byte) (b : Block)
  /-- A multi-part receipt. -/
  | parts (res : List (List Byte)) (b : Block)
  deriving DecidableEq, Repr

/-- The letter of an opcode waits at the head of a ring for its row. -/
def Block.letterDue (b : Block) (r op : Nat) : Bool :=
  match b.headLetter r with
  | none => false
  | some l => b.consumes && (b.ring r).ready && decide (l.opcode = op)

/-- A letter without its reply slot: its receipts after the first go by LETTER_FWD's rules (R325). -/
def Letter.rest (l : Letter) : Letter := { l with reply := none }

/-- The letter at the head is done with: the ring goes on to the next (R398). -/
def nextLetter (r : Nat) (b : Block) : Block := pump r 32 (advanceHead r b)

/-- Refuse the letter with a status and detail (R404, R406). -/
def answerRefuse (r : Nat) (l : Letter) (st d : Nat) (b : Block) : Block := nextLetter r (refuseL l false st d b)
/-- One final receipt OK (R402). -/
def answerOk (r : Nat) (l : Letter) (res : List Byte) (b : Block) : Block := nextLetter r (issue (l.out []) false true false 0 0 1 0 res b)
/-- No receipt yet: the letter is outstanding and its ring waits for the first one (R398, R410). -/
def answerLater (r : Nat) (l : Letter) (acc : List Nat) (b : Block) : Block :=
  (advanceHead r (b.modMail (fun m => { m with outst := m.outst ++ [{ l.out acc with silent := true }] }))).modRing r (fun x => { x with busy := true })
/-- An interim receipt; the letter is outstanding (R410). -/
def answerInterim (r : Nat) (l : Letter) (res : List Byte) (acc : List Nat) (b : Block) : Block :=
  nextLetter r (issue (l.out acc) false false false 1 0 1 0 res (b.modMail (fun m => { m with outst := m.outst ++ [l.rest.out acc] })))
/-- An interim receipt and at once the final one (R410). -/
def answerWhole (r : Nat) (l : Letter) (res : List Byte) (st d : Nat) (res2 : List Byte) (b : Block) : Block :=
  nextLetter r (issue (l.rest.out []) false true false st 0 1 d res2 (issue (l.out []) false false false 1 0 1 0 res b))
/-- A receipt in parts (R403). -/
def answerParts (r : Nat) (l : Letter) (ps : List (List Byte)) (b : Block) : Block :=
  nextLetter r (forEach (List.range ps.length) (fun i b =>
    issue ((if i = 0 then l else l.rest).out []) false (decide (i + 1 = ps.length)) (decide (i + 1 < ps.length)) 0 i ps.length 0 (ps.getD i []) b) b)

/-- Carry out the letter of an opcode that waits at the head of a ring: checks 11 and 12, the limits on long letters (a
second LAUNCH is left to R154), the letter's own meaning, its receipts; then the ring goes on (R398, R406, R410). Any
other ring is left as it is. (DESIGN CHOICE, log 97.) -/
def letterRow (r op : Nat) (f : Letter → Block → Reply) (b : Block) : Block :=
  match b.headLetter r with
  | none => b
  | some l =>
    if ¬ b.letterDue r op then b
    else match admits b.svc.state op with
    | some st => answerRefuse r l st 0 b
    | none =>
      if epochOp op ∧ l.epoch ≠ 0 ∧ l.epoch ≠ b.ledger.epoch then deadLetter 16 (answerRefuse r l 0x0305 0 b)
      else if longOp op ∧ op ≠ 0x102 ∧ b.outOp op then answerRefuse r l 0x0307 0 b
      else if exclOp op ∧ b.ho.mail.outst.any (fun o => exclOp o.opcode) then answerRefuse r l 0x0307 0 b
      else match f l b with
      | .refuse st d => answerRefuse r l st d b
      | .done res b => answerOk r l res b
      | .later acc b => answerLater r l acc b
      | .interim res acc b => answerInterim r l res acc b
      | .whole res st d res2 b => answerWhole r l res st d res2 b
      | .parts ps b => answerParts r l ps b

/-- End every long letter in flight with a status, as a warm reset and a teardown ask (R427). -/
def abortLong (status : Nat) (skip : Nat → Bool) (b : Block) : Block :=
  forEach ((b.ho.mail.outst.filter (fun o => !skip o.opcode)).map (·.opcode)) (fun op b => finishOp op status 0 [] b) b

end Sys2Proof.Machine
end

