-- ==== Sys2Proof/Machine/Stops.lean ====
section
/-! DEFINITION. Stops, releases and resumption, collectives, ending a job, SAFE, persisting the Ledger: the shared
operations that many commands call (15_debug_and_counters, 10_fleet_messaging, 12_parcels, 03_system_ports). -/

namespace Sys2Proof.Machine

open Sys2Proof

/-! ### Collectives (R327) -/

/-- The port from a wafer toward its parent, and the parent; none at the root. -/
def parentOf (len : List Nat) (w : Nat) : Option (Nat × Nat) :=
  let c := coords len w
  match (List.range 8).find? (fun r => lnat c r ≠ 0) with
  | none => none
  | some r =>
    let port := if 2 * lnat c r ≤ lnat len r then 2 * r + 1 else 2 * r
    some (port, hopTo len w port)

/-- The children of a wafer: (port toward it, wafer). -/
def childrenOf (len : List Nat) (w : Nat) : List (Nat × Nat) :=
  let near := (List.range 16).map (fun p => (p, hopTo len w p))
  (near.filter (fun c => decide (c.2 ≠ w) && decide ((parentOf len c.2).map (·.2) = some w))).foldl
    (fun acc c => if acc.any (fun d => d.2 = c.2) then acc else acc ++ [c]) []

/-- Combine two contributions under an operation: 0 SUM, 1 MIN, 2 MAX, 3 AND, 4 OR. -/
def combine (op : Nat) (a c : List Nat) : List Nat :=
  (List.range 4).map (fun i =>
    let x := lnat a i
    let y := lnat c i
    match op with
    | 0 => (x + y) % 2 ^ 64
    | 1 => min x y
    | 2 => max x y
    | 3 => x &&& y
    | _ => x ||| y)

/-- Send a collective packet over one tree edge (R320, R327). -/
def sendColl (port dst mtype id op : Nat) (vals : List Nat) (b : Block) : Block :=
  if b.portUp port then
    sendFrags [port] dst 3 mtype (id + 16 * op) b.ledger.epoch dst b.wafer b.ho.fleet.reqSeq (vals.flatMap (le 8)) b
  else b

/-- Every attempt for the due count has been voted without a parcel (R376). -/
def Block.spentVotes (b : Block) : Bool := b.ho.parcel.due.isSome && decide (b.ho.policy.attempts ≤ b.ho.parcel.votes)

/-- The due count that waits is skipped (R376, R395). -/
def skipDue (b : Block) : Block := hoEvent evParcelSkipped [] (b.modParcel (fun p => { p with due := none }))

/-- What a result means to the services that use collectives: id 14 carries R* (R458), id 15 the parcel vote (R376). -/
def collEffect (id : Nat) (vals : List Nat) (b : Block) : Block :=
  if id = 14 then
    if b.stop.stopped ∧ b.stop.ownR.isSome ∧ b.ho.job.launched ∧ b.now ≤ lnat vals 0 then
      b.modStop (fun s => { s with resumeAt := some (lnat vals 0) })
    else b
  else if id = 15 then
    if b.ho.parcel.voting ∧ b.now + 300000 ≤ b.nextSlot then
      if lnat vals 0 % 2 = 1 then
        b.modParcel (fun p => { p with voting := false, stopAt := if b.inJob then some b.nextSlot else none })
      else
        let b := b.modParcel (fun p => { p with voting := false })
        if b.spentVotes then skipDue b else b
    else b
  else b

/-- A result reaches this wafer: passed to every child, then applied. -/
def collResult (id op : Nat) (vals : List Nat) (b : Block) : Block :=
  let b := forEach (childrenOf b.ho.fleet.len b.wafer) (fun c b => sendColl c.1 c.2 0x31 id op vals b) b
  collEffect id vals (b.modFleet (fun f => { f with coll := tdel f.coll id }))

/-- When every contribution is in: send the combination up, or at the root send the result down. -/
def collCheck (id : Nat) (b : Block) : Block :=
  match tget b.ho.fleet.coll id with
  | none => b
  | some c =>
    match c.own with
    | none => b
    | some own =>
      if c.kids.length < (childrenOf b.ho.fleet.len b.wafer).length then b
      else
        let v := c.kids.foldl (fun a k => combine c.op a k.2) own
        match parentOf b.ho.fleet.len b.wafer with
        | none => collResult id c.op v b
        | some (port, dst) => sendColl port dst 0x30 id c.op v b

/-- This wafer contributes to a collective. -/
def contribute (id op : Nat) (vals : List Nat) (b : Block) : Block :=
  collCheck id (b.modFleet (fun f =>
    let c := (tget f.coll id).getD { op := op, since := b.now }
    { f with ended := f.ended.filter (· ≠ id), coll := tset f.coll id { c with op := op, own := some vals } }))

/-! ### Originating and taking a stop (R127, R452 to R457) -/

/-- Codes of STOP_STATUS.cause (R440). (DESIGN CHOICE, log 80.) -/
def causeCode : StopCause → Nat
  | .urgentLetter => 1 | .stopCtrl => 2 | .stopAt => 3 | .syncSlip => 4 | .launchAbort => 5 | .parcelVoteLate => 6
  | .parcelOverrun => 7 | .teardown => 8 | .shutdown => 9 | .parcelStop => 10

/-- S_u: the smallest multiple of 1,000 ticks that is at least c + 500 (R452). -/
def urgentCount (c : Nat) : Nat := roundUp (c + 500) 1000

/-- A stop is in force or under way. -/
def Block.inForce (b : Block) : Bool := b.stop.stopped || b.stop.at_.isSome

/-- Outside a job the newest leg measurements apply (R144). -/
def applyLegs (b : Block) : Block :=
  if b.inJob then b
  else b.modPm (fun p => { p with
    offsets := p.fresh.foldl (fun (t : Tab Nat) x => tset t x.1 x.2) p.offsets
    fresh := []
    drifted := p.drifted.filter (fun n => (tget p.fresh n).isNone) })

/-- An armed LAUNCH is cancelled: its cores stay in pre-launch hold and its receipt reports LAUNCH_ABORTED (R152, R154). (DESIGN CHOICE, log 80.) -/
def abortLaunch (b : Block) : Block :=
  if b.ho.job.armed then
    let res := le 8 b.ho.job.launchAt ++ le 8 b.ho.job.armedAt ++ le 4 b.ho.job.armedCnt
    finishOp 0x102 0x0600 0 res <| applyLegs (forEach b.workCores (fun i b => b.modCore i (fun c => { c with time := { c.time with armed := none } }))
      (b.modJob (fun j => { j with armed := false })))
  else b

/-- Begin the st_stop_out_n pulse (R127, R454). -/
def pulseStop (b : Block) : Block :=
  if b.outs.stopOutN then (b.modOuts (fun o => { o with stopOutN := false })).modStop (fun s => { s with pulseAt := some b.now }) else b

/-- What an urgent cause disarms, with a stop in force or not: an armed launch, scheduled stop, parcel stop or
resumption (R152, R154, R377, R472). -/
def disarm (b : Block) : Block :=
  abortLaunch ((b.modStop (fun s => { s with sched := none, ownR := none, resumeAt := none })).modParcel (fun p => { p with stopAt := none }))

/-- The stop-tree root registers an urgent cause while no stop is in force: the stop count is S_u (R452). -/
def registerUrgent (b : Block) : Block := disarm (b.modStop (fun s => { s with at_ := some (urgentCount b.now) }))

/-- Record a local cause (R440, R472). -/
def addCause (c : StopCause) (b : Block) : Block :=
  b.modStop (fun s => { s with causes := if s.causes.contains c then s.causes else s.causes ++ [c], last := some c })

/-- This wafer originates an urgent stop: recorded, and when no stop is in force it gates at S_u and pulses
st_stop_out_n. During a stop no new stop count comes of it, but it disarms what is armed (R154, R454, R472). -/
def originate (c : StopCause) (b : Block) : Block :=
  let b := addCause c b
  if b.inForce then disarm b else pulseStop (registerUrgent b)

/-- A stop received on st_stop_in_n: the latch sets and nothing is echoed (R126, R127, R454). -/
def receiveStop (b : Block) : Block :=
  let b := b.modStop (fun s => { s with latch := true })
  if b.inForce then disarm b else registerUrgent b

/-- The count of this wafer's own stop, for the URGENT_STOP receipt (R412). -/
def Block.stopCount (b : Block) : Nat := b.stop.at_.getD b.stop.lastAt.toNat

/-- The cores are powered and out of reset, so that their Letterboxes act. -/
def Block.liveCores (b : Block) : List Nat := b.presentCores.filter (fun i => (b.core i).porN)

/-- A test runs on the core: its unit has been requested. -/
def Core.underTest (c : Core) : Bool := match c.ctl.test with | some u => u.requested | none => false

/-- A stop record (R456). The skew of a core in core-cycle mode is a free value; of any other core it is zero. (DESIGN CHOICE, log 17.) -/
def stopRecord (c : Core) (cyc step skew : Nat) : BitVec 128 :=
  BitVec.ofNat 128 (packF [(0, cyc), (48, c.time.lastMs.getD 0), (54, b01 c.time.lastMs.isSome), (55, b01 c.underTest),
    (56, b01 (!c.pins.fenceN || !c.pins.holdN)), (57, b01 c.ctl.cap.isSome), (58, b01 c.time.cmode), (64, step), (96, skew)])

/-- Core cycles that a core of region r has run in the slot at count t, those gated by an earlier stop of the slot left out,
whether it fell before T_end or after (R456, R459). -/
def Block.slotCyc (b : Block) (r t : Nat) : Nat :=
  if b.ho.job.inSlot then ticksCyc (b.rcfg r) (t - b.ho.job.slotAt - b.ho.job.shift - b.ho.job.lateShift) % 2 ^ 48 else 0

/-- One Letterbox takes the stop: it writes its record and gates its core. A core under test is not gated, and its unit
ends ABORTED; a unit that is placed and not yet requested waits. A capture goes on: its core advances nothing, and is
gated when the capture ends ("When controls meet" of 02_core_tap_port; R73, R455, R456). -/
def gateCore (t i : Nat) (b : Block) : Block :=
  let w := freshWord b
  let b := if (b.core i).time.cmode then w.2 else b
  let skew := if (b.core i).time.cmode then fld w.1.toNat 0 32 else 0
  let cyc := b.slotCyc (regionOf i) t
  b.modCore i (fun c =>
    let rc := stopRecord c cyc b.ho.job.step skew
    if c.underTest then { c with ctl := { c.ctl with stopRec := rc, test := c.ctl.test.map (fun u => { u with aborted := true }) } }
    else { c with
      pins := { c.pins with cgN := c.pins.cgN && c.ctl.cap.isSome }
      time := { c.time with armed := none }
      ctl := { c.ctl with stopRec := rc, stopGated := true } })

/-- Every Letterbox gates its core at count t; the stop is in force (R453, R455). -/
def gateAll (t : Nat) (b : Block) : Block :=
  let early := b.ho.job.launched && b.ho.job.inSlot && decide (t < b.tEnd)
  let b := forEach b.liveCores (gateCore t) b
  let b := b.modStop (fun s => { s with stopped := true, at_ := none, lastAt := BitVec.ofNat 64 t })
  if early then b.modJob (fun j => { j with hoReasons := maskSet j.hoReasons 9 true }) else b

/-- Take an urgent or scheduled stop at count t: records, STOP_TAKEN, and the causes that clear themselves once the
stop has taken effect (R456, R457). (DESIGN CHOICE, log 106.) -/
def takeStop (t : Nat) (b : Block) : Block :=
  let n := (b.liveCores.filter (fun i => let c := b.core i; c.underTest || !c.pins.fenceN || !c.pins.holdN)).length
  let cause := match b.stop.last with | some c => causeCode c | none => 0
  let b := hoEvent evStopTaken (le 8 t ++ [BitVec.ofNat 8 cause] ++ [0, 0, 0] ++ le 4 n) (gateAll t b)
  b.modStop (fun s => { s with causes := s.causes.filter (fun c => c ≠ .parcelVoteLate) })

/-- Clear a local cause (R457). -/
def clearCause (c : StopCause) (b : Block) : Block := b.modStop (fun s => { s with causes := s.causes.filter (· ≠ c) })

/-- Ungate the cores that a stop holds (R73, R459): the gated cycles are counted, and a core that the pre-launch hold
or a fence keeps gated stays gated. -/
def ungateAll (b : Block) : Block :=
  let d := b.now - b.stop.lastAt.toNat
  (forEach b.liveCores (fun i b =>
    if (b.core i).ctl.stopGated then
      (bumpCtr i 0x0015 (ticksCyc (b.rcfg (regionOf i)) d) b).modCore i (fun c => { c with
        pins := { c.pins with cgN := c.ctl.cap.isSome || (!c.ctl.launchGated && (c.pins.holdN || c.ctl.fencing || !c.ctl.toHold)) }
        ctl := { c.ctl with stopGated := false } })
    else b) b).modStop (fun s => { s with stopped := false, ownR := none, resumeAt := none })

/-- A stop holds back new notices until its release; a parcel stop holds back none (R132). (DESIGN CHOICE, log 57.) -/
def Block.franksHeld (b : Block) : Bool :=
  b.stop.stopped && b.stop.ownR.isNone && (b.stop.latch || b.stop.causes.any (fun c => decide (c ≠ .parcelStop)))

/-- The notice that a Frank port would present next is held back: by a stop (R132), or in SAFE, where no Frank is
issued (R30). -/
def Block.noticeHeld (b : Block) (n : Nat) : Bool :=
  b.franksHeld || (decide (b.svc.state = .safe) && (match (b.courier n).notices with | x :: _ => x.frank | [] => false))

/-- A Frank port presents its oldest notice (R101). (DESIGN CHOICE, log 57.) -/
def presentHead (n : Nat) (b : Block) : Block :=
  if b.noticeHeld n then b else b.modCourier n (fun c => { c with frVld := c.frVld || !c.notices.isEmpty })

/-- Every Frank port presents what waits: at a release (R132). (DESIGN CHOICE, log 57.) -/
def presentAll (b : Block) : Block := forEach (List.range 16) presentHead b

/-- A stop whose causes and latch are clear is released (R457, R458). With a launched job this wafer contributes its
resume count to collective 14; with none the stop ends and it contributes 0. (DESIGN CHOICE, log 78 and 106.) -/
def releaseStop (b : Block) : Block :=
  let b := hoEvent evStopReleased [] b
  if b.ho.job.launched then
    let r := roundUp (b.now + 20000000) 1000000
    contribute 14 2 [r, 0, 0, 0] (presentAll (b.modStop (fun s => { s with ownR := some r })))
  else contribute 14 2 [0, 0, 0, 0] (presentAll (ungateAll b))

/-- The release test of R128 and R457: causes clear, latch clear, st_stop_in_n high. -/
def Block.releasable (b : Block) : Bool :=
  b.stop.stopped && b.stop.causes.isEmpty && !b.stop.latch && b.env.stopInN && b.stop.ownR.isNone

/-! ### SAFE (R30, R337) -/

/-- SAFE (R30, R113, R337): every host core is fenced and held in reset, no Frank is issued, the alarm shows the
cause, and after LOCKSTEP or HO_TEST_FAIL the controller cores stop. A SAFE already entered keeps the cause it was
entered with; a reset under way ends with it, so that a new cold cause is taken (R90, R361). (DESIGN CHOICE, log 39 and 41 and 42.) -/
def enterSafe (code : Nat) (b : Block) : Block :=
  let b := raiseAlarm code b
  let b := if b.svc.state = .safe then b else setSvc .safe (b.modSvc (fun s => { s with safeCause := code, reset := 0 }))
  let b := if code = 2 ∨ code = 3 then b.modSvc (fun s => { s with halted := true }) else b
  let b := forEach b.liveCores (fun i b => b.modCore i (fun c => settleTags { c with pins := holdPins c.pins, scr := closeTiles c.scr })) b
  let b := setGen (b.ledger.inGen.map (fun g => if g.state = .capturing then { g with state := .failed } else g)) b
  (endFills b).modJob (fun j => { j with due := [] })

/-! ### Persisting the Ledger (R118, R119, R122) -/

/-- Pages of one persist: 272 MiB in 4 KiB pages (R118). -/
def ledgerPages : Nat := 69632

/-- The Archive command of a persist's step: body pages of 256, flush, header page, flush (R119, R120, R122). -/
def persistCmd (toB : Bool) (step page : Nat) : BitVec 2 × BitVec 32 × BitVec 8 :=
  let base := if toB then 0x30000 else 0x10000
  match step with
  | 0 => (1, BitVec.ofNat 32 (base + 1 + page), BitVec.ofNat 8 (min 256 (ledgerPages - page) - 1))
  | 2 => (1, BitVec.ofNat 32 base, 0)
  | _ => (2, 0, 0)

/-- The slots of the Archive that hold a valid Ledger (R122). -/
def Archive.validA (a : Archive) : Option LedgerImage := a.slotA.filter (·.valid)
def Archive.validB (a : Archive) : Option LedgerImage := a.slotB.filter (·.valid)

/-- Sequence number of the newest persisted Ledger. -/
def newestSeq (a : Archive) : Nat := max ((a.validA.map (·.seq)).getD 0) ((a.validB.map (·.seq)).getD 0)

/-- Start a persist into the slot that does not hold the newest valid copy (R122). A persist under way goes on. -/
def startPersist (b : Block) : Block :=
  if ¬ b.hoRuns ∨ ¬ b.svc.ledgerOk ∨ ¬ b.env.arPresent ∨ b.arch.step.isSome then b
  else
    let toB := match b.arch.validA, b.arch.validB with
      | some x, some y => decide (y.seq ≤ x.seq)
      | some _, none => true
      | _, _ => false
    { b with
      arch := { b.arch with step := some 0, page := 0, toB := toB }
      outs := { b.outs with arCmd := some (persistCmd toB 0 0) } }

/-! ### Abandoning a parcel, ending a job (R118, R356, R384, R393) -/

/-- A parcel being taken fails: PARCEL_FAILED, and the older generations stand (R384). No page is left to be read, so an
overrun's stop is clear (R457). -/
def failParcel (b : Block) : Block :=
  match b.taking with
  | some g =>
    hoEvent evParcelFailed [] ((setGen (some { g with state := .failed }) (clearCause .parcelOverrun b)).modParcel (fun p => { p with
      committing := false
      pagesLeft := 0
      base1 := none
      base2 := none
      done1 := []
      done2 := []
      crcs := []
      records := []
      todo := []
      writes := []
      retries := [] }))
  | none => b

/-- A parcel in capture is abandoned (R118, R356). -/
def abandonCapture (b : Block) : Block := if b.capturing then failParcel b else b

/-- The next job epoch: 1 to 65,535, then 1 (R392). -/
def nextEpoch (e : Nat) : Nat := if e = 65535 then 1 else e + 1

/-- Services whose packets belong to a job (R393). -/
def jobSvc (svc : Nat) : Bool := [0x01, 0x02, 0x04, 0x06, 0x10, 0x14].contains svc

/-- Steps 1 to 3 of R393: the stop, the new epoch, and the job's work abandoned. The quiesce counters are then awaited.
What waited for a step boundary takes effect, since no job is launched or armed (R230, R232). (DESIGN CHOICE, log 116; DEDUCED, log 148.) -/
def beginTeardown (b : Block) : Block :=
  let b := endFills (abortLaunch (if b.inJob then originate .teardown b else b))
  let b := b.modLedger (fun l => { l with epoch := nextEpoch l.epoch, inGen := l.inGen.filter (fun g => decide (g.state ≠ .reserving)) })
  let b := abandonCapture b
  let b := forEach (b.ho.fleet.coll.map (·.1)) (fun id b =>
    match tget b.ho.fleet.coll id with
    | some c => if c.own.isNone then contribute id c.op (if id = 15 then [1, 1, 1, 1] else [0, 0, 0, 0]) b else b
    | none => b) b
  let b := forEach b.popRegions (fun r b => b.modOffice r (fun o => { o with
    st := {}
    reload := false
    bursts := []
    dice := { o.dice with promos := [] }
    testq := o.testq.filter (fun u => u.trigger ≠ .fill) })) b
  let b := forEach b.workCores (fun i b => b.modCore i (fun c => { c with
    scr := { c.scr with burst := 0, desc := [], reads := [] }
    net := ({ c.net with
      tx := c.net.tx.filter (fun p => !jobSvc (hSvc p.hdr))
      seam := c.net.seam.filter (fun x => !jobSvc (hSvc x.pkt.hdr)) }).shift })) b
  let b := b.allCores (fun c => { c with net := { c.net with fwd := none } })
  let b := b.modParcel (fun p => { p with due := none, voting := false, votes := 0, stopAt := none })
  let b := b.modFleet (fun f => { f with streams := [], bulkOut := [] })
  let b := b.modJob (fun j => { j with
    man := none
    armed := false
    launched := false
    inSlot := false
    stopNext := false
    due := []
    hoReasons := 0
    recs := []
    egress := []
    stalls := []
    lateShift := 0
    shift := 0
    unarmed := []
    hangs := 0
    replay := 0
    withheld := 0
    graphed := false
    shifts := []
    decided := false
    tearing := some b.now
    forcedX := 0
    forcedR := 0 })
  publishDue (boundaryAll b)

/-- The results of a teardown: new epoch, forced transfers, forced reply slots and copies (R393, R412). -/
def teardownRes (b : Block) : List Byte :=
  le 2 b.ledger.epoch ++ [0, 0] ++ le 4 b.ho.job.forcedX ++ le 4 b.ho.job.forcedR

/-- A count summed over the units of a table. -/
def tsum {α : Type} (f : α → Nat) (t : Tab α) : Nat := t.foldl (fun a p => a + f p.2) 0

/-- Packet copies of job-scoped services that a unit still holds. -/
def heldJob (e : NetEnd) : Nat := (e.held.filter (fun h => jobSvc (hSvc h.pkt.hdr))).length

/-- The quiesce counters of R393 but the packet copies, which 13,000 ticks bound (R294). -/
def Block.quiet (b : Block) : Bool :=
  b.units.couriers.all (fun p => p.2.xfers.all (·.retired) && p.2.notices.isEmpty) && b.ho.fleet.slots.isEmpty && b.ho.fleet.streams.isEmpty && b.ho.fleet.bulkOut.isEmpty

/-- Drop every held copy of a job-scoped packet: after 13,000 ticks none is in flight (R294, R393). -/
def dropCopies (b : Block) : Block :=
  let keep (e : NetEnd) : NetEnd := { e with held := e.held.filter (fun h => !jobSvc (hSvc h.pkt.hdr)) }
  let b := b.allCores (fun c => { c with net := keep c.net })
  let b := b.allOffices (fun o => { o with memA := { o.memA with net := keep o.memA.net }, memB := { o.memB with net := keep o.memB.net } })
  let b := b.allCouriers (fun c => { c with net := keep c.net, netI := keep c.netI, netE := keep c.netE })
  b.modPost (fun p => { p with net := keep p.net })

/-- Raise rs_warm_req (R89, R356, R357). (DESIGN CHOICE, log 33.) -/
def raiseWarm (b : Block) : Block :=
  (b.modOuts (fun o => { o with warmReq := true })).modSvc (fun s => { s with resetDue := b.now + 300000000, hostDone := false })

/-- Steps 5 and 6 of R393: JOB_ENDED, the causes that the teardown clears, the final receipt, READY. In a warm reset
the request to the host follows (R356). (DESIGN CHOICE, log 106 and 107.) -/
def endTeardown (b : Block) : Block :=
  let b := hoEvent evJobEnded (teardownRes b) (dropCopies b)
  let b := clearCause .syncSlip (if b.svc.reset = 1 then b else clearCause .teardown b)
  let b := finishOp 0x106 0 0 (teardownRes b) b
  let b := applyLegs (b.modJob (fun j => { j with tearing := none }))
  let b := if b.svc.reset = 1 ∧ ¬ b.outs.warmReq ∧ ¬ b.svc.hostDone then raiseWarm b else b
  if b.svc.state = .job then setSvc .ready b else b

end Sys2Proof.Machine
end

