-- ==== Sys2Proof/Machine/Flags.lean ====
section
/-! DEFINITION. Flag computations: interrupt lines, status words and every read of the management window
(03_system_ports R112, 14_register_map). -/

namespace Sys2Proof.Machine

open Sys2Proof

/-- Interrupt group of a ring's status bit (R437). -/
def ringGroup (r : Nat) : Nat := if r < 56 then 0 else if r = 56 then 1 else if r = 61 then 3 else 2
/-- Interrupt group of an IRQ_MISC_STATUS bit (R436). -/
def miscGroup (i : Nat) : Nat := if i < 4 then 2 else 3

/-- mg_irq[g]: a status bit of the group is set and enabled (R112). -/
def irqLine (m : Mgmt) (g : Nat) : Bool :=
  (List.range 64).any (fun r => maskBit (m.irqRing &&& m.irqRingEn) r && decide (ringGroup r = g)) ||
  (List.range 6).any (fun i => maskBit (m.irqMisc &&& m.irqMiscEn) i && decide (miscGroup i = g))

/-- mg_irq[3:0]. (DESIGN CHOICE, log 111.) -/
def irqLines (m : Mgmt) : Nat := packF ((List.range 4).map (fun g => (g, b01 (irqLine m g))))

/-- Life-cycle codes (R123). -/
def lcCode : LifeCycle → Nat
  | .manufacture => 0 | .provisioned => 1 | .field => 2 | .rma => 3 | .decommissioned => 4

/-- Service-state codes (R337). -/
def svcCode : SvcState → Nat
  | .booting => 0 | .bringup => 1 | .ready => 2 | .job => 3 | .warmReset => 4 | .coldReset => 5 | .safe => 6 | .outOfService => 7

/-- Postmark state codes (R135). -/
def pmCode : PmState → Nat
  | .unset => 0 | .armed => 1 | .loaded => 2 | .slipped => 3

/-- IDCODE (R130). -/
def Block.idcode (b : Block) : Nat := packF [(28, 4), (12, 0xF1A1), (1, b.env.mfgId.toNat), (0, 1)]

/-- IJTAG_STATUS (R129). -/
def Block.ijtagStatus (b : Block) : Nat := packF [(0, lcCode b.svc.lc), (3, b01 b.outs.keysZero), (4, b01 b.dbg.netOpen)]

/-- The TAP's captured instruction register: 0b000, sc_lc, 0b01 (R129). -/
def Block.tapCapture (b : Block) : Nat := packF [(2, b.env.lc.toNat), (0, 1)]

/-- Populated-region mask (R5, R435). -/
def Block.regionMask (b : Block) : Nat := match b.cfg with | none => 0 | some c => c.regions.toNat

/-- A job runs: launched (R435). -/
def Block.jobStatus (b : Block) : Nat :=
  packF [(0, b.ledger.epoch), (16, b01 b.ho.job.man.isSome), (17, b01 b.ho.job.armed), (18, b01 b.ho.job.launched)]

/-- STOP_STATUS (R440). -/
def Block.stopStatus (b : Block) : Nat :=
  packF [(0, b01 b.stop.stopped), (1, b01 (!b.stop.causes.isEmpty)), (2, b01 (!b.env.stopInN)), (3, b01 (!b.outs.stopOutN)),
    (4, b01 b.stop.sched.isSome), (5, b01 b.ho.parcel.inStop.isSome), (8, match b.stop.last with | some c => causeCode c | none => 0)]

/-- Oldest warm-reset record in the window, plus reset_window (R442). -/
def Block.rstExpiry (b : Block) : Nat :=
  let l := b.ho.resets
  if l.inWindow = 0 then 0 else lnat l.warmAt (l.inWindow - 1) + b.ho.policy.resetWindow * 60000000000

/-- PWR_STATUS (R443). -/
def Block.pwrStatus (b : Block) : Nat :=
  packF [(0, b01 b.env.blkVok), (1, b01 b.env.idVld), (2, b01 b.env.shdnReq), (3, b01 b.outs.shdnRdy), (4, b.outs.waveId.toNat),
    (10, b01 b.outs.waveOp), (11, b.svc.wavePhase.toNat), (13, b01 b.svc.slow)]

/-- One bit per Courier domain. -/
def Block.crMask (b : Block) (f : Courier → Bool) : Nat := packF ((List.range 16).map (fun n => (n, b01 (f (b.courier n)))))

/-- KEY_STATUS (R449). -/
def Block.keyStatus (b : Block) : Nat :=
  let k := b.keys
  packF [(0, match k.win with | some (_, w) => w.length | none => 0), (4, b01 k.win.isSome), (5, k.winSlot.toNat), (8, b01 k.locked),
    (9, b01 b.outs.keysZero), (10, b01 k.lastOk), (11, b01 k.lastErr)]

/-- Low and high halves of a 64-bit value. -/
def lo32 (v : Nat) : Nat := v % 2 ^ 32
def hi32 (v : Nat) : Nat := v / 2 ^ 32 % 2 ^ 32

/-- An offset of the ring registers is mapped (R431). -/
def ringRegMapped (o : Nat) : Bool :=
  let r := (o - 0x1000) / 16
  match o % 16 with
  | 0 => r < 56
  | 4 => r < 40
  | 8 => true
  | _ => r < 40

/-- An offset is mapped (R428 to R449). -/
def mapped (o : Nat) : Bool :=
  if o % 4 ≠ 0 then false
  else if o < 0x1000 then
    o ≤ 0x08 || (0x10 ≤ o && o ≤ 0x1C) || (0x100 ≤ o && o ≤ 0x11C) || (0x200 ≤ o && o ≤ 0x218) || (0x300 ≤ o && o ≤ 0x32C) ||
    (0x400 ≤ o && o ≤ 0x414) || (0x500 ≤ o && o ≤ 0x508) || (0x510 ≤ o && o ≤ 0x51C) || (0x600 ≤ o && o ≤ 0x618) ||
    (0x620 ≤ o && o ≤ 0x62C) || (0x700 ≤ o && o ≤ 0x708) || (0x800 ≤ o && o ≤ 0x808) || (0x900 ≤ o && o ≤ 0x934) || (0xA00 ≤ o && o ≤ 0xA08)
  else if o < 0x1400 then ringRegMapped o
  else (0x4000 ≤ o && o < 0x6800) || (0x8000 ≤ o && o < 0xA800) || (0xB800 ≤ o && o < 0xC000)

/-- A word of a ring's registers (R431). -/
def Block.ringReg (b : Block) (o : Nat) : Nat :=
  let x := b.ring ((o - 0x1000) / 16)
  match o % 16 with
  | 0 => packF [(0, x.ltrHead), (8, x.ltrTail)]
  | 8 => packF [(0, x.rcpHead), (16, x.rcpTail)]
  | 12 => x.dest.toNat
  | _ => 0

/-- A word of a receipt window (R430). -/
def Block.rcptWord (b : Block) (o : Nat) : Nat :=
  match (b.ring ((o - 0x8000) / 256)).recs with
  | [] => 0
  | rc :: _ => rd rc (o % 256) 4

/-- The value of a mapped register below 0x1000 (R435 to R449). WO fields read zero. -/
def Block.reg (b : Block) (o : Nat) : Nat :=
  let m := b.ho.mgmt
  match o with
  | 0x000 => 0x00111410
  | 0x004 => b.idcode
  | 0x008 => packF [(0, m.wafer.toNat), (16, b01 m.waferVld)]
  | 0x100 => packF [(0, lcCode b.svc.lc), (3, b01 b.svc.lcInvalid), (4, b01 b.outs.keysZero), (5, b01 b.dbg.netOpen)]
  | 0x104 => sat 16 b.ledger.openings.length
  | 0x108 => svcCode b.svc.state
  | 0x10C => packF [(0, b01 (!b.outs.alarmN)), (4, b.outs.alarmCode.toNat)]
  | 0x110 => b.jobStatus
  | 0x114 => b.ledger.stepDecided
  | 0x118 => b.ledger.stepFranked
  | 0x11C => b.ledger.bmGen
  | 0x200 => lo32 m.irqRing.toNat
  | 0x204 => hi32 m.irqRing.toNat
  | 0x208 => lo32 m.irqRingEn.toNat
  | 0x20C => hi32 m.irqRingEn.toNat
  | 0x210 => m.irqMisc.toNat
  | 0x214 => m.irqMiscEn.toNat
  | 0x218 => irqLines m
  | 0x300 => packF [(0, pmCode b.pm.state), (8, b01 b.pm.slip), (9, b01 b.pm.missing), (10, b01 b.pm.drift), (11, b01 b.pm.width)]
  | 0x304 => lo32 b.pm.cap.toNat
  | 0x308 => hi32 b.pm.cap.toNat
  | 0x310 => lo32 b.pm.latch.toNat
  | 0x314 => hi32 b.pm.latch.toNat
  | 0x318 => lo32 b.pm.syncLatch.toNat
  | 0x31C => hi32 b.pm.syncLatch.toNat
  | 0x320 => lo32 b.pm.loadV.toNat
  | 0x324 => hi32 b.pm.loadV.toNat
  | 0x328 => b.pm.loadP.toNat
  | 0x32C => sat 8 b.pm.drifted.length
  | 0x400 => b.stopStatus
  | 0x408 => lo32 (b.stop.sched.getD 0)
  | 0x40C => hi32 (b.stop.sched.getD 0)
  | 0x410 => lo32 b.stop.lastAt.toNat
  | 0x414 => hi32 b.stop.lastAt.toNat
  | 0x500 => packF [(0, b.ho.policy.resetCount), (4, b01 b.ho.policy.autoWarm), (16, b.ho.policy.resetWindow)]
  | 0x504 => packF [(0, sat 4 b.ho.resets.inWindow), (8, sat 8 b.ho.resets.warm), (16, sat 16 b.pm.coldCount)]
  | 0x508 => packF [(0, b.ho.resets.cause), (4, b.ho.resets.kind)]
  | 0x510 => lo32 (lnat b.ho.resets.warmAt 0)
  | 0x514 => hi32 (lnat b.ho.resets.warmAt 0)
  | 0x518 => lo32 b.rstExpiry
  | 0x51C => hi32 b.rstExpiry
  | 0x600 => b.pwrStatus
  | 0x604 => lo32 b.svc.waveOn.toNat
  | 0x608 => hi32 b.svc.waveOn.toNat
  | 0x60C => lo32 b.svc.waveFail.toNat
  | 0x610 => hi32 b.svc.waveFail.toNat
  | 0x614 => packF [(0, b.svc.feed.toNat), (16, b.svc.loop.toNat)]
  | 0x618 => b.svc.rack.toNat
  | 0x700 => b.crMask (·.en)
  | 0x704 => packF [(0, b.crMask (·.linkUp)), (16, b.crMask (fun c => c.powered && !c.domFail))]
  | 0x708 => packF [(0, b.crMask (·.portFail)), (16, b.crMask (·.domFail))]
  | 0x800 => m.err.toNat
  | 0x804 => packF [(0, m.errOff.toNat), (16, m.errCause.toNat), (31, b01 m.errVld)]
  | 0x808 => sat 16 m.errCount
  | 0x930 => packF [(0, b01 m.measSlot), (1, b01 m.measVld)]
  | 0x934 => m.measLen
  | 0xA08 => b.keyStatus
  | _ =>
    if 0x10 ≤ o ∧ o ≤ 0x1C then fld b.regionMask (8 * (o - 0x10)) 32
    else if 0x620 ≤ o ∧ o ≤ 0x62C then fld b.env.rgnVok.toNat (8 * (o - 0x620)) 32
    else if 0x900 ≤ o ∧ o ≤ 0x92C then fld m.meas.toNat (8 * (o - 0x900)) 32
    else 0

/-- The blocks that answer in BOOTING: identity, life-cycle and status, Postmark (R429). -/
def bootBlock (o : Nat) : Bool := o < 0x200 || (0x300 ≤ o && o < 0x400)

/-- The block as the window shows it: in BOOTING every other register reads its reset value, an input field its input (R429). (DESIGN CHOICE, log 7.) -/
def Block.shown (b : Block) (o : Nat) : Block := if b.svc.state = .booting ∧ ¬ bootBlock o then { env := b.env } else b

/-- Read the window at an offset: data and mg_rsp_err, 1 for ADDR (R110). (DESIGN CHOICE, log 7.) -/
def Block.readWindow (b : Block) (o : Nat) : Nat × Nat :=
  if ¬ mapped o then (0, 1)
  else
    let s := b.shown o
    if o < 0x1000 then (s.reg o, 0)
    else if o < 0x1400 then (s.ringReg o, 0)
    else if o < 0x8000 then (0, 0)
    else (s.rcptWord o, 0)

end Sys2Proof.Machine
end

