-- ==== Sys2Proof/Machine/Parcels.lean ====
section
/-! DEFINITION. Parcels: Holder selection, layout, chunks over the Courier ports, root and commits, and the rows of
12_parcels that no letter brings. -/

namespace Sys2Proof.Machine

open Sys2Proof

/-! ### Holders (R332 to R335) -/

/-- Identifiers as one wafer knows them: valid, feed, loop, rack. -/
def Block.ownIds (b : Block) : Bool × Nat × Nat × Nat := (b.env.idVld, b.svc.feed.toNat, b.svc.loop.toNat, b.svc.rack.toNat)
def partnerIds (p : Partner) : Bool × Nat × Nat × Nat := (p.idVld, p.feed, p.loop, p.rack)

/-- Shared feed, loop and rack as a mask; every identifier is shared when one side's are not valid (R117). -/
def sharedIds (a c : Bool × Nat × Nat × Nat) : List Bool :=
  if ¬ a.1 ∨ ¬ c.1 then [true, true, true]
  else [decide (a.2.1 = c.2.1), decide (a.2.2.1 = c.2.2.1), decide (a.2.2.2 = c.2.2.2)]
def sharedCount (m : List Bool) : Nat := (m.filter (fun x => x)).length
def sharedMask (m : List Bool) : Nat := packF ((List.range 3).map (fun i => (i, b01 (m.getD i false))))

/-- Hops to a wafer, a relayed route counting as 13 (R333). -/
def Block.hopsTo (b : Block) (w : Nat) : Nat := min 13 (routeOf b.ho.fleet.len b.wafer w).length

/-- The order of R333. -/
def Block.holderKey (b : Block) (w : Nat) (p : Partner) : List Nat :=
  [b01 ((sharedIds b.ownIds (partnerIds p)).getD 2 true), 65535 - p.cap, b.hopsTo w, w]

/-- GiB of a parcel, rounded up (R332). -/
def pagesGiB (pages : Nat) : Nat := ceilDiv pages 262144

/-- LIVE candidates with room for the parcel. -/
def Block.candidates (b : Block) (gib : Nat) (skip : List Nat) : Tab Partner :=
  b.ho.fleet.partners.filter (fun p => decide (p.2.state = 0) && decide (gib ≤ p.2.cap) && !skip.contains p.1)

/-- A candidate is independent when feed and loop both differ (R332). -/
def Block.independent (b : Block) (p : Partner) : Bool :=
  let m := sharedIds b.ownIds (partnerIds p)
  !(m.getD 0 true) && !(m.getD 1 true)

/-- The first of a list of candidates under keys. -/
def firstBy (key : Nat × Partner → List Nat) (l : Tab Partner) : Option (Nat × Partner) :=
  (sortBy (fun a c => keysLe (key a) (key c)) l).head?

/-- Holder 1, Holder 2 or stand-in, exposure mask, and whether the second is a stand-in (R333, R334). -/
def Block.chooseHolders (b : Block) (gib : Nat) : Option (Nat × Option Nat × Nat) :=
  let cs := b.candidates gib []
  match firstBy (fun c => b.holderKey c.1 c.2) (cs.filter (fun c => b.independent c.2)) with
  | none => none
  | some h1 =>
    let rest := cs.filter (fun c => decide (c.1 ≠ h1.1))
    let with1 (c : Nat × Partner) := sharedIds (partnerIds h1.2) (partnerIds c.2)
    match firstBy (fun c => sharedCount (with1 c) :: b.holderKey c.1 c.2) (rest.filter (fun c => b.independent c.2)) with
    | some h2 => some (h1.1, some h2.1, 8 * sharedMask (with1 h2))
    | none =>
      match firstBy (fun c => sharedCount (sharedIds b.ownIds (partnerIds c.2)) :: b.holderKey c.1 c.2) rest with
      | some s => some (h1.1, some s.1, sharedMask (sharedIds b.ownIds (partnerIds s.2)) + 8 * sharedMask (with1 s))
      | none => some (h1.1, none, 0)

/-! ### Layout (R366 to R372) -/

/-- Sections in directory order: kind, pages, host address, record size, src field. -/
def Block.sections (b : Block) : List (Nat × Nat × Nat × Nat × Nat) :=
  let hosts := (List.range b.man.parcel.length).map (fun i => let h := b.man.parcel.getD i {}; (h.kind, h.pages, h.addr, 0, i))
  let n := b.workRoles.length
  let core := if b.pcLen = 0 then [] else [(3, ceilDiv n (256 / b.pcLen), 0, 16 * b.pcLen, n)]
  let regs := b.popRegions.length
  hosts ++ core ++ [(4, 64 * regs, 0, 0, regs)]

def Block.dataPages (b : Block) : Nat := b.sections.foldl (fun a x => a + x.2.1) 0
/-- T: table pages for page 0 and every data page, 512 entries to a page (R371). -/
def Block.tablePages (b : Block) : Nat := ceilDiv (1 + b.dataPages) 512
/-- P: total page count. -/
def Block.parcelPages (b : Block) : Nat := 1 + b.tablePages + b.dataPages

/-- Enabled Courier ports. -/
def Block.enabledPorts (b : Block) : List Nat := (List.range 16).filter (fun n => (b.courier n).en)

/-- T_min; none when no port is enabled (R374). (DESIGN CHOICE, log 94.) -/
def Block.tMin (b : Block) : Option Nat :=
  let n := b.enabledPorts.length
  if n = 0 then none else some (roundUp (8000000 + ceilDiv (16 * b.parcelPages) n) 1000)

/-- One run of pages moved together: first parcel page, pages, kind and address of its source. -/
structure Move where
  page : Nat := 0
  n : Nat := 0
  kind : Nat := 0
  addr : Nat := 0
  deriving DecidableEq, Repr

/-- Cut a section into runs within chunks of 16 parcel pages and 64 KiB of host address (R103, R379). (DESIGN CHOICE, log 94.) -/
def cutRuns (kind : Nat) : Nat → Nat → Nat → Nat → List Move
  | 0, _, _, _ => []
  | fuel + 1, page, n, addr =>
    if n = 0 then []
    else
      let room := 16 - page % 16
      let room := if kind = 1 ∨ kind = 2 then min room (16 - addr / 4096 % 16) else if kind = 3 then 1 else room
      let k := min n room
      ⟨page, k, kind, addr⟩ :: cutRuns kind fuel (page + k) (n - k) (addr + 4096 * k)

/-- Every run of data pages, in page order. A CORE_STATE page is a run of its own; its addr is 4,096 times its index. -/
def Block.dataMoves (b : Block) : List Move :=
  (b.sections.foldl (fun (acc : Nat × List Move) x => (acc.1 + x.2.1, acc.2 ++ cutRuns x.1 (2 * x.2.1) acc.1 x.2.1 x.2.2.1))
    (1 + b.tablePages, [])).2

/-- Runs of page 0 and the table pages. -/
def Block.headMoves (b : Block) : List Move := cutRuns 0 (2 * (1 + b.tablePages)) 0 (1 + b.tablePages) 0

def Block.moves (b : Block) : List Move := b.dataMoves ++ b.headMoves

/-- 2,048-bit beats of bytes. -/
def toBeats : Nat → List Byte → List (BitVec 2048)
  | 0, _ => []
  | n + 1, l => BitVec.ofNat 2048 (ofLe (l.take 256)) :: toBeats n (l.drop 256)
def beatBytes (l : List (BitVec 2048)) : List Byte := l.flatMap (fun x => le 256 x.toNat)

/-- The header of page 0 (R369) for a generation, with its directory (R370). The Board Map is the one in force at S. -/
def Block.page0 (b : Block) (g : GenRec) : List Byte :=
  let secs := b.sections
  let hdr := le 4 0x50434C31 ++ [1, 0] ++ le 2 g.epoch ++ le 2 b.wafer ++ [0, 0] ++ le 4 g.gen ++ le 4 g.step ++ le 4 g.pages ++ le 8 b.ho.parcel.stopPm ++
    le 8 b.man.jobSeed.toNat ++ le 4 b.ho.parcel.stopMap ++ le 2 g.holder1 ++ le 2 g.holder2 ++ [BitVec.ofNat 8 g.exposure, BitVec.ofNat 8 secs.length] ++
    List.replicate 6 0 ++ le 48 b.man.digest.toNat ++ le 48 b.ho.parcel.stopDigest.toNat
  let dir := (secs.foldl (fun (acc : Nat × List Byte) x =>
    (acc.1 + x.2.1, acc.2 ++ [BitVec.ofNat 8 x.1, 0] ++ le 2 x.2.2.2.1 ++ le 4 acc.1 ++ le 4 x.2.1 ++ le 4 x.2.2.2.2)) (1 + b.tablePages, [])).2
  padTo 4096 (padTo 256 hdr ++ dir)

/-- Page-CRC table (R371): entry 0 is page 0, entry 1 + i the page at T + 1 + i. (DESIGN CHOICE, log 17.) -/
def Block.crcTable (b : Block) (page0 : List Byte) : List Byte :=
  padTo (4096 * b.tablePages) (le 8 (crc64 page0).toNat ++
    (List.range b.dataPages).flatMap (fun i => le 8 (((tget b.ho.parcel.crcs (1 + b.tablePages + i)).getD 0)).toNat))

/-! ### Transfers (R103, R379) -/

/-- Issue a transfer on port n: an identifier, the request, and for a write its beats. -/
def issueXfer (n : Nat) (write : Bool) (wafer addr beats : Nat) (use : XferUse) (data : List (BitVec 2048)) (b : Block) : Block :=
  let c := b.courier n
  let busy (i : Nat) : Bool := c.xfers.any (fun x => x.id = i)
  match ((List.range 1024).map (fun i => (c.nextId + i) % 1024)).find? (fun i => !busy i) with
  | none => b
  | some id => b.modCourier n (fun c => { c with
      xfers := c.xfers ++ [{ id := id, write := write, wafer := wafer, addr := addr, beats := beats, use := use, data := data }]
      nextId := (id + 1) % 1024
      req := some (write, wafer, addr, beats - 1, id)
      wBeats := if write then c.wBeats + beats else c.wBeats
      wData := if write then data.getLastD c.wData else c.wData })

/-- A port that can take one more transfer now. -/
def Block.portFree (b : Block) (n : Nat) : Bool := b.portUp n && decide ((b.courier n).xfers.length < 1024)

/-- The port for a chunk: the (c mod n_c)-th enabled port, or when that one cannot take it any port that can (R379). -/
def Block.chunkPort (b : Block) (c : Nat) : Option Nat :=
  let ps := b.enabledPorts
  let own := ps.getD (c % max 1 ps.length) 16
  if own < 16 ∧ b.portFree own then some own else ps.find? (fun n => b.portFree n)

/-- The two Holders' bases as a write's target. -/
def Block.copyTarget (b : Block) (second : Bool) : Option (Nat × Nat) :=
  match b.taking with
  | none => none
  | some g => if second then b.ho.parcel.base2.map (fun x => (g.holder2, x)) else b.ho.parcel.base1.map (fun x => (g.holder1, x))

/-- Write a run to one copy; with no port that can take it, it waits (R379, R384). -/
def writeCopy (second : Bool) (mv : Nat) (data : List (BitVec 2048)) (b : Block) : Block :=
  let m := b.moves.getD mv {}
  if (if second then b.ho.parcel.fail2 else b.ho.parcel.fail1) then b
  else match b.copyTarget second, b.chunkPort (m.page / 16) with
  | some (w, base), some n => issueXfer n true w (base + 4096 * m.page) (16 * m.n) (.parcelWrite second mv) data b
  | some _, none => b.modParcel (fun p => { p with writes := p.writes ++ [(second, mv, data)] })
  | none, _ => b

/-- Writes that waited are sent; what still finds no port waits again. -/
def pumpWrites (b : Block) : Block :=
  forEach b.ho.parcel.writes (fun x b => writeCopy x.1 x.2.1 x.2.2 b) (b.modParcel (fun p => { p with writes := [] }))

/-- Start host reads of waiting chunks while identifiers last. -/
def pumpReads : Nat → Block → Block
  | 0, b => b
  | fuel + 1, b =>
    match b.ho.parcel.todo with
    | [] => b
    | mv :: r =>
      let m := b.moves.getD mv {}
      match b.chunkPort (m.page / 16) with
      | none => b
      | some n =>
        pumpReads fuel (issueXfer n false b.wafer m.addr (16 * m.n) (.parcelRead mv) [] (b.modParcel (fun p => { p with todo := r })))

/-- FREE VALUE. A DICE_STATE page by its number of 64: the manual says what the Dice state of an Office consists of (R216),
and not the bytes that lay it out. (DESIGN CHOICE, log 17.) -/
opaque Config.dicePage : DiceSt → List Burst → Policy → Nat → BitVec 32768

/-- The pages that the Offices send for a DICE_STATE run: 64 for each populated region, in region order (R216, R366, R378). -/
def Block.dicePages (b : Block) (m : Move) : List (BitVec 2048) :=
  (List.range m.n).flatMap (fun i =>
    let k := m.addr / 4096 + i
    let o := b.office (lnat b.popRegions (k / 64))
    toBeats 16 (le 4096 (Config.dicePage o.dice o.bursts b.ho.policy (k % 64)).toNat))

/-- A run's pages have been read or captured: their CRCs are kept and both copies written (R378). -/
def runRead (mv : Nat) (data : List (BitVec 2048)) (b : Block) : Block :=
  let m := b.moves.getD mv {}
  let b := forEach (List.range m.n) (fun i b =>
    b.modParcel (fun p => { p with crcs := tset p.crcs (m.page + i) (crc64 (beatBytes (slice data (16 * i) 16))) })) b
  let b := b.modParcel (fun p => { p with pagesLeft := p.pagesLeft - m.n })
  let b := if b.ho.parcel.pagesLeft = 0 then clearCause .parcelOverrun b else b
  writeCopy true mv data (writeCopy false mv data b)

/-- Roles in the order of CORE_STATE records: by region, then role (R367). -/
def Block.recordOrder (b : Block) : List Nat :=
  b.popRegions.flatMap (fun r => (b.regionRoles r).filter (fun x => b.workRoles.contains x))

/-- A core-state record has come: when its page is whole, the page moves (R367, R378). -/
def coreRecord (role : Nat) (beats : List Flit) (b : Block) : Block :=
  let b := b.modParcel (fun p => { p with records := tset p.records role beats })
  let order := b.recordOrder
  let per := 256 / max 1 b.pcLen
  match (List.range order.length).find? (fun i => lnat order i = role) with
  | none => b
  | some i =>
    let pg := i / per
    let roles := slice order (per * pg) per
    if roles.all (fun x => (tget b.ho.parcel.records x).isSome) then
      match (List.range b.dataMoves.length).find? (fun k => let m := b.dataMoves.getD k {}; m.kind = 3 ∧ m.addr = 4096 * pg) with
      | none => b
      | some mv => runRead mv (toBeats 16 (padTo 4096 (roles.flatMap (fun x => ((tget b.ho.parcel.records x).getD []).flatMap flitBytes)))) b
    else b

/-- The payloads of the CAPTURE packets that carry a record: a flit with the role and the place of its first beat, then up to
three beats. The manual gives the service no layout. (DESIGN CHOICE, log 144.) -/
def captureFlits (role : Nat) (beats : List Flit) : List (List Flit) :=
  (List.range (ceilDiv beats.length 3)).map (fun k => BitVec.ofNat 128 (packF [(0, role), (24, 3 * k)]) :: slice beats (3 * k) 3)

/-- A part of a record has reached its Courier port; the last one makes the record (R378). (DESIGN CHOICE, log 144.) -/
def captureArrive (n : Nat) (pl : List Flit) (b : Block) : Block :=
  let role := fld (pl.getD 0 0).toNat 0 20
  let parts := ((tget (b.courier n).caps role).getD []) ++ [(fld (pl.getD 0 0).toNat 24 6, pl.drop 1)]
  let beats := (sortBy (fun x y => decide (x.1 ≤ y.1)) parts).flatMap (·.2)
  if beats.length < b.pcLen then b.modCourier n (fun c => { c with caps := tset c.caps role parts })
  else coreRecord role beats (b.modCourier n (fun c => { c with caps := tdel c.caps role }))

/-! ### Letters to Holders (R378, R383, R388, R403) -/

/-- The sender address of this Head Office toward Holders: service RELAY (DESIGN CHOICE log 21). -/
def Block.hoAddress (b : Block) : Nat := b.wafer * 2 ^ 32 + 0x400000 * 256 + 0x15

/-- The HELLO body (R329). -/
def Block.helloBody (b : Block) : List Byte :=
  le 32 (packF [(0, 0x11), (8, 0x10), (16, (crc16 ((List.range 8).map (fun r => BitVec.ofNat 8 (lnat b.ho.fleet.len r)))).toNat),
    (32, b.svc.feed.toNat), (48, b.svc.loop.toNat), (64, b.svc.rack.toNat), (88, b01 b.env.idVld), (92, pmCode b.pm.state),
    (96, b.ledger.epoch), (112, b.ho.policy.holderCap), (128, b.now)])

/-- Send HELLO to a wafer (R329). -/
def sendHello (dst : Nat) (b : Block) : Block := (sendRequest 0x01 dst 0 b.helloBody none b).2

/-- A wafer that is about to be addressed without a LIVE entry gets a HELLO first (R329). (DESIGN CHOICE, log 21.) -/
def ensureLive (dst : Nat) (b : Block) : Block :=
  match tget b.ho.fleet.partners dst with
  | some p => if p.state = 0 then b else sendHello dst b
  | none => sendHello dst b

/-- Send a letter of the FLEET slot to another wafer. (DESIGN CHOICE, log 21.) -/
def sendLetter (dst op : Nat) (params : List Byte) (which : Nat) (b : Block) : Block :=
  let seq := b.ho.mail.outSeq.toNat + 1
  let h := le 16 (packF [(0, 1), (4, op), (16, 2), (24, params.length), (32, seq % 2 ^ 32), (80, b.hoAddress)])
  let bytes := h ++ le 16 (tagOf (b.key 2) (h ++ params)).toNat ++ params
  let b := ensureLive dst b
  let k := b.freeSlot
  let r := sendRequest 0x10 dst 0 bytes none (b.modMail (fun m => { m with outSeq := m.outSeq + 1 }))
  if r.1 = 0 then
    match k with
    | some k => r.2.modFleet (fun f => { f with slots := match tget f.slots k with | some x => tset f.slots k { x with own := some (op, which) } | none => f.slots })
    | none => r.2
  else r.2

/-- HELLO to a Holder: a session must exist there before its parcel letters (R406 check 6, R409; DESIGN CHOICE log 21). -/
def helloLetter (dst : Nat) (b : Block) : Block := sendLetter dst 0x001 [0x11, 0, 0, 0] 0 b

def reserveParams (gen epoch pages : Nat) : List Byte := le 4 gen ++ le 2 epoch ++ [0, 0] ++ le 4 pages

/-- Reserve space for the next generation on the chosen Holders (R375). -/
def reserveBoth (b : Block) : Block :=
  let pr := reserveParams (b.ledger.lastGen + 1) b.ledger.epoch b.parcelPages
  let go (h : Option Nat) (which : Nat) (b : Block) : Block :=
    match h with
    | some w => sendLetter w 0x610 pr which b
    | none => b
  go b.ho.parcel.holder2 2 (go b.ho.parcel.holder1 1 b)

/-- Select Holders and report exposure (R333 to R335). -/
def selectHolders (b : Block) : Block :=
  match b.chooseHolders (pagesGiB b.parcelPages) with
  | none => b.modParcel (fun p => { p with holder1 := none, holder2 := none, exposure := 0, noHolder := true })
  | some (h1, h2, mask) =>
    let b := b.modParcel (fun p => { p with holder1 := some h1, holder2 := h2, exposure := BitVec.ofNat 6 mask, noHolder := false })
    let b := if fld mask 0 3 ≠ 0 then hoEvent evHolderExposed [] b else b
    if fld mask 3 3 ≠ 0 then hoEvent evHolderCorrelated [] b else b

/-- Prepare a generation (R375, R378, R382): select, open sessions, assign a Courier port to each region, reserve. (DESIGN CHOICE, log 93.) -/
def prepareParcel (b : Block) : Block :=
  let b := selectHolders b
  let b := match b.ho.parcel.holder1 with | some w => helloLetter w b | none => b
  let b := match b.ho.parcel.holder2 with | some w => helloLetter w b | none => b
  let ps := b.enabledPorts
  let b := b.modParcel (fun p => { p with
    base1 := none
    base2 := none
    reservedAt := b.now
    ports := (List.range b.popRegions.length).filterMap (fun k => ps[k % max 1 ps.length]?.map (fun n => (lnat b.popRegions k, n))) })
  let b := if b.taking.isNone then setGen (some {
      gen := b.ledger.lastGen + 1
      pages := b.parcelPages
      epoch := b.ledger.epoch
      holder1 := b.ho.parcel.holder1.getD 0
      holder2 := b.ho.parcel.holder2.getD 0
      exposure := b.ho.parcel.exposure.toNat }) b else b
  reserveBoth b

/-! ### Generations (R382 to R385) -/

/-- Keep a restore point in the Ledger: the two newest (R382). (DESIGN CHOICE, log 94.) -/
def keepGen (g : GenRec) (b : Block) : Block :=
  b.modLedger (fun l => { l with gens := (g :: l.gens.filter (fun x => x.gen ≠ g.gen)).take 2 })

/-- Release every older generation at its Holders (R383). (DESIGN CHOICE, log 94.) -/
def releaseOlder (gen : Nat) (b : Block) : Block :=
  let old := b.ledger.gens.filter (fun g => decide (g.gen < gen))
  let b := forEach old (fun g b =>
    let pr := le 2 b.wafer ++ [0, 0] ++ le 4 g.gen
    sendLetter g.holder2 0x613 pr g.gen (sendLetter g.holder1 0x613 pr g.gen b)) b
  let b := b.modLedger (fun l => { l with gens := l.gens.filter (fun g => gen ≤ g.gen) })
  b.modParcel (fun p => { p with
    rerep := p.rerep.bind (fun r => if r.gen < gen then none else some r)
    rerepq := p.rerepq.filter (fun x => gen ≤ x.1) })

/-- Start re-replication toward the next candidate (R385). -/
def tryRerep (g : GenRec) (survivor : Nat) (tried : List Nat) (b : Block) : Block :=
  match firstBy (fun c => b.holderKey c.1 c.2) ((b.candidates (pagesGiB g.pages) (survivor :: tried)).filter (fun c => b.independent c.2)) with
  | some h =>
    let chunks := ceilDiv g.pages 16
    let b := b.modParcel (fun p => { p with rerep := some { gen := g.gen, survivor := survivor, holder := h.1, source := if survivor = g.holder1 then g.base1 else g.base2, pages := g.pages, epoch := g.epoch, root := g.root, left := chunks, tried := tried } })
    sendLetter h.1 0x610 (reserveParams g.gen g.epoch g.pages) 3 (helloLetter h.1 b)
  | none => b.modParcel (fun p => { p with rerep := none })

/-- The re-replications that wait take their turn while none is in progress (R385). -/
def nextRerep : Nat → Block → Block
  | 0, b => b
  | n + 1, b =>
    match b.ho.parcel.rerep, b.ho.parcel.rerepq with
    | none, (k, survivor) :: q =>
      let b := b.modParcel (fun p => { p with rerepq := q })
      nextRerep n (match b.ledger.gens.find? (fun g => decide (g.gen = k) && decide (g.state = .single)) with
        | some g => tryRerep g survivor [] b
        | none => b)
    | _, _ => b

/-- A generation is SINGLE: its re-replication begins, or waits until the one in progress ends (R385). (DESIGN CHOICE, log 94.) -/
def startRerep (g : GenRec) (survivor : Nat) (b : Block) : Block :=
  nextRerep 4 (b.modParcel (fun p => { p with rerepq := p.rerepq.filter (fun x => x.1 ≠ g.gen) ++ [(g.gen, survivor)] }))

/-- Both commits are settled: DOUBLE, SINGLE or FAILED (R382, R384). -/
def settleGen (b : Block) : Block :=
  match b.taking, b.ho.parcel.ans1, b.ho.parcel.ans2 with
  | some g, some a1, some a2 =>
    let clear (b : Block) : Block := (setGen none b).modParcel (fun p => { p with
      committing := false
      ans1 := none
      ans2 := none
      base1 := none
      base2 := none
      crcs := []
      records := []
      done1 := []
      done2 := []
      retries := [] })
    let g := { g with base1 := b.ho.parcel.base1.getD 0, base2 := b.ho.parcel.base2.getD 0 }
    if a1 ∧ a2 then
      let b := keepGen { g with state := .double } (clear b)
      releaseOlder g.gen (hoEvent evParcelDouble [] b)
    else if a1 ∨ a2 then
      let b := keepGen { g with state := .single } (clear b)
      startRerep g (if a1 then g.holder1 else g.holder2) (hoEvent evParcelSingle [] b)
    else hoEvent evParcelFailed [] (setGen (some { g with state := .failed }) (clear b))
  | _, _, _ => b

/-- A Holder has answered its commit, or its copy has failed (R382, R384). (DESIGN CHOICE, log 93.) -/
def commitAnswer (second ok : Bool) (b : Block) : Block :=
  match b.taking with
  | none => b
  | some g =>
    if (if second then b.ho.parcel.ans2 else b.ho.parcel.ans1).isSome then b
    else
      let b := (setGen (some { g with state := if ok ∧ g.state = .committing then .single else g.state }) b).modParcel (fun p => { p with
        ans1 := if second then p.ans1 else some ok
        ans2 := if second then some ok else p.ans2 })
      settleGen b

/-- One copy fails (R384): when both have, the parcel is FAILED. -/
def failCopy (second : Bool) (b : Block) : Block :=
  let b := b.modParcel (fun p => if second then { p with fail2 := true } else { p with fail1 := true })
  if b.ho.parcel.fail1 ∧ b.ho.parcel.fail2 then failParcel b
  else if b.ho.parcel.committing then commitAnswer second false b else b

/-! ### Ends of transfers (R104, R384, R385) -/

/-- Count a retry; more than twice answers false. -/
def retryKey (mv kind : Nat) : Nat := 3 * mv + kind
def mayRetry (mv kind : Nat) (b : Block) : Bool := decide (tcnt b.ho.parcel.retries (retryKey mv kind) < 2)
def countRetry (mv kind : Nat) (b : Block) : Block := b.modParcel (fun p => { p with retries := tadd p.retries (retryKey mv kind) 1 })

/-- Copying of a re-replication: read the next chunk from the survivor. -/
def pumpRerep (b : Block) : Block :=
  match b.ho.parcel.rerep with
  | none => b
  | some r =>
    let c := r.again.headD r.next
    if r.base.isNone ∨ ceilDiv r.pages 16 ≤ c then b
    else match b.chunkPort c with
    | none => b
    | some n =>
      let r' := if r.again.isEmpty then { r with next := r.next + 1 } else { r with again := r.again.drop 1 }
      issueXfer n false r.survivor (r.source + 65536 * c) (16 * min 16 (r.pages - 16 * c)) (.copyRead c) []
        (b.modParcel (fun p => { p with rerep := some r' }))

/-- A copy of re-replication fails: the next candidate is tried (R385). -/
def failRerep (b : Block) : Block :=
  match b.ho.parcel.rerep with
  | none => b
  | some r =>
    match b.ledger.gens.find? (fun g => g.gen = r.gen) with
    | some g => nextRerep 4 (tryRerep g r.survivor (r.holder :: r.tried) b)
    | none => nextRerep 4 (b.modParcel (fun p => { p with rerep := none }))

/-! ### Pieces of an EXPORT (R467, R468) -/

/-- Issue the pieces that wait, while identifiers last. (DESIGN CHOICE, log 102.) -/
def pumpExport : Nat → Block → Block
  | 0, b => b
  | fuel + 1, b =>
    match b.dbg.exportTodo with
    | [] => b
    | (k, addr, data) :: r =>
      match b.chunkPort k with
      | none => b
      | some n => pumpExport fuel (issueXfer n true b.wafer addr data.length (.exportWrite k) data (b.modDebug (fun d => { d with exportTodo := r })))

/-- A piece has been answered: an error sends it again, the last good answer ends the letter with EXPORT_DONE. (DESIGN CHOICE, log 102.) -/
def exportEnd (k : Nat) (x : Xfer) (resp : Nat) (b : Block) : Block :=
  match b.dbg.exporting with
  | none => b
  | some res =>
    if resp ≠ 0 ∧ ¬ x.retired then pumpExport 1 (b.modDebug (fun d => { d with exportTodo := d.exportTodo ++ [(k, x.addr, x.data)] }))
    else
      let b := b.modDebug (fun d => { d with exportLeft := d.exportLeft - 1 })
      if b.dbg.exportLeft = 0 then
        finishOp 0x804 0 0 res (hoEvent evExportDone res (b.modDebug (fun d => { d with exporting := none })))
      else pumpExport 1024 b

/-- A transfer of port n has ended: resp 0 done, 1 link or parity error, 2 refused; 3 is treated as 1 (03, signal table). (DESIGN CHOICE, log 1.) -/
def xferEnd (n : Nat) (x : Xfer) (resp : Nat) (b : Block) : Block :=
  let resp := if resp = 3 then 1 else resp
  let b := b.modCourier n (fun c => { c with xfers := c.xfers.filter (fun y => y.id ≠ x.id) })
  if x.retired then
    deadLetter 17 (match x.use with | .exportWrite k => exportEnd k x 0 b | _ => b)
  else
    let b := match x.use with
      | .parcelRead mv =>
        if b.taking.isNone then b
        else if resp = 0 ∧ ¬ x.bad then runRead mv x.data b
        else if mayRetry mv 0 b then countRetry mv 0 (b.modParcel (fun p => { p with todo := mv :: p.todo }))
        else failParcel b
      | .parcelWrite second mv =>
        if b.taking.isNone then b
        else if resp = 0 then b.modParcel (fun p => if second then { p with done2 := p.done2 ++ [mv] } else { p with done1 := p.done1 ++ [mv] })
        else if resp = 1 ∧ mayRetry mv (if second then 2 else 1) b then
          writeCopy second mv x.data (countRetry mv (if second then 2 else 1) b)
        else failCopy second b
      | .copyRead c =>
        match b.ho.parcel.rerep with
        | some r =>
          match r.base, b.chunkPort c with
          | some base, some p => if resp = 0 ∧ ¬ x.bad then issueXfer p true r.holder (base + 65536 * c) x.beats (.copyWrite c) x.data b else failRerep b
          | _, none => b.modParcel (fun p => { p with rerep := some { r with again := r.again ++ [c] } })
          | none, _ => b
        | none => b
      | .copyWrite _ =>
        match b.ho.parcel.rerep with
        | some r =>
          if resp = 0 then
            let r := { r with left := r.left - 1, committing := decide (r.left ≤ 1) }
            let b := b.modParcel (fun p => { p with rerep := some r })
            if r.committing then sendLetter r.holder 0x611 (reserveParams r.gen r.epoch r.pages ++ le 48 r.root.toNat) 3 b else b
          else failRerep b
        | none => b
      | .exportWrite k => exportEnd k x resp b
      | .other => b
    pumpRerep (pumpReads 1024 (pumpWrites b))

/-- A port stops: it takes no new transfer, its outputs fall to their reset values, outstanding transfers complete with
response 1 and held packets are discarded and counted (R108, R109, R336). (DESIGN CHOICE, log 60.) -/
def portStop (n : Nat) (b : Block) : Block :=
  let c := b.courier n
  let held (q : Tab (List CourierFlit)) : Nat := q.foldl (fun a t => a + (t.2.filter (·.eop)).length) 0
  let freed := c.transit.filter (fun t => t.2.pkt.isSome)
  let lost := freed.length + held c.rxq + held c.txq
  let b := b.modFleet (fun f => { f with drops := tadd f.drops 3 lost })
  let b := b.modCourier n (fun c => { c with
    en := false
    mt := none
    req := none
    wData := 0
    txq := []
    rxq := []
    credits := List.replicate 10 0
    transit := tmap (fun _ (t : Transit) => if t.pkt.isSome then { t with pkt := none, freed := t.freed + 1 } else t) c.transit })
  let b := forEach (dedup (freed.map (fun t => t.1 % 16))) (reportTo n) b
  (forEach c.xfers (fun x b => xferEnd n x 1 b) b).modCourier n (fun x => { x with en := c.en })

/-- A port runs again: it starts with its configured transmit credits, and the host with 64 on each channel (R107);
transfers that waited for a port begin. (DESIGN CHOICE, log 58.) -/
def startPort (n : Nat) (b : Block) : Block :=
  pumpExport 1024 (pumpRerep (pumpReads 1024 (pumpWrites (b.modCourier n (fun c => { c with
    credits := match b.cfg with | some g => g.credits | none => List.replicate 10 0
    hostCr := List.replicate 10 64
    rxq := []
    txq := [] })))))

/-- A port is enabled; with its link up it starts at once (R107, R109). (DESIGN CHOICE, log 58.) -/
def enablePort (n : Nat) (b : Block) : Block :=
  let b := b.modCourier n (fun c => { c with en := true })
  if (b.courier n).linkUp then startPort n b else b

/-- A port is disabled: it stops and its en bit falls (R109, R445). -/
def disablePort (n : Nat) (b : Block) : Block := (portStop n b).modCourier n (fun c => { c with en := false })

/-- Courier domain n is disabled: its port, and its Frank port's notices are dropped (R102, R143, R445). -/
def disableDomain (n : Nat) (b : Block) : Block :=
  (disablePort n b).modCourier n (fun c => { c with domFail := true, notices := [], frVld := false, itTile := none, groups := [] })

/-! ### The rows -/

/-- PARCEL_PREPARE (R375): at the due count less one minute, Holders and reservations. -/
def parcelPrepare (b : Block) : Block :=
  let iv := b.ho.policy.interval * 60000000000
  if ¬ b.ho.job.launched ∨ iv = 0 ∨ ¬ b.hoRuns then b
  else
    let next := (b.now / iv + 1) * iv
    let at0 := next - 60000000000
    let b := advTo at0 b
    prepareParcel b
def execParcelPrepare (s : State) : Host.Outcome State Fault Refusal := act parcelPrepare s

/-- PARCEL_RESERVE_RENEW (R375): a minute after the reservations or their renewal. -/
def parcelRenew (b : Block) : Block :=
  if (b.ho.parcel.holder1.isSome ∨ b.ho.parcel.holder2.isSome) ∧ b.taking.isNone ∧ b.ho.job.launched ∧ b.hoRuns then
    let b := advTo (b.ho.parcel.reservedAt + 60000000000) b
    reserveBoth (b.modParcel (fun p => { p with reservedAt := b.now }))
  else b
def execParcelReserveRenew (s : State) : Host.Outcome State Fault Refusal := act parcelRenew s

/-- PARCEL_VOTE_LATE (R376, R377): the vote has no result by the launch less 300,000 ticks. -/
def parcelVoteLate (b : Block) : Block :=
  if b.ho.parcel.voting ∧ b.ho.job.launched then
    let b := advTo (b.nextSlot - 300000) b
    let b := hoEvent evParcelVoteLate [] (originate .parcelVoteLate (b.modParcel (fun p => { p with voting := false, stopAt := none })))
    if b.spentVotes then skipDue b else b
  else b
def execParcelVoteLate (s : State) : Host.Outcome State Fault Refusal := act parcelVoteLate s

/-- PARCEL_STOP (R378, R382): at S every job core is gated and capture begins: host reads and Dice pages start, core
records follow from the capture channel. (DESIGN CHOICE, log 80 and 93.) -/
def parcelStop (b : Block) : Block :=
  match b.ho.parcel.stopAt with
  | none => b
  | some S =>
    if ¬ b.ho.job.launched then b
    else
      let b := advTo S b
      let b := addCause .parcelStop b
      let b := if b.inForce then b else takeStop S b
      let b := forEach b.popRegions (fun r b => b.modOffice r (fun o => { o with hist := [] })) b
      let gen := b.ledger.lastGen + 1
      let g : GenRec := { gen := gen, state := .capturing, step := if b.ho.job.withheld = 0 then b.ho.job.step + 1 else b.ho.job.step, pages := b.parcelPages, epoch := b.ledger.epoch, holder1 := b.ho.parcel.holder1.getD 0, holder2 := b.ho.parcel.holder2.getD 0, exposure := b.ho.parcel.exposure.toNat }
      let moves := b.dataMoves
      let host := (List.range moves.length).filter (fun i => let m := moves.getD i {}; m.kind = 1 || m.kind = 2)
      let dice := (List.range moves.length).filter (fun i => (moves.getD i {}).kind = 4)
      let b := setGen (some g) (b.modLedger (fun l => { l with lastGen := gen }))
      let b := b.modParcel (fun p => { p with
        stopAt := none
        due := none
        votes := 0
        inStop := some S
        stopPm := S
        stopMap := b.ledger.bmGen
        stopDigest := b.ledger.bmDigest
        pagesLeft := b.dataPages
        crcs := []
        records := []
        done1 := []
        done2 := []
        retries := []
        fail1 := p.base1.isNone
        fail2 := p.base2.isNone
        rooting := false
        root := none
        ans1 := none
        ans2 := none
        committing := false
        todo := host })
      let b := b.allCouriers (fun c => { c with caps := [] })
      pumpReads host.length (forEach dice (fun mv b => runRead mv (b.dicePages (moves.getD mv {})) b) b)
def execParcelStop (s : State) : Host.Outcome State Fault Refusal := act parcelStop s

/-- Every data run is written on each copy that has not failed. -/
def Block.dataDone (b : Block) : Bool :=
  let p := b.ho.parcel
  let n := b.dataMoves.length
  p.pagesLeft = 0 && (p.fail1 || (List.range n).all (fun i => p.done1.contains i)) && (p.fail2 || (List.range n).all (fun i => p.done2.contains i))

/-- PARCEL_ROOT_BUILD (R378): table pages and page 0 are built and written, the root computed and recorded. -/
def parcelRootBuild (b : Block) : Block :=
  match b.taking with
  | none => b
  | some g =>
    if ¬ b.dataDone ∨ b.ho.parcel.rooting ∨ ¬ b.hoRuns then b
    else
      let p0 := b.page0 g
      let bytes := p0 ++ b.crcTable p0
      let root := sha384v bytes
      let b := (setGen (some { g with root := root }) b).modParcel (fun p => { p with rooting := true, root := some root })
      let n := b.dataMoves.length
      forEach (List.range b.headMoves.length) (fun i b =>
        let m := b.headMoves.getD i {}
        let d := toBeats (16 * m.n) (slice bytes (4096 * m.page) (4096 * m.n))
        writeCopy true (n + i) d (writeCopy false (n + i) d b)) b
def execParcelRootBuild (s : State) : Host.Outcome State Fault Refusal := act parcelRootBuild s

/-- PARCEL_COMMIT_SEND (R378): the last write response has come; both Holders get PARCEL_COMMIT. -/
def parcelCommitSend (b : Block) : Block :=
  match b.taking with
  | none => b
  | some g =>
    let n := b.moves.length
    let p := b.ho.parcel
    let all (l : List Nat) := (List.range n).all (fun i => l.contains i)
    if ¬ p.rooting ∨ p.committing ∨ ¬ (p.fail1 || all p.done1) ∨ ¬ (p.fail2 || all p.done2) then b
    else
      let pr := reserveParams g.gen g.epoch g.pages ++ le 48 g.root.toNat
      let b := (setGen (some { g with state := .committing }) b).modParcel (fun p => { p with committing := true, commitAt := b.now })
      let b := if b.ho.parcel.fail1 then commitAnswer false false b else sendLetter g.holder1 0x611 pr 1 b
      if b.ho.parcel.fail2 then commitAnswer true false b else sendLetter g.holder2 0x611 pr 2 b
def execParcelCommitSend (s : State) : Host.Outcome State Fault Refusal := act parcelCommitSend s

/-- PARCEL_OVERRUN (R381): pages remain unread at S + t_stop - 100,000. -/
def parcelOverrun (b : Block) : Block :=
  match b.ho.parcel.inStop with
  | none => b
  | some S =>
    let b := advTo (S + b.ho.policy.tStop - 100000) b
    if b.capturing ∧ b.ho.parcel.pagesLeft ≠ 0 then hoEvent evParcelOverrun [] (originate .parcelOverrun b) else b
def execParcelOverrun (s : State) : Host.Outcome State Fault Refusal := act parcelOverrun s

/-- PARCEL_UNGATE (R378, R395): at S + t_stop the cores ungate and later launches move by t_stop, unless a further
cause keeps the stop in force; resumption then follows release. (DESIGN CHOICE, log 93.) -/
def parcelUngate (b : Block) : Block :=
  match b.ho.parcel.inStop with
  | none => b
  | some S =>
    let b := advTo (S + b.ho.policy.tStop) b
    let b := clearCause .parcelStop (b.modParcel (fun p => { p with inStop := none }))
    if b.stop.causes.isEmpty ∧ ¬ b.stop.latch then
      (ungateAll b).modJob (fun j => { j with lateShift := j.lateShift + b.ho.policy.tStop })
    else b
def execParcelUngate (s : State) : Host.Outcome State Fault Refusal := act parcelUngate s

/-- PARCEL_COMMIT_ANSWER (R382): a Holder's commit receipt. -/
def execParcelCommitAnswer (second ok : Bool) (s : State) : Host.Outcome State Fault Refusal :=
  act (fun b => if b.ho.parcel.committing then commitAnswer second ok b else b) s

/-- PARCEL_COMMIT_TIMEOUT (R384): no commit receipt within 60,000,000,000 ticks. -/
def execParcelCommitTimeout (second : Bool) (s : State) : Host.Outcome State Fault Refusal :=
  act (fun b =>
    if b.ho.parcel.committing ∧ (if second then b.ho.parcel.ans2 else b.ho.parcel.ans1).isNone then
      failCopy second (advTo (b.ho.parcel.commitAt + 60000000000) b)
    else b) s

/-- Free a Holder record's space: not granted again for 100,000,000 ticks (R387). -/
def coolSpace (pages : Nat) (b : Block) : Block := b.modParcel (fun p => { p with cooling := p.cooling ++ [(pages, b.now + 100000000)] })

/-- RESERVATION_LAPSE (R387): a reservation neither committed nor renewed in 600,000,000,000 ticks. -/
def reservationLapse (holdee gen : Nat) (b : Block) : Block :=
  match b.ledger.holds.find? (fun h => h.holdee = holdee ∧ h.gen = gen ∧ ¬ h.committed) with
  | none => b
  | some h =>
    let b := advTo (h.since + 600000000000) b
    coolSpace h.pages (b.modLedger (fun l => { l with holds := l.holds.filter (fun x => !(decide (x.holdee = holdee) && decide (x.gen = gen) && !x.committed)) }))
def execReservationLapse (holdee : BitVec 16) (gen : BitVec 32) (s : State) : Host.Outcome State Fault Refusal :=
  act (reservationLapse holdee.toNat gen.toNat) s

/-- TEARDOWN_QUIESCED (R393): the counters read zero and 13,000 ticks have passed since step 2. -/
def teardownQuiesced (b : Block) : Block :=
  match b.ho.job.tearing with
  | none => b
  | some t => if b.quiet then endTeardown (advTo (t + 13000) b) else b
def execTeardownQuiesced (s : State) : Host.Outcome State Fault Refusal := act teardownQuiesced s

/-- TEARDOWN_FORCE (R393): 50,000,000 ticks after step 2 what remains is dropped. -/
def teardownForce (b : Block) : Block :=
  match b.ho.job.tearing with
  | none => b
  | some t =>
    let b := advTo (t + 50000000) b
    let x := tsum (fun c => (c.xfers.filter (fun y => !y.retired)).length) b.units.couriers
    let copies := heldJob b.ho.post.net + tsum (fun c => heldJob c.net) b.units.cores +
      tsum (fun o => heldJob o.memA.net + heldJob o.memB.net) b.units.offices +
      tsum (fun c => heldJob c.net + heldJob c.netI + heldJob c.netE) b.units.couriers
    let r := b.ho.fleet.slots.length + b.ho.fleet.streams.length + b.ho.fleet.bulkOut.length + copies
    let b := b.allCouriers (fun c => { c with xfers := c.xfers.map (fun (y : Xfer) => { y with retired := true }) })
    let b := b.modFleet (fun f => { f with slots := [], streams := [], bulkOut := [] })
    endTeardown (b.modJob (fun j => { j with forcedX := x, forcedR := r }))
def execTeardownForce (s : State) : Host.Outcome State Fault Refusal := act teardownForce s

end Sys2Proof.Machine
end

