-- ==== Sys2Proof/Machine/Registers.lean ====
section
/-! DEFINITION. Commands of the management port: register accesses, doorbells, pops, keys (14_register_map,
03_system_ports R110, R124, R125). -/

namespace Sys2Proof.Machine

open Sys2Proof

/-! ### Shared operations of a write -/

/-- Present a response (R110, R111). (DESIGN CHOICE, log 7.) -/
def respond (data err : Nat) (b : Block) : Block :=
  b.modOuts (fun o => { o with rspData := BitVec.ofNat 32 data, rspErr := BitVec.ofNat 2 err, rsps := o.rsps + 1 })

/-- One access sets several ERR_SUMMARY bits: it is recorded once, under the lowest of them (R447). -/
def recordErrs (offset : Nat) (causes : List Nat) (b : Block) : Block :=
  match causes with
  | [] => b
  | c :: r => (recordErr offset c b).modMgmt (fun m => { m with err := r.foldl (fun e i => maskSet e i true) m.err })

/-- RSV and GRW masks of a register's bits (R13, R428 to R449). -/
def rsvMask (o : Nat) : Nat × Nat :=
  if o < 0x1000 then
    match o with
    | 0x000 => (0xFF000000, 0)
    | 0x008 => (0xFFFE0000, 0x8000)
    | 0x100 => (0xFFFFFFC0, 0)
    | 0x104 => (0xFFFF0000, 0)
    | 0x108 => (0xFFFFFFF0, 0)
    | 0x10C => (0xFFFFFF0E, 0)
    | 0x110 => (0xFFF80000, 0)
    | 0x210 => (0xFFFFFFC0, 0)
    | 0x214 => (0xFFFFFFC0, 0)
    | 0x218 => (0xFFFFFFF0, 0)
    | 0x300 => (0xFFFFF0F0, 0)
    | 0x30C => (0xFFFFFFFE, 0)
    | 0x328 => (0xC0000000, 0)
    | 0x32C => (0xFFFFFF00, 0)
    | 0x400 => (0xFFFFF0C0, 0)
    | 0x404 => (0xFFFFFFFE, 0)
    | 0x500 => (0xF800FFE0, 0)
    | 0x504 => (0x000000F0, 0)
    | 0x508 => (0xFFFFFFC0, 0)
    | 0x600 => (0xFFFFC000, 0)
    | 0x618 => (0xFF000000, 0)
    | 0x700 => (0xFFFF0000, 0)
    | 0x800 => (0xFFFFFE00, 0)
    | 0x804 => (0x7FE00000, 0)
    | 0x808 => (0xFFFF0000, 0)
    | 0x930 => (0xFFFFFFFC, 0)
    | 0x934 => (0xFE000000, 0)
    | 0xA00 => (0xFEFEFEFC, 0)
    | 0xA08 => (0xFFFFF080, 0)
    | _ => (0, 0)
  else if o < 0x1400 then
    match o % 16 with
    | 0 => (0xFFFFE0E0, 0)
    | 4 => (0xFFFFFFFE, 0)
    | 8 => (if 40 ≤ (o - 0x1000) / 16 ∧ (o - 0x1000) / 16 < 56 then 0xFF00FF00 else 0x7F00FF00, 0)
    | _ => (0xFFFF0000, 0x8000)
  else (0, 0)

/-- ERR_SUMMARY bits that reserved bits of a write set (R13). -/
def rsvCauses (o v : Nat) : List Nat :=
  (if v &&& (rsvMask o).1 ≠ 0 then [0] else []) ++ (if v &&& (rsvMask o).2 ≠ 0 then [1] else [])

/-- Write-1-to-clear on a mask. -/
def w1c {w : Nat} (m : BitVec w) (v : Nat) : BitVec w := m &&& ~~~ (BitVec.ofNat w v)

/-- A doorbell (R397, R398, R432): ltr_tail advances unless it would reach ltr_head. -/
def ringBell (r : Nat) (v : Nat) (b : Block) : Block :=
  if ¬ bit v 0 then b
  else
    let x := b.ring r
    if (x.ltrTail + 1) % 32 = x.ltrHead then hoEvent evRingOverrun [] (recordErr (0x1004 + 16 * r) 2 b)
    else pump r 32 (b.modRing r (fun x => { x with ltrTail := (x.ltrTail + 1) % 32 }))

/-- A pop (R430, R433): it releases the record at rcp_head, or sets pop_empty. -/
def popRing (r : Nat) (v : Nat) (b : Block) : Block :=
  if ¬ bit v 31 then b
  else if (b.ring r).recs.isEmpty then recordErr (0x1008 + 16 * r) 3 b
  else
    let b := b.modRing r (fun x => { x with recs := x.recs.drop 1, rcpHead := (x.rcpHead + 1) % ringSize r })
    if r < 40 then drainHeld r b else b

/-! ### Keys (R124, R125, R449, R450) -/

/-- A key from its words, least significant first (R124). -/
def keyOf (ws : List (BitVec 32)) : BitVec 384 := BitVec.ofNat 384 (ws.foldr (fun w acc => w.toNat + 2 ^ 32 * acc) 0)

/-- Refresh sc_keys_zero (R125). -/
def syncKeys (b : Block) : Block := b.modOuts (fun o => { o with keysZero := b.keys.slots.all (· = 0) })

/-- Write a key slot. -/
def setKey (s : Nat) (k : BitVec 384) (b : Block) : Block := syncKeys (b.modKeys (fun x => { x with slots := lset x.slots s k }))

/-- Key loads are accepted in PROVISIONED and FIELD only (R124). -/
def Block.keysOpen (b : Block) : Bool := decide (b.svc.lc = .provisioned) || decide (b.svc.lc = .field)

/-- A load is rejected: the slot is zeroized (R124). -/
def rejectKey (s : Nat) (b : Block) : Block := hoEvent evKeyRejected [] (setIrqMisc 5 (setKey s 0 b))

/-- A rejected or abandoned load of the window also sets last_err (R450). -/
def rejectWin (b : Block) : Block :=
  match b.keys.win with
  | none => b
  | some (s, _) => (rejectKey s b).modKeys (fun k => { k with win := none, lastOk := false, lastErr := true })

/-- A load completes (R124, R436). -/
def acceptKey (s : Nat) (ws : List (BitVec 32)) (b : Block) : Block := hoEvent evKeyLoaded [] (setIrqMisc 5 (setKey s (keyOf ws) b))

/-- Letters that a ring holds for W1. -/
def Ring.waiting (x : Ring) : Nat := (x.ltrTail + 32 - x.ltrHead) % 32 + x.inbox.length

/-- Zeroize every slot (R125): loads are abandoned, letters that wait are checked against the zeroized key, sc_zero_done pulses; sessions and the sender table end (R407, R409). -/
def zeroize (b : Block) : Block :=
  let open' := b.keys.win.isSome
  let b := b.modKeys (fun k => { k with
    slots := List.replicate 4 0
    port := none
    win := none
    lastErr := k.lastErr || open'
    lastOk := k.lastOk && !open' })
  let b := b.modOuts (fun o => { o with keysZero := true, zeroDone := o.zeroDone + 1 })
  let b := (b.modLedger (fun l => { l with senders := [] })).modMail (fun m => { m with
    sessions := []
    rings := tmap (fun _ x => { x with stale := x.waiting }) m.rings })
  hoEvent evZeroized [] (setIrqMisc 5 b)

/-- Both loads overlap on one slot: both are rejected (R124). What is left of the port's load has no effect. -/
def keyClash (s : Nat) (b : Block) : Block :=
  let b := rejectWin b
  (rejectKey s b).modKeys (fun k => { k with port := k.port.map (fun p => (4 + s, p.2)) }) |>.modOuts (fun o => { o with keyErr := o.keyErr + 1 })

/-- The port's load in progress is wrong: its slot is zeroized and sc_key_err pulses, once for a load (R124). -/
def rejectPort (b : Block) : Block :=
  match b.keys.port with
  | none => b
  | some (s, _) =>
    let b := b.modKeys (fun k => { k with port := none })
    if 4 ≤ s then b else (rejectKey s b).modOuts (fun o => { o with keyErr := o.keyErr + 1 })

/-- The words of a load with one more: thirteen stand for any larger number, all of them too many (R124). -/
def keyWords (p : Option (Nat × List (BitVec 32))) (w : BitVec 32) : List (BitVec 32) := ((p.map (·.2)).getD [] ++ [w]).take 13

/-- A word on the key port (R124): a load is judged at its sc_key_last. A word that names another slot cuts the load in
progress short, which is a wrong word count. (DESIGN CHOICE, log 120.) -/
def keyPort (s : Nat) (w : BitVec 32) (last : Bool) (b : Block) : Block :=
  let b : Block := match b.keys.port with | some (t, _) => if t % 4 = s then b else rejectPort b | none => b
  let ws := keyWords b.keys.port w
  let b := b.modKeys (fun k => { k with port := some ((b.keys.port.map (·.1)).getD s, ws) })
  let b := if b.keys.win.map Prod.fst = some s ∧ b.keys.port = some (s, ws) then keyClash s b else b
  if ¬ last then b
  else if b.keysOpen ∧ ws.length = 12 ∧ b.keys.port = some (s, ws) then acceptKey s ws (b.modKeys (fun k => { k with port := none }))
  else rejectPort b

/-- A KEY_CTRL write and its mg_rsp_err (R450). A denied write records only that it was denied. (DESIGN CHOICE, log 119.) -/
def keyCtrl (v : Nat) (b : Block) : Nat × Block :=
  let nBits := b01 (bit v 8) + b01 (bit v 16) + b01 (bit v 24)
  let causes := rsvCauses 0xA00 v ++ (if 1 < nBits then [5] else [])
  if bit v 24 then (0, zeroize (recordErrs 0xA00 causes b))
  else if b.keys.locked ∨ ¬ b.keysOpen then (2, recordErr 0xA00 7 b)
  else if bit v 16 then (0, (rejectWin (recordErrs 0xA00 causes b)).modKeys (fun k => { k with locked := true }))
  else if bit v 8 then
    let s := fld v 0 2
    let b := (rejectWin (recordErrs 0xA00 causes b)).modKeys (fun k => { k with win := some (s, []), winSlot := BitVec.ofNat 2 s })
    if b.keys.port.map Prod.fst = some s then (0, keyClash s b) else (0, b)
  else (0, recordErrs 0xA00 causes b)

/-- A KEY_DATA write and its mg_rsp_err (R450). -/
def keyData (w : BitVec 32) (b : Block) : Nat × Block :=
  if b.keys.locked ∨ ¬ b.keysOpen then (2, recordErr 0xA04 7 b)
  else match b.keys.win with
  | none => (0, recordErr 0xA04 5 b)
  | some (s, ws) =>
    if ws.length = 11 then
      (0, (acceptKey s (ws ++ [w]) b).modKeys (fun k => { k with win := none, lastOk := true, lastErr := false }))
    else (0, b.modKeys (fun k => { k with win := some (s, ws ++ [w]) }))

/-- A CR_ENABLE write by software (R17, R445). -/
def crEnable (v : Nat) (b : Block) : Block :=
  let b := recordErrs 0x700 (rsvCauses 0x700 v) b
  if b.capturing then recordErr 0x700 4 b
  else forEach (List.range 16) (fun n b =>
    let c := b.courier n
    let want := bit v n && !c.portFail && !c.domFail
    if want = c.en then b
    else if want then enablePort n b
    else disablePort n b) b

/-- STOP_CTRL (R441). -/
def stopCtrl (v : Nat) (b : Block) : Block :=
  let b := recordErrs 0x404 (rsvCauses 0x404 v) b
  if bit v 0 then originate .stopCtrl b else b

/-- The Head Office reader's count, which may lag the tree by one of its cycles, less than a tick (R149, R439). (DESIGN CHOICE, log 17; DEDUCED, log 18.) -/
def Block.hoCount (b : Block) : BitVec 64 × Block :=
  let f := freshBit b
  (if f.1 ∧ 0 < b.now then BitVec.ofNat 64 (b.now - 1) else BitVec.ofNat 64 b.now, f.2)

/-- A PM_LATCH_CTRL write (R438, R439). (DEDUCED, log 18.) -/
def pmLatch (v : Nat) (b : Block) : Block :=
  let b := recordErrs 0x30C (rsvCauses 0x30C v) b
  if bit v 0 then
    let c := b.hoCount
    c.2.modPm (fun p => { p with latch := c.1 })
  else b

/-- A write to ERR_SUMMARY: W1C, never recorded; ERR_FIRST.valid falls with the last bit (R447). -/
def errClear (v : Nat) (b : Block) : Block :=
  b.modMgmt (fun m =>
    let e := w1c m.err v
    { m with err := e, errVld := m.errVld && decide (e ≠ 0) })

/-- Fields of the registers that a plain write changes (R436, R438, R443); every other field is RO. -/
def plainWrite (o v : Nat) (b : Block) : Block :=
  match o with
  | 0x200 => b.modMgmt (fun m => { m with irqRing := w1c m.irqRing v })
  | 0x204 => b.modMgmt (fun m => { m with irqRing := w1c m.irqRing (v * 2 ^ 32) })
  | 0x208 => b.modMgmt (fun m => { m with irqRingEn := BitVec.ofNat 64 (hi32 m.irqRingEn.toNat * 2 ^ 32 + v) })
  | 0x20C => b.modMgmt (fun m => { m with irqRingEn := BitVec.ofNat 64 (lo32 m.irqRingEn.toNat + v * 2 ^ 32) })
  | 0x210 => b.modMgmt (fun m => { m with irqMisc := w1c m.irqMisc v })
  | 0x214 => b.modMgmt (fun m => { m with irqMiscEn := BitVec.ofNat 6 v })
  | 0x300 => b.modPm (fun p => { p with slip := p.slip && !bit v 8, missing := p.missing && !bit v 9, drift := p.drift && !bit v 10, width := p.width && !bit v 11 })
  | 0x600 => b.modSvc (fun s => { s with slow := s.slow && !bit v 13 })
  | _ => b

/-- Address in the letter memory of a word of a letter window: the slot at ltr_tail (R432). -/
def letterAddr (o : Nat) (b : Block) : Nat :=
  let r := (o - 0x4000) / 256
  8192 * r + 256 * (b.ring r).ltrTail + o % 256

/-- The letter memory after a management write: a word of a letter window is stored while the register map answers (R429, R432). -/
def letterWrite (o v : Nat) (b : Block) : List Host.Cell :=
  if b.svc.hoOn ∧ mapped o ∧ 0x4000 ≤ o ∧ o < 0x6800 ∧ b.svc.state ≠ .booting then memWrites b.letters (letterAddr o b) (le 4 v)
  else b.letters

/-- The write to a mapped register by offset, with its mg_rsp_err: a bit that the write clears and its error sets ends set (R16). -/
def writeReg (o v : Nat) (b : Block) : Nat × Block :=
  if o = 0x30C then (0, pmLatch v b)
  else if o = 0x404 then (0, stopCtrl v b)
  else if o = 0x700 then (0, crEnable v b)
  else if o = 0x800 then (0, errClear v b)
  else if o = 0xA00 then keyCtrl v b
  else if o = 0xA04 then keyData (BitVec.ofNat 32 v) b
  else if o < 0x1000 then (0, recordErrs o (rsvCauses o v) (plainWrite o v b))
  else if o < 0x1400 then
    let r := (o - 0x1000) / 16
    let b := recordErrs o (rsvCauses o v) b
    match o % 16 with
    | 4 => (0, ringBell r v b)
    | 8 => (0, if 40 ≤ r ∧ r < 56 then b else popRing r v b)
    | 12 => (0, b.modRing r (fun x => { x with dest := BitVec.ofNat 15 v }))
    | _ => (0, b)
  else (0, b)

/-- A write through the management port (R110, R429): no request is accepted while the Head Office domain is off; in
BOOTING a write outside the answering blocks is ignored. (DESIGN CHOICE, log 7.) -/
def winWrite (o v : Nat) (b : Block) : Block :=
  if ¬ b.svc.hoOn then b
  else if ¬ mapped o then respond 0 1 (recordErr o 6 b)
  else if b.svc.state = .booting ∧ ¬ bootBlock o then respond 0 0 b
  else
    let w := writeReg o v b
    respond 0 w.1 w.2

/-! ### The rows -/

/-- REGISTER_WRITE (R110, R13, R16). -/
def execRegisterWrite (offset : BitVec 16) (value : BitVec 32) (s : State) : Host.Outcome State Fault Refusal :=
  match act (winWrite offset.toNat value.toNat) s with
  | .next t => .next { t with blk := { t.blk with letters := if s.blk.env.porN then letterWrite offset.toNat value.toNat s.blk else s.blk.letters } }
  | o => o

/-- MANAGEMENT_PORT_RESET (R429): only the port logic's outputs return to their reset values. -/
def execManagementPortReset (s : State) : Host.Outcome State Fault Refusal :=
  act (fun b => b.modOuts (fun o => { o with rspData := 0, rspErr := 0 })) s

/-- RING_DOORBELL (R432): a write of RING_DOORBELL of a ring. -/
def execRingDoorbell (ring : BitVec 6) (value : BitVec 32) (s : State) : Host.Outcome State Fault Refusal :=
  act (winWrite (0x1004 + 16 * ring.toNat) value.toNat) s

/-- RING_POP (R433): a write of RING_RCPT of a ring. -/
def execRingPop (ring : BitVec 6) (value : BitVec 32) (s : State) : Host.Outcome State Fault Refusal :=
  act (winWrite (0x1008 + 16 * ring.toNat) value.toNat) s

/-- PM_COUNT_READ (R439): PM_COUNT_LO captures all 64 bits and returns the low word. -/
def execPmCountRead (s : State) : Host.Outcome State Fault Refusal :=
  act (fun b =>
    if b.svc.hoOn then
      let c := b.hoCount
      respond (lo32 c.1.toNat) 0 (c.2.modPm (fun p => { p with cap := c.1 }))
    else b) s

/-- PM_LATCH_CAPTURE (R438): a write of PM_LATCH_CTRL. -/
def execPmLatchCapture (value : BitVec 32) (s : State) : Host.Outcome State Fault Refusal := act (winWrite 0x30C value.toNat) s

/-- STOP_CTRL_URGENT (R441): a write of STOP_CTRL. -/
def execStopCtrlUrgent (value : BitVec 32) (s : State) : Host.Outcome State Fault Refusal := act (winWrite 0x404 value.toNat) s

/-- CR_ENABLE_WRITE (R445). -/
def execCrEnableWrite (value : BitVec 32) (s : State) : Host.Outcome State Fault Refusal := act (winWrite 0x700 value.toNat) s

/-- KEY_LOAD_BEGIN (R450): a write of KEY_CTRL. -/
def execKeyLoadBegin (value : BitVec 32) (s : State) : Host.Outcome State Fault Refusal := act (winWrite 0xA00 value.toNat) s

/-- KEY_WINDOW_LOCK (R450): a write of KEY_CTRL. -/
def execKeyWindowLock (value : BitVec 32) (s : State) : Host.Outcome State Fault Refusal := act (winWrite 0xA00 value.toNat) s

/-- KEY_WINDOW_ZEROIZE (R450): a write of KEY_CTRL. -/
def execKeyWindowZeroize (value : BitVec 32) (s : State) : Host.Outcome State Fault Refusal := act (winWrite 0xA00 value.toNat) s

/-- KEY_DATA_WRITE (R450). -/
def execKeyDataWrite (value : BitVec 32) (s : State) : Host.Outcome State Fault Refusal := act (winWrite 0xA04 value.toNat) s

/-- KEY_PORT_WORD (R124). -/
def execKeyPortWord (slot : BitVec 2) (data : BitVec 32) (last : Bool) (s : State) : Host.Outcome State Fault Refusal :=
  act (keyPort slot.toNat data last) s

/-- ZEROIZE_REQUEST (R125). -/
def execZeroizeRequest (s : State) : Host.Outcome State Fault Refusal := act zeroize s

end Sys2Proof.Machine
end

