-- ==== Sys2Proof/Machine/Taps.lean ====
section
/-! DEFINITION. Intake Taps, Egress Taps and Frank ports: the rows of the Courier domains' taps (03_system_ports). -/

namespace Sys2Proof.Machine

open Sys2Proof

/-- The taps of domain n run: powered and not disabled (R109). -/
def Courier.tapsOn (c : Courier) : Bool := c.powered && !c.domFail

/-! ### Intake Tap (R91 to R94, R178) -/

/-- Emit a tile's stamp; a tile that broke R91 has bits [31:16] complemented (R92, R94). -/
def emitStamp (t : IntakeTile) (broken : Bool) (c : Courier) : Courier :=
  let v := BitVec.ofNat 32 (stampOf t.psum t.beats t.tid.toNat t.k t.n t.fmt)
  { c with itPulses := c.itPulses + 1, itStamp := if broken then v ^^^ 0xFFFF0000 else v, itStampTid := t.tid, itTile := none
           itStamps := c.itStamps ++ [(if broken then v ^^^ 0xFFFF0000 else v, t.tid)] }

/-- Fold one beat into the open tile, whose column index follows from beat order (R52, R91, R178). A beat outside the N
columns or the ⌈K/32⌉ segments breaks R91 (R94). -/
def foldIntake (d : BitVec 64) (b : IntakeBeat) (t : IntakeTile) : IntakeTile :=
  let col := tcnt t.cols b.kseg.toNat
  { t with
    beats := t.beats + 1
    cols := tadd t.cols b.kseg.toNat 1
    psum := (t.psum + beatP d t.k b.kseg.toNat col b.data.toNat b.scale.toNat) % M13
    wide := t.wide || decide (t.n ≤ col) || decide (ceilDiv t.k 32 ≤ b.kseg.toNat) }

/-- One beat of an Intake Tap; the flag says that INTAKE_ORDER is reported. -/
def intakeStep (b : IntakeBeat) (c : Courier) : Bool × Courier :=
  let fold (c : Courier) (t : IntakeTile) : Bool × Courier :=
    let t := foldIntake (c.itFmt.getD t.fmt 0xF) b t
    if b.last then
      let broken := t.wide || decide (t.beats ≠ tileBeats t.k t.n)
      (broken, emitStamp t broken c)
    else (false, { c with itTile := some t })
  if b.first then
    let fresh : IntakeTile := { tid := b.tid, fmt := b.fmt.toNat, k := b.k.toNat + 1, n := b.n.toNat + 1 }
    match c.itTile with
    | some t =>
      let r := fold (emitStamp t true c) fresh
      (true, r.2)
    | none => fold c fresh
  else match c.itTile with
  | some t => fold c t
  | none => (true, { c with itIgnored := c.itIgnored + 1 })

/-- INTAKE_BEAT (R91). -/
def intakeBeat (n : Nat) (x : IntakeBeat) (b : Block) : Block :=
  if ¬ (b.courier n).tapsOn then b
  else
    let r := intakeStep x { b.courier n with itStamps := [] }
    let b := b.setCourier n r.2
    if r.1 then postEvent evIntakeOrder (unitIntake n) [] b else b
def execIntakeBeat (n : BitVec 4) (x : IntakeBeat) (s : State) : Host.Outcome State Fault Refusal := act (intakeBeat n.toNat x) s

/-! ### Egress Tap (R96 to R99, R181, R484) -/

/-- Change the counts charged to a step; `none` is the step that the next et_step_end closes (R484). (DESIGN CHOICE, log 109.) -/
def modCount (step : Option Nat) (f : EgressCount → EgressCount) (l : List EgressCount) : List EgressCount :=
  if l.any (fun x => x.step = step) then l.map (fun x => if x.step = step then f x else x) else l ++ [f { step := step }]

/-- Close a group: clean, MISMATCH_RESIDUE or UNCHECKABLE (R97, R484). -/
def closeGroup (g : EgressGroup) (c : Courier) : Courier :=
  let unchk := g.unchk || !(g.inEnd && g.outEnd)
  let bad := !unchk && decide (g.inSum ≠ g.outSum)
  { c with
    groups := c.groups.filter (fun x => x.grp ≠ g.grp)
    counts := modCount g.step (fun x => { x with
      closed := x.closed + 1
      mismatch := x.mismatch + b01 bad
      unchk := x.unchk + b01 unchk
      first := if (bad || unchk) && x.first.isNone then some (g.grp, unchk) else x.first
      firstAt := if (bad || unchk) && x.first.isNone then c.uncleanSeq else x.firstAt }) c.counts
    uncleanSeq := c.uncleanSeq + 1 }

/-- Write a group back, closing it once both sides have ended. -/
def putGroup (g : EgressGroup) (c : Courier) : Courier :=
  let c := { c with groups := c.groups.map (fun x => if x.grp = g.grp then g else x) }
  if g.inEnd && g.outEnd then closeGroup g c else c

/-- One beat on a side of the Egress Tap: (raised EGRESS_LAG, raised EGRESS_ORDER, tap). (DESIGN CHOICE, log 56.) -/
def egressBeat (out : Bool) (x : EgressBeat) (c : Courier) : Bool × Bool × Courier :=
  let id := x.grp.toNat
  let fold (g : EgressGroup) (e : BitVec 8) : EgressGroup :=
    let v := egressFold x.lv x.data e
    if out then { g with outSum := (g.outSum + v) % M13, outEnd := g.outEnd || x.last }
    else { g with inSum := (g.inSum + v) % M13, inEnd := g.inEnd || x.last }
  match c.groups.find? (fun g => g.grp = id) with
  | some g =>
    if x.first then
      -- A second first beat on a side that has begun: DESIGN CHOICE, handled as a stray beat.
      if (if out then g.outExp else g.inExp).isSome then (false, true, putGroup { g with unchk := true } c)
      else
        let g := if out then { g with outExp := some x.lsbExp } else { g with inExp := some x.lsbExp, step := some x.step.toNat }
        (false, false, putGroup (fold g x.lsbExp) c)
    else match (if out then g.outExp else g.inExp) with
    | some e => (false, false, putGroup (fold g e) c)
    | none => (false, true, putGroup { g with unchk := true } c)
  | none =>
    if x.first then
      let lag := decide (64 ≤ c.groups.length)
      let c := match c.groups with
        | g :: _ => if lag then closeGroup { g with unchk := true } c else c
        | [] => c
      let g : EgressGroup := { grp := id, step := if out then none else some x.step.toNat, inExp := if out then none else some x.lsbExp, outExp := if out then some x.lsbExp else none }
      (lag, false, putGroup (fold g x.lsbExp) { c with groups := c.groups ++ [g] })
    else (false, true, { c with
      stray := if c.stray.contains id then c.stray else c.stray ++ [id]
      strayAt := if c.stray.isEmpty then c.uncleanSeq else c.strayAt
      uncleanSeq := c.uncleanSeq + 1 })

/-- A beat on a side of Egress Tap n. (DESIGN CHOICE, log 56.) -/
def egressTap (out : Bool) (n : Nat) (x : EgressBeat) (b : Block) : Block :=
  if ¬ (b.courier n).tapsOn then b
  else
    let r := egressBeat out x (b.courier n)
    let b := b.setCourier n r.2.2
    let b := if r.1 then postEvent evEgressLag (unitEgress n) [] b else b
    if r.2.1 then postEvent evEgressOrder (unitEgress n) [] b else b

/-- EGRESS_INPUT_BEAT (R96). -/
def execEgressInputBeat (n : BitVec 4) (x : EgressBeat) (s : State) : Host.Outcome State Fault Refusal := act (egressTap false n.toNat x) s
/-- EGRESS_OUTPUT_BEAT (R97). -/
def execEgressOutputBeat (n : BitVec 4) (x : EgressBeat) (s : State) : Host.Outcome State Fault Refusal := act (egressTap true n.toNat x) s

/-- The tap after et_step_end of a step, and the summary's counts: first_grp names the group first found not clean, be it
a group of the step, one whose input side never began or a stray one (R98, R99, R484). (DESIGN CHOICE, log 56.) -/
def stepEnd (step : Nat) (c : Courier) : EgressCount × Courier :=
  let late := c.groups.filter (fun g => g.step = some step || g.step.isNone)
  let c := late.foldl (fun c g => closeGroup { g with unchk := true } c) c
  let get (k : Option Nat) : EgressCount := (c.counts.find? (fun x => x.step = k)).getD {}
  let own := get (some step)
  let non := get none
  let found : List (Nat × Nat × Bool) :=
    (match own.first with | some g => [(own.firstAt, g)] | none => []) ++
    (match non.first with | some g => [(non.firstAt, (g.1, true))] | none => []) ++
    (match c.stray.head? with | some i => [(c.strayAt, (i, true))] | none => [])
  let sum : EgressCount := {
    step := some step
    closed := own.closed + non.closed
    mismatch := own.mismatch
    unchk := own.unchk + non.closed + c.stray.length
    first := (sortBy (fun a e => decide (a.1 ≤ e.1)) found).head?.map (·.2) }
  (sum, { c with counts := c.counts.filter (fun x => x.step ≠ some step && x.step.isSome), stray := [] })

/-- The summary flit of R99. -/
def summaryFlit (x : EgressCount) : Flit :=
  let clean := decide (x.mismatch = 0) && decide (x.unchk = 0)
  BitVec.ofNat 128 (packF [(0, x.step.getD 0), (32, sat 16 x.closed), (48, sat 16 x.mismatch), (64, sat 16 x.unchk),
    (80, if clean then 0 else (x.first.map (·.1)).getD 0), (96, b01 clean),
    (97, if clean then 0 else match x.first with | some f => b01 f.2 | none => 0)])

/-- EGRESS_STEP_END (R98, R99). -/
def egressStepEnd (n step : Nat) (b : Block) : Block :=
  if ¬ (b.courier n).tapsOn then b
  else
    let r := stepEnd step (b.courier n)
    unicast (unitEgress n) unitHO 0x14 [summaryFlit r.1] (b.setCourier n r.2)
def execEgressStepEnd (n : BitVec 4) (step : BitVec 32) (s : State) : Host.Outcome State Fault Refusal :=
  act (egressStepEnd n.toNat step.toNat) s

/-! ### Frank ports (R100 to R102, R132) -/

/-- A notice falls due on port n: queued, or dropped with FRANK_STUCK when 4 wait (R102). (DESIGN CHOICE, log 57.) -/
def frankDue (x : Notice) (n : Nat) (b : Block) : Block :=
  let c := b.courier n
  if ¬ c.tapsOn then b
  else if 4 ≤ c.notices.length then stopJobNext (postEvent evFrankStuck (unitEgress n) [] b)
  else presentHead n (b.modCourier n (fun c => { c with notices := c.notices ++ [x] }))

/-- FRANK_PRESENT (R101): at F_c the oldest notice due is queued on every Frank port. No Frank is issued in SAFE (R30). (DESIGN CHOICE, log 42.) -/
def frankPresent (b : Block) : Block :=
  match b.ho.job.due with
  | [] => b
  | x :: r =>
    if b.svc.state = .safe ∨ ¬ b.hoRuns then b
    else forEach (List.range 16) (frankDue x) (advTo x.pm.toNat (b.modJob (fun j => { j with due := r })))
def execFrankPresent (s : State) : Host.Outcome State Fault Refusal := act frankPresent s

/-- FRANK_ACCEPT (R101): et_fr_rdy meets et_fr_vld. (DESIGN CHOICE, log 42.) -/
def frankAccept (n : Nat) (b : Block) : Block :=
  if (b.courier n).frVld then
    presentHead n (b.modCourier n (fun c => { c with notices := c.notices.drop 1, frVld := false }))
  else b
def execFrankAccept (n : BitVec 4) (s : State) : Host.Outcome State Fault Refusal := act (frankAccept n.toNat) s

end Sys2Proof.Machine
end

