-- ==== Sys2Proof/Machine/Couriers.lean ====
section
/-! DEFINITION. Courier ports: links, transfers, message-lane flits, fleet packets and transit slots (03_system_ports
R103 to R109, 10_fleet_messaging R313 to R324). -/

namespace Sys2Proof.Machine

open Sys2Proof

/-! ### Links and transfers (R103 to R108) -/

/-- CR_LINK_UP (R107): the port starts with its configured credits. (DESIGN CHOICE, log 58.) -/
def crLinkUp (n : Nat) (b : Block) : Block :=
  let b := b.modCourier n (fun c => { c with linkUp := true })
  if (b.courier n).powered ∧ ¬ (b.courier n).domFail ∧ (b.courier n).en then startPort n b else b
def execCrLinkUp (n : BitVec 4) (s : State) : Host.Outcome State Fault Refusal := act (crLinkUp n.toNat) s

/-- CR_LINK_DOWN (R108): nothing further is issued; outstanding transfers complete with response 1. -/
def crLinkDown (n : Nat) (b : Block) : Block :=
  let b := b.modCourier n (fun c => { c with linkUp := false })
  if (b.courier n).en then portStop n b else b
def execCrLinkDown (n : BitVec 4) (s : State) : Host.Outcome State Fault Refusal := act (crLinkDown n.toNat) s

/-- CR_WRITE_RESPONSE (R103): matched by identifier. -/
def crWriteResponse (n id resp : Nat) (b : Block) : Block :=
  if ¬ b.portUp n then b
  else match (b.courier n).xfers.find? (fun x => decide (x.id = id) && x.write) with
  | none => b
  | some x => xferEnd n x resp b
def execCrWriteResponse (n : BitVec 4) (id : BitVec 10) (resp : BitVec 2) (s : State) : Host.Outcome State Fault Refusal :=
  act (crWriteResponse n.toNat id.toNat resp.toNat) s

/-- Parity of the low n bits of v. -/
def parityOf (n v : Nat) : Bool := (List.range n).foldl (fun a i => a ^^ bit v i) false

/-- Some 32-bit lane of the data disagrees with its even parity bit (R104, cr_mr_par). -/
def laneParityBad (lanes data par : Nat) : Bool :=
  (List.range lanes).any (fun i => parityOf 32 (fld data (32 * i) 32) ^^ bit par i)

/-- Even parity of 32-bit lanes (cr_mt_par, cr_w_par). -/
def laneParity (lanes data : Nat) : Nat := packF ((List.range lanes).map (fun i => (i, b01 (parityOf 32 (fld data (32 * i) 32)))))

/-- CR_READ_BEAT (R104): a beat with bad parity fails the whole transfer and raises CR_PARITY. -/
def crReadBeat (n id : Nat) (data : BitVec 2048) (par : Nat) (last : Bool) (resp : Nat) (b : Block) : Block :=
  if ¬ b.portUp n then b
  else match (b.courier n).xfers.find? (fun x => decide (x.id = id) && !x.write) with
  | none => b
  | some x =>
    let broken := laneParityBad 64 data.toNat par
    let b := if broken then postEvent evCrParity (unitCourier n) [] b else b
    let y : Xfer := { x with got := x.got + 1, data := x.data ++ [data], bad := x.bad || broken }
    if last then
      xferEnd n y (if resp ≠ 0 then resp else if y.bad ∨ y.got ≠ y.beats then 1 else 0) b
    else b.modCourier n (fun c => { c with xfers := c.xfers.map (fun (z : Xfer) => if z.id = id then y else z) })
def execCrReadBeat (n : BitVec 4) (id : BitVec 10) (data : BitVec 2048) (par : BitVec 64) (last : Bool) (resp : BitVec 2) (s : State) :
    Host.Outcome State Fault Refusal :=
  act (crReadBeat n.toNat id.toNat data par.toNat last resp.toNat) s

/-! ### Fleet packets on a link (R318, R319) -/

/-- Pack Post flits and the trailer into message-lane flits; fcrc comes from the wafer where the packet began (R318). (DESIGN CHOICE, log 59.) -/
def packFleet (hdr : Flit) (pl : List Flit) (fcrc : BitVec 32) : List CourierFlit :=
  let n := ceilDiv (pl.length + 2) 4
  let trailer : Flit := BitVec.ofNat 128 (packF [(0, fcrc.toNat), (32, pl.length)])
  let body := hdr :: pl
  let slots := body ++ List.replicate (4 * n - 1 - body.length) 0 ++ [trailer]
  (List.range n).map (fun i =>
    let d := packF ((List.range 4).map (fun j => (128 * j, (slots.getD (4 * i + j) 0).toNat)))
    ⟨decide (i = 0), decide (i + 1 = n), BitVec.ofNat 512 d, BitVec.ofNat 16 (laneParity 16 d)⟩)

/-- The 128-bit slots of message-lane flits. -/
def flitSlots (fs : List CourierFlit) : List Flit :=
  fs.flatMap (fun f => (List.range 4).map (fun j => BitVec.ofNat 128 (fld f.data.toNat (128 * j) 128)))

/-- What a receiving port finds in a packet (R14, R318). -/
inductive Unpacked where
  | malformed
  | badCrc
  | good (hdr : Flit) (pl : List Flit) (fcrc : BitVec 32)
  deriving DecidableEq, Repr

/-- Unpack the flits of one packet. (DESIGN CHOICE, log 59.) -/
def unpackFleet (fs : List CourierFlit) : Unpacked :=
  let slots := flitSlots fs
  let trailer := slots.getLastD 0
  let len := hF trailer 32 3
  let hdr := slots.getD 0 0
  let pl := slice slots 1 len
  if fs.length ≠ ceilDiv (len + 2) 4 ∨ hF trailer 35 93 ≠ 0 ∨ len = 0 ∨ 4 < len ∨ hLen hdr ≠ len ∨ ¬ hFleet hdr ∨ hPtype hdr ≠ 0 ∨
      hF hdr 20 2 ≠ 0 ∨ hF hdr 102 2 ≠ 0 ∨ hF hdr 104 8 ≠ 0 ∨
      (fs.map (·.sop)) ≠ true :: List.replicate (fs.length - 1) false then .malformed
  else if fs.any (fun f => laneParityBad 16 f.data.toNat f.par.toNat) ∨ hF trailer 0 32 ≠ fcrcOf pl then .badCrc
  else .good hdr pl (BitVec.ofNat 32 (hF trailer 0 32))

/-- CR_FLIT_TRANSMIT (R107, R318): one flit of the lane goes while a credit is held; with none in progress the next
packet is taken from the lane's transit slots, its hop_ptr incremented, and the slot freed. (DESIGN CHOICE, log 60.) -/
def loadLane (n vc : Nat) (b : Block) : Block :=
  let c := b.courier n
  if (tget c.txq vc).getD [] ≠ [] then b
  else match c.transit.find? (fun t => decide (t.1 / 16 = vc) && t.2.pkt.isSome) with
  | none => b
  | some (k, t) =>
    match t.pkt with
    | none => b
    | some p =>
      let pl := match p.pl with
        | r :: rest => hSet r 60 4 (hF r 60 4 + 1) :: rest
        | [] => []
      reportTo n (k % 16) (b.modCourier n (fun c => { c with
        txq := tset c.txq vc (packFleet p.hdr pl p.fcrc)
        transit := tset c.transit k { t with pkt := none, freed := t.freed + 1 } }))

def crFlitTransmit (n vc : Nat) (b : Block) : Block :=
  if ¬ b.portUp n ∨ 10 ≤ vc ∨ lnat (b.courier n).credits vc = 0 then b
  else
    let b := loadLane n vc b
    match (tget (b.courier n).txq vc).getD [] with
    | [] => b
    | f :: r => b.modCourier n (fun c => { c with
        mt := some (vc, f)
        txq := tset c.txq vc r
        credits := lset c.credits vc (lnat c.credits vc - 1) })
def execCrFlitTransmit (n : BitVec 4) (vc : BitVec 4) (s : State) : Host.Outcome State Fault Refusal :=
  act (crFlitTransmit n.toNat vc.toNat) s

/-- CR_CREDIT_RETURN (R107). (DEDUCED, log 110.) -/
def crCreditReturn (n vc : Nat) (b : Block) : Block :=
  if ¬ b.portUp n ∨ 10 ≤ vc then b
  else b.modCourier n (fun c => { c with credits := lset c.credits vc (lnat c.credits vc + 1) })
def execCrCreditReturn (n : BitVec 4) (vc : BitVec 4) (s : State) : Host.Outcome State Fault Refusal :=
  act (crCreditReturn n.toNat vc.toNat) s

/-- CR_FLIT_RECEIVE (R105, R107): a flit of a reserved channel value is malformed, one without a credit is discarded. (DESIGN CHOICE, log 59; DEDUCED, log 110.) -/
def crFlitReceive (n vc : Nat) (f : CourierFlit) (b : Block) : Block :=
  if ¬ b.portUp n then b
  else if 10 ≤ vc then b.modCourier n (fun c => { c with malformed := c.malformed + 1 })
  else if lnat (b.courier n).hostCr vc = 0 then
    postEvent evCrOverrun (unitCourier n) [] (b.modCourier n (fun c => { c with overrun := c.overrun + 1 }))
  else
    let b := if laneParityBad 16 f.data.toNat f.par.toNat then postEvent evCrParity (unitCourier n) [] b else b
    b.modCourier n (fun c => { c with
      hostCr := lset c.hostCr vc (lnat c.hostCr vc - 1)
      rxq := tset c.rxq vc ((tget c.rxq vc).getD [] ++ [f]) })
def execCrFlitReceive (n : BitVec 4) (vc : BitVec 4) (f : CourierFlit) (s : State) : Host.Outcome State Fault Refusal :=
  act (crFlitReceive n.toNat vc.toNat f) s

/-! ### Receiving a packet (R319, R322, R323) -/

/-- The flits of the first packet in a buffer, up to its eop; none while it is incomplete. A packet is at most two
flits, so a third with no eop makes it malformed. -/
def firstPacket (q : List CourierFlit) : Option (List CourierFlit) :=
  match q with
  | [] => none
  | a :: r =>
    if a.eop then some [a]
    else match r with
    | [] => none
    | c :: r2 => if c.eop then some [a, c] else if r2.isEmpty then none else some (a :: c :: r2)

/-- Drain flits from a buffer and return their credits to the host (R107). -/
def drainRx (n vc k : Nat) (b : Block) : Block :=
  b.modCourier n (fun c => { c with
    rxq := tset c.rxq vc (((tget c.rxq vc).getD []).drop k)
    hostCr := lset c.hostCr vc (lnat c.hostCr vc + k) })

/-- Count a fleet packet that is discarded: 0 FLEET_CRC, 1 MISDELIVERED, 3 LINK_DOWN_DROP, 6 not routable (R276, R318, R319, R336). (DESIGN CHOICE, log 92.) -/
def fleetDrop (n key code : Nat) (b : Block) : Block :=
  postEvent code (unitCourier n) [] (b.modFleet (fun f => { f with drops := tadd f.drops key 1 }))

/-- A source's view of its slot: usable while sent equals freed (R323). -/
def Block.slotFree (b : Block) (port lane src : Nat) : Bool := let t := b.slotAt port lane src; t.sent = t.seenFree

/-- A source sends into its slot: its sent count rises (R323). (DESIGN CHOICE, log 60.) -/
def claimSlot (port lane src : Nat) (b : Block) : Block :=
  let t := b.slotAt port lane src
  b.modCourier port (fun c => { c with transit := tset c.transit (16 * lane + src) { t with sent := t.sent + 1, since := b.now } })

/-- The delivery credits of a port for a class: Requests and Forwards have them (R323). -/
def modDlv (n cls : Nat) (f : Delivery → Delivery) (b : Block) : Block :=
  match cls with
  | 0 => b.modCourier n (fun c => { c with dlvReq := f c.dlvReq })
  | 2 => b.modCourier n (fun c => { c with dlvFwd := f c.dlvFwd })
  | _ => b
def Block.dlvOf (b : Block) (n cls : Nat) : Delivery := if cls = 2 then (b.courier n).dlvFwd else (b.courier n).dlvReq

/-- A port may deliver to the Head Office: a Request or Forward while fewer than 16 of its packets are there or on the way (R323, R324). -/
def Block.mayDeliver (b : Block) (n cls : Nat) : Bool :=
  (decide (cls ≠ 0) && decide (cls ≠ 2)) || (let d := b.dlvOf n cls; decide ((d.sent - d.seenFree).toNat < 16))

/-- Send a good packet on: in transit, to the Head Office, or nowhere (R319). A wafer number of 32,768 or more is not
routable (R276). `none`: its place is not free and it waits. (DESIGN CHOICE, log 59.) -/
def fleetOnward (n vc : Nat) (hdr : Flit) (pl : List Flit) (fcrc : BitVec 32) (b : Block) : Option Block :=
  let r := pl.getD 0 0
  let cnt := hF r 56 4
  let ptr := hF r 60 4
  let hop := hF r (64 + 5 * ptr) 5
  let cls := vc / 2
  let bad := b.modCourier n (fun c => { c with malformed := c.malformed + 1 })
  if routeBad r ∨ cnt < ptr ∨ (2 ≤ pl.length ∧ hF (pl.getD 1 0) 0 3 ≠ cls) then some bad
  else if 32768 ≤ hF r 0 16 ∨ 32768 ≤ hF r 16 16 then some (fleetDrop n 6 evUnroutable b)
  else if ptr < cnt then
    let port := hop % 16
    if 16 ≤ hop ∨ port = n then some bad
    else if ¬ b.portUp port then some (fleetDrop n 3 evLinkDownDrop b)
    else
      let lane := b.laneFor cls port (decide (vc = 7)) (some (n, vc % 2))
      if b.slotFree port lane n then
        some (sendPktL lane fcrc (unitCourier n) (unitCourier port) 0 (hSvc hdr) 0x15 0 true pl (claimSlot port lane n b))
      else none
  else if hF r 0 16 ≠ b.wafer then some (fleetDrop n 1 evMisdelivered b)
  else if b.mayDeliver n cls then
    some (sendPktL vc fcrc (unitCourier n) unitHO 0 0x15 0x15 0 true pl (modDlv n cls (fun d => { d with sent := d.sent + 1, since := b.now }) b))
  else none

/-- FLEET_PACKET_RECEIVE (R318, R319, R322): the packet at the head of a receive buffer leaves it once its place is
reserved; until then it waits and its credits are withheld. -/
def fleetPacketReceive (n vc : Nat) (b : Block) : Block :=
  if ¬ b.portUp n ∨ 10 ≤ vc then b
  else match firstPacket ((tget (b.courier n).rxq vc).getD []) with
  | none => b
  | some fs =>
    match unpackFleet fs with
    | .malformed => drainRx n vc fs.length (b.modCourier n (fun c => { c with malformed := c.malformed + 1 }))
    | .badCrc => drainRx n vc fs.length (fleetDrop n 0 evFleetCrc b)
    | .good hdr pl fcrc =>
      match fleetOnward n vc hdr pl fcrc b with
      | none => b
      | some b => drainRx n vc fs.length b
def execFleetPacketReceive (n : BitVec 4) (vc : BitVec 4) (s : State) : Host.Outcome State Fault Refusal :=
  act (fleetPacketReceive n.toNat vc.toNat) s

/-! ### Transit slots (R323) -/

/-- The Head Office reports the delivery counts of a port to it: a RELAY packet with fleet = 0 (R323). The spec lays the report
out nowhere: arrived and freed of Requests, then of Forwards, 8 bits each. (DESIGN CHOICE, log 60.) -/
def reportDlv (n : Nat) (b : Block) : Block :=
  let c := b.courier n
  sendPkt unitHO (unitCourier n) 0 0x15 0x15 0 false
    [BitVec.ofNat 128 (packF [(0, c.dlvReq.arrived.toNat), (8, c.dlvReq.freed.toNat), (16, c.dlvFwd.arrived.toNat), (24, c.dlvFwd.freed.toNat)])] b

/-- A report of transit slots reaches the source that it is for (R323). -/
def takeReport (port src f : Nat) (b : Block) : Block :=
  b.modCourier port (fun c => { c with transit := tmap (fun k (t : Transit) =>
    if k % 16 = src then { t with seenArr := BitVec.ofNat 4 (fld f (8 * (k / 16)) 4), seenFree := BitVec.ofNat 4 (fld f (8 * (k / 16) + 4) 4) } else t) c.transit })

/-- A report of delivery counts reaches its port (R323). -/
def takeDlv (n f : Nat) (b : Block) : Block :=
  let put (o : Nat) (d : Delivery) : Delivery := { d with seenArr := BitVec.ofNat 5 (fld f o 5), seenFree := BitVec.ofNat 5 (fld f (o + 8) 5) }
  modDlv n 2 (put 16) (modDlv n 0 (put 0) b)

/-- TRANSIT_SLOT_REPORT (R323): every 10,000 ticks a port reports its counts to each source that has used a slot, and the Head
Office its delivery counts to the port. A count that changes is reported with the change. (DESIGN CHOICE, log 60.) -/
def transitReport (n : Nat) (b : Block) : Block :=
  if (b.courier n).tapsOn then
    let b := forEach (dedup ((b.courier n).transit.map (fun t => t.1 % 16))) (reportTo n) b
    if b.hoRuns then reportDlv n b else b
  else b
def execTransitSlotReport (n : BitVec 4) (s : State) : Host.Outcome State Fault Refusal := act (transitReport n.toNat) s

/-- The delivery counts of a port for a class are given up like a slot's (R323). -/
def dlvLost (n cls : Nat) (b : Block) : Block :=
  let d := b.dlvOf n cls
  if (cls ≠ 0 ∧ cls ≠ 2) ∨ d.sent = d.arrived then b
  else
    let b := advTo (d.since + 20000) b
    let b := modDlv n cls (fun d => { d with sent := d.arrived, seenArr := d.arrived, seenFree := d.freed }) b
    postEvent evTransitLost (unitCourier n) [] (b.modFleet (fun f => { f with drops := tadd f.drops 2 1 }))

/-- TRANSIT_LOST (R323): arrived has stayed below sent for 20,000 ticks; sent becomes arrived. The source numbered 16 or
like the port itself is the Head Office; a number above 16 names the port's own deliveries to the Head Office in the lane's class. -/
def transitLost (n vc src : Nat) (b : Block) : Block :=
  if 16 < src then dlvLost n (vc / 2) b
  else
    let src := if 16 ≤ src then n else src
    let t := b.slotAt n vc src
    if 10 ≤ vc ∨ t.sent = t.arrived then b
    else
      let b := advTo (t.since + 20000) b
      let b := b.modCourier n (fun c => { c with
        transit := tset c.transit (16 * vc + src) { t with sent := t.arrived, seenArr := t.arrived, seenFree := t.freed } })
      postEvent evTransitLost (if src = n then unitHO else unitCourier src) [] (b.modFleet (fun f => { f with drops := tadd f.drops 2 1 }))
def execTransitLost (n : BitVec 4) (vc : BitVec 4) (source : BitVec 5) (s : State) : Host.Outcome State Fault Refusal :=
  act (transitLost n.toNat vc.toNat source.toNat) s

end Sys2Proof.Machine
end

