-- ==== Sys2Proof/Machine/Fleet.lean ====
section
/-! DEFINITION. Fleet messages in the Head Office: assembly, partners, letters and receipts between wafers, relays,
Bulk streams and collectives (10_fleet_messaging R320 to R336, 12_parcels R388, R394). -/

namespace Sys2Proof.Machine

open Sys2Proof

/-! ### Partners (R329 to R335) -/

/-- Ring neighbours (R313, R329). -/
def Block.neighbours (b : Block) : List Nat :=
  dedup (((List.range 16).filter (fun p => decide (1 < lnat b.ho.fleet.len (p / 2)))).map (fun p => hopTo b.ho.fleet.len b.wafer p))

/-- The partner holds a parcel of this wafer (R330). -/
def Block.isHolder (b : Block) (w : Nat) : Bool :=
  b.ledger.gens.any (fun g => decide (g.holder1 = w) || decide (g.holder2 = w)) ||
    (match b.taking with | some g => decide (g.holder1 = w) || decide (g.holder2 = w) | none => false)

/-- This wafer holds a parcel of the partner (R330). -/
def Block.isHoldee (b : Block) (w : Nat) : Bool := b.ledger.holds.any (fun h => decide (h.holdee = w))

/-- Wafers that are polled with HELLO (R329). -/
def Block.polled (b : Block) : List Nat :=
  let hs := b.ledger.gens.flatMap (fun g => [g.holder1, g.holder2])
  dedup (b.neighbours ++ b.ho.parcel.holder1.toList ++ b.ho.parcel.holder2.toList ++ hs ++ b.ledger.holds.map (·.holdee)) |>.filter (· ≠ b.wafer)

/-- A chosen Holder still meets what it was chosen for (R335). -/
def Block.holderFit (b : Block) (w : Nat) (standIn : Bool) : Bool :=
  match tget b.ho.fleet.partners w with
  | none => false
  | some p => decide (p.state = 0) && decide (pagesGiB b.parcelPages ≤ p.cap) && (standIn || b.independent p)

/-- Select again when a chosen wafer no longer fits (R335). -/
def reselect (b : Block) : Block :=
  let bad1 : Bool := match b.ho.parcel.holder1 with | some w => !b.holderFit w false | none => false
  let bad2 : Bool := match b.ho.parcel.holder2 with | some w => !b.holderFit w (decide (fld b.ho.parcel.exposure.toNat 0 3 ≠ 0)) | none => false
  if bad1 ∨ bad2 then selectHolders b else b

def modPartner (w : Nat) (f : Partner → Partner) (b : Block) : Block :=
  b.modFleet (fun x => { x with partners := match tget x.partners w with | some p => tset x.partners w (f p) | none => x.partners })

/-- A packet from a partner has come: a STALE one is LIVE again (R330, R331). -/
def heardFrom (w : Nat) (b : Block) : Block :=
  match tget b.ho.fleet.partners w with
  | none => b
  | some p =>
    let b := modPartner w (fun p => { p with heard := b.now, state := if p.state = 1 then 0 else p.state }) b
    if p.state = 1 then hoEvent evPartnerLive [] b else b

/-- PARTNER_STALE (R331, R384): the partner has been silent past its limit. -/
def partnerStale (w : Nat) (b : Block) : Block :=
  match tget b.ho.fleet.partners w with
  | none => b
  | some p =>
    if p.state ≠ 0 ∨ ¬ b.hoRuns then b
    else
      let b := advTo (p.heard + if b.polled.contains w then 3000000000 else 10000000000) b
      let b := hoEvent evPartnerStale [] (modPartner w (fun p => { p with state := 1, since := b.now }) b)
      let b := match b.taking with
        | some g =>
          let b := if g.holder1 = w ∧ ¬ b.ho.parcel.fail1 ∧ b.ho.parcel.ans1.isNone then failCopy false b else b
          if g.holder2 = w ∧ ¬ b.ho.parcel.fail2 ∧ b.ho.parcel.ans2.isNone then failCopy true b else b
        | none => b
      let b := match b.ho.parcel.rerep with
        | some r => if r.holder = w then failRerep b else b
        | none => b
      reselect b
def execPartnerStale (wafer : BitVec 16) (s : State) : Host.Outcome State Fault Refusal := act (partnerStale wafer.toNat) s

/-- PARTNER_REMOVE (R331). -/
def partnerRemove (w : Nat) (b : Block) : Block :=
  match tget b.ho.fleet.partners w with
  | none => b
  | some p =>
    if p.state = 0 ∨ b.isHolder w ∨ b.isHoldee w ∨ ¬ b.hoRuns then b
    else (advTo (p.since + 60000000000) b).modFleet (fun f => { f with partners := tdel f.partners w })
def execPartnerRemove (wafer : BitVec 16) (s : State) : Host.Outcome State Fault Refusal := act (partnerRemove wafer.toNat) s

/-- HELLO_PERIODIC (R329, R388): HELLO to every polled wafer, and PARCEL_QUERY to the Holders of the restore points. -/
def helloPeriodic (b : Block) : Block :=
  if ¬ b.hoRuns then b
  else
    let b := match b.ho.fleet.helloAt with
      | some t => advTo (t + 1000000000) b
      | none => b
    let b := b.modFleet (fun f => { f with helloAt := some b.now })
    let b := forEach b.polled sendHello b
    forEach (dedup (b.ledger.gens.flatMap (fun g => [g.holder1, g.holder2]))) (fun w b => sendLetter w 0x612 (le 2 b.wafer ++ [0, 0]) w b) b
def execHelloPeriodic (s : State) : Host.Outcome State Fault Refusal := act helloPeriodic s

/-! ### Assembly (R320, R321, R324) -/

/-- mclass of each mtype (R321). -/
def mtypeClass (t : Nat) : Option Nat :=
  match t with
  | 0x01 => some 0 | 0x10 => some 0 | 0x20 => some 0
  | 0x02 => some 1 | 0x11 => some 1 | 0x13 => some 1 | 0x21 => some 1 | 0x23 => some 1
  | 0x12 => some 2 | 0x30 => some 3 | 0x31 => some 3 | 0x22 => some 4
  | _ => none

/-- Reserved fields or inconsistent lengths of a fleet packet (R14, R320, R321). -/
def fleetBad (pl : List Flit) : Bool :=
  let h := pl.getD 1 0
  pl.length < 2 || routeBad (pl.getD 0 0) || mtypeClass (hF h 8 8) ≠ some (hF h 0 3) ||
    hF h 3 5 ≠ 0 || hF h 22 2 ≠ 0 || hF h 34 6 ≠ 0 || hF h 46 2 ≠ 0 || hF h 112 16 ≠ 0 ||
    ceilDiv (hF h 40 6) 16 + 2 ≠ pl.length || hF h 19 3 < hF h 16 3 ||
    (decide (hF h 0 3 = 3) && decide (hF h 31 3 ≠ 0 ∨ 4 < hF h 28 3))

/-- The queue of the Head Office that packets of a class took has k places less taken: the port that sent them is told (R323). -/
def freeDlv (n cls k : Nat) (b : Block) : Block :=
  if cls = 0 ∨ cls = 2 then reportDlv n (modDlv n cls (fun d => { d with freed := d.freed + BitVec.ofNat 5 k }) b) else b

/-- Return the places of a message's packets (R323). (DESIGN CHOICE, log 61.) -/
def giveCredits (m : FleetMsg) (b : Block) : Block := freeDlv m.port m.mclass m.frags.length b

/-- The bytes of a whole message. -/
def FleetMsg.bytes (m : FleetMsg) : List Byte := (sortBy (fun a c => decide (a.1 ≤ c.1)) m.frags).flatMap (·.2)

/-- Two fragments belong to one message (R320). -/
def sameMsg (a c : FleetMsg) : Bool :=
  a.src = c.src && a.mtype = c.mtype && a.rtag = c.rtag && a.reqSeq = c.reqSeq && a.orig = c.orig

/-- A Reply names a reserved slot with its req_seq; BULK_CREDIT sinks into a counter instead (R321, R324). -/
def Block.replyFits (b : Block) (m : FleetMsg) : Bool :=
  m.mtype = 0x23 || (match tget b.ho.fleet.slots m.rtag with | some x => decide (x.reqSeq = m.reqSeq) | none => false)

/-- A whole message has come: its epoch and its place are checked and it waits for its row (R324, R394). -/
def queueMsg (m : FleetMsg) (b : Block) : Block :=
  let stale := decide (m.epoch ≠ 0) && decide (m.epoch ≠ b.ledger.epoch)
  match m.mclass with
  | 0 =>
    if stale then deadLetter 18 (sendReply 0x13 m.orig m.rtag m.reqSeq 0 [6] (giveCredits m b))
    else b.modFleet (fun f => { f with requests := f.requests ++ [m] })
  | 1 =>
    if stale then deadLetter 19 b
    else if b.replyFits m then b.modFleet (fun f => { f with replies := f.replies ++ [m] })
    else hoEvent evReplyStray [] (b.modFleet (fun f => { f with drops := tadd f.drops 5 1 }))
  | 2 => if stale then deadLetter 19 (giveCredits m b) else b.modFleet (fun f => { f with forwards := f.forwards ++ [m] })
  | 3 => if stale then deadLetter 19 b else b.modFleet (fun f => { f with colls := f.colls ++ [m] })
  | _ => if stale then deadLetter 19 b else b.modFleet (fun f => { f with bulk := f.bulk ++ [m] })

/-- A fleet packet has reached the Head Office from Courier port `port` (R318, R320, R323, R324). -/
def fleetArrive (port : Nat) (p : Packet) (b : Block) : Block :=
  let pl := p.pl
  let cls := p.lane / 2
  let r := pl.getD 0 0
  let h := pl.getD 1 0
  let d := slice ((pl.drop 2).flatMap flitBytes) 0 (hF h 40 6)
  let one : FleetMsg := {
    src := hF r 16 16
    mclass := cls
    mtype := hF h 8 8
    rtag := hF h 24 10
    epoch := hF h 48 16
    final := hF h 64 16
    orig := hF h 80 16
    reqSeq := hF h 96 16
    last := hF h 19 3
    frags := [(hF h 16 3, d)]
    first := b.now
    port := port }
  let b := modDlv port cls (fun d => { d with arrived := d.arrived + 1 }) b
  let b := if cls = 0 ∨ cls = 2 then reportDlv port b else b
  let drop (key : Nat) (b : Block) : Block := freeDlv port cls 1 (b.modFleet (fun f => { f with drops := tadd f.drops key 1 }))
  if p.fcrc.toNat ≠ fcrcOf pl then hoEvent evFleetCrc [] (drop 0 b)
  else if fleetBad pl ∨ hF h 0 3 ≠ cls then drop 4 b
  else
    let b := heardFrom one.src b
    match b.ho.fleet.parts.find? (sameMsg one) with
    | none =>
      if one.last = 0 then queueMsg one b else b.modFleet (fun f => { f with parts := f.parts ++ [one] })
    | some m =>
      if m.frags.any (fun x => decide (x.1 = hF h 16 3)) then drop 4 b
      else
        let m := { m with frags := m.frags ++ one.frags }
        if m.frags.length = m.last + 1 then queueMsg m (b.modFleet (fun f => { f with parts := f.parts.filter (fun x => !sameMsg one x) }))
        else b.modFleet (fun f => { f with parts := f.parts.map (fun x => if sameMsg one x then m else x) })

/-- FRAGMENT_TIMEOUT (R324): a message still incomplete 100,000 ticks after its first fragment is discarded. -/
def fragmentTimeout (src reqSeq : Nat) (b : Block) : Block :=
  match b.ho.fleet.parts.find? (fun m => decide (m.src = src) && decide (m.reqSeq = reqSeq)) with
  | none => b
  | some m => giveCredits m ((advTo (m.first + 100000) b).modFleet (fun f => { f with parts := f.parts.filter (fun x => !sameMsg m x) }))
def execFragmentTimeout (source : BitVec 16) (reqSeq : BitVec 16) (s : State) : Host.Outcome State Fault Refusal :=
  act (fragmentTimeout source.toNat reqSeq.toNat) s

/-- The first message of an mtype in a queue. (DESIGN CHOICE, log 91.) -/
def firstOf (t : Nat) (q : List FleetMsg) : Option FleetMsg := q.find? (fun m => decide (m.mtype = t))

/-- A queue without its first message like m: others of the same stream stay (R326, R328). -/
def dropOne (m : FleetMsg) : List FleetMsg → List FleetMsg
  | [] => []
  | x :: l => if sameMsg m x then l else x :: dropOne m l

/-- Take a Request out of its queue; its credits return to the port (R323). -/
def takeRequest (m : FleetMsg) (b : Block) : Block := giveCredits m (b.modFleet (fun f => { f with requests := dropOne m f.requests }))
def takeForward (m : FleetMsg) (b : Block) : Block := giveCredits m (b.modFleet (fun f => { f with forwards := dropOne m f.forwards }))
def takeReply (m : FleetMsg) (b : Block) : Block := b.modFleet (fun f => { f with replies := dropOne m f.replies })

/-- Answer a Request or Forward with REFUSED and a reason of R321. (DESIGN CHOICE, log 90.) -/
def refuseMsg (m : FleetMsg) (reason : Nat) (b : Block) : Block := sendReply 0x13 m.orig m.rtag m.reqSeq 0 [BitVec.ofNat 8 reason] b

def freeReply (k : Nat) (b : Block) : Block := b.modFleet (fun f => { f with slots := tdel f.slots k })

/-! ### HELLO (R329, R331) -/

/-- The REFUSED reason that a HELLO body earns: 0 none (R331). -/
def Block.helloRefuse (b : Block) (src h : Nat) : Nat :=
  if src = b.wafer then 5
  else if 1 < fld h 0 4 ∨ fld h 4 4 < 1 then 3
  else if fld h 16 16 ≠ (crc16 ((List.range 8).map (fun r => BitVec.ofNat 8 (lnat b.ho.fleet.len r)))).toNat then 4
  else 0

/-- Enter a HELLO or HELLO_REPLY into the partner table (R330, R331, R335). (DESIGN CHOICE, log 90.) -/
def partnerHello (src h reason : Nat) (b : Block) : Block :=
  let old := tget b.ho.fleet.partners src
  let live : Bool := match old with | some p => decide (p.state = 0) | none => false
  let refused : Bool := match old with | some p => decide (p.state = 2) | none => false
  let p : Partner := {
    state := if reason = 0 then 0 else 2
    version := if reason = 0 then 1 else 0
    refuse := reason
    feed := fld h 32 16
    loop := fld h 48 16
    rack := fld h 64 24
    idVld := bit h 88
    pmState := fld h 92 4
    epoch := fld h 96 16
    cap := fld h 112 16
    heard := b.now
    since := if refused ∧ reason ≠ 0 then (old.getD {}).since else b.now }
  let b := b.modFleet (fun f => { f with partners := tset f.partners src p })
  let b := if reason = 0 ∧ ¬ live then hoEvent evPartnerLive [] b
    else if reason ≠ 0 ∧ ¬ refused then hoEvent evPartnerRefused [] b else b
  reselect b

/-- A partner has answered this wafer's HELLO with REFUSED: its entry is REFUSED, and Holders are chosen again (R331, R335). -/
def partnerRefuses (w reason : Nat) (b : Block) : Block :=
  match tget b.ho.fleet.partners w with
  | none => b
  | some p =>
    let b := modPartner w (fun q => { q with state := 2, refuse := reason, since := if p.state = 2 then q.since else b.now }) b
    reselect (if p.state = 2 then b else hoEvent evPartnerRefused [] b)

/-- FLEET_HELLO (R331): the oldest HELLO, or with none the oldest HELLO_REPLY. -/
def fleetHello (b : Block) : Block :=
  if ¬ b.hoRuns then b
  else match firstOf 0x01 b.ho.fleet.requests with
  | some m =>
    let h := ofLe m.bytes
    let b := takeRequest m b
    if m.final ≠ b.wafer then refuseMsg m 7 b
    else if m.bytes.length ≠ 32 ∨ fld h 89 3 ≠ 0 ∨ fld h 192 64 ≠ 0 then b.modFleet (fun f => { f with drops := tadd f.drops 4 1 })
    else
      let reason := b.helloRefuse m.src h
      let b := partnerHello m.src h reason b
      if reason = 0 then sendReply 0x02 m.orig m.rtag m.reqSeq 0 b.helloBody b else refuseMsg m reason b
  | none =>
    match firstOf 0x02 b.ho.fleet.replies with
    | none => b
    | some m =>
      let h := ofLe m.bytes
      let b := takeReply m b
      if ¬ b.replyFits m then hoEvent evReplyStray [] (b.modFleet (fun f => { f with drops := tadd f.drops 5 1 }))
      else if m.bytes.length ≠ 32 ∨ fld h 89 3 ≠ 0 ∨ fld h 192 64 ≠ 0 then b.modFleet (fun f => { f with drops := tadd f.drops 4 1 })
      else partnerHello m.src h (b.helloRefuse m.src h) (freeReply m.rtag b)
def execFleetHello (s : State) : Host.Outcome State Fault Refusal := act fleetHello s

/-! ### Letters between wafers (R325, R396, R397, R399) -/

/-- Place a letter of another wafer in its fleet ring (R396); the flag says whether the ring had room. -/
def placeLetter (m : FleetMsg) (b : Block) : Bool × Block :=
  let r := 40 + m.src % 16
  if 31 ≤ (b.ring r).inbox.length then (false, b)
  else (true, pump r 32 (b.modRing r (fun x => { x with
    inbox := x.inbox ++ [(m.bytes, m.src, m.orig, m.rtag, m.reqSeq)]
    ltrTail := (x.ltrTail + 1) % 32 })))

/-- A sender that is REFUSED has no letter carried out (R331). (DESIGN CHOICE, log 90.) -/
def Block.refusedSender (b : Block) (w : Nat) : Option Nat :=
  match tget b.ho.fleet.partners w with
  | some p => if p.state = 2 then some p.refuse else none
  | none => none

/-- LETTER_MESSAGE (R396, R397): the oldest LETTER for this wafer goes into its fleet ring; it waits for room. -/
def letterMessage (b : Block) : Block :=
  if ¬ b.hoRuns then b
  else match b.ho.fleet.requests.find? (fun m => decide (m.mtype = 0x10) && decide (m.final = b.wafer)) with
  | none => b
  | some m =>
    match b.refusedSender m.src with
    | some why => refuseMsg m why (takeRequest m b)
    | none => let r := placeLetter m b; if r.1 then takeRequest m r.2 else b
def execLetterMessage (s : State) : Host.Outcome State Fault Refusal := act letterMessage s

/-- LETTER_FWD (R325): the oldest LETTER_FWD is served; with none, the oldest LETTER for a wafer beyond this relay goes on
under a reply slot of the relay's own. (DESIGN CHOICE, log 90.) -/
def letterFwd (b : Block) : Block :=
  if ¬ b.hoRuns then b
  else match b.ho.fleet.forwards with
  | m :: _ =>
    if m.final ≠ b.wafer then refuseMsg m 2 (takeForward m b)
    else match b.refusedSender m.src with
    | some why => refuseMsg m why (takeForward m b)
    | none => let r := placeLetter m b; if r.1 then takeForward m r.2 else b
  | [] =>
    match b.ho.fleet.requests.find? (fun m => decide (m.mtype = 0x10) && decide (m.final ≠ b.wafer)) with
    | none => b
    | some m =>
      let b := takeRequest m b
      let r := sendRequestFrom m.src 0x12 m.final m.epoch m.bytes none (some (m.orig, m.rtag, m.reqSeq)) true b
      if r.1 = 0 then r.2 else refuseMsg m (if r.1 = 0x0307 then 1 else 2) r.2
def execLetterFwd (s : State) : Host.Outcome State Fault Refusal := act letterFwd s

/-- The local Head Office answers the letter at the head of a ring that goes to another wafer (R399). (DESIGN CHOICE, log 92.) -/
def localAnswer (r status detail : Nat) (b : Block) : Block :=
  match b.headLetter r with
  | none => b
  | some l => pump r 32 (advanceHead r (putReceipt r none (b.sealRcpt (l.out []) false true false false status 0 1 detail []) b))

/-- RING_LETTER_RELAY (R397, R399): the letter at the head of a host-side ring goes to another wafer unchanged. -/
def ringLetterRelay (r : Nat) (b : Block) : Block :=
  match (b.ring r).away, b.headLetter r with
  | some dst, some l =>
    if ¬ b.consumes ∨ (b.ring r).relayed then b
    else
      let q := sendRequest 0x10 dst l.epoch l.bytes (some r) (ensureLive dst b)
      if q.1 = 0 then q.2.modRing r (fun x => { x with relayed := true }) else localAnswer r q.1 0 q.2
  | _, _ => b
def execRingLetterRelay (ring : BitVec 6) (s : State) : Host.Outcome State Fault Refusal := act (ringLetterRelay ring.toNat) s

/-! ### Receipts of letters to Holders (R375, R382, R385, R388) -/

/-- A record of a PARCEL_QUERY receipt shows a generation COMMITTED (R416). -/
def queryHas (res : List Byte) (gen : Nat) : Bool :=
  (List.range (rd res 0 1)).any (fun i => decide (rd res (4 + 60 * i) 4 = gen) && decide (rd res (4 + 60 * i + 6) 1 = 0))

/-- A record of a PARCEL_QUERY receipt shows a generation LOST (R416). -/
def queryLost (res : List Byte) (gen : Nat) : Bool :=
  (List.range (rd res 0 1)).any (fun i => decide (rd res (4 + 60 * i) 4 = gen) && decide (rd res (4 + 60 * i + 6) 1 = 1))

/-- A re-replication's commit has been answered: the generation becomes DOUBLE (R385). -/
def rerepDone (b : Block) : Block :=
  match b.ho.parcel.rerep with
  | none => b
  | some r =>
    match b.ledger.gens.find? (fun g => g.gen = r.gen) with
    | none => nextRerep 4 (b.modParcel (fun p => { p with rerep := none }))
    | some g =>
      let b := b.modParcel (fun p => { p with rerep := none })
      nextRerep 4 (releaseOlder g.gen (hoEvent evParcelDouble [] (keepGen { g with state := .double, holder1 := r.survivor, holder2 := r.holder, base1 := r.source, base2 := r.base.getD 0 } b)))

/-- A receipt to a letter of this Head Office; ok says that its status is OK, whole that it is the only part (R402): a
generation that one part of several does not name is not yet absent (R388). (DEDUCED, log 147.) -/
def ownReceipt (op which : Nat) (ok whole : Bool) (res : List Byte) (b : Block) : Block :=
  if op = 0x610 then
    if which = 3 then
      (if ok then pumpRerep (b.modParcel (fun p => { p with rerep := p.rerep.map (fun (r : Rerep) => { r with base := some (rd res 0 8) }) })) else failRerep b)
    else if ok then
      b.modParcel (fun p => if which = 2 then { p with base2 := some (rd res 0 8) } else { p with base1 := some (rd res 0 8) })
    else b
  else if op = 0x611 then
    if which = 3 then (if ok then rerepDone b else failRerep b)
    else if b.ho.parcel.committing then commitAnswer (decide (which = 2)) ok b else b
  else if op = 0x612 ∧ ok then
    forEach (b.ledger.gens.filter (fun g => decide (g.state = .double) && (decide (g.holder1 = which) || decide (g.holder2 = which)))) (fun g b =>
      if queryHas res g.gen ∨ ¬ (whole ∨ queryLost res g.gen) then b
      else startRerep { g with state := .single } (if g.holder1 = which then g.holder2 else g.holder1) (keepGen { g with state := .single } b)) b
  else b

/-- RECEIPT_MESSAGE (R325): the oldest RECEIPT or REFUSED. -/
def receiptMessage (b : Block) : Block :=
  if ¬ b.hoRuns then b
  else match b.ho.fleet.replies.find? (fun m => decide (m.mtype = 0x11) || decide (m.mtype = 0x13)) with
  | none => b
  | some m =>
    let b := takeReply m b
    match tget b.ho.fleet.slots m.rtag with
    | none => hoEvent evReplyStray [] (b.modFleet (fun f => { f with drops := tadd f.drops 5 1 }))
    | some x =>
      if x.reqSeq ≠ m.reqSeq then hoEvent evReplyStray [] (b.modFleet (fun f => { f with drops := tadd f.drops 5 1 }))
      else
        let b := freeReply m.rtag b
        let ok := decide (m.mtype = 0x11)
        match x.relay, x.ring, x.own with
        | some (w, rtag, rs), _, _ => sendReply m.mtype w rtag rs 0 m.bytes b
        | none, some r, _ =>
          if ok then pump r 32 (advanceHead r (putReceipt r none m.bytes b)) else localAnswer r 0x0603 (rd m.bytes 0 1) b
        | none, none, some (op, which) => ownReceipt op which (ok && decide (rd m.bytes 10 2 = 0)) (decide (rd m.bytes 13 1 ≤ 1)) (m.bytes.drop 32) b
        | none, none, none =>
          if x.mtype = 0x01 ∧ ¬ ok then partnerRefuses m.src (rd m.bytes 0 1) b else b
def execReceiptMessage (s : State) : Host.Outcome State Fault Refusal := act receiptMessage s

/-- REPLY_TIMEOUT (R325, R399): a slot has had no Reply for 10,000,000 ticks. -/
def replyTimeout (k : Nat) (b : Block) : Block :=
  match tget b.ho.fleet.slots k with
  | none => b
  | some x =>
    let b := freeReply k (advTo (x.since + 10000000) b)
    match x.ring, x.own with
    | some r, _ => localAnswer r 0x0503 0 b
    | none, some (op, which) => if which = 3 ∧ (op = 0x610 ∨ op = 0x611) then failRerep b else b
    | none, none => b
def execReplyTimeout (slot : BitVec 10) (s : State) : Host.Outcome State Fault Refusal := act (replyTimeout slot.toNat) s

/-! ### Bulk streams (R326, R336) -/

/-- The stream of a peer with an opening req_seq, in one of the two tables. (DESIGN CHOICE, log 91.) -/
def streamOf (t : Tab BulkStream) (peer tag : Nat) : Option (Nat × BulkStream) :=
  t.find? (fun s => decide (s.2.peer = peer) && decide (s.2.tag = tag))

/-- A free stream number of a table of 64. -/
def freeStream (t : Tab BulkStream) : Option Nat := (List.range 64).find? (fun k => (tget t k).isNone)

/-- BULK_OPEN (R326): reassembly space for 64 packets is reserved and granted. (DESIGN CHOICE, log 91.) -/
def bulkOpen (b : Block) : Block :=
  if ¬ b.hoRuns then b
  else match firstOf 0x20 b.ho.fleet.requests with
  | none => b
  | some m =>
    let b := takeRequest m b
    if m.final ≠ b.wafer then refuseMsg m 7 b
    else match freeStream b.ho.fleet.streams with
    | none => refuseMsg m 1 b
    | some k =>
      sendReply 0x21 m.orig m.rtag m.reqSeq m.epoch [64]
        (b.modFleet (fun f => { f with streams := tset f.streams k { peer := m.src, tag := m.reqSeq, credits := 64, since := b.now } }))
def execBulkOpen (s : State) : Host.Outcome State Fault Refusal := act bulkOpen s

/-- A stream sends the data that waits in it while it holds credits (R326). -/
def pumpBulk (k : Nat) : Nat → Block → Block
  | 0, b => b
  | n + 1, b =>
    match tget b.ho.fleet.bulkOut k with
    | none => b
    | some st =>
      match st.pkts, st.credits with
      | [], _ => b
      | _, 0 => b
      | d :: l, c + 1 =>
        let b := b.modFleet (fun f => { f with bulkOut := tset f.bulkOut k { st with pkts := l, credits := c } })
        let b := match b.route st.peer with
          | some (hops, _) => sendFrags hops st.peer 4 0x22 st.rtag st.epoch st.peer b.wafer st.tag d b
          | none => b
        pumpBulk k n b

/-- BULK_GRANT (R321, R326): 1 to 64 initial credits. (DESIGN CHOICE, log 91.) -/
def bulkGrant (b : Block) : Block :=
  if ¬ b.hoRuns then b
  else match firstOf 0x21 b.ho.fleet.replies with
  | none => b
  | some m =>
    let stray := hoEvent evReplyStray [] ((takeReply m b).modFleet (fun f => { f with drops := tadd f.drops 5 1 }))
    match tget b.ho.fleet.slots m.rtag, freeStream b.ho.fleet.bulkOut with
    | some x, some k =>
      if x.reqSeq ≠ m.reqSeq ∨ x.mtype ≠ 0x20 then stray
      else
        let b := freeReply m.rtag (takeReply m b)
        let st : BulkStream := { peer := m.src, sender := true, tag := m.reqSeq, rtag := m.rtag, epoch := m.epoch, credits := min 64 (rd m.bytes 0 1), since := b.now }
        pumpBulk k 64 (b.modFleet (fun f => { f with bulkOut := tset f.bulkOut k st }))
    | _, _ => stray
def execBulkGrant (s : State) : Host.Outcome State Fault Refusal := act bulkGrant s

/-- BULK_DATA (R324, R326): the oldest packet is reassembled and consumed, the stream's space of 64 packets keeps the latest, and a
credit returns; data of no stream is discarded. (DESIGN CHOICE, log 91.) -/
def bulkData (b : Block) : Block :=
  if ¬ b.hoRuns then b
  else match firstOf 0x22 b.ho.fleet.bulk with
  | none => b
  | some m =>
    let b := b.modFleet (fun f => { f with bulk := dropOne m f.bulk })
    match streamOf b.ho.fleet.streams m.src m.reqSeq with
    | none => b.modFleet (fun f => { f with drops := tadd f.drops 4 1 })
    | some (k, st) =>
      let st := { st with pkts := (st.pkts ++ [m.bytes]).drop (st.pkts.length + 1 - 64), since := b.now }
      let b := b.modFleet (fun f => { f with streams := tset f.streams k st })
      sendReply 0x23 m.src m.rtag m.reqSeq m.epoch [1] b
def execBulkData (s : State) : Host.Outcome State Fault Refusal := act bulkData s

/-- BULK_CREDIT (R321, R326): one credit into the stream's counter, at most 64, and what waits for it goes. -/
def bulkCredit (b : Block) : Block :=
  if ¬ b.hoRuns then b
  else match firstOf 0x23 b.ho.fleet.replies with
  | none => b
  | some m =>
    let b := takeReply m b
    match streamOf b.ho.fleet.bulkOut m.src m.reqSeq with
    | none => hoEvent evReplyStray [] (b.modFleet (fun f => { f with drops := tadd f.drops 5 1 }))
    | some (k, st) => pumpBulk k 64 (b.modFleet (fun f => { f with bulkOut := tset f.bulkOut k { st with credits := min 64 (st.credits + 1), since := b.now } }))
def execBulkCredit (s : State) : Host.Outcome State Fault Refusal := act bulkCredit s

/-- BULK_CREDIT_TIMEOUT (R336): a sender's stream with no credit for 10,000,000 ticks ends. -/
def bulkCreditTimeout (k : Nat) (b : Block) : Block :=
  match tget b.ho.fleet.bulkOut k with
  | none => b
  | some st =>
    if st.credits ≠ 0 then b
    else (advTo (st.since + 10000000) b).modFleet (fun f => { f with bulkOut := tdel f.bulkOut k })
def execBulkCreditTimeout (stream : BitVec 6) (s : State) : Host.Outcome State Fault Refusal := act (bulkCreditTimeout stream.toNat) s

/-! ### Collectives (R327) -/

/-- The four values of a collective packet. -/
def collVals (m : FleetMsg) : List Nat := (List.range 4).map (fun i => rd m.bytes (8 * i) 8)

def takeColl (m : FleetMsg) (b : Block) : Block := b.modFleet (fun f => { f with colls := dropOne m f.colls })

/-- COLL_UP (R327, R376): a child's contribution; to the parcel vote a wafer with no job contributes 1. (DESIGN CHOICE, log 145.) -/
def collUp (b : Block) : Block :=
  if ¬ b.hoRuns then b
  else match firstOf 0x30 b.ho.fleet.colls with
  | none => b
  | some m =>
    let b := takeColl m b
    let id := m.rtag % 16
    let kid := (childrenOf b.ho.fleet.len b.wafer).any (fun c => decide (c.2 = m.src))
    if ¬ kid ∨ b.ho.fleet.ended.contains id then b
    else
      let c := (tget b.ho.fleet.coll id).getD { op := m.rtag / 16 % 8, since := b.now }
      if c.kids.any (fun x => decide (x.1 = m.src)) then b
      else
        let c := if id = 15 ∧ c.own.isNone ∧ ¬ b.inJob then { c with own := some [1, 1, 1, 1] } else c
        collCheck id (b.modFleet (fun f => { f with coll := tset f.coll id { c with kids := c.kids ++ [(m.src, collVals m)] } }))
def execCollUp (s : State) : Host.Outcome State Fault Refusal := act collUp s

/-- COLL_DOWN (R327): the result from the parent. -/
def collDown (b : Block) : Block :=
  if ¬ b.hoRuns then b
  else match firstOf 0x31 b.ho.fleet.colls with
  | none => b
  | some m =>
    let b := takeColl m b
    let id := m.rtag % 16
    if b.ho.fleet.ended.contains id ∨ (parentOf b.ho.fleet.len b.wafer).map (·.2) ≠ some m.src then b
    else collResult id (m.rtag / 16 % 8) (collVals m) b
def execCollDown (s : State) : Host.Outcome State Fault Refusal := act collDown s

/-- COLL_TIMEOUT (R327): incomplete 10,000,000 ticks after it began here. -/
def collTimeout (id : Nat) (b : Block) : Block :=
  match tget b.ho.fleet.coll id with
  | none => b
  | some c =>
    let b := advTo (c.since + 10000000) b
    hoEvent evCollTimeout [] (b.modFleet (fun f => { f with coll := tdel f.coll id, ended := if f.ended.contains id then f.ended else f.ended ++ [id] }))
def execCollTimeout (id : BitVec 4) (s : State) : Host.Outcome State Fault Refusal := act (collTimeout id.toNat) s

end Sys2Proof.Machine
end

