-- ==== Sys2Proof/Machine/ImageRx.lean ====
section
/-! DEFINITION. Image reception at a Letterbox: the segment load of a packet, and what ends a load (13_gnonil_commands R422 to
R427). -/

namespace Sys2Proof.Machine

open Sys2Proof

/-- Packets of the image: 48 bytes each (R424). -/
def ImageLoad.packets (x : ImageLoad) : Nat := ceilDiv x.bytes.length 48

def modImg (i : Nat) (f : CoreImage → CoreImage) (b : Block) : Block := b.modCore i (fun c => { c with img := f c.img })

/-- A target that still takes part. -/
def Block.imgOpen (b : Block) (i : Nat) : Bool :=
  b.ho.image.active && b.ho.image.targets.contains i && !(b.core i).img.done && !(b.core i).img.failed

/-- The packets that a target misses (R424). -/
def Block.imgMissing (b : Block) (i : Nat) : List Nat :=
  (List.range b.ho.image.packets).filter (fun k => !(b.core i).img.got.contains k)

/-- A target fails: it reads FENCED with no role until the next IMAGE_LOAD or reset (R425). -/
def imgFail (i : Nat) (b : Block) : Block :=
  let b := modImg i (fun x => { x with failed := true }) b
  if (tget b.ho.bm.blocked i).isSome then b else blockCore i 5 b

/-- A target that is no longer in service has been fenced or has failed a test: it fails (R427). -/
def Block.imgLost (b : Block) (i : Nat) : Bool :=
  match b.coreState i with | .fenced => true | .retired => true | .absent => true | _ => false

/-- Fail every open target that has left service (R427). (DESIGN CHOICE, log 104.) -/
def imgSweep (b : Block) : Block :=
  forEach (b.ho.image.targets.filter (fun i => b.imgOpen i && b.imgLost i)) imgFail b

/-- Targets done, and targets failed (R423). -/
def Block.imgCounts (b : Block) : Nat × Nat :=
  ((b.ho.image.targets.filter (fun i => (b.core i).img.done)).length, (b.ho.image.targets.filter (fun i => (b.core i).img.failed)).length)

/-- When every target is done or failed the letter ends, OK or PARTIAL (R425). -/
def imgCheck (b : Block) : Block :=
  let b := imgSweep b
  if b.ho.image.active ∧ b.ho.image.targets.all (fun i => !b.imgOpen i) then
    let n := b.imgCounts
    finishOp 0x901 (if n.2 = 0 then 0 else 0x0605) 0 (le 4 n.1 ++ le 4 n.2) (b.modImage (fun x => { x with active := false }))
  else b

/-- The four beats of a segment load: a descriptor with the byte offset and the count of 48, then the image bytes (R422). -/
def segBeats (off : Nat) (bytes : BitVec 384) : List Flit :=
  BitVec.ofNat 128 (packF [(0, 0x494D4731), (32, off), (64, 48)]) :: toFlits 3 (le 48 bytes.toNat)

/-- A segment load of 48 image bytes: the core's firmware store takes them, and the capture channel shows the last beat (R422). (DESIGN CHOICE, log 104.) -/
def segLoad (off : Nat) (bytes : BitVec 384) (c : Core) : Core :=
  { c with
    pins := { c.pins with capDir := true, capWdata := (segBeats off bytes).getLastD c.pins.capWdata }
    img := { c.img with store := memWrites c.img.store off (le 48 bytes.toNat) } }

/-- IMAGE_PACKET (R424): a new packet is loaded and its bit set; a packet already held is counted and dropped, one of
another image dropped. A Letterbox without its router receives none (R22). (DESIGN CHOICE, log 104.) -/
def imagePacket (i : Nat) (p : ImagePacket) (b : Block) : Block :=
  let b := imgSweep b
  let k := p.pktIdx.toNat
  if ¬ b.imgOpen i ∨ ¬ (b.core i).lbOn ∨ ¬ b.attached i ∨ p.imageId ≠ b.ho.image.imageId then b
  else if (b.core i).img.got.contains k then modImg i (fun x => { x with dups := x.dups + 1 }) b
  else (b.modCore i (segLoad (48 * k) p.bytes)).modCore i (fun c => { c with img := { c.img with got := c.img.got ++ [k] } })
/-- An IMAGE packet as it comes through the Post: its index and image in payload flit 0, 48 bytes in the others (R424). -/
def imageFlits (pl : List Flit) : ImagePacket :=
  let f := (pl.getD 0 0).toNat
  { pktIdx := BitVec.ofNat 14 (fld f 0 14), imageId := BitVec.ofNat 16 (fld f 14 16), bytes := BitVec.ofNat 384 (ofLe ((pl.drop 1).flatMap flitBytes)) }

end Sys2Proof.Machine
end

