-- ==== Sys2Proof/Machine/PostNet.lean ====
section
/-! DEFINITION. The Post Network's commands: frames, seams, terminals, returns, resends, congestion, table swaps and
stages (09_post_network). -/

namespace Sys2Proof.Machine

open Sys2Proof

/-! ### Office members that fail (R26 to R28) -/

/-- Every router and node of a region takes the serving member (R290). -/
def writeServing (r : Nat) (mb : Bool) (b : Block) : Block :=
  (forEach (List.range 128) (fun k b => b.modRouter (128 * r + k) (fun x => { x with serving := mb })) b).modNode r (fun x => { x with serving := mb })

/-- Both members have failed: every core of the region is UNSCREENED (R28). (DESIGN CHOICE, log 27.) -/
def officeDead (r : Nat) (b : Block) : Block :=
  forEach (b.regionCores r) unscreen (b.modOffice r (fun o => { o with dead := true }))

/-- The region's per-core history and queues as they stand: what a member holds that serves or mirrors (R23). -/
def Block.twinCopy (b : Block) (r : Nat) : TwinCopy :=
  { hist := b.ledger.hist.filter (fun p => decide (regionOf p.1 = r)), evq := (b.office r).evq, events := (b.office r).events }

/-- What a member holds: its own copy since it stopped mirroring, else the region's (R23, R25). -/
def Block.memberHolds (b : Block) (r : Nat) (m : Member) : TwinCopy := m.copy.getD (b.twinCopy r)

/-- A standby that was not eligible reloads: it has its own history of each core, and takes the core's state and pips
from the Head Office (R27, R31). -/
def reloadHist (b : Block) (r : Nat) (c : TwinCopy) : LedgerData :=
  { b.ledger with hist := tmap (fun i h => if regionOf i = r then { (tget c.hist i).getD {} with st := h.st, unscreened := h.unscreened, pips := (tget b.ledger.hoPips i).getD h.pips } else h) b.ledger.hist }

/-- The primary of a region fails before its step has been decided: the step in flight is not franked (R26, R27). When
the region's record has already left, the Head Office notes the reason itself. (DESIGN CHOICE, log 70.) -/
def officeSwitch (r : Nat) (b : Block) : Block :=
  if ¬ b.ho.job.inSlot ∨ b.ho.job.decided then b
  else if (b.office r).st.sent then b.modJob (fun j => { j with hoReasons := maskSet j.hoReasons 10 true })
  else addReason r 10 b

/-- A member that has failed: its tests end and its packets are lost (R26). -/
def Member.gone (m : Member) : Member :=
  { m with failed := true, eligible := false, testing := false, copying := false, net := { m.net with rx := [], tx := [], held := [] } }

/-- A member that begins to serve: any test in progress is abandoned, and what it holds is the region's from now on (R26, R27). -/
def Member.serves (m : Member) : Member := { m with testing := false, copying := false, copy := none }

/-- The new primary resumes a fill at its phase in the fill ledger and restarts that phase from its beginning (R245). -/
def restartFill (r : Nat) (f : Fill) (b : Block) : Block :=
  let mine (x : Fill) : Bool := decide (x.role = f.role) && decide (x.phase = f.phase)
  let b := b.modJob (fun j => { j with fills := j.fills.map (fun x => if mine x then { x with image := if x.phase = 4 then x.image else [], loaded := false } else x) })
  match f.phase with
  | 2 => queueUnit r (b.unit f.dst 3 b.fillKat .fill)
      (b.modOffice r (fun o => { o with testq := o.testq.filter (fun u => u.core ≠ f.dst || decide (u.trigger ≠ .fill)) }))
  | 3 => b.modCore f.src (fun c => if c.pins.isoN then beginFence false c else c)
  | _ => b
def restartFills (r : Nat) (b : Block) : Block :=
  forEach (b.ho.job.fills.filter (fun f => decide (regionOf f.dst = r) && decide (f.phase < 5))) (restartFill r) b

/-- The standby of a region takes over: at once when it is eligible (R26); else it reloads, starts with empty event queues
and serves from the next step boundary (R27). Outside a job no step is in flight and it serves once it has reloaded.
(DESIGN CHOICE, log 89 and 123.) -/
def takeOver (r : Nat) (b : Block) : Block :=
  let o := b.office r
  let b := b.modOffice r (fun o => { o with
    serving := !o.serving
    memA := if o.serving then o.memA.serves else o.memA
    memB := if o.serving then o.memB else o.memB.serves })
  if o.standby.eligible then b
  else
    (b.modOffice r (fun o => { o with reload := b.ho.job.launched, evq := [], events := [] })).modLedger
      (fun _ => reloadHist b r (b.memberHolds r o.standby))

/-- A member fails; when it served, the standby takes over (R26 to R28) and resumes the fills (R245). (DESIGN CHOICE, log 70 and 89.) -/
def failMember (r : Nat) (mb : Bool) (b : Block) : Block :=
  let served := decide ((b.office r).serving = mb)
  let b := b.modOffice r (fun o => if mb then { o with memB := o.memB.gone } else { o with memA := o.memA.gone })
  if ¬ served ∨ (b.office r).dead then b
  else
    let b := officeSwitch r b
    let other := (b.office r).standby
    if other.failed ∨ ¬ other.passed then officeDead r b else restartFills r (writeServing r (!mb) (takeOver r b))

/-! ### Routers lost (R22, R301) -/

/-- A router is lost: its traffic goes, and its cluster's cores are fenced without role for the power cycle. (DESIGN CHOICE, log 27 and 89.) -/
def loseRouter (r k : Nat) (b : Block) : Block :=
  let b := b.modRouter (128 * r + k) (fun x => { x with lost := true, inp := [], nxt := [], net := { x.net with tx := [], rx := [] } })
  forEach ((rangeFrom (8192 * r + 64 * k) 64).filter (fun i => b.present i)) (fun i b =>
    if (tget b.ho.bm.blocked i).isSome then b
    else
      let b := match b.roleOf i with
        | some role => if b.ho.job.launched then nameRole r role 6 (addReason r 6 b) else b
        | none => b
      blockCore i 6 (fenceHold i b)) b

/-! ### Table versions (R300, R301, R303 to R305) -/

/-- A version takes the tables of the other one, so that it lacks nothing of them. -/
def copyTables (ver : Bool) (b : Block) : Block :=
  b.allHops (fun x => Router.setDirs ver (x.dirs (!ver)) x)

/-- Write a version so that it routes around some routers of a region (R289, R300). -/
def setAround (ver : Bool) (t : Tab (BitVec 128)) (r : Nat) (around : BitVec 128) (b : Block) : Block :=
  writeTables ver r (maskBits around)
    (b.modPost (fun p => if ver then { p with around1 := tset t r around } else { p with around0 := tset t r around }))

/-- A router that is lost before any traffic passes: the first tables route around it (R143, R252). (DESIGN CHOICE, log 27.) -/
def loseFirst (r k : Nat) (b : Block) : Block :=
  let cur := b.around b.ho.post.ver
  setAround b.ho.post.ver cur r (maskSet ((tget cur r).getD 0) k true) (loseRouter r k b)

/-- The attachment entries of R280 for the node terminal ports 3 to 51. -/
def Block.attEntries (b : Block) : Tab (BitVec 8) :=
  (rangeFrom 3 49).map (fun p =>
    (p, match b.attach (if p = 3 then unitHO else if p < 20 then unitCourier (p - 4) else if p < 36 then unitIntake (p - 20) else unitEgress (p - 36)) with
      | some r => BitVec.ofNat 8 (128 + r)
      | none => 0))

/-- Write a version of every attachment table (R291, R300, R319). -/
def writeAttach (ver : Bool) (b : Block) : Block :=
  let t := b.attEntries
  let mem (m : Member) : Member := if ver then { m with att1 := t } else { m with att0 := t }
  let b := forEach b.popRegions (fun r b => b.modOffice r (fun o => { o with memA := mem o.memA, memB := mem o.memB })) b
  let b := forEach (List.range 16) (fun n b => b.modCourier n (fun c =>
    let own := t.filter (fun x => decide (x.1 < 20))
    if ver then { c with att1 := own } else { c with att0 := own })) b
  b.modPost (fun p => if ver then { p with att1 := t } else { p with att0 := t })

/-- Every router and node injects by version v, and the other one is retired at once: the end of a swap (R300). -/
def takeVersion (v : Bool) (b : Block) : Block :=
  (b.allHops (fun x => { x with inject := v })).modPost (fun p => { p with ver := v, retiredAt := b.now })

/-- A stage takes the place of any other of its sender (R304). -/
def putStage (st : Stage) (e : NetEnd) : NetEnd := { e with stages := e.stages.filter (fun x => x.sender ≠ st.sender) ++ [st] }

/-- The stage flit of a stage of one packet (R303). -/
def stageFlit (act id : Nat) : Flit := BitVec.ofNat 128 (packF [(0, act), (64, id), (80, 1)])

/-- An Office's sequencer sends a stage of one packet to targets in ascending order and waits for their ACKs (R281, R302, R303). -/
def castStage (u act id svc : Nat) (content : List Flit) (targets : List Nat) (b : Block) : Block :=
  if targets.isEmpty then b
  else
    let ts := sortBy (fun a c => decide (a ≤ c)) targets
    let b := b.modNet u (fun e => { e with sends := e.sends ++
      [{ stageId := id, act := act, svc := svc, content := content, sentAt := b.now, missing := ts.map (fun t => (t, 0)) }] })
    forEach ts (fun t b => sendPkt u t 1 svc svc 0 false (stageFlit act id :: content.take 3) b) b

/-- Steps 1 to 3 of a swap: the inactive version takes the tables in force with the new entries, and inject-version is staged
for A (R300). The routers of `away` get their stage packet through the Post; the exchange with every other one is carried
out at once. (DESIGN CHOICE, log 11 and 87.) -/
def beginSwap (r : Nat) (around : BitVec 128) (away : List Nat) (b : Block) : Block :=
  let v := !b.ho.post.ver
  let b := advTo (b.ho.post.retiredAt) b
  let b := writeAttach v (setAround v (b.around b.ho.post.ver) r around (copyTables v b))
  let a := b.now + 20000
  let id := b.ho.post.stageId
  let word := BitVec.ofNat 128 (b01 v)
  let b := forEach b.popRegions (fun q b =>
    let live := (rangeFrom (128 * q) 128).filter (fun k => !(b.router k).lost)
    let st : Stage := { sender := unitOffice q, stageId := id, act := a, cnt := 1, got := [(0, [word])], svc := 0x11 }
    let b := forEach (live.filter (fun k => !away.contains k)) (fun k b => b.modRouter k (fun x => { x with net := putStage st x.net })) b
    let b := b.modNode q (fun x => { x with net := putStage st x.net })
    castStage (unitOffice q) a id 0x11 [word] ((live.filter (fun k => away.contains k)).map unitRouter) b) b
  b.modPost (fun p => { p with stageId := (id + 1) % 65536, swapAt := some a })

/-- TABLE_SWAP_START (R300): a swap requested during another waits for it (R301). (DESIGN CHOICE, log 11.) -/
def tableSwapStart (r : Nat) (around : BitVec 128) (away : List Nat) (b : Block) : Block :=
  if ¬ b.hoRuns ∨ ¬ b.populated r then b
  else if b.ho.post.swapAt.isSome then b.modPost (fun p => { p with swapq := p.swapq ++ [(r, around)] })
  else beginSwap r around away b
def execTableSwapStart (region : RegionIdx) (plan : SwapPlan) (s : State) : Host.Outcome State Fault Refusal :=
  act (tableSwapStart region.toNat plan.around (plan.away.map (·.toNat))) s

/-- The routers that a region's tables route around once every swap under way or waiting has ended (R301). -/
def Block.aroundNext (b : Block) (r : Nat) : BitVec 128 :=
  match (b.ho.post.swapq.filter (fun x => decide (x.1 = r))).getLast? with
  | some x => x.2
  | none => (tget (b.around (if b.ho.post.swapAt.isSome then !b.ho.post.ver else b.ho.post.ver)) r).getD 0

/-- A stage holds every packet. -/
def stageWhole (st : Stage) : Bool := (List.range st.cnt).all (fun i => st.got.any (fun g => decide (g.1 = i)))

/-- A unit applies the content of a stage (R303): inject-version, an armed launch count, a format table. -/
def applyStage (u : Nat) (st : Stage) (b : Block) : Block :=
  let c := ((sortBy (fun (x y : Nat × List Flit) => decide (x.1 ≤ y.1)) st.got).flatMap (·.2))
  let word := (c.getD 0 0).toNat
  if st.svc = 0x11 then
    (if unitKind u = 1 then b.modRouter (unitIndex u) (fun x => { x with inject := decide (word = 1) })
     else b.modNode (unitIndex u) (fun x => { x with inject := decide (word = 1) }))
  else if st.svc = 0x03 ∧ unitKind u = 0 then
    (if b.ho.job.launched then b
     else b.modCore (unitIndex u) (fun x => { x with time := { x.time with armed := some (word % 2 ^ 64) }, net := { x.net with fwd := none } }))
  else if st.svc = 0x05 then
    let tbl := c.flatMap (fun f => [BitVec.ofNat 64 f.toNat, BitVec.ofNat 64 (f.toNat / 2 ^ 64)])
    (if unitKind u = 0 then b.modCore (unitIndex u) (fun x => { x with scr := { x.scr with fmt := (tbl ++ x.scr.fmt.drop tbl.length).take 16 } })
     else if unitKind u = 6 then b.modCourier (unitIndex u) (fun x => { x with itFmt := (tbl ++ x.itFmt.drop tbl.length).take 16 })
     else b)
  else b

/-- The stages of a unit; a region's node holds its own. -/
def Block.stagesOf (b : Block) (u : Nat) : List Stage := if unitKind u = 2 then (b.node (unitIndex u)).net.stages else (b.net u).stages
def dropStage (u id : Nat) (b : Block) : Block :=
  let f (e : NetEnd) : NetEnd := { e with stages := e.stages.filter (fun x => x.stageId ≠ id) }
  if unitKind u = 2 then b.modNode (unitIndex u) (fun x => { x with net := f x.net }) else b.modNet u f

/-- At A with ACKs missing the sequencer reports STAGE_PARTIAL, and its caller decides (R305): a table swap is made again, and
a Letterbox that has not answered counts as having lost its attachment (R246). (DESIGN CHOICE, log 140.) -/
def stagePartial (u : Nat) (x : StageSend) (b : Block) : Block :=
  let b := postEvent evStagePartial u (x.missing.flatMap (fun m => le 3 m.1)) b
  let b := forEach ((x.missing.map (·.1)).filter (fun t => decide (unitKind t = 0))) (fun t b => failLetterbox (unitIndex t) b) b
  if x.svc = 0x11 then
    let r := unitIndex u
    tableSwapStart r (b.aroundNext r) [] b
  else b

/-- STAGED_ACTIVATION (R304, R305): at A a target applies its complete stage or discards it; a sender whose ACKs are
missing reports STAGE_PARTIAL. -/
def stagedActivation (u : Nat) (b : Block) : Block :=
  match b.stagesOf u with
  | st :: _ =>
    let b := advTo st.act b
    let b := if stageWhole st then applyStage u st b else unitEvent u evStageIncomplete b
    dropStage u st.stageId b
  | [] =>
    match (b.net u).sends with
    | [] => b
    | x :: r =>
      let b := (advTo x.act b).modNet u (fun e => { e with sends := r })
      if x.missing.isEmpty then b else stagePartial u x b
def execStagedActivation (unit : BitVec 24) (s : State) : Host.Outcome State Fault Refusal := act (stagedActivation unit.toNat) s

/-- TABLE_VERSION_RETIRE (R300, R301): 13,000 ticks after A the old version is retired and a waiting swap begins. (DESIGN CHOICE, log 9.) -/
def tableVersionRetire (b : Block) : Block :=
  match b.ho.post.swapAt with
  | none => b
  | some a =>
    let b := advTo (a + 13000) b
    let v := !b.ho.post.ver
    let due (e : NetEnd) : Bool := e.stages.any (fun st => decide (st.svc = 0x11) && decide (st.act ≤ a))
    let fix (x : Router) : Router := if due x.net then { x with inject := v, net := { x.net with stages := x.net.stages.filter (fun st => st.svc ≠ 0x11 || decide (a < st.act)) } } else x
    let q := b.ho.post.swapq
    let b := (b.allHops fix).modPost (fun p => { p with ver := v, swapAt := none, retiredAt := b.now, swapq := q.drop 1 })
    match q with
    | [] => b
    | x :: _ => beginSwap x.1 x.2 [] b
def execTableVersionRetire (s : State) : Host.Outcome State Fault Refusal := act tableVersionRetire s

/-- STAGE_ACK_TIMEOUT (R305): no ACK in 30,000 ticks; the sequencer resends, at most 4 times. -/
def stageAckTimeout (u t : Nat) (b : Block) : Block :=
  match (b.net u).sends.find? (fun x => x.missing.any (fun m => decide (m.1 = t) && decide (m.2 < 4))) with
  | none => b
  | some x =>
    let b := advTo (x.sentAt + 30000) b
    let b := b.modNet u (fun e => { e with sends := e.sends.map (fun y =>
      if y.stageId = x.stageId then { y with sentAt := b.now, missing := y.missing.map (fun m => if m.1 = t then (t, m.2 + 1) else m) } else y) })
    sendPkt u t 1 x.svc x.svc 0 false (stageFlit x.act x.stageId :: x.content.take 3) b
def execStageAckTimeout (unit : BitVec 24) (target : BitVec 24) (s : State) : Host.Outcome State Fault Refusal :=
  act (stageAckTimeout unit.toNat target.toNat) s

/-- ROUTER_LOST (R22, R301): the swap that routes around it has every router lost so far in its set. -/
def routerLost (r k : Nat) (b : Block) : Block :=
  if ¬ b.populated r ∨ (b.router (128 * r + k)).lost then b
  else
    let b := loseRouter r k b
    tableSwapStart r (maskSet (b.aroundNext r) k true) [] b
def execRouterLost (region : RegionIdx) (router : BitVec 7) (s : State) : Host.Outcome State Fault Refusal :=
  act (routerLost region.toNat router.toNat) s

/-! ### One frame (R284, R286, R292 to R294, R306, R310) -/

/-- A router (or, with nd, a node) by its number. -/
def Block.hop (b : Block) (nd : Bool) (k : Nat) : Router := if nd then b.node k else b.router k
def Block.modHop (b : Block) (nd : Bool) (k : Nat) (f : Router → Router) : Block := if nd then b.modNode k f else b.modRouter k f

/-- The neighbour of a router or node. -/
def hopNext (nd : Bool) (k dir : Nat) : Nat := if nd then torusStep k dir else 128 * (k / 128) + torusStep (k % 128) dir
def hopRegion (nd : Bool) (k : Nat) : Nat := if nd then k else k / 128

/-- A terminal port can take a packet (R292, R306). A member and a router's own terminal stand in the clock of their router or
node; every other terminal is reached through a seam buffer of its port. (DESIGN CHOICE, log 87.) -/
def Block.termRoom (b : Block) (via u : Nat) (p : Packet) : Bool :=
  match unitKind u with
  | 1 => true
  | 3 => true
  | 0 => decide (flitsOf (b.net u).rx + p.pl.length + 1 ≤ 16)
  | _ => decide (flitsOf ((b.net u).rx.filter (fun q => decide (q.via = via))) + p.pl.length + 1 ≤ 16)

/-- A torus output of a node leads into a seam buffer, which must have room; a router's does not (R284, R306). -/
def Block.outRoom (b : Block) (nd : Bool) (k dir : Nat) (p : Packet) : Bool :=
  !nd || seamRoom ((tget (b.node k).seams dir).getD []) p

/-- Send a packet out of a torus output: a node's into its seam buffer, a router's to the neighbour's next frame (R284). A
packet sent to a lost router is lost. -/
def sendOut (nd : Bool) (k dir : Nat) (p : Packet) (b : Block) : Block :=
  let p := ageBy 1 p
  if nd then b.modNode k (fun x => { x with seams := tset x.seams dir ((tget x.seams dir).getD [] ++ [{ pkt := p }]) })
  else
    let n := hopNext nd k dir
    if (b.router n).lost then b
    else if (b.router n).frame = (b.router k).frame then b.modRouter n (fun x => { x with nxt := tset x.nxt (opp dir) p })
    else b.modRouter n (fun x => { x with inp := tset x.inp (opp dir) p })

/-- Count a discard (R292) by code: 0 HDR_CRC, 1 AGED, 2 UNROUTABLE, 3 MISROUTE, 4 NO_EXIT. A Returned packet counts as
RETURN_LOST too (R296, R312). -/
def discard (nd : Bool) (k key code : Nat) (h : BitVec 128) (b : Block) : Block :=
  let r := hopRegion nd k
  let u := if nd then unitOffice k else unitRouter k
  let b := b.modHop nd k (fun x => { x with drops := tadd x.drops key 1 })
  let b := fileEvent r code u [] (b.modOffice r (fun o => { o with discards := o.discards + 1 }))
  if hPtype h = 3 then fileEvent r evReturnLost u [] b else b

/-- SEAM_DEFLECT at an output (R306): 0 to 3 the torus ports, 4 a terminal port. -/
def seamDeflect (nd : Bool) (k out : Nat) (b : Block) : Block :=
  (b.modHop nd k (fun x => { x with seamDefl := tadd x.seamDefl out 1 })).modOffice (hopRegion nd k) (fun o => { o with seamDefl := o.seamDefl + 1 })

/-- Table entry and terminal unit of a packet at a router or node. -/
def Block.entryAt (b : Block) (nd : Bool) (k : Nat) (h : BitVec 128) : Nat × Nat :=
  if nd then b.nodeEntry k h else b.routerEntry (k / 128) (k % 128) h
def Block.termAt (b : Block) (nd : Bool) (k : Nat) (h : BitVec 128) : Nat :=
  if nd then
    (let d := hDst h; if d.port = 2 then unitMember k (b01 (b.node k).serving) else pathUnit d)
  else if (hDst h).lvl = 0 then pathUnit (hDst h) else unitMember (k / 128) (b01 (b.router k).serving)

/-- A Letterbox port whose core is absent or held by ct_por_n is disabled (R312). -/
def Block.portClosed (b : Block) (u : Nat) : Bool :=
  decide (unitKind u = 0) && (!b.present (unitIndex u) || !(b.core (unitIndex u)).porN || (b.core (unitIndex u)).ctl.ctrlFail)

/-- What an arbitration step has given out: torus outputs and terminal ports. -/
structure FrameUse where
  outs : List Nat := []
  terms : List Nat := []
  deriving DecidableEq, Repr

/-- The terminal port of a packet at a hop: a node's port by number, a router's by its terminal (R279, R292). -/
def portKey (nd : Bool) (t : Nat) (h : BitVec 128) : Nat := if nd then (hDst h).port else t

/-- The directions a packet prefers: pref and alt under its dor bit (R292). -/
def wanted (nd : Bool) (h : BitVec 128) (e : Nat × Nat) : List Nat :=
  let dor := if nd then bit h.toNat 8 else bit h.toNat 9
  (if dor then [e.2, e.1] else [e.1, e.2]).filter (fun d => decide (d < 4))

/-- Deliver into a terminal port (R294). -/
def toTerm (via u : Nat) (p : Packet) (b : Block) : Block := b.modNet u (fun e => { e with rx := e.rx ++ [{ ageBy 1 p with via := via }] })

/-- One arrived packet in age order (R292). -/
def arbitrate (nd : Bool) (k : Nat) (x : FrameUse × Block) (p : Packet) : FrameUse × Block :=
  let u := x.1
  let b := x.2
  let h := p.hdr
  let e := b.entryAt nd k h
  let free (d : Nat) : Bool := !u.outs.contains d && b.outRoom nd k d p
  let deflect (full : Option Nat) : FrameUse × Block :=
    match [2, 3, 0, 1].find? free with
    | some d =>
      let b := (sendOut nd k d p b).modHop nd k (fun r => { r with defl := r.defl + 1 })
      ({ u with outs := d :: u.outs }, match full with | some o => seamDeflect nd k o b | none => b)
    | none => (u, discard nd k 4 evNoExit h b)
  if ¬ hOk h then (u, discard nd k 0 evHdrCrc h b)
  else if 1023 ≤ hAge h then (u, discard nd k 1 evAged h b)
  else if e.1 = 7 then (u, discard nd k 2 evUnroutable h b)
  else if ¬ nd ∧ (hDst h).region ≠ k / 128 then (u, discard nd k 3 evMisroute h b)
  else if e.1 = 4 then
    let t := b.termAt nd k h
    if b.portClosed t then (u, discard nd k 2 evUnroutable h b)
    else if u.terms.contains (portKey nd t h) then deflect none
    else if b.termRoom k t p then ({ u with terms := portKey nd t h :: u.terms }, toTerm k t p b)
    else deflect (some 4)
  else match (wanted nd h e).find? free with
  | some d => ({ u with outs := d :: u.outs }, sendOut nd k d p b)
  | none => deflect ((wanted nd h e).find? (fun d => !u.outs.contains d))

/-- The order of R292: oldest first, then source path, then seq. -/
def frameKey (p : Packet) : List Nat := [1023 - hAge p.hdr, hF p.hdr 59 21, hF p.hdr 101 1, hSeq p.hdr]

/-- The Office's throttle on what it injects (R309). -/
def officeMay (level frame : Nat) (p : Packet) : Bool :=
  let svc := hSvc p.hdr
  match level with
  | 0 => true
  | 1 => frame % 2 = 0
  | 2 => frame % 8 = 0 && svc ≠ 0x07 && svc ≠ 0x06
  | _ => svc = 0x03 || svc = 0x10 || hPtype p.hdr = 2 || hPtype p.hdr = 3

/-- The member whose gateway a router carries (R278). -/
def gateUnit (k : Nat) : Option Nat :=
  if (gateCols false).contains (k % 16) then some (unitMember (k / 128) 0)
  else if (gateCols true).contains (k % 16) then some (unitMember (k / 128) 1) else none

/-- The terminal at a place of a router's round: 0 its own, then the Letterbox ports; of a node's, by port number (R279, R293). -/
def Block.placeUnit (b : Block) (nd : Bool) (k p : Nat) : Option Nat :=
  if nd then
    let at4 (u : Nat) : Option Nat := if (attachNodes u).contains k then some u else none
    if p < 2 then some (unitMember k p) else if p = 2 then none else if p = 3 then at4 unitHO
    else if p < 20 then at4 (unitCourier (p - 4)) else if p < 36 then at4 (unitIntake (p - 20)) else at4 (unitEgress (p - 36))
  else if p = 0 then some (unitRouter k) else if b.present (64 * k + p - 1) then some (unitCore (64 * k + p - 1)) else none

/-- Number of places of a round. -/
def placesOf (nd : Bool) : Nat := if nd then 52 else 65

/-- The throttle level of a member (R309). -/
def Block.levelOf (b : Block) (u : Nat) : Nat :=
  let o := b.office (unitIndex u / 2)
  if unitIndex u % 2 = 0 then o.memA.level else o.memB.level

/-- A packet may be injected here now: the right level, the throttles, and for fleet traffic of the Head Office a free
transit slot (R293, R309, R310, R323). -/
def Block.mayInject (b : Block) (nd : Bool) (k u : Nat) (p : Packet) : Bool :=
  let d := hDst p.hdr
  let lvlOk := if nd then decide (d.lvl = 1) else decide (unitKind u ≠ 3) || decide (d.lvl = 0)
  let o := b.office (hopRegion nd k)
  let offOk := decide (unitKind u ≠ 3) || (officeMay (b.levelOf u) (b.hop nd k).frame p &&
    (!nd || decide ((tget o.maxima d.region).getD 0 < 12) || decide ((b.hop nd k).frame % 4 = 0)))
  let slot := if u = unitHO ∧ hFleet p.hdr then b.slotFree (d.port - 4) p.lane (d.port - 4) else true
  lvlOk && offOk && slot

/-- What a terminal offers for injection, oldest first: a Letterbox what stands in its seam buffer, with the frames it has
waited there (R294, R306). -/
def Block.offers (b : Block) (u : Nat) : List (Packet × Nat) :=
  if unitKind u = 0 then ((b.net u).seam.take 1).map (fun s => (s.pkt, s.frames)) else (b.net u).tx.map (fun p => (p, 0))

/-- Take the i-th offer of a terminal. -/
def takeOffer (u i : Nat) (e : NetEnd) : NetEnd :=
  if unitKind u = 0 then ({ e with seam := e.seam.drop 1 }).shift else { e with tx := e.tx.eraseIdx i }

/-- The first packet of a terminal that may be injected here, its place and the frames it has waited. -/
def Block.offer (b : Block) (nd : Bool) (k u : Nat) : Option (Nat × Packet × Nat) :=
  let l := b.offers u
  ((List.range l.length).filterMap (fun i => (l[i]?).bind (fun x => if b.mayInject nd k u x.1 then some (i, x.1, x.2) else none))).head?

/-- R283: two lookups of a path that differ hold the packet, and the lookup is repeated once. A second difference raises
LOOKUP_MISMATCH and drops the packet; a member then counts as failed (R26, R27), and the Head Office enters SAFE (R30). -/
def lookupDiffers (u i : Nat) (b : Block) : Block :=
  if ¬ (b.net u).lookup1 then b.modNet u (fun e => { e with lookup1 := true })
  else
    let b := b.modNet u (fun e => { takeOffer u i e with lookup1 := false })
    match unitKind u with
    | 4 => enterSafe 2 (hoEvent evLookupMismatch [] b)
    | 3 => failMember (unitIndex u / 2) (decide (unitIndex u % 2 = 1)) (postEvent evLookupMismatch u [] b)
    | _ => postEvent evLookupMismatch u [] b

/-- Units that look a path up twice: members, the Head Office, Courier ports (R283, R319). -/
def looksUp (u : Nat) : Bool := decide (3 ≤ unitKind u) && decide (unitKind u ≤ 5)

/-- How a terminal's turn to inject ends. -/
inductive Inject where
  | none
  | held
  | terminal
  | torus
  deriving DecidableEq, Repr

/-- Inject one packet of a unit, when an output or a terminal port left free suits it (R293). -/
def injectFrom (nd : Bool) (k : Nat) (differs : Bool) (u : FrameUse) (src : Nat) (b : Block) : Inject × Block :=
  match b.offer nd k src with
  | none => (.none, b)
  | some (i, p0, waited) =>
    let p := ageBy waited (sealPkt (b.hop nd k).inject p0)
    let e := b.entryAt nd k p.hdr
    let rest (b : Block) : Block :=
      let b := b.modNet src (fun x => { takeOffer src i x with lookup1 := false })
      if src = unitHO ∧ hFleet p.hdr then claimSlot ((hDst p.hdr).port - 4) p.lane ((hDst p.hdr).port - 4) b else b
    if differs ∧ looksUp src then (.held, lookupDiffers src i b)
    else if e.1 = 7 ∨ (e.1 = 4 ∧ b.portClosed (b.termAt nd k p.hdr)) then (.terminal, discard nd k 2 evUnroutable p.hdr (rest b))
    else if e.1 = 4 then
      let t := b.termAt nd k p.hdr
      if ¬ u.terms.contains (portKey nd t p.hdr) ∧ b.termRoom k t p then (.terminal, toTerm k t p (rest b)) else (.none, b)
    else match (wanted nd p.hdr e).find? (fun d => !u.outs.contains d && b.outRoom nd k d p) with
    | some d => (.torus, sendOut nd k d p (rest b))
    | none => (.none, b)

/-- Try the places of a round in turn until one injects or holds a packet. -/
def injectRound (nd : Bool) (k : Nat) (differs : Bool) (u : FrameUse) : List Nat → Block → Option Nat × Inject × Block
  | [], b => (none, .none, b)
  | p :: r, b =>
    match b.placeUnit nd k p with
    | none => injectRound nd k differs u r b
    | some s =>
      match injectFrom nd k differs u s b with
      | (.none, b) => injectRound nd k differs u r b
      | (x, b) => (some p, x, b)

/-- The turn to inject (R293): the gateway in every second frame in which it has a packet waiting, the other terminals
round-robin in the other frames, within the limit of R310. The gateway has the first turn. (DESIGN CHOICE, log 87.) -/
def injectTurn (nd : Bool) (k : Nat) (differs : Bool) (u : FrameUse) (b : Block) : Option Nat × Inject × Block :=
  let x := b.hop nd k
  let gate : Option Nat := if nd then none else (gateUnit k).bind (fun g => if (b.offer nd k g).isSome then some g else none)
  match gate, x.gateTurn with
  | some g, true =>
    let r := injectFrom nd k differs u g b
    (none, r.1, r.2.modHop nd k (fun y => { y with gateTurn := false }))
  | g, _ =>
    let b := if g.isSome then b.modHop nd k (fun y => { y with gateTurn := true }) else b
    let n := placesOf nd
    if ¬ nd ∧ x.limit ≤ x.injected ∧ x.limit < 16 then (none, .none, b)
    else injectRound nd k differs u ((List.range n).map (fun p => (x.rr + p) % n)) b

/-- The packets that stand in seam buffers toward a router have waited a frame more (R294). -/
def waitSeams (nd : Bool) (k : Nat) (b : Block) : Block :=
  if nd then
    forEach (List.range 4) (fun dir b => b.modNode (torusStep k dir) (fun x => { x with
      seams := tmap (fun d (l : List SeamSlot) => if d = opp dir then l.map (fun s => { s with frames := s.frames + 1 }) else l) x.seams })) b
  else
    forEach ((rangeFrom (64 * k) 64).filter (fun i => !(b.core i).net.seam.isEmpty)) (fun i b => b.modCore i (fun c => { c with
      net := { c.net with seam := c.net.seam.map (fun s => { s with frames := s.frames + 1 }) } })) b

/-- One frame of a router or node. (DESIGN CHOICE, log 87.) -/
def frameOf (nd : Bool) (k : Nat) (differs : Bool) (b : Block) : Block :=
  let arrived := sortBy (fun (x y : Packet) => keysLe (frameKey x) (frameKey y)) ((b.hop nd k).inp.map (·.2))
  let b := b.modHop nd k (fun x => { x with inp := x.nxt, nxt := [] })
  let r := arrived.foldl (arbitrate nd k) (({} : FrameUse), b)
  let inj := injectTurn nd k differs r.1 r.2
  let lb := inj.1.isSome && (decide (inj.2.1 = .terminal) || decide (inj.2.1 = .torus))
  let b := inj.2.2.modHop nd k (fun x => { x with
    frame := x.frame + 1
    injected := (if (x.frame + 1) % 16 = 0 then 0 else x.injected + b01 (lb && !nd))
    rr := match inj.1 with | some p => if lb then (p + 1) % placesOf nd else x.rr | none => x.rr
    busy := x.busy + r.1.outs.length + b01 (decide (inj.2.1 = .torus))
    offered := x.offered + 4 })
  waitSeams nd k b

/-- The routers of a region move in step: a router that is a frame ahead waits for the others (R284). -/
def Block.frameDue (b : Block) (nd : Bool) (k : Nat) : Bool :=
  nd || (rangeFrom (k / 128 * 128) 128).all (fun j => (b.router j).lost || decide ((b.router k).frame ≤ (b.router j).frame))

/-- ROUTER_FRAME (R292): kind 1 names a router, kinds 2 and 3 the node of a region; `differs` says that the two lookups of the
path of a packet that would be injected disagree (R283). (DESIGN CHOICE, log 87.) -/
def routerFrame (u : Nat) (differs : Bool) (b : Block) : Block :=
  let nd := decide (unitKind u ≠ 1)
  let k := if unitKind u = 3 then unitIndex u / 2 else unitIndex u
  if (unitKind u ≠ 1 ∧ unitKind u ≠ 2 ∧ unitKind u ≠ 3) ∨ 16384 ≤ k ∨ ¬ (b.office (hopRegion nd k)).powered ∨ (b.hop nd k).lost ∨
      ¬ b.frameDue nd k then b
  else frameOf nd k differs b
def execRouterFrame (turn : FrameTurn) (s : State) : Host.Outcome State Fault Refusal := act (routerFrame turn.unit.toNat turn.differs) s

/-- SEAM_DELIVER (R294, R306): the packet at the head of a node's seam buffer reaches the far input, older by the
frames it waited. A Letterbox's seam buffer delivers as its router injects (R293). -/
def seamDeliver (u dir : Nat) (b : Block) : Block :=
  let k := if unitKind u = 3 then unitIndex u / 2 else unitIndex u
  let n := torusStep k dir
  if (unitKind u ≠ 2 ∧ unitKind u ≠ 3) ∨ (tget (b.node n).inp (opp dir)).isSome then b
  else match (tget (b.node k).seams dir).getD [] with
  | [] => b
  | s :: r => (b.modNode k (fun x => { x with seams := tset x.seams dir r })).modNode n (fun x => { x with inp := tset x.inp (opp dir) (ageBy s.frames s.pkt) })
def execSeamDeliver (unit : BitVec 24) (dir : BitVec 2) (s : State) : Host.Outcome State Fault Refusal :=
  act (seamDeliver unit.toNat dir.toNat) s

/-! ### Terminals (R287, R295 to R299) -/

/-- The check a packet fails at its terminal: 1 parity, 2 CRC, 3 malformed (R287). -/
def e2eBad (p : Packet) : Option Nat :=
  if pktBad p then some 3 else if ¬ p.parOk then some 1 else if p.crc ≠ pktCrc p.hdr p.pl then some 2 else none

/-- Discard a packet that fails its end-to-end checks. -/
def e2eDrop (u why : Nat) (b : Block) : Block :=
  if why = 3 then b.modNet u (fun e => { e with malformed := e.malformed + 1 })
  else unitEvent u (if why = 1 then evE2eParity else evE2eCrc) b

/-- Return a packet to its sender (R296), and keep a copy of what is sent (R298). -/
def returnPkt (u : Nat) (p : Packet) (rcode : Nat) (hint : List Flit) (b : Block) : Block :=
  match b.path u with
  | none => b
  | some here =>
    let h := p.hdr
    let q : Packet := { hdr := mkHdr 3 (1 + hint.length) false (hSrc h) (hSsvc h) 0 here (hSvc h) (hSeq h) rcode, pl := h :: hint }
    let r := if unitKind u = 0 then regionOf (unitIndex u) else here.region
    (sendKept u q b).modOffice r (fun o => { o with returned := o.returned + 1 })

/-- Services by terminal kind (R277). -/
def implemented (kind svc : Nat) : Bool :=
  match kind with
  | 0 => [0x02, 0x03, 0x04, 0x05, 0x06, 0x07, 0x08].contains svc
  | 1 => [0x03, 0x11].contains svc
  | 2 => [0x01, 0x06, 0x08, 0x10, 0x11, 0x12, 0x13].contains svc
  | 3 => [0x01, 0x06, 0x08, 0x10, 0x11, 0x12, 0x13].contains svc
  | 4 => [0x08, 0x10, 0x11, 0x12, 0x13, 0x14, 0x15].contains svc
  | 5 => [0x06, 0x15].contains svc
  | 6 => [0x03, 0x05].contains svc
  | _ => false

/-- Services that only the serving member handles. -/
def servingOnly (svc : Nat) : Bool := [0x01, 0x06, 0x08, 0x10, 0x12].contains svc

/-- The forwarding hint of a Letterbox (R296, R299). -/
def hintFlit (e : NetEnd) : Flit :=
  match e.fwd with
  | some (u, ep) => BitVec.ofNat 128 (packF [(0, u), (24, ep), (32, 1)])
  | none => 0

/-- Send the ACK of a STAGED packet (R303). -/
def ackPkt (u : Nat) (p : Packet) (b : Block) : Block :=
  match b.path u with
  | none => b
  | some here =>
    let h := p.hdr
    sendKept u { hdr := mkHdr 2 0 false (hSrc h) (hSsvc h) 0 here (hSvc h) (hSeq h) 0 } b

/-- A STAGED packet at its target (R303, R304): a later stage of the same sender takes the place of an earlier one. -/
def stagePkt (u : Nat) (p : Packet) (b : Block) : Block :=
  let f := (p.pl.getD 0 0).toNat
  let act := fld f 0 64
  let id := fld f 64 16
  let cnt := fld f 80 16
  let ix := fld f 96 16
  let sender := pathUnit (hSrc p.hdr)
  let b := ackPkt u p b
  if act ≤ b.now then unitEvent u evStageIncomplete b
  else
    let upd (e : NetEnd) : NetEnd :=
      if cnt = 0 then { e with stages := e.stages.filter (fun x => x.sender ≠ sender || x.stageId ≠ id) }
      else
        let old := e.stages.find? (fun x => decide (x.sender = sender) && decide (x.stageId = id))
        let st : Stage := old.getD { sender := sender, stageId := id, act := act, cnt := cnt, got := [], svc := hSvc p.hdr }
        putStage (if st.got.any (fun g => decide (g.1 = ix)) then st else { st with got := st.got ++ [(ix, p.pl.drop 1)] }) e
    b.modNet u upd

/-- An ACK at a sequencer: the target has answered (R303, R305). -/
def ackArrive (u : Nat) (p : Packet) (b : Block) : Block :=
  let t := pathUnit (hSrc p.hdr)
  let b := b.modNet u (fun e => { e with sends := e.sends.map (fun x => { x with missing := x.missing.filter (fun m => m.1 ≠ t) }) })
  if unitKind t = 0 ∧ b.ho.job.unarmed.contains (unitIndex t) then
    let b := b.modJob (fun j => { j with unarmed := j.unarmed.filter (· ≠ unitIndex t), armedCnt := j.armedCnt + 1, armedAt := b.now })
    if b.ho.job.unarmed.isEmpty then firstReceipt 0x102 (le 8 b.ho.job.launchAt ++ le 8 b.ho.job.armedAt ++ le 4 b.ho.job.armedCnt) b else b
  else b

/-- Flits in an event queue of an Office (R309). -/
def evqFlits (o : Office) (c : Nat) : Nat := flitsOf ((tget o.evq c).getD [])

/-- The source router of a packet: its cluster (R295). -/
def srcCluster (h : BitVec 128) : Nat := 16 * (hSrc h).y + (hSrc h).x

/-- DESCRIPTOR at a Letterbox: each flit is an entry with its slot (R67, R197). An entry of kind 1 that comes after the launch it was
filled for is not written: its slot runs with kind 0 (R198). (DESIGN CHOICE, log 141.) -/
def descArrive (i : Nat) (pl : List Flit) (b : Block) : Block :=
  let open1 := (b.office (regionOf i)).st.filled
  let mine := pl.filter (fun f => decide (fld f.toNat 52 3 ≠ 1) || open1)
  b.modCore i (fun c => { c with scr := { c.scr with desc := mine.foldl (fun t f => tset t (fld f.toNat 64 8) (BitVec.ofNat 64 f.toNat)) c.scr.desc } })

/-- A packet of a region map at the Head Office: with the other two it makes the map (R308). The three leave one after the
other, so their sequence numbers tell them apart. (DESIGN CHOICE, log 88.) -/
def mapArrive (r seq : Nat) (pl : List Flit) (b : Block) : Block :=
  let parts := (((tget b.ho.post.mapParts r).getD []) ++ [(seq, pl)])
  let parts := parts.drop (parts.length - 6)
  let part (s : Nat) : Option (List Flit) := (parts.find? (fun x => decide (x.1 = s % 256) && decide (x.2.length = 4))).map (·.2)
  let whole := parts.findSome? (fun x => if x.2.length = 1 then
    (match part (x.1 + 254), part (x.1 + 255) with | some a, some c => some (a ++ c ++ x.2) | _, _ => none) else none)
  match whole with
  | none => b.modPost (fun p => { p with mapParts := tset p.mapParts r parts })
  | some fl =>
    let lo := fld (fl.getD 8 0).toNat 0 32
    b.modPost (fun p => { p with
      mapParts := tdel p.mapParts r
      maps := tset p.maps r (fl.flatMap flitBytes)
      mapAge := tset p.mapAge r (b.now - (b.now + 2 ^ 32 - lo) % 2 ^ 32) })

/-- One flit of R461. -/
def stallRecOf (f : Nat) : StallRec :=
  { role := fld f 0 20
    entry := fld f 20 6
    update := bit f 26
    desc := if bit f 27 then some (fld f 28 8, fld f 36 20) else none
    pm := fld f 56 64 }

/-- A packet of a job-scoped service whose receiving function has been cleared with its job, or with its parcel (R393, R394). -/
def Block.deadPkt (b : Block) (p : Packet) : Bool :=
  decide (hPtype p.hdr = 0) && !hFleet p.hdr && jobSvc (hSvc p.hdr) && (b.ho.job.man.isNone || (decide (hSvc p.hdr = 0x06) && !b.capturing))

/-- Deliver an accepted unicast to its service. The spec lays out the payloads of the services named here; what the packets of
the others do is the effect of the commands that name it. (DESIGN CHOICE, log 142.) -/
def deliver (u : Nat) (p : Packet) (b : Block) : Block :=
  let svc := hSvc p.hdr
  let f := (p.pl.getD 0 0).toNat
  if b.deadPkt p then deadLetter 20 b
  else match unitKind u with
  | 0 =>
    if svc = 0x02 then descArrive (unitIndex u) p.pl b
    else if svc = 0x07 then
      (if p.pl.length ≠ 4 ∨ fld f 30 98 ≠ 0 then b.modNet u (fun e => { e with malformed := e.malformed + 1 })
       else imagePacket (unitIndex u) (imageFlits p.pl) b)
    else b
  | 4 =>
    if svc = 0x15 ∧ hFleet p.hdr then fleetArrive (unitIndex (pathUnit (hSrc p.hdr))) p b
    else if svc = 0x15 then takeReport (unitIndex (pathUnit (hSrc p.hdr))) (unitIndex (pathUnit (hSrc p.hdr))) f b
    else if svc = 0x12 then mapArrive (unitIndex (pathUnit (hSrc p.hdr))) (hSeq p.hdr) p.pl b
    else if svc = 0x08 then b.modJob (fun j => { j with stalls := j.stalls ++ p.pl.map (fun f => stallRecOf f.toNat) })
    else b
  | 5 =>
    if svc = 0x15 ∧ hFleet p.hdr then
      let n := unitIndex u
      let s := pathUnit (hSrc p.hdr)
      let src := if s = unitHO then n else unitIndex s
      let t := b.slotAt n p.lane src
      if ¬ b.portUp n then
        fleetDrop n 3 evLinkDownDrop (reportTo n src (b.modCourier n (fun c => { c with
          transit := tset c.transit (16 * p.lane + src) { t with arrived := t.arrived + 1, freed := t.freed + 1 } })))
      else reportTo n src (b.modCourier n (fun c => { c with
        transit := tset c.transit (16 * p.lane + src) { t with arrived := t.arrived + 1, pkt := some p } }))
    else if svc = 0x15 then
      (if pathUnit (hSrc p.hdr) = unitHO then takeDlv (unitIndex u) f b
       else takeReport (unitIndex (pathUnit (hSrc p.hdr))) (unitIndex u) f b)
    else if svc = 0x06 then captureArrive (unitIndex u) p.pl b
    else b
  | 3 =>
    let r := unitIndex u / 2
    if svc = 0x01 ∨ svc = 0x08 then
      let c := srcCluster p.hdr
      b.modOffice r (fun o => { o with evq := tset o.evq c ((tget o.evq c).getD [] ++ [p]) })
    else if svc = 0x06 then (match tget b.ho.parcel.ports r with | some n => unicast (unitOffice r) (unitCourier n) 0x06 p.pl b | none => b)
    else if svc = 0x12 then b.modOffice r (fun o => { o with samples := tset o.samples (srcCluster p.hdr) (BitVec.ofNat 8 f) })
    else b
  | _ => b

/-- A packet is RETURNED under R295, and with which rcode: `full` says that the terminal has no free receive buffer, of which the
spec gives no number. (DESIGN CHOICE, log 143.) -/
def Block.returnCode (b : Block) (u : Nat) (full : Bool) (p : Packet) : Option Nat :=
  let svc := hSvc p.hdr
  let kind := unitKind u
  if ¬ implemented kind svc then some 3
  else if kind = 0 ∧ hPtype p.hdr = 0 ∧ (svc = 0x02 ∨ svc = 0x04) ∧ hEpoch p.hdr ≠ (b.net u).epoch.toNat then some 1
  else if kind = 3 ∧ servingOnly svc ∧ ((b.office (unitIndex u / 2)).reload ∨ decide (unitIndex u % 2 = 1) ≠ (b.office (unitIndex u / 2)).serving) then some 4
  else if full then some 2
  else if kind = 3 ∧ (svc = 0x01 ∨ svc = 0x08) ∧ 512 < evqFlits (b.office (unitIndex u / 2)) (srcCluster p.hdr) + p.pl.length + 1 then some 2
  else none

/-- The terminal that a unit number names: an Office role is its serving member. -/
def Block.termOf (b : Block) (u : Nat) : Nat := if unitKind u = 2 then unitMember (unitIndex u) (b01 (b.office (unitIndex u)).serving) else u

/-- A terminal has power and has not failed. -/
def Block.termOn (b : Block) (u : Nat) : Bool :=
  match unitKind u with
  | 0 => (b.core (unitIndex u)).porN
  | 1 => !(b.router (unitIndex u)).lost
  | 3 => let o := b.office (unitIndex u / 2); o.powered && !o.dead && !(if unitIndex u % 2 = 0 then o.memA.failed else o.memB.failed)
  | 4 => b.hoRuns
  | k => decide (k < 8) && (b.courier (unitIndex u)).powered

/-- The first packet of rx that a test admits, and the rest. -/
def takeRx (f : Packet → Bool) : List Packet → Option (Packet × List Packet)
  | [] => none
  | p :: r => if f p then some (p, r) else (takeRx f r).map (fun x => (x.1, p :: x.2))

/-- Region records and egress summaries wait at the Head Office for rows of their own. -/
def ownRow (u : Nat) (p : Packet) : Bool := decide (unitKind u = 4) && (decide (hSvc p.hdr = 0x10) || decide (hSvc p.hdr = 0x14)) && decide (hPtype p.hdr = 0)

/-- TERMINAL_RECEIVE (R287, R295): the next packet of a terminal that is not a Returned one. An ACK is for the sequencer that
waits for it and is checked for no service. -/
def terminalReceive (u0 : Nat) (full : Bool) (b : Block) : Block :=
  let u := b.termOf u0
  if ¬ b.termOn u then b
  else match takeRx (fun p => decide (hPtype p.hdr ≠ 3) && !ownRow u p) (b.net u).rx with
  | none => b
  | some (p, rest) =>
    let b := b.modNet u (fun e => { e with rx := rest })
    let b := if unitKind u = 0 then bumpCtr (unitIndex u) 0x0013 1 b else b
    match e2eBad p with
    | some why => e2eDrop u why b
    | none =>
      if hPtype p.hdr = 2 then (if full then returnPkt u p 2 [] b else ackArrive u p b)
      else match b.returnCode u full p with
      | some 1 => returnPkt u p 1 [hintFlit (b.net u)] b
      | some rc => returnPkt u p rc [] b
      | none => if hPtype p.hdr = 1 then stagePkt u p b else deliver u p b
def execTerminalReceive (unit : BitVec 24) (full : Bool) (s : State) : Host.Outcome State Fault Refusal :=
  act (terminalReceive unit.toNat full) s

/-- The held copy that a Returned packet answers: same seq and destination path (R298, R312). -/
def heldFor (h : BitVec 128) (x : Held) : Bool := decide (hSeq x.pkt.hdr = hSeq h) && decide (hDst x.pkt.hdr = hDst h)

/-- RETURNED_RECEIVE (R287, R296, R297). -/
def returnedReceive (u0 : Nat) (b : Block) : Block :=
  let u := b.termOf u0
  if ¬ b.termOn u then b
  else match takeRx (fun p => decide (hPtype p.hdr = 3)) (b.net u).rx with
  | none => b
  | some (p, rest) =>
    let b := b.modNet u (fun e => { e with rx := rest })
    let b := if unitKind u = 0 then bumpCtr (unitIndex u) 0x0014 1 (bumpCtr (unitIndex u) 0x0013 1 b) else b
    let orig := p.pl.getD 0 0
    let lost (b : Block) : Block := unitEvent u evReturnLost b
    let setHeld (f : Held → Held) (b : Block) : Block := b.modNet u (fun e => { e with held := e.held.map (fun x => if heldFor orig x then f x else x) })
    let dropHeld (b : Block) : Block := b.modNet u (fun e => { e with held := e.held.filter (fun x => !heldFor orig x) })
    match e2eBad p with
    | some why => lost (e2eDrop u why b)
    | none =>
      match (b.net u).held.find? (heldFor orig) with
      | none => lost b
      | some x =>
        match hRcode p.hdr with
        | 1 =>
          let hint := (p.pl.getD 1 0).toNat
          match (if bit hint 32 && !x.moved then b.pathTo u (fld hint 0 24) else none) with
          | some d =>
            let h := x.pkt.hdr
            let q : Packet := { x.pkt with hdr := mkHdr (hPtype h) (hLen h) (hFleet h) d (hSvc h) (fld hint 24 8) (hSrc h) (hSsvc h) (hSeq h) 0 }
            enqueue u q (setHeld (fun y => { y with pkt := q, moved := true }) b)
          | none => unitEvent u evAddresseeMoved (dropHeld b)
        | 2 => if x.tries < 4 then setHeld (fun y => { y with waiting := true, tries := y.tries + 1 }) b else unitEvent u evTxDrop (dropHeld b)
        | 3 => unitEvent u evTxDrop (dropHeld b)
        | 4 => if x.notServing then unitEvent u evTxDrop (dropHeld b) else setHeld (fun y => { y with waiting := true, notServing := true }) b
        | _ => b.modNet u (fun e => { e with malformed := e.malformed + 1 })
def execReturnedReceive (unit : BitVec 24) (s : State) : Host.Outcome State Fault Refusal := act (returnedReceive unit.toNat) s

/-- RESEND_TIMER (R297): 64 of the sender's frames after the return, the held copy goes again. -/
def resendTimer (u0 : Nat) (b : Block) : Block :=
  let u := b.termOf u0
  match (b.net u).held.find? (·.waiting) with
  | none => b
  | some x =>
    if ¬ b.termOn u then b
    else enqueue u x.pkt (b.modNet u (fun e => { e with held := e.held.map (fun y => if y = x then { y with waiting := false } else y) }))
def execResendTimer (unit : BitVec 24) (s : State) : Host.Outcome State Fault Refusal := act (resendTimer unit.toNat) s

/-! ### Congestion (R307 to R311) -/

/-- The sample count that a command serves: the multiple of 10,000 ticks at most 4,000 ticks ago, or the next one. -/
def sampleCount (n : Nat) : Nat := if n % 10000 ≤ 4000 then n - n % 10000 else roundUp n 10000
/-- When it runs. -/
def sampleTime (n : Nat) : Nat := max n (sampleCount n)

/-- Smallest d with 2^d at least n. -/
def log2Up (n : Nat) : Nat := if n ≤ 1 then 0 else Nat.log2 (n - 1) + 1

/-- CONGESTION_SAMPLE (R307). -/
def congestionSample (r k : Nat) (b : Block) : Block :=
  let key := 128 * r + k
  let x := b.router key
  if ¬ (b.office r).powered ∨ x.lost then b
  else
    let b := advTo (sampleTime b.now) b
    let occ := if x.offered = 0 then 0 else min 15 (16 * x.busy / x.offered)
    let byte := occ + 16 * min 15 (log2Up (1 + x.defl))
    unicast (unitRouter key) (unitOffice r) 0x12 [BitVec.ofNat 128 byte] (b.modRouter key (fun x => { x with busy := 0, offered := 0, defl := 0 }))
def execCongestionSample (region : RegionIdx) (router : BitVec 7) (s : State) : Host.Outcome State Fault Refusal :=
  act (congestionSample region.toNat router.toNat) s

/-- Fullest event queue, in flits. -/
def qMax (o : Office) : Nat := (List.range 128).foldl (fun m c => max m (evqFlits o c)) 0

/-- The level whose entry condition holds (R309). -/
def levelIn (q hot : Nat) : Nat := if 460 ≤ q then 3 else if 384 ≤ q then 2 else if 256 ≤ q ∨ 8 ≤ hot then 1 else 0
/-- The leave condition of a level (R309). -/
def levelOut (lv q hot : Nat) : Bool :=
  match lv with
  | 0 => false
  | 1 => decide (q < 192) && decide (hot < 4)
  | 2 => decide (q < 288)
  | _ => decide (q < 352)

/-- The level after a sample, and whether a period of calm has begun (R309). -/
def nextLevel (lv q hot : Nat) (calm : Bool) : Nat × Bool :=
  if lv < levelIn q hot then (levelIn q hot, false)
  else if levelOut lv q hot then (if calm then (lv - 1, false) else (lv, true))
  else (lv, false)

/-- A router's limit from its sample byte: 16 means unlimited (R310). (DESIGN CHOICE, log 87.) -/
def routerLimit (byte : Nat) : Nat := if 10 ≤ byte / 16 then 4 else if 6 ≤ byte / 16 then 8 else 16

/-- Change the serving member of a region. -/
def modServing (r : Nat) (f : Member → Member) (b : Block) : Block := b.modOffice r (fun o => o.modServer f)

/-- REGION_MAP_SEND (R308 to R311): the map leaves for the Head Office in three packets; the member's level and the routers'
limits follow. (DESIGN CHOICE, log 9 and 88.) -/
def regionMapSend (r : Nat) (b : Block) : Block :=
  let o := b.office r
  if ¬ o.powered ∨ o.dead then b
  else
    let at0 := sampleCount b.now
    let b := advTo (sampleTime b.now) b
    let m := o.server
    let lost (k : Nat) : Bool := (b.router (128 * r + k)).lost
    let bytes := (List.range 128).map (fun k => if lost k then (0xFF : BitVec 8) else (tget o.samples k).getD 0xFF)
    let whole := (List.range 128).all (fun k => lost k || (tget o.samples k).isSome)
    let hot := ((List.range 128).filter (fun k => !lost k && (match tget o.samples k with | some x => decide (12 ≤ x.toNat % 16) | none => false))).length
    let maps := if whole then min 8 (m.maps + 1) else if m.maps < 8 then 0 else m.maps
    let nl := if maps < 8 then (1, false) else nextLevel m.level (qMax o) hot m.calm
    let nLost := ((List.range 128).filter lost).length
    let tail : Flit := BitVec.ofNat 128 (packF [(0, at0 % 2 ^ 32), (32, min 1023 (qMax o)), (42, nl.1), (44, nLost), (64, sat 32 o.seamDefl), (96, sat 16 o.returned), (112, sat 16 o.discards)])
    let flits (n : Nat) : List Flit := (List.range 4).map (fun j => BitVec.ofNat 128 (ofLe (slice bytes (64 * n + 16 * j) 16)))
    let b := modServing r (fun m => { m with maps := maps, level := nl.1, calm := nl.2 })
      (b.modOffice r (fun o => { o with samples := [], seamDefl := 0, returned := 0, discards := 0 }))
    let b := forEach (List.range 128) (fun k b => b.modRouter (128 * r + k) (fun x => { x with limit := if maps < 8 then 8 else routerLimit (bytes.getD k 0).toNat })) b
    unicast (unitOffice r) unitHO 0x12 [tail] (unicast (unitOffice r) unitHO 0x12 (flits 1) (unicast (unitOffice r) unitHO 0x12 (flits 0) b))
def execRegionMapSend (region : RegionIdx) (s : State) : Host.Outcome State Fault Refusal := act (regionMapSend region.toNat) s

/-- The wafer map, 144 bytes a region (128 samples and the flit of packet 2, R308): a region's latest map stands for one period, then its bytes read 0xFF (R312). (DESIGN CHOICE, log 88.) -/
def Block.waferMap (b : Block) : Tab (List (BitVec 8)) :=
  b.popRegions.map (fun r =>
    (r, if b.now < tcnt b.ho.post.mapAge r + 24000 then (tget b.ho.post.maps r).getD (List.replicate 144 0xFF) else List.replicate 144 0xFF))

/-- The maximum occ of a region's map, over the routers that are not lost (R310). -/
def Block.maxOcc (b : Block) (r : Nat) (m : List (BitVec 8)) : Nat :=
  (List.range 128).foldl (fun a k => if (b.router (128 * r + k)).lost then a else max a ((m.getD k 0).toNat % 16)) 0

/-- WAFER_MAP_BROADCAST (R310): once per 100 us every Office gets the regions' maxima. (DESIGN CHOICE, log 88.) -/
def waferMapBroadcast (b : Block) : Block :=
  if ¬ b.hoRuns then b
  else
    let b := advTo (roundUp b.now 100000) b
    let m := b.waferMap
    let mx : Tab Nat := m.map (fun x => (x.1, b.maxOcc x.1 x.2))
    let b := if b.dbg.exporting.isSome then b else b.modPost (fun p => { p with waferMaps := (m :: p.waferMaps).take 256 })
    forEach b.popRegions (fun r b => b.modOffice r (fun o => { o with maxima := mx })) b
def execWaferMapBroadcast (s : State) : Host.Outcome State Fault Refusal := act waferMapBroadcast s

end Sys2Proof.Machine
end

