-- ==== Sys2Proof/Machine/Tiles.lean ====
section
/-! DEFINITION. Tiles on the Core Tap: weight and activation beats, the accumulator drain and Tally Reducer, row
comparisons, outputs, verdicts and core summaries (02_core_tap_port, 05_residue_screening, 06_duplicate_execution R200,
R201, R211, R212, 07 R217 to R219). -/

namespace Sys2Proof.Machine

open Sys2Proof

/-! ### The Letterbox and its tiles -/

def modScr (i : Nat) (f : CoreScreen → CoreScreen) (b : Block) : Block := b.modCore i (fun c => { c with scr := f c.scr })

/-- The open tile of a tag; the one before it, whose outputs still come, stands at tag + 4. -/
def Block.tile (b : Block) (i t : Nat) : Option Tile := tget (b.core i).scr.tiles t
def putTile (i t : Nat) (x : Tile) (b : Block) : Block := modScr i (fun s => { s with tiles := tset s.tiles t x }) b

/-- The known-answer entry of a test in progress (R250, R267). -/
def Block.katOf (b : Block) (i : Nat) : Option KatEntry :=
  match (b.core i).ctl.test, b.cfg with
  | some u, some g => if u.mode = 3 then g.kats[u.unit]? else none
  | _, _ => none

/-- The descriptor of an index for a tile: a test tile is read under its KAT entry's in_fmt (R267). -/
def Block.descOf (b : Block) (i : Nat) (x : Tile) (ix : Nat) : BitVec 64 :=
  if x.test then (match b.katOf i with | some k => k.inFmt | none => 0xF) else (b.core i).scr.fmt.getD ix 0xF

/-- The output element type of a tile (R57, R250). -/
def Block.outTypeOf (b : Block) (i : Nat) (x : Tile) (ix : Nat) : Nat :=
  if x.test then (match b.katOf i with | some k => k.outType | none => 15) else fElem ((b.core i).scr.fmt.getD ix 0xF)

/-- Taps are read: the Letterbox runs, and no test but a known-answer tile is on the core. R266 forbids verdicts and
summaries of test traffic; that the beats of modes 0 to 2 are taken (R81) and leave nothing behind, neither a Tally
Reducer output nor a count, is the model's. (DESIGN CHOICE, log 126.) -/
def Core.tapsRead (c : Core) : Bool :=
  c.lbOn && (match c.ctl.test with | some u => decide (u.mode = 3) || !u.acked | none => true)

/-- A Letterbox reports an event of a tile. Test traffic reports none: R266 forbids its verdicts and summaries, and its
port and format events are left out with them. (DESIGN CHOICE, log 126.) -/
def tileEvent (i : Nat) (x : Tile) (code : Nat) (b : Block) : Block := if x.test then b else lbEvent i code [] b

/-- Close a tile early as UNCHECKABLE (R55, R62). -/
def shutTile (x : Tile) : Tile := { x with port := true, closed := true }

/-- What a beat's lanes found, each event reported once per tile (R170). (DESIGN CHOICE, log 127.) -/
def reportLanes (i : Nat) (x : Tile) (sp inv misuse : Bool) (b : Block) : Tile × Block :=
  let b := if misuse ∧ ¬ x.saidMisuse then tileEvent i x evFormatMisuse b else b
  let b := if sp ∧ ¬ x.saidSpecial then tileEvent i x evInputSpecial b else b
  let b := if inv ∧ ¬ misuse ∧ ¬ x.saidEncoding then tileEvent i x evEncoding b else b
  ({ x with
    special := x.special || sp || (inv && !misuse)
    misuse := x.misuse || misuse
    saidSpecial := x.saidSpecial || sp
    saidEncoding := x.saidEncoding || (inv && !misuse)
    saidMisuse := x.saidMisuse || misuse }, b)

/-- Every lane of a beat converted: (segment position, output). -/
def lanesOf (d : BitVec 64) (k kseg data scale : Nat) : List (Nat × LaneOut) :=
  (beatLanes d k kseg data).map (fun p => (32 * kseg + p.1, convLane d p.2 (laneScale d scale p.1)))

/-! ### Weights (R50 to R56, R178) -/

/-- Fold one weight beat into its tile (R52, R53, R178). -/
def foldWeight (d : BitVec 64) (w : WeightBeat) (x : Tile) : Tile :=
  let seg := w.kseg.toNat
  let col := tcnt x.cols seg
  let v := (lanesOf d x.k seg w.data.toNat w.scale.toNat).foldl (fun (t : Tab Nat) p => match p.2.res with
    | some r => tset t p.1 ((tcnt t p.1 + r) % M13)
    | none => t) x.v
  let x := { x with
    wBeats := x.wBeats + 1
    cols := tadd x.cols seg 1
    v := v
    psum := (x.psum + beatP d x.k seg col w.data.toNat w.scale.toNat) % M13
    wide := x.wide || decide (x.n ≤ col)
    scaleRange := x.scaleRange || beatRange d x.k seg w.scale.toNat }
  if w.last then
    let bad := x.wide || decide (x.wBeats ≠ tileBeats x.k x.n) ||
      decide (x.stampIn ≠ BitVec.ofNat 32 (stampOf x.psum x.wBeats x.tid.toNat x.k x.n x.wFmt))
    { x with wLast := true, stampBad := bad }
  else x

/-- The descriptor that a tile was read under: slot and kind of a read that waits, kind 0 for an own tile (R68, R218). (DESIGN CHOICE, log 52.) -/
def Block.readFor (b : Block) (i tid : Nat) : Option (Nat × Nat) :=
  ((b.core i).scr.reads.find? (fun r => decide (fld r.2.toNat 0 32 = tid))).map (fun r => (fld r.2.toNat 52 3, r.1))

/-- A tag's rows and residues that wait go with the tile that gives the tag up. -/
def moveRows (t : Nat) (s : CoreScreen) : CoreScreen :=
  { s with
    rowq := (s.rowq.filter (fun r => r.1 ≠ t + 4)).map (fun r => if r.1 = t then (t + 4, r.2) else r)
    tlyq := (s.tlyq.filter (fun r => r.1 ≠ t + 4)).map (fun r => if r.1 = t then (t + 4, r.2) else r) }

/-- Drop the rows and residues of a tile's place. -/
def dropRows (k : Nat) (s : CoreScreen) : CoreScreen :=
  { s with rowq := s.rowq.filter (fun r => r.1 ≠ k), tlyq := s.tlyq.filter (fun r => r.1 ≠ k) }

/-- A weight tile begins on a tag (R52, R55). A tag taken again before ct_tly_last was seen for it closes both tiles,
the earlier one as far as it is still open. (DESIGN CHOICE, log 52.) -/
def openTile (i : Nat) (w : WeightBeat) (b : Block) : Block :=
  let t := w.tag.toNat
  let s := (b.core i).scr
  let kd := b.readFor i w.tid.toNat
  let test := (b.core i).ctl.test.isSome
  let clash := s.tagBusy.contains t
  let fresh : Tile := {
    age := s.nextAge
    tid := w.tid
    step := BitVec.ofNat 32 b.ho.job.step
    kind := (kd.map (·.1)).getD 0
    slot := (kd.map (·.2)).getD 0
    test := test
    wFmt := w.fmt.toNat
    k := w.k.toNat + 1
    n := w.n.toNat + 1
    stampIn := w.stamp
    flush := s.sticky }
  let fresh := if clash then shutTile fresh else fresh
  let b := modScr i (fun s => { s with
    nextAge := s.nextAge + 1
    tagBusy := if clash then s.tagBusy else s.tagBusy ++ [t]
    reads := match s.reads.findIdx? (fun r => decide (fld r.2.toNat 0 32 = w.tid.toNat)) with | some k => s.reads.eraseIdx k | none => s.reads }) b
  let b := if clash then tileEvent i fresh evPortTag b else b
  match b.tile i t with
  | none => putTile i t fresh b
  | some old =>
    if old.closed ∨ clash then putTile i t fresh (putTile i (t + 4) (if old.closed then old else shutTile old) (modScr i (fun s => dropRows (t + 4) (dropRows t s)) b))
    else if old.actEnd then putTile i t fresh (putTile i (t + 4) old (modScr i (moveRows t) b))
    else putTile i t fresh (putTile i (t + 4) { old with resBad := true, closed := true } (modScr i (fun s => dropRows (t + 4) (dropRows t s)) b))

/-- WEIGHT_BEAT (R52, R53). -/
def weightBeat (i : Nat) (w : WeightBeat) (b : Block) : Block :=
  if ¬ (b.core i).tapsRead then b
  else
    let t := w.tag.toNat
    let b := bumpCtr i 0x000D 1 b
    let b := if w.first then openTile i w b else b
    match b.tile i t with
    | none => b
    | some x =>
      if x.wLast ∨ x.closed then b
      else
        let d := b.descOf i x x.wFmt
        let ls := (lanesOf d x.k w.kseg.toNat w.data.toNat w.scale.toNat).map (·.2)
        let r := reportLanes i x (ls.any (·.special)) (ls.any (·.invalid)) (!inputType (fElem d)) b
        putTile i t (foldWeight d w r.1) r.2
def execWeightBeat (core : CoreIdx) (w : WeightBeat) (s : State) : Host.Outcome State Fault Refusal := act (weightBeat core.toNat w) s

/-! ### Activations (R54, R62, R174) -/

/-- Both ends are seen and the row counts differ (R61). -/
def rowsDiffer (x : Tile) : Tile := if x.actEnd ∧ x.tlyEnd ∧ x.tallies.length ≠ x.rowsAct then { x with resBad := true } else x

/-- The oldest open tile's place. -/
def oldestOpen (tiles : Tab Tile) : Option (Nat × Tile) :=
  tiles.foldl (fun (m : Option (Nat × Tile)) p => if p.2.closed then m else match m with
    | none => some p
    | some q => if p.2.age < q.2.age then some p else m) none

/-- While 512 rows wait for their residues, the oldest open tile closes UNCHECKABLE with PORT_LAG. A tile that has no
row waiting frees none, and the next oldest follows. (DESIGN CHOICE, log 128.) -/
def lagTiles (i : Nat) : Nat → Block → Block
  | 0, b => b
  | fuel + 1, b =>
    let s := (b.core i).scr
    if s.rowq.length < 512 then b
    else match oldestOpen s.tiles with
    | none => b
    | some (k, x) => lagTiles i fuel (modScr i (dropRows k) (putTile i k (shutTile x) (tileEvent i x evPortLag b)))

/-- A finished row goes into the row queue of 512 entries (R62). -/
def queueRow (i t res : Nat) (b : Block) : Block :=
  let b := lagTiles i 8 b
  match b.tile i t with
  | some x => if x.closed then b else modScr i (fun s => { s with rowq := s.rowq ++ [(t, res)] }) b
  | none => b

/-- Class B on either side (R63, R173). -/
def Block.classB (b : Block) (i : Nat) (x : Tile) : Bool :=
  fClassB (b.descOf i x x.wFmt) || (match x.aFmt with | some a => fClassB (b.descOf i x a) | none => false)

/-- ACTIVATION_BEAT (R54, R55). A beat with a tag that no tile has reports PORT_ORDER, there being no tile to close. (DESIGN CHOICE, log 129.) -/
def activationBeat (i : Nat) (a : ActBeat) (b : Block) : Block :=
  if ¬ (b.core i).tapsRead then b
  else
    let t := a.tag.toNat
    let b := bumpCtr i 0x000E 1 b
    match b.tile i t with
    | none => lbEvent i evPortOrder [] b
    | some x =>
      if x.closed then b
      else if ¬ x.wLast then putTile i t (shutTile x) (tileEvent i x evPortOrder b)
      else
        let changed : Bool := match x.aFmt with | some f => decide (f ≠ a.fmt.toNat) | none => false
        let d := b.descOf i x a.fmt.toNat
        let ls := lanesOf d x.k a.kseg.toNat a.data.toNat a.scale.toNat
        let r := reportLanes i x (ls.any (·.2.special)) (ls.any (·.2.invalid)) (changed || !inputType (fElem d)) b
        let x := r.1
        let b := r.2
        let sum := ls.foldl (fun (acc : Nat) p => match p.2.res with | some q => (acc + q * tcnt x.v p.1) % M13 | none => acc) x.rowAcc
        let x := { x with
          aFmt := some (x.aFmt.getD a.fmt.toNat)
          rowAcc := if a.rowLast then 0 else sum
          rowsAct := x.rowsAct + b01 a.rowLast
          actEnd := x.actEnd || a.tileLast
          scaleRange := x.scaleRange || beatRange d x.k a.kseg.toNat a.scale.toNat }
        let b := putTile i t (rowsDiffer x) b
        if a.rowLast ∧ ¬ b.classB i x then queueRow i t sum b else b
def execActivationBeat (core : CoreIdx) (a : ActBeat) (s : State) : Host.Outcome State Fault Refusal := act (activationBeat core.toNat a) s

/-! ### Accumulator drain and Tally Reducer (R58 to R63, R175) -/

/-- A tally residue reaches the Letterbox (R61 to R63). ct_tly_last frees the tag for another tile, whatever became of
its tile (R55). -/
def tallyArrives (i t res : Nat) (last : Bool) (b : Block) : Block :=
  let b := if last then modScr i (fun s => { s with tagBusy := s.tagBusy.filter (· ≠ t) }) b else b
  match b.tile i t with
  | none => b
  | some x =>
    if x.closed then b
    else
      let x := rowsDiffer { x with tallies := x.tallies ++ [res], tlyEnd := x.tlyEnd || last }
      let b := putTile i t x b
      if b.classB i x then b
      else
        let s := (b.core i).scr
        let rows := (s.rowq.filter (fun r => r.1 = t)).length
        let waiting := (s.tlyq.filter (fun r => r.1 = t)).length
        if waiting < rows then modScr i (fun s => { s with tlyq := s.tlyq ++ [(t, res, last)] }) b
        else if x.actEnd then putTile i t { x with resBad := true } b
        else putTile i t (shutTile x) (tileEvent i x evPortOrder b)

/-- ACCUMULATOR_DRAIN (R58, R59, R175): a drain cycle; at the row's last lanes the residue is driven. (DESIGN CHOICE, log 17 and 53.) -/
def accumulatorDrain (i : Nat) (a : AccBeat) (b : Block) : Block :=
  if ¬ (b.core i).porN ∨ ¬ (b.core i).tapsRead then b
  else
    let t := a.tag.toNat
    let b := bumpCtr i 0x000F 1 b
    let w := freshWord b
    let b := if accSplit a then w.2 else b
    let fold := if accSplit a then w.1.toNat % M13 else accFold a
    let acc := (tget (b.core i).scr.tacc t).getD {}
    let changed : Bool := match acc.exp with | some e => decide (e ≠ a.lsbExp) | none => false
    let b := match b.tile i t with
      | some x => if changed ∧ ¬ x.closed then (let r := reportLanes i x false false true b; putTile i t r.1 r.2) else b
      | none => b
    let e := acc.exp.getD a.lsbExp
    let sum := (acc.acc + fold) % M13
    if ¬ a.rowLast then modScr i (fun s => { s with tacc := tset s.tacc t ⟨sum, some e⟩ }) b
    else
      let res := rot13 sum (emod13 (sgn e.toNat 8))
      let b := modScr i (fun s => { s with tacc := if a.tileLast then tdel s.tacc t else tset s.tacc t ⟨0, some e⟩ }) b
      let b := b.modCore i (fun c => { c with pins := { c.pins with tlyVld := true, tlyRes := BitVec.ofNat 13 res, tlyTag := a.tag, tlyLast := a.tileLast } })
      tallyArrives i t res a.tileLast b
def execAccumulatorDrain (core : CoreIdx) (a : AccBeat) (s : State) : Host.Outcome State Fault Refusal := act (accumulatorDrain core.toNat a) s

/-! ### Row comparison and the Loaded Die (R61, R211, R212) -/

/-- The Loaded Die draw of an own tile: (u, aux); none outside a job or without a role (R211). -/
def Block.loadedDie (b : Block) (i step tid : Nat) : Option (Nat × Nat) :=
  match b.ho.job.man, b.roleOf i with
  | some m, some role => some (dice m.jobSeed 0x02 step role tid)
  | _, _ => none

/-- The planted offset of a tile at its first row comparison: none when it is not planted (R211, R214). -/
def Block.planting (b : Block) (i : Nat) (x : Tile) : Option Nat :=
  if x.kind ≠ 0 ∨ x.test ∨ x.special ∨ x.port ∨ x.misuse ∨ x.compared ≠ 0 then none
  else match b.loadedDie i x.step.toNat x.tid.toNat with
  | none => none
  | some (u, aux) => if 0 < (b.core i).scr.burst ∨ u < b.ho.policy.thrLd.toNat then some (1 + aux % 8190) else none

/-- ROW_COMPARE (R61, R212): the oldest tally residue against the oldest row of its tag. -/
def rowCompare (i : Nat) (b : Block) : Block :=
  let s := (b.core i).scr
  match s.tlyq with
  | [] => b
  | (t, y, _) :: rest =>
    match s.rowq.findIdx? (fun r => decide (r.1 = t)) with
    | none => b
    | some k =>
      let xv := (s.rowq.getD k (0, 0)).2
      let b := modScr i (fun s => { s with tlyq := rest, rowq := s.rowq.eraseIdx k }) b
      match b.tile i t with
      | none => b
      | some x =>
        if x.closed then b
        else if x.special ∨ x.misuse then putTile i t { x with compared := x.compared + 1 } b
        else
          let clean (d : Nat) (x : Tile) : Tile := if d = 0 then x else { x with resBad := true }
          let plain := (xv + M13 - y) % M13
          match b.planting i x with
          | none => putTile i t (clean plain { x with compared := x.compared + 1 }) b
          | some delta =>
            let b := bumpCtr i 0x000A 1 (modScr i (fun s => { s with burst := s.burst - 1 }) b)
            let dd := (xv + delta + M13 - y) % M13
            if dd = 0 then
              putTile i t { x with compared := x.compared + 1, planted := some delta, missed := true } (tileEvent i x evLoadedDieMissed b)
            else
              putTile i t (clean ((dd + M13 - delta) % M13) { x with compared := x.compared + 1, planted := some delta, caught := true }) (bumpCtr i 0x000B 1 b)
def execRowCompare (core : CoreIdx) (s : State) : Host.Outcome State Fault Refusal := act (rowCompare core.toNat) s

/-! ### Outputs and canaries (R57, R170, R172, R182) -/

/-- The tag slot that an output beat belongs to: the earlier tile while its outputs still come. (DESIGN CHOICE, log 52.) -/
def Block.outSlot (b : Block) (i t : Nat) : Nat := match b.tile i (t + 4) with | some x => if x.outEnd ∨ x.closed then t else t + 4 | none => t

/-- OUTPUT_BEAT (R57, R182, R200). FORMAT_MISUSE of the output side is reported once per tile, whatever the input side has reported. (DESIGN CHOICE, log 127.) -/
def outputBeat (i : Nat) (o : OutBeat) (b : Block) : Block :=
  if ¬ (b.core i).tapsRead then b
  else
    let t := b.outSlot i o.tag.toNat
    match b.tile i t with
    | none => b
    | some x =>
      if x.outEnd ∨ x.closed then b
      else
        let f := x.oFmt.getD o.fmt.toNat
        let ty := b.outTypeOf i x f
        let w := outWidth ty
        let b := if ¬ outputType ty ∧ ¬ x.saidOut then tileEvent i x evFormatMisuse b else b
        let row := x.outRow ++ (List.range (256 / w)).map (fun j => fld o.data.toNat (w * j) w)
        let els := row.take x.n
        let mags := if outputType ty then els.map (outMag ty) else []
        let x := { x with
          oFmt := some f
          saidOut := x.saidOut || !outputType ty
          outRow := if o.rowLast then [] else row
          outEnd := o.tileLast }
        let x := if o.rowLast then { x with
            outRows := x.outRows ++ [packCodes w els]
            mag := mags.foldl (fun m y => match y.1 with | none => m | some l => some (max (m.getD 0) (magBucket l))) x.mag
            outSpecial := x.outSpecial || mags.any (·.2) } else x
        putTile i t x b
def execOutputBeat (core : CoreIdx) (o : OutBeat) (s : State) : Host.Outcome State Fault Refusal := act (outputBeat core.toNat o) s

/-- SATURATION_PULSE (R182): every open tile of the core takes the sat bit. -/
def saturationPulse (i : Nat) (b : Block) : Block :=
  if ¬ (b.core i).tapsRead then b
  else bumpCtr i 0x0010 1 (modScr i (fun s => { s with tiles := tmap (fun _ (x : Tile) => { x with sat := true }) s.tiles }) b)
def execSaturationPulse (core : CoreIdx) (s : State) : Host.Outcome State Fault Refusal := act (saturationPulse core.toNat) s

/-- Core cycles of a core's region between two counts. -/
def Block.coreCycles (b : Block) (i t0 : Nat) : Nat := ticksCyc (b.rcfg (regionOf i)) (b.now - t0)

/-- FLUSH_STICKY (R172): while it is 1, the open tiles carry the flush mark. -/
def flushSticky (i : Nat) (level : Bool) (b : Block) : Block :=
  let s := (b.core i).scr
  if ¬ (b.core i).lbOn then b
  else
    let b := if s.sticky ∧ ¬ level then bumpCtr i 0x0011 (b.coreCycles i s.stickyAt) b else b
    modScr i (fun s => { s with
      sticky := level
      stickyAt := if level ∧ ¬ s.sticky then b.now else s.stickyAt
      tiles := if level then tmap (fun _ (x : Tile) => { x with flush := true }) s.tiles else s.tiles }) b
def execFlushSticky (core : CoreIdx) (level : Bool) (s : State) : Host.Outcome State Fault Refusal := act (flushSticky core.toNat level) s

/-! ### Verdicts (R64, R172, R176, R200, R201, R217, R218) -/

/-- The result digest of a tile (R200). -/
def tileDigest (x : Tile) : BitVec 32 :=
  let rows := max x.outRows.length x.tallies.length
  crc32c (le 4 x.tid.toNat ++ (List.range rows).flatMap (fun m =>
    x.outRows.getD m [] ++ (match x.tallies[m]? with | some r => le 2 r | none => [0xFF, 0xFF])))

/-- A residue failure that R172 turns into UNCHECKABLE. -/
def Block.flushExcused (b : Block) (i : Nat) (x : Tile) : Bool :=
  x.flush && (!fFlushIn (b.descOf i x x.wFmt) || (match x.aFmt with | some a => !fFlushIn (b.descOf i x a) | none => false))

/-- The verdict of a tile by the first row of R176 that applies. (DESIGN CHOICE, log 54.) -/
def Block.verdictOf (b : Block) (i : Nat) (x : Tile) : Verdict :=
  let res := x.resBad && !b.classB i x
  if res ∧ ¬ b.flushExcused i x then .mismatchResidue
  else if x.stampBad then .mismatchStamp
  else if x.port ∨ x.special ∨ x.misuse ∨ x.missed ∨ res then .uncheckable
  else .clean

/-- Codes of R217 and R201. -/
def verdictCode : Verdict → Nat
  | .clean => 0 | .mismatchResidue => 1 | .mismatchStamp => 2 | .mismatchDuplicate => 3 | .uncheckable => 4 | .late => 5
def checkCode : Check → Nat
  | .p => 0 | .f => 1 | .t => 2 | .n => 3

/-- The check code of R201. -/
def checkOf (v : Verdict) (classB : Bool) : Check :=
  match v with
  | .mismatchResidue => .f
  | .mismatchStamp => .t
  | .clean => if classB then .n else .p
  | _ => .n

/-- The plausibility byte (R182). -/
def plausOf (x : Tile) : Nat :=
  packF [(0, x.mag.getD 0), (4, b01 x.outSpecial), (5, b01 x.sat), (6, b01 x.scaleRange), (7, b01 x.flush)]

/-- The tile verdict message (R218). (DESIGN CHOICE, log 62.) -/
def verdictFlit (x : Tile) (v : Verdict) (classB : Bool) : Flit :=
  BitVec.ofNat 128 (packF [(0, x.tid.toNat), (32, (tileDigest x).toNat), (64, verdictCode v), (67, checkCode (checkOf v classB)), (69, x.kind),
    (72, if x.kind = 0 then 0 else x.slot), (80, plausOf x), (88, b01 x.planted.isSome), (89, b01 x.caught), (96, x.step.toNat % 65536)])

/-- A tile's verdict may leave: closed, or all three ends seen and no comparison of it waiting (R64). -/
def Block.tileReady (b : Block) (i k : Nat) (x : Tile) : Bool :=
  x.closed || (x.actEnd && x.tlyEnd && x.outEnd && !((b.core i).scr.tlyq.any (fun r => decide (r.1 = k))))

/-- The known-answer test takes digest and residue check of its tile (R267). A special value of the tile's own skips the
residue check; any other cause of UNCHECKABLE fails it. -/
def katTile (i : Nat) (x : Tile) (b : Block) : Block :=
  let classB := b.classB i x
  let fails := !classB && (x.resBad || x.port || x.misuse || x.missed)
  b.modCore i (fun c => { c with ctl := { c.ctl with test := c.ctl.test.map (fun u => { u with digest := tileDigest x, resFail := fails }) } })

/-- TILE_VERDICT (R218): the tile of a tag whose ends are all seen. (DESIGN CHOICE, log 52.) -/
def tileVerdict (i t : Nat) (b : Block) : Block :=
  let pick : Option (Nat × Tile) := ([t + 4, t].filterMap (fun k => (b.tile i k).map (fun x => (k, x)))).find? (fun p => b.tileReady i p.1 p.2)
  match pick with
  | none => b
  | some (k, x) =>
    if ¬ (b.core i).lbOn then b
    else
      let close (b : Block) : Block := modScr i (fun s => { s with
        tiles := tdel s.tiles k
        rowq := s.rowq.filter (fun r => r.1 ≠ k)
        tlyq := s.tlyq.filter (fun r => r.1 ≠ k) }) b
      if x.test then close (katTile i x b)
      else
        let v := b.verdictOf i x
        let cb := b.classB i x
        let b := if v = .mismatchResidue ∧ x.stampBad then lbEvent i evStampAlso [] b else b
        let b := if x.resBad ∧ ¬ cb ∧ b.flushExcused i x then lbEvent i evFlushUndeclared [] b else b
        let f := verdictFlit x v cb
        let b := if x.kind = 0 then
            (bumpCtr i 0x0002 1 (bumpCtr i (match v with | .clean => 0x0003 | .mismatchResidue => 0x0004 | .mismatchStamp => 0x0005 | _ => 0x0006) 1
              (modScr i (fun s => { s with ownTiles := s.ownTiles + 1 }) b)))
          else if x.kind = 1 then bumpCtr i 0x0007 1 b else if x.kind = 2 then bumpCtr i 0x0008 1 b else b
        let note : TileNote := ⟨i, x.tid.toNat, x.kind, fElem (b.descOf i x x.wFmt), decide (v = .mismatchResidue) && x.stampBad,
          decide (v = .uncheckable) && x.saidSpecial⟩
        let b := if b.ho.job.launched then b.modOffice (regionOf i) (fun o => { o with st := { o.st with notes := o.st.notes ++ [note] } }) else b
        unicast (unitCore i) (unitOffice (regionOf i)) 0x01 [f] (close b)
def execTileVerdict (core : CoreIdx) (tag : BitVec 2) (s : State) : Host.Outcome State Fault Refusal := act (tileVerdict core.toNat tag.toNat) s

/-- The core summary flit (R219). -/
def coreSummaryFlit (step own status : Nat) : Flit := BitVec.ofNat 128 (packF [(0, step), (32, own), (56, status)])

/-- CORE_SUMMARY (R219): after the final milestone and the last own tile's verdict, once per step slot. -/
def coreSummary (i : Nat) (b : Block) : Block :=
  let c := b.core i
  if ¬ c.lbOn ∨ c.ctl.test.isSome ∨ c.scr.summarySent ∨ ¬ c.time.finalSeen ∨ ¬ b.ho.job.inSlot ∨ (b.roleOf i).isNone then b
  else
    unicast (unitCore i) (unitOffice (regionOf i)) 0x01 [coreSummaryFlit b.ho.job.step c.scr.ownTiles c.time.status]
      (modScr i (fun s => { s with summarySent := true }) b)
def execCoreSummary (core : CoreIdx) (s : State) : Host.Outcome State Fault Refusal := act (coreSummary core.toNat) s

end Sys2Proof.Machine
end

