-- ==== Sys2Proof/Machine/CoreCtl.lean ====
section
/-! DEFINITION. Controls of one core position: power-on reset, alignment, clock changes, milestones, waiting-on
descriptors, shadow descriptors, fence and release, tests and captures (02_core_tap_port, 04_postmark R146 to R159,
08_in_field_test, 11_startup R346 to R350). -/

namespace Sys2Proof.Machine

open Sys2Proof

def modTime (i : Nat) (f : CoreTime → CoreTime) (b : Block) : Block := b.modCore i (fun c => { c with time := f c.time })
def modCtl (i : Nat) (f : CoreCtl → CoreCtl) (b : Block) : Block := b.modCore i (fun c => { c with ctl := f c.ctl })
def modPins (i : Nat) (f : CorePins → CorePins) (b : Block) : Block := b.modCore i (fun c => { c with pins := f c.pins })

/-! ### Test results (R265 to R271) -/

/-- Codes of R269. -/
def resCode : TestResult → Nat
  | .pass => 0 | .fail => 1 | .timeout => 2 | .katCheck => 3 | .windowLost => 4 | .aborted => 5

/-- The result record of R269, as a number of 256 bits. -/
def testRec (i mode unit res trig sig exp pm : Nat) : Nat :=
  packF [(0, i), (20, mode), (24, unit), (40, res), (44, trig), (48, sig), (80, exp), (128, pm)]

/-- A member serves, or is to serve once it has reloaded. -/
def Office.up (o : Office) : Bool := o.powered && !o.dead && o.server.passed && !o.server.failed

/-- The Office of a region serves (R27, R28, R252). -/
def Block.officeOn (b : Block) (r : Nat) : Bool := (b.office r).up && !(b.office r).reload

/-- The Office sends a result, which the Head Office places on ring 57 (R269). An Office that does not serve, or that the
core's router no longer joins to its Letterbox (R22), has none to send. (DESIGN CHOICE, log 51.) -/
def reportTest (i mode unit res trig sig exp : Nat) (b : Block) : Block :=
  if ¬ b.officeOn (regionOf i) ∨ ¬ b.attached i then b
  else postEvent evTestResult (unitOffice (regionOf i)) (le 32 (testRec i mode unit res trig sig exp b.now)) b

def Block.kat (b : Block) (k : Nat) : KatEntry := match b.cfg with | none => {} | some g => g.kats.getD k {}

/-- Declared signature of a unit (R249, R250). -/
def Block.declSig (b : Block) (mode unit : Nat) : Nat :=
  match b.cfg with
  | none => 0
  | some g => match mode with
    | 0 => g.fullSig.toNat
    | 1 => (g.slices.getD unit (0, 0)).2.toNat
    | 2 => (g.bankSigs.getD unit 0).toNat
    | _ => (b.kat unit).expSig.toNat

/-- Declared length of a unit in core cycles: the budget driven in modes 1 to 3 (R75). -/
def Block.declLen (b : Block) (mode unit : Nat) : Nat :=
  match b.cfg with
  | none => 0
  | some g => match mode with
    | 0 => g.fullLen
    | 1 => (g.slices.getD unit (0, 0)).1
    | 2 => g.bankLen
    | _ => (b.kat unit).katLen

/-- The number a record or ct_tst_slice gives a unit: slice, bank or kat_id (R250, R269). -/
def Block.unitNo (b : Block) (mode unit : Nat) : Nat := if mode = 3 then (b.kat unit).katId else unit

/-- Judge a unit (R267). -/
def Block.judge (b : Block) (u : TestRun) (pass : Bool) (sig : Nat) : TestResult :=
  if ¬ pass ∨ sig ≠ b.declSig u.mode u.unit then .fail
  else if u.mode = 3 ∧ u.digest ≠ (b.kat u.unit).expDigest then .fail
  else if u.mode = 3 ∧ u.resFail then .katCheck
  else .pass

/-- The Office orders a checker burst; one that runs takes it in (R214). -/
def orderBurst (i : Nat) (b : Block) : Block :=
  if ¬ b.attached i ∨ (b.office (regionOf i)).bursts.any (fun x => decide (x.core = i)) then b
  else modScr i (fun s => { s with burst := 16 }) (b.modOffice (regionOf i) (fun o => { o with bursts := o.bursts ++ [⟨i, 0⟩] }))

/-- Apply a power-up or reset test result to pips and state (R232, R258, R340). -/
def applyTested (i : Nat) (failed : Bool) (b : Block) : Block :=
  if failed then failTest i b
  else if (b.hist i).unscreened ∧ ¬ (b.core i).ctl.failed ∧ ¬ (b.core i).time.failed ∧ ¬ (b.office (regionOf i)).dead then
    bmChanged (b.modHist i (fun h => { h with unscreened := false, eligibleSince := b.now }))
  else b

/-- A core has finished its power-up or reset test; the Office holds the result until its Ledger slice is there (R340). -/
def coreTested (i : Nat) (failed : Bool) (b : Block) : Block :=
  let r := regionOf i
  if (b.office r).ledgerIn then applyTested i failed b
  else b.modOffice r (fun o => { o with heldRes := o.heldRes ++ [(i, failed)] })

/-- Units of a trigger still queued or running on a core. -/
def Block.unitsLeft (b : Block) (i : Nat) (t : Trigger) : Bool :=
  let o := b.office (regionOf i)
  o.testq.any (fun u => decide (u.core = i) && decide (u.trigger = t)) ||
    (match (b.core i).ctl.test with | some u => decide (u.trigger = t) | none => false)

def dropUnits (i : Nat) (t : Trigger) (b : Block) : Block :=
  b.modOffice (regionOf i) (fun o => { o with testq := o.testq.filter (fun u => !(decide (u.core = i) && decide (u.trigger = t))) })

/-- A unit of CORE_RESTORE has ended: the second pass returns the core as SUSPECT with 128 pips, a failure retires it
(R232, R264). -/
def restoreUnit (i : Nat) (failed : Bool) (rc : Nat) (b : Block) : Block :=
  let b := modOutst 0x403 (fun a => a ++ [rc]) b
  let res (b : Block) : List Byte := le 32 (lnat (b.outAcc 0x403) 1) ++ le 32 (lnat (b.outAcc 0x403) 2)
  if failed then
    let h := b.hist i
    let b := dropUnits i .restore (bmChanged (b.setHist i { chargedTo 255 b.now h with
      fences := h.fences + 1
      st := if 2 ≤ h.fences + 1 then .retired else .fenced }))
    finishOp 0x403 0x0602 0 (res b) b
  else if b.unitsLeft i .restore then b
  else
    let b := queueSuspicion i (bmChanged (b.modHist i (fun h => { h with st := .suspect, pips := 128, eligibleSince := b.now })))
    finishOp 0x403 0 0 (res b) b

/-- The units of a TEST_SWEEP on one core: slices, banks, KAT entries as its unit mask names them (R271, R414). -/
def Block.sweepUnits (b : Block) (i mask : Nat) : List TestUnit :=
  match b.cfg with
  | none => []
  | some c =>
    (if bit mask 0 then (List.range c.slices.length).map (fun k => b.unit i 1 k .sweep) else []) ++
    (if bit mask 1 then (List.range c.bankSigs.length).map (fun k => b.unit i 2 k .sweep) else []) ++
    (if bit mask 2 then (List.range c.kats.length).map (fun k => b.unit i 3 k .sweep) else [])

/-- The unit mask of the sweep in progress. -/
def Block.sweepMask (b : Block) : Nat := ((b.ho.mail.outst.find? (fun o => o.opcode = 0x402)).map (fun o => rd o.params 16 1)).getD 0

/-- The region's sweep takes its next core, one at a time, passing over cores that have left the tested states (R271). (DESIGN CHOICE, log 84.) -/
def sweepNextCore (r : Nat) : List Nat → Block → Block
  | [], b => b.modOffice r (fun o => { o with sweepq := [] })
  | i :: l, b =>
    if tested (b.coreState i) ∧ ¬ (b.sweepUnits i b.sweepMask).isEmpty then
      forEach (b.sweepUnits i b.sweepMask) (queueUnit r) (b.modOffice r (fun o => { o with sweepq := l }))
    else sweepNextCore r l b

/-- No unit of a sweep is left: the letter ends (R271, R414). -/
def sweepCheck (b : Block) : Block :=
  let busy (o : Office) : Bool := !o.sweepq.isEmpty || o.testq.any (fun u => decide (u.trigger = .sweep)) || (match o.running with | some u => decide (u.trigger = .sweep) | none => false)
  if b.outOp 0x402 ∧ ¬ b.units.offices.any (fun p => busy p.2) then
    let a := b.outAcc 0x402
    finishOp 0x402 0 0 (le 4 (lnat a 0) ++ le 4 (lnat a 1) ++ le 4 (lnat a 2)) b
  else b

/-- A unit of a sweep has ended on a core (R271). -/
def sweepUnit (i : Nat) (failed : Bool) (b : Block) : Block :=
  let b := if failed then dropUnits i .sweep b else b
  let last := !b.unitsLeft i .sweep
  let b := if last then sweepNextCore (regionOf i) (b.office (regionOf i)).sweepq b else b
  sweepCheck (modOutst 0x402 (fun a => [lnat a 0 + b01 last, lnat a 1 + b01 failed, lnat a 2]) b)

/-- A LAUNCH ends a sweep: what is in progress completes, the rest is dropped and counted (R271, R414). -/
def endSweep (b : Block) : Block :=
  if ¬ b.outOp 0x402 then b
  else
    let dropped (o : Office) : Nat := (o.testq.filter (fun u => decide (u.trigger = .sweep))).length +
      o.sweepq.foldl (fun a i => a + (b.sweepUnits i b.sweepMask).length) 0
    let n := b.units.offices.foldl (fun a p => a + dropped p.2) 0
    let b := forEach b.popRegions (fun r b => b.modOffice r (fun o => { o with sweepq := [], testq := o.testq.filter (fun u => u.trigger ≠ .sweep) })) b
    sweepCheck (modOutst 0x402 (fun a => [lnat a 0, lnat a 1, lnat a 2 + n]) b)

/-- A unit of a full rolling test has passed (R232, R265). -/
def rollingUnit (i : Nat) (b : Block) : Block :=
  let r := regionOf i
  let n := tcnt (b.office r).rolling i + 1
  let total := (b.rollUnits i .suspicion).length
  if total ≤ n then
    let b := (b.modOffice r (fun o => { o with rolling := tdel o.rolling i })).modHist i (fun h => { h with rolled := true })
    if b.inJob then b else publishDue (boundaryState i b)
  else b.modOffice r (fun o => { o with rolling := tset o.rolling i n })

/-- A test handshake ends (R76, R77): ct_tst_req falls, the core is re-initialised, and after a failure, or with FENCED
ordered, the core goes on into hold and clock gating. -/
def endHandshake (i : Nat) (hold reinit : Bool) (b : Block) : Block :=
  b.modCore i (fun c => settleTags { c with
    pins := { c.pins with
      tstReq := false
      reinits := c.pins.reinits + b01 reinit
      holdN := if hold then false else c.pins.holdN
      cgN := if hold then false else c.pins.cgN && !c.ctl.stopGated }
    ctl := { c.ctl with test := none, toHold := hold } })

/-- The unit on a core ends with a result (R77, R266 to R271, R275). A unit of the full test engine has its result read
through the network: it is in no record and no Office judges it. (DESIGN CHOICE, log 50 and 132.) -/
def finishTest (i : Nat) (u : TestRun) (res : TestResult) (sig : Nat) (b : Block) : Block :=
  if u.engine then
    endHandshake i ((match res with | .fail => true | .timeout => true | _ => false) || (b.core i).ctl.toHold) (decide (res ≠ .timeout)) b
  else
  let r := regionOf i
  let exp := b.declSig u.mode u.unit
  let no := if u.mode = 0 then 0 else b.unitNo u.mode u.unit
  let rc := testRec i u.mode no (resCode res) (trigCode u.trigger) sig exp b.now
  let b := bumpCtr i 0x0016 1 (reportTest i u.mode no (resCode res) (trigCode u.trigger) sig exp b)
  let queued := (b.office r).running
  let b := b.modOffice r (fun o => { o with running := match o.running with | some x => if x.core = i then none else some x | none => none })
  let bad : Bool := match res with | .fail | .timeout => true | _ => false
  let again : Bool := match res with | .windowLost | .aborted => true | _ => false
  let stage := (b.core i).ctl.puStage
  let b := endHandshake i (bad || (b.core i).ctl.toHold) (decide (res ≠ .timeout)) b
  let b := modCtl i (fun c => { c with puStage := if stage = 0 ∨ again then stage else if bad then 0 else if stage = 1 then 2 else 0 }) b
  let b := match res with | .katCheck => orderBurst i b | _ => b
  if again then
    (match u.trigger, queued with
     | .powerUp, _ => b
     | .reset, _ => b
     | .suspicion, some x => if (tget b.ho.bm.blocked i).isSome then b else queueUnit r x b
     | _, some x => if (tget b.ho.bm.blocked i).isSome then b else queueUnit r { x with due := b.now } b
     | _, none => b)
  else match u.trigger with
    | .powerUp => if bad ∨ (b.core i).ctl.puStage = 0 then coreTested i bad b else b
    | .reset => if bad ∨ (b.core i).ctl.puStage = 0 then coreTested i bad b else b
    | .restore => restoreUnit i bad rc b
    | .sweep => sweepUnit i bad (if bad then failTest i b else b)
    | .suspicion => if bad then failTest i b else rollingUnit i b
    | _ => if bad then failTest i b else b

/-! ### Power-on reset of a core position (R48, R147, R253, R254, R257) -/

/-- CORE_POR_ASSERT (R48): Letterbox and Tally Reducer return to their reset values. -/
def corePorAssert (i : Nat) (b : Block) : Block :=
  if (b.core i).porN then b.setCore i {} else b
def execCorePorAssert (core : CoreIdx) (s : State) : Host.Outcome State Fault Refusal := act (corePorAssert core.toNat) s

/-- The core's power-up or reset test is due (R253, R257). -/
def Block.testDue (b : Block) (i : Nat) : Option Trigger :=
  if (tget b.ho.bm.blocked i).isSome then none
  else match b.svc.state, b.svc.reset with
  | .bringup, 0 => some .powerUp
  | .bringup, _ => if (b.hist i).unscreened ∨ inService (b.hist i).st then some .reset else none
  | .warmReset, _ => if (b.hist i).unscreened ∨ inService (b.hist i).st then some .reset else none
  | _, _ => none

/-- The first alignment epoch after a count (R146, R147). (DESIGN CHOICE, log 46.) -/
def nextEpochAfter (n : Nat) : Nat := (n / 1000 + 1) * 1000

/-- CORE_POR_RELEASE (R147, R254, R258): the Letterbox runs its self-test and starts the alignment handshake. A core is
powered with its wave; with its Office domain off it is UNSCREENED (R44). (DEDUCED, log 35; DESIGN CHOICE, log 51.) -/
def corePorRelease (i : Nat) (ctrlPass checkPass : Bool) (b : Block) : Block :=
  if ¬ b.present i ∨ (b.core i).porN then b
  else
    let r := regionOf i
    let due := b.testDue i
    let c : Core := {
      porN := true
      time := { epoch := nextEpochAfter b.now }
      scr := { fmt := if b.svc.reset = 1 then b.ho.policy.fmt else List.replicate 16 0xF }
      ctl := { ctrlFail := !ctrlPass, failed := !checkPass, early := !(b.office r).powered, puStage := if ctrlPass ∧ due.isSome ∧ b.officeOn r then 1 else 0 } }
    let b := b.setCore i c
    let trig := b01 (!(decide (b.svc.state = .bringup) && decide (b.svc.reset = 0)))
    let b := reportTest i 7 0 (b01 (!(ctrlPass && checkPass))) trig 0 0 b
    let b := if ctrlPass then b else blockCore i 3 b
    let b := if ¬ checkPass ∧ (b.office r).ledgerIn then unscreen i b else b
    if ¬ (b.office r).powered then unscreen i b else b
def execCorePorRelease (core : CoreIdx) (ctrlPass checkPass : Bool) (s : State) : Host.Outcome State Fault Refusal :=
  act (corePorRelease core.toNat ctrlPass checkPass) s

/-! ### Alignment and clock changes (R146 to R148, R158, R159) -/

/-- Core cycles in 1 us at a ratio (R147). (DESIGN CHOICE, log 46.) -/
def epochCycles (p q : Nat) : Nat := 100 * p / q

/-- Worst Timetable status of a slot, in the order STALL, CLOCK_UNDECLARED, TIMETABLE_SLIP, on time (R350). -/
def worseStatus (a c : Nat) : Nat :=
  let rank (x : Nat) : Nat := match x with | 2 => 3 | 3 => 2 | 1 => 1 | _ => 0
  if rank a < rank c then c else a

/-- A check of an unfinished handshake: completed, repeated, or failed the eighth time (R147). (DESIGN CHOICE, log 46.) -/
def alignAttempt (i : Nat) (cycles : Nat) (b : Block) : Block :=
  let g := b.rcfg (regionOf i)
  let c := b.core i
  let b := advTo (c.time.epoch + 1000) b
  if (c.ctl.puStage ≠ 0 ∨ b.unitsLeft i .restore) ∧ cycles = epochCycles g.pt g.qt then
    modTime i (fun t => { t with aligned := true, testRatio := true, cmode := false, tries := 0 }) b
  else if cycles = epochCycles g.p g.q then
    modTime i (fun t => { t with aligned := true, testRatio := false, cmode := false, tries := 0 }) b
  else if 7 ≤ c.time.tries then
    unscreen i (lbEvent i evAlignFail [] (modTime i (fun t => { t with tries := 8, failed := true }) b))
  else modTime i (fun t => { t with tries := t.tries + 1, epoch := t.epoch + 2000 }) b

/-- The check of R148 at an alignment epoch: a disagreement without a declared change is CLOCK_UNDECLARED (R159). (DESIGN CHOICE, log 46.) -/
def alignCheck (i : Nat) (cycles : Nat) (b : Block) : Block :=
  let g := b.rcfg (regionOf i)
  let c := b.core i
  let b := advTo (roundUp b.now 1000) b
  let want := if c.time.testRatio then epochCycles g.pt g.qt else epochCycles g.p g.q
  if c.time.clkChg ∨ c.time.undeclared ∨ cycles = want then b
  else
    let b := lbEvent i evClockUndeclared [] (modTime i (fun t => { t with
      cmode := true
      undeclared := true
      slipNext := true
      status := worseStatus t.status 3 }) b)
    if b.ho.job.launched ∧ (b.roleOf i).isSome then addReason (regionOf i) 4 b else b

/-- ALIGNMENT_EPOCH_CHECK (R147, R148). (DESIGN CHOICE, log 46.) -/
def alignmentEpochCheck (i cycles : Nat) (b : Block) : Block :=
  let c := b.core i
  if ¬ c.lbOn ∨ c.time.failed then b
  else if c.time.aligned then alignCheck i cycles b
  else if c.time.clkChg then b
  else alignAttempt i cycles b
def execAlignmentEpochCheck (core : CoreIdx) (cycles : BitVec 16) (s : State) : Host.Outcome State Fault Refusal :=
  act (alignmentEpochCheck core.toNat cycles.toNat) s

/-- CLOCK_CHANGE_DECLARED (R158): milestones are judged in core cycles. -/
def clockDeclared (i : Nat) (b : Block) : Block :=
  if (b.core i).lbOn then modTime i (fun t => { t with clkChg := true, cmode := true }) b else b
def execClockChangeDeclared (core : CoreIdx) (s : State) : Host.Outcome State Fault Refusal := act (clockDeclared core.toNat) s

/-- CLOCK_CHANGE_ENDED (R158): the handshake runs again; core-cycle mode stays until it succeeds. -/
def clockEnded (i : Nat) (b : Block) : Block :=
  if (b.core i).lbOn ∧ (b.core i).time.clkChg then
    modTime i (fun t => { t with clkChg := false, aligned := false, tries := 0, failed := false, epoch := nextEpochAfter b.now }) b
  else b
def execClockChangeEnded (core : CoreIdx) (s : State) : Host.Outcome State Fault Refusal := act (clockEnded core.toNat) s

/-! ### Milestones, stalls and waits (R65, R66, R346 to R350, R461) -/

/-- The body of a TIMETABLE_SLIP or STALL event (R349): entry, expected and actual cycles, count, descriptor. (DESIGN CHOICE, log 106.) -/
def slipBody (entry exp cyc pm : Nat) (w : Option (Nat × Nat)) : List Byte :=
  [BitVec.ofNat 8 entry, BitVec.ofNat 8 (b01 w.isSome)] ++ le 6 exp ++ le 6 cyc ++ le 8 pm ++
    (match w with | some (ch, peer) => le 1 ch ++ le 3 peer | none => le 4 0)

/-- Launch count of the slot with the shifts of its stops (R348, R459). -/
def Block.slotStart (b : Block) : Nat := b.ho.job.slotAt + b.ho.job.shift

/-- A TIMETABLE_SLIP of a core: event, reason, the role named, and +16 once per slot (R229, R235, R349, R350). (DESIGN CHOICE, log 47.) -/
def slip (i entry exp cyc pm : Nat) (b : Block) : Block :=
  let c := b.core i
  let b := lbEvent i evTimetableSlip (slipBody entry exp cyc pm c.time.wait)
    (modTime i (fun t => { t with status := worseStatus t.status 1, slipped := true, slipNext := false }) b)
  match b.roleOf i with
  | none => b
  | some role =>
    let b := nameRole (regionOf i) role 4 (addReason (regionOf i) 4 b)
    if c.time.slipped then b else charge i 16 b

/-- The payload flit of a STALL or WAIT_UPDATE (R461). (DESIGN CHOICE, log 106.) -/
def stallFlit (role entry : Nat) (update : Bool) (w : Option (Nat × Nat)) (pm : Nat) : Flit :=
  BitVec.ofNat 128 (packF [(0, role), (20, entry), (26, b01 update), (27, b01 w.isSome), (28, (w.map (·.1)).getD 0),
    (36, (w.map (·.2)).getD 0), (56, pm)])

/-- Send a STALL or WAIT_UPDATE to the Office (R349, R461). (DESIGN CHOICE, log 55.) -/
def sendStall (i : Nat) (update : Bool) (b : Block) : Block :=
  match b.roleOf i with
  | none => b
  | some role =>
    let t := (b.core i).time
    unicast (unitCore i) (unitOffice (regionOf i)) 0x08 [stallFlit role (if update then t.expect else t.stallEntry.getD t.expect) update t.wait b.now] b

/-- STALL of the expected entry: once per slot (R348 to R350). -/
def doStall (i entry exp cyc : Nat) (b : Block) : Block :=
  let b := modTime i (fun t => { t with
    stalled := true
    stallEntry := some entry
    stallPm := b.now
    status := worseStatus t.status 2 }) b
  let b := sendStall i false (lbEvent i evStall (slipBody entry exp cyc b.now (b.core i).time.wait) b)
  if (b.roleOf i).isSome then addReason (regionOf i) 4 b else b

/-- A milestone against the expected entry e, at a core cycle and stamp (R348). (DESIGN CHOICE, log 47.) -/
def judgeMilestone (i : Nat) (e : TtEntry) (cyc stamp : Nat) (b : Block) : Block :=
  let t := (b.core i).time
  let expPm := b.slotStart + e.expPm
  let b := if e.expCyc + 1024 ≤ cyc ∧ ¬ t.stalled then doStall i t.expect e.expCyc cyc b else b
  let late := decide ((b.core i).time.stallEntry = some t.expect)
  let good := if e.exact then decide (cyc = e.expCyc) && (t.cmode || decide (stamp = expPm)) else decide (cyc ≤ e.expCyc)
  let b := if (late ∨ good) ∧ ¬ t.slipNext then b else slip i t.expect e.expCyc cyc stamp b
  modTime i (fun t => { t with expect := t.expect + 1, finalSeen := t.finalSeen || e.isFinal }) b

/-- MILESTONE (R65, R348). (DEDUCED, log 19; DESIGN CHOICE, log 48.) -/
def milestone (i id cyc : Nat) (b : Block) : Block :=
  let c := b.core i
  if ¬ c.lbOn ∨ ¬ b.ho.job.inSlot ∨ c.ctl.stopGated ∨ c.underTest then b
  else
    let g := b.rcfg (regionOf i)
    let stamp := if c.time.cmode then b.now else b.slotStart + cycTicks g cyc
    let b := advTo stamp b
    let b := bumpCtr i 0x000C 1 (modTime i (fun t => { t with
      cyc := BitVec.ofNat 48 cyc
      lastMs := some id
      lastStamp := stamp
      cleared := false }) b)
    let t := (b.core i).time
    match t.timetable[t.expect]? with
    | some e => if id = t.expect then judgeMilestone i e cyc stamp b else slip i t.expect e.expCyc cyc stamp b
    | none => if t.timetable.isEmpty then b else slip i t.expect 0 cyc stamp b
def execMilestone (core : CoreIdx) (id : BitVec 6) (cyc : BitVec 48) (s : State) : Host.Outcome State Fault Refusal :=
  act (milestone core.toNat id.toNat cyc.toNat) s

/-- STALL (R348): the core-cycle count reaches exp_cyc + 1,024. (DESIGN CHOICE, log 47.) -/
def stall (i : Nat) (b : Block) : Block :=
  let c := b.core i
  match c.time.timetable[c.time.expect]? with
  | none => b
  | some e =>
    if ¬ c.lbOn ∨ ¬ b.ho.job.inSlot ∨ c.ctl.stopGated ∨ c.time.stalled then b
    else
      let cyc := e.expCyc + 1024
      let b := if c.time.cmode then b else advTo (b.slotStart + cycTicksUp (b.rcfg (regionOf i)) cyc) b
      doStall i c.time.expect e.expCyc cyc (modTime i (fun t => { t with cyc := BitVec.ofNat 48 cyc }) b)
def execStall (core : CoreIdx) (s : State) : Host.Outcome State Fault Refusal := act (stall core.toNat) s

/-- After a STALL, a change of the descriptor is sent until T_end + 500 (R349). (DESIGN CHOICE, log 55.) -/
def waitUpdate (i : Nat) (b : Block) : Block :=
  if (b.core i).time.stalled ∧ b.ho.job.inSlot ∧ b.now ≤ b.tEnd + 500 then sendStall i true b else b

/-- WAIT_BEGIN (R66): the new descriptor is held. -/
def waitBegin (i chan peer : Nat) (b : Block) : Block :=
  if ¬ (b.core i).lbOn then b
  else waitUpdate i (modTime i (fun t => { t with wait := some (chan, peer), cleared := false }) b)
def execWaitBegin (core : CoreIdx) (chan : BitVec 8) (peer : BitVec 20) (s : State) : Host.Outcome State Fault Refusal :=
  act (waitBegin core.toNat chan.toNat peer.toNat) s

/-- WAIT_CLEAR (R66): the held descriptor is cleared. -/
def waitClear (i : Nat) (b : Block) : Block :=
  if ¬ (b.core i).lbOn then b
  else waitUpdate i (modTime i (fun t => { t with wait := none, cleared := t.wait.isSome || t.cleared }) b)
def execWaitClear (core : CoreIdx) (s : State) : Host.Outcome State Fault Refusal := act (waitClear core.toNat) s

/-! ### Fence and release (R70 to R74) -/

/-- FENCE_ORDER (R71): for FENCED into hold and gating, otherwise up to isolation. A capture completes first ("When
controls meet"). -/
def fenceOrder (i : Nat) (toHold : Bool) (b : Block) : Block :=
  let c := b.core i
  if ¬ c.lbOn then b
  else if toHold then fenceHold i b
  else if c.ctl.test.isSome ∨ ¬ c.pins.fenceN then b
  else if c.ctl.cap.isSome then modCtl i (fun x => { x with fenceWait := true }) b
  else b.modCore i (beginFence false)
def execFenceOrder (core : CoreIdx) (toHold : Bool) (s : State) : Host.Outcome State Fault Refusal := act (fenceOrder core.toNat toHold) s

/-- FENCE_ACK (R71): the core is quiescent; isolation follows, and hold and gating for FENCED. -/
def fenceAck (i : Nat) (b : Block) : Block :=
  if ¬ (b.core i).lbOn then b
  else b.modCore i (fun c =>
    let c := { c with ctl := { c.ctl with fenceAck := true } }
    if c.ctl.fencing then isolate c else c)
def execFenceAck (core : CoreIdx) (s : State) : Host.Outcome State Fault Refusal := act (fenceAck core.toNat) s

/-- FENCE_TIMEOUT (R70): 256 cycles without ct_fence_ack. Under a stop the count starts at its release, or at once where
ct_cg_n is raised for the fence of a unit placed in a checkpoint stop. -/
def fenceTimeout (i : Nat) (b : Block) : Block :=
  let c := b.core i
  if ¬ c.lbOn ∨ ¬ c.ctl.fencing ∨ c.ctl.fenceAck ∨ (c.ctl.stopGated ∧ ¬ c.pins.cgN) then b
  else lbEvent i evFenceTimeout [] (b.modCore i (fun c => isolate { c with ctl := { c.ctl with fenceTo := true } }))
def execFenceTimeout (core : CoreIdx) (s : State) : Host.Outcome State Fault Refusal := act (fenceTimeout core.toNat) s

/-- The instants at which a fenced core may be released: outside a running job, or in the drain gap that ends at the
step boundary (R72, R155, R259). (DESIGN CHOICE, log 45.) -/
def Block.mayRelease (b : Block) : Bool := !b.ho.job.launched || !b.ho.job.inSlot || decide (b.tEnd ≤ b.now)

/-- The core may be released: a job gives it a role (R253), it is in service or UNSCREENED, aligned, tested, with nothing
in progress (R72, R115, R147, R256, R258). -/
def Block.releasableCore (b : Block) (i : Nat) : Bool :=
  let c := b.core i
  let st := b.coreState i
  let svcOk := match b.svc.state with | .ready => true | .job => true | _ => false
  svcOk && (b.roleOf i).isSome && c.lbOn && !c.pins.fenceN && !c.ctl.fencing && c.ctl.test.isNone && c.ctl.cap.isNone && c.ctl.puStage = 0 &&
    !c.time.failed && (c.time.aligned || c.time.cmode) && (match st with | .fenced => false | .retired => false | .absent => false | _ => true)

/-- The release sequence; a stop or the pre-launch hold leaves ct_cg_n low (R72, R73, R151). (DESIGN CHOICE, log 44.) -/
def releaseCore (i : Nat) (b : Block) : Block :=
  b.modCore i (fun c => { c with
    pins := { c.pins with fenceN := true, isoN := true, holdN := true, cgN := !c.ctl.stopGated && !c.ctl.launchGated }
    ctl := { c.ctl with toHold := false, fenceAck := false, fenceTo := false } })

/-- CORE_RELEASE (R72). (DESIGN CHOICE, log 45.) -/
def coreRelease (i : Nat) (b : Block) : Block := if b.mayRelease ∧ b.releasableCore i then releaseCore i b else b
def execCoreRelease (core : CoreIdx) (s : State) : Host.Outcome State Fault Refusal := act (coreRelease core.toNat) s

/-! ### The test handshake (R75 to R77, R253, R255) -/

/-- The structural-test window of a core (R255). A region whose run ratio equals its test ratio needs no change of clock. -/
def Block.windowOk (b : Block) (i : Nat) : Bool :=
  let c := b.core i
  let g := b.rcfg (regionOf i)
  maskBit b.env.rgnVok (regionOf i) && !c.time.clkChg && c.time.aligned && (c.time.testRatio || decide (g.pt * g.q = g.p * g.qt))

/-- The unit that a power-up or reset test is due to run next (R253). -/
def Block.puUnit (b : Block) (i : Nat) : Option TestRun :=
  let trig : Trigger := if b.svc.reset = 0 then .powerUp else .reset
  match (b.core i).ctl.puStage with
  | 1 => some { mode := 0, unit := 0, trigger := trig }
  | 2 => some { mode := 3, unit := b.lowKat, trigger := trig }
  | _ => none

/-- A core waits for mode 0 and could begin it. -/
def Block.puReady (b : Block) (i : Nat) : Bool :=
  let c := b.core i
  decide (c.ctl.puStage = 1) && c.ctl.test.isNone && c.lbOn && c.ctl.fenceAck && !c.pins.isoN && b.windowOk i

/-- Mode 0 may start on a core: its window is met, fewer than test_conc cores of the region run it, and no core of a
lower region-local index waits for it (R253, R255). -/
def Block.mode0Ok (b : Block) (i : Nat) : Bool :=
  let r := regionOf i
  let near := b.units.cores.filter (fun p => decide (regionOf p.1 = r))
  b.windowOk i &&
    decide ((near.filter (fun p => match p.2.ctl.test with | some u => decide (u.mode = 0) && u.requested | none => false)).length < (b.rcfg r).testConc) &&
    near.all (fun p => decide (i ≤ p.1) || !b.puReady p.1)

/-- Drive mode, slice, bank and budget and raise ct_tst_req (R75). A stop's gating is lifted for a unit placed in a
checkpoint stop (R260). (DESIGN CHOICE, log 50.) -/
def driveTest (i : Nat) (u : TestRun) (b : Block) : Block :=
  let no := b.unitNo u.mode u.unit
  let len := if u.mode = 0 then 0 else b.declLen u.mode u.unit
  b.modCore i (fun c => { c with
    pins := { c.pins with
      tstReq := true
      tstMode := BitVec.ofNat 3 u.mode
      tstSlice := if u.mode = 1 ∨ u.mode = 3 then BitVec.ofNat 16 no else 0
      tstBank := if u.mode = 2 then BitVec.ofNat 8 no else 0
      tstBudget := BitVec.ofNat 20 len
      holdN := c.pins.holdN || decide (u.mode = 0)
      cgN := true }
    ctl := { c.ctl with test := some { u with requested := true } } })

/-- The unit that ct_tst_req is to be raised for: the one placed on the core or its power-up test that is due; or, while the
IEEE 1687 network is open, the mode and unit that the full test engine drives (R274). -/
def Block.unitToDrive (b : Block) (i : Nat) (engine : Option (BitVec 2 × BitVec 16)) : Option TestRun :=
  match engine, (b.core i).ctl.test with
  | some (m, u), none => if b.tapOn && b.dbg.netOpen then some { mode := m.toNat, unit := u.toNat, trigger := .sweep, engine := true } else none
  | some _, some _ => none
  | none, some u => if u.requested then none else some u
  | none, none => b.puUnit i

/-- TEST_REQUEST (R75, R274): the unit is driven once the core is fenced and isolated. SAFE holds every core in reset (R30),
so no mode 0 begins in it. -/
def testRequest (i : Nat) (engine : Option (BitVec 2 × BitVec 16)) (b : Block) : Block :=
  let c := b.core i
  match b.unitToDrive i engine with
  | none => b
  | some u =>
    if ¬ c.lbOn ∨ c.ctl.cap.isSome ∨ (¬ u.engine ∧ ¬ b.officeOn (regionOf i)) then b
    else if c.ctl.fenceTo then
      finishTest i u .timeout 0 (lbEvent i evTestTimeout [] b)
    else if ¬ c.ctl.fenceAck ∨ c.pins.isoN ∨ c.ctl.fencing then b
    else if c.ctl.stopGated ∧ b.ho.parcel.inStop.isNone then b
    else if u.mode = 0 ∧ (¬ b.mode0Ok i ∨ b.svc.state = .safe) then b
    else driveTest i u b
def execTestRequest (drive : TestDrive) (s : State) : Host.Outcome State Fault Refusal :=
  act (testRequest drive.core.toNat drive.engine) s

/-- TEST_ACK (R76). -/
def testAck (i : Nat) (b : Block) : Block :=
  match (b.core i).ctl.test with
  | some u => if u.requested then modCtl i (fun c => { c with test := some { u with acked := true } }) b else b
  | none => b
def execTestAck (core : CoreIdx) (s : State) : Host.Outcome State Fault Refusal := act (testAck core.toNat) s

/-- TEST_DONE (R76, R77): a unit that a stop met ends ABORTED, one whose supply fell WINDOW_LOST (R116, R270, R275). (DESIGN CHOICE, log 1.) -/
def testDone (i : Nat) (pass : Bool) (sig : Nat) (b : Block) : Block :=
  match (b.core i).ctl.test with
  | some u =>
    if ¬ u.acked then b
    else finishTest i u (if u.lost then .windowLost else if u.aborted then .aborted else b.judge u pass sig) sig b
  | none => b
def execTestDone (core : CoreIdx) (pass : Bool) (sig : BitVec 32) (s : State) : Host.Outcome State Fault Refusal :=
  act (testDone core.toNat pass sig.toNat) s

/-- TEST_TIMEOUT (R76): no ct_tst_ack in 16 cycles, or no ct_tst_done within the budget plus 1,024. -/
def testTimeout (i : Nat) (b : Block) : Block :=
  match (b.core i).ctl.test with
  | some u => if u.requested then finishTest i u .timeout 0 (lbEvent i evTestTimeout [] b) else b
  | none => b
def execTestTimeout (core : CoreIdx) (s : State) : Host.Outcome State Fault Refusal := act (testTimeout core.toNat) s

/-! ### State capture (R78, R79, R368) -/

/-- Beat k of what a load writes into a core: the image captured for the fill whose target it is (R238). Without such an
image the beat is the one the command names. (DESIGN CHOICE, log 49.) -/
def Block.loadBeat (b : Block) (i k : Nat) (data : Flit) : Flit :=
  match b.ho.job.fills.find? (fun f => decide (f.dst = i) && !f.image.isEmpty) with
  | some f => f.image.getD k 0
  | none => data

/-- The pins of a load that offers beat k (R78). -/
def Block.offerBeat (b : Block) (i : Nat) (k : Capture) (data : Flit) (p : CorePins) : CorePins :=
  { p with capWdata := b.loadBeat i k.moved data, capWlast := decide (k.moved + 1 = k.want) }

/-- Beats of a capture of core i: the short capture of a parcel, or the length the integrator declares (R78, R368). -/
def Block.capLen (b : Block) (i : Nat) (load : Bool) : Nat :=
  if b.capturing && !load && !(b.ho.job.fills.any (fun f => f.runs && decide (f.src = i))) then b.pcLen else b.csLen

/-- CAPTURE_REQUEST (R79, R368): only of a core that is stopped, held before launch, or isolated for a fill or an image. The
length is the declared one, whatever the command repeats. (DESIGN CHOICE, log 49.) -/
def captureRequest (i : Nat) (load : Bool) (_beats : Nat) (b : Block) : Block :=
  let c := b.core i
  if ¬ c.lbOn ∨ b.capLen i load = 0 ∨ c.ctl.cap.isSome ∨ c.ctl.test.isSome ∨ c.ctl.fencing ∨ ¬ (c.ctl.stopGated ∨ c.ctl.launchGated ∨ ¬ c.pins.isoN) then b
  else b.modCore i (fun c => { c with
    pins := { c.pins with capReq := true, capDir := load, cgN := true }
    ctl := { c.ctl with cap := some { load := load, want := b.capLen i load, gated := !c.pins.cgN, short := b.capturing && decide (b.capLen i load = b.pcLen) && !load } } })
def execCaptureRequest (core : CoreIdx) (load : Bool) (beats : BitVec 13) (s : State) : Host.Outcome State Fault Refusal :=
  act (captureRequest core.toNat load beats.toNat) s

/-- CAPTURE_ACK (R78): the path is open; a load offers its first beat. -/
def captureAck (i : Nat) (b : Block) : Block :=
  match (b.core i).ctl.cap with
  | some k => if k.ended then b else b.modCore i (fun c => { c with
      pins := (if k.load then b.offerBeat i k 0 else id) { c.pins with capRdy := !k.load, capWvld := k.load }
      ctl := { c.ctl with cap := some { k with acked := true } } })
  | none => b
def execCaptureAck (core : CoreIdx) (s : State) : Host.Outcome State Fault Refusal := act (captureAck core.toNat) s

/-- The request ends: its outputs fall (R79). (DESIGN CHOICE, log 49.) -/
def endCapture (i : Nat) (k : Capture) (b : Block) : Block :=
  b.modCore i (fun c => { c with
    pins := { c.pins with capReq := false, capRdy := false, capWvld := false, capWlast := false }
    ctl := { c.ctl with cap := some { k with ended := true } } })

/-- CAPTURE_BEAT (R78, R79): a beat moves, and a load offers its next; the last beat, or the declared number of beats,
ends the request. A read whose last beat comes at another count, or not at the declared one, is a CAPTURE_TIMEOUT; a short capture
leaves the rest of the image (R368). (DESIGN CHOICE, log 1 and 49.) -/
def captureBeat (i : Nat) (data : Flit) (last : Bool) (b : Block) : Block :=
  match (b.core i).ctl.cap with
  | none => b
  | some k =>
    if ¬ k.acked ∨ k.ended then b
    else
      let n := k.moved + 1
      let whole := decide (n = k.want)
      let k := { k with moved := n, beats := if k.load then k.beats else k.beats ++ [data] }
      let b := b.modCore i (fun c => { c with
        pins := if k.load ∧ ¬ whole then b.offerBeat i k data c.pins else c.pins
        ctl := { c.ctl with cap := some k } })
      if k.load then (if whole then endCapture i k b else b)
      else if last ≠ whole ∧ (last ∨ ¬ k.short) then endCapture i { k with invalid := true } (lbEvent i evCaptureTimeout [] b)
      else if whole then endCapture i k b
      else b
def execCaptureBeat (core : CoreIdx) (data : BitVec 128) (last : Bool) (s : State) : Host.Outcome State Fault Refusal :=
  act (captureBeat core.toNat data last) s

/-- CAPTURE_TIMEOUT (R79). -/
def captureTimeout (i : Nat) (b : Block) : Block :=
  match (b.core i).ctl.cap with
  | none => b
  | some k => if k.ended then b else endCapture i { k with invalid := true } (lbEvent i evCaptureTimeout [] b)
def execCaptureTimeout (core : CoreIdx) (s : State) : Host.Outcome State Fault Refusal := act (captureTimeout core.toNat) s

/-- What a finished capture was for: a parcel's CORE_STATE record, which goes to the Office in CAPTURE packets (R378, R384), the source image of a fill, or the load of
that image into its target (R238, R245). -/
def deliverCapture (i : Nat) (k : Capture) (b : Block) : Block :=
  let fillAt (f : Fill → Bool) : Option Fill := b.ho.job.fills.find? f
  if k.load then
    match fillAt (fun f => decide (f.dst = i) && decide (f.phase = 4)) with
    | none => b
    | some f =>
      if k.invalid then failFill f.role evSpareFailed b
      else b.modJob (fun j => { j with fills := j.fills.map (fun x => if x.role = f.role ∧ x.phase = 4 then { x with loaded := true } else x) })
  else match fillAt (fun f => decide (f.src = i) && decide (f.phase = 3)) with
  | some f =>
    if k.invalid then failFill f.role evSourceLost b
    else b.modJob (fun j => { j with fills := j.fills.map (fun x => if x.role = f.role ∧ x.phase = 3 then { x with image := k.beats } else x) })
  | none => match b.roleOf i with
    | none => b
    | some role => if b.capturing then (if k.invalid then failParcel b
      else forEach (captureFlits role k.beats) (fun pl b => unicast (unitCore i) (unitOffice (regionOf i)) 0x06 pl b) b) else b

/-- CAPTURE_CLOSE (R79): ct_cap_ack falls; a stopped core is gated again, and a fence order that waited follows. -/
def captureClose (i : Nat) (b : Block) : Block :=
  match (b.core i).ctl.cap with
  | none => b
  | some k =>
    if ¬ k.ended then b
    else
      let wait := (b.core i).ctl.fenceWait
      let b := b.modCore i (fun c => { c with
        pins := { c.pins with cgN := if c.ctl.stopGated ∨ (k.gated ∧ (c.ctl.launchGated ∨ c.ctl.toHold)) then false else c.pins.cgN }
        ctl := { c.ctl with cap := none, fenceWait := false } })
      let b := deliverCapture i k b
      let c := b.core i
      if c.ctl.toHold ∧ c.pins.holdN then fenceHold i b
      else if wait ∧ c.pins.fenceN then b.modCore i (beginFence false)
      else b
def execCaptureClose (core : CoreIdx) (s : State) : Host.Outcome State Fault Refusal := act (captureClose core.toNat) s

end Sys2Proof.Machine
end

