-- ==== Sys2Proof/Machine/BringUp.lean ====
section
/-! DEFINITION. Power-on, bring-up and power waves (11_startup_reset_recovery R339 to R344, 08_in_field_test R249 to
R258, 03_system_ports R88, R114 to R123, 16_integration R475 to R477). -/

namespace Sys2Proof.Machine

open Sys2Proof

/-! ### rs_por_n (R88, R123, R339) -/

/-- BLOCK_POWER_ON_RESET (R88, R139): every output and register returns to its reset value. -/
def execBlockPowerOnReset (s : State) : Host.Outcome State Fault Refusal :=
  .next { blk := { free := s.blk.free }, pending := s.pending }

/-- The life-cycle state that sampled codes stand for: none for an invalid pair (R123). -/
def lifeOf (lc lcInv : BitVec 3) : Option LifeCycle :=
  if lcInv ≠ ~~~lc then none
  else match lc.toNat with
  | 0 => some .manufacture | 1 => some .provisioned | 2 => some .field | 3 => some .rma | 4 => some .decommissioned | _ => none

/-- BLOCK_RESET_RELEASE (R88, R117, R123, R339): inputs are sampled and step 1 of R339 begins. (DESIGN CHOICE, log 4 and 23.) -/
def resetRelease (lc lcInv : BitVec 3) (arPresent idVld : Bool) (feed loop : BitVec 16) (rack : BitVec 24) (mfgId : BitVec 11)
    (rgnVok : BitVec 128) (b : Block) : Block :=
  if b.env.porN then b
  else
    { free := b.free
      env := {
        porN := true
        lc := lc
        lcInv := lcInv
        arPresent := arPresent
        blkVok := true
        idVld := idVld
        feedIn := feed
        loopIn := loop
        rackIn := rack
        rgnVok := rgnVok
        mfgId := mfgId }
      pm := { powered := true }
      svc := {
        lc := (lifeOf lc lcInv).getD .decommissioned
        lcInvalid := (lifeOf lc lcInv).isNone
        feed := if idVld then feed else 0
        loop := if idVld then loop else 0
        rack := if idVld then rack else 0 } }
def execBlockResetRelease (lc lcInv : BitVec 3) (arPresent idVld : Bool) (feed loop : BitVec 16) (rack : BitVec 24)
    (mfgId : BitVec 11) (rgnVok : BitVec 128) (s : State) : Host.Outcome State Fault Refusal :=
  .next { blk := resetRelease lc lcInv arPresent idVld feed loop rack mfgId rgnVok s.blk, pending := s.pending }

/-! ### Leg calibration (R140 to R144) -/

/-- A leg fails: a round trip above 511.75 ns, or samples spread over more than 0.5 ns (R143). -/
def legBad (l : LegSample) : Bool :=
  let hi := l.trips.foldl max 0
  let lo := l.trips.foldl min hi
  decide (4094 < hi) || decide (4 < hi - lo)

/-- Half the mean of the samples, rounded to the nearest unit (R141) and kept in the 11 bits of an offset (R140). At an
exact half the manual names no direction: the free bit chooses. (DESIGN CHOICE, log 133.) -/
def legOffset (up : Bool) (l : LegSample) : Nat :=
  let d := 2 * l.trips.length
  let s := l.trips.foldl (· + ·) 0
  min 2047 (if d = 0 then 0 else if 2 * (s % d) = d then s / d + b01 up else (2 * s + d) / (2 * d))

/-- An exact half. (DESIGN CHOICE, log 17.) -/
def legTie (l : LegSample) : Bool := decide (2 * (l.trips.foldl (· + ·) 0 % (2 * l.trips.length)) = 2 * l.trips.length)

/-- Measure a leg: its offset, drawing a free bit for a tie. -/
def measureLeg (l : LegSample) (b : Block) : Nat × Block :=
  if legTie l then (legOffset (freshBit b).1 l, (freshBit b).2) else (legOffset false l, b)

/-- Set a node's offset from its leg (R140, R141). -/
def setLeg (l : LegSample) (b : Block) : Block :=
  let m := measureLeg l b
  m.2.modPm (fun p => { p with offsets := tset p.offsets l.node m.1 })

/-- The legs on a node's path from the generator: a router node lies behind its Office node (R140, R141). -/
def legPath (n : Nat) : List Nat := if n < 256 then [n] else [32 + (n - 256) / 128, n]

/-- The offset applied at a node, in 0.125 ns: the sum of the measured offsets along its path (R140). -/
def Block.nodeOffset (b : Block) (n : Nat) : Nat := (legPath n).foldl (fun a k => a + tcnt b.pm.offsets k) 0

/-- The 64-bit counter that a node holds: its offset makes every node count each tick with the generator (R140, R145), so
that one count in State stands for all of them. (DESIGN CHOICE, log 134.) -/
def Block.nodeCount (b : Block) (_node : Nat) : BitVec 64 := b.pm.count

/-- Node numbers of a leg: Head Office reader 0, Courier node 1 + n, Office node 32 + r, router node 256 + k. -/
def legHo (l : LegSample) : Bool := decide (l.node = 0)

/-- A calibrated leg whose failure has a consequence beyond SAFE (R143). (DESIGN CHOICE, log 27.) -/
def calibrate (l : LegSample) (b : Block) : Block :=
  let b := if legBad l then b else setLeg l b
  if ¬ legBad l then b
  else if 1 ≤ l.node ∧ l.node ≤ 16 then b.modCourier (l.node - 1) (fun c => { c with domFail := true })
  else if 32 ≤ l.node ∧ l.node < 160 then b.modOffice (l.node - 32) (fun o => { o with dead := true })
  else if 256 ≤ l.node ∧ l.node < 256 + 16384 then loseFirst ((l.node - 256) / 128) ((l.node - 256) % 128) b
  else b

/-- Step 1 of R339 is under way: at power-up, or repeated in a cold reset. -/
def Block.booting (b : Block) : Bool := match b.svc.state with | .booting => true | .coldReset => true | _ => false

/-- POSTMARK_DOMAIN_TEST_DONE (R141, R143, R252, R339): the Head Office and debug domains power up, or SAFE. -/
def postmarkTestDone (pass : Bool) (legs : List LegSample) (b : Block) : Block :=
  if b.svc.pmOk ∨ ¬ b.booting ∨ ¬ b.pm.powered then b
  else if ¬ pass ∨ legs.any (fun l => legHo l && legBad l) then enterSafe 5 b
  else (forEach legs calibrate b).modSvc (fun s => { s with pmOk := true, hoOn := true, dbgOn := true })
def execPostmarkDomainTestDone (pass : Bool) (legs : List LegSample) (s : State) : Host.Outcome State Fault Refusal :=
  act (postmarkTestDone pass legs) s

/-! ### Head Office test, image, configuration, Ledger (R121, R122, R252, R339) -/

/-- No image can run: NO_IMAGE, and the block goes no further until the next cold cause (R113, R121, R361, R477). (DESIGN CHOICE, log 24.) -/
def noImage (b : Block) : Block := raiseAlarm 8 (setSvc .booting (b.modSvc (fun s => { s with imageOk := false, reset := 0 })))

/-- The slot that loads: the one boot_sel names, else the other (R121). -/
def pickImage (bootSel : Nat) (s0 s1 : Option (List Byte)) : Option (Nat × List Byte) :=
  let fits (k : Nat) (x : Option (List Byte)) : Option (Nat × List Byte) := x.bind (fun l => if l.length ≤ 2 ^ 24 then some (k, l) else none)
  if bootSel = 0 then (fits 0 s0).or (fits 1 s1) else (fits 1 s1).or (fits 0 s0)

/-- Load and measure the Viloladric image (R121, R448). -/
def loadImage (bootSel : Nat) (s0 s1 : Option (List Byte)) (b : Block) : Block :=
  match (if b.env.arPresent then pickImage bootSel s0 s1 else none) with
  | none => noImage b
  | some (k, l) =>
    setSvc .bringup ((b.modMgmt (fun m => { m with
      meas := sha384v l
      measSlot := decide (k = 1)
      measVld := true
      measLen := l.length })).modSvc (fun s => { s with imageOk := true }))

/-- HEAD_OFFICE_TEST_DONE (R113, R121, R252, R272, R273, R337, R338): letters that waited in BOOTING are judged. The debug
domain is tested beside the Head Office; when it fails the test port is unavailable. (DESIGN CHOICE, log 23; DEDUCED, log 25.) -/
def headOfficeTestDone (pass dbgPass : Bool) (bootSel : Nat) (s0 s1 : Option (List Byte)) (b : Block) : Block :=
  if ¬ b.svc.hoOn ∨ b.svc.hoPassed ∨ ¬ b.booting then b
  else
    let b := b.modSvc (fun s => { s with dbgFail := !dbgPass })
    if ¬ pass then enterSafe 3 b
    else
      let b := setIrqMisc 4 ((b.modSvc (fun s => { s with hoPassed := true })).modOuts (fun o => { o with alarmN := true, alarmCode := 0 }))
      pumpAll (if b.svc.lc = .decommissioned then enterSafe 7 b else loadImage bootSel s0 s1 b)
def execHeadOfficeTestDone (tests : DomainTests) (bootSel : BitVec 1) (slot0 slot1 : Option (List Byte)) (s : State) : Host.Outcome State Fault Refusal :=
  act (headOfficeTestDone tests.ho tests.dbg bootSel.toNat slot0 slot1) s

/-- n bytes of a canonical image from offset a. -/
def imgSpan : Nat → Nat → List Host.Cell → List Byte
  | 0, _, _ => []
  | n + 1, a, m =>
    match m.dropWhile (fun c => decide (c.1 < a)) with
    | [] => 0 :: imgSpan n (a + 1) []
    | c :: r => if c.1 = a then c.2 :: imgSpan n (a + 1) r else 0 :: imgSpan n (a + 1) (c :: r)

/-- A field of n bytes of the configuration, little-endian (R12, R475). -/
def imgF (m : List Host.Cell) (o n : Nat) : Nat := ofLe (memReads m o n)
/-- A range of the image is zero. -/
def imgZero (m : List Host.Cell) (o n : Nat) : Bool := m.all (fun c => decide (c.1 < o) || decide (o + n ≤ c.1) || decide (c.2 = 0))

/-- A KAT entry (R250). -/
def katEntry (m : List Host.Cell) (i : Nat) : KatEntry :=
  let v := imgF m (0x201000 + 32 * i) 32
  { inFmt := BitVec.ofNat 64 v
    outType := fld v 64 4
    katLen := fld v 72 20
    katId := fld v 96 16
    expSig := BitVec.ofNat 32 (fld v 128 32)
    expDigest := BitVec.ofNat 32 (fld v 160 32) }
/-- Reserved and growth fields of a KAT entry read zero. (DESIGN CHOICE, log 22.) -/
def katRsv (m : List Host.Cell) (i : Nat) : Bool :=
  let v := imgF m (0x201000 + 32 * i) 32
  fld v 14 2 = 0 && fld v 32 32 = 0 && fld v 68 4 = 0 && fld v 92 4 = 0 && fld v 112 16 = 0 && fld v 192 64 = 0

/-- Read the configuration as laid out under R475 and R476. -/
def parseConfig (m : List Host.Cell) (present : List (Nat × Nat)) : IntegrationConfig :=
  { bootSel := imgF m 5 1
    pcLen := imgF m 6 1
    extChanBase := imgF m 7 1
    regions := BitVec.ofNat 128 (imgF m 8 16)
    csLen := imgF m 24 2
    lbLeg := imgF m 26 2
    storeWarm := bit (imgF m 28 1) 0
    storeCold := bit (imgF m 28 1) 1
    images := bit (imgF m 28 1) 2
    credits := (List.range 10).map (fun i => imgF m (32 + i) 1)
    fullLen := imgF m 48 4
    fullSig := BitVec.ofNat 32 (imgF m 52 4)
    fTmax := imgF m 56 2
    slices := (List.range (imgF m 58 2 + 1)).map (fun i => (imgF m (0x181000 + 8 * i) 4, BitVec.ofNat 32 (imgF m (0x181000 + 8 * i + 4) 4)))
    bankSigs := (List.range (imgF m 60 1 + 1)).map (fun i => BitVec.ofNat 32 (imgF m (2048 + 4 * i) 4))
    bankLen := imgF m 64 4
    kats := (List.range (imgF m 61 1)).map (katEntry m)
    regionCfg := (List.range 128).map (fun r =>
      ⟨imgF m (1024 + 8 * r) 1, imgF m (1024 + 8 * r + 1) 1, imgF m (1024 + 8 * r + 2) 1, imgF m (1024 + 8 * r + 3) 1, imgF m (1024 + 8 * r + 4) 2⟩)
    image := m
    present := present }

/-- A clock ratio R146 allows: coprime, q one of 1, 2, 4, 5, 10, at most 2.2 GHz. -/
def ratioOk (p q : Nat) : Bool := decide (0 < p) && [1, 2, 4, 5, 10].contains q && decide (Nat.gcd p q = 1) && decide (p ≤ 22 * q)

/-- Present cores of a region under a configuration. -/
def cfgCores (c : IntegrationConfig) (r : Nat) : Nat :=
  ((rangeFrom (8192 * r) 8192).filter (fun i => c.present.any (fun p => decide (p.1 ≤ i) && decide (i ≤ p.2)))).length

/-- Rules of R146, R249, R251 and R358 for one populated region. (DESIGN CHOICE, log 22.) -/
def regionOk (c : IntegrationConfig) (r : Nat) : Bool :=
  let g := c.regionCfg.getD r {}
  let low := c.kats.foldl (fun (m : KatEntry) k => if k.katId < m.katId then k else m) (c.kats.headD {})
  let batches := ceilDiv (cfgCores c r) g.testConc
  ratioOk g.p g.q && ratioOk g.pt g.qt && decide (100 * g.pt ≤ c.fTmax * g.qt) && decide (1 ≤ g.testConc) && decide (g.testConc ≤ 8192) &&
    c.slices.all (fun s => decide (800 * g.p ≤ s.1 * g.q) && decide (s.1 * g.q ≤ 4000 * g.p)) &&
    decide (c.bankLen * g.q ≤ 4000 * g.p) && c.kats.all (fun k => decide (k.katLen * g.q ≤ 4000 * g.p)) &&
    decide (batches * c.fullLen * 10 * g.qt ≤ 2000000000 * g.pt) && decide (batches * (low.katLen + 1536) * 10 * g.q ≤ 140000000 * g.p)

/-- No wave holds more than 2% of the present core positions, rounded up (R341), and every wave byte is 0 to 63 (R114). (DESIGN CHOICE, log 22.) -/
def wavesOk (c : IntegrationConfig) : Bool :=
  let cores := ((List.range 128).filter (fun r => maskBit c.regions r)).flatMap (fun r =>
    (rangeFrom (8192 * r) 8192).filter (fun i => c.present.any (fun p => decide (p.1 ≤ i) && decide (i ≤ p.2))))
  let waves := cores.map (fun i => (memRead c.image (0x81000 + i)).toNat)
  c.image.all (fun x => decide (x.1 < 0x81000) || decide (0x181000 ≤ x.1) || decide (x.2.toNat < 64)) &&
    (List.range 64).all (fun w => decide ((waves.filter (fun x => decide (x = w))).length ≤ ceilDiv cores.length 50))

/-- R477: the configuration is accepted. (DESIGN CHOICE, log 22.) -/
def configOk (m : List Host.Cell) (c : IntegrationConfig) : Bool :=
  let pages := imgSpan 0x202000 0 m
  let crcd := pages.take 4088 ++ List.replicate 8 0 ++ pages.drop 4096
  imgF m 0 4 = 0x43464731 && imgF m 4 1 = 1 && decide (c.bootSel ≤ 1) && [0, 1, 2, 4, 8, 16, 32, 64].contains c.pcLen &&
    decide (0x80 ≤ c.extChanBase) && [55, 56, 71, 72].any (fun r => maskBit c.regions r) && decide (1 ≤ c.csLen) && decide (c.csLen ≤ 4096) &&
    decide (imgF m 28 1 < 8) && imgZero m 29 3 && c.credits.all (fun x => decide (1 ≤ x)) && imgZero m 42 6 && decide (1 ≤ c.fullLen) &&
    decide (c.fTmax ≤ 2200) && decide (1 ≤ c.kats.length) && decide (c.kats.length ≤ 64) && imgZero m 62 2 && imgZero m 68 956 &&
    (List.range 128).all (fun r => imgZero m (1024 + 8 * r + 6) 2) && imgZero m 3072 1015 && imgF m 4087 1 = 0 &&
    (List.range c.kats.length).all (fun i => katRsv m i) && c.kats.all (fun k => outputType k.outType && fmtOk k.inFmt) &&
    decide ((dedup (c.kats.map (·.katId))).length = c.kats.length) &&
    ((List.range 128).filter (fun r => maskBit c.regions r)).all (regionOk c) && wavesOk c &&
    decide (imgF m 4088 8 = (crc64 crcd).toNat)

/-- CONFIGURATION_CHECK (R249, R251, R280, R341, R358, R477). (DESIGN CHOICE, log 22 and 24.) -/
def configurationCheck (image : List Host.Cell) (present : List (Nat × Nat)) (b : Block) : Block :=
  if ¬ b.hoRuns ∨ b.cfg.isSome ∨ b.svc.state ≠ .bringup then b
  else
    let c := parseConfig image present
    if configOk image c then { b with cfg := some c } else noImage b
def execConfigurationCheck (image : List Host.Cell) (present : List (Nat × Nat)) (s : State) : Host.Outcome State Fault Refusal :=
  act (configurationCheck image present) s

/-- The valid slot with the higher sequence number (R122). -/
def newerSlot (a c : Option LedgerImage) : Option LedgerImage :=
  match a.filter (·.valid), c.filter (·.valid) with
  | some x, some y => if x.seq < y.seq then some y else some x
  | some x, none => some x
  | none, y => y

/-- A reset of this wafer as Holder: committed copies are LOST unless the store survives it (R388). (DEDUCED, log 26.) -/
def loseHolds (b : Block) : Block :=
  b.modLedger (fun l => { l with holds := l.holds.map (fun h => if h.committed then { h with lost := true } else h) })

/-- LEDGER_RELOAD_DONE (R122, R339, R344, R345): the Ledger is reloaded or takes its defaults, and the Office domains
of the populated regions power up. (DEDUCED, log 26; DESIGN CHOICE, log 31.) -/
def ledgerReloadDone (sa sb : Option LedgerImage) (b : Block) : Block :=
  if ¬ b.hoRuns ∨ b.cfg.isNone ∨ b.svc.ledgerOk ∨ b.svc.state ≠ .bringup then b
  else
    let d := ((newerSlot sa sb).map (·.data)).getD {}
    let d := { d with inGen := d.inGen.map (fun g => { g with state := .failed }) }
    let b : Block := { b with ledger := d, arch := { b.arch with slotA := sa, slotB := sb } }
    let b := if (match b.cfg with | some c => c.storeCold | none => true) then b else loseHolds b
    let b := (b.modBm (fun m => { m with gen := BitVec.ofNat 32 d.bmGen, digest := d.bmDigest })).modSvc (fun s => { s with ledgerOk := true })
    forEach b.popRegions (fun r b => b.modOffice r (fun o => { o with powered := true })) b
def execLedgerReloadDone (slotA slotB : Option LedgerImage) (s : State) : Host.Outcome State Fault Refusal :=
  act (ledgerReloadDone slotA slotB) s

/-! ### Offices, routers, Couriers (R252, R339, R340) -/

/-- Step 5 to 7 commands act while the block comes up. -/
def Block.rising (b : Block) : Bool := b.hoRuns && b.svc.ledgerOk && decide (b.svc.state = .bringup)

/-- Both members have ended their tests. -/
def Office.tested (o : Office) : Bool := (o.memA.passed || o.memA.failed) && (o.memB.passed || o.memB.failed)

/-- OFFICE_MEMBER_TEST_DONE (R141, R143, R252, R258): a passed member is eligible, and the first to pass serves. (DESIGN CHOICE, log 27.) -/
def officeMemberTestDone (r : Nat) (mb : Bool) (pass : Bool) (legs : List LegSample) (b : Block) : Block :=
  let o := b.office r
  let m := if mb then o.memB else o.memA
  if ¬ b.rising ∨ ¬ o.powered ∨ m.passed ∨ m.failed then b
  else
    let b := forEach legs calibrate b
    let m := { m with passed := pass, eligible := pass, failed := !pass }
    let b := b.modOffice r (fun o => if mb then { o with memB := m } else { o with memA := m })
    let other := if mb then o.memA else o.memB
    if pass then
      (if other.passed then b else writeServing r mb (b.modOffice r (fun o => { o with serving := mb })))
    else if other.failed then forEach (b.regionCores r) (fun i b => blockCore i 4 b) (postEvent evOfficeTestFail (unitOffice r) [] b)
    else b
def execOfficeMemberTestDone (region : RegionIdx) (member : BitVec 1) (pass : Bool) (legs : List LegSample) (s : State) : Host.Outcome State Fault Refusal :=
  act (officeMemberTestDone region.toNat (decide (member = 1)) pass legs) s

/-- ROUTER_LOOPBACK_DONE (R252): a failed router is lost, and the first tables route around it. The routers depend on
their Office, which tests them once a member has passed. -/
def routerLoopbackDone (r k : Nat) (pass : Bool) (b : Block) : Block :=
  let o := b.office r
  if ¬ b.rising ∨ ¬ b.officeOn r ∨ maskBit o.looped k then b
  else
    let b := b.modOffice r (fun o => { o with looped := maskSet o.looped k true })
    if pass then b else loseFirst r k b
def execRouterLoopbackDone (region : RegionIdx) (router : BitVec 7) (pass : Bool) (s : State) : Host.Outcome State Fault Refusal :=
  act (routerLoopbackDone region.toNat router.toNat pass) s

/-- What the tests of a Courier domain leave (R252, R280, R445): the port enabled, the port failed, or the domain disabled.
Its Intake Tap gets the format table that was last loaded, so that it stays identical to the Letterboxes' (R95). (DESIGN CHOICE, log 130.) -/
def courierTested (n : Nat) (portPass tapPass : Bool) (b : Block) : Block :=
  let b := b.modCourier n (fun c => { c with powered := true, portFail := !portPass, itFmt := b.ho.policy.fmt })
  if ¬ tapPass ∨ (b.courier n).domFail ∨ (b.attach (unitCourier n)).isNone then disableDomain n b
  else if portPass then enablePort n b
  else b.modCourier n (fun c => { c with en := false })

/-- COURIER_DOMAIN_TEST_DONE (R252, R339). -/
def courierDomainTestDone (n : Nat) (portPass tapPass : Bool) (b : Block) : Block :=
  if ¬ b.rising ∨ (b.courier n).powered then b else courierTested n portPass tapPass b
def execCourierDomainTestDone (n : BitVec 4) (portPass tapPass : Bool) (s : State) : Host.Outcome State Fault Refusal :=
  act (courierDomainTestDone n.toNat portPass tapPass) s

/-- OFFICE_LEDGER_DELIVERED (R44, R340): held results are applied, and cores whose Letterbox has failed, or that were
powered before their Office domain, become UNSCREENED. -/
def officeLedgerDelivered (r : Nat) (b : Block) : Block :=
  let o := b.office r
  if ¬ b.rising ∨ ¬ b.officeOn r ∨ o.ledgerIn then b
  else
    let b := b.modOffice r (fun o => { o with ledgerIn := true, heldRes := [] })
    let b := forEach o.heldRes (fun x b => applyTested x.1 x.2 b) b
    forEach (b.regionCores r) (fun i b =>
      if (b.core i).ctl.failed ∨ (b.core i).time.failed ∨ (b.core i).ctl.early then unscreen i b else b) b
def execOfficeLedgerDelivered (region : RegionIdx) (s : State) : Host.Outcome State Fault Refusal :=
  act (officeLedgerDelivered region.toNat) s

/-! ### Resets: what starts one (R355 to R364) -/

/-- Warm-reset records within reset_window of now (R363, R442). (DESIGN CHOICE, log 34.) -/
def Block.recordsIn (b : Block) (l : List Nat) : Nat := (l.filter (fun t => decide (b.now < t + b.ho.policy.resetWindow * 60000000000))).length

/-- End any job as step 1 of R356 does. (DESIGN CHOICE, log 30.) -/
def endJob (b : Block) : Block := if b.ho.job.man.isSome then beginTeardown b else b

/-- OUT_OF_SERVICE (R364): the job ends, every present core is fenced into hold and gating, the alarm rises. (DESIGN CHOICE, log 30.) -/
def enterOOS (b : Block) : Block :=
  let b := endJob b
  let b := forEach b.liveCores fenceHold b
  setSvc .outOfService (raiseAlarm 6 b)

/-- Escalation (R363): this reset would make reset_count records in the window. -/
def Block.escalates (b : Block) : Bool := decide (b.ho.policy.resetCount ≤ b.recordsIn (b.now :: b.ho.resets.warmAt))

/-- A warm compute reset starts (R275, R356, R363), or escalation enters OUT_OF_SERVICE. (DESIGN CHOICE, log 34.) -/
def startWarm (cause : Nat) (b : Block) : Block :=
  if b.escalates then enterOOS (b.modResets (fun x => { x with cause := cause, kind := 3 }))
  else
    let b := b.modResets (fun x => { x with
      warmAt := (b.now :: x.warmAt).take 15
      warm := sat 8 (x.warm + 1)
      cause := cause
      kind := 1
      inWindow := b.recordsIn (b.now :: x.warmAt) })
    let b := setSvc .warmReset (b.modSvc (fun s => { s with reset := 1, hostDone := false }))
    let b := endJob b
    let keep (u : TestUnit) : Bool := match u.trigger with | .conviction => true | .operands => true | .suspicion => true | _ => false
    let b := forEach b.popRegions (fun r b => b.modOffice r (fun o => { o with testq := o.testq.filter keep, sweepq := [], running := none })) b
    let b := forEach (b.ho.bm.blocked.filter (fun p => [2, 3, 5].contains p.2)) (fun p b => b.modHist p.1 (fun h => { h with eligibleSince := b.now })) b
    let b := b.modBm (fun m => { m with blocked := m.blocked.filter (fun p => !([2, 3, 5].contains p.2)) })
    let b := (b.modImage (fun x => { x with active := false })).modDebug (fun d => { d with exporting := none, exportTodo := [] })
    let b := if (match b.cfg with | some c => c.storeWarm | none => true) then b else loseHolds b
    if b.ho.job.tearing.isSome then b else raiseWarm b

/-- The stop tree across a cold reset: its domain stays powered, so a stop with its latch and the causes that only a
release clears stays in force; what waited for the ended job goes (R359, R454, R457). (DESIGN CHOICE, log 31.) -/
def Stop.kept (s : Stop) : Stop :=
  let causes := s.causes.filter (fun c => match c with | .urgentLetter => true | .stopCtrl => true | .stopAt => true | .shutdown => true | _ => false)
  { pulseAt := s.pulseAt
    at_ := s.at_
    lastAt := s.lastAt
    last := s.last
    latch := s.latch
    causes := causes
    stopped := s.stopped && (s.latch || !causes.isEmpty) }

/-- The domains of step 4 of R359 lose power: every register, ring and table of theirs takes its reset value. The waves
that failed are requested again, as if a cold reset ended their power cycle. (DEDUCED, log 25; DESIGN CHOICE, log 31 and 124.) -/
def coldOff (b : Block) : Block :=
  let again := decide (b.svc.safeCause = 4) || decide (b.svc.safeCause = 5)
  let ok := b.svc.pmOk && !again
  { b with
    ho := {}
    units := {}
    cfg := none
    ledger := {}
    dbg := { netOpen := b.dbg.netOpen }
    stop := if again then { pulseAt := b.stop.pulseAt } else b.stop.kept
    keys := { slots := b.keys.slots, locked := b.keys.locked }
    pm := if again then { powered := true, coldCount := b.pm.coldCount } else b.pm
    outs := { b.outs with alarmN := false, alarmCode := 1, arCmd := none, rspData := 0, rspErr := 0, rsps := 0, waveReq := false, waveOp := false, waveId := 0 }
    svc := { b.svc with
      hoPassed := false
      imageOk := false
      ledgerOk := false
      pmOk := ok
      hoOn := ok
      dbgOn := ok
      safeCause := 0
      halted := false
      coldOff := true
      wavesDone := 0
      waveFail := 0
      waveOn := 0
      wavePhase := 0
      slow := false
      wave1 := none
      waveAt := none
      resetDue := if again then b.svc.resetDue - b.now else b.svc.resetDue } }

/-- Step 3 of R359 has ended: the Ledger is persisted or cannot be, and every wave is off. -/
def coldProgress (b : Block) : Block :=
  if b.svc.reset = 2 ∧ ¬ b.svc.coldOff ∧ ¬ b.svc.shutting ∧ b.arch.step.isNone ∧ b.svc.waveOn = 0 ∧ ¬ b.outs.waveReq ∧ b.svc.state = .coldReset
  then coldOff b else b

/-- The cold reset begins (R359, R363, R429): rs_cold_req rises, at least one ck_ref cycle after rs_warm_req falls (R89). (DESIGN CHOICE, log 30.) -/
def beginCold (cause : Nat) (b : Block) : Block :=
  let b := if b.outs.warmReq then advTo (b.now + 10) (b.modOuts (fun o => { o with warmReq := false })) else b
  let b := endJob b
  let b := if b.ho.job.tearing.isSome then endTeardown b else b
  let b := abandonCapture b
  let b := b.modPm (fun p => { p with coldCount := p.coldCount + 1 })
  let b := b.modResets (fun x => { x with cause := cause, kind := 2, warmAt := [], warm := 0, inWindow := 0 })
  let b := setSvc .coldReset (b.modSvc (fun s => { s with
    reset := 2
    resetDue := b.now + 5500000000
    hostDone := false
    coldOff := false
    coldWait := 0 }))
  let b := b.modOuts (fun o => { o with coldReq := true })
  coldProgress (startPersist b)

/-- A cold cause (R361, R362): ignored in a cold reset; a bring-up wave handshake completes first. (DESIGN CHOICE, log 39.) -/
def startCold (cause : Nat) (b : Block) : Block :=
  if b.svc.reset = 2 then b
  else if b.outs.waveReq then b.modSvc (fun s => { s with coldWait := if s.coldWait = 0 then cause else s.coldWait })
  else beginCold cause b

/-! ### Power waves (R114, R115, R341 to R343) -/

/-- Present cores of a wave. -/
def Block.waveCores (b : Block) (w : Nat) : List Nat := b.presentCores.filter (fun i => decide (b.waveOf i = w))

/-- Step 5 of R339 has ended in a region. -/
def Block.regionReady (b : Block) (r : Nat) : Bool :=
  let o := b.office r
  o.tested && ((o.memA.failed && o.memB.failed) || decide (o.looped = BitVec.allOnes 128))

/-- Waves that hold present cores and are not done, ascending, with the regions each touches. -/
def Block.wavesLeft (b : Block) : List (Nat × List Nat) :=
  ((List.range 64).filter (fun w => !maskBit b.svc.wavesDone w)).filterMap (fun w =>
    match dedup ((b.waveCores w).map regionOf) with | [] => none | rs => some (w, rs))

/-- Drive a wave request (R114, R341): at least 200,000 ticks after the previous rise. -/
def driveWave (on : Bool) (w : Nat) (b : Block) : Block :=
  let b := match b.svc.waveAt with | some t => advTo (t + 200000) b | none => b
  (b.modOuts (fun o => { o with waveReq := true, waveOp := on, waveId := BitVec.ofNat 6 w })).modSvc (fun s => { s with
    waveAt := some b.now
    wave1 := if on then some (s.wave1.getD b.now) else s.wave1
    wavePhase := 1 })

/-- The next wave to power on: waves whose present cores all lie in regions without an eligible member are passed
over (R343). None when its regions' step 5 has not ended, or no wave is left. (DESIGN CHOICE, log 28.) -/
def nextWave (b : Block) : List (Nat × List Nat) → Option (Nat × List Nat)
  | [] => none
  | (w, rs) :: l =>
    if ¬ rs.all b.regionReady then none
    else if rs.any b.officeOn then some (w, [])
    else (nextWave b l).map (fun x => (x.1, w :: x.2))

/-- WAVE_REQUEST (R341, R343, R359): in bring-up the next wave on, in step 3 of a cold reset the highest one off. -/
def waveRequest (b : Block) : Block :=
  if b.outs.waveReq ∨ b.svc.shutting then b
  else if b.svc.state = .coldReset then
    (if b.svc.coldOff then b
     else match (maskBits b.svc.waveOn).getLast? with
     | some w => driveWave false w b
     | none => b)
  else if ¬ b.rising ∨ (b.svc.reset = 2 ∧ ¬ b.svc.hostDone) then b
  else match nextWave b b.wavesLeft with
  | none => b
  | some (w, passed) => driveWave true w (b.modSvc (fun s => { s with wavesDone := passed.foldl (fun m k => maskSet m k true) s.wavesDone }))
def execWaveRequest (s : State) : Host.Outcome State Fault Refusal := act waveRequest s

/-- What follows a handshake: BRINGUP_SLOW (R342), a cold cause that waited (R362), the next part of a cold reset. (DESIGN CHOICE, log 28.) -/
def afterWave (b : Block) : Block :=
  let late : Bool := match b.svc.wave1 with | some t => decide (t + 40000000 < b.now) | none => false
  let b := if b.outs.waveOp ∧ late ∧ ¬ b.svc.slow then hoEvent evBringupSlow [] (b.modSvc (fun s => { s with slow := true })) else b
  if b.svc.coldWait ≠ 0 then beginCold b.svc.coldWait b else coldProgress b

/-- A wave is off: its cores lose power. (DESIGN CHOICE, log 28.) -/
def waveOff (w : Nat) (b : Block) : Block :=
  (forEach (b.waveCores w) (fun i b => b.setCore i {}) b).modSvc (fun s => { s with waveOn := maskSet s.waveOn w false })

/-- WAVE_ACK (R114): the request falls. (DESIGN CHOICE, log 1 and 29.) -/
def waveAck (b : Block) : Block :=
  if ¬ b.outs.waveReq then b
  else
    let w := b.outs.waveId.toNat
    let b := (b.modOuts (fun o => { o with waveReq := false })).modSvc (fun s => { s with wavePhase := 2 })
    let b := if b.outs.waveOp then b.modSvc (fun s => { s with waveOn := maskSet s.waveOn w true, wavesDone := maskSet s.wavesDone w true }) else waveOff w b
    afterWave b
def execWaveAck (s : State) : Host.Outcome State Fault Refusal := act waveAck s

/-- A wave has failed (R115): its cores read FENCED with no role for the power cycle. (DESIGN CHOICE, log 28 and 29.) -/
def waveFailed (b : Block) : Block :=
  if ¬ b.outs.waveReq then b
  else
    let w := b.outs.waveId.toNat
    let b := (b.modOuts (fun o => { o with waveReq := false })).modSvc (fun s => { s with
      wavePhase := 3
      waveFail := maskSet s.waveFail w true
      wavesDone := maskSet s.wavesDone w true })
    let b := forEach (b.waveCores w) (fun i b => blockCore i 1 b) b
    afterWave (if b.outs.waveOp then b else waveOff w b)

/-- WAVE_FAIL (R115). -/
def execWaveFail (s : State) : Host.Outcome State Fault Refusal := act waveFailed s

/-- WAVE_TIMEOUT (R114, R115): 5 ms without an answer. -/
def execWaveTimeout (s : State) : Host.Outcome State Fault Refusal :=
  act (fun b => if b.outs.waveReq then waveFailed (advTo (b.svc.waveAt.getD b.now + 5000000) b) else b) s

/-! ### Publication (R340, R344) -/

/-- A present core has ended step 9, or has no step 9. -/
def Block.coreSettled (b : Block) (i : Nat) : Bool :=
  (tget b.ho.bm.blocked i).isSome || !b.officeOn (regionOf i) ||
    (let c := b.core i; c.porN && decide (c.ctl.puStage = 0) && c.ctl.test.isNone)

/-- Every step before publication has ended. (DESIGN CHOICE, log 34.) -/
def Block.mayPublish (b : Block) : Bool :=
  !b.outs.waveReq && !b.svc.shutting && b.presentCores.all b.coreSettled &&
    (match b.svc.state with
     | .bringup => b.rising && b.wavesLeft.isEmpty && (decide (b.svc.reset = 0) || b.svc.hostDone) &&
         b.popRegions.all (fun r => (b.office r).tested && (!b.officeOn r || (b.office r).ledgerIn))
     | .warmReset => b.svc.hostDone && b.ho.job.tearing.isNone
     | _ => false)

/-- BOARD_MAP_PUBLICATION (R344): BOARD_MAP_READY and READY; the letter of a warm reset and the letters it met end (R427). (DESIGN CHOICE, log 9.) -/
def boardMapPublication (b : Block) : Block :=
  if ¬ b.mayPublish then b
  else
    let warm := decide (b.svc.reset = 1)
    let b := forEach (b.popRegions.filter (fun r => (b.office r).dead)) (fun r b => forEach (b.regionCores r) unscreen b) b
    let b := if warm then b
      else forEach (b.presentCores.filter (fun i => decide (b.coreState i = .suspect) && (b.roleOf i).isNone && (b.office (regionOf i)).powered)) queueSuspicion b
    let b := publish b
    let b := hoEvent evBoardMapReady (le 4 b.ho.bm.gen.toNat ++ le 48 b.ho.bm.digest.toNat) b
    let b := setSvc .ready (b.modSvc (fun s => { s with reset := 0 }))
    let b := if warm then clearCause .teardown b else b
    let b := if warm then abortLong 0x0604 (fun op => op = 0x701) (finishOp 0x701 0 0 [] b) else b
    pumpAll b
def execBoardMapPublication (s : State) : Host.Outcome State Fault Refusal := act boardMapPublication s

end Sys2Proof.Machine
end

