-- ==== Sys2Proof/Machine/Resets.lean ====
section
/-! DEFINITION. Host handshakes of resets, shutdown, persisting, failures that end in SAFE, supplies and identifiers
(03_system_ports R87 to R90, R116 to R122, 11_startup_reset_recovery R357 to R364, 16_integration R482). -/

namespace Sys2Proof.Machine

open Sys2Proof

/-! ### The Archive port and shutdown (R118, R119, R122) -/

/-- Outputs of the Archive port while a command is in progress (R119). -/
structure ArPins where
  /-- ar_cmd_op, ar_cmd_page, ar_cmd_cnt. -/
  cmd : Option (BitVec 2 × BitVec 32 × BitVec 8) := none
  /-- ar_wd_vld, ar_wd_data: the first beat of the command's pages. -/
  wdVld : Bool := false
  wdData : BitVec 64 := 0
  /-- ar_rd_rdy. -/
  rdRdy : Bool := false
  deriving DecidableEq, Repr

/-- The read that bring-up waits for: the configuration, then the header pages and bodies of both Ledger slots (R119,
R120, R122, R339). Its data are the operands of the row that ends it. (DESIGN CHOICE, log 6.) -/
def Block.arRead (b : Block) : Option (BitVec 2 × BitVec 32 × BitVec 8) :=
  if ¬ b.hoRuns ∨ ¬ b.env.arPresent ∨ b.svc.state ≠ .bringup ∨ b.svc.ledgerOk then none
  else if b.cfg.isNone then some (0, 0x2000, 255) else some (0, 0x10000, 255)

/-- What the Archive port drives: reads of bring-up, the pages of a persist, nothing else (R119). (DESIGN CHOICE, log 125.) -/
def Block.arPins (b : Block) : ArPins :=
  match b.arRead with
  | some c => { cmd := some c, rdRdy := true }
  | none =>
    let body := decide (b.arch.step = some 0) || decide (b.arch.step = some 2)
    { cmd := b.outs.arCmd
      wdVld := body
      wdData := if body then Config.ledgerBeat b.ledger (512 * b.arch.page) else 0 }

/-- The persist ends: the target slot is valid and newest; a shutdown is ready (R118), a cold reset goes on (R359). -/
def persistDone (b : Block) : Block :=
  let img : LedgerImage := { seq := newestSeq b.arch + 1, data := b.ledger, crc := Config.ledgerCrc b.ledger }
  let b : Block := { b with
    arch := { b.arch with
      step := none
      slotA := if b.arch.toB then b.arch.slotA else some img
      slotB := if b.arch.toB then some img else b.arch.slotB }
    outs := { b.outs with arCmd := none, shdnRdy := b.outs.shdnRdy || b.svc.shutting } }
  coldProgress b

/-- Issue the Archive command of a persist's step. (DESIGN CHOICE, log 36.) -/
def persistNext (step page : Nat) (b : Block) : Block :=
  { b with
    arch := { b.arch with step := some step, page := page }
    outs := { b.outs with arCmd := some (persistCmd b.arch.toB step page) } }

/-- ARCHIVE_DONE (R119, R122): the next command of body, flush, header, flush. An error abandons the persist, and the
other slot stands. (DESIGN CHOICE, log 36.) -/
def archiveDone (status : Nat) (b : Block) : Block :=
  match b.arch.step with
  | none => b
  | some k =>
    if status ≠ 0 then
      coldProgress { b with
        arch := { b.arch with step := none, errors := b.arch.errors + 1 }
        outs := { b.outs with arCmd := none } }
    else if k = 0 then
      (if b.arch.page + 256 < ledgerPages then persistNext 0 (b.arch.page + 256) b else persistNext 1 ledgerPages b)
    else if k = 1 then persistNext 2 ledgerPages b
    else if k = 2 then persistNext 3 ledgerPages b
    else persistDone b
def execArchiveDone (status : BitVec 2) (s : State) : Host.Outcome State Fault Refusal := act (archiveDone status.toNat) s

/-- SHUTDOWN_REQUEST (R118): a running job stops, a capture is abandoned, the Ledger is persisted. (DESIGN CHOICE, log 36.) -/
def shutdownRequest (b : Block) : Block :=
  if b.env.shdnReq then b
  else
    let b := setIrqMisc 3 (b.modEnv (fun e => { e with shdnReq := true }))
    let b := hoEvent evShutdownReq [] (b.modSvc (fun s => { s with shutting := true }))
    let b := if b.inJob then originate .shutdown b else b
    startPersist (abandonCapture b)
def execShutdownRequest (s : State) : Host.Outcome State Fault Refusal := act shutdownRequest s

/-! ### Failures of W1's own units (R30, R87, R482) -/

/-- LOCKSTEP_DISAGREE (R30): SAFE with code LOCKSTEP. -/
def execLockstepDisagree (s : State) : Host.Outcome State Fault Refusal :=
  act (fun b => if b.svc.hoOn then enterSafe 2 b else b) s

/-- REF_LOST (R87): SAFE with code REF_LOST. (DESIGN CHOICE, log 32 and 37.) -/
def execRefLost (s : State) : Host.Outcome State Fault Refusal :=
  act (fun b => if b.svc.hoOn then enterSafe 4 b else b) s

/-- A trace entry is dropped (R482). Which one held the word is not an operand: a free word chooses it. (DESIGN CHOICE, log 17 and 38.) -/
def dropTrace (b : Block) : Block :=
  if b.dbg.trace.isEmpty then b
  else
    let w := freshWord b
    let k := w.1.toNat % b.dbg.trace.length
    let shift (x : Nat) : Nat := if k < x then x - 1 else x
    w.2.modDebug (fun d => { d with trace := d.trace.eraseIdx k, trig := d.trig.map shift, matched := d.matched.map shift })

/-- SRAM_UNCORRECTABLE (R481 to R483). (DESIGN CHOICE, log 146.) -/
def sramUncorrectable (m : SramUnit) (b : Block) : Block :=
  match m with
  | .letterbox core => if (b.core core.toNat).porN then failLetterbox core.toNat b else b
  | .office region member => if (b.office region.toNat).powered then failMember region.toNat (decide (member = 1)) b else b
  | .headOffice => if b.svc.hoOn then enterSafe 2 b else b
  | .courier n id =>
    match (b.courier n.toNat).xfers.find? (fun x => x.id = id.toNat) with
    | some x => xferEnd n.toNat x 1 b
    | none => b
  | .trace => dropTrace b
def execSramUncorrectable (mem : SramUnit) (s : State) : Host.Outcome State Fault Refusal := act (sramUncorrectable mem) s

/-! ### rs_host_done and the resets' bounds (R89, R90, R357, R360) -/

/-- HOST_DONE (R89, R362): the raised request ends; with none raised it is spurious. -/
def hostDone (b : Block) : Block :=
  if b.outs.coldReq then (b.modOuts (fun o => { o with coldReq := false })).modSvc (fun s => { s with hostDone := true })
  else if b.outs.warmReq then (b.modOuts (fun o => { o with warmReq := false })).modSvc (fun s => { s with hostDone := true })
  else hoEvent evSpuriousDone [] (b.modDebug (fun d => { d with spurious := d.spurious + 1 }))
def execHostDone (s : State) : Host.Outcome State Fault Refusal := act hostDone s

/-- EXTERNAL_RESET_REQUEST (R90, R361). -/
def execExternalResetRequest (s : State) : Host.Outcome State Fault Refusal := act (startCold 5) s

/-- HOST_WARM_TIMEOUT (R357): the request turns into a cold reset. -/
def hostWarmTimeout (b : Block) : Block :=
  if b.outs.warmReq then startCold 3 (hoEvent evHostWarmTimeout [] (advTo b.svc.resetDue b)) else b
def execHostWarmTimeout (s : State) : Host.Outcome State Fault Refusal := act hostWarmTimeout s

/-- HOST_COLD_TIMEOUT (R360): the request falls and OUT_OF_SERVICE is entered. A SAFE that the cold reset ended in stays: it
is left only through a cold reset (R30). (DESIGN CHOICE, log 40.) -/
def hostColdTimeout (b : Block) : Block :=
  if b.outs.coldReq then
    let b := hoEvent evHostColdTimeout [] ((advTo b.svc.resetDue b).modOuts (fun o => { o with coldReq := false }))
    if b.svc.state = .safe then b else enterOOS (b.modSvc (fun s => { s with reset := 0 }))
  else b
def execHostColdTimeout (s : State) : Host.Outcome State Fault Refusal := act hostColdTimeout s

/-- RESET_WINDOW_EXPIRY (R442): the oldest record leaves the window. -/
def resetWindowExpiry (b : Block) : Block :=
  if b.ho.resets.inWindow = 0 then b
  else
    let b := advTo b.rstExpiry b
    b.modResets (fun x => { x with inWindow := b.recordsIn x.warmAt })
def execResetWindowExpiry (s : State) : Host.Outcome State Fault Refusal := act resetWindowExpiry s

/-! ### Legs, identifiers, supplies (R116, R117, R144, R256) -/

/-- The unit whose node a leg ends at. -/
def legUnit (n : Nat) : Nat :=
  if n = 0 then unitHO else if n ≤ 16 then unitCourier (n - 1) else if n < 256 then unitOffice (n - 32) else unitRouter (n - 256)

/-- One background measurement: more than 0.5 ns from the applied offset is PM_DRIFT for the node (R144). (DESIGN CHOICE, log 32 and 38.) -/
def remeasure (l : LegSample) (b : Block) : Block :=
  let m := measureLeg l b
  let old := (tget b.pm.offsets l.node).getD 0
  let far := decide (old + 4 < m.1) || decide (m.1 + 4 < old)
  let b := m.2.modPm (fun p => { p with
    fresh := tset p.fresh l.node m.1
    drift := p.drift || far
    drifted := if far then (if p.drifted.contains l.node then p.drifted else p.drifted ++ [l.node]) else p.drifted.filter (· ≠ l.node) })
  if far then postEvent evPmDrift (legUnit l.node) [] b else b

/-- LEG_REMEASURE (R144): the fresh values apply at once outside a job, else when it ends. -/
def legRemeasure (legs : List LegSample) (b : Block) : Block :=
  if b.svc.pmOk then applyLegs (forEach legs remeasure b) else b
def execLegRemeasure (legs : List LegSample) (s : State) : Host.Outcome State Fault Refusal := act (legRemeasure legs) s

/-- POWER_ID_VALID (R117, R329, R335): identifiers are taken at a rise of pw_id_vld; a change while it is 1 also raises
POWER_ID_CHANGE, sends HELLO to every LIVE partner and judges the Holders again. -/
def powerIdValid (vld : Bool) (feed loop : BitVec 16) (rack : BitVec 24) (b : Block) : Block :=
  let changed := b.env.idVld && vld && (decide (feed ≠ b.svc.feed) || decide (loop ≠ b.svc.loop) || decide (rack ≠ b.svc.rack))
  let b := b.modEnv (fun e => { e with idVld := vld, feedIn := feed, loopIn := loop, rackIn := rack })
  let b := if vld then b.modSvc (fun s => { s with feed := feed, loop := loop, rack := rack }) else b
  if changed then
    let b := hoEvent evPowerIdChange [] b
    reselect (forEach ((b.ho.fleet.partners.filter (fun p => decide (p.2.state = 0))).map (·.1)) sendHello b)
  else b
def execPowerIdValid (vld : Bool) (feed loop : BitVec 16) (rack : BitVec 24) (s : State) : Host.Outcome State Fault Refusal :=
  act (powerIdValid vld feed loop rack) s

/-- A core misses its test window: TEST_WINDOW, and it reads FENCED without role (R256). A CORE_RESTORE of it ends. (DESIGN CHOICE, log 37 and 86.) -/
def missWindow (i : Nat) (b : Block) : Block :=
  let b := blockCore i 2 (modCtl i (fun c => { c with puStage := 0 }) (postEvent evTestWindow (unitCore i) [] b))
  if b.outOp 0x403 ∧ lnat (b.outAcc 0x403) 0 = i then finishOp 0x403 0x0602 0 (le 32 (lnat (b.outAcc 0x403) 1) ++ le 32 (lnat (b.outAcc 0x403) 2)) (dropUnits i .restore b)
  else b

/-- A mode 0 test on core i loses its supply; the third loss in a row ends its attempts (R116, R256). (DESIGN CHOICE, log 37.) -/
def loseVok (i : Nat) (b : Block) : Block :=
  match (b.core i).ctl.test with
  | none => b
  | some u =>
    if u.mode ≠ 0 ∨ ¬ u.requested ∨ u.lost then b
    else
      let b := modCtl i (fun c => { c with test := some { u with lost := true }, vokFalls := c.vokFalls + 1 }) b
      if 3 ≤ (b.core i).ctl.vokFalls ∧ ((b.core i).ctl.puStage = 1 ∨ u.trigger = .restore) then missWindow i b else b

/-- REGION_VOK_FALL (R116, R256): pw_rgn_vok of the region falls; `restored` says whether it has risen again. (DESIGN CHOICE, log 37 and 108.) -/
def regionVokFall (r : Nat) (restored : Bool) (b : Block) : Block :=
  let b := b.modEnv (fun e => { e with rgnVok := maskSet e.rgnVok r restored })
  forEach ((b.units.cores.filter (fun p => decide (regionOf p.1 = r))).map (·.1)) loseVok b
def execRegionVokFall (region : RegionIdx) (restored : Bool) (s : State) : Host.Outcome State Fault Refusal :=
  act (regionVokFall region.toNat restored) s

/-- TEST_WINDOW (R256): the window was not met within 100 ms of the core's test falling due. -/
def testWindow (i : Nat) (b : Block) : Block :=
  let c := b.core i
  let waits : Bool := match c.ctl.test with
    | none => decide (c.ctl.puStage = 1)
    | some u => decide (u.mode = 0) && !u.requested && decide (u.trigger = .restore)
  if waits ∧ ¬ b.windowOk i then
    missWindow i (modCtl i (fun x => { x with test := none }) (b.modOffice (regionOf i) (fun o => { o with
      running := match o.running with | some x => if x.core = i then none else some x | none => none })))
  else b
def execTestWindow (core : CoreIdx) (s : State) : Host.Outcome State Fault Refusal := act (testWindow core.toNat) s

end Sys2Proof.Machine
end

