-- ==== Sys2Proof/Machine/Arbiter.lean ====
section
/-! DEFINITION. What an Office makes of tile verdicts: canaries, the Loaded Die, promotions, comparisons, the Third Throw,
core summaries and the region verdict (05_residue_screening R183, R184, 06_duplicate_execution R194, R195, R202 to R214,
07_verdicts R219 to R226, R235). -/

namespace Sys2Proof.Machine

open Sys2Proof

def modSt (r : Nat) (f : OfficeStep → OfficeStep) (b : Block) : Block := b.modOffice r (fun o => { o with st := f o.st })
def modDice (r : Nat) (f : DiceSt → DiceSt) (b : Block) : Block := b.modOffice r (fun o => { o with dice := f o.dice })

/-- The Office of a region takes part in the step in flight: it serves, and no reload waits for the boundary (R27). -/
def Block.officeWorks (b : Block) (r : Nat) : Bool := b.officeOn r && !(b.office r).reload && b.ho.job.launched && b.ho.job.inSlot

/-- State of a core in the Board Map generation in force at the slot's launch (R192, R247). (DESIGN CHOICE, log 63.) -/
def Block.launchState (b : Block) (i : Nat) : CoreSt := ((tget b.ho.bm.published i).map (·.1)).getD (b.coreState i)
/-- Its role's tiles are neither verdicted nor sampled (R247). -/
def Block.unverdicted (b : Block) (i : Nat) : Bool := decide (b.launchState i = .unscreened)

/-! ### Messages in the cluster queues -/

/-- A core summary: it is told from a verdict message by its zero bits above 57 and its step number (R218, R219). (DESIGN CHOICE, log 62.) -/
def isSummary (step : Nat) (f : Flit) : Bool := decide (fld f.toNat 58 70 = 0) && decide (fld f.toNat 0 32 = step)

/-- The first packet of a cluster queue that a test admits, taken out. -/
def takeEvq (r c : Nat) (f : Packet → Bool) (b : Block) : Option (Packet × Block) :=
  (takeRx f ((tget (b.office r).evq c).getD [])).map (fun x => (x.1, b.modOffice r (fun o => { o with evq := tset o.evq c x.2 })))

/-! ### Promotions (R194, R195) -/

/-- A tile identifier lies in some window (R188). -/
def Block.windowOf (b : Block) (tid : Nat) : Option Nat :=
  (b.man.windows.find? (fun w => decide (w.tidLo ≤ tid) && decide (tid ≤ w.tidHi))).map (·.window)

/-- Order in which promotions are dropped: fewest remaining steps, then lower role, then lower identifier (R195). -/
def promoKey (p : Promo) : List Nat := [p.left, p.role, p.tid]

/-- The promotion that goes first. -/
def promoFirst (l : List Promo) : Option Promo :=
  l.foldl (fun (m : Option Promo) p => match m with | none => some p | some q => if keysLe (promoKey q) (promoKey p) then some q else some p) none

/-- DICE_DROP of a promotion. -/
def diceDrop (r : Nat) (b : Block) : Block :=
  postEvent evDiceDrop (unitOffice r) [] (modDice r (fun d => { d with drop := d.drop + 1 }) b)

/-- Promote a tile: a promotion held already starts its life again; a full list drops one (R194, R195). (DESIGN CHOICE, log 73.) -/
def promote (r role tid : Nat) (b : Block) : Block :=
  if (b.windowOf tid).isNone then b
  else
    let l := (b.office r).dice.promos
    let same (p : Promo) : Bool := decide (p.role = role) && decide (p.tid = tid)
    if l.any same then modDice r (fun d => { d with promos := l.map (fun p => if same p then { p with left := 4 } else p) }) b
    else
      let l := l ++ [⟨role, tid, 4⟩]
      if l.length ≤ 4096 then modDice r (fun d => { d with promos := l }) b
      else match promoFirst l with
      | some q => diceDrop r (modDice r (fun d => { d with promos := l.filter (fun p => decide (p ≠ q)) }) b)
      | none => b

/-! ### Plausibility (R183, R184) -/

/-- One canary of a core fires under its policy (R184). (DESIGN CHOICE, log 65.) -/
def canary (r i which : Nat) (b : Block) : Block :=
  let b := postEvent (evOutSpecial + which) (unitCore i) [] b
  match lnat b.ho.policy.canary which, b.roleOf i with
  | 1, some role => modSt r (fun s => { s with promoteRoles := if s.promoteRoles.contains role then s.promoteRoles else s.promoteRoles ++ [role] }) b
  | 2, some role => nameRole r role 5 (addReason r 5 b)
  | 2, none => addReason r 5 b
  | _, _ => b

/-- The plausibility byte of a verdict: histogram, band and counts (R182 to R184). -/
def plausible (r i tid plaus : Nat) (b : Block) : Block :=
  let tag := tid / 2 ^ 24
  let bucket := plaus % 16
  let band := (tget b.ho.policy.bands tag).getD (0, 15)
  let out := decide (bucket < band.1) || decide (band.2 < bucket)
  let b := b.modOffice r (fun o => { o with hist := tset o.hist (16 * tag + bucket) (sat 32 (tcnt o.hist (16 * tag + bucket) + 1)) })
  let b := modSt r (fun s => { s with roles :=
    (let x := (tget s.roles i).getD {}
     tset s.roles i { x with canary := (List.range 4).map (fun k => lnat x.canary k + b01 (bit plaus (4 + k))) }) }) b
  let b := forEach ((List.range 4).filter (fun k => bit plaus (4 + k))) (canary r i) b
  if out then canary r i 4 b else b

/-! ### The Loaded Die and checker bursts (R213, R214) -/

def endBurst (r i : Nat) (b : Block) : Block := b.modOffice r (fun o => { o with bursts := o.bursts.filter (fun x => x.core ≠ i) })

/-- A result inside a burst: 16 catches clear it, a miss fails the Letterbox (R214). -/
def burstResult (r i : Nat) (caught : Bool) (b : Block) : Block :=
  if ¬ caught then failLetterbox i (endBurst r i b)
  else
    let b := b.modOffice r (fun o => { o with bursts := o.bursts.map (fun (x : Burst) => if x.core = i then { x with caught := x.caught + 1 } else x) })
    if (b.office r).bursts.any (fun x => decide (x.core = i) && decide (16 ≤ x.caught)) then
      postEvent evCheckerTransient (unitCore i) [] (endBurst r i b)
    else b

/-- The step that a verdict's 16 low step bits name: the Office's own, or the latest one before it with those bits (R218). -/
def stepOf (step low : Nat) : Nat := if step % 65536 = low then step else step - (step + 65536 - low) % 65536

/-- The Office checks the planted bit of a verdict (R213). -/
def judgePlanting (r i step : Nat) (f : Nat) (b : Block) : Block :=
  let kind := fld f 69 3
  let check := fld f 67 2
  let planted := bit f 88
  let caught := bit f 89
  if kind ≠ 0 then (if planted then orderBurst i b else b)
  else match b.loadedDie i step (fld f 0 32) with
  | none => b
  | some (u, _) =>
    if (b.office r).bursts.any (fun x => decide (x.core = i)) then (if planted then burstResult r i caught b else b)
    else
      let draw := decide (u < b.ho.policy.thrLd.toNat)
      let differs := if check ≤ 1 then decide (planted ≠ draw) else planted && !draw
      if differs ∨ (planted ∧ ¬ caught) then orderBurst i b else b

/-! ### Outcomes (R203 to R209) -/

/-- Change the first placement that a test admits. -/
def modPlace (r : Nat) (f : Placement → Bool) (g : Placement → Placement) (b : Block) : Block :=
  modSt r (fun s => { s with places := s.places.map (fun p => if f p then g p else p) }) b

def samePlace (role tid : Nat) (p : Placement) : Bool := decide (p.role = role) && decide (p.tid = tid)

/-- Close a comparison with an outcome (codes of `DiceSt.outcomes`). -/
def closePlace (r role tid code : Nat) (b : Block) : Block :=
  modDice r (fun d => { d with outcomes := tadd d.outcomes code 1 }) (modPlace r (samePlace role tid) (fun p => { p with closed := true }) b)

/-- The Office's verdict replaces the tile's (R248). -/
def amend (r role tid : Nat) (v : Verdict) (b : Block) : Block :=
  modSt r (fun s => { s with tiles := s.tiles.map (fun (x : TileRec) => if x.role = role ∧ x.tid = tid then { x with verdict := v } else x) }) b

/-- The charge of a residue mismatch on an own tile: with STAMP_ALSO the combined one (R204, R229). (DESIGN CHOICE, log 66.) -/
def residuePips (x : TileRec) : Nat := if x.stampAlso then 56 else 48

/-- The charge that a Letterbox's own verdict makes (R229). (DESIGN CHOICE, log 65.) -/
def ownCharge (x : TileRec) (b : Block) : Block :=
  match x.verdict with
  | .mismatchResidue => charge x.core (residuePips x) b
  | .mismatchStamp => charge x.core 8 b
  | _ => b

/-- The known-answer tests of a convicted core (R209, R264). (DESIGN CHOICE, log 66.) -/
def convict (r i tid : Nat) (b : Block) : Block :=
  match b.cfg with
  | none => b
  | some g =>
    let elem := ((b.office r).st.notes.find? (fun n => decide (n.core = i) && decide (n.tid = tid))).map (·.elem)
    let fits := (List.range g.kats.length).filter (fun k => decide (elem = some (fElem (g.kats.getD k {}).inFmt)))
    forEach (if fits.isEmpty then [b.lowKat] else fits) (fun k b => queueUnit r (b.unit i 3 k .conviction) b) b

/-- OPERANDS_SUSPECT: a bank test of the source core. The message names no bank: a free word chooses it (R208). (DESIGN CHOICE, log 17 and 64.) -/
def operandsSuspect (r src : Nat) (b : Block) : Block :=
  let b := postEvent evOperandsSuspect (unitCore src) [] b
  let w := freshWord b
  let banks := match b.cfg with | some g => g.bankSigs.length | none => 1
  queueUnit r (w.2.unit src 2 (w.1.toNat % banks) .operands) w.2

/-- Launch-relative reads of the slot with the shifts of its stops (R205, R459). -/
def Block.readAt (b : Block) (off : Nat) : Nat :=
  b.ho.job.shifts.foldl (fun t s => if s.1 ≤ t then t + s.2 else t) (b.ho.job.slotAt + off)

/-- The read lies at least 2,000 ticks ahead: a stop now in force moves it beyond any such bound (R205, R458). (DESIGN CHOICE, log 64.) -/
def Block.readAhead (b : Block) (off : Nat) : Bool :=
  decide (b.now + 2000 ≤ b.readAt off) || (b.stop.stopped && decide (b.stop.lastAt.toNat ≤ b.readAt off))

/-- The referee slot of R205 for a placement, with its core. -/
def Block.refereeFor (b : Block) (r : Nat) (p : Placement) : Option (SlotRec × Nat) :=
  let used := (b.office r).st.refUsed
  let ok (x : SlotRec) : Option (SlotRec × Nat) :=
    if x.referee ∧ x.window = p.window ∧ x.role ≠ p.role ∧ x.role ≠ p.shRole ∧ ¬ used.contains (x.role, x.slot) ∧ b.readAhead x.readOffset then
      (match b.coreOf x.role with | some i => if b.unverdicted i then none else some (x, i) | none => none)
    else none
  ((sortBy (fun (x y : SlotRec × Nat) => keysLe [x.1.readOffset, x.1.role, x.1.slot] [y.1.readOffset, y.1.role, y.1.slot])
    (b.man.slots.filterMap ok))).head?

/-- A descriptor as R67 and R197 send it: the entry in the low 64 bits and its slot number above. -/
def descFlit (tid src kind slot : Nat) : Flit := BitVec.ofNat 128 (packF [(0, tid), (32, src), (52, kind), (64, slot)])

/-- A comparison ends unresolved: the tile is MISMATCH_DUPLICATE and no core is charged (R207, R210). -/
def unresolved (r : Nat) (p : Placement) (b : Block) : Block := closePlace r p.role p.tid 12 (amend r p.role p.tid .mismatchDuplicate b)

/-- Give a placement its referee slot: a descriptor of kind 2 goes there; with none, UNRESOLVED (R205, R206). -/
def throwRef (r : Nat) (p : Placement) (b : Block) : Block :=
  match b.refereeFor r p with
  | none => unresolved r p (modPlace r (samePlace p.role p.tid) (fun q => { q with ref := none }) b)
  | some (x, i) =>
    let b := modSt r (fun s => { s with refUsed := s.refUsed ++ [(x.role, x.slot)] }) b
    if p.ref = some (x.role, x.slot) then b
    else
      let b := modPlace r (samePlace p.role p.tid) (fun q => { q with ref := some (x.role, x.slot) }) b
      sendPkt (unitOffice r) (unitCore i) 0 0x02 0x02 (b.core i).net.epoch.toNat false [descFlit p.tid p.refSrc 2 x.slot] b

/-- Placements whose Third Throw was decided at this count, the lower role and then the lower identifier first (R206). -/
def Block.throwsNow (b : Block) (r : Nat) : List Placement :=
  sortBy (fun (x y : Placement) => keysLe [x.role, x.tid] [y.role, y.tid])
    ((b.office r).st.places.filter (fun p => decide (p.refAt = some b.now) && !p.closed && !p.abandoned))

/-- Third Throw (R205, R206): decisions at one count take their referee slots in the order of role and identifier, so a slot
given earlier at the same count is given again. A descriptor that has left already is followed by the new one. (DESIGN CHOICE, log 136.) -/
def thirdThrow (r src : Nat) (twoWay : Bool) (p : Placement) (b : Block) : Block :=
  let b := modPlace r (samePlace p.role p.tid) (fun q => { q with twoWay := twoWay, refSrc := src, refAt := some b.now }) b
  let group := b.throwsNow r
  let held := group.filterMap (·.ref)
  forEach group (throwRef r) (modSt r (fun s => { s with refUsed := s.refUsed.filter (fun x => !held.contains x) }) b)

/-- A referee descriptor written in the cycle in which its slot was read: the slot is unusable and the next one serves, or
the comparison ends UNRESOLVED (R215). -/
def missedReferee (r role slot : Nat) (b : Block) : Block :=
  match (b.office r).st.places.find? (fun p => decide (p.ref = some (role, slot)) && !p.closed && !p.abandoned) with
  | some p => throwRef r { p with ref := none } b
  | none => b

/-- SHADOW_DESCRIPTOR_READ (R67, R68): the entry appears on ct_shd_desc; one never written reads as kind 0. `clash` says that
the entry was written in the cycle of the read: the read returns the earlier content, kind 0, and a referee's slot that is
missed so gives way to the next (R215). -/
def shadowRead (i slot : Nat) (clash : Bool) (b : Block) : Block :=
  if ¬ (b.core i).lbOn then b
  else
    let w := (tget (b.core i).scr.desc slot).getD 0
    let d := if clash then 0 else w
    let b := match b.roleOf i with
      | some role => if clash ∧ fld w.toNat 52 3 = 2 then missedReferee (regionOf i) role slot b else b
      | none => b
    let b := modPins i (fun p => { p with shdDesc := d }) b
    if fld d.toNat 52 3 = 0 then bumpCtr i 0x0009 1 b
    else modScr i (fun s => { s with reads := s.reads ++ [(slot, d)] }) b
def execShadowDescriptorRead (core : CoreIdx) (read : DescRead) (s : State) : Host.Outcome State Fault Refusal :=
  act (shadowRead core.toNat read.slot.toNat read.clash) s

/-- R203: both digests are there. (DESIGN CHOICE, log 66.) -/
def decidePair (r : Nat) (p : Placement) (o s : TileRec) (b : Block) : Block :=
  let eq := decide (o.digest = s.digest)
  let fin (code : Nat) (b : Block) : Block := closePlace r p.role p.tid code b
  let stamps (b : Block) : Block := charge o.core 8 (charge s.core 8 b)
  let residue (b : Block) : Block := charge o.core (residuePips o) b
  match o.check, s.check with
  | .t, _ => fin 0 (charge o.core 8 b)
  | .p, .t => fin 1 (stamps b)
  | .f, .t => fin 1 (stamps (residue b))
  | .n, .t => thirdThrow r o.core true p (stamps b)
  | .f, .f =>
    if eq then
      fin 5 (postEvent evDeclarationSuspect (unitCore o.core) [] (modSt r (fun st => { st with tiles := st.tiles.map (fun (x : TileRec) =>
        if x.role = p.role ∧ x.tid = p.tid then { x with noName := true } else x) }) b))
    else fin 8 (convict r s.core p.tid (convict r o.core p.tid (charge s.core 48 (residue b))))
  | .f, _ => if eq then fin 3 (orderBurst o.core (amend r p.role p.tid .clean b)) else fin 7 (convict r o.core p.tid (residue b))
  | _, .f => if eq then fin 4 (orderBurst s.core b) else fin 6 (convict r s.core p.tid (charge s.core 48 b))
  | _, _ => if eq then fin 2 b else thirdThrow r o.core false p b

/-- R207 and R208: the referee's result is there. (DESIGN CHOICE, log 64.) -/
def decideReferee (r : Nat) (p : Placement) (o s x : TileRec) (b : Block) : Block :=
  let fin (code : Nat) (b : Block) : Block := closePlace r p.role p.tid code b
  let dup (b : Block) : Block := amend r p.role p.tid .mismatchDuplicate b
  let side (b : Block) : Block := match x.check with | .f => orderBurst x.core b | _ => b
  match x.check with
  | .t => fin 11 (dup (charge o.core 8 (charge x.core 8 b)))
  | c =>
    if p.twoWay then (if x.digest = o.digest then fin 2 (side b) else unresolved r p b)
    else if x.digest = o.digest then fin 6 (side (convict r s.core p.tid (charge s.core 96 b)))
    else if x.digest = s.digest then fin 7 (side (convict r o.core p.tid (charge o.core 96 (dup b))))
    else match c with
    | .f => fin 10 (convict r x.core p.tid (charge x.core 48 (dup b)))
    | _ => fin 9 (operandsSuspect r o.core (dup b))

/-! ### Filing a verdict (R202) -/

/-- Open comparisons of the Office (R202). (DESIGN CHOICE, log 65.) -/
def openCount (s : OfficeStep) : Nat :=
  (s.places.filter (fun p => (p.orig.isSome || p.shadow.isSome) && !p.closed && !p.abandoned)).length

/-- DICE_SHORT: n tiles without their comparison or slot (R196, R202). -/
def diceShort (r n : Nat) (b : Block) : Block :=
  if n = 0 then b else postEventN evDiceShort b.now (unitOffice r) n [] (modDice r (fun d => { d with short := d.short + n }) b)

/-- One side of a placed tile arrives: decided when both are there; the first opens the entry, unless the table is full. (DESIGN CHOICE, log 65.) -/
def pairArrives (r : Nat) (p : Placement) (b : Block) : Block :=
  match p.orig, p.shadow with
  | some o, some s => decidePair r p o s b
  | o, _ =>
    if 8192 < openCount (b.office r).st then
      let b := diceShort r 1 (modPlace r (samePlace p.role p.tid) (fun q => { q with abandoned := true }) b)
      match o with | some x => ownCharge x b | none => b
    else b

/-- Codes of R217 and R201 as read from a message. -/
def verdictOfCode (c : Nat) : Verdict :=
  match c with
  | 0 => .clean | 1 => .mismatchResidue | 2 => .mismatchStamp | 3 => .mismatchDuplicate | 4 => .uncheckable | _ => .late
def checkOfCode (c : Nat) : Check := match c with | 0 => .p | 1 => .f | 2 => .t | _ => .n

/-- A message as the Office files it. -/
def recOf (role i f : Nat) (also : Bool) : TileRec :=
  { role := role
    core := i
    tid := fld f 0 32
    digest := BitVec.ofNat 32 (fld f 32 32)
    verdict := verdictOfCode (fld f 64 3)
    check := checkOfCode (fld f 67 2)
    kind := fld f 69 3
    slot := fld f 72 8
    stampAlso := also }

/-- An own tile's verdict. -/
def fileOwn (r : Nat) (x : TileRec) (b : Block) : Block :=
  let b := modSt r (fun s => { s with
    tiles := s.tiles ++ [x]
    roles := (let y := (tget s.roles x.core).getD {}; tset s.roles x.core { y with msgs := y.msgs + 1 }) }) b
  let b := match x.verdict with | .uncheckable => promote r x.role x.tid b | _ => b
  match (b.office r).st.places.find? (fun p => samePlace x.role x.tid p && !p.abandoned && !p.closed) with
  | none => ownCharge x b
  | some p =>
    let b := modPlace r (samePlace x.role x.tid) (fun q => { q with orig := some x }) b
    pairArrives r { p with orig := some x } b

/-- A recomputation's verdict, found by its slot and identifier. -/
def fileShadow (r : Nat) (x : TileRec) (b : Block) : Block :=
  match (b.office r).st.places.find? (fun p => decide (p.shRole = x.role) && decide (p.shSlot = x.slot) && decide (p.tid = x.tid) && !p.abandoned && !p.closed && p.shadow.isNone) with
  | none => b
  | some p =>
    let b := modPlace r (samePlace p.role p.tid) (fun q => { q with shadow := some x }) b
    pairArrives r { p with shadow := some x } b

/-- A referee's verdict. -/
def fileReferee (r : Nat) (x : TileRec) (b : Block) : Block :=
  match (b.office r).st.places.find? (fun p => decide (p.ref = some (x.role, x.slot)) && decide (p.tid = x.tid) && !p.closed) with
  | some p => (match p.orig, p.shadow with | some o, some s => decideReferee r p o s x b | _, _ => b)
  | none => b

/-- File a verdict message of the step in progress. -/
def fileStep (r i f : Nat) (b : Block) : Block :=
  match b.roleOf i with
  | none => b
  | some role =>
    let note := (b.office r).st.notes.find? (fun n => decide (n.core = i) && decide (n.tid = fld f 0 32) && decide (n.kind = fld f 69 3))
    let b := if note.any (·.special) ∧ fld f 64 3 = 4 then
        modSt r (fun s => { s with roles := (let y := (tget s.roles i).getD {}; tset s.roles i { y with special := y.special + 1 }) }) b
      else b
    let x := recOf role i f (note.any (·.also))
    match x.kind with
    | 0 => fileOwn r x b
    | 1 => fileShadow r x b
    | 2 => fileReferee r x b
    | _ => b

/-- A message is a core summary of another step, which nothing waits for any more. (DESIGN CHOICE, log 62.) -/
def lateSummary (step f : Nat) : Bool := decide (fld f 58 70 = 0) && decide (step % 65536 ≠ 0)

/-- A tile verdict message of core i: its plausibility and its Loaded Die draw are checked whenever it comes, and it is filed
while its step is collected (R183, R213, R226). (DESIGN CHOICE, log 62.) -/
def fileVerdict (r i f : Nat) (b : Block) : Block :=
  let step := (b.office r).st.step
  if lateSummary step f ∨ b.unverdicted i then b
  else
    let b := plausible r i (fld f 0 32) (fld f 80 8) b
    let b := judgePlanting r i (stepOf step (fld f 96 16)) f b
    if ¬ b.officeWorks r ∨ (b.office r).st.sent ∨ fld f 96 16 ≠ step % 65536 then b else fileStep r i f b

/-- OFFICE_VERDICT_RECEIVE (R203). -/
def officeVerdict (r c : Nat) (b : Block) : Block :=
  if ¬ b.officeOn r then b
  else
    let step := (b.office r).st.step
    match takeEvq r c (fun p => decide (hSvc p.hdr = 0x01) && !isSummary step (p.pl.headD 0)) b with
    | none => b
    | some (p, b) => if b.deadPkt p then deadLetter 20 b else fileVerdict r (pathUnit (hSrc p.hdr)) (p.pl.headD 0).toNat b
def execOfficeVerdictReceive (region : RegionIdx) (cluster : BitVec 7) (s : State) : Host.Outcome State Fault Refusal :=
  act (officeVerdict region.toNat cluster.toNat) s

/-- CORE_SUMMARY_RECEIVE (R219): the count and status of a core's step slot. -/
def summaryReceive (r c : Nat) (b : Block) : Block :=
  if ¬ b.officeWorks r then b
  else
    let step := (b.office r).st.step
    match takeEvq r c (fun p => decide (hSvc p.hdr = 0x01) && isSummary step (p.pl.headD 0)) b with
    | none => b
    | some (p, b) =>
      let i := pathUnit (hSrc p.hdr)
      let f := (p.pl.headD 0).toNat
      if (b.office r).st.sent ∨ b.unverdicted i then b
      else
        let b := modSt r (fun s => { s with roles := (let y := (tget s.roles i).getD {}; tset s.roles i { y with summary := some (fld f 32 24, fld f 56 2) }) }) b
        if fld f 56 2 = 0 then b else addReason r 4 b
def execCoreSummaryReceive (region : RegionIdx) (cluster : BitVec 7) (s : State) : Host.Outcome State Fault Refusal :=
  act (summaryReceive region.toNat cluster.toNat) s

end Sys2Proof.Machine
end

