-- ==== Sys2Proof/Machine/Verdicts.lean ====
section
/-! DEFINITION. From tiles to a step: the wait-for graph, the region verdict, records at the Head Office, the step decision
and the parcel vote (07_verdicts R219 to R228, R235, R236, R247, 11_startup R351 to R353, R361, 12_parcels R376). -/

namespace Sys2Proof.Machine

open Sys2Proof

/-- A stop that fell before T_end is in force: T_end is not known until it resumes (R459). -/
def Block.tEndHeld (b : Block) : Bool := b.stop.stopped && decide (b.stop.lastAt.toNat < b.tEnd)

/-- A step slot is in progress and not yet decided. -/
def Block.undecided (b : Block) : Bool := b.ho.job.launched && b.ho.job.inSlot && !b.ho.job.decided && b.hoRuns

/-! ### STALL and WAIT_UPDATE at the Head Office (R351, R461) -/

/-- STALL_EVENT_RECEIVE (R351, R461): the Office forwards the packet to the Head Office, ahead of other events. -/
def stallReceive (r c : Nat) (b : Block) : Block :=
  if ¬ b.officeWorks r then b
  else match takeEvq r c (fun p => decide (hSvc p.hdr = 0x08)) b with
  | none => b
  | some (p, b) => unicast (unitOffice r) unitHO 0x08 p.pl b
def execStallEventReceive (region : RegionIdx) (cluster : BitVec 7) (s : State) : Host.Outcome State Fault Refusal :=
  act (stallReceive region.toNat cluster.toNat) s

/-! ### The wait-for graph (R351 to R353) -/

/-- How a chain of waits ends (R352). -/
inductive ChainEnd where
  | deadlock (root : Nat)
  | hung (root : Nat)
  | peerSilent (root : Nat)
  | silent (root : Nat)
  | external (port : Nat)
  deriving DecidableEq, Repr

/-- Roles that stalled in the slot. -/
def stalledRoles (l : List StallRec) : List Nat := dedup ((l.filter (fun s => !s.update)).map (·.role))
/-- Count of a role's STALL. -/
def stallCount (l : List StallRec) (role : Nat) : Nat := ((l.find? (fun s => decide (s.role = role) && !s.update)).map (·.pm)).getD 0
/-- Latest descriptor of a role. -/
def latestDesc (l : List StallRec) (role : Nat) : Option (Nat × Nat) :=
  (l.foldl (fun (m : Option StallRec) s => if s.role ≠ role then m else match m with
    | none => some s
    | some x => if x.pm ≤ s.pm then some s else some x) none).bind (·.desc)

/-- A role that did not stall sent a summary or an event this slot (R352). (DESIGN CHOICE, log 68.) -/
def Block.talked (b : Block) (role : Nat) : Bool :=
  match b.coreOf role with
  | none => false
  | some i => (((tget (b.office (regionOf i)).st.roles i).getD {}).summary).isSome || decide ((b.core i).time.status ≠ 0)

/-- The member of a cycle that is its root: the earliest STALL, then the lowest role (R352). -/
def cycleRoot (l : List StallRec) (rs : List Nat) : Nat :=
  (sortBy (fun a c => keysLe [stallCount l a, a] [stallCount l c, c]) rs).headD 0

/-- Follow a chain of edges from a stalled role, with the roles already passed. -/
def chainEnd (b : Block) (l : List StallRec) : Nat → List Nat → Nat → ChainEnd
  | 0, _, role => .hung role
  | n + 1, seen, role =>
    if seen.contains role then .deadlock (cycleRoot l (role :: seen.takeWhile (fun x => decide (x ≠ role))))
    else match latestDesc l role with
    | none => .hung role
    | some (chan, peer) =>
      if (match b.cfg with | some g => decide (g.extChanBase ≤ chan) | none => false) then .external (peer % 16)
      else if (stalledRoles l).contains peer then chainEnd b l n (role :: seen) peer
      else if b.talked peer then .peerSilent role
      else .silent peer

def rootOf : ChainEnd → Option Nat
  | .deadlock r => some r
  | .hung r => some r
  | .peerSilent r => some r
  | .silent r => some r
  | .external _ => none

/-- An external sink: INGRESS_STALL, EGRESS_STALL or IO_STALL with the port index. The manual gives no map from channel to
kind: a free word chooses. (DESIGN CHOICE, log 17 and 68.) -/
def externalStall (port : Nat) (b : Block) : Block :=
  let w := freshWord b
  hoEvent (match w.1.toNat % 3 with | 0 => evIngressStall | 1 => evEgressStall | _ => evIoStall) [BitVec.ofNat 8 port] w.2

/-- A root is charged and sent to its Office (R353). -/
def sendRoot (role : Nat) (b : Block) : Block :=
  match b.coreOf role with
  | none => b
  | some i => charge i 32 (modSt (regionOf i) (fun s => { s with roots := s.roots ++ [role] }) b)

/-- WAFER_HANG (R361): the second slot in a row in which more than half the working roles stall. (DESIGN CHOICE, log 43.) -/
def hangTest (stalled : Nat) (ends : List ChainEnd) (b : Block) : Block :=
  let hard := ends.any (fun e => match e with | .external _ => false | .silent _ => false | _ => true)
  let hang := decide (b.workRoles.length < 2 * stalled) && !hard
  let b := b.modJob (fun j => { j with hangs := if hang then j.hangs + 1 else 0 })
  if 2 ≤ b.ho.job.hangs then
    let b := hoEvent evWaferHang [] (b.modJob (fun j => { j with hangs := 0 }))
    if b.ho.policy.autoWarm ∧ b.svc.state = .job then startWarm 2 b else b
  else b

/-- WAIT_GRAPH_BUILD (R351 to R353, R361): at T_end + 2,000. (DESIGN CHOICE, log 82.) -/
def waitGraph (b : Block) : Block :=
  if ¬ b.undecided ∨ b.ho.job.graphed ∨ b.tEndHeld then b
  else
    let b := advTo (b.tEnd + 2000) b
    let l := b.ho.job.stalls
    let stalled := stalledRoles l
    let ends := stalled.map (fun role => chainEnd b l (stalled.length + 1) [] role)
    let roots := dedup (ends.filterMap rootOf)
    let ports := dedup (ends.filterMap (fun e => match e with | .external p => some p | _ => none))
    let b := b.modJob (fun j => { j with graphed := true })
    let b := forEach ports externalStall b
    let b := forEach roots sendRoot b
    let b := forEach (stalled.filter (fun x => !roots.contains x)) (fun role b => match b.coreOf role with
      | some i => modSt (regionOf i) (fun s => { s with downstream := s.downstream ++ [role] }) b
      | none => b) b
    hangTest stalled.length ends b
def execWaitGraphBuild (s : State) : Host.Outcome State Fault Refusal := act waitGraph s

/-! ### The region verdict (R210, R219, R225, R226, R235) -/

/-- The shadow's core was fenced, or a stop fell in the slot (R210). -/
def Block.shadowExcused (b : Block) (p : Placement) : Bool :=
  !b.ho.job.shifts.isEmpty || (match b.coreOf p.shRole with
    | some i => !(b.core i).pins.fenceN || (match b.coreState i with | .fenced => true | .retired => true | _ => false)
    | none => true)

/-- A role is LATE (R219): reason LATE, and named unless it is downstream of a root (R353). -/
def lateRole (r role : Nat) (b : Block) : Block :=
  let b := addReason r 3 b
  if (b.office r).st.downstream.contains role then b else nameRole r role 3 b

/-- The core's role is neither LATE nor relocated: its tiles are not verdicted, or it became UNSCREENED in the slot (R247). -/
def Block.lateExempt (b : Block) (i : Nat) : Bool := b.unverdicted i || decide (b.coreState i = .unscreened)

/-- Settle an entry that is still open at the deadline (R210). -/
def settlePlace (r : Nat) (p : Placement) (b : Block) : Block :=
  if p.closed ∨ p.abandoned then b
  else match p.orig, p.shadow with
  | some _, some _ => unresolved r p b
  | some o, none =>
    let b := ownCharge o (closePlace r p.role p.tid 13 b)
    if b.shadowExcused p then b else postEvent evShadowMissing (match b.coreOf p.shRole with | some i => unitCore i | none => unitOffice r) [] b
  | none, some _ =>
    let b := modPlace r (samePlace p.role p.tid) (fun q => { q with closed := true }) b
    if (b.coreOf p.role).any b.lateExempt then b else lateRole r p.role b
  | none, none => b

/-- LATE of a role's step: no summary, another count, or messages missing (R219). The role of an UNSCREENED core is exempt,
also in the slot in which its Letterbox failed (R247). -/
def lateCheck (r role : Nat) (b : Block) : Block :=
  match b.coreOf role with
  | none => b
  | some i =>
    if b.lateExempt i then b
    else
      let x := (tget (b.office r).st.roles i).getD {}
      let late : Bool := match x.summary with
        | none => true
        | some (n, _) => decide (n ≠ b.declTiles role) || decide (x.msgs < n)
      if late then lateRole r role b else b

/-- The role that a tile's final verdict names, and the reason it sets (R220, R235). -/
def foldTile (r : Nat) (x : TileRec) (b : Block) : Block :=
  match x.verdict with
  | .mismatchResidue => (if x.noName then id else nameRole r x.role 1) (addReason r 0 b)
  | .mismatchStamp => addReason r 1 b
  | .mismatchDuplicate => nameRole r x.role 2 (addReason r 2 b)
  | .late => lateRole r x.role b
  | _ => b

/-- Number of tiles with a verdict that a test admits. -/
def countV (l : List TileRec) (f : Verdict → Bool) : Nat := (l.filter (fun x => f x.verdict)).length

/-- The two flits of a region record (R226). -/
def recordFlits (b : Block) (r : Nat) : List Flit :=
  let st := (b.office r).st
  let sum := st.tiles.foldl (fun a x => (a + x.digest.toNat) % 2 ^ 32) 0
  let bad (v : Verdict) : Bool := match v with | .mismatchResidue => true | .mismatchStamp => true | .mismatchDuplicate => true | _ => false
  let unch (v : Verdict) : Bool := match v with | .uncheckable => true | _ => false
  let uns := (b.ho.bm.roles.filter (fun p => decide (regionOf p.1 = r) && decide (b.coreState p.1 = .unscreened))).length
  [BitVec.ofNat 128 (packF [(0, st.step), (32, st.reasons.toNat % 256), (64, sum), (96, st.tiles.length)]),
   BitVec.ofNat 128 (packF [(0, countV st.tiles bad), (24, countV st.tiles unch), (48, (dedup (st.named.map (·.1))).length), (64, uns)])]

/-- The Office closes its step: open comparisons are settled, LATE and the named roles follow, and the record leaves. -/
def formRecord (r : Nat) (b : Block) : Block :=
  let b := advTo (b.tEnd + 8000) b
  let b := forEach (b.office r).st.places (settlePlace r) b
  let b := forEach (b.regionRoles r) (lateCheck r) b
  let b := forEach (b.office r).st.tiles (foldTile r) b
  let st := (b.office r).st
  let b := modSt r (fun s => { s with named := s.named.filter (fun x => !(decide (x.2 = 4) && st.downstream.contains x.1)) }) b
  let b := forEach st.roots (fun role b => nameRole r role 4 b) b
  let fl := recordFlits b r
  let b := modSt r (fun s => { s with sent := true, reasons := 0 }) b
  if maskBit st.reasons 10 then b else unicast (unitOffice r) unitHO 0x10 fl b

/-- REGION_VERDICT_DEADLINE (R225): at D_r. An Office whose primary failed in the slot has no complete verdict to send (R26). (DESIGN CHOICE, log 82.) -/
def regionVerdict (r : Nat) (b : Block) : Block :=
  if ¬ b.officeWorks r ∨ (b.office r).st.sent ∨ b.ho.job.decided ∨ b.tEndHeld then b
  else
    let b := if b.ho.job.graphed then b else waitGraph b
    if b.officeWorks r then formRecord r b else b
def execRegionVerdictDeadline (region : RegionIdx) (s : State) : Host.Outcome State Fault Refusal :=
  act (regionVerdict region.toNat) s

/-! ### Records at the Head Office (R98, R226) -/

/-- The next packet of a service in the Head Office's buffer, after its end-to-end checks (R287). -/
def takeHo (svc : Nat) (b : Block) : Option (Packet × Block) :=
  match takeRx (fun p => decide (hSvc p.hdr = svc) && decide (hPtype p.hdr = 0)) b.ho.post.net.rx with
  | none => none
  | some (p, rest) => some (p, b.modPost (fun c => { c with net := { c.net with rx := rest } }))

/-- REGION_RECORD_RECEIVE (R226). -/
def regionRecord (b : Block) : Block :=
  if ¬ b.hoRuns then b
  else match takeHo 0x10 b with
  | none => b
  | some (p, b) =>
    match e2eBad p with
    | some why => e2eDrop unitHO why b
    | none =>
      if b.deadPkt p then deadLetter 20 b else
      let f0 := (p.pl.getD 0 0).toNat
      let f1 := (p.pl.getD 1 0).toNat
      let x : RegionRec := {
        region := unitIndex (pathUnit (hSrc p.hdr))
        step := fld f0 0 32
        reasons := BitVec.ofNat 32 (fld f0 32 32)
        digestSum := BitVec.ofNat 32 (fld f0 64 32)
        tileCount := fld f0 96 32
        mismatch := fld f1 0 24
        unchk := fld f1 24 24
        suspects := fld f1 48 16
        unscreened := fld f1 64 16 }
      if b.undecided ∧ x.step = b.ho.job.step then
        b.modJob (fun j => { j with recs := j.recs.filter (fun y => y.region ≠ x.region) ++ [x] })
      else b
def execRegionRecordReceive (s : State) : Host.Outcome State Fault Refusal := act regionRecord s

/-- EGRESS_SUMMARY_RECEIVE (R98, R99). -/
def egressReceive (b : Block) : Block :=
  if ¬ b.hoRuns then b
  else match takeHo 0x14 b with
  | none => b
  | some (p, b) =>
    match e2eBad p with
    | some why => e2eDrop unitHO why b
    | none =>
      if b.deadPkt p then deadLetter 20 b else
      let f := (p.pl.getD 0 0).toNat
      let x : EgressRec := ⟨unitIndex (pathUnit (hSrc p.hdr)), fld f 0 32, bit f 96⟩
      if b.undecided ∧ x.step = b.ho.job.step then
        b.modJob (fun j => { j with egress := j.egress.filter (fun y => y.n ≠ x.n) ++ [x] })
      else b
def execEgressSummaryReceive (s : State) : Host.Outcome State Fault Refusal := act egressReceive s

/-! ### The step decision (R220, R223, R227, R228, R236, R247) -/

/-- A region without an Office whose working roles were all UNSCREENED at the launch: it sends no record, and its cores count
as those of failed Letterboxes (R28, R247). (DEDUCED, log 137.) -/
def Block.silentRegion (b : Block) (r : Nat) : Bool :=
  (b.office r).dead && b.ho.bm.roles.all (fun p => decide (regionOf p.1 ≠ r) || b.unverdicted p.1)

/-- The Head Office's own reasons: REGION, EGRESS and STOP (R220). (DESIGN CHOICE, log 67.) -/
def Block.ownReasons (b : Block) : BitVec 32 :=
  let got (r : Nat) : Bool := b.ho.job.recs.any (fun x => decide (x.region = r)) || b.silentRegion r
  let m := b.ho.job.hoReasons
  let m := if b.popRegions.all got then m else maskSet m 10 true
  let clean (n : Nat) : Bool := b.ho.job.egress.any (fun x => decide (x.n = n) && x.clean)
  if (List.range 16).all (fun n => !(b.courier n).tapsOn || clean n) then m else maskSet m 8 true

/-- The step digest (R227). With a record missing the manual gives none: free words stand for it. (DESIGN CHOICE, log 17 and 67.) -/
def stepDigest (b : Block) : BitVec 128 × Block :=
  let recs := b.popRegions.map (fun r => match b.ho.job.recs.find? (fun x => decide (x.region = r)) with
    | some x => some x
    | none => if b.silentRegion r then some { region := r } else none)
  if recs.all (·.isSome) then
    let bytes := le 2 b.ledger.epoch ++ le 4 b.ho.job.step ++ recs.flatMap (fun x => match x with
      | some y => le 4 y.digestSum.toNat ++ le 4 y.tileCount
      | none => [])
    (BitVec.ofNat 128 (ofLe ((sha384 bytes).take 16)), b)
  else
    let w := freshWord b
    let v := freshWord w.2
    (w.1 ++ v.1, v.2)

/-- The conditions of a parcel vote, each with the event of its failure (R376). -/
def Block.voteConds (b : Block) (frank : Bool) : List (Bool × Nat) :=
  let p := b.ho.parcel
  [(frank, evParcelNotFranked),
   (b.ho.job.fills.all (fun f => decide (6 ≤ f.phase)), evParcelFillBusy),
   (p.base1.isSome && p.base2.isSome, evParcelNoHolder),
   ((match b.tMin with | some t => decide (t ≤ b.ho.policy.tStop) | none => false), evParcelTooSlow),
   (!p.committing, evParcelCommitBusy)]

/-- The parcel vote at D_h, once a due count has passed (R376). A later due count takes the place of one that still waits, and
one whose attempts are spent is skipped (R376, R395). (DEDUCED, log 117.) -/
def parcelVote (frank : Bool) (b : Block) : Block :=
  let iv := b.ho.policy.interval * 60000000000
  let m := if iv = 0 then 0 else b.now / iv * iv
  let b := if b.ho.parcel.served < m then
      (if b.ho.parcel.due.isSome then skipDue b else b).modParcel (fun p => { p with due := some m, votes := 0, served := m })
    else b
  let b := if b.spentVotes ∧ ¬ b.ho.parcel.voting then skipDue b else b
  if b.ho.parcel.due.isNone ∨ b.ho.parcel.voting then b
  else
    let cs := b.voteConds frank
    let b := forEach (cs.filter (fun c => !c.1)) (fun c b => hoEvent c.2 [] b) b
    contribute 15 3 [b01 (cs.all (·.1)), 0, 0, 0] (b.modParcel (fun p => { p with votes := p.votes + 1, voting := true }))

/-- A franked step counts for the probation period of each working core (R232). -/
def frankCores (b : Block) : Block :=
  forEach b.workCores (fun i b => match (b.hist i).st with
    | .probation => b.modHist i (fun h => { h with franked := h.franked + 1 })
    | _ => b) b

/-- A withheld step: its replay is ordered, or the limit is spent (R236). -/
def orderReplay (b : Block) : Block :=
  let n := b.ho.job.replay
  let b := b.modJob (fun j => { j with withheld := n + 1 })
  if b.ho.policy.replayLimit ≤ n then stopJobNext (hoEvent evReplayExhausted [] b) else b

/-- STEP_DECISION (R228): at D_h. (DESIGN CHOICE, log 67 and 82 and 106.) -/
def stepDecision (b : Block) : Block :=
  if ¬ b.undecided ∨ b.tEndHeld then b
  else
    let b := forEach b.popRegions regionVerdict b
    if ¬ b.undecided then b
    else
      let b := advTo (b.tEnd + 17000) b
      let mask := b.ho.job.recs.foldl (fun m x => m ||| x.reasons) b.ownReasons
      let frank := decide (mask = 0)
      let dg := stepDigest b
      let b := dg.2
      let fc := b.tEnd + 19000
      let step := b.ho.job.step
      let rc : StepRec := { step := step, frank := frank, replays := b.ho.job.replay, mask := mask, digest := dg.1, fc := fc }
      let note : Notice := { frank := frank, step := BitVec.ofNat 32 step, epoch := BitVec.ofNat 16 b.ledger.epoch, digest := dg.1, pm := BitVec.ofNat 64 fc }
      let b := b.modJob (fun j => { j with
        decided := true
        lastMask := mask
        hist := (rc :: j.hist.filter (fun x => x.step ≠ step)).take 1024
        due := j.due ++ [note] })
      let b := b.modLedger (fun l => { l with stepDecided := step, stepFranked := if frank then step else l.stepFranked })
      let b := hoEvent evStepDecision (le 4 mask.toNat ++ le 4 step) b
      let b := if frank then frankCores (b.modJob (fun j => { j with withheld := 0 })) else orderReplay b
      let b := if b.ho.policy.unscreenedLimit < b.unscreenedRoles then stopJobNext (hoEvent evUnscreenedLimit [] b) else b
      parcelVote frank b
def execStepDecision (s : State) : Host.Outcome State Fault Refusal := act stepDecision s

end Sys2Proof.Machine
end

