-- ==== Sys2Proof/Machine/Fills.lean ====
section
/-! DEFINITION. Spares and fills, and the Dice: drawing, ranking and placing tiles in shadow slots (07_verdicts R236 to R245,
06_duplicate_execution R192 to R199, R216). -/

namespace Sys2Proof.Machine

open Sys2Proof

/-! ### Choosing spares (R237, R240) -/

/-- The reason field for a role: the first code that applies in the order of R240. (DESIGN CHOICE, log 71.) -/
def relocReason (named : List (Nat × Nat)) (role : Nat) : Nat :=
  ([7, 6, 2, 1, 5, 4, 3].find? (fun c => named.contains (role, c))).getD 0

/-- The spare for a source core (R237): SPARE, same region and distance class, not the target of another fill; fewest
pips, then the lowest region-local index. (DESIGN CHOICE, log 85.) -/
def Block.spareFor (b : Block) (src : Nat) : Option Nat :=
  let r := regionOf src
  let ok (i : Nat) : Bool := (match b.coreState i with | .spare => true | _ => false) && decide (b.distClass i = b.distClass src) &&
    (b.roleOf i).isNone && !(b.ho.job.fills.any (fun f => f.runs && decide (f.dst = i)))
  (sortBy (fun i k => keysLe [(b.hist i).pips, localOf i] [(b.hist k).pips, localOf k]) ((b.regionCores r).filter ok)).head?

/-- The region's fills fail with NO_SPARE: the replay is abandoned and the job stops (R237, R244). (DESIGN CHOICE, log 106.) -/
def noSpare (r : Nat) (b : Block) : Block :=
  stopJobNext (postEvent evNoSpare (unitOffice r) [] (fillTo (fun f => f.runs && decide (regionOf f.dst = r)) 7 b))

/-- Write an entry of a relocation table of 256, the newest kept (R240). -/
def putReloc (r : Nat) (x : Reloc) (b : Block) : Block := modRelocs r (fun l => (l ++ [x]).drop (l.length + 1 - 256)) b

/-- An entry in the 128 bits of R240. -/
def relocWord (x : Reloc) : Flit :=
  BitVec.ofNat 128 (packF [(0, x.role), (20, b01 x.valid), (24, x.fromLocal), (40, x.toLocal), (56, x.reason), (64, x.step), (120, x.roleExt)])

/-- The codes with which earlier fills of the same replay relocated a role (R240, R245). -/
def Block.earlierCodes (b : Block) (r role : Nat) : List (Nat × Nat) :=
  ((b.office r).relocs.filter (fun x => decide (x.role = role) && decide (x.step = b.ho.job.step))).map (fun x => (role, x.reason))

/-- Allocate a spare for one named role and begin its fill: ALLOCATED, then TESTING with the FILL unit queued (R237, R238).
The role of an UNSCREENED core is not relocated (R247). (DESIGN CHOICE, log 74.) -/
def allocate (r role reason : Nat) (b : Block) : Block :=
  if b.ho.job.fills.any (fun f => decide (f.role = role) && decide (f.phase < 5)) then b
  else match b.coreOf role with
  | none => b
  | some src =>
    if b.coreState src = .unscreened then b
    else match b.spareFor src with
    | none => noSpare r b
    | some dst =>
      let f : Fill := { role := role, src := src, dst := dst, phase := 1, started := b.now }
      let b := b.modJob (fun j => { j with fills := j.fills ++ [f] })
      let mine (x : Fill) : Bool := decide (x = f)
      let b := fillTo (fun x => decide (x.role = role) && decide (x.phase = 1)) 2 (fillTo mine 1 b)
      let b := putReloc r { role := role, valid := false, fromLocal := localOf src, toLocal := localOf dst, reason := reason, step := b.ho.job.step } b
      queueUnit r (b.unit dst 3 b.fillKat .fill) b

/-- DECISION_RECEIVE (R237, R242, R245): a withheld decision; roles in ascending order, one at a time. -/
def decisionReceive (r : Nat) (b : Block) : Block :=
  if ¬ b.officeWorks r ∨ ¬ b.ho.job.decided ∨ b.ho.job.withheld = 0 ∨ b.ho.job.stopNext then b
  else
    let b := advTo (b.tEnd + 17500) b
    let named := (b.office r).st.named
    let roles := sortBy (fun a c => decide (a ≤ c)) (dedup (named.map (·.1)))
    let b := modSt r (fun s => { s with named := [], received := true }) b
    forEach roles (fun role b => if b.ho.job.stopNext then b else allocate r role (relocReason (named ++ b.earlierCodes r role) role) b) b
def execDecisionReceive (region : RegionIdx) (s : State) : Host.Outcome State Fault Refusal := act (decisionReceive region.toNat) s

/-! ### Phases of a fill (R238, R245) -/

/-- Set the phase of a running fill. -/
def setPhase (role ph : Nat) (b : Block) : Block :=
  fillTo (fun f => decide (f.role = role) && decide (f.phase < 5)) ph b

/-- A vacated core that is not FENCED becomes SUSPECT without a role, with at least 64 pips; one that is UNSCREENED keeps the
state recorded before (R232). -/
def vacate (i : Nat) (b : Block) : Block :=
  if (b.hist i).unscreened then b
  else match (b.hist i).st with
  | .fenced => b
  | .retired => b
  | _ => queueSuspicion i (b.modHist i (fun h => { h with st := .suspect, pips := max 64 h.pips }))

/-- LOADING (R238): the role's Timetable and the Letterbox context, taken to be the source's format table and armed count, are
written to the target's Letterbox. (DESIGN CHOICE, log 138.) -/
def writeContext (f : Fill) (b : Block) : Block :=
  let src := b.core f.src
  b.modCore f.dst (fun c => { c with
    time := { c.time with timetable := b.timetable f.role, armed := src.time.armed }
    scr := { c.scr with fmt := src.scr.fmt } })

/-- ARMED (R238, R240, R299): the entry becomes valid, the Board Map's working copy moves the role, and both Letterboxes'
role epochs advance. -/
def armFill (r : Nat) (f : Fill) (b : Block) : Block :=
  let b := setPhase f.role 5 b
  let b := modRelocs r (fun l => l.map (fun (x : Reloc) =>
    if x.role = f.role ∧ ¬ x.valid ∧ x.toLocal = localOf f.dst ∧ x.step = b.ho.job.step then { x with valid := true } else x)) b
  let b := b.modBm (fun m => { m with roles := tset (tdel m.roles f.src) f.dst f.role })
  let e := (b.core f.dst).net.epoch + 1
  let b := b.modCore f.dst (fun c => { c with net := { c.net with epoch := e, fwd := none } })
  let b := b.modCore f.src (fun c => { c with net := { c.net with epoch := c.net.epoch + 1, fwd := some (unitCore f.dst, e.toNat) } })
  bmChanged (vacate f.src b)

/-- FILL_PHASE_COMPLETE (R238, R245). A failure of the target's test or load is SPARE_FAILED, of the source's capture
SOURCE_LOST. (DESIGN CHOICE, log 74.) -/
def fillPhase (r role : Nat) (ok : Bool) (b : Block) : Block :=
  match b.ho.job.fills.find? (fun f => decide (f.role = role) && decide (f.phase < 5) && decide (regionOf f.dst = r)) with
  | none => b
  | some f =>
    if b.stop.stopped ∨ ¬ b.officeOn r then b
    else if ¬ ok then failFill role (if f.phase = 3 then evSourceLost else evSpareFailed) b
    else match f.phase with
    | 2 => if b.unitsLeft f.dst .fill then b else (setPhase role 3 b).modCore f.src (fun c => if c.pins.isoN then beginFence false c else c)
    | 3 => if f.image.isEmpty then b else writeContext f (setPhase role 4 b)
    | 4 =>
      (match b.coreState f.dst with
       | .spare => if f.loaded then armFill r f b else b
       | _ => failFill role evSpareFailed b)
    | _ => b
def execFillPhaseComplete (region : RegionIdx) (role : BitVec 20) (ok : Bool) (s : State) : Host.Outcome State Fault Refusal :=
  act (fillPhase region.toNat role.toNat ok) s

/-- FILL_TIMEOUT (R238, R248): not ARMED within 1,000,000 ticks of ALLOCATED; a stop suspends the bound. (DESIGN CHOICE, log 78.) -/
def fillTimeout (r role : Nat) (b : Block) : Block :=
  match b.ho.job.fills.find? (fun f => decide (f.role = role) && decide (f.phase < 5) && decide (regionOf f.dst = r)) with
  | none => b
  | some f => if b.stop.stopped then b else failFill role evSpareFailed (advTo (f.started + 1000000) b)
def execFillTimeout (region : RegionIdx) (role : BitVec 20) (s : State) : Host.Outcome State Fault Refusal :=
  act (fillTimeout region.toNat role.toNat) s

/-! ### The Dice (R190 to R199) -/

/-- The step whose descriptors are filled next: the first step before the launch, a withheld step again, or the next (R197, R242). -/
def Block.fillStep (b : Block) : Nat :=
  if ¬ b.ho.job.launched then b.man.firstStep else if b.ho.job.withheld ≠ 0 then b.ho.job.step else b.ho.job.step + 1

/-- The core that carries a role at the next launch: the target of a fill that runs (R199). -/
def Block.nextCore (b : Block) (role : Nat) : Option Nat :=
  match b.ho.job.fills.find? (fun f => decide (f.role = role) && decide (f.phase < 5)) with
  | some f => some f.dst
  | none => b.coreOf role

/-- Its state in the generation that will be in force then (R192, R199): a fill's target is PROBATION. -/
def Block.nextState (b : Block) (role : Nat) : CoreSt :=
  if b.ho.job.fills.any (fun f => f.runs && decide (f.role = role)) then .probation
  else match b.coreOf role with
  | some i => (if b.ho.job.launched then boundaryCore i b else b).coreState i
  | none => .absent

/-- A role relocated for the replay of the step (R193). -/
def Block.movedRole (b : Block) (r role step : Nat) : Bool :=
  decide (b.ho.job.withheld ≠ 0) && ((b.office r).relocs.any (fun x => decide (x.role = role) && decide (x.step = step) && x.valid) ||
    b.ho.job.fills.any (fun f => f.runs && decide (f.role = role)))

/-- A rate code selects at u (R192, R193). -/
def rateHit (rd u : Nat) : Bool := decide (rd ≤ 32) && decide (u < 2 ^ (32 - rd))

/-- A tile of a window as the Dice rank it: class, u, role, identifier; none when it is not selected (R192, R193). (DESIGN CHOICE, log 72.) -/
def Block.drawTile (b : Block) (r step : Nat) (t : Nat × Nat) : Option (List Nat) :=
  let u := (dice b.man.jobSeed 0x01 step t.1 t.2).1
  let st := b.nextState t.1
  let prom := (b.office r).dice.promos.any (fun p => decide (p.role = t.1) && decide (p.tid = t.2))
  let cls : Option Nat :=
    match st with
    | .unscreened => none
    | _ =>
      if prom then some 0
      else if b.movedRole r t.1 step then some 1
      else match st with
      | .suspect => if rateHit b.ho.policy.rdSuspect u then some 1 else none
      | .probation => if rateHit b.ho.policy.rdProbation u then some 2 else none
      | .active => if rateHit b.ho.policy.rdActive u then some 3 else none
      | _ => none
  cls.map (fun c => [c, u, t.1, t.2])

/-- Place ranked tiles of a window: each in the first free slot of another role (R196). Answers placements and unplaced. (DESIGN CHOICE, log 72.) -/
def placeTiles (w : Nat) : List (List Nat) → List SlotRec → List Placement × List (Nat × Nat)
  | [], _ => ([], [])
  | k :: l, free =>
    let role := lnat k 2
    let tid := lnat k 3
    match free.findIdx? (fun s => decide (s.role ≠ role)) with
    | none => let x := placeTiles w l free; (x.1, (role, tid) :: x.2)
    | some i =>
      let s := free.getD i {}
      let x := placeTiles w l (free.eraseIdx i)
      ({ role := role, tid := tid, window := w, shRole := s.role, shSlot := s.slot } :: x.1, x.2)

/-- The shadow slots of a window that may be filled, by role then slot: none of a role on an UNSCREENED core (R196, R247). -/
def Block.shadowSlots (b : Block) (w : Nat) : List SlotRec :=
  sortBy (fun (x y : SlotRec) => keysLe [x.role, x.slot] [y.role, y.slot])
    (b.man.slots.filter (fun s => decide (s.window = w) && !s.referee && decide (b.nextState s.role ≠ .unscreened)))

/-- The promotions left after a fill, and how many lapse with DICE_DROP (R194): a placed one is served, one whose
identifier does not occur lapses, and any other grows a step older. (DESIGN CHOICE, log 72 and 73.) -/
def ageAll (tiles placed : List (Nat × Nat)) (l : List Promo) : List Promo × Nat :=
  let here := l.filter (fun p => tiles.contains (p.role, p.tid) && !placed.contains (p.role, p.tid))
  let older := here.map (fun p => { p with left := p.left - 1 })
  (older.filter (fun p => decide (0 < p.left)), (older.filter (fun p => decide (p.left = 0))).length)

/-- The descriptor of a placed tile with its slot, by the core that reads it (R67, R197). -/
def Block.placeDesc (b : Block) (p : Placement) : Option (Nat × Flit) :=
  match b.nextCore p.shRole, b.nextCore p.role with
  | some i, some src => some (i, descFlit p.tid src 1 p.shSlot)
  | _, _ => none

/-- Lists of at most four. -/
def byFour : List Flit → List (List Flit)
  | a :: b :: c :: d :: l => [a, b, c, d] :: byFour l
  | [] => []
  | l => [l]

/-- Descriptors leave in packets of four, Letterboxes in ascending order (R197, R302). -/
def sendDescs (r : Nat) (l : List (Nat × Flit)) (b : Block) : Block :=
  forEach (sortBy (fun a c => decide (a ≤ c)) (dedup (l.map (·.1)))) (fun i b =>
    forEach (byFour ((l.filter (fun x => decide (x.1 = i))).map (·.2))) (fun fl b =>
      sendPkt (unitOffice r) (unitCore i) 0 0x02 0x02 (b.core i).net.epoch.toNat false fl b) b) b

/-- DICE_FILL (R187, R194 to R199, R242): `tiles` are the tiles of the step's schedule in this region, `late` the slots whose
descriptors the Office does not get to send before the launch. The fill of a replay starts when the decision has reached
the Office. (DESIGN CHOICE, log 11 and 72.) -/
def diceFill (r : Nat) (tiles late : List (Nat × Nat)) (b : Block) : Block :=
  if ¬ b.officeOn r ∨ (b.office r).reload ∨ b.ho.job.man.isNone ∨ (b.office r).st.filled ∨
      (b.ho.job.launched ∧ ¬ (b.ho.job.decided ∧ (b.office r).st.sent ∧ (b.ho.job.withheld = 0 ∨ (b.office r).st.received))) then b
  else
    let step := b.fillStep
    let mine (t : Nat × Nat) : Bool := (b.windowOf t.2).isSome && (match b.nextCore t.1 with | some i => decide (regionOf i = r) | none => false)
    let tiles := tiles.filter mine
    let named := (b.office r).st.promoteRoles
    let b := forEach (tiles.filter (fun t => named.contains t.1)) (fun t b => promote r t.1 t.2 b) b
    let hits := tiles.filterMap (fun t => b.drawTile r step t)
    let wins := dedup (hits.filterMap (fun k => b.windowOf (lnat k 3)))
    let done := wins.map (fun w => placeTiles w (sortBy keysLe (hits.filter (fun k => decide (b.windowOf (lnat k 3) = some w)))) (b.shadowSlots w))
    let places := done.flatMap (·.1)
    let unplaced := done.flatMap (·.2)
    let placed := places.map (fun p => (p.role, p.tid))
    let aged := ageAll tiles placed (b.office r).dice.promos
    let served := ((b.office r).dice.promos.filter (fun p => placed.contains (p.role, p.tid))).map (fun p => { p with left := p.left - 1 })
    let b := forEach (List.range aged.2) (fun _ b => diceDrop r b) b
    let b := forEach (b.regionCores r) (fun i b => modScr i (fun s => { s with desc := [] }) b) b
    let b := sendDescs r ((places.filter (fun p => !late.contains (p.shRole, p.shSlot))).filterMap b.placeDesc) b
    let b := modDice r (fun d => { d with
      nextStep := step + 1
      draws := d.draws + tiles.length
      selections := d.selections + hits.length
      placements := d.placements + places.length
      slots := (b.man.slots.filter (fun s => !s.referee && (match b.nextCore s.role with | some i => decide (regionOf i = r) | none => false))).length
      inWindows := tiles.length }) b
    let b := modSt r (fun s => { s with places := places, filled := true, promosNext := aged.1, served := served, promoteRoles := [] }) b
    diceShort r unplaced.length b
def execDiceFill (region : RegionIdx) (tiles : List (BitVec 20 × BitVec 32)) (late : List (BitVec 20 × BitVec 8)) (s : State) :
    Host.Outcome State Fault Refusal :=
  act (diceFill region.toNat (tiles.map (fun t => (t.1.toNat, t.2.toNat))) (late.map (fun t => (t.1.toNat, t.2.toNat)))) s

end Sys2Proof.Machine
end

