-- ==== Sys2Proof/Machine/Scheduler.lean ====
section
/-! DEFINITION. What an Office does beside the step: placing test units, the standby and planned swaps, the router round,
forwarding events, clean hours (08_in_field_test R259 to R272, 01_architecture R24 to R28, 15_debug R461, 07_verdicts R230). -/

namespace Sys2Proof.Machine

open Sys2Proof

/-! ### Windows for test units (R259 to R265) -/

/-- Ticks that a unit occupies: its length and 1,536 core cycles, rounded up (R261). -/
def Block.unitTicks (b : Block) (u : TestUnit) : Nat := cycTicksUp (b.rcfg (regionOf u.core)) (b.declLen u.mode u.unit + 1536)

/-- Core cycles of the slice budget B_s (R261, R263). (DESIGN CHOICE, log 75.) -/
def Block.budget (b : Block) (i : Nat) : Nat := ticksCyc (b.rcfg (regionOf i)) (1000 * b.ho.policy.sliceBudget)

/-- The units placed on a core in a window, with this one, stay within B_s (R261). Windows: 0 idle slot, 1 drain gap, 2 checkpoint. (DESIGN CHOICE, log 75.) -/
def Block.inBudget (b : Block) (u : TestUnit) (w : Nat) : Bool :=
  let o := b.office (regionOf u.core)
  let used := ((o.spent.filter (fun p => decide (p.1 = 4 * u.core + w))).map (·.2)).foldl (· + ·) 0
  decide (used + b.declLen u.mode u.unit ≤ b.budget u.core)

/-- When a unit may begin in a window: not before now, and ending by the window's end (R261). -/
def Block.startIn (b : Block) (u : TestUnit) (w lo hi : Nat) : Option (Nat × Nat) :=
  let t := max b.now lo
  if t + b.unitTicks u ≤ hi ∧ b.inBudget u w then some (t, w) else none

/-- The idle-slot record of a role (R259). -/
def Block.idleOf (b : Block) (role : Nat) : Option IdleRec := b.man.idle.find? (fun x => decide (x.role = role))

/-- The idle record declares a bank idle (R262, R268). -/
def bankIdle (x : Option IdleRec) (bank : Nat) : Bool :=
  match x with | some x => x.banksIdle && decide (x.bankLo ≤ bank) && decide (bank ≤ x.bankHi) | none => false

/-- The earliest start of a unit on a working core of a running job (R260 to R262). -/
def Block.workStart (b : Block) (u : TestUnit) (role : Nat) : Option (Nat × Nat) :=
  let idle := b.idleOf role
  match b.ho.parcel.inStop with
  | some t =>
    if u.mode ≠ 2 ∧ b.ho.job.slotIx ≥ u.dueSlot + b.ho.policy.recovery ∧ (tget b.ho.parcel.records role).isSome then
      b.startIn u 2 b.now (t + b.ho.policy.tStop - 50000)
    else none
  | none =>
    if b.stop.stopped ∨ ¬ b.ho.job.inSlot then none
    else
      let inIdle : Option (Nat × Nat) := match idle with
        | some x => if u.mode ≠ 2 ∨ bankIdle idle u.unit then b.startIn u 0 (b.slotStart + x.startOffset) b.tEnd else none
        | none => none
      let gap : Option (Nat × Nat) :=
        if u.mode ≠ 2 ∧ b.ho.job.slotIx ≥ u.dueSlot + b.ho.policy.recovery then b.startIn u 1 (b.tEnd + 17500) (b.nextSlot - 50000) else none
      match inIdle with | some x => some x | none => gap

/-- The core can take a unit: its Letterbox runs, and nothing is in progress on it. -/
def Block.testable (b : Block) (i : Nat) : Bool :=
  let c := b.core i
  b.present i && c.lbOn && c.ctl.test.isNone && c.ctl.cap.isNone && decide (c.ctl.puStage = 0) && (tget b.ho.bm.blocked i).isNone &&
    (!c.ctl.stopGated || b.ho.parcel.inStop.isSome)

/-- States in which units run: RESTORE on a FENCED core, any other on a core in a tested state (R257, R260, R264). (DESIGN CHOICE, log 76.) -/
def Block.stateFits (b : Block) (u : TestUnit) : Bool :=
  match b.coreState u.core, u.trigger with
  | .fenced, .restore => true
  | st, .restore => decide (st = .fenced)
  | st, _ => tested st

/-- A core without a role may be tested at any time, within a job too: SPARE cores, SUSPECT cores, fill targets, the core
of a CORE_RESTORE, and one whose full rolling test goes on over a change of its state (R260, R275). -/
def Block.anyTime (b : Block) (u : TestUnit) : Bool :=
  !b.inJob || (match u.trigger with | .fill => true | .restore => true | .suspicion => true | _ => false) ||
    (match b.coreState u.core with | .spare => true | .suspect => true | _ => false)

/-- Units of a full rolling test come in order: slices, then banks (R265). -/
def Block.rollFirst (b : Block) (u : TestUnit) : Bool :=
  decide (u.trigger ≠ .suspicion) || ((b.office (regionOf u.core)).testq.all (fun x =>
    decide (x.core ≠ u.core) || decide (x.trigger ≠ .suspicion) || keysLe [u.mode, u.unit] [x.mode, x.unit]))

/-- The core is source, or with `both` also target, of a fill in progress (R268, R275). -/
def Block.inFill (b : Block) (i : Nat) (both : Bool) : Bool :=
  b.ho.job.fills.any (fun f => f.runs && (decide (f.src = i) || (both && decide (f.dst = i))))

/-- When a unit may begin, and in which window; window 3 is any time (R260, R265, R268). A bank test on a core with a role
waits for an idle slot of the launched job (R262). (DESIGN CHOICE, log 84.) -/
def Block.unitStart (b : Block) (u : TestUnit) : Option (Nat × Nat) :=
  if ¬ b.attached u.core ∨ ¬ b.testable u.core ∨ ¬ b.stateFits u ∨ ¬ b.rollFirst u ∨ b.inFill u.core false ∨ (u.mode = 2 ∧ b.inFill u.core true) then none
  else match (if b.ho.job.man.isSome then b.roleOf u.core else none) with
  | none => if b.anyTime u then some (b.now, 3) else none
  | some role =>
    if b.ho.job.launched then b.workStart u role
    else if b.ho.job.armed then none
    else if u.mode = 2 then none
    else some (b.now, 3)

/-- A unit of the region is in progress (R260). -/
def Block.unitBusy (b : Block) (r : Nat) : Bool :=
  match (b.office r).running with | some u => (b.core u.core).ctl.test.isSome | none => false

/-- The next unit of the queue: the one that can begin first, then by priority, due count and core index (R264). -/
def Block.nextUnit (b : Block) (r : Nat) : Option (TestUnit × Nat × Nat) :=
  (sortBy (fun (x y : TestUnit × Nat × Nat) => keysLe [x.2.1, trigPrio x.1.trigger, x.1.due, x.1.core] [y.2.1, trigPrio y.1.trigger, y.1.due, y.1.core])
    ((b.office r).testq.filterMap (fun u => (b.unitStart u).map (fun s => (u, s))))).head?

/-- The next unit of the spare sweep (R264, R265): a core's full rolling test, then the next SPARE core cyclically. (DESIGN CHOICE, log 75 and 85.) -/
def Block.sweepNext (b : Block) (r : Nat) : Option (TestUnit × Nat) :=
  let o := b.office r
  let free (i : Nat) : Bool := (match b.coreState i with | .spare => true | _ => false) && (b.roleOf i).isNone && b.testable i && !b.inFill i true
  let units (i : Nat) : List TestUnit := b.rollUnits i .spareSweep
  match (if free o.sweepCore then (units o.sweepCore)[o.sweepUnit]? else none) with
  | some u => some (u, o.sweepUnit + 1)
  | none =>
    let spares := (b.regionCores r).filter free
    match (spares.filter (fun i => decide (o.sweepCore < i)) ++ spares).head? with
    | some i => (units i)[0]?.map (fun u => (u, 1))
    | none => none

/-- Start a unit on its core (R71, R75): the core is fenced up to isolation for it. In a checkpoint stop ct_cg_n is raised
for the fence, the test and re-initialisation ("When controls meet" of 02_core_tap_port). -/
def startUnit (r : Nat) (u : TestUnit) (b : Block) : Block :=
  (b.modOffice r (fun o => { o with running := some u })).modCore u.core (fun c =>
    let c := { c with ctl := { c.ctl with test := some { mode := u.mode, unit := u.unit, trigger := u.trigger } } }
    let c := if c.pins.isoN then beginFence false c else c
    if c.ctl.stopGated then { c with pins := { c.pins with cgN := true } } else c)

/-- TEST_UNIT_PLACE (R260 to R265): the next unit starts when its window opens; with an empty queue the spare sweep goes on. -/
def testUnitPlace (r : Nat) (b : Block) : Block :=
  if ¬ b.officeOn r ∨ b.unitBusy r then b
  else match b.nextUnit r with
  | some (u, t, w) =>
    let b := advTo t b
    let b := b.modOffice r (fun o => { o with
      testq := o.testq.erase u
      spent := if w = 3 then o.spent else o.spent ++ [(4 * u.core + w, b.declLen u.mode u.unit)] })
    startUnit r u b
  | none =>
    if ¬ (b.office r).testq.isEmpty ∨ ¬ b.ho.policy.spareSweep then b
    else match b.sweepNext r with
    | none => b
    | some (u, n) => startUnit r u (b.modOffice r (fun o => { o with sweepCore := u.core, sweepUnit := n }))
def execTestUnitPlace (region : RegionIdx) (s : State) : Host.Outcome State Fault Refusal := act (testUnitPlace region.toNat) s

/-! ### The standby, swaps and members (R24 to R28, R272, R275) -/

/-- A standby that can be tested: it passed at power-up and has not failed. -/
def Member.live (m : Member) : Bool := m.passed && !m.failed && !m.barred

/-- STANDBY_PERIOD (R25, R272): the standby's test begins and mirroring stops: it keeps what it holds. -/
def standbyPeriod (r : Nat) (b : Block) : Block :=
  let m := (b.office r).standby
  if ¬ b.officeOn r ∨ ¬ m.live ∨ ¬ m.eligible ∨ m.testing then b
  else
    let b := advTo ((b.office r).lastStandby + b.ho.policy.standbyHours * 3600000000000) b
    b.modOffice r (fun o => { o.modStandby (fun m => { m with testing := true, eligible := false, copy := some (b.twinCopy r) }) with lastStandby := b.now })
def execStandbyPeriod (region : RegionIdx) (s : State) : Host.Outcome State Fault Refusal := act (standbyPeriod region.toNat) s

/-- STANDBY_TEST_DONE (R25, R272): on a pass the copy starts; a failure bars the member until its domain is next powered. -/
def standbyTestDone (r : Nat) (pass : Bool) (b : Block) : Block :=
  let o := b.office r
  if ¬ o.standby.testing then b
  else if pass then b.modOffice r (fun o => o.modStandby (fun m => { m with testing := false, copying := true }))
  else postEvent evStandbyFail (unitMember r (b01 (!o.serving))) [] (b.modOffice r (fun o =>
    o.modStandby (fun m => { m with testing := false, eligible := false, barred := true })))
def execStandbyTestDone (region : RegionIdx) (pass : Bool) (s : State) : Host.Outcome State Fault Refusal := act (standbyTestDone region.toNat pass) s

/-- STANDBY_COPY_DONE (R25, R272): the standby holds the primary's Ledger and queues and mirrors them again; it is eligible, and a planned swap is due in the next drain gap. -/
def standbyCopyDone (r : Nat) (b : Block) : Block :=
  if (b.office r).standby.copying then
    b.modOffice r (fun o => { o.modStandby (fun m => { m with copying := false, eligible := true, copy := none }) with swapWait := true })
  else b
def execStandbyCopyDone (region : RegionIdx) (s : State) : Host.Outcome State Fault Refusal := act (standbyCopyDone region.toNat) s

/-- PLANNED_SWAP (R24, R272, R275): outside a job, or in a drain gap; it waits for an eligible standby. (DESIGN CHOICE, log 76.) -/
def plannedSwap (r : Nat) (b : Block) : Block :=
  let o := b.office r
  if ¬ b.officeOn r ∨ ¬ o.standby.live ∨ ¬ o.standby.eligible ∨ (b.inJob ∧ ¬ b.ho.job.inSlot) ∨ (b.inJob ∧ b.tEndHeld) then b
  else
    let b := if b.inJob then advTo b.tEnd b else b
    let b := writeServing r (!o.serving) (b.modOffice r (fun o => { o with serving := !o.serving, swapWait := false }))
    if b.ho.mail.outst.any (fun x => decide (x.opcode = 0x405) && decide (rd x.params 0 1 = r)) then finishOp 0x405 0 0 [BitVec.ofNat 8 (b01 (!o.serving))] b else b
def execPlannedSwap (region : RegionIdx) (s : State) : Host.Outcome State Fault Refusal := act (plannedSwap region.toNat) s

/-- OFFICE_PRIMARY_FAIL (R26 to R28). -/
def execOfficePrimaryFail (region : RegionIdx) (s : State) : Host.Outcome State Fault Refusal :=
  act (fun b => if (b.office region.toNat).up then failMember region.toNat (b.office region.toNat).serving b else b) s

/-- The router whose turn it is: the next in index order that is not lost (R272). -/
def Block.roundRouter (b : Block) (r : Nat) : Option Nat :=
  ((List.range 128).map (fun i => ((b.office r).round + i) % 128)).find? (fun k => !(b.router (128 * r + k)).lost)

/-- The Office holds no queued packet for a cluster (R272). -/
def Block.noneFor (b : Block) (r k : Nat) : Bool :=
  (b.office r).server.net.tx.all (fun p => let d := hDst p.hdr; !(decide (d.lvl = 0) && decide (d.region = r) && decide (16 * d.y + d.x = k)))

/-- ROUTER_ROUND (R272, R301): once per drain gap and region, after the descriptor fill. One swap routes around the router
under test. After a pass a second one restores the entries, and the version routed around stays written and inactive; a
failed router is lost, its cluster fenced, and the version stays. A swap in progress comes first: a failed router's waits
for it. (DESIGN CHOICE, log 9 and 76.) -/
def routerRound (r : Nat) (pass : Bool) (b : Block) : Block :=
  let st := (b.office r).st
  if ¬ b.officeWorks r ∨ ¬ b.ho.policy.routerRound ∨ ¬ st.filled ∨ st.rounded ∨ b.tEndHeld then b
  else match b.roundRouter r with
  | none => b
  | some k =>
    if ¬ b.noneFor r k then b
    else
      let b := advTo b.tEnd b
      let b := b.modOffice r (fun o => { o with round := (k + 1) % 128, st := { o.st with rounded := true } })
      if b.ho.post.swapAt.isSome then (if pass then b else routerLost r k b)
      else
        let v := !b.ho.post.ver
        let cur := b.around b.ho.post.ver
        let b := setAround v cur r (maskSet ((tget cur r).getD 0) k true) (copyTables v b)
        if pass then advTo (b.now + 71000) b
        else loseRouter r k (takeVersion v (advTo (b.now + 38000) b))
def execRouterRound (region : RegionIdx) (pass : Bool) (s : State) : Host.Outcome State Fault Refusal := act (routerRound region.toNat pass) s

/-! ### Forwarding events (R461) -/

/-- Count from which a held event may be forwarded. -/
def Office.fwdAt (o : Office) (e : EvHold) : Nat := match tget o.lastFwd e.code with | some t => t + 10000 | none => 0

/-- Forward one held event: its count, first unit and first count. -/
def forwardOne (r : Nat) (e : EvHold) (b : Block) : Block :=
  postEventN e.code e.first e.unit e.count e.body (b.modOffice r (fun o => { o with
    events := o.events.filter (fun x => x.code ≠ e.code)
    lastFwd := tset o.lastFwd e.code b.now }))

/-- EVENT_FORWARD (R461): at most once per code per 10 us; with nothing due yet, at the earliest count that allows one. (DESIGN CHOICE, log 55.) -/
def eventForward (r : Nat) (b : Block) : Block :=
  let o := b.office r
  if ¬ b.officeOn r ∨ ¬ b.hoRuns then b
  else match o.events with
  | [] => b
  | e :: l =>
    let b := advTo (l.foldl (fun m x => min m (o.fwdAt x)) (o.fwdAt e)) b
    forEach (o.events.filter (fun x => decide (o.fwdAt x ≤ b.now))) (forwardOne r) b
def execEventForward (region : RegionIdx) (s : State) : Host.Outcome State Fault Refusal := act (eventForward region.toNat) s

/-! ### Clean hours (R230) -/

/-- An hour boundary's distance (R230). (DESIGN CHOICE, log 79.) -/
def hourTicks : Nat := 3600000000000

/-- The next hour boundary whose clean hours have not been given: each is given, also when several have passed. -/
def Block.nextHour (b : Block) : Nat := b.pm.hourAt + hourTicks

/-- The core earns the hour that ends at count h: Postmark LOADED, a state that earns, and no charge over the whole hour. -/
def Block.earns (b : Block) (h i : Nat) : Bool :=
  decide (b.pm.state = .loaded) && decide (b.pm.loadedAt + hourTicks ≤ h) && inService (b.coreState i) &&
    decide ((b.hist i).eligibleSince + hourTicks ≤ h) && !(b.hist i).charged.contains (hourOf (h - hourTicks))

/-- CLEAN_HOUR (R230, R232): in a job the pips fall at the next step boundary, else at once. (DESIGN CHOICE, log 79.) -/
def cleanHour (b : Block) : Block :=
  if ¬ b.hoRuns then b
  else
    let h := b.nextHour
    let b := advTo h b
    let due := b.presentCores.filter (b.earns h)
    let b := b.modPm (fun p => { p with hourAt := h })
    let b := b.modLedger (fun l => { l with hist := tmap (fun _ (x : CoreHist) => { x with charged := x.charged.filter (fun k => decide (hourOf h ≤ k)) }) l.hist })
    if b.inJob then b.modJob (fun j => { j with hourDue := j.hourDue ++ due })
    else publishDue (forEach due (fun i b => boundaryState i (cleanPip (h - hourTicks) i b)) b)
def execCleanHour (s : State) : Host.Outcome State Fault Refusal := act cleanHour s

end Sys2Proof.Machine
end

