-- ==== Sys2Proof/Machine/StopRows.lean ====
section
/-! DEFINITION. Sync pulses, stops and their release, the launch and the step boundary (03_system_ports R86, R126,
04_postmark R136, R137, R150 to R155, 15_debug R452 to R459, 07_verdicts R232, R236, R238, R242, 01_architecture R43). -/

namespace Sys2Proof.Machine

open Sys2Proof

/-! ### Sync pulses (R86, R136, R137) -/

/-- The next reference edge: edges lie 10 ticks apart, counted from the latest load (R133, R136). (DESIGN CHOICE, log 79.) -/
def Block.edge (b : Block) : Nat :=
  let ph := b.pm.baseV % 10
  b.now + (10 + ph - b.now % 10) % 10

/-- An armed load takes effect at the pulse (R136, R137). (DESIGN CHOICE, log 32.) -/
def applyLoad (b : Block) : Block :=
  setPmState .loaded (b.modPm (fun p => { p with
    count := p.loadV
    syncLatch := p.loadV
    baseV := p.loadV.toNat
    baseP := p.loadP.toNat
    lastK := 0
    loadedAt := p.loadV.toNat
    hourAt := p.loadV.toNat / hourTicks * hourTicks }))

/-- A counted pulse after a load: latched, and checked against V + 10·k·P with a growing k (R137). (DESIGN CHOICE, log 79.) -/
def checkPulse (b : Block) : Block :=
  let c := b.now
  let b := b.modPm (fun p => { p with syncLatch := p.count })
  let d := c - b.pm.baseV
  let per := 10 * b.pm.baseP
  if b.pm.baseV ≤ c ∧ d % per = 0 ∧ b.pm.lastK < d / per then b.modPm (fun p => { p with lastK := d / per })
  else
    let b := hoEvent evSyncSlip [] (setPmState .slipped (b.modPm (fun p => { p with slip := true })))
    if b.inJob then originate .syncSlip b else b

/-- SYNC_WIDTH (R86). -/
def syncWidth (b : Block) : Block := hoEvent evSyncWidth [] (b.modPm (fun p => { p with width := true }))

/-- SYNC_PULSE (R86, R136, R137): a pulse within 1,000 cycles of the last counted one is rejected; a long one counts once. (DESIGN CHOICE, log 79 and 108.) -/
def syncPulse (long : Bool) (b : Block) : Block :=
  if ¬ b.pm.powered then b
  else
    let b := advTo b.edge b
    if (match b.pm.since with | some n => decide (n < 1000) | none => false) then syncWidth b
    else
      let b := b.modPm (fun p => { p with since := some 0 })
      let b := if long then syncWidth b else b
      match b.pm.state with
      | .unset => b
      | .armed => applyLoad b
      | .loaded => checkPulse b
      | .slipped => checkPulse b
def execSyncPulse (long : Bool) (s : State) : Host.Outcome State Fault Refusal := act (syncPulse long) s

/-- SYNC_MISSING (R137): 2·P cycles without a pulse; the count goes on. -/
def syncMissing (b : Block) : Block :=
  match b.pm.state, b.pm.since with
  | .loaded, some n => hoEvent evSyncMissing [] ((advTo (b.now + 10 * (2 * b.pm.baseP - n)) b).modPm (fun p => { p with missing := true }))
  | .slipped, some n => hoEvent evSyncMissing [] ((advTo (b.now + 10 * (2 * b.pm.baseP - n)) b).modPm (fun p => { p with missing := true }))
  | _, _ => b
def execSyncMissing (s : State) : Host.Outcome State Fault Refusal := act syncMissing s

/-! ### Stops (R126, R153, R154, R452 to R458) -/

/-- STOP_INPUT (R126, R454): a low level is a stop; `level` is the input now. (DESIGN CHOICE, log 108.) -/
def stopInput (level : Bool) (b : Block) : Block :=
  let b := b.modEnv (fun e => { e with stopInN := level })
  if level ∨ ¬ b.pm.powered then b else receiveStop b
def execStopInput (level : Bool) (s : State) : Host.Outcome State Fault Refusal := act (stopInput level) s

/-- STOP_OUTPUT_PULSE_END (R454): 100 ck_ref cycles after it fell, the output rises. -/
def stopPulseEnd (b : Block) : Block :=
  match b.stop.pulseAt with
  | some t => ((advTo (t + 1000) b).modOuts (fun o => { o with stopOutN := true })).modStop (fun s => { s with pulseAt := none })
  | none => b
def execStopOutputPulseEnd (s : State) : Host.Outcome State Fault Refusal := act stopPulseEnd s

/-- A scheduled stop reaches its count S: it is this wafer's own stop, so the output pulses, and it wins over a launch or a
parcel at the same count (R127, R153, R154). (DESIGN CHOICE, log 81.) -/
def scheduledStop (t : Nat) (b : Block) : Block :=
  let b := pulseStop (addCause .stopAt (advTo t b))
  let b := (b.modStop (fun s => { s with sched := none })).modParcel (fun p => { p with stopAt := none })
  takeStop t (abortLaunch b)

/-- STOP_COUNT_REACHED (R452, R453): during a stop a scheduled one is recorded and gives no new count (R472). -/
def stopCountReached (b : Block) : Block :=
  match b.stop.at_, b.stop.sched with
  | some t, _ => takeStop t (advTo t b)
  | none, some t =>
    if b.stop.stopped then (originate .stopAt (advTo t b)).modStop (fun s => { s with sched := none }) else scheduledStop t b
  | none, none => b
def execStopCountReached (s : State) : Host.Outcome State Fault Refusal := act stopCountReached s

/-- STOP_RELEASED (R128, R457, R458). -/
def execStopReleased (s : State) : Host.Outcome State Fault Refusal := act (fun b => if b.releasable then releaseStop b else b) s

/-- RESUME_COUNT_REACHED (R458, R459): the cores ungate at R*. A stop before T_end moves the slot's expected counts, a later
one only the next launches. -/
def resumeReached (b : Block) : Block :=
  match b.stop.resumeAt with
  | none => b
  | some t =>
    let b := advTo t b
    let at0 := b.stop.lastAt.toNat
    let d := b.now - at0
    let early := decide (at0 < b.tEnd) && b.ho.job.inSlot
    let b := ungateAll b
    let b := b.modJob (fun j => { j with
      shift := if early then j.shift + d else j.shift
      shifts := if early then j.shifts ++ [(at0, d)] else j.shifts
      lateShift := if early then j.lateShift else j.lateShift + d
      fills := j.fills.map (fun (f : Fill) => if f.phase < 5 then { f with started := f.started + d } else f) })
    hoEvent evResumed (le 8 t) b
def execResumeCountReached (s : State) : Host.Outcome State Fault Refusal := act resumeReached s

/-- RESUME_LATE (R458): no result by R less 300,000 ticks: an urgent stop, under STOP_CTRL's cause. (DESIGN CHOICE, log 80.) -/
def resumeLate (b : Block) : Block :=
  match b.stop.ownR, b.stop.resumeAt with
  | some t, none => originate .stopCtrl (hoEvent evResumeLate [] (advTo (t - 300000) b))
  | _, _ => b
def execResumeLate (s : State) : Host.Outcome State Fault Refusal := act resumeLate s

/-! ### A new step slot (R43, R155, R194, R198, R232, R265) -/

/-- An ARMED fill becomes DONE at the replay's launch (R232, R238): the target is PROBATION in a new period and is
released; a FENCED source goes on into hold. (DESIGN CHOICE, log 74.) -/
def finishFill (f : Fill) (b : Block) : Block :=
  let b := match (b.hist f.dst).st with
    | .spare => bmChanged (b.modHist f.dst (fun h => { h with st := .probation, probStart := some b.now, franked := 0 }))
    | _ => b
  let b := fillTo (fun x => decide (x.role = f.role) && decide (x.phase = 5)) 6 b
  match (b.hist f.src).st with
  | .fenced => fenceHold f.src b
  | .retired => fenceHold f.src b
  | _ => b

/-- A Letterbox's counts of the slot restart, and its descriptors unless the step's have been filled (R68, R219, R348, R354). -/
def slotCore (filled : Bool) (c : Core) : Core :=
  { c with
    time := { c.time with
      cyc := 0
      expect := 0
      status := 0
      stalled := false
      stallEntry := none
      slipped := false
      finalSeen := false
      lastMs := none
      wait := none
      cleared := false }
    scr := { c.scr with
      ownTiles := 0
      summarySent := false
      reads := []
      desc := if filled then c.scr.desc else [] } }

/-- A core in core-cycle mode for an undeclared clock aligns again, from the next epoch (R147, R159). -/
def realign (i : Nat) (b : Block) : Block :=
  if (b.core i).time.undeclared then
    modTime i (fun t => { t with aligned := false, tries := 0, undeclared := false, cmode := t.clkChg, epoch := nextEpochAfter b.now }) b
  else b

/-- BANK_WAIT (R262): the recovery steps have passed and no idle slot declares the bank. (DESIGN CHOICE, log 77.) -/
def bankWait (r : Nat) (b : Block) : Block :=
  let late (u : TestUnit) : Bool := decide (u.mode = 2) && decide (b.ho.job.slotIx = u.dueSlot + b.ho.policy.recovery) &&
    (match b.roleOf u.core with | some role => !bankIdle (b.idleOf role) u.unit | none => false)
  forEach ((b.office r).testq.filter late) (fun u b => postEvent evBankWait (unitCore u.core) [] b) b

/-- A placed tile's descriptor stands in the table of the core that reads it (R198). -/
def Block.descIn (b : Block) (p : Placement) : Bool :=
  match b.coreOf p.shRole with
  | some i => (match tget (b.core i).scr.desc p.shSlot with | some d => fld d.toNat 0 32 = p.tid ∧ fld d.toNat 52 3 = 1 | none => false)
  | none => false

/-- Descriptors that have not reached their Letterbox by the launch: DICE_LATE, and their tiles count as unplaced, so that a
promotion of one lives on or lapses (R194, R198). -/
def dropLate (r : Nat) (b : Block) : Block :=
  let st := (b.office r).st
  let late := st.places.filter (fun p => !b.descIn p)
  let back := st.served.filter (fun x => late.any (samePlace x.role x.tid))
  if ¬ st.filled ∨ late.isEmpty then b
  else
    let b := postEventN evDiceLate b.now (unitOffice r) late.length [] b
    let b := forEach (back.filter (fun x => decide (x.left = 0))) (fun _ b => diceDrop r b) b
    let b := modSt r (fun s => { s with
      places := s.places.filter b.descIn
      promosNext := s.promosNext ++ back.filter (fun x => decide (0 < x.left)) }) b
    diceShort r late.length (modDice r (fun d => { d with placements := d.placements - late.length, late := late.length }) b)

/-- An Office starts the slot's step: what was filled for it takes force, and what fell after its last verdict counts for it
(R194, R198, R265, R270). -/
def slotOffice (r step : Nat) (b : Block) : Block :=
  let b := dropLate r (modDice r (fun d => { d with late := 0 }) b)
  let o := b.office r
  let b := b.modOffice r (fun o => { o with
    reload := false
    spent := []
    dropped := []
    dice := { o.dice with promos := if o.st.filled then o.st.promosNext else o.dice.promos }
    st := {
      step := step
      reasons := o.st.reasons
      named := o.st.named
      promoteRoles := o.st.promoteRoles
      places := if o.st.filled then o.st.places else [] } })
  bankWait r (forEach o.dropped (fun u b => queueUnit r u b) b)

/-- Release every working core that stands fenced and may run (R72, R155). -/
def releaseWorkers (b : Block) : Block := forEach (b.workCores.filter b.releasableCore) releaseCore b

/-- What a step boundary does to cores and the Board Map: clean hours, the rows of R232, ARMED fills, the new generation,
releases (R43, R230, R232, R238). -/
def boundaryCores (b : Block) : Block :=
  let b := boundaryAll b
  let b := forEach (b.ho.job.fills.filter (fun f => decide (f.phase = 5))) finishFill b
  let b := if b.ho.bm.dirty then publish b else b
  releaseWorkers b

/-- The slot of a step begins at count t: handshakes restart before any core is released (R159). (DESIGN CHOICE, log 81.) -/
def openSlot (t step replay ix : Nat) (b : Block) : Block :=
  let b := boundaryCores (forEach b.liveCores realign b)
  let b := forEach b.liveCores (fun i b => b.modCore i (slotCore (b.office (regionOf i)).st.filled)) b
  let b := b.modJob (fun j => { j with
    step := step
    slotAt := t
    shift := 0
    shifts := []
    lateShift := 0
    slotIx := ix
    inSlot := true
    decided := false
    graphed := false
    replay := replay
    stopNext := false
    hoReasons := 0
    recs := []
    egress := []
    stalls := [] })
  forEach b.popRegions (fun r b => slotOffice r step b) b

/-! ### Launch (R150 to R154, R375) -/

/-- LAUNCH_ARM_DEADLINE (R152, R457): Letterboxes are unarmed at L - 200,000: a stop, and LAUNCH ends LAUNCH_ABORTED. (DESIGN CHOICE, log 83.) -/
def armDeadline (b : Block) : Block :=
  if b.ho.job.armed ∧ ¬ b.ho.job.unarmed.isEmpty then
    clearCause .launchAbort (originate .launchAbort (advTo (b.ho.job.launchAt - 200000) b))
  else b
def execLaunchArmDeadline (s : State) : Host.Outcome State Fault Refusal := act armDeadline s

/-- A working core ungates at L (R73, R151): unless a stop or its fence keeps it gated. (DESIGN CHOICE, log 44.) -/
def ungateLaunch (c : Core) : Core :=
  { c with
    pins := { c.pins with cgN := !c.ctl.stopGated && (c.pins.holdN || c.ctl.fencing || !c.ctl.toHold) }
    ctl := { c.ctl with launchGated := false }
    time := { c.time with armed := none } }

/-- The probation periods that wait for a first launch begin (R234). -/
def startProbation (t : Nat) (b : Block) : Block :=
  forEach (b.presentCores.filter (fun i => decide ((b.hist i).st = .probation) && (b.hist i).probStart.isNone))
    (fun i b => b.modHist i (fun h => { h with probStart := some t })) b

/-- The job launches at L. Units that wait count their recovery steps from its first slot (R262). -/
def doLaunch (b : Block) : Block :=
  let t := b.ho.job.launchAt
  let b := advTo t b
  let res := le 8 t ++ le 8 b.ho.job.armedAt ++ le 4 b.ho.job.armedCnt
  let b := b.modJob (fun j => { j with armed := false, launched := true, withheld := 0, hangs := 0 })
  let b := startProbation t b
  let b := forEach b.popRegions (fun r b => b.modOffice r (fun o => { o with testq := o.testq.map (fun u => { u with dueSlot := 0 }) })) b
  let b := openSlot t b.man.firstStep 0 0 b
  let b := forEach b.workCores (fun i b => b.modCore i ungateLaunch) b
  let b := finishOp 0x102 0 0 res b
  let iv := b.ho.policy.interval * 60000000000
  let b := b.modParcel (fun p => { p with served := t - 1 })
  if iv ≠ 0 ∧ (t + iv - 1) / iv * iv < t + 60000000000 then prepareParcel b else b

/-- LAUNCH_COUNT_REACHED (R151, R152, R154): a stop in force at L dominates the launch. (DESIGN CHOICE, log 81.) -/
def launchReached (b : Block) : Block :=
  if ¬ b.ho.job.armed then b
  else if b.inForce then abortLaunch (advTo b.ho.job.launchAt b)
  else if ¬ b.ho.job.unarmed.isEmpty then armDeadline b
  else if (match b.stop.sched with | some t => decide (t ≤ b.ho.job.launchAt) | none => false) then stopCountReached b
  else doLaunch b
def execLaunchCountReached (s : State) : Host.Outcome State Fault Refusal := act launchReached s

/-! ### The step boundary (R43, R224, R236, R242) -/

/-- Fills whose bound has passed by the launch fail first (R238). (DESIGN CHOICE, log 78.) -/
def expireFills (b : Block) : Block :=
  forEach (b.ho.job.fills.filter (fun f => decide (f.phase < 5))) (fun f b => fillTimeout (regionOf f.dst) f.role b) b

/-- A count has been reached by the next slot launch. (DESIGN CHOICE, log 81.) -/
def Block.beforeSlot (b : Block) (t : Option Nat) : Bool := match t with | some t => decide (t ≤ b.nextSlot) | none => false

/-- STEP_BOUNDARY: the next slot launches, with the next step or the replay. Whatever falls due before it comes first: the
decision, fill bounds, a late vote, a stop or a parcel stop. A job that is to stop launches no further slot, whatever has
become of its scheduled stop (R236). (DESIGN CHOICE, log 81 and 82.) -/
def stepBoundary (b : Block) : Block :=
  if ¬ b.ho.job.launched ∨ b.stop.stopped then b
  else
    let b := if b.ho.job.decided then b else stepDecision b
    let b := expireFills b
    let b := if b.ho.parcel.voting then parcelVoteLate b else b
    if ¬ b.ho.job.launched ∨ ¬ b.ho.job.decided then b
    else if b.beforeSlot b.stop.at_ then stopCountReached b
    else if b.stop.at_.isNone ∧ b.beforeSlot b.stop.sched then stopCountReached b
    else if b.ho.job.stopNext then scheduledStop b.nextSlot b
    else if b.beforeSlot b.ho.parcel.stopAt then parcelStop b
    else
      let t := b.nextSlot
      let j := b.ho.job
      openSlot t (if j.withheld = 0 then j.step + 1 else j.step) j.withheld (j.slotIx + 1) (advTo t b)
def execStepBoundary (s : State) : Host.Outcome State Fault Refusal := act stepBoundary s

end Sys2Proof.Machine
end

