-- ==== Sys2Proof/Machine/Images.lean ====
section
/-! DEFINITION. Image distribution: rounds and readback (13_gnonil_commands R422 to R425, R427). -/

namespace Sys2Proof.Machine

open Sys2Proof

def execImagePacket (core : CoreIdx) (p : ImagePacket) (s : State) : Host.Outcome State Fault Refusal := act (imagePacket core.toNat p) s

/-- A target at the end of a round: missing packets after round 8 fail it, but a target that has just been given its
further pass keeps a whole round (R424, R425). (DESIGN CHOICE, log 104.) -/
def imgRoundTarget (i : Nat) (b : Block) : Block :=
  if (b.imgMissing i).isEmpty then b
  else if (b.core i).img.again then modImg i (fun x => { x with again := false }) b
  else if 8 ≤ b.ho.image.round then imgFail i b
  else b

/-- Ascending numbers as runs of start and length. -/
def runsOf : List Nat → List (Nat × Nat)
  | [] => []
  | k :: l => match runsOf l with
    | (s, n) :: r => if s = k + 1 then (k, n + 1) :: r else (k, 1) :: (s, n) :: r
    | [] => [(k, 1)]

/-- What the region's Office requests for the next round: the missing packets that its open targets named, up to 16 runs
each (R424). -/
def Block.imgAsked (b : Block) (r : Nat) : List (Nat × Nat) :=
  let named := (b.ho.image.targets.filter (fun i => decide (regionOf i = r) && b.imgOpen i)).flatMap (fun i =>
    ((runsOf (b.imgMissing i)).take 16).flatMap (fun x => rangeFrom x.1 x.2))
  runsOf ((List.range b.ho.image.packets).filter (fun k => named.contains k))

/-- IMAGE_ROUND_END (R424): the region's Office collects the missing runs and requests those packets. When every region of the mask has ended the
round the next one begins. (DESIGN CHOICE, log 104.) -/
def imageRoundEnd (r : Nat) (b : Block) : Block :=
  if ¬ b.ho.image.active ∨ ¬ maskBit b.ho.image.regions r ∨ maskBit b.ho.image.ended r then b
  else
    let b := imgSweep b
    let b := forEach (b.ho.image.targets.filter (fun i => decide (regionOf i = r) && b.imgOpen i)) imgRoundTarget b
    let b := b.modImage (fun x => { x with ended := maskSet x.ended r true, asked := tset x.asked r (b.imgAsked r) })
    let b := if b.ho.image.ended = b.ho.image.regions then b.modImage (fun x => { x with ended := 0, round := min 8 (x.round + 1) }) else b
    imgCheck b
def execImageRoundEnd (region : RegionIdx) (s : State) : Host.Outcome State Fault Refusal := act (imageRoundEnd region.toNat) s

/-- IMAGE_READBACK_DONE (R425): the bytes read back are measured. A first mismatch clears the bitmap for one more pass, a
second fails the target; a match releases the core to take roles. (DESIGN CHOICE, log 104.) -/
def imageReadback (i : Nat) (data : List Byte) (b : Block) : Block :=
  let b := imgSweep b
  if ¬ b.imgOpen i ∨ ¬ (b.core i).lbOn ∨ ¬ (b.imgMissing i).isEmpty then imgCheck b
  else if sha384v data = b.ho.image.digest then
    let b := modImg i (fun x => { x with done := true }) b
    imgCheck (if b.mayRelease ∧ b.releasableCore i then releaseCore i b else b)
  else if (b.core i).img.misses = 0 then modImg i (fun x => { x with got := [], misses := 1, again := true }) b
  else imgCheck (imgFail i (modImg i (fun x => { x with misses := x.misses + 1 }) b))
def execImageReadbackDone (core : CoreIdx) (data : List Byte) (s : State) : Host.Outcome State Fault Refusal :=
  act (imageReadback core.toNat data) s

end Sys2Proof.Machine
end

