-- ==== Sys2Proof/Machine/LetterIdent.lean ====
section
/-! DEFINITION. Letters of the identity group 0x0 (13_gnonil_commands R409, R412, R421; R9). -/

namespace Sys2Proof.Machine

open Sys2Proof

/-- Architecture and release as the receipts give them (R412). -/
def archCode : Nat := 0x10
def relCode : Nat := 0x14

/-- HELLO (R9, R409): a session opens when version 1 lies in the sender's range. -/
def helloL (l : Letter) (b : Block) : Reply :=
  let v := l.p 0 1
  if fld v 0 4 ≤ 1 ∧ 1 ≤ fld v 4 4 then
    .done (le 1 1 ++ le 1 archCode ++ le 1 relCode ++ le 1 (pmCode b.pm.state))
      (b.modMail (fun m => { m with sessions := if m.sessions.contains l.sender then m.sessions else m.sessions ++ [l.sender] }))
  else .refuse 0x0100 0
def execHello (ring : BitVec 6) (s : State) : Host.Outcome State Fault Refusal := act (letterRow ring.toNat 0x001 helloL) s

/-- IDENTIFY (R412). -/
def identifyL (_ : Letter) (b : Block) : Reply :=
  .done (le 4 b.idcode ++ le 2 b.wafer ++ le 1 (lcCode b.svc.lc) ++ le 1 (svcCode b.svc.state) ++ le 16 b.regionMask) b
def execIdentify (ring : BitVec 6) (s : State) : Host.Outcome State Fault Refusal := act (letterRow ring.toNat 0x002 identifyL) s

/-! ### INVENTORY (R421) -/

/-- ring_sig (R329). -/
def Block.ringSig (b : Block) : Nat := (crc16 ((List.range 8).map (fun r => BitVec.ofNat 8 (lnat b.ho.fleet.len r)))).toNat

/-- Part 0: identity, measurement, network openings. (DESIGN CHOICE, log 101.) -/
def Block.inv0 (b : Block) : List Byte :=
  le 1 archCode ++ le 1 relCode ++ le 1 1 ++ le 1 (lcCode b.svc.lc) ++ le 1 (svcCode b.svc.state) ++ le 1 (pmCode b.pm.state) ++ [0, 0] ++
    le 4 b.idcode ++ le 2 b.wafer ++ [0, 0] ++ le 16 b.regionMask ++ le 48 b.ho.mgmt.meas.toNat ++ le 1 (b01 b.ho.mgmt.measSlot) ++ [0, 0, 0] ++
    le 4 b.ledger.openings.length

/-- Part 1: count, epoch, steps, Board Map. -/
def Block.inv1 (b : Block) : List Byte :=
  le 8 b.now ++ le 2 b.ledger.epoch ++ [0, 0] ++ le 4 b.ho.job.step ++ le 4 b.ledger.stepFranked ++ le 1 b.ho.job.replay ++
    le 1 (b01 b.ho.post.ver) ++ le 2 b.ringSig ++ le 4 b.ho.bm.gen.toNat ++ le 48 b.ho.bm.digest.toNat

/-- Core positions by state code; every position without a core is ABSENT (R42). -/
def Block.stateCounts (b : Block) : List Nat :=
  let codes := b.presentCores.map (fun i => stCode (b.coreState i))
  (List.range 7).map (fun k => (codes.filter (· = k)).length) ++ [2 ^ 20 - codes.length]

/-- Eligible members by region (R25). -/
def Block.eligMask (b : Block) (mb : Bool) : Nat :=
  packF ((List.range 128).map (fun r => let o := b.office r; (r, b01 (if mb then o.memB.eligible else o.memA.eligible))))

/-- Part 2: cores, Couriers, members, routers. -/
def Block.inv2 (b : Block) : List Byte :=
  b.stateCounts.flatMap (le 4) ++ le 2 (b.crMask (·.en)) ++ le 2 (b.crMask (·.domFail)) ++ le 16 (b.eligMask false) ++ le 16 (b.eligMask true) ++
    le 4 (b.units.routers.filter (·.2.lost)).length

/-- Part 3: withheld steps, fills, last decision, fill of each ring. -/
def Block.inv3 (b : Block) : List Byte :=
  le 4 (b01 (decide (b.ho.job.withheld ≠ 0))) ++ le 2 (b.ho.job.fills.filter (·.runs)).length ++ [0, 0] ++ le 4 b.ledger.stepDecided ++
    le 4 b.ho.job.lastMask.toNat ++ (List.range 64).map (fun r => BitVec.ofNat 8 (ringFill (b.ring r) r))

/-- Codes of the generation states, in the order of R382. (DESIGN CHOICE, log 101.) -/
def genCode : GenState → Nat
  | .reserving => 0 | .capturing => 1 | .committing => 2 | .single => 3 | .double => 4 | .failed => 5

/-- A restore point, or zeros where there is none. (DESIGN CHOICE, log 101.) -/
def genBytes (g : Option GenRec) : List Byte :=
  match g with
  | some g => le 4 g.gen ++ le 1 (genCode g.state) ++ [0, 0, 0] ++ le 4 g.step ++ le 48 g.root.toNat
  | none => List.replicate 60 0

/-- Part 4: restore points, Holders, copies held for others. (DESIGN CHOICE, log 101.) -/
def Block.inv4 (b : Block) : List Byte :=
  genBytes b.ledger.gens[0]? ++ genBytes b.ledger.gens[1]? ++ le 2 (b.ho.parcel.holder1.getD 0) ++ le 2 (b.ho.parcel.holder2.getD 0) ++
    le 1 b.ho.parcel.exposure.toNat ++ [0, 0, 0] ++ le 4 (b.ledger.holds.filter (fun h => h.committed && !h.lost)).length

/-- Part 5: reset history, bytes 4 to 123 whole, zero where no reset is held. (DEDUCED, log 113.) -/
def Block.inv5 (b : Block) : List Byte :=
  le 1 b.ho.resets.inWindow ++ le 1 b.ho.policy.resetCount ++ le 2 b.ho.policy.resetWindow ++
    (List.range 15).flatMap (fun k => le 8 (b.ho.resets.warmAt.getD k 0))

/-- Part 6: outstanding letters. (DESIGN CHOICE, log 101.) -/
def Block.inv6 (b : Block) : List Byte :=
  let l := b.ho.mail.outst.take 27
  le 1 l.length ++ [0, 0, 0] ++ l.flatMap (fun o => le 1 o.ring ++ [0] ++ le 2 o.opcode ++ le 4 o.seq.toNat)

/-- INVENTORY (R421): seven parts of one snapshot. (DESIGN CHOICE, log 101.) -/
def inventoryL (_ : Letter) (b : Block) : Reply := .parts [b.inv0, b.inv1, b.inv2, b.inv3, b.inv4, b.inv5, b.inv6] b
def execInventory (ring : BitVec 6) (s : State) : Host.Outcome State Fault Refusal := act (letterRow ring.toNat 0x003 inventoryL) s

/-- MEASURE (R412, R448). -/
def measureL (_ : Letter) (b : Block) : Reply :=
  let m := b.ho.mgmt
  .done (le 48 m.meas.toNat ++ le 1 (b01 m.measSlot) ++ [0, 0, 0] ++ le 4 m.measLen) b
def execMeasure (ring : BitVec 6) (s : State) : Host.Outcome State Fault Refusal := act (letterRow ring.toNat 0x004 measureL) s

end Sys2Proof.Machine
end

