-- ==== Sys2Proof/Machine/Manifests.lean ====
section
/-! DEFINITION. The job manifest: its bytes read into records, and the checks that reject it (13_gnonil_commands R419
and R420; R40, R185 to R187, R233, R259, R346, R347, R372). -/

namespace Sys2Proof.Machine

open Sys2Proof

/-! ### Sections (R419) -/

/-- A section entry: kind, offset, record count, length. -/
structure Sect where
  kind : Nat := 0
  off : Nat := 0
  cnt : Nat := 0
  len : Nat := 0
  deriving DecidableEq, Repr

def sectEntry (l : List Byte) (i : Nat) : List Byte := slice l (256 + 16 * i) 16
def sectsOf (l : List Byte) : List Sect :=
  (List.range (rd l 5 1)).map (fun i => let e := sectEntry l i; ⟨rd e 0 1, rd e 4 4, rd e 8 4, rd e 12 4⟩)

/-- The 16-byte records of every section of a kind, in order. (DESIGN CHOICE, log 98.) -/
def recsOf (l : List Byte) (kind : Nat) : List (List Byte) :=
  ((sectsOf l).filter (fun s => decide (s.kind = kind))).flatMap (fun s => (List.range s.cnt).map (fun i => slice l (s.off + 16 * i) 16))

/-- The blocks of a TIMETABLES section: role and raw entries; none when they do not fill the section exactly. (DESIGN CHOICE, log 98.) -/
def ttBlocks : Nat → List Byte → Option (List (Nat × List (List Byte)))
  | 0, l => if l.isEmpty then some [] else none
  | n + 1, l =>
    let k := rd l 4 4
    if l.length < 16 + 16 * k ∨ rd l 8 8 ≠ 0 ∨ 2 ^ 20 ≤ rd l 0 4 then none
    else match ttBlocks n (l.drop (16 + 16 * k)) with
      | none => none
      | some r => some ((rd l 0 4, (List.range k).map (fun i => slice l (16 + 16 * i) 16)) :: r)

/-- Every Timetable block of the manifest. -/
def allBlocks (l : List Byte) : Option (List (Nat × List (List Byte))) :=
  ((sectsOf l).filter (fun s => decide (s.kind = 5))).foldl (fun acc s =>
    match acc, ttBlocks s.cnt (slice l s.off s.len) with
    | some a, some x => some (a ++ x)
    | _, _ => none) (some [])

/-! ### Records -/

def roleRec (e : List Byte) : RoleRec := ⟨rd e 0 4, rd e 4 4, bit (rd e 8 1) 0, rd e 12 4⟩
def windowRec (e : List Byte) : WindowRec := ⟨rd e 0 2, rd e 4 4, rd e 8 4⟩
def slotRec (e : List Byte) : SlotRec := let v := rd e 0 16; ⟨fld v 0 20, fld v 20 8, bit v 28, fld v 32 16, fld v 64 32⟩
def idleRec (e : List Byte) : IdleRec := let v := rd e 0 16; ⟨fld v 0 20, bit v 20, fld v 24 8, fld v 32 8, fld v 48 32⟩
def ttRec (e : List Byte) : TtEntry := let v := rd e 0 16; ⟨bit v 0, bit v 1, fld v 8 48, fld v 64 32⟩
def hostRec (e : List Byte) : HostSect := ⟨rd e 0 1, rd e 4 4, rd e 8 8⟩
def restoreRec (e : List Byte) : RestoreRec := ⟨decide (rd e 0 1 = 1), rd e 4 4, rd e 8 4⟩

/-- The reserved fields of a record are zero and its codes defined (R185, R186, R259, R346, R419). (DESIGN CHOICE, log 98.) -/
def recOk (kind : Nat) (e : List Byte) : Bool :=
  let v := rd e 0 16
  match kind with
  | 1 => fld v 20 12 = 0 && fld v 52 12 = 0 && fld v 65 31 = 0
  | 2 => fld v 16 16 = 0 && fld v 96 32 = 0
  | 3 => fld v 29 3 = 0 && fld v 48 16 = 0 && fld v 96 32 = 0
  | 4 => fld v 21 3 = 0 && fld v 40 8 = 0 && fld v 80 48 = 0
  | 5 => fld v 2 6 = 0 && fld v 56 8 = 0 && fld v 96 32 = 0
  | 6 => (fld v 0 8 = 1 || fld v 0 8 = 2) && fld v 8 24 = 0
  | 7 => fld v 0 8 ≤ 1 && fld v 8 24 = 0 && fld v 96 32 = 0
  | _ => false

/-- The manifest that well laid out bytes spell. -/
def parseManifest (l : List Byte) : Manifest :=
  { jobSeed := BitVec.ofNat 64 (rd l 8 8)
    slotLen := rd l 16 4
    firstStep := rd l 20 4
    wafer := rd l 24 2
    shadowFrac := rd l 6 1
    regions := BitVec.ofNat 128 (rd l 32 16)
    roles := (recsOf l 1).map roleRec
    windows := (recsOf l 2).map windowRec
    slots := (recsOf l 3).map slotRec
    idle := (recsOf l 4).map idleRec
    timetables := ((allBlocks l).getD []).map (fun p => (p.1, p.2.map ttRec))
    parcel := (recsOf l 6).map hostRec
    restoreMap := (recsOf l 7).map restoreRec
    digest := sha384v l }

/-! ### The rules (R420) -/

/-- No value is repeated. -/
def noDup : List Nat → Bool
  | [] => true
  | a :: r => !r.contains a && noDup r

/-- Header, section table and record layout (detail 0x01). -/
def layoutOk (b : Block) (l : List Byte) : Bool :=
  let ss := sectsOf l
  decide (256 ≤ l.length) && decide (l.length ≤ 2 ^ 32) && decide (rd l 0 4 = 0x4D465331) && decide (rd l 4 1 = 1) &&
    decide (1 ≤ rd l 5 1) && decide (rd l 5 1 ≤ 15) && decide (rd l 7 1 = 0) && decide (rd l 24 2 = b.wafer) &&
    allZero (slice l 26 6) && decide (rd l 32 16 = b.regionMask) && allZero (slice l 48 208) &&
    decide (256 + 16 * ss.length ≤ l.length) && (List.range ss.length).all (fun i => allZero (slice (sectEntry l i) 1 3)) &&
    ss.all (fun s => decide (1 ≤ s.kind) && decide (s.kind ≤ 7) && decide (s.off % 64 = 0) && decide (s.off + s.len ≤ l.length) &&
      (decide (s.kind = 5) || decide (16 * s.cnt = s.len))) &&
    [1, 2, 3, 4, 6, 7].all (fun k => (recsOf l k).all (recOk k)) &&
    (match allBlocks l with | none => false | some bs => bs.all (fun p => p.2.all (recOk 5)))

/-- Working roles, their records and their regions. -/
def manWorking (m : Manifest) : List RoleRec := m.roles.filter (fun r => !r.spare)
def manSpares (m : Manifest) : List Nat := (m.roles.filter (·.spare)).map (·.core)
def manRoleCore (m : Manifest) (role : Nat) : Option Nat := ((manWorking m).find? (fun r => decide (r.role = role))).map (·.core)

/-- At most 256 spares in a region (R40, detail 0x02). -/
def sparesOk (m : Manifest) : Bool :=
  (List.range 128).all (fun r => decide (((manSpares m).filter (fun i => decide (regionOf i = r))).length ≤ 256))

/-- The two windows do not meet. -/
def windowsApart (x y : WindowRec) : Bool := decide (x.tidHi < y.tidLo) || decide (y.tidHi < x.tidLo)
def windowsOk : List WindowRec → Bool
  | [] => true
  | x :: r => decide (x.tidLo ≤ x.tidHi) && r.all (fun y => decide (y.window ≠ x.window) && windowsApart x y) && windowsOk r

/-- Region of a slot's role; 128 where it is no working role. -/
def manSlotRegion (m : Manifest) (s : SlotRec) : Nat := match manRoleCore m s.role with | some i => regionOf i | none => 128

/-- The shadow plan (R187, detail 0x03), but for the count of tiles in windows. (DESIGN CHOICE, log 98.) -/
def shadowOk (m : Manifest) : Bool :=
  decide (m.shadowFrac ≤ 125) && decide (m.windows.length ≤ 65536) && windowsOk m.windows &&
    m.slots.all (fun s => ((manRoleCore m s.role)).isSome && m.windows.any (fun w => decide (w.window = s.window)) && decide (s.readOffset < m.slotLen) &&
      m.slots.all (fun t => decide (t.window ≠ s.window) || decide (manSlotRegion m t = manSlotRegion m s))) &&
    noDup (m.slots.map (fun s => 256 * s.role + s.slot)) &&
    (List.range 128).all (fun r =>
      let l := m.slots.filter (fun s => decide (manSlotRegion m s = r))
      decide (l.length ≤ 524288) && decide ((l.filter (·.referee)).length ≤ 64))

/-- Some region may hold more tiles in windows than 0.3 x step length: it declares more own tiles than that, and the
manifest does not say which of them lie in windows (R187). (DESIGN CHOICE, log 98.) -/
def mayExceed (m : Manifest) : Bool :=
  !m.windows.isEmpty && (List.range 128).any (fun r =>
    decide (3 * m.slotLen < 10 * (((manWorking m).filter (fun x => decide (regionOf x.core = r))).foldl (fun a x => a + x.ownTiles) 0)))

/-- exp_cyc rises strictly. -/
def cycRises : List TtEntry → Bool
  | [] => true
  | [_] => true
  | x :: y :: r => decide (x.expCyc < y.expCyc) && cycRises (y :: r)

/-- Exactly the last entry is final. -/
def lastFinal : List TtEntry → Bool
  | [] => false
  | [x] => x.isFinal
  | x :: r => !x.isFinal && lastFinal r

/-- Timetables (R347, detail 0x04). A block for a role that is no working role breaks rule 0x09 instead. -/
def timetablesOk (b : Block) (m : Manifest) : Bool :=
  decide (m.slotLen % 1000 = 0) && m.timetables.all (fun p =>
    match manRoleCore m p.1 with
    | none => true
    | some i => decide (p.2.length ≤ 64) && cycRises p.2 && lastFinal p.2 &&
        p.2.all (fun e => decide (e.expPm = cycTicks (b.rcfg (regionOf i)) e.expCyc) && decide (e.expPm < m.slotLen)))

/-- No role on a FENCED, RETIRED or ABSENT core (R233, detail 0x05). -/
def placesOk (b : Block) (m : Manifest) : Bool :=
  (manWorking m).all (fun r => decide (r.core < 2 ^ 20) && (match b.coreState r.core with | .fenced => false | .retired => false | .absent => false | _ => true))

/-- Roles on UNSCREENED cores (R233, R247, detail 0x06). -/
def unscreenedOk (b : Block) (m : Manifest) : Bool :=
  decide (((manWorking m).filter (fun r => decide (b.coreState r.core = .unscreened))).length ≤ b.ho.policy.unscreenedLimit)

/-- Pages of the CORE_STATE section (R367). -/
def corePages (b : Block) (m : Manifest) : Nat := if b.pcLen = 0 then 0 else ceilDiv (manWorking m).length (256 / b.pcLen)

/-- Parcel sections (R372, detail 0x07): 96 GiB are 25,165,824 pages. -/
def parcelOk (b : Block) (m : Manifest) : Bool :=
  decide (m.parcel.length ≤ 238) && m.parcel.all (fun h => decide (h.addr % 4096 = 0)) &&
    decide (m.parcel.foldl (fun a h => a + h.pages) 0 + corePages b m ≤ 25165824)

/-- Offset of a role's final milestone, and of T_end (R222). -/
def manFinalPm (m : Manifest) (role : Nat) : Option Nat :=
  ((m.timetables.find? (fun p => decide (p.1 = role))).bind (fun p => p.2.find? (·.isFinal))).map (·.expPm)
def manTEndOff (m : Manifest) : Nat := m.timetables.foldl (fun a p => p.2.foldl (fun a e => if e.isFinal then max a e.expPm else a) a) 0

/-- Idle-slot records (R259, detail 0x08). (DESIGN CHOICE, log 98.) -/
def idleOk (b : Block) (m : Manifest) : Bool :=
  let banks := match b.cfg with | some c => c.bankSigs.length | none => 0
  noDup (m.idle.map (·.role)) && m.idle.all (fun x => ((manRoleCore m x.role)).isSome && decide (x.bankLo ≤ x.bankHi) && decide (x.bankHi < banks) &&
    decide (x.startOffset < (manTEndOff m)) && (match manFinalPm m x.role with | some f => decide (f ≤ x.startOffset) | none => true))

/-- Timetable blocks, roles and cores match one to one (detail 0x09). -/
def rolesOk (m : Manifest) : Bool :=
  (manWorking m).all (fun r => m.timetables.any (fun p => decide (p.1 = r.role))) &&
    m.timetables.all (fun p => ((manRoleCore m p.1)).isSome) && noDup (m.timetables.map (·.1)) &&
    noDup ((manWorking m).map (·.role)) && noDup (m.roles.map (·.core))

/-- The restore map names present sections and roles (detail 0x0A). -/
def mapOk (m : Manifest) : Bool :=
  m.restoreMap.all (fun x => if x.isRole then ((manRoleCore m x.new)).isSome else decide (x.new < m.parcel.length))

/-- The lowest detail among the rules a manifest breaks (R420). `tooMany` settles the count that only the tiles
themselves could settle. -/
def manifestFault (b : Block) (l : List Byte) (m : Manifest) (tooMany : Bool) : Option Nat :=
  if ¬ layoutOk b l then some 1
  else if ¬ sparesOk m then some 2
  else if ¬ shadowOk m ∨ (mayExceed m ∧ tooMany) then some 3
  else if ¬ timetablesOk b m then some 4
  else if ¬ placesOk b m then some 5
  else if ¬ unscreenedOk b m then some 6
  else if ¬ parcelOk b m then some 7
  else if ¬ idleOk b m then some 8
  else if ¬ rolesOk m then some 9
  else if ¬ mapOk m then some 10
  else none

/-! ### Loading (R233, R346, R412) -/

/-- A declared spare becomes SPARE when it is ACTIVE or PROBATION below 64 pips (R233). -/
def declareSpare (i : Nat) (b : Block) : Block :=
  let h := b.hist i
  if (b.coreState i = .active ∨ b.coreState i = .probation) ∧ h.pips < 64 then b.setHist i { h with st := .spare } else b

/-- A working core gets its Timetable and waits in pre-launch hold (R346; 04 "Scheduled launch"). (DESIGN CHOICE, log 44.) -/
def holdWorker (tt : List TtEntry) (c : Core) : Core :=
  { c with
    pins := { c.pins with cgN := false }
    time := { c.time with timetable := tt }
    ctl := { c.ctl with launchGated := true } }

/-- A core without a role of the new job holds no Timetable. -/
def idleWorker (c : Core) : Core := { c with time := { c.time with timetable := [] }, ctl := { c.ctl with launchGated := false } }

/-- Load a checked manifest: roles, spares, Timetables, Dice, Holders, service state (R234, R333, R337, R392, R412). A SUSPECT core
that the new manifest leaves without a role gets its full rolling test (R232, R264). (DESIGN CHOICE, log 85.) -/
def loadManifest (m : Manifest) (b : Block) : Block :=
  let roles : Tab Nat := (manWorking m).foldl (fun (t : Tab Nat) r => tset t r.core r.role) []
  let b := b.modLedger (fun l => { l with epoch := if l.epoch = 0 then 1 else l.epoch })
  let b := b.modJob (fun j => { j with man := some m })
  let left := (b.ho.bm.roles.map (·.1)).filter (fun i => decide (b.coreState i = .suspect) && (tget roles i).isNone)
  let b := forEach left queueSuspicion (b.modBm (fun x => { x with roles := roles }))
  let b := forEach (manSpares m) declareSpare b
  let b := forEach b.popRegions (fun r b => b.modOffice r (fun o => { o with
    relocs := []
    st := {}
    dice := { o.dice with nextStep := m.firstStep } })) b
  let b := forEach (b.liveCores.filter b.attached) (fun i b => b.modCore i (fun c =>
    match tget roles i with
    | some role => holdWorker (((m.timetables.find? (fun p => decide (p.1 = role))).map (·.2)).getD []) c
    | none => idleWorker c)) b
  setSvc .job (bmChanged (selectHolders b))

end Sys2Proof.Machine
end

