-- ==== Sys2Proof/Machine/LetterJob.lean ====
section
/-! DEFINITION. Letters of the job and Postmark group 0x1 (13_gnonil_commands R412; R127, R128, R136, R150, R153, R393). -/

namespace Sys2Proof.Machine

open Sys2Proof

/-- A letter that is accepted only outside a job (13 "Opcodes"). -/
def outside (f : Letter → Block → Reply) (l : Letter) (b : Block) : Reply := if b.inJob then .refuse 0x0303 0 else f l b

/-- A refusal BAD_PARAM that names parameter offset o (R485). (DESIGN CHOICE, log 99.) -/
def badParam (o : Nat) : Reply := .refuse 0x0400 (32 + o)

/-- Host memory as a Courier port reads it: none when a read fails twice, or no port runs (R420, R426). (DESIGN CHOICE, log 98.) -/
def Block.hostRead (b : Block) (data : Option (List Byte)) (n : Nat) : Option (List Byte) :=
  match data with
  | none => none
  | some d => if (List.range 16).any (fun p => b.portUp p) ∧ n ≤ d.length then some (d.take n) else none

/-- JOB_LOAD (R412, R419, R420). (DESIGN CHOICE, log 17 and 94 and 98.) -/
def jobLoadL (data : Option (List Byte)) (l : Letter) (b : Block) : Reply :=
  if b.svc.state ≠ .ready ∨ b.ho.job.man.isSome then .refuse 0x0303 0
  else match b.hostRead data (l.p 8 8) with
  | none => .whole [] 0x0504 0 [] b
  | some d =>
    if sha384v d ≠ BitVec.ofNat 384 (l.p 16 48) then .whole [] 0x0406 0 [] b
    else
      let m := parseManifest d
      let f := freshBit b
      let b := if mayExceed m then f.2 else b
      match manifestFault b d m f.1 with
      | some x => .whole [] 0x0404 x [] b
      | none =>
        let b := loadManifest m b
        let w := freshWord b
        let b := if b.tMin.isNone then w.2 else b
        let t := b.tMin.getD w.1.toNat
        .whole [] 0 0 (le 2 b.ledger.epoch ++ [0, 0] ++ le 4 (manWorking m).length ++ le 4 b.ho.bm.gen.toNat ++ le 4 b.parcelPages ++ le 4 t) b
def execJobLoad (ring : BitVec 6) (data : Option (List Byte)) (s : State) : Host.Outcome State Fault Refusal :=
  act (letterRow ring.toNat 0x101 (jobLoadL data)) s

/-- The job's primary KAT (R264): the entry of lowest kat_id whose in_fmt elem_type is that of format entry 0, or of
lowest kat_id when none matches. -/
def Block.choosePrimary (b : Block) : Option Nat :=
  match b.cfg with
  | none => none
  | some c =>
    let t := fElem (b.ho.policy.fmt.getD 0 0xF)
    let ks := (List.range c.kats.length).filter (fun k => decide (fElem (c.kats.getD k {}).inFmt = t))
    match sortBy (fun x y => decide ((c.kats.getD x {}).katId ≤ (c.kats.getD y {}).katId)) ks with
    | k :: _ => some k
    | [] => if c.kats.isEmpty then none else some b.lowKat

/-- A Letterbox of the job is armed with L by staged multicast, and holds its core until then; its forwarding record is
cleared (R150, R299, R303). -/
def armWorker (at0 : Nat) (c : Core) : Core :=
  { c with
    pins := { c.pins with cgN := false }
    time := { c.time with armed := some at0 }
    ctl := { c.ctl with launchGated := true }
    net := { c.net with fwd := none } }

/-- The Letterboxes of working cores that run. -/
def Block.liveWorkers (b : Block) : List Nat := b.workCores.filter (fun i => (b.core i).porN)

/-- LAUNCH (R150, R154, R271): each Office's sequencer arms its region's Letterboxes with L by a stage that activates at L. The
exchange with the Letterboxes of `missing`, and with those that their router does not reach, goes through the Post; the
interim receipt waits for the last ACK (R412). (DESIGN CHOICE, log 9 and 11 and 83.) -/
def launchL (missing : List Nat) (l : Letter) (b : Block) : Reply :=
  let at0 := l.p 0 8
  if b.ho.job.man.isNone then .refuse 0x0304 0
  else if b.inJob then .refuse 0x0303 0
  else if b.pm.state ≠ .loaded then .refuse 0x0306 0
  else if at0 % 1000 ≠ 0 then .refuse 0x0401 0
  else if at0 < b.now + 2000000 then .refuse 0x0402 0
  else if b.ho.policy.unscreenedLimit < b.unscreenedRoles then .refuse 0x0404 6
  else
    let out (i : Nat) : Bool := missing.contains i || !b.attached i
    let late := b.workCores.filter out
    let armed := b.workCores.filter (fun i => !out i)
    let b := endSweep b
    let b := b.modJob (fun j => { j with
      armed := true
      launchAt := at0
      armedAt := b.now
      armedCnt := armed.length
      unarmed := late
      primaryKat := b.choosePrimary })
    let b := forEach b.liveWorkers (fun i b => b.modCore i (fun c =>
      let c := armWorker at0 c
      if late.contains i then { c with time := { c.time with armed := none } } else c)) b
    if late.isEmpty then .interim (le 8 at0 ++ le 8 b.ho.job.armedAt ++ le 4 b.ho.job.armedCnt) [] b
    else
      let id := b.ho.post.stageId
      .later [] (forEach b.popRegions (fun r b =>
          castStage (unitOffice r) at0 id 0x03 [BitVec.ofNat 128 at0] ((late.filter (fun i => decide (regionOf i = r))).map unitCore) b)
        (b.modPost (fun p => { p with stageId := (id + 1) % 65536 })))
def execLaunch (ring : BitVec 6) (unarmed : List CoreIdx) (s : State) : Host.Outcome State Fault Refusal :=
  act (letterRow ring.toNat 0x102 (launchL (unarmed.map (·.toNat)))) s

/-- STOP_AT (R153). -/
def stopAtL (l : Letter) (b : Block) : Reply :=
  let at0 := l.p 0 8
  if at0 % 1000 ≠ 0 then .refuse 0x0401 0
  else if at0 < b.now + 200000 then .refuse 0x0402 0
  else .done (le 8 at0) (b.modStop (fun s => { s with sched := some at0 }))
def execStopAt (ring : BitVec 6) (s : State) : Host.Outcome State Fault Refusal := act (letterRow ring.toNat 0x103 stopAtL) s

/-- URGENT_STOP (R127, R452). -/
def urgentStopL (_ : Letter) (b : Block) : Reply :=
  let b := originate .urgentLetter b
  .done (le 8 b.stopCount) b
def execUrgentStop (ring : BitVec 6) (s : State) : Host.Outcome State Fault Refusal := act (letterRow ring.toNat 0x104 urgentStopL) s

/-- The causes that STOP_RELEASE clears (R457). -/
def letterCause : StopCause → Bool
  | .urgentLetter => true | .stopCtrl => true | .stopAt => true | _ => false

/-- STOP_RELEASE (R128, R457). -/
def stopReleaseL (_ : Letter) (b : Block) : Reply :=
  if ¬ b.env.stopInN then .refuse 0x0308 0
  else .done [] (b.modStop (fun s => { s with causes := s.causes.filter (fun c => !letterCause c), latch := false }))
def execStopRelease (ring : BitVec 6) (s : State) : Host.Outcome State Fault Refusal := act (letterRow ring.toNat 0x105 stopReleaseL) s

/-- JOB_TEARDOWN (R393): steps 1 to 3 at once, the final receipt at its end. -/
def jobTeardownL (_ : Letter) (b : Block) : Reply := .interim [] [] (beginTeardown b)
def execJobTeardown (ring : BitVec 6) (s : State) : Host.Outcome State Fault Refusal := act (letterRow ring.toNat 0x106 jobTeardownL) s

/-- POSTMARK_LOAD (R136): P first, then the job. -/
def postmarkLoadL (l : Letter) (b : Block) : Reply :=
  let p := l.p 8 4
  if p < 1000 ∨ 1000000000 < p then badParam 8
  else if b.inJob then .refuse 0x0303 0
  else .done [1] (setPmState .armed (b.modPm (fun x => { x with loadV := BitVec.ofNat 64 (l.p 0 8), loadP := BitVec.ofNat 30 p })))
def execPostmarkLoad (ring : BitVec 6) (s : State) : Host.Outcome State Fault Refusal := act (letterRow ring.toNat 0x107 postmarkLoadL) s

end Sys2Proof.Machine
end

