-- ==== Sys2Proof/Machine/LetterPolicy.lean ====
section
/-! DEFINITION. Letters of the screening and verdict groups 0x2 and 0x3 (13_gnonil_commands R411, R413; R166, R183,
R184, R193, R211, R236, R247). -/

namespace Sys2Proof.Machine

open Sys2Proof

/-- Overwrite a format table from an entry on. (DEDUCED, log 35.) -/
def putFmts (first : Nat) (es t : List (BitVec 64)) : List (BitVec 64) := (t.take first ++ es ++ t.drop (first + es.length)).take 16

/-- FORMAT_LOAD (R166, R411): every Letterbox and Intake Tap takes the entries; one that never acknowledged has lost its
attachment (R246), or its Courier domain is disabled. (DESIGN CHOICE, log 11 and 99.) -/
def formatLoadL (missedCores missedTaps : List Nat) (l : Letter) (b : Block) : Reply :=
  let first := l.p 0 1
  let n := l.p 1 1
  let es := (List.range n).map (fun i => BitVec.ofNat 64 (l.p (4 + 8 * i) 8))
  if 16 ≤ first then badParam 0
  else if n = 0 ∨ 16 < n ∨ 16 < first + n then badParam 1
  else match (List.range n).find? (fun i => !fmtOk (es.getD i 0)) with
  | some i => .refuse 0x0403 (first + i)
  | none =>
    let b := b.modPolicy (fun p => { p with fmt := putFmts first es p.fmt })
    let out (i : Nat) : Bool := missedCores.contains i || !b.attached i
    let lost := b.liveCores.filter out
    let taps := (List.range 16).filter (fun k => (b.courier k).powered && !(b.courier k).domFail)
    let b := forEach (b.liveCores.filter (fun i => !out i)) (fun i b =>
      b.modCore i (fun c => { c with scr := { c.scr with fmt := putFmts first es c.scr.fmt } })) b
    let b := forEach (taps.filter (fun k => !missedTaps.contains k)) (fun k b => b.modCourier k (fun c => { c with itFmt := putFmts first es c.itFmt })) b
    let gone := taps.filter (fun k => missedTaps.contains k)
    .done (le 4 (lost.length + gone.length)) (forEach gone disableDomain (forEach lost failLetterbox b))
def execFormatLoad (ring : BitVec 6) (missedCores : List CoreIdx) (missedTaps : BitVec 16) (s : State) : Host.Outcome State Fault Refusal :=
  act (letterRow ring.toNat 0x201 (outside (formatLoadL (missedCores.map (·.toNat)) (maskBits missedTaps)))) s

/-- A rate code of R193. -/
def rateOk (x : Nat) : Bool := decide (x ≤ 32) || decide (x = 63)

/-- DICE_RATES (R193, R211). -/
def diceRatesL (l : Letter) (b : Block) : Reply :=
  match [0, 1, 2].find? (fun o => !rateOk (l.p o 1)) with
  | some o => badParam o
  | none => .done [] (b.modPolicy (fun p => { p with
      rdSuspect := l.p 0 1
      rdProbation := l.p 1 1
      rdActive := l.p 2 1
      thrLd := BitVec.ofNat 32 (l.p 4 4) }))
def execDiceRates (ring : BitVec 6) (s : State) : Host.Outcome State Fault Refusal := act (letterRow ring.toNat 0x202 (outside diceRatesL)) s

/-- CANARY_BANDS (R183, R184). -/
def canaryBandsL (l : Letter) (b : Block) : Reply :=
  let first := l.p 5 1
  let n := l.p 6 1
  let band (i : Nat) : Nat × Nat := (fld (l.p (8 + i) 1) 0 4, fld (l.p (8 + i) 1) 4 4)
  match (List.range 5).find? (fun o => decide ((if o = 3 then 1 else 2) < l.p o 1)) with
  | some o => badParam o
  | none =>
    if 128 < n then badParam 6
    else if 256 < first + n then badParam 5
    else match (List.range n).find? (fun i => decide ((band i).2 < (band i).1)) with
    | some i => badParam (8 + i)
    | none => .done [] (b.modPolicy (fun p => { p with
        canary := (List.range 5).map (fun o => l.p o 1)
        bands := (List.range n).foldl (fun (t : Tab (Nat × Nat)) i => tset t (first + i) (band i)) p.bands }))
def execCanaryBands (ring : BitVec 6) (s : State) : Host.Outcome State Fault Refusal := act (letterRow ring.toNat 0x203 (outside canaryBandsL)) s

/-- VERDICT_POLICY (R236, R247). -/
def verdictPolicyL (l : Letter) (b : Block) : Reply :=
  if l.p 0 1 = 0 ∨ 4 < l.p 0 1 then badParam 0
  else .done [] (b.modPolicy (fun p => { p with replayLimit := l.p 0 1, unscreenedLimit := l.p 2 2 }))
def execVerdictPolicy (ring : BitVec 6) (s : State) : Host.Outcome State Fault Refusal := act (letterRow ring.toNat 0x301 (outside verdictPolicyL)) s

/-- STEP_QUERY (R413): the latest decision of a step; pending until its F_c. (DESIGN CHOICE, log 99.) -/
def stepQueryL (l : Letter) (b : Block) : Reply :=
  match b.ho.job.hist.find? (fun x => decide (x.step = l.p 0 4)) with
  | none => badParam 0
  | some x =>
    let code := if b.now < x.fc then 0 else if x.frank then 1 else 2
    .done (le 1 code ++ le 1 x.replays ++ [0, 0] ++ le 4 x.mask.toNat ++ le 16 x.digest.toNat ++ le 8 x.fc) b
def execStepQuery (ring : BitVec 6) (s : State) : Host.Outcome State Fault Refusal := act (letterRow ring.toNat 0x302 stepQueryL) s

/-- CORE_QUERY (R41, R413). -/
def coreQueryL (l : Letter) (b : Block) : Reply :=
  let i := l.p 0 4
  if 2 ^ 20 ≤ i then .refuse 0x0405 0
  else
    let h := b.hist i
    .done (le 8 (b.entry i) ++ le 1 h.pips ++ le 1 h.fences ++ [0, 0] ++ le 8 (h.probStart.getD 0)) b
def execCoreQuery (ring : BitVec 6) (s : State) : Host.Outcome State Fault Refusal := act (letterRow ring.toNat 0x303 coreQueryL) s

end Sys2Proof.Machine
end

