-- ==== Sys2Proof/Machine/LetterTest.lean ====
section
/-! DEFINITION. Letters of the test group 0x4 (13_gnonil_commands R414; R24, R25, R232, R252, R263, R271, R272). -/

namespace Sys2Proof.Machine

open Sys2Proof

/-- Ticks of the longest declared unit at a region's run ratio. -/
def Block.longestUnit (b : Block) : Nat :=
  match b.cfg with
  | none => 0
  | some c =>
    let n := (c.slices.map (·.1) ++ (if c.bankSigs.isEmpty then [] else [c.bankLen]) ++ c.kats.map (·.katLen)).foldl max 0
    (b.popRegions.map (fun r => cycTicksUp (b.rcfg r) n)).foldl max 0

/-- TEST_POLICY (R263). -/
def testPolicyL (l : Letter) (b : Block) : Reply :=
  let bs := l.p 0 2
  if bs < 8 ∨ 400 < bs ∨ 1000 * bs < b.longestUnit then badParam 0
  else if 1 < l.p 3 1 then badParam 3
  else if l.p 4 1 = 0 ∨ 168 < l.p 4 1 then badParam 4
  else if 1 < l.p 5 1 then badParam 5
  else .done [] (b.modPolicy (fun p => { p with
    sliceBudget := bs
    recovery := l.p 2 1
    spareSweep := decide (l.p 3 1 = 1)
    standbyHours := l.p 4 1
    routerRound := decide (l.p 5 1 = 1) }))
def execTestPolicy (ring : BitVec 6) (s : State) : Host.Outcome State Fault Refusal := act (letterRow ring.toNat 0x401 (outside testPolicyL)) s

/-- The cores of a region that a sweep takes: every tested state, or SPARE only (R271). (DESIGN CHOICE, log 84.) -/
def Block.sweepCores (b : Block) (r : Nat) (spareOnly : Bool) : List Nat :=
  (b.regionCores r).filter (fun i => tested (b.coreState i) && (!spareOnly || decide (b.coreState i = .spare)))

/-- TEST_SWEEP (R271): the Offices begin with their first cores; the rest follows core by core. (DESIGN CHOICE, log 84.) -/
def testSweepL (l : Letter) (b : Block) : Reply :=
  if 1 < l.p 17 1 then badParam 17
  else .interim [] [0, 0, 0] (forEach (b.popRegions.filter (fun r => bit (l.p 0 16) r)) (fun r b =>
    b.modOffice r (fun o => { o with sweepq := b.sweepCores r (decide (l.p 17 1 = 1)) })) b)

/-- Every region of a sweep takes its first core. -/
def startSweep (b : Block) : Block := sweepCheck (forEach b.popRegions (fun r b => sweepNextCore r (b.office r).sweepq b) b)

/-- TEST_SWEEP's row: the units are queued once the letter is outstanding. -/
def testSweep (r : Nat) (b : Block) : Block :=
  let due := b.letterDue r 0x402 && !b.outOp 0x402
  let b := letterRow r 0x402 (outside testSweepL) b
  if due ∧ b.outOp 0x402 then startSweep b else b
def execTestSweep (ring : BitVec 6) (s : State) : Host.Outcome State Fault Refusal := act (testSweep ring.toNat) s

/-- CORE_RESTORE (R232, R264): the core leaves hold and gating for its tests; mode 0 and the KAT of lowest kat_id are queued. (DESIGN CHOICE, log 86.) -/
def coreRestoreL (l : Letter) (b : Block) : Reply :=
  let i := l.p 0 4
  if 2 ^ 20 ≤ i ∨ b.coreState i ≠ .fenced ∨ (tget b.ho.bm.blocked i).isSome ∨ (b.hist i).fences ≠ 1 then .refuse 0x0405 0
  else
    let b := b.modCore i (fun c => { c with
      pins := { c.pins with holdN := true, cgN := true }
      ctl := { c.ctl with toHold := false, vokFalls := 0 } })
    .interim [] [i] (queueUnit (regionOf i) (b.unit i 3 b.lowKat .restore) (queueUnit (regionOf i) (b.unit i 0 0 .restore) b))
def execCoreRestore (ring : BitVec 6) (s : State) : Host.Outcome State Fault Refusal := act (letterRow ring.toNat 0x403 (outside coreRestoreL)) s

/-- TEST_COURIER (R272): the port is disabled, loops back internally for 1 ms and is enabled again; on a failure it
stays disabled. (DESIGN CHOICE, log 86.) -/
def testCourierL (pass : Bool) (l : Letter) (b : Block) : Reply :=
  let n := l.p 0 1
  if 16 ≤ n then badParam 0
  else if b.capturing then .refuse 0x0307 0
  else if ¬ (b.courier n).powered ∨ (b.courier n).domFail then .whole [] 0x0602 0 [] b
  else
    let b := advTo (b.now + 1000000) (disablePort n b)
    if pass then .whole [] 0 0 [] (enablePort n (b.modCourier n (fun c => { c with portFail := false })))
    else .whole [] 0x0602 0 [] (b.modCourier n (fun c => { c with portFail := true }))
def execTestCourier (ring : BitVec 6) (pass : Bool) (s : State) : Host.Outcome State Fault Refusal :=
  act (letterRow ring.toNat 0x404 (testCourierL pass)) s

/-- OFFICE_SWAP (R24, R25): the swap waits for the standby's eligibility. -/
def officeSwapL (l : Letter) (b : Block) : Reply :=
  let r := l.p 0 1
  if ¬ b.populated r then badParam 0
  else .interim [] [r] (b.modOffice r (fun o => { o with swapWait := true }))
def execOfficeSwap (ring : BitVec 6) (s : State) : Host.Outcome State Fault Refusal := act (letterRow ring.toNat 0x405 officeSwapL) s

/-- COURIER_POWER (R252, R272): the domain loses power and is tested as at power-up. -/
def courierPowerL (portPass tapPass : Bool) (l : Letter) (b : Block) : Reply :=
  let n := l.p 0 1
  if 16 ≤ n then badParam 0
  else
    let b := portStop n b
    let b := courierTested n portPass tapPass (b.setCourier n { linkUp := (b.courier n).linkUp })
    let c := b.courier n
    .whole [] 0 0 (le 1 (if c.domFail then 2 else if c.portFail then 1 else 0)) b
def execCourierPower (ring : BitVec 6) (portPass tapPass : Bool) (s : State) : Host.Outcome State Fault Refusal :=
  act (letterRow ring.toNat 0x406 (outside (courierPowerL portPass tapPass))) s

end Sys2Proof.Machine
end

