-- ==== Sys2Proof/Machine/LetterFleet.lean ====
section
/-! DEFINITION. Letters of the network-table, Holder and parcel groups 0x5 and 0x6 (13_gnonil_commands R415, R416; R314,
R330, R373, R374, R386 to R391). -/

namespace Sys2Proof.Machine

open Sys2Proof

/-! ### Network tables -/

/-- FLEET_RINGS (R314, R329). (DESIGN CHOICE, log 99.) -/
def fleetRingsL (l : Letter) (b : Block) : Reply :=
  let len := (List.range 8).map (fun r => l.p r 1)
  match (List.range 8).find? (fun r => lnat len r = 0) with
  | some r => badParam r
  | none =>
    if 32768 < fleetSize len ∨ 24 < len.foldl (fun a x => a + x / 2) 0 then badParam 0
    else if fleetSize len ≤ l.p 8 2 then badParam 8
    else
      let b := (b.modFleet (fun f => { f with len := len })).modMgmt (fun m => { m with wafer := BitVec.ofNat 15 (l.p 8 2), waferVld := true })
      .done (le 2 b.ringSig) b
def execFleetRings (ring : BitVec 6) (s : State) : Host.Outcome State Fault Refusal := act (letterRow ring.toNat 0x501 (outside fleetRingsL)) s

/-- COURIER_ENABLE (R17, R415, R445). -/
def courierEnableL (l : Letter) (b : Block) : Reply :=
  if b.capturing then .refuse 0x0307 0
  else
    let b := crEnable (l.p 0 2) b
    .done (le 2 (b.crMask (·.en))) b
def execCourierEnable (ring : BitVec 6) (s : State) : Host.Outcome State Fault Refusal := act (letterRow ring.toNat 0x502 courierEnableL) s

/-- A partner entry (R330). -/
def Block.partnerEntry (b : Block) (w : Nat) (p : Partner) : Nat :=
  let n := (routeOf b.ho.fleet.len b.wafer w).length
  let relay := (((routeOf b.ho.fleet.len b.wafer w).take 12).foldl (hopTo b.ho.fleet.len) b.wafer)
  packF [(0, w), (16, p.state), (20, p.version), (24, if p.state = 2 then p.refuse else 0), (32, p.feed), (48, p.loop), (64, p.rack),
    (88, b01 p.idVld), (89, b01 (b.neighbours.contains w)), (90, b01 (b.isHolder w)), (91, b01 (b.isHoldee w)), (92, p.pmState),
    (96, p.epoch), (112, p.cap), (128, p.heard), (192, if n ≤ 12 then n else 0), (200, if n ≤ 12 then 0 else relay)]

/-- PARTNER_QUERY (R330, R415). -/
def partnerQueryL (l : Letter) (b : Block) : Reply :=
  let n := l.p 2 1
  if n = 0 ∨ 6 < n then badParam 2
  else
    let es := (b.ho.fleet.partners.filter (fun p => decide (l.p 0 2 ≤ p.1))).take n
    .done (le 1 es.length ++ [0, 0, 0] ++ es.flatMap (fun p => le 32 (b.partnerEntry p.1 p.2))) b
def execPartnerQuery (ring : BitVec 6) (s : State) : Host.Outcome State Fault Refusal := act (letterRow ring.toNat 0x503 partnerQueryL) s

/-! ### Parcel policy and Holder letters -/

/-- PARCEL_POLICY (R373, R374): with a manifest loaded and no port enabled T_min has no value, and no t_stop reaches it. (DESIGN CHOICE, log 17 and 94.) -/
def parcelPolicyL (l : Letter) (b : Block) : Reply :=
  let iv := l.p 0 2
  let t := l.p 4 4
  let low : Bool := if b.ho.job.man.isNone then false else match b.tMin with | some m => decide (t < m) | none => true
  if iv ≠ 0 ∧ (iv < 5 ∨ 1440 < iv) then badParam 0
  else if l.p 2 1 = 0 ∨ 8 < l.p 2 1 then badParam 2
  else if t % 1000 ≠ 0 ∨ 45000000 < t ∨ low then badParam 4
  else .done [] (b.modPolicy (fun p => { p with interval := iv, attempts := l.p 2 1, tStop := t }))
def execParcelPolicy (ring : BitVec 6) (s : State) : Host.Outcome State Fault Refusal := act (letterRow ring.toNat 0x601 (outside parcelPolicyL)) s

/-- HOLDER_CAP (R329, R416). -/
def holderCapL (l : Letter) (b : Block) : Reply := .done [] (b.modPolicy (fun p => { p with holderCap := l.p 0 2 }))
def execHolderCap (ring : BitVec 6) (s : State) : Host.Outcome State Fault Refusal := act (letterRow ring.toNat 0x602 holderCapL) s

/-- The holdee of a letter: the wafer of its sender (R403, R416). -/
def Letter.holdee (l : Letter) : Nat := l.sender / 2 ^ 32

/-- Pages a Holder has promised, and pages freed so lately that they are not granted again (R387). -/
def Block.pagesHeld (b : Block) : Nat :=
  b.ledger.holds.foldl (fun a h => a + h.pages) 0 + (b.ho.parcel.cooling.filter (fun c => decide (b.now < c.2))).foldl (fun a c => a + c.1) 0

/-- PARCEL_RESERVE (R386): a repeated reserve renews; a new one is granted a 64 KiB-aligned base that the manual leaves open. (DESIGN CHOICE, log 17 and 95.) -/
def parcelReserveL (l : Letter) (b : Block) : Reply :=
  let w := l.holdee
  let mine (h : HoldRec) : Bool := decide (h.holdee = w) && decide (h.gen = l.p 0 4) && !h.committed
  match b.ledger.holds.find? mine with
  | some h =>
    .done (le 8 h.base) (b.modLedger (fun d => { d with holds := d.holds.map (fun (x : HoldRec) => if mine x then { x with since := b.now } else x) }))
  | none =>
    if b.ho.policy.holderCap * 262144 < b.pagesHeld + l.p 8 4 then .refuse 0x0500 0
    else
      let f := freshWord b
      let base := f.1.toNat / 65536 * 65536
      let h : HoldRec := { holdee := w, gen := l.p 0 4, epoch := l.p 4 2, base := base, pages := l.p 8 4, since := b.now }
      .done (le 8 base) (f.2.modLedger (fun d => { d with holds := d.holds ++ [h] }))
def execParcelReserve (ring : BitVec 6) (s : State) : Host.Outcome State Fault Refusal := act (letterRow ring.toNat 0x610 parcelReserveL) s

/-- PARCEL_COMMIT (R386, R394). (DESIGN CHOICE, log 95.) -/
def parcelCommitL (l : Letter) (b : Block) : Reply :=
  let w := l.holdee
  let root : BitVec 384 := BitVec.ofNat 384 (l.p 12 48)
  match b.ledger.holds.find? (fun h => decide (h.holdee = w) && decide (h.gen = l.p 0 4)) with
  | none => badParam 0
  | some h =>
    if h.epoch ≠ l.p 4 2 then .refuse 0x0305 0
    else if h.pages ≠ l.p 8 4 then badParam 8
    else if h.committed then (if h.root = root then .done [] b else badParam 12)
    else .done [] (b.modLedger (fun d => { d with holds := d.holds.map (fun (x : HoldRec) =>
      if x.holdee = w ∧ x.gen = h.gen then { x with root := root, committed := true } else x) }))

/-- A commit under an ended epoch is a dead letter as well (R394). (DESIGN CHOICE, log 95.) -/
def parcelCommit (r : Nat) (b : Block) : Block :=
  let stale : Bool := match b.headLetter r with
    | some l => b.letterDue r 0x611 && (admits b.svc.state 0x611).isNone && (l.epoch = 0 || l.epoch = b.ledger.epoch) &&
        (match b.ledger.holds.find? (fun h => decide (h.holdee = l.holdee) && decide (h.gen = l.p 0 4)) with
         | some h => decide (h.epoch ≠ l.p 4 2)
         | none => false)
    | none => false
  let b := letterRow r 0x611 parcelCommitL b
  if stale then deadLetter 21 b else b
def execParcelCommit (ring : BitVec 6) (s : State) : Host.Outcome State Fault Refusal := act (parcelCommit ring.toNat) s

/-- A record of PARCEL_QUERY (R416). (DESIGN CHOICE, log 95.) -/
def holdBytes (h : HoldRec) : List Byte := le 4 h.gen ++ le 2 h.epoch ++ le 1 (b01 h.lost) ++ [0] ++ le 4 h.pages ++ le 48 h.root.toNat

/-- PARCEL_QUERY (R386): every COMMITTED record of the holdee, three to a part. (DESIGN CHOICE, log 95.) -/
def parcelQueryL (l : Letter) (b : Block) : Reply :=
  let hs := b.ledger.holds.filter (fun h => decide (h.holdee = l.p 0 2) && h.committed)
  let n := max 1 (ceilDiv hs.length 3)
  .parts ((List.range n).map (fun i => let x := slice hs (3 * i) 3; le 1 x.length ++ [0, 0, 0] ++ x.flatMap holdBytes)) b
def execParcelQuery (ring : BitVec 6) (s : State) : Host.Outcome State Fault Refusal := act (letterRow ring.toNat 0x612 parcelQueryL) s

/-- PARCEL_RELEASE (R386, R387). -/
def parcelReleaseL (l : Letter) (b : Block) : Reply :=
  let mine (h : HoldRec) : Bool := decide (h.holdee = l.p 0 2) && decide (h.gen = l.p 4 4)
  .done [] (forEach (b.ledger.holds.filter mine) (fun h b => coolSpace h.pages b) (b.modLedger (fun d => { d with holds := d.holds.filter (fun h => !mine h) })))
def execParcelRelease (ring : BitVec 6) (s : State) : Host.Outcome State Fault Refusal := act (letterRow ring.toNat 0x613 parcelReleaseL) s

/-! ### PARCEL_RESTORE (R389 to R391) -/

/-- The reference root and the copies to use, in order (false Holder 1); or the detail of RESTORE_FAILED. The flags ask for
PARCEL_COPY_BAD and LEDGER_ROOT_MISMATCH. -/
inductive RootChoice where
  | use (root : BitVec 384) (copies : List Bool) (copyBad ledgerBad : Bool)
  | fail (detail : Nat)
  deriving DecidableEq, Repr

/-- Two of three (R389); a zero record is missing. -/
def chooseRoot (own r1 r2 : BitVec 384) : RootChoice :=
  match decide (own = 0), decide (r1 = 0), decide (r2 = 0) with
  | false, false, false =>
    if own = r1 ∧ own = r2 then .use own [false, true] false false
    else if own = r1 then .use own [false] true false
    else if own = r2 then .use own [true] true false
    else if r1 = r2 then .use r1 [false, true] false true
    else .fail 1
  | true, false, false => if r1 = r2 then .use r1 [false, true] false false else .fail 1
  | false, true, false => if own = r2 then .use own [true] false false else .fail 1
  | false, false, true => if own = r1 then .use own [false] false false else .fail 1
  | _, _, _ => .fail 2

/-- Directory entries of page 0: kind and pages (R370). -/
def dirEntry (head : List Byte) (i : Nat) : Nat × Nat := (rd head (256 + 16 * i) 1, rd head (256 + 16 * i + 8) 4)

/-- The header and the restore map agree (R390): each mapped section has the kind and page count of its directory entry,
each mapped role a record; with no map the manifest is the parcel's own. (DESIGN CHOICE, log 96.) -/
def restoreMapOk (b : Block) (head : List Byte) (recs : List (Nat × List Flit)) : Bool :=
  let m := b.man
  if m.restoreMap.isEmpty then decide (rd head 56 48 = m.digest.toNat)
  else m.restoreMap.all (fun x =>
    if x.isRole then decide (b.pcLen = 0) || recs.any (fun r => decide (r.1 = x.old))
    else
      let h := m.parcel.getD x.new {}
      decide (x.old < rd head 49 1) && decide (dirEntry head x.old = (h.kind, h.pages)))

/-- Data page i is whole: its CRC-64 is its entry of the page-CRC table (R371). -/
def pageWhole (head : List Byte) (i : Nat) (pg : List Byte) : Bool :=
  decide (pg.length = 4096) && decide ((crc64 pg).toNat = rd head (4096 + 8 * (1 + i)) 8)

/-- Kinds of the data pages, in page order, by the directory (R366, R370). -/
def pageKinds (head : List Byte) : List Nat :=
  (List.range (rd head 49 1)).flatMap (fun i => List.replicate (dirEntry head i).2 (dirEntry head i).1)

/-- Step 3 of R390 with one copy first: every data page is whole as read from it, or as read from the other copy in use. -/
def copyReads (head : List Byte) (first : List (List Byte)) (other : Option (List (List Byte))) : Bool :=
  (List.range (pageKinds head).length).all (fun i => pageWhole head i (first.getD i []) || other.any (fun d => pageWhole head i (d.getD i [])))

/-- Step 5 of R390: every host and core-state page read back has the CRC of its entry, and so the root is the reference. -/
def readsBack (head : List Byte) (back : List (List Byte)) : Bool :=
  (List.range (pageKinds head).length).all (fun i => decide (lnat (pageKinds head) i = 4) || pageWhole head i (back.getD i []))

/-- One pass of steps 3 to 5 of R390, with the second copy or the first. -/
def restorePass (a : RestoreAnswers) (head : List Byte) (copies : List Bool) (second : Bool) : Bool :=
  let data (x : Bool) : List (List Byte) := if x then a.data2 else a.data1
  copyReads head (data second) (if copies.contains (!second) then some (data !second) else none) &&
    readsBack head (if second then a.back2 else a.back1)

/-- New roles of an old role. (DESIGN CHOICE, log 96.) -/
def newRoles (m : Manifest) (old : Nat) : List Nat :=
  if m.restoreMap.isEmpty then (if (manRoleCore m old).isSome then [old] else [])
  else (m.restoreMap.filter (fun x => x.isRole && decide (x.old = old))).map (·.new)

/-- A CORE_STATE record is loaded into a core through its capture channel (R79, R390). (DESIGN CHOICE, log 96.) -/
def loadRecord (beats : List Flit) (c : Core) : Core :=
  match beats.getLast? with
  | some f => { c with pins := { c.pins with capDir := true, capWdata := f } }
  | none => c

/-- The counters of an Office's Dice state (R216). (DESIGN CHOICE, log 96.) -/
def loadCounters (cs : List Nat) (d : DiceSt) : DiceSt :=
  { d with
    draws := lnat cs 0
    selections := lnat cs 1
    placements := lnat cs 2
    short := lnat cs 3
    drop := lnat cs 4
    outcomes := (List.range (cs.length - 5)).foldl (fun (t : Tab Nat) k => tset t k (lnat cs (5 + k))) d.outcomes }

/-- The restored state: core records, Dice state with promotions and bursts renamed, and the step to run first (R216, R390). (DESIGN CHOICE, log 96.) -/
def applyRestore (a : RestoreAnswers) (step : Nat) (b : Block) : Block :=
  let m := b.man
  let cores (old : Nat) : List (Nat × Nat) := (newRoles m old).flatMap (fun n => match b.coreOf n with | some i => [(n, i)] | none => [])
  let b := forEach a.records (fun x b => forEach (cores x.1) (fun c b => b.modCore c.2 (loadRecord x.2)) b) b
  let b := b.modPolicy (fun p => { p with
    rdSuspect := a.rates.1
    rdProbation := a.rates.2.1
    rdActive := a.rates.2.2.1
    thrLd := BitVec.ofNat 32 a.rates.2.2.2 })
  let b := forEach b.popRegions (fun r b => b.modOffice r (fun o => { o with dice := { o.dice with nextStep := step, promos := [] } })) b
  let b := forEach a.counters (fun x b => if b.populated x.1 then b.modOffice x.1 (fun o => { o with dice := loadCounters x.2 o.dice }) else b) b
  let b := forEach a.promotions (fun x b => forEach (cores x.1) (fun c b =>
    b.modOffice (regionOf c.2) (fun o => { o with dice := { o.dice with promos := o.dice.promos ++ [⟨c.1, x.2.1, x.2.2⟩] } })) b) b
  let b := forEach a.bursts (fun x b => forEach (cores x.1) (fun c b =>
    (b.modOffice (regionOf c.2) (fun o => { o with bursts := o.bursts ++ [⟨c.2, 16 - x.2⟩] })).modCore c.2
      (fun k => { k with scr := { k.scr with burst := x.2 } })) b) b
  b.modJob (fun j => { j with man := j.man.map (fun x => { x with firstStep := step }) })

/-- PARCEL_RESTORE (R389, R390). (DESIGN CHOICE, log 96.) -/
def parcelRestoreL (a : RestoreAnswers) (l : Letter) (b : Block) : Reply :=
  if b.ho.job.man.isNone then .refuse 0x0304 0
  else if b.inJob then .refuse 0x0303 0
  else
    let own : BitVec 384 :=
      if l.p 0 2 = b.wafer then ((b.ledger.gens.find? (fun g => decide (g.gen = l.p 4 4))).map (·.root)).getD 0
      else BitVec.ofNat 384 (l.p 12 48)
    match chooseRoot own a.root1 a.root2 with
    | .fail d => .whole [] 0x0601 d [] b
    | .use root copies copyBad ledgerBad =>
      let b := if copyBad then hoEvent evParcelCopyBad [] b else b
      let b := if ledgerBad then hoEvent evLedgerRootMismatch [] b else b
      let head (second : Bool) : List Byte := (if second then a.head2 else a.head1).flatten
      match copies.find? (fun c => (List.range 16).any (fun p => b.portUp p) && decide (sha384v (head c) = root)) with
      | none => .whole [] 0x0601 4 [] b
      | some c =>
        let h := head c
        if ¬ restoreMapOk b h a.records then .whole [] 0x0601 3 [] b
        else if copies.any (restorePass a h copies) then
          .whole [] 0x0002 0 (le 4 (rd h 16 4) ++ le 4 (rd h 20 4)) (applyRestore a (rd h 16 4) b)
        else .whole [] 0x0601 4 [] b
def execParcelRestore (ring : BitVec 6) (answers : RestoreAnswers) (s : State) : Host.Outcome State Fault Refusal :=
  act (letterRow ring.toNat 0x620 (parcelRestoreL answers)) s

end Sys2Proof.Machine
end

