-- ==== Sys2Proof/Machine/LetterReset.lean ====
section
/-! DEFINITION. Letters of the reset group 0x7 and the image group 0x9 (13_gnonil_commands R417, R423; R356, R359, R363,
R365). -/

namespace Sys2Proof.Machine

open Sys2Proof

/-! ### Resets -/

/-- WARM_RESET (R356, R363): under escalation the block enters OUT_OF_SERVICE and the letter ends with it. (DESIGN CHOICE, log 100.) -/
def warmResetL (_ : Letter) (b : Block) : Reply :=
  if b.escalates then .whole [] 0x0302 0 [] (startWarm 1 b) else .interim [] [] (startWarm 1 b)
def execWarmReset (ring : BitVec 6) (s : State) : Host.Outcome State Fault Refusal := act (letterRow ring.toNat 0x701 warmResetL) s

/-- COLD_RESET (R359, R417): the final receipt first, then the reset clears every ring. -/
def coldReset (r : Nat) (b : Block) : Block :=
  if b.letterDue r 0x702 then startCold 4 (letterRow r 0x702 (fun _ b => .done [] b) b) else b
def execColdReset (ring : BitVec 6) (s : State) : Host.Outcome State Fault Refusal := act (coldReset ring.toNat) s

/-- RESET_POLICY (R365): the records in the window are counted anew. -/
def resetPolicyL (l : Letter) (b : Block) : Reply :=
  if l.p 0 1 = 0 ∨ 15 < l.p 0 1 then badParam 0
  else if 1 < l.p 1 1 then badParam 1
  else if l.p 2 2 = 0 ∨ 1440 < l.p 2 2 then badParam 2
  else
    let b := b.modPolicy (fun p => { p with resetCount := l.p 0 1, autoWarm := decide (l.p 1 1 = 1), resetWindow := l.p 2 2 })
    .done [] (b.modResets (fun x => { x with inWindow := b.recordsIn x.warmAt }))
def execResetPolicy (ring : BitVec 6) (s : State) : Host.Outcome State Fault Refusal := act (letterRow ring.toNat 0x703 (outside resetPolicyL)) s

/-! ### Images -/

/-- A new IMAGE_LOAD: every reception begins anew and the cores an earlier one failed may serve again (R425). -/
def clearImages (b : Block) : Block :=
  let b := b.allCores (fun c => { c with img := {} })
  if b.ho.bm.blocked.any (fun p => decide (p.2 = 5)) then
    bmChanged (b.modBm (fun m => { m with blocked := m.blocked.filter (fun p => decide (p.2 ≠ 5)) }))
  else b

/-- Targets of an image: ACTIVE, PROBATION, SUSPECT or SPARE, or SPARE only (R423). -/
def Block.imageTargets (b : Block) (mask : BitVec 128) (spareOnly : Bool) : List Nat :=
  b.presentCores.filter (fun i => maskBit mask (regionOf i) && inService (b.coreState i) && (!spareOnly || decide (b.coreState i = .spare)))

/-- IMAGE_LOAD (R422 to R425): the image is read and measured, and the first round begins. -/
def imageLoadL (data : Option (List Byte)) (l : Letter) (b : Block) : Reply :=
  let n := l.p 8 4
  let able : Bool := match b.cfg with | some c => c.images | none => false
  if n % 16 ≠ 0 ∨ 786432 < n then badParam 8
  else if 1 < l.p 80 1 then badParam 80
  else if ¬ able then .refuse 0x0405 0
  else match b.hostRead data n with
  | none => .whole [] 0x0504 0 [] b
  | some d =>
    if sha384v d ≠ BitVec.ofNat 384 (l.p 16 48) then .whole [] 0x0406 0 [] b
    else
      let b := clearImages b
      let mask : BitVec 128 := BitVec.ofNat 128 (l.p 64 16 &&& b.regionMask)
      .interim [] [] (b.modImage (fun _ => {
        active := true
        bytes := d
        digest := sha384v d
        imageId := BitVec.ofNat 16 l.seq
        round := 1
        regions := mask
        targets := b.imageTargets mask (decide (l.p 80 1 = 1)) }))

/-- IMAGE_LOAD's row: a load with no target ends at once. (DESIGN CHOICE, log 104.) -/
def imageLoad (r : Nat) (data : Option (List Byte)) (b : Block) : Block :=
  let due := b.letterDue r 0x901 && !b.outOp 0x901
  let b := letterRow r 0x901 (outside (imageLoadL data)) b
  if due ∧ b.outOp 0x901 then imgCheck b else b
def execImageLoad (ring : BitVec 6) (data : Option (List Byte)) (s : State) : Host.Outcome State Fault Refusal :=
  act (imageLoad ring.toNat data) s

/-- IMAGE_STATUS (R423). -/
def imageStatusL (_ : Letter) (b : Block) : Reply :=
  let x := b.ho.image
  .done (le 4 x.packets ++ le 4 b.imgCounts.1 ++ le 4 b.imgCounts.2 ++ le 1 x.round) b
def execImageStatus (ring : BitVec 6) (s : State) : Host.Outcome State Fault Refusal := act (letterRow ring.toNat 0x902 imageStatusL) s

/-- IMAGE_ABORT (R423): the load in progress ends ABORTED. -/
def imageAbortL (_ : Letter) (b : Block) : Reply :=
  if b.ho.image.active then .done [] (finishOp 0x901 0x0604 0 [] (b.modImage (fun x => { x with active := false })))
  else .done [] b
def execImageAbort (ring : BitVec 6) (s : State) : Host.Outcome State Fault Refusal := act (letterRow ring.toNat 0x903 imageAbortL) s

end Sys2Proof.Machine
end

