-- ==== Sys2Proof/Machine/DebugRows.lean ====
section
/-! DEFINITION. Counters, trace, export and the test access port (15_debug_and_counters, 03_system_ports R129 and R131,
13_gnonil_commands R418). -/

namespace Sys2Proof.Machine

open Sys2Proof

/-! ### Counters (R462 to R464) -/

/-- A code that a Letterbox counts (R463). -/
def counterCode (c : Nat) : Bool :=
  decide (c ≤ 0x0016) || [0x8010, 0x8011, 0x8016, 0x821A, 0x821B].contains c || (decide (0x8201 ≤ c) && decide (c ≤ 0x8206)) ||
    (decide (0x820D ≤ c) && decide (c ≤ 0x8213)) || (decide (0x821F ≤ c) && decide (c ≤ 0x8223))

/-- Core cycles of a Letterbox between two counts, at the run ratio. (DESIGN CHOICE, log 100.) -/
def Block.cyclesSince (b : Block) (i t : Nat) : Nat := ticksCyc (b.rcfg (regionOf i)) (b.now - t)

/-- Set counter n of a Letterbox to a code and zero it. The cycle counters 0x0001 and 0x0011 hold what is needed to read
the time that runs: the count of the select, and the cycles before the running span. (DESIGN CHOICE, log 102.) -/
def selectCounter (n code : Nat) (i : Nat) (b : Block) : Block :=
  b.modCore i (fun c => { c with
    scr := if code = 0x0011 then { c.scr with stickyAt := b.now } else c.scr
    ctl := { c.ctl with counters := lset c.ctl.counters n (code, if code = 1 then b.now else 0) } })

/-- COUNTER_SELECT (R462, R463). -/
def counterSelectL (l : Letter) (b : Block) : Reply :=
  let lo := l.p 0 4
  let hi := l.p 4 4
  if 2 ^ 20 ≤ lo ∨ 2 ^ 20 ≤ hi then .refuse 0x0405 0
  else if hi < lo then badParam 4
  else if 15 < l.p 8 1 then badParam 8
  else if ¬ counterCode (l.p 10 2) then badParam 10
  else .done [] (forEach (b.liveCores.filter (fun i => decide (lo ≤ i) && decide (i ≤ hi))) (selectCounter (l.p 8 1) (l.p 10 2)) b)
def execCounterSelect (ring : BitVec 6) (s : State) : Host.Outcome State Fault Refusal := act (letterRow ring.toNat 0x801 counterSelectL) s

/-- A counter's value now. (DESIGN CHOICE, log 100.) -/
def Block.counterNow (b : Block) (i : Nat) (p : Nat × Nat) : Nat :=
  if p.1 = 1 then sat 32 (b.cyclesSince i p.2)
  else if p.1 = 0x0011 ∧ (b.core i).scr.sticky then sat 32 (p.2 + b.cyclesSince i (b.core i).scr.stickyAt)
  else p.2

/-- The results of COUNTER_READ (R464). (DESIGN CHOICE, log 100.) -/
def Block.counterBytes (b : Block) (i : Nat) : List Byte :=
  let cs := (List.range 16).map (fun n => (b.core i).ctl.counters.getD n (0, 0))
  cs.flatMap (fun p => le 4 (b.counterNow i p)) ++ cs.flatMap (fun p => le 2 p.1) ++ le 8 b.now

/-- COUNTER_READ (R464). -/
def counterReadL (l : Letter) (b : Block) : Reply :=
  let i := l.p 0 4
  if ¬ b.present i ∨ ¬ (b.core i).porN then .refuse 0x0405 0 else .done (b.counterBytes i) b
def execCounterRead (ring : BitVec 6) (s : State) : Host.Outcome State Fault Refusal := act (letterRow ring.toNat 0x802 counterReadL) s

/-! ### Trace (R465, R466) -/

/-- TRACE_CONTROL (R466). (DESIGN CHOICE, log 100.) -/
def traceControlL (l : Letter) (b : Block) : Reply :=
  let w := l.p 0 8
  if fld w 10 2 = 3 then badParam 1
  else
    let b := b.modDebug (fun d => { d with
      ctrl := BitVec.ofNat 64 w
      state := if bit w 0 then 1 else 0
      trace := if bit w 48 then [] else d.trace
      trig := none
      matched := none
      post := none })
    .done (le 4 b.dbg.trace.length ++ le 4 (b.dbg.trig.getD 0xFFFFFFFF) ++ le 1 b.dbg.state) b
def execTraceControl (ring : BitVec 6) (s : State) : Host.Outcome State Fault Refusal := act (letterRow ring.toNat 0x803 traceControlL) s

/-- TRACE_TRIGGER (R466, R472): the entry that matched is the trigger; trig_act 2 originates an urgent stop unless the
wafer is stopped. (DESIGN CHOICE, log 80.) -/
def traceTrigger (b : Block) : Block :=
  match b.dbg.matched with
  | none => b
  | some k =>
    let act2 := decide (fld b.dbg.ctrl.toNat 10 2 = 2)
    let b := hoEvent evTraceTrigger [] (b.modDebug (fun d => { d with trig := some k, matched := none }))
    if act2 ∧ ¬ b.stop.stopped then originate .stopCtrl b else b
def execTraceTrigger (s : State) : Host.Outcome State Fault Refusal := act traceTrigger s

/-! ### Export (R467, R468) -/

/-- A trace entry as bytes (R465). -/
def traceBytes (t : TraceEntry) : List Byte := le 8 t.pm ++ le 2 t.code ++ le 1 t.ring ++ [0] ++ le 3 t.unit ++ (t.body ++ List.replicate 17 0).take 17

/-- Entry size and entries of a kind (R467); none for a reserved kind. (DESIGN CHOICE, log 99.) -/
def Block.exportEntries (b : Block) (kind : Nat) : Option (Nat × List (List Byte)) :=
  match kind with
  | 1 => some (24, b.presentCores.map (fun i => le 4 i ++ [0, 0, 0, 0] ++ le 16 (b.core i).ctl.stopRec.toNat))
  | 2 => some (104, b.presentCores.map b.counterBytes)
  | 3 => some (18432, b.ho.post.waferMaps.map (fun m => (List.range 128).flatMap (fun r => (tget m r).getD (List.replicate 144 0xFF))))
  | 4 => some (16, b.presentCores.map (fun i => le 8 (b.entry i) ++ le 1 (b.hist i).pips ++ le 1 (b.hist i).fences ++ List.replicate 6 0))
  | 5 => some (64, b.popRegions.flatMap (fun r => (List.range 256).map (fun t =>
      (List.range 16).flatMap (fun k => le 4 (tcnt (b.office r).hist (16 * t + k))))))
  | 6 => some (32, b.dbg.trace.map traceBytes)
  | _ => none

/-- The export header (R468). -/
def Block.exportHeader (b : Block) (kind size n : Nat) (body : List Byte) : List Byte :=
  le 4 0x45585031 ++ le 1 kind ++ [0, 0, 0] ++ le 8 b.now ++ le 2 b.wafer ++ le 2 size ++ le 4 n ++ le 8 (crc64 body).toNat ++ List.replicate 32 0

/-- Cut an export into transfers that end at 64 KiB boundaries of the host address (R103). -/
def cutPieces : Nat → Nat → Nat → List Byte → List (Nat × Nat × List (BitVec 2048))
  | 0, _, _, _ => []
  | fuel + 1, k, addr, l =>
    if l.isEmpty then []
    else
      let room := 65536 - addr % 65536
      (k, addr, toBeats (ceilDiv (min room l.length) 256) (l.take room)) :: cutPieces fuel (k + 1) (addr + room) (l.drop room)

/-- EXPORT (R467, R468). (DESIGN CHOICE, log 99.) -/
def exportL (l : Letter) (b : Block) : Reply :=
  let most := l.p 12 8
  match b.exportEntries (l.p 0 1) with
  | none => badParam 0
  | some (size, es) =>
    if l.p 4 8 % 256 ≠ 0 then badParam 4
    else if b.capturing then .refuse 0x0307 0
    else
      let n := if most < 64 then 0 else min es.length ((most - 64) / size)
      let body := (es.take n).flatten
      let bytes := if most < 64 then [] else b.exportHeader (l.p 0 1) size n body ++ body
      let pieces := cutPieces (bytes.length / 65536 + 2) 0 (l.p 4 8) bytes
      let res := le 4 n ++ le 1 (b01 (decide (n < es.length) || decide (most < 64))) ++ [0, 0, 0] ++ le 8 bytes.length
      .interim [] [] (b.modDebug (fun d => { d with exporting := some res, exportLeft := pieces.length, exportTodo := pieces }))

/-- EXPORT's row: its transfers begin once the letter is outstanding; one that writes nothing ends at once. -/
def exportRow (r : Nat) (b : Block) : Block :=
  let due := b.letterDue r 0x804 && !b.outOp 0x804
  let b := letterRow r 0x804 exportL b
  if due ∧ b.outOp 0x804 then
    match b.dbg.exporting with
    | some res =>
      if b.dbg.exportLeft = 0 then finishOp 0x804 0 0 res (hoEvent evExportDone res (b.modDebug (fun d => { d with exporting := none })))
      else pumpExport 1024 b
    | none => b
  else b
def execExportData (ring : BitVec 6) (s : State) : Host.Outcome State Fault Refusal := act (exportRow ring.toNat) s

/-! ### The test access port and the IEEE 1687 network (R129, R131, R274, R469 to R471) -/

/-- The controller's next state at a tp_tck cycle, by tp_tms (R129: IEEE 1149.1). (PRESUMED, log 131.) -/
def TapSt.next (tms : Bool) : TapSt → TapSt
  | .testLogicReset => if tms then .testLogicReset else .runTestIdle
  | .runTestIdle => if tms then .selectDr else .runTestIdle
  | .selectDr => if tms then .selectIr else .captureDr
  | .captureDr => if tms then .exit1Dr else .shiftDr
  | .shiftDr => if tms then .exit1Dr else .shiftDr
  | .exit1Dr => if tms then .updateDr else .pauseDr
  | .pauseDr => if tms then .exit2Dr else .pauseDr
  | .exit2Dr => if tms then .updateDr else .shiftDr
  | .updateDr => if tms then .selectDr else .runTestIdle
  | .selectIr => if tms then .testLogicReset else .captureIr
  | .captureIr => if tms then .exit1Ir else .shiftIr
  | .shiftIr => if tms then .exit1Ir else .shiftIr
  | .exit1Ir => if tms then .updateIr else .pauseIr
  | .pauseIr => if tms then .exit2Ir else .pauseIr
  | .exit2Ir => if tms then .updateIr else .shiftIr
  | .updateIr => if tms then .selectDr else .runTestIdle

/-- The low n bits of v, the bit next out first. -/
def bitsOf (n v : Nat) : List Bool := (List.range n).map (fun i => bit v i)
/-- The number that a shift register holds. -/
def ofBits (l : List Bool) : Nat := packF ((List.range l.length).map (fun i => (i, b01 (l.getD i false))))

/-- A segment insertion bit and, while it is open, the chain behind it (R469). -/
def Block.sibBits (b : Block) (x : Sib) (behind : List Bool) : List Bool :=
  if b.dbg.sibs.contains x then true :: behind else [false]

/-- Level 4 of a Letterbox: its scan chain's insertion bit, and CORE_CAP (R469, R471). -/
def Block.lbChain (b : Block) (i : CoreIdx) : List Bool :=
  b.sibBits (.lb i) (b.sibBits (.ls i) [] ++ b.sibBits (.cap i) (bitsOf 160 (b.core i.toNat).ctl.coreCap.toNat))

/-- Levels 2 and 3 of a region: the members, and of each cluster its router and Letterboxes (R469). -/
def Block.rgChain (b : Block) (r : Nat) : List Bool :=
  let rg : RegionIdx := BitVec.ofNat 7 r
  b.sibBits (.rg rg) (b.sibBits (.oa rg) [] ++ b.sibBits (.ob rg) [] ++ (List.range 128).flatMap (fun c =>
    let cl : BitVec 7 := BitVec.ofNat 7 c
    b.sibBits (.cl rg cl) (b.sibBits (.rs rg cl) [] ++ (List.range 64).flatMap (fun k => b.lbChain (BitVec.ofNat 20 (8192 * r + 64 * c + k))))))

/-- The one chain of the network (R469). The scan chains have no length in the manual and add no bits. (PRESUMED, log 131.) -/
def Block.netChain (b : Block) : List Bool :=
  b.sibBits .ho [] ++ b.sibBits .pm [] ++ (List.range 16).flatMap (fun n => b.sibBits (.cr (BitVec.ofNat 4 n)) []) ++
    (List.range 128).flatMap b.rgChain

/-- What the register that the instruction names captures (R129 to R131): IDCODE, IJTAG_STATUS, the open network's chain, or
one bit that reads 0. (PRESUMED, log 131.) -/
def Block.tapDr (b : Block) : List Bool :=
  match b.dbg.tapIr.toNat with
  | 0x01 => bitsOf 32 b.idcode
  | 0x20 => bitsOf 16 b.ijtagStatus
  | 0x21 => if b.dbg.netOpen then b.netChain else [false]
  | _ => [false]

/-- An instruction is selected at Update-IR. IJTAG_ACCESS in MANUFACTURE or RMA zeroizes the keys (R131). (DESIGN CHOICE, log 100.) -/
def tapSelect (code : Nat) (b : Block) : Block :=
  let b := b.modDebug (fun d => { d with tapIr := BitVec.ofNat 8 code })
  if code = 0x21 ∧ (b.svc.lc = .manufacture ∨ b.svc.lc = .rma) then (zeroize b).modDebug (fun d => { d with netDue := true }) else b

/-- At Run-Test/Idle the network opens that a selection has made due, once the keys read zero; the Ledger records it (R131, R274). -/
def tapIdle (b : Block) : Block :=
  if b.dbg.netDue ∧ b.outs.keysZero then
    let b := b.modDebug (fun d => { d with netDue := false })
    if b.dbg.netOpen then b
    else hoEvent evNetworkOpened [] ((b.modDebug (fun d => { d with netOpen := true })).modLedger (fun l => { l with openings := l.openings ++ [b.now] }))
  else b

/-- What the controller's present state does at a tp_tck cycle: capture or shift (R129). -/
def tapMove (tdi : Bool) (b : Block) : Block :=
  match b.dbg.tap with
  | .captureIr => b.modDebug (fun d => { d with tapSh := bitsOf 8 b.tapCapture })
  | .captureDr => b.modDebug (fun d => { d with tapSh := b.tapDr })
  | .shiftIr => b.modDebug (fun d => { d with tapSh := d.tapSh.drop 1 ++ [tdi] })
  | .shiftDr => b.modDebug (fun d => { d with tapSh := d.tapSh.drop 1 ++ [tdi] })
  | _ => b

/-- What the state that the controller enters does (R129, R131): tp_tdo is driven in the shift states alone. -/
def tapEnter (st : TapSt) (b : Block) : Block :=
  let out : Bool := match st with | .shiftIr => true | .shiftDr => true | _ => false
  let b := b.modDebug (fun d => { d with tap := st, tdoEn := out, tdo := out && d.tapSh.headD false })
  match st with
  | .testLogicReset => b.modDebug (fun d => { d with tapIr := 0x01 })
  | .updateIr => tapSelect (ofBits b.dbg.tapSh) b
  | .runTestIdle => tapIdle b
  | _ => b

/-- One tp_tck cycle with tp_tms and tp_tdi (R129). -/
def tapClock (tms tdi : Bool) (b : Block) : Block := tapEnter (b.dbg.tap.next tms) (tapMove tdi b)

/-- The tp_tck cycles that select an instruction from any state: five with tp_tms 1, Run-Test/Idle, the scan of its eight
bits, Update-IR and Run-Test/Idle again. -/
def selectCycles (code : Nat) : List (Bool × Bool) :=
  List.replicate 5 (true, false) ++ [(false, false), (true, false), (true, false), (false, false), (false, false)] ++
    (List.range 8).map (fun i => (decide (i = 7), bit code i)) ++ [(true, false), (false, false)]

/-- Several tp_tck cycles, each with its tp_tms and tp_tdi. -/
def tapScan (l : List (Bool × Bool)) (b : Block) : Block := forEach l (fun x => tapClock x.1 x.2) b

/-- TAP_RESET (R129): Test-Logic-Reset selects IDCODE. -/
def tapReset (b : Block) : Block := if b.tapOn then tapEnter .testLogicReset b else b
def execTapReset (s : State) : Host.Outcome State Fault Refusal := act tapReset s

/-- IJTAG_ACCESS_SELECT (R131, R274): the instruction is scanned in; in MANUFACTURE and RMA the keys are zeroized and the
network opens at Run-Test/Idle, in every other state a 1-bit register reads 0. (DESIGN CHOICE, log 100.) -/
def ijtagSelect (b : Block) : Block := if b.tapOn then tapScan (selectCycles 0x21) b else b
def execIjtagAccessSelect (s : State) : Host.Outcome State Fault Refusal := act ijtagSelect s

/-- The segment that must be open to reach another (R469). (DESIGN CHOICE, log 103.) -/
def sibParent : Sib → Option Sib
  | .oa r => some (.rg r)
  | .ob r => some (.rg r)
  | .cl r _ => some (.rg r)
  | .rs r c => some (.cl r c)
  | .lb core => some (.cl (BitVec.ofNat 7 (regionOf core.toNat)) (BitVec.ofNat 7 (clusterOf core.toNat)))
  | .ls core => some (.lb core)
  | .cap core => some (.lb core)
  | _ => none

/-- The unit behind a scan-chain segment fails (R470). (DESIGN CHOICE, log 103.) -/
def sibFail (x : Sib) (b : Block) : Block :=
  match x with
  | .ho => if b.svc.hoOn then enterSafe 2 b else b
  | .pm => if b.svc.hoOn then enterSafe 5 b else b
  | .cr n => disableDomain n.toNat b
  | .oa r => if b.populated r.toNat then failMember r.toNat false b else b
  | .ob r => if b.populated r.toNat then failMember r.toNat true b else b
  | .rs r c => routerLost r.toNat c.toNat b
  | .ls core => if b.present core.toNat then failLetterbox core.toNat b else b
  | _ => b

/-- SIB_OPEN (R469, R470): only in the open network, and behind open segments. (DESIGN CHOICE, log 103.) -/
def sibOpen (x : Sib) (b : Block) : Block :=
  let reach : Bool := match sibParent x with | some p => b.dbg.sibs.contains p | none => true
  if ¬ b.tapOn ∨ ¬ b.dbg.netOpen ∨ ¬ reach ∨ b.dbg.sibs.contains x then b
  else sibFail x (b.modDebug (fun d => { d with sibs := d.sibs ++ [x] }))
def execSibOpen (sib : Sib) (s : State) : Host.Outcome State Fault Refusal := act (sibOpen sib) s

/-- CORE_CAP after a beat (R471). -/
def capWord (dir last : Bool) (ix : Nat) (beat : BitVec 128) : BitVec 160 :=
  BitVec.ofNat 160 (packF [(0, beat.toNat), (128, 1), (129, b01 dir), (130, 1), (131, b01 last), (132, ix)])

/-- One beat moves through the capture channel of a stopped core (R78, R79, R471). (DESIGN CHOICE, log 49.) -/
def capMove (load : Bool) (beat : BitVec 128) (last : Bool) (len : Nat) (c : Core) : Core :=
  let v := c.ctl.coreCap.toNat
  let ix := if bit v 130 ∧ ¬ bit v 131 then (fld v 132 12 + 1) % 4096 else 0
  let fin := if load then decide (len ≤ ix + 1) else last
  { c with
    pins := { c.pins with
      capReq := !fin
      capDir := load
      capRdy := !load && !fin
      capWvld := load && !fin
      capWdata := if load then beat else c.pins.capWdata
      capWlast := load && fin
      cgN := !fin }
    ctl := { c.ctl with coreCap := capWord load fin ix beat } }

/-- CORE_CAP_UPDATE (R471). (DESIGN CHOICE, log 49 and 103.) -/
def coreCapUpdate (i : CoreIdx) (load : Bool) (beat : BitVec 128) (last : Bool) (b : Block) : Block :=
  let c := b.core i.toNat
  if ¬ b.tapOn ∨ ¬ b.dbg.netOpen ∨ ¬ b.dbg.sibs.contains (.cap i) ∨ b.dbg.sibs.contains (.ls i) ∨ ¬ c.lbOn ∨ ¬ c.ctl.stopGated ∨ c.ctl.cap.isSome ∨ c.ctl.test.isSome then b
  else b.modCore i.toNat (capMove load beat last b.csLen)
def execCoreCapUpdate (core : CoreIdx) (load : Bool) (beat : BitVec 128) (last : Bool) (s : State) : Host.Outcome State Fault Refusal :=
  act (coreCapUpdate core load beat last) s

end Sys2Proof.Machine
end

