-- ==== Sys2Proof/Machine/Dispatch.lean ====
section
/-! DEFINITION. The dispatch: one arm for each constructor of Instr. -/

namespace Sys2Proof.Machine

open Sys2Proof

/-- A command's effect on the block; the queue is left to `step`. -/
def exec (i : Instr) (s : State) : Host.Outcome State Fault Refusal :=
  match i with
  | .blockPowerOnReset => Sys2Proof.Machine.execBlockPowerOnReset s
  | .blockResetRelease lc lcInv arPresent idVld feed loop rack mfgId rgnVok => Sys2Proof.Machine.execBlockResetRelease lc lcInv arPresent idVld feed loop rack mfgId rgnVok s
  | .postmarkDomainTestDone pass legs => Sys2Proof.Machine.execPostmarkDomainTestDone pass legs s
  | .headOfficeTestDone tests bootSel slot0 slot1 => Sys2Proof.Machine.execHeadOfficeTestDone tests bootSel slot0 slot1 s
  | .configurationCheck image present => Sys2Proof.Machine.execConfigurationCheck image present s
  | .ledgerReloadDone slotA slotB => Sys2Proof.Machine.execLedgerReloadDone slotA slotB s
  | .officeMemberTestDone region member pass legs => Sys2Proof.Machine.execOfficeMemberTestDone region member pass legs s
  | .routerLoopbackDone region router pass => Sys2Proof.Machine.execRouterLoopbackDone region router pass s
  | .courierDomainTestDone n portPass tapPass => Sys2Proof.Machine.execCourierDomainTestDone n portPass tapPass s
  | .officeLedgerDelivered region => Sys2Proof.Machine.execOfficeLedgerDelivered region s
  | .waveRequest => Sys2Proof.Machine.execWaveRequest s
  | .waveAck => Sys2Proof.Machine.execWaveAck s
  | .waveFail => Sys2Proof.Machine.execWaveFail s
  | .waveTimeout => Sys2Proof.Machine.execWaveTimeout s
  | .boardMapPublication => Sys2Proof.Machine.execBoardMapPublication s
  | .corePorAssert core => Sys2Proof.Machine.execCorePorAssert core s
  | .corePorRelease core ctrlPass checkPass => Sys2Proof.Machine.execCorePorRelease core ctrlPass checkPass s
  | .alignmentEpochCheck core cycles => Sys2Proof.Machine.execAlignmentEpochCheck core cycles s
  | .clockChangeDeclared core => Sys2Proof.Machine.execClockChangeDeclared core s
  | .clockChangeEnded core => Sys2Proof.Machine.execClockChangeEnded core s
  | .weightBeat core b => Sys2Proof.Machine.execWeightBeat core b s
  | .activationBeat core b => Sys2Proof.Machine.execActivationBeat core b s
  | .accumulatorDrain core b => Sys2Proof.Machine.execAccumulatorDrain core b s
  | .rowCompare core => Sys2Proof.Machine.execRowCompare core s
  | .outputBeat core b => Sys2Proof.Machine.execOutputBeat core b s
  | .saturationPulse core => Sys2Proof.Machine.execSaturationPulse core s
  | .flushSticky core level => Sys2Proof.Machine.execFlushSticky core level s
  | .tileVerdict core tag => Sys2Proof.Machine.execTileVerdict core tag s
  | .coreSummary core => Sys2Proof.Machine.execCoreSummary core s
  | .milestone core id cyc => Sys2Proof.Machine.execMilestone core id cyc s
  | .stall core => Sys2Proof.Machine.execStall core s
  | .waitBegin core chan peer => Sys2Proof.Machine.execWaitBegin core chan peer s
  | .waitClear core => Sys2Proof.Machine.execWaitClear core s
  | .shadowDescriptorRead core read => Sys2Proof.Machine.execShadowDescriptorRead core read s
  | .fenceOrder core toHold => Sys2Proof.Machine.execFenceOrder core toHold s
  | .fenceAck core => Sys2Proof.Machine.execFenceAck core s
  | .fenceTimeout core => Sys2Proof.Machine.execFenceTimeout core s
  | .coreRelease core => Sys2Proof.Machine.execCoreRelease core s
  | .testRequest drive => Sys2Proof.Machine.execTestRequest drive s
  | .testAck core => Sys2Proof.Machine.execTestAck core s
  | .testDone core pass sig => Sys2Proof.Machine.execTestDone core pass sig s
  | .testTimeout core => Sys2Proof.Machine.execTestTimeout core s
  | .captureRequest core load beats => Sys2Proof.Machine.execCaptureRequest core load beats s
  | .captureAck core => Sys2Proof.Machine.execCaptureAck core s
  | .captureBeat core data last => Sys2Proof.Machine.execCaptureBeat core data last s
  | .captureTimeout core => Sys2Proof.Machine.execCaptureTimeout core s
  | .captureClose core => Sys2Proof.Machine.execCaptureClose core s
  | .intakeBeat n b => Sys2Proof.Machine.execIntakeBeat n b s
  | .egressInputBeat n b => Sys2Proof.Machine.execEgressInputBeat n b s
  | .egressOutputBeat n b => Sys2Proof.Machine.execEgressOutputBeat n b s
  | .egressStepEnd n step => Sys2Proof.Machine.execEgressStepEnd n step s
  | .frankPresent => Sys2Proof.Machine.execFrankPresent s
  | .frankAccept n => Sys2Proof.Machine.execFrankAccept n s
  | .crLinkUp n => Sys2Proof.Machine.execCrLinkUp n s
  | .crLinkDown n => Sys2Proof.Machine.execCrLinkDown n s
  | .crWriteResponse n id resp => Sys2Proof.Machine.execCrWriteResponse n id resp s
  | .crReadBeat n id data par last resp => Sys2Proof.Machine.execCrReadBeat n id data par last resp s
  | .crFlitTransmit n vc => Sys2Proof.Machine.execCrFlitTransmit n vc s
  | .crCreditReturn n vc => Sys2Proof.Machine.execCrCreditReturn n vc s
  | .crFlitReceive n vc f => Sys2Proof.Machine.execCrFlitReceive n vc f s
  | .fleetPacketReceive n vc => Sys2Proof.Machine.execFleetPacketReceive n vc s
  | .transitSlotReport n => Sys2Proof.Machine.execTransitSlotReport n s
  | .transitLost n vc source => Sys2Proof.Machine.execTransitLost n vc source s
  | .hostDone => Sys2Proof.Machine.execHostDone s
  | .externalResetRequest => Sys2Proof.Machine.execExternalResetRequest s
  | .syncPulse long => Sys2Proof.Machine.execSyncPulse long s
  | .syncMissing => Sys2Proof.Machine.execSyncMissing s
  | .refLost => Sys2Proof.Machine.execRefLost s
  | .legRemeasure legs => Sys2Proof.Machine.execLegRemeasure legs s
  | .powerIdValid vld feed loop rack => Sys2Proof.Machine.execPowerIdValid vld feed loop rack s
  | .regionVokFall region restored => Sys2Proof.Machine.execRegionVokFall region restored s
  | .testWindow core => Sys2Proof.Machine.execTestWindow core s
  | .shutdownRequest => Sys2Proof.Machine.execShutdownRequest s
  | .archiveDone status => Sys2Proof.Machine.execArchiveDone status s
  | .keyPortWord slot data last => Sys2Proof.Machine.execKeyPortWord slot data last s
  | .zeroizeRequest => Sys2Proof.Machine.execZeroizeRequest s
  | .stopInput level => Sys2Proof.Machine.execStopInput level s
  | .stopOutputPulseEnd => Sys2Proof.Machine.execStopOutputPulseEnd s
  | .stopCountReached => Sys2Proof.Machine.execStopCountReached s
  | .stopReleased => Sys2Proof.Machine.execStopReleased s
  | .resumeCountReached => Sys2Proof.Machine.execResumeCountReached s
  | .resumeLate => Sys2Proof.Machine.execResumeLate s
  | .launchArmDeadline => Sys2Proof.Machine.execLaunchArmDeadline s
  | .launchCountReached => Sys2Proof.Machine.execLaunchCountReached s
  | .stepBoundary => Sys2Proof.Machine.execStepBoundary s
  | .diceFill region tiles late => Sys2Proof.Machine.execDiceFill region tiles late s
  | .officeVerdictReceive region cluster => Sys2Proof.Machine.execOfficeVerdictReceive region cluster s
  | .coreSummaryReceive region cluster => Sys2Proof.Machine.execCoreSummaryReceive region cluster s
  | .regionVerdictDeadline region => Sys2Proof.Machine.execRegionVerdictDeadline region s
  | .regionRecordReceive => Sys2Proof.Machine.execRegionRecordReceive s
  | .egressSummaryReceive => Sys2Proof.Machine.execEgressSummaryReceive s
  | .stepDecision => Sys2Proof.Machine.execStepDecision s
  | .decisionReceive region => Sys2Proof.Machine.execDecisionReceive region s
  | .fillPhaseComplete region role ok => Sys2Proof.Machine.execFillPhaseComplete region role ok s
  | .fillTimeout region role => Sys2Proof.Machine.execFillTimeout region role s
  | .cleanHour => Sys2Proof.Machine.execCleanHour s
  | .waitGraphBuild => Sys2Proof.Machine.execWaitGraphBuild s
  | .stallEventReceive region cluster => Sys2Proof.Machine.execStallEventReceive region cluster s
  | .eventForward region => Sys2Proof.Machine.execEventForward region s
  | .testUnitPlace region => Sys2Proof.Machine.execTestUnitPlace region s
  | .standbyPeriod region => Sys2Proof.Machine.execStandbyPeriod region s
  | .standbyCopyDone region => Sys2Proof.Machine.execStandbyCopyDone region s
  | .plannedSwap region => Sys2Proof.Machine.execPlannedSwap region s
  | .routerRound region pass => Sys2Proof.Machine.execRouterRound region pass s
  | .officePrimaryFail region => Sys2Proof.Machine.execOfficePrimaryFail region s
  | .lockstepDisagree => Sys2Proof.Machine.execLockstepDisagree s
  | .sramUncorrectable mem => Sys2Proof.Machine.execSramUncorrectable mem s
  | .routerFrame turn => Sys2Proof.Machine.execRouterFrame turn s
  | .seamDeliver unit dir => Sys2Proof.Machine.execSeamDeliver unit dir s
  | .terminalReceive unit full => Sys2Proof.Machine.execTerminalReceive unit full s
  | .returnedReceive unit => Sys2Proof.Machine.execReturnedReceive unit s
  | .resendTimer unit => Sys2Proof.Machine.execResendTimer unit s
  | .congestionSample region router => Sys2Proof.Machine.execCongestionSample region router s
  | .regionMapSend region => Sys2Proof.Machine.execRegionMapSend region s
  | .waferMapBroadcast => Sys2Proof.Machine.execWaferMapBroadcast s
  | .tableSwapStart region plan => Sys2Proof.Machine.execTableSwapStart region plan s
  | .tableVersionRetire => Sys2Proof.Machine.execTableVersionRetire s
  | .stagedActivation unit => Sys2Proof.Machine.execStagedActivation unit s
  | .stageAckTimeout unit target => Sys2Proof.Machine.execStageAckTimeout unit target s
  | .fleetHello => Sys2Proof.Machine.execFleetHello s
  | .helloPeriodic => Sys2Proof.Machine.execHelloPeriodic s
  | .partnerStale wafer => Sys2Proof.Machine.execPartnerStale wafer s
  | .partnerRemove wafer => Sys2Proof.Machine.execPartnerRemove wafer s
  | .letterMessage => Sys2Proof.Machine.execLetterMessage s
  | .letterFwd => Sys2Proof.Machine.execLetterFwd s
  | .receiptMessage => Sys2Proof.Machine.execReceiptMessage s
  | .replyTimeout slot => Sys2Proof.Machine.execReplyTimeout slot s
  | .fragmentTimeout source reqSeq => Sys2Proof.Machine.execFragmentTimeout source reqSeq s
  | .ringLetterRelay ring => Sys2Proof.Machine.execRingLetterRelay ring s
  | .bulkOpen => Sys2Proof.Machine.execBulkOpen s
  | .bulkGrant => Sys2Proof.Machine.execBulkGrant s
  | .bulkData => Sys2Proof.Machine.execBulkData s
  | .bulkCredit => Sys2Proof.Machine.execBulkCredit s
  | .bulkCreditTimeout stream => Sys2Proof.Machine.execBulkCreditTimeout stream s
  | .collUp => Sys2Proof.Machine.execCollUp s
  | .collDown => Sys2Proof.Machine.execCollDown s
  | .collTimeout id => Sys2Proof.Machine.execCollTimeout id s
  | .hostWarmTimeout => Sys2Proof.Machine.execHostWarmTimeout s
  | .hostColdTimeout => Sys2Proof.Machine.execHostColdTimeout s
  | .parcelPrepare => Sys2Proof.Machine.execParcelPrepare s
  | .parcelReserveRenew => Sys2Proof.Machine.execParcelReserveRenew s
  | .parcelVoteLate => Sys2Proof.Machine.execParcelVoteLate s
  | .parcelStop => Sys2Proof.Machine.execParcelStop s
  | .parcelRootBuild => Sys2Proof.Machine.execParcelRootBuild s
  | .parcelCommitSend => Sys2Proof.Machine.execParcelCommitSend s
  | .parcelOverrun => Sys2Proof.Machine.execParcelOverrun s
  | .parcelUngate => Sys2Proof.Machine.execParcelUngate s
  | .parcelCommitAnswer second ok => Sys2Proof.Machine.execParcelCommitAnswer second ok s
  | .parcelCommitTimeout second => Sys2Proof.Machine.execParcelCommitTimeout second s
  | .reservationLapse holdee gen => Sys2Proof.Machine.execReservationLapse holdee gen s
  | .teardownQuiesced => Sys2Proof.Machine.execTeardownQuiesced s
  | .teardownForce => Sys2Proof.Machine.execTeardownForce s
  | .imagePacket core p => Sys2Proof.Machine.execImagePacket core p s
  | .imageRoundEnd region => Sys2Proof.Machine.execImageRoundEnd region s
  | .imageReadbackDone core data => Sys2Proof.Machine.execImageReadbackDone core data s
  | .hello ring => Sys2Proof.Machine.execHello ring s
  | .identify ring => Sys2Proof.Machine.execIdentify ring s
  | .inventory ring => Sys2Proof.Machine.execInventory ring s
  | .measure ring => Sys2Proof.Machine.execMeasure ring s
  | .jobLoad ring data => Sys2Proof.Machine.execJobLoad ring data s
  | .launch ring unarmed => Sys2Proof.Machine.execLaunch ring unarmed s
  | .stopAt ring => Sys2Proof.Machine.execStopAt ring s
  | .urgentStop ring => Sys2Proof.Machine.execUrgentStop ring s
  | .stopRelease ring => Sys2Proof.Machine.execStopRelease ring s
  | .jobTeardown ring => Sys2Proof.Machine.execJobTeardown ring s
  | .postmarkLoad ring => Sys2Proof.Machine.execPostmarkLoad ring s
  | .formatLoad ring missedCores missedTaps => Sys2Proof.Machine.execFormatLoad ring missedCores missedTaps s
  | .diceRates ring => Sys2Proof.Machine.execDiceRates ring s
  | .canaryBands ring => Sys2Proof.Machine.execCanaryBands ring s
  | .verdictPolicy ring => Sys2Proof.Machine.execVerdictPolicy ring s
  | .stepQuery ring => Sys2Proof.Machine.execStepQuery ring s
  | .coreQuery ring => Sys2Proof.Machine.execCoreQuery ring s
  | .testPolicy ring => Sys2Proof.Machine.execTestPolicy ring s
  | .testSweep ring => Sys2Proof.Machine.execTestSweep ring s
  | .coreRestore ring => Sys2Proof.Machine.execCoreRestore ring s
  | .testCourier ring pass => Sys2Proof.Machine.execTestCourier ring pass s
  | .officeSwap ring => Sys2Proof.Machine.execOfficeSwap ring s
  | .courierPower ring portPass tapPass => Sys2Proof.Machine.execCourierPower ring portPass tapPass s
  | .fleetRings ring => Sys2Proof.Machine.execFleetRings ring s
  | .courierEnable ring => Sys2Proof.Machine.execCourierEnable ring s
  | .partnerQuery ring => Sys2Proof.Machine.execPartnerQuery ring s
  | .parcelPolicy ring => Sys2Proof.Machine.execParcelPolicy ring s
  | .holderCap ring => Sys2Proof.Machine.execHolderCap ring s
  | .parcelReserve ring => Sys2Proof.Machine.execParcelReserve ring s
  | .parcelCommit ring => Sys2Proof.Machine.execParcelCommit ring s
  | .parcelQuery ring => Sys2Proof.Machine.execParcelQuery ring s
  | .parcelRelease ring => Sys2Proof.Machine.execParcelRelease ring s
  | .parcelRestore ring answers => Sys2Proof.Machine.execParcelRestore ring answers s
  | .warmReset ring => Sys2Proof.Machine.execWarmReset ring s
  | .coldReset ring => Sys2Proof.Machine.execColdReset ring s
  | .resetPolicy ring => Sys2Proof.Machine.execResetPolicy ring s
  | .counterSelect ring => Sys2Proof.Machine.execCounterSelect ring s
  | .counterRead ring => Sys2Proof.Machine.execCounterRead ring s
  | .traceControl ring => Sys2Proof.Machine.execTraceControl ring s
  | .traceTrigger => Sys2Proof.Machine.execTraceTrigger s
  | .exportData ring => Sys2Proof.Machine.execExportData ring s
  | .imageLoad ring data => Sys2Proof.Machine.execImageLoad ring data s
  | .imageStatus ring => Sys2Proof.Machine.execImageStatus ring s
  | .imageAbort ring => Sys2Proof.Machine.execImageAbort ring s
  | .registerWrite offset value => Sys2Proof.Machine.execRegisterWrite offset value s
  | .managementPortReset => Sys2Proof.Machine.execManagementPortReset s
  | .ringDoorbell ring value => Sys2Proof.Machine.execRingDoorbell ring value s
  | .ringPop ring value => Sys2Proof.Machine.execRingPop ring value s
  | .pmCountRead => Sys2Proof.Machine.execPmCountRead s
  | .pmLatchCapture value => Sys2Proof.Machine.execPmLatchCapture value s
  | .stopCtrlUrgent value => Sys2Proof.Machine.execStopCtrlUrgent value s
  | .crEnableWrite value => Sys2Proof.Machine.execCrEnableWrite value s
  | .keyLoadBegin value => Sys2Proof.Machine.execKeyLoadBegin value s
  | .keyWindowLock value => Sys2Proof.Machine.execKeyWindowLock value s
  | .keyWindowZeroize value => Sys2Proof.Machine.execKeyWindowZeroize value s
  | .keyDataWrite value => Sys2Proof.Machine.execKeyDataWrite value s
  | .tapReset => Sys2Proof.Machine.execTapReset s
  | .ijtagAccessSelect => Sys2Proof.Machine.execIjtagAccessSelect s
  | .sibOpen sib => Sys2Proof.Machine.execSibOpen sib s
  | .coreCapUpdate core load beat last => Sys2Proof.Machine.execCoreCapUpdate core load beat last s
  | .standbyTestDone region pass => Sys2Proof.Machine.execStandbyTestDone region pass s
  | .routerLost region router => Sys2Proof.Machine.execRouterLost region router s
  | .resetWindowExpiry => Sys2Proof.Machine.execResetWindowExpiry s

end Sys2Proof.Machine
end

