-- ==== Sys2Proof/Machine/Tick.lean ====
section
/-! DEFINITION. What the block does when no command waits: one ck_ref cycle passes (04_postmark_and_determinism R133, R134). -/

namespace Sys2Proof.Machine

open Sys2Proof

/-- One ck_ref cycle: the count rises by 10 ticks while the Postmark domain is powered (R133). (DESIGN CHOICE, log 2 and 3.) -/
def tick (b : Block) : Block :=
  if b.pm.powered then b.modPm (fun p => { p with count := p.count + 10, since := p.since.map (· + 1) }) else b

/-- The idle step: a count that would pass 2^64 - 1 has no meaning (R134). (DESIGN CHOICE, log 2.) -/
def idle (s : State) : Host.Outcome State Fault Refusal :=
  if s.blk.pm.powered ∧ 2 ^ 64 ≤ s.blk.now + 10 then .fault .postmarkWrap
  else .next { s with blk := tick s.blk }

end Sys2Proof.Machine
end

