-- ==== Sys2Proof/Safety.lean ====
section
/-! DEFINITION. What claims are stated in terms of: the parts of the block, what a command leaves alone, and the
invariants of a run. -/

namespace Sys2Proof.Machine

open Sys2Proof

/-- The parts of the block that a frame names. -/
inductive Part where
  | env | outs | pm | svc | keys | cfg | ledger | arch | stop | dbg | letters | free
  | mgmt | mail | job | policy | resets | fleet | parcel | image | post | bm
  | cores | offices | routers | nodes | couriers
  deriving DecidableEq, Repr

/-- A part is the same in two blocks. -/
def Part.same (p : Part) (b c : Block) : Prop :=
  match p with
  | .env => c.env = b.env
  | .outs => c.outs = b.outs
  | .pm => c.pm = b.pm
  | .svc => c.svc = b.svc
  | .keys => c.keys = b.keys
  | .cfg => c.cfg = b.cfg
  | .ledger => c.ledger = b.ledger
  | .arch => c.arch = b.arch
  | .stop => c.stop = b.stop
  | .dbg => c.dbg = b.dbg
  | .letters => c.letters = b.letters
  | .free => c.free = b.free
  | .mgmt => c.ho.mgmt = b.ho.mgmt
  | .mail => c.ho.mail = b.ho.mail
  | .job => c.ho.job = b.ho.job
  | .policy => c.ho.policy = b.ho.policy
  | .resets => c.ho.resets = b.ho.resets
  | .fleet => c.ho.fleet = b.ho.fleet
  | .parcel => c.ho.parcel = b.ho.parcel
  | .image => c.ho.image = b.ho.image
  | .post => c.ho.post = b.ho.post
  | .bm => c.ho.bm = b.ho.bm
  | .cores => c.units.cores = b.units.cores
  | .offices => c.units.offices = b.units.offices
  | .routers => c.units.routers = b.units.routers
  | .nodes => c.units.nodes = b.units.nodes
  | .couriers => c.units.couriers = b.units.couriers

/-- Every part but the listed ones is unchanged from b to c. -/
def Frame (changed : List Part) (b c : Block) : Prop := ∀ p : Part, p ∈ changed ∨ p.same b c

/-- The state after an effect: the input pins stay, and the letter windows go when the Head Office domain lost its power
(R88, R359). -/
def State.after (s : State) (b : Block) : State := { blk := held s.blk b, pending := s.pending }

/-- rs_por_n is 1: the block takes commands (R88). -/
def State.released (s : State) : Prop := s.blk.env.porN = true

/-- While rs_por_n is 0 every register of the block holds its reset value; only the model's own counter of free values
is not a register (R88). -/
def State.resetHeld (s : State) : Prop := s.blk.env.porN = false → s.blk = { free := s.blk.free }

/-- The letter l at the head of ring r waits for the row of opcode op, and no check that the service state, the job epoch or
the outstanding letters make refuses it (R398, R406, R410). -/
def Block.carries (b : Block) (r op : Nat) (l : Letter) : Prop :=
  b.headLetter r = some l ∧ b.letterDue r op = true ∧ admits b.svc.state op = none ∧
    (epochOp op = true → l.epoch = 0 ∨ l.epoch = b.ledger.epoch) ∧ (longOp op = true → op = 0x102 ∨ b.outOp op = false) ∧
    (exclOp op = true → b.ho.mail.outst.any (fun o => exclOp o.opcode) = false)

/-- The letter memory is in its canonical form. -/
def State.lettersCanonical (s : State) : Prop := Memory.wf s.blk.letters = true

/-- The inputs sampled when rs_por_n is deasserted: life-cycle code and its inverse, Archive present, manufacturer
(R121, R123, R130). -/
def Block.straps (b : Block) : Bool × BitVec 3 × BitVec 3 × Bool × BitVec 11 := (b.env.porN, b.env.lc, b.env.lcInv, b.env.arPresent, b.env.mfgId)

/-- A run is safe when its registers hold their reset values in reset and its letter memory is canonical. -/
def State.safe (s : State) : Prop := s.resetHeld ∧ s.lettersCanonical

end Sys2Proof.Machine
end

