-- ==== Sys2Proof/Certificates/Slice0/Obligations.lean ====
section
/-! DEFINITION. The statements for the provers: what every step does, the invariants a step keeps, what each command
of the table does on the states the spec gives it, and what each leaves alone. A clause whose equation ends in next t
says where that command completes. -/

open Sys2Proof Sys2Proof.Machine

/-- R132: commands act one after another in the order they arrived; the front of the queue is carried out with the queue's rest. -/
def Obligations.StepRunsFrontCommand : Prop :=
  ∀ (s : State) (c : Instr) (rest : List Instr), s.pending = c :: rest → step s = exec c { s with pending := rest }

/-- R133, R134: with no command waiting one ck_ref cycle passes: 10 ticks while the Postmark domain is powered, none otherwise; a count that
would pass 2^64 - 1 is the model's fault postmarkWrap (logs 2 and 3). -/
def Obligations.IdleTick : Prop :=
  (∀ s : State, s.pending = [] → s.blk.pm.powered = false → step s = .next s) ∧
  (∀ s : State, s.pending = [] → s.blk.pm.powered = true → s.blk.now + 10 < 2 ^ 64 →
    ∃ t, step s = .next t ∧ t.blk.now = s.blk.now + 10 ∧ t.pending = [] ∧ Frame [.pm] s.blk t.blk) ∧
  (∀ s : State, s.pending = [] → s.blk.pm.powered = true → 2 ^ 64 ≤ s.blk.now + 10 → step s = .fault .postmarkWrap)

/-- Every command of the table completes in every state and leaves the commands that wait behind it: none faults and none is refused. -/
def Obligations.EveryCommandCompletes : Prop :=
  ∀ (c : Instr) (s : State), ∃ t, exec c s = .next t ∧ t.pending = s.pending

/-- R88: State.reset is the block in reset with an empty queue, every register at its reset value and the letter memory canonical. -/
def Obligations.ResetStateIsSafe : Prop :=
  State.reset.safe ∧ State.reset.pending = [] ∧ State.reset.blk.env.porN = false ∧ State.reset.blk.svc.state = .booting ∧
    State.reset.blk.pm.state = .unset ∧ State.reset.blk.now = 0 ∧ State.reset.blk.outs.alarmN = false ∧ State.reset.blk.outs.alarmCode = 1

/-- R88, R121, R123, R130: while rs_por_n is 0 a command has no effect, and the inputs sampled when rs_por_n is deasserted stay, but for the
two commands of rs_por_n itself. -/
def Obligations.OnlyThePowerOnInputActsInReset : Prop :=
  ∀ (c : Instr) (s t : State), c ≠ .blockPowerOnReset → (∀ a1 a2 a3 a4 a5 a6 a7 a8 a9, c ≠ .blockResetRelease a1 a2 a3 a4 a5 a6 a7 a8 a9) →
    exec c s = .next t → t.blk.straps = s.blk.straps ∧ (s.blk.env.porN = false → t = s)

/-- R88: in every run, while rs_por_n is 0 every register and output of the block holds its reset value; every step keeps that. -/
def Obligations.ResetValuesHeldInvariant : Prop :=
  ∀ s t : State, s.resetHeld → step s = .next t → t.resetHeld

/-- R432: every step keeps the letter memory in its one canonical form, so that equal memories are equal data. -/
def Obligations.LetterMemoryInvariant : Prop :=
  ∀ s t : State, s.lettersCanonical → step s = .next t → t.lettersCanonical

/-- R12, R359, R429, R430, R432: a word written to a letter window stands at the slot at ltr_tail, least significant byte first; every other byte of the letter memory reads
as before, whatever the command, unless a cold reset powers the Head Office domain off, which loses them all. -/
def Obligations.LetterMemoryFrame : Prop :=
  (∀ (c : Instr) (s t : State), (∀ o v, c ≠ .registerWrite o v) → c ≠ .blockPowerOnReset →
    (∀ a1 a2 a3 a4 a5 a6 a7 a8 a9, c ≠ .blockResetRelease a1 a2 a3 a4 a5 a6 a7 a8 a9) → exec c s = .next t →
    ∀ a, memRead t.blk.letters a = if hoLost s.blk t.blk then 0 else memRead s.blk.letters a) ∧
  (∀ (s t : State) (o : BitVec 16) (v : BitVec 32), exec (.registerWrite o v) s = .next t →
    (o.toNat < 0x4000 ∨ 0x6800 ≤ o.toNat ∨ mapped o.toNat = false) → ∀ a, memRead t.blk.letters a = memRead s.blk.letters a) ∧
  (∀ (s t : State) (o : BitVec 16) (v : BitVec 32), exec (.registerWrite o v) s = .next t →
    ∀ a, (a < letterAddr o.toNat s.blk ∨ letterAddr o.toNat s.blk + 4 ≤ a) → memRead t.blk.letters a = memRead s.blk.letters a) ∧
  (∀ (s : State) (o : BitVec 16) (v : BitVec 32), s.released → s.lettersCanonical → s.blk.svc.hoOn = true → s.blk.svc.state ≠ .booting →
      mapped o.toNat = true → 0x4000 ≤ o.toNat → o.toNat < 0x6800 →
      ∃ t, exec (.registerWrite o v) s = .next t ∧ memReads t.blk.letters (letterAddr o.toNat s.blk) 4 = le 4 v.toNat ∧
        ofLe (memReads t.blk.letters (letterAddr o.toNat s.blk) 4) = v.toNat)

/-- R162: no residue is 8,191 or more, and an adder that reaches 8,191 subtracts it. -/
def Obligations.ResiduesStayBelow8191 : Prop :=
  (∀ (neg : Bool) (q : Nat) (e : Int), resOf neg q e ≤ 8190) ∧ (∀ b v : Nat, foldWord b v ≤ 8190) ∧
  (∀ (d : BitVec 64) (c sc : Nat), psi d c sc ≤ 8190) ∧ (∀ a : AccBeat, accFold a ≤ 8190) ∧
  (∀ (lv : BitVec 8) (data : BitVec 512) (e : BitVec 8), egressFold lv data e ≤ 8190) ∧
  (∀ (d : BitVec 64) (k kseg col data scale : Nat), beatP d k kseg col data scale ≤ 8190) ∧
  (∀ x y : Nat, x ≤ 8190 → y ≤ 8190 → (x + y) % M13 = if 8191 ≤ x + y then x + y - 8191 else x + y)

/-- R161, R163: rotation and folding give the residue modulo 8191 of the exact number: of q times a power of two under its sign, and of a
two's-complement word of any width; so (R177) two accumulator words whose values differ by d keep different residues under the tile's
exponent exactly when 8191 does not divide d. -/
def Obligations.ResiduesAreExact : Prop :=
  (∀ (neg : Bool) (q n : Nat) (e : Int), q < 8191 → (n : Int) % 13 = e % 13 →
    ((resOf neg q e : Int) - (if neg then -((q * 2 ^ n : Nat) : Int) else ((q * 2 ^ n : Nat) : Int))) % 8191 = 0) ∧
  (∀ b v : Nat, 0 < b → ((foldWord b v : Int) - sgn v b) % 8191 = 0) ∧
  (∀ (b v w t : Nat) (d : Int), 0 < b → sgn w b = sgn v b + d → (rot13 (foldWord b w) t ≠ rot13 (foldWord b v) t ↔ ¬ (8191 : Int) ∣ d))

/-- R314, R315: the hops of a route, taken one after another from a wafer, end at its destination, and no ring is run more than half its
length. -/
def Obligations.RoutesReachTheirDestination : Prop :=
  ∀ (len : List Nat) (a c : Nat), len.length ≤ 8 → a < fleetSize len → c < fleetSize len →
    (routeOf len a c).foldl (hopTo len) a = c ∧ (routeOf len a c).length ≤ (len.map (fun l => l / 2)).sum

/-- R41, R402: the 32-byte header of every receipt reads back field by field and rlen result bytes follow it; a Board Map entry reads back field
by field. -/
def Obligations.RecordLayouts : Prop :=
  (∀ (op seq epoch status part parts detail tag : Nat) (final more cached : Bool) (res : List Byte), op < 2 ^ 12 → seq < 2 ^ 32 → epoch < 2 ^ 16 →
      status < 2 ^ 16 → part < 2 ^ 8 → parts < 2 ^ 8 → detail < 2 ^ 16 → tag < 2 ^ 128 → res.length ≤ 224 →
      let r := receiptBytes op final more cached seq epoch status part parts detail tag res
      let w := ofLe (r.take 32)
      r.length = 32 + res.length ∧ fld w 0 4 = 1 ∧ fld w 4 12 = op ∧ bit w 16 = final ∧ bit w 17 = more ∧ bit w 18 = cached ∧ fld w 19 5 = 0 ∧
        fld w 24 8 = res.length ∧ fld w 32 32 = seq ∧ fld w 64 16 = epoch ∧ fld w 80 16 = status ∧ fld w 96 8 = part ∧ fld w 104 8 = parts ∧
        fld w 112 16 = detail ∧ fld w 128 128 = tag ∧ r.drop 32 = res) ∧
  (∀ (i st cls : Nat) (role : Option Nat), i < 2 ^ 20 → st < 2 ^ 4 → cls < 2 ^ 8 → (∀ r ∈ role, r < 2 ^ 20) →
      let e := bmEntry i st cls role
      e < 2 ^ 64 ∧ fld e 0 20 = i ∧ fld e 20 4 = st ∧ fld e 24 8 = cls ∧ fld e 32 20 = role.getD 0 ∧ bit e 52 = role.isSome ∧ fld e 53 11 = 0)

/-- R130: IDCODE. -/
def Obligations.IdCode : Prop :=
  ∀ b : Block, fld b.idcode 28 4 = 0x4 ∧ fld b.idcode 12 16 = 0xF1A1 ∧ fld b.idcode 1 11 = b.env.mfgId.toNat ∧ bit b.idcode 0 = true ∧
    b.idcode < 2 ^ 32 ∧ (b.env.mfgId = 0x2C5 → b.idcode = 0x4F1A158B)

/-- R30, R87: a lockstep disagreement shows the alarm and holds the host in SAFE with every core fenced and in reset, and both controller
cores stop; in SAFE no Frank is issued; and SAFE is left only through a cold reset, whatever commands arrive. -/
def Obligations.SafeHoldsUntilColdReset : Prop :=
  (∀ s : State, s.released → s.blk.svc.hoOn = true → s.blk.svc.state ≠ .safe →
    ∃ t, exec .lockstepDisagree s = .next t ∧ t.blk.svc.state = .safe ∧ t.blk.outs.alarmN = false ∧ t.blk.hoRuns = false ∧
      ∀ i ∈ t.blk.liveCores, (t.blk.core i).pins.fenceN = false ∧ (t.blk.core i).pins.isoN = false ∧ (t.blk.core i).pins.holdN = false) ∧
  (∀ s : State, s.released → s.blk.svc.state = .safe → exec .frankPresent s = .next s) ∧
  (∀ (c : Instr) (s t : State), s.released → s.blk.svc.state = .safe → c ≠ .blockPowerOnReset → exec c s = .next t →
    t.blk.svc.state = .safe ∨ t.blk.svc.state = .coldReset)

/-- R66: the latest waiting-on descriptor is held from ct_wait_vld until ct_wait_clr; when both arrive together the new one is held. -/
def Obligations.WaitDescriptorHeld : Prop :=
  (∀ (s : State) (core : CoreIdx) (chan : BitVec 8) (peer : BitVec 20), s.released → (s.blk.core core.toNat).lbOn = true →
    ∃ t, exec (.waitBegin core chan peer) s = .next t ∧ (t.blk.core core.toNat).time.wait = some (chan.toNat, peer.toNat)) ∧
  (∀ (s : State) (core : CoreIdx), s.released → (s.blk.core core.toNat).lbOn = true →
    ∃ t, exec (.waitClear core) s = .next t ∧ (t.blk.core core.toNat).time.wait = none ∧ (t.blk.core core.toNat).lbOn = true) ∧
  (∀ (s : State) (core : CoreIdx) (chan : BitVec 8) (peer : BitVec 20), s.released → (s.blk.core core.toNat).lbOn = true →
    ∃ t u, exec (.waitClear core) s = .next t ∧ exec (.waitBegin core chan peer) t = .next u ∧
      (u.blk.core core.toNat).time.wait = some (chan.toNat, peer.toNat))

/-- R74: when the fence falls, every open tile of the core closes UNCHECKABLE unless it already holds a mismatch verdict, which it keeps. -/
def Obligations.FenceClosesOpenTiles : Prop :=
  ∀ (s : State) (core : CoreIdx) (tag : Nat) (x : Tile), s.released → (s.blk.core core.toNat).lbOn = true → (s.blk.core core.toNat).ctl.test = none →
    (s.blk.core core.toNat).ctl.cap = none → (s.blk.core core.toNat).pins.fenceN = true → s.blk.tile core.toNat tag = some x →
    ∃ t y, exec (.fenceOrder core false) s = .next t ∧ (t.blk.core core.toNat).pins.fenceN = false ∧ t.blk.tile core.toNat tag = some y ∧
      y.tid = x.tid ∧ y.closed = true ∧
      t.blk.verdictOf core.toNat y = (if s.blk.verdictOf core.toNat x = .mismatchResidue ∨ s.blk.verdictOf core.toNat x = .mismatchStamp
        then s.blk.verdictOf core.toNat x else .uncheckable)

/-- R73, "When controls meet": a stop lowers ct_cg_n alone, leaving ct_fence_n and ct_iso_n, and a unit that is only placed waits for it; a
capture goes on; a core under test is not gated and its unit ends ABORTED; a release runs without raising ct_cg_n while a stop holds it low. -/
def Obligations.StopGatesTheClockAlone : Prop :=
  (∀ (b : Block) (t i : Nat), (b.core i).underTest = false → (b.core i).ctl.cap = none →
    ((gateCore t i b).core i).pins = { (b.core i).pins with cgN := false } ∧ ((gateCore t i b).core i).ctl.stopGated = true ∧
      ((gateCore t i b).core i).ctl.test = (b.core i).ctl.test ∧ ∀ j, j ≠ i → (gateCore t i b).core j = b.core j) ∧
  (∀ (b : Block) (t i : Nat), (b.core i).underTest = false → (b.core i).ctl.cap.isSome = true →
    ((gateCore t i b).core i).pins = (b.core i).pins ∧ ((gateCore t i b).core i).ctl.stopGated = true ∧
      ((gateCore t i b).core i).ctl.cap = (b.core i).ctl.cap) ∧
  (∀ (b : Block) (t i : Nat) u, (b.core i).underTest = true → (b.core i).ctl.test = some u →
    ((gateCore t i b).core i).pins = (b.core i).pins ∧ ((gateCore t i b).core i).ctl.stopGated = (b.core i).ctl.stopGated ∧
      ((gateCore t i b).core i).ctl.test = some { u with aborted := true }) ∧
  (∀ (s t : State) (core : CoreIdx), (s.blk.core core.toNat).ctl.stopGated = true → (s.blk.core core.toNat).pins.cgN = false →
    exec (.coreRelease core) s = .next t → (t.blk.core core.toNat).pins.cgN = false)

/-- R229: pips saturate at 255 when charged and at 0 when a clean hour removes one, and a core that is not present is not charged. -/
def Obligations.PipsSaturate : Prop :=
  (∀ (b : Block) (i n : Nat), b.present i = true → ((charge i n b).hist i).pips = min 255 ((b.hist i).pips + n)) ∧
  (∀ (b : Block) (i n : Nat), b.present i = false → charge i n b = b) ∧
  (∀ (b : Block) (hour i : Nat), ((cleanPip hour i b).hist i).pips = (b.hist i).pips - 1 ∧
    ∀ j, j ≠ i → (cleanPip hour i b).hist j = b.hist j)

/-- R433: a pop with a record waiting releases exactly the oldest one; a pop of an empty ring is ignored and sets pop_empty. -/
def Obligations.RingPop : Prop :=
  (∀ (s : State) (r : BitVec 6) (x : List Byte) (xs : List (List Byte)), s.released → s.blk.svc.hoOn = true → s.blk.svc.state ≠ .booting →
    56 ≤ r.toNat → (s.blk.ring r.toNat).recs = x :: xs →
    ∃ t, exec (.ringPop r 0x80000000) s = .next t ∧ (t.blk.ring r.toNat).recs = xs ∧
      (t.blk.ring r.toNat).rcpHead = ((s.blk.ring r.toNat).rcpHead + 1) % 256) ∧
  (∀ (s : State) (r : BitVec 6) (x : List Byte) (xs : List (List Byte)), s.released → s.blk.svc.hoOn = true → s.blk.svc.state ≠ .booting →
    r.toNat < 40 → (s.blk.ring r.toNat).recs = x :: xs →
    ∃ t ys, exec (.ringPop r 0x80000000) s = .next t ∧ (t.blk.ring r.toNat).recs = xs ++ ys) ∧
  (∀ (s : State) (r : BitVec 6), s.released → s.blk.svc.hoOn = true → s.blk.svc.state ≠ .booting → (56 ≤ r.toNat ∨ r.toNat < 40) →
    (s.blk.ring r.toNat).recs = [] →
    ∃ t, exec (.ringPop r 0x80000000) s = .next t ∧ t.blk.ring r.toNat = s.blk.ring r.toNat ∧ bit t.blk.ho.mgmt.err.toNat 3 = true)

/-- R447: a recorded access sets its ERR_SUMMARY bit; ERR_FIRST is written only when ERR_SUMMARY was zero; a dropped event is recorded with its
ring's number; a write to ERR_SUMMARY clears bits, is not recorded, and lowers the valid bit with the last bit. -/
def Obligations.ErrorSummary : Prop :=
  (∀ (b : Block) (o k : Nat), k < 32 → bit (recordErr o k b).ho.mgmt.err.toNat k = true ∧
    (b.ho.mgmt.err = 0 → (recordErr o k b).ho.mgmt.errOff = BitVec.ofNat 16 o ∧ (recordErr o k b).ho.mgmt.errCause = BitVec.ofNat 5 k ∧
      (recordErr o k b).ho.mgmt.errVld = true) ∧
    (b.ho.mgmt.err ≠ 0 → (recordErr o k b).ho.mgmt.errOff = b.ho.mgmt.errOff ∧ (recordErr o k b).ho.mgmt.errCause = b.ho.mgmt.errCause ∧
      (recordErr o k b).ho.mgmt.errVld = b.ho.mgmt.errVld)) ∧
  (∀ (b : Block) (code pm unit occ : Nat) (body : List Byte), ringRoom (b.ring (evRing code)) (evRing code) = false → b.ho.mgmt.err = 0 →
    bit (admitEvent code pm unit occ body b).ho.mgmt.err.toNat 8 = true ∧
      (admitEvent code pm unit occ body b).ho.mgmt.errOff = BitVec.ofNat 16 (evRing code)) ∧
  (∀ (s : State) (v : BitVec 32), s.released → s.blk.svc.hoOn = true → s.blk.svc.state ≠ .booting →
    ∃ t, exec (.registerWrite 0x800 v) s = .next t ∧ (∀ k, t.blk.ho.mgmt.err.getLsbD k = (s.blk.ho.mgmt.err.getLsbD k && !v.getLsbD k)) ∧
      t.blk.ho.mgmt.errCount = s.blk.ho.mgmt.errCount ∧ t.blk.ho.mgmt.errOff = s.blk.ho.mgmt.errOff ∧
      (t.blk.ho.mgmt.errVld = true ↔ s.blk.ho.mgmt.errVld = true ∧ t.blk.ho.mgmt.err ≠ 0))

/-- R20, R155: a command on one core's tap leaves every other core, Letterbox and Tally Reducer as it was. (A read that misses its
referee's slot, R215, is an event of the Office, which may charge the compared cores.) -/
def Obligations.OtherCoresUntouched : Prop :=
  ∀ (s t : State) (core : CoreIdx) (c : Instr),
    (c = .corePorAssert core ∨ (∃ w, c = .weightBeat core w) ∨ (∃ w, c = .activationBeat core w) ∨ (∃ w, c = .accumulatorDrain core w) ∨
      c = .rowCompare core ∨ (∃ w, c = .outputBeat core w) ∨ (∃ l, c = .flushSticky core l) ∨ (∃ d, c = .shadowDescriptorRead core ⟨d, false⟩) ∨
      (∃ h, c = .fenceOrder core h) ∨ c = .fenceAck core ∨ c = .fenceTimeout core ∨ c = .coreRelease core ∨ c = .testAck core ∨
      (∃ l n, c = .captureRequest core l n) ∨ c = .captureAck core ∨ (∃ d l, c = .captureBeat core d l) ∨ c = .captureTimeout core) →
    exec c s = .next t → ∀ j, j ≠ core.toNat → t.blk.core j = s.blk.core j

/-- R88, R123, R117, R339: power-on reset and its release. -/
def Obligations.PowerOnResetAndRelease : Prop :=
  (∀ s : State, exec .blockPowerOnReset s = .next { blk := { free := s.blk.free }, pending := s.pending }) ∧
  (∀ (s : State) lc lcInv ar idv feed loop rack mfg vok, s.blk.env.porN = false →
    ∃ t, exec (.blockResetRelease lc lcInv ar idv feed loop rack mfg vok) s = .next t ∧ t.pending = s.pending ∧
      t.blk.straps = (true, lc, lcInv, ar, mfg) ∧ t.blk.env.blkVok = true ∧ t.blk.env.rgnVok = vok ∧
      t.blk.pm = { powered := true } ∧ t.blk.svc.state = .booting ∧ t.blk.svc.hoOn = false ∧
      t.blk.svc.lcInvalid = decide (lcInv ≠ ~~~lc ∨ 5 ≤ lc.toNat) ∧
      (lcInv ≠ ~~~lc ∨ 5 ≤ lc.toNat → t.blk.svc.lc = .decommissioned) ∧
      (idv = true → t.blk.svc.feed = feed ∧ t.blk.svc.loop = loop ∧ t.blk.svc.rack = rack) ∧
      t.blk.outs = {} ∧ t.blk.ho = {} ∧ t.blk.units = {} ∧ t.blk.ledger = {} ∧ t.blk.letters = [])

/-- R252, R143, R141, R339: the domain tests of steps 1 and 2, and the configuration check of step 3. -/
def Obligations.FirstBringUpSteps : Prop :=
  (∀ (s : State) legs, s.released → s.blk.svc.pmOk = false → s.blk.booting = true → s.blk.pm.powered = true →
    (∀ l ∈ legs, ¬ (legHo l = true ∧ legBad l = true)) →
    ∃ t, exec (.postmarkDomainTestDone true legs) s = .next t ∧
      t.blk.svc = { s.blk.svc with pmOk := true, hoOn := true, dbgOn := true } ∧ t.pending = s.pending) ∧
  (∀ (s : State) (l : LegSample), s.released → s.blk.svc.pmOk = false → s.blk.booting = true → s.blk.pm.powered = true →
    legBad l = false → legTie l = false →
    ∃ t, exec (.postmarkDomainTestDone true [l]) s = .next t ∧ tget t.blk.pm.offsets l.node = some (legOffset false l)) ∧
  (∀ (s : State) legs, s.released → s.blk.svc.pmOk = false → s.blk.booting = true → s.blk.pm.powered = true →
    ∃ t, exec (.postmarkDomainTestDone false legs) s = .next t ∧ t.blk.svc.state = .safe ∧ t.blk.svc.pmOk = false) ∧
  (∀ (s : State) dbg sel s0 s1 k l, s.released → s.blk.svc.hoOn = true → s.blk.svc.hoPassed = false → s.blk.booting = true →
    s.blk.svc.lc ≠ .decommissioned → s.blk.env.arPresent = true → pickImage (BitVec.toNat (w := 1) sel) s0 s1 = some (k, l) →
    ∃ t, exec (.headOfficeTestDone ⟨true, dbg⟩ sel s0 s1) s = .next t ∧ t.blk.svc.state = .bringup ∧ t.blk.svc.hoPassed = true ∧ t.blk.svc.dbgFail = !dbg ∧
      t.blk.svc.imageOk = true ∧ t.blk.outs.alarmN = true ∧ t.blk.outs.alarmCode = 0 ∧ t.blk.ho.mgmt.meas = sha384v l ∧
      t.blk.ho.mgmt.measVld = true ∧ t.blk.ho.mgmt.measLen = l.length ∧ t.pending = s.pending) ∧
  (∀ (s : State) dbg sel s0 s1, s.released → s.blk.svc.hoOn = true → s.blk.svc.hoPassed = false → s.blk.booting = true →
    ∃ t, exec (.headOfficeTestDone ⟨false, dbg⟩ sel s0 s1) s = .next t ∧ t.blk.svc.state = .safe ∧ t.blk.svc.hoPassed = false) ∧
  (∀ (s : State) image present, s.released → s.blk.hoRuns = true → s.blk.cfg = none → s.blk.svc.state = .bringup →
    configOk image (parseConfig image present) = true →
    exec (.configurationCheck image present) s = .next { s with blk := { s.blk with cfg := some (parseConfig image present) } })

/-- R252, R258, R339, R340: steps 4 to 7 of bring-up. -/
def Obligations.OfficeAndRouterBringUp : Prop :=
  (∀ (s : State) sa sb, s.released → s.blk.hoRuns = true → s.blk.cfg.isSome = true → s.blk.svc.ledgerOk = false →
    s.blk.svc.state = .bringup →
    ∃ t, exec (.ledgerReloadDone sa sb) s = .next t ∧ t.blk.svc = { s.blk.svc with ledgerOk := true } ∧
      t.blk.arch = { s.blk.arch with slotA := sa, slotB := sb } ∧
      t.blk.ledger.hist = (((newerSlot sa sb).map LedgerImage.data).getD {}).hist ∧
      t.blk.ledger.epoch = (((newerSlot sa sb).map LedgerImage.data).getD {}).epoch ∧
      (∀ r ∈ s.blk.popRegions, (t.blk.office r).powered = true) ∧ t.pending = s.pending) ∧
  (∀ (s : State) (region : RegionIdx) legs, s.released → s.blk.rising = true → (s.blk.office region.toNat).powered = true →
    (s.blk.office region.toNat).memA.passed = false → (s.blk.office region.toNat).memA.failed = false →
    ∃ t, exec (.officeMemberTestDone region 0 true legs) s = .next t ∧ (t.blk.office region.toNat).memA.passed = true ∧
      (t.blk.office region.toNat).memA.eligible = true ∧ (t.blk.office region.toNat).memA.failed = false ∧
      ((s.blk.office region.toNat).memB.passed = false → (t.blk.office region.toNat).serving = false)) ∧
  (∀ (s : State) (region : RegionIdx) legs, s.released → s.blk.rising = true → (s.blk.office region.toNat).powered = true →
    (s.blk.office region.toNat).memB.passed = false → (s.blk.office region.toNat).memB.failed = false →
    ∃ t, exec (.officeMemberTestDone region 1 false legs) s = .next t ∧ (t.blk.office region.toNat).memB.passed = false ∧
      (t.blk.office region.toNat).memB.failed = true ∧ (t.blk.office region.toNat).memB.eligible = false) ∧
  (∀ (s : State) (region : RegionIdx) (k : BitVec 7), s.released → s.blk.rising = true → s.blk.officeOn region.toNat = true →
    maskBit (s.blk.office region.toNat).looped k.toNat = false →
    exec (.routerLoopbackDone region k true) s = .next { s with blk := s.blk.modOffice region.toNat (fun o => { o with looped := maskSet o.looped k.toNat true }) }) ∧
  (∀ (s : State) (region : RegionIdx) (k : BitVec 7), s.released → s.blk.rising = true → s.blk.officeOn region.toNat = true →
    maskBit (s.blk.office region.toNat).looped k.toNat = false →
    ∃ t, exec (.routerLoopbackDone region k false) s = .next t ∧ (t.blk.router (128 * region.toNat + k.toNat)).lost = true ∧ t.pending = s.pending) ∧
  (∀ (s : State) (n : BitVec 4), s.released → s.blk.rising = true → (s.blk.courier n.toNat).powered = false → (s.blk.courier n.toNat).domFail = false →
    (s.blk.courier n.toNat).linkUp = false → (s.blk.attach (unitCourier n.toNat)).isSome = true →
    exec (.courierDomainTestDone n true true) s =
      .next { s with blk := s.blk.setCourier n.toNat { s.blk.courier n.toNat with powered := true, portFail := false, en := true, itFmt := s.blk.ho.policy.fmt } }) ∧
  (∀ (s : State) (n : BitVec 4), s.released → s.blk.rising = true → (s.blk.courier n.toNat).powered = false →
    ∃ t, exec (.courierDomainTestDone n true false) s = .next t ∧ (t.blk.courier n.toNat).domFail = true ∧ (t.blk.courier n.toNat).notices = []) ∧
  (∀ (s : State) (region : RegionIdx), s.released → s.blk.rising = true → s.blk.officeOn region.toNat = true → (s.blk.office region.toNat).ledgerIn = false →
    ∃ t, exec (.officeLedgerDelivered region) s = .next t ∧ (t.blk.office region.toNat).ledgerIn = true ∧ t.blk.svc = s.blk.svc ∧ t.blk.pm = s.blk.pm)

/-- R114, R115, R341, R344: power waves and publication of the Board Map. -/
def Obligations.WavesAndPublication : Prop :=
  (∀ (s : State) w, s.released → s.blk.outs.waveReq = false → s.blk.svc.shutting = false → s.blk.svc.state = .bringup → s.blk.rising = true →
    s.blk.svc.reset = 0 → nextWave s.blk s.blk.wavesLeft = some (w, []) →
    ∃ t, exec .waveRequest s = .next t ∧ t.blk.outs = { s.blk.outs with waveReq := true, waveOp := true, waveId := BitVec.ofNat 6 w } ∧
      t.blk.svc.wavePhase = 1 ∧ t.blk.svc.waveAt = some t.blk.now ∧ t.pending = s.pending) ∧
  (∀ s : State, s.released → s.blk.outs.waveReq = true → s.blk.outs.waveOp = true → s.blk.svc.coldWait = 0 → s.blk.svc.reset ≠ 2 →
    ∃ t, exec .waveAck s = .next t ∧ t.blk.outs = { s.blk.outs with waveReq := false } ∧ t.blk.svc.wavePhase = 2 ∧
      t.blk.svc.waveOn = maskSet s.blk.svc.waveOn s.blk.outs.waveId.toNat true ∧
      t.blk.svc.wavesDone = maskSet s.blk.svc.wavesDone s.blk.outs.waveId.toNat true ∧ t.pending = s.pending) ∧
  (∀ s : State, s.released → s.blk.outs.waveReq = true → s.blk.outs.waveOp = true → s.blk.svc.coldWait = 0 → s.blk.svc.reset ≠ 2 →
    ∃ t, exec .waveFail s = .next t ∧ t.blk.outs = { s.blk.outs with waveReq := false } ∧ t.blk.svc.wavePhase = 3 ∧
      t.blk.svc.waveFail = maskSet s.blk.svc.waveFail s.blk.outs.waveId.toNat true ∧ t.blk.svc.waveOn = s.blk.svc.waveOn ∧
      (∀ i ∈ s.blk.waveCores s.blk.outs.waveId.toNat, (tget t.blk.ho.bm.blocked i).isSome = true) ∧ t.pending = s.pending) ∧
  (∀ s : State, s.released → s.blk.outs.waveReq = true → s.blk.outs.waveOp = true → s.blk.svc.coldWait = 0 → s.blk.svc.reset ≠ 2 →
    ∃ t, exec .waveTimeout s = .next t ∧ t.blk.outs = { s.blk.outs with waveReq := false } ∧ t.blk.svc.wavePhase = 3 ∧
      t.blk.svc.waveFail = maskSet s.blk.svc.waveFail s.blk.outs.waveId.toNat true ∧
      (∀ i ∈ s.blk.waveCores s.blk.outs.waveId.toNat, (tget t.blk.ho.bm.blocked i).isSome = true) ∧ t.pending = s.pending) ∧
  (∀ s : State, s.released → s.blk.mayPublish = true →
    ∃ t, exec .boardMapPublication s = .next t ∧ t.blk.svc.state = .ready ∧ t.blk.svc.reset = 0 ∧ t.blk.ho.bm.dirty = false ∧
      t.blk.ho.bm.published.map Prod.fst = s.blk.presentCores ∧ t.blk.cfg = s.blk.cfg ∧ t.pending = s.pending)

/-- R48, R147, R148, R158, R65, R66, R67, R215, R348: one core position's reset, alignment, milestones, waits and descriptors. -/
def Obligations.CoreTimingCommands : Prop :=
  (∀ (s : State) (core : CoreIdx), s.released → (s.blk.core core.toNat).porN = true →
    exec (.corePorAssert core) s = .next { s with blk := s.blk.setCore core.toNat {} }) ∧
  (∀ (s : State) (core : CoreIdx) check, s.released → s.blk.present core.toNat = true → (s.blk.core core.toNat).porN = false →
    ∃ t, exec (.corePorRelease core true check) s = .next t ∧ (t.blk.core core.toNat).porN = true ∧
      (t.blk.core core.toNat).time = { epoch := nextEpochAfter s.blk.now } ∧ (t.blk.core core.toNat).ctl.failed = !check ∧
      (t.blk.core core.toNat).ctl.ctrlFail = false ∧ (t.blk.core core.toNat).pins = {} ∧ t.blk.svc = s.blk.svc ∧ t.pending = s.pending) ∧
  (∀ (s : State) (core : CoreIdx) (n : BitVec 16), s.released → (s.blk.core core.toNat).lbOn = true → (s.blk.core core.toNat).time.failed = false →
    (s.blk.core core.toNat).time.aligned = false → (s.blk.core core.toNat).time.clkChg = false → (s.blk.core core.toNat).ctl.puStage = 0 →
    s.blk.unitsLeft core.toNat .restore = false →
    n.toNat = epochCycles (s.blk.rcfg (regionOf core.toNat)).p (s.blk.rcfg (regionOf core.toNat)).q →
    ∃ t, exec (.alignmentEpochCheck core n) s = .next t ∧
      (t.blk.core core.toNat).time = { (s.blk.core core.toNat).time with aligned := true, testRatio := false, cmode := false, tries := 0 } ∧
      t.pending = s.pending) ∧
  (∀ (s : State) (core : CoreIdx), s.released → (s.blk.core core.toNat).lbOn = true →
    exec (.clockChangeDeclared core) s = .next { s with blk := s.blk.modCore core.toNat (fun c =>
      { c with time := { c.time with clkChg := true, cmode := true } }) }) ∧
  (∀ (s : State) (core : CoreIdx), s.released → (s.blk.core core.toNat).lbOn = true → (s.blk.core core.toNat).time.clkChg = true →
    exec (.clockChangeEnded core) s = .next { s with blk := s.blk.modCore core.toNat (fun c =>
      { c with time := { c.time with clkChg := false, aligned := false, tries := 0, failed := false, epoch := nextEpochAfter s.blk.now } }) }) ∧
  (∀ (s : State) (core : CoreIdx) (id : BitVec 6) (cyc : BitVec 48), s.released → (s.blk.core core.toNat).lbOn = true → s.blk.ho.job.inSlot = true →
    (s.blk.core core.toNat).ctl.stopGated = false → (s.blk.core core.toNat).ctl.test = none → (s.blk.core core.toNat).time.timetable = [] →
    ∃ t, exec (.milestone core id cyc) s = .next t ∧ (t.blk.core core.toNat).time.cyc = cyc ∧
      (t.blk.core core.toNat).time.lastMs = some id.toNat ∧ (t.blk.core core.toNat).time.cleared = false ∧ t.pending = s.pending) ∧
  (∀ (s : State) (core : CoreIdx) e, s.released → (s.blk.core core.toNat).time.timetable[(s.blk.core core.toNat).time.expect]? = some e →
    (s.blk.core core.toNat).lbOn = true → s.blk.ho.job.inSlot = true → (s.blk.core core.toNat).ctl.stopGated = false →
    (s.blk.core core.toNat).time.stalled = false → s.blk.roleOf core.toNat = none →
    ∃ t, exec (.stall core) s = .next t ∧ (t.blk.core core.toNat).time.stalled = true ∧
      (t.blk.core core.toNat).time.stallEntry = some (s.blk.core core.toNat).time.expect ∧
      (t.blk.core core.toNat).time.cyc = BitVec.ofNat 48 (e.expCyc + 1024) ∧ t.pending = s.pending) ∧
  (∀ (s : State) (core : CoreIdx) (chan : BitVec 8) (peer : BitVec 20), s.released → (s.blk.core core.toNat).lbOn = true →
    (s.blk.core core.toNat).time.stalled = false →
    exec (.waitBegin core chan peer) s = .next { s with blk := s.blk.modCore core.toNat (fun c =>
      { c with time := { c.time with wait := some (chan.toNat, peer.toNat), cleared := false } }) }) ∧
  (∀ (s : State) (core : CoreIdx), s.released → (s.blk.core core.toNat).lbOn = true → (s.blk.core core.toNat).time.stalled = false →
    exec (.waitClear core) s = .next { s with blk := s.blk.modCore core.toNat (fun c =>
      { c with time := { c.time with wait := none, cleared := c.time.wait.isSome || c.time.cleared } }) }) ∧
  (∀ (s : State) (core : CoreIdx) (slot : BitVec 8) d, s.released → (s.blk.core core.toNat).lbOn = true →
    tget (s.blk.core core.toNat).scr.desc slot.toNat = some d → fld d.toNat 52 3 ≠ 0 →
    ∃ t, exec (.shadowDescriptorRead core ⟨slot, false⟩) s = .next t ∧ (t.blk.core core.toNat).pins.shdDesc = d ∧
      (t.blk.core core.toNat).scr.reads = (s.blk.core core.toNat).scr.reads ++ [(slot.toNat, d)] ∧ Frame [.cores] s.blk t.blk) ∧
  (∀ (s : State) (core : CoreIdx) (slot : BitVec 8) clash, s.released → (s.blk.core core.toNat).lbOn = true →
    (clash = true ∨ tget (s.blk.core core.toNat).scr.desc slot.toNat = none) →
    ∃ t, exec (.shadowDescriptorRead core ⟨slot, clash⟩) s = .next t ∧ (t.blk.core core.toNat).pins.shdDesc = 0 ∧
      (tget (s.blk.core core.toNat).scr.desc slot.toNat = none → (t.blk.core core.toNat).scr.reads = (s.blk.core core.toNat).scr.reads))

/-- R70 to R79: the fence and release sequences, the test handshake and the capture channel of one core. -/
def Obligations.CoreControlCommands : Prop :=
  (∀ (s : State) (core : CoreIdx), s.released → (s.blk.core core.toNat).lbOn = true → (s.blk.core core.toNat).ctl.test = none →
    (s.blk.core core.toNat).ctl.cap = none → (s.blk.core core.toNat).pins.fenceN = true →
    exec (.fenceOrder core false) s = .next { s with blk := s.blk.modCore core.toNat (beginFence false) }) ∧
  (∀ (s : State) (core : CoreIdx), s.released → (s.blk.core core.toNat).lbOn = true → (s.blk.core core.toNat).ctl.fencing = true →
    exec (.fenceAck core) s = .next { s with blk := s.blk.modCore core.toNat (fun c => isolate { c with ctl := { c.ctl with fenceAck := true } }) }) ∧
  (∀ (s : State) (core : CoreIdx), s.released → (s.blk.core core.toNat).lbOn = true → (s.blk.core core.toNat).ctl.fencing = true →
    (s.blk.core core.toNat).ctl.fenceAck = false → ((s.blk.core core.toNat).ctl.stopGated = false ∨ (s.blk.core core.toNat).pins.cgN = true) →
    ∃ t, exec (.fenceTimeout core) s = .next t ∧ (t.blk.core core.toNat).pins.isoN = false ∧ (t.blk.core core.toNat).ctl.fenceTo = true ∧
      (t.blk.core core.toNat).ctl.fencing = false ∧ Frame [.cores, .offices] s.blk t.blk) ∧
  (∀ (s : State) (core : CoreIdx), s.released → s.blk.mayRelease = true → s.blk.releasableCore core.toNat = true →
    exec (.coreRelease core) s = .next { s with blk := s.blk.modCore core.toNat (fun c => { c with
      pins := { c.pins with fenceN := true, isoN := true, holdN := true, cgN := !c.ctl.stopGated && !c.ctl.launchGated }
      ctl := { c.ctl with toHold := false, fenceAck := false, fenceTo := false } }) }) ∧
  (∀ (s : State) (core : CoreIdx) u, s.released → (s.blk.core core.toNat).ctl.test = some u → u.requested = false → u.mode ≠ 0 →
    (s.blk.core core.toNat).lbOn = true → (s.blk.core core.toNat).ctl.cap = none → s.blk.officeOn (regionOf core.toNat) = true →
    (s.blk.core core.toNat).ctl.fenceTo = false → (s.blk.core core.toNat).ctl.fenceAck = true → (s.blk.core core.toNat).pins.isoN = false →
    (s.blk.core core.toNat).ctl.fencing = false → (s.blk.core core.toNat).ctl.stopGated = false →
    ∃ t, exec (.testRequest ⟨core, none⟩) s = .next t ∧ (t.blk.core core.toNat).pins.tstReq = true ∧
      (t.blk.core core.toNat).pins.tstMode = BitVec.ofNat 3 u.mode ∧ (t.blk.core core.toNat).pins.cgN = true ∧
      (t.blk.core core.toNat).pins.tstBudget = BitVec.ofNat 20 (s.blk.declLen u.mode u.unit) ∧
      (t.blk.core core.toNat).ctl.test = some { u with requested := true } ∧ Frame [.cores] s.blk t.blk) ∧
  (∀ (s : State) (core : CoreIdx) (m : BitVec 2) (n : BitVec 16), s.released → (s.blk.core core.toNat).ctl.test = none → m ≠ 0 →
    s.blk.tapOn = true → s.blk.dbg.netOpen = true →
    (s.blk.core core.toNat).lbOn = true → (s.blk.core core.toNat).ctl.cap = none →
    (s.blk.core core.toNat).ctl.fenceTo = false → (s.blk.core core.toNat).ctl.fenceAck = true → (s.blk.core core.toNat).pins.isoN = false →
    (s.blk.core core.toNat).ctl.fencing = false → (s.blk.core core.toNat).ctl.stopGated = false →
    ∃ t, exec (.testRequest ⟨core, some (m, n)⟩) s = .next t ∧ (t.blk.core core.toNat).pins.tstReq = true ∧
      (t.blk.core core.toNat).pins.tstMode = BitVec.ofNat 3 m.toNat ∧ (t.blk.core core.toNat).pins.cgN = true ∧ Frame [.cores] s.blk t.blk) ∧
  (∀ (s : State) (core : CoreIdx) u, s.released → (s.blk.core core.toNat).ctl.test = some u → u.requested = true →
    exec (.testAck core) s = .next { s with blk := s.blk.modCore core.toNat (fun c => { c with ctl := { c.ctl with test := some { u with acked := true } } }) }) ∧
  (∀ (s : State) (core : CoreIdx) u pass sig, s.released → (s.blk.core core.toNat).ctl.test = some u → u.acked = true → u.lost = false → u.aborted = false →
    exec (.testDone core pass sig) s =
      .next { blk := held s.blk (finishTest core.toNat u (s.blk.judge u pass (BitVec.toNat (w := 32) sig)) sig.toNat s.blk), pending := s.pending }) ∧
  (∀ (s : State) (core : CoreIdx) u, s.released → (s.blk.core core.toNat).ctl.test = some u → u.requested = true →
    exec (.testTimeout core) s =
      .next { blk := held s.blk (finishTest core.toNat u .timeout 0 (lbEvent core.toNat evTestTimeout [] s.blk)), pending := s.pending }) ∧
  (∀ (s : State) (core : CoreIdx) load (beats : BitVec 13), s.released → (s.blk.core core.toNat).lbOn = true → (s.blk.core core.toNat).ctl.cap = none →
    (s.blk.core core.toNat).ctl.test = none → (s.blk.core core.toNat).ctl.fencing = false → (s.blk.core core.toNat).ctl.stopGated = true → s.blk.capLen core.toNat load ≠ 0 →
    exec (.captureRequest core load beats) s = .next { s with blk := s.blk.modCore core.toNat (fun c => { c with
      pins := { c.pins with capReq := true, capDir := load, cgN := true }
      ctl := { c.ctl with cap := some { load := load, want := s.blk.capLen core.toNat load, gated := !c.pins.cgN, short := s.blk.capturing && decide (s.blk.capLen core.toNat load = s.blk.pcLen) && !load } } }) }) ∧
  (∀ b : Block, b.capturing = false → ∀ i load, b.capLen i load = b.csLen) ∧
  (∀ (s : State) (core : CoreIdx) k, s.released → (s.blk.core core.toNat).ctl.cap = some k → k.ended = false →
    exec (.captureAck core) s = .next { s with blk := s.blk.modCore core.toNat (fun c => { c with
      pins := { c.pins with capRdy := !k.load, capWvld := k.load, capWdata := if k.load then s.blk.loadBeat core.toNat k.moved 0 else c.pins.capWdata, capWlast := if k.load then decide (k.moved + 1 = k.want) else c.pins.capWlast }
      ctl := { c.ctl with cap := some { k with acked := true } } }) }) ∧
  (∀ (s : State) (core : CoreIdx) k data, s.released → (s.blk.core core.toNat).ctl.cap = some k → k.acked = true → k.ended = false → k.load = false →
    k.moved + 1 < k.want →
    exec (.captureBeat core data false) s = .next { s with blk := s.blk.modCore core.toNat (fun c => { c with
      ctl := { c.ctl with cap := some { k with moved := k.moved + 1, beats := k.beats ++ [data] } } }) }) ∧
  (∀ (s : State) (core : CoreIdx) k data, s.released → (s.blk.core core.toNat).ctl.cap = some k → k.acked = true → k.ended = false → k.load = false →
    k.moved + 1 = k.want →
    exec (.captureBeat core data true) s = .next { s with blk := s.blk.modCore core.toNat (fun c => { c with
      pins := { c.pins with capReq := false, capRdy := false, capWvld := false, capWlast := false }
      ctl := { c.ctl with cap := some { k with moved := k.moved + 1, beats := k.beats ++ [data], ended := true } } }) }) ∧
  (∀ (s : State) (core : CoreIdx) k data, s.released → (s.blk.core core.toNat).ctl.cap = some k → k.acked = true → k.ended = false → k.load = false →
    k.moved + 1 < k.want →
    ∃ t, exec (.captureBeat core data true) s = .next t ∧ (t.blk.core core.toNat).pins.capReq = false ∧
      (t.blk.core core.toNat).ctl.cap = some { k with moved := k.moved + 1, beats := k.beats ++ [data], invalid := true, ended := true } ∧
      Frame [.cores, .offices] s.blk t.blk) ∧
  (∀ (s : State) (core : CoreIdx) k, s.released → (s.blk.core core.toNat).ctl.cap = some k → k.ended = false →
    ∃ t, exec (.captureTimeout core) s = .next t ∧ (t.blk.core core.toNat).pins.capReq = false ∧
      (t.blk.core core.toNat).ctl.cap = some { k with invalid := true, ended := true } ∧ Frame [.cores, .offices] s.blk t.blk) ∧
  (∀ (s : State) (core : CoreIdx) k, s.released → (s.blk.core core.toNat).ctl.cap = some k → k.ended = true → s.blk.roleOf core.toNat = none →
    (s.blk.core core.toNat).ctl.toHold = false → (∀ f ∈ s.blk.ho.job.fills, f.src ≠ core.toNat ∧ f.dst ≠ core.toNat) →
    ∃ t, exec (.captureClose core) s = .next t ∧ (t.blk.core core.toNat).ctl.cap = none ∧
      (k.gated = true → (s.blk.core core.toNat).ctl.stopGated = true → (t.blk.core core.toNat).pins.cgN = false) ∧ Frame [.cores] s.blk t.blk)

/-- R52 to R64, R172, R175, R176, R182, R218, R219: the tap port and the Tally Reducer of one core. -/
def Obligations.TileCommands : Prop :=
  (∀ (s : State) (core : CoreIdx) (w : WeightBeat), s.released → (s.blk.core core.toNat).tapsRead = true → w.first = true →
    s.blk.tile core.toNat w.tag.toNat = none → (s.blk.core core.toNat).scr.tagBusy.contains w.tag.toNat = false →
    ∃ t x, exec (.weightBeat core w) s = .next t ∧ t.blk.tile core.toNat w.tag.toNat = some x ∧ x.tid = w.tid ∧ x.k = w.k.toNat + 1 ∧
      x.n = w.n.toNat + 1 ∧ x.wBeats = 1 ∧ x.stampIn = w.stamp ∧ x.wLast = w.last ∧ Frame [.cores, .offices] s.blk t.blk) ∧
  (∀ (s : State) (core : CoreIdx) (w : WeightBeat) x, s.released → (s.blk.core core.toNat).tapsRead = true → w.first = false →
    s.blk.tile core.toNat w.tag.toNat = some x → x.wLast = false → x.closed = false →
    ∃ t y, exec (.weightBeat core w) s = .next t ∧ t.blk.tile core.toNat w.tag.toNat = some y ∧ y.tid = x.tid ∧ y.wBeats = x.wBeats + 1 ∧
      y.wLast = w.last ∧ Frame [.cores, .offices] s.blk t.blk) ∧
  (∀ (s : State) (core : CoreIdx) (a : ActBeat) x, s.released → (s.blk.core core.toNat).tapsRead = true →
    s.blk.tile core.toNat a.tag.toNat = some x → x.closed = false → x.wLast = true → a.rowLast = false →
    ∃ t y, exec (.activationBeat core a) s = .next t ∧ t.blk.tile core.toNat a.tag.toNat = some y ∧ y.aFmt = some (x.aFmt.getD a.fmt.toNat) ∧
      y.rowsAct = x.rowsAct ∧ y.actEnd = (x.actEnd || a.tileLast) ∧ y.closed = false ∧ Frame [.cores, .offices] s.blk t.blk) ∧
  (∀ (s : State) (core : CoreIdx) (a : AccBeat), s.released → (s.blk.core core.toNat).tapsRead = true → (s.blk.core core.toNat).porN = true →
    s.blk.tile core.toNat a.tag.toNat = none → accSplit a = false → a.rowLast = true →
    ∃ t, exec (.accumulatorDrain core a) s = .next t ∧ (t.blk.core core.toNat).pins.tlyVld = true ∧ (t.blk.core core.toNat).pins.tlyTag = a.tag ∧
      (t.blk.core core.toNat).pins.tlyRes = BitVec.ofNat 13 (rot13 ((((tget (s.blk.core core.toNat).scr.tacc a.tag.toNat).getD {}).acc + accFold a) % M13)
        (emod13 (sgn (((tget (s.blk.core core.toNat).scr.tacc a.tag.toNat).getD {}).exp.getD a.lsbExp).toNat 8))) ∧
      (t.blk.core core.toNat).pins.tlyLast = a.tileLast ∧ Frame [.free, .cores, .offices] s.blk t.blk) ∧
  (∀ (s : State) (core : CoreIdx) tag y last rest k x, s.released → (s.blk.core core.toNat).scr.tlyq = (tag, y, last) :: rest →
    (s.blk.core core.toNat).scr.rowq.findIdx? (fun r => decide (r.1 = tag)) = some k → s.blk.tile core.toNat tag = some x →
    x.closed = false → x.special = false → x.misuse = false → s.blk.planting core.toNat x = none →
    ∃ t z, exec (.rowCompare core) s = .next t ∧ t.blk.tile core.toNat tag = some z ∧ z.compared = x.compared + 1 ∧
      z.resBad = (x.resBad || decide (((((s.blk.core core.toNat).scr.rowq.getD k (0, 0)).2) + M13 - y) % M13 ≠ 0)) ∧
      (t.blk.core core.toNat).scr.tlyq = rest ∧ (t.blk.core core.toNat).scr.rowq = (s.blk.core core.toNat).scr.rowq.eraseIdx k ∧ Frame [.cores, .offices] s.blk t.blk) ∧
  (∀ (s : State) (core : CoreIdx) (o : OutBeat) x, s.released → (s.blk.core core.toNat).tapsRead = true →
    s.blk.tile core.toNat (s.blk.outSlot core.toNat o.tag.toNat) = some x → x.outEnd = false → x.closed = false →
    ∃ t y, exec (.outputBeat core o) s = .next t ∧ t.blk.tile core.toNat (s.blk.outSlot core.toNat o.tag.toNat) = some y ∧ y.outEnd = o.tileLast ∧
      y.oFmt = some (x.oFmt.getD o.fmt.toNat) ∧ y.outRows.length = x.outRows.length + b01 o.rowLast ∧ Frame [.cores, .offices] s.blk t.blk) ∧
  (∀ (s : State) (core : CoreIdx), s.released → (s.blk.core core.toNat).tapsRead = true →
    ∃ t, exec (.saturationPulse core) s = .next t ∧
      (t.blk.core core.toNat).scr = { (s.blk.core core.toNat).scr with tiles := tmap (fun _ (x : Tile) => { x with sat := true }) (s.blk.core core.toNat).scr.tiles } ∧
      Frame [.cores] s.blk t.blk) ∧
  (∀ (s : State) (core : CoreIdx), s.released → (s.blk.core core.toNat).lbOn = true →
    ∃ t, exec (.flushSticky core true) s = .next t ∧ (t.blk.core core.toNat).scr.sticky = true ∧
      (t.blk.core core.toNat).scr.tiles = tmap (fun _ (x : Tile) => { x with flush := true }) (s.blk.core core.toNat).scr.tiles ∧ Frame [.cores] s.blk t.blk) ∧
  (∀ (s : State) (core : CoreIdx), s.released → (s.blk.core core.toNat).lbOn = true →
    ∃ t, exec (.flushSticky core false) s = .next t ∧ (t.blk.core core.toNat).scr.sticky = false ∧
      (t.blk.core core.toNat).scr.tiles = (s.blk.core core.toNat).scr.tiles ∧ Frame [.cores] s.blk t.blk) ∧
  (∀ (s : State) (core : CoreIdx) (tag : BitVec 2) x, s.released → (s.blk.core core.toNat).lbOn = true → s.blk.tile core.toNat (tag.toNat + 4) = none →
    s.blk.tile core.toNat tag.toNat = some x → s.blk.tileReady core.toNat tag.toNat x = true → x.test = true →
    ∃ t, exec (.tileVerdict core tag) s = .next t ∧ t.blk.tile core.toNat tag.toNat = none ∧ Frame [.cores, .offices, .routers, .couriers, .post] s.blk t.blk) ∧
  (∀ (s : State) (core : CoreIdx) (tag : BitVec 2) x, s.released → (s.blk.core core.toNat).lbOn = true → s.blk.tile core.toNat (tag.toNat + 4) = none →
    s.blk.tile core.toNat tag.toNat = some x → s.blk.tileReady core.toNat tag.toNat x = true → x.test = false → x.kind = 0 →
    ∃ t, exec (.tileVerdict core tag) s = .next t ∧ t.blk.tile core.toNat tag.toNat = none ∧
      (t.blk.core core.toNat).scr.ownTiles = (s.blk.core core.toNat).scr.ownTiles + 1 ∧ t.pending = s.pending) ∧
  (∀ (s : State) (core : CoreIdx), s.released → (s.blk.core core.toNat).lbOn = true → (s.blk.core core.toNat).ctl.test = none →
    (s.blk.core core.toNat).scr.summarySent = false → (s.blk.core core.toNat).time.finalSeen = true → s.blk.ho.job.inSlot = true →
    (s.blk.roleOf core.toNat).isSome = true →
    ∃ t, exec (.coreSummary core) s = .next t ∧ (t.blk.core core.toNat).scr.summarySent = true ∧
      t.blk.svc = s.blk.svc ∧ t.blk.ledger = s.blk.ledger ∧ t.blk.ho.job = s.blk.ho.job ∧ t.pending = s.pending)

/-- R91, R92, R96 to R102, R132, R484: the intake taps, the egress taps and the Frank ports of a Courier domain. -/
def Obligations.TapCommands : Prop :=
  (∀ (s : State) (n : BitVec 4) (x : IntakeBeat), s.released → (s.blk.courier n.toNat).tapsOn = true → x.first = true → x.last = false →
    (s.blk.courier n.toNat).itTile = none →
    ∃ t u, exec (.intakeBeat n x) s = .next t ∧ (t.blk.courier n.toNat).itTile = some u ∧ u.tid = x.tid ∧ u.beats = 1 ∧
      u.k = x.k.toNat + 1 ∧ u.n = x.n.toNat + 1 ∧
      u.psum = beatP ((s.blk.courier n.toNat).itFmt.getD x.fmt.toNat 0xF) (x.k.toNat + 1) x.kseg.toNat 0 x.data.toNat x.scale.toNat % M13 ∧
      Frame [.couriers] s.blk t.blk) ∧
  (∀ (s : State) (n : BitVec 4) (x : IntakeBeat) u, s.released → (s.blk.courier n.toNat).tapsOn = true → x.first = false → x.last = true →
    (s.blk.courier n.toNat).itTile = some u → u.beats + 1 = tileBeats u.k u.n → u.wide = false → tcnt u.cols x.kseg.toNat < u.n →
    x.kseg.toNat < ceilDiv u.k 32 →
    ∃ t, exec (.intakeBeat n x) s = .next t ∧ (t.blk.courier n.toNat).itTile = none ∧ (t.blk.courier n.toNat).itStampTid = u.tid ∧
      (t.blk.courier n.toNat).itPulses = (s.blk.courier n.toNat).itPulses + 1 ∧
      (t.blk.courier n.toNat).itStamp = BitVec.ofNat 32 (stampOf ((u.psum + beatP ((s.blk.courier n.toNat).itFmt.getD u.fmt 0xF) u.k x.kseg.toNat
        (tcnt u.cols x.kseg.toNat) x.data.toNat x.scale.toNat) % M13) (u.beats + 1) u.tid.toNat u.k u.n u.fmt) ∧ Frame [.couriers] s.blk t.blk) ∧
  (∀ (s : State) (n : BitVec 4) (x : EgressBeat), s.released → (s.blk.courier n.toNat).tapsOn = true → x.first = true →
    (s.blk.courier n.toNat).groups.find? (fun g => g.grp = x.grp.toNat) = none → (s.blk.courier n.toNat).groups.length < 64 →
    ∃ t, exec (.egressInputBeat n x) s = .next t ∧ (t.blk.courier n.toNat).groups = (s.blk.courier n.toNat).groups ++
        [{ grp := x.grp.toNat, step := some x.step.toNat, inExp := some x.lsbExp, inSum := egressFold x.lv x.data x.lsbExp % M13, inEnd := x.last }] ∧
      Frame [.couriers] s.blk t.blk) ∧
  (∀ (s : State) (n : BitVec 4) (x : EgressBeat), s.released → (s.blk.courier n.toNat).tapsOn = true → x.first = true →
    (s.blk.courier n.toNat).groups.find? (fun g => g.grp = x.grp.toNat) = none → (s.blk.courier n.toNat).groups.length < 64 →
    ∃ t, exec (.egressOutputBeat n x) s = .next t ∧ (t.blk.courier n.toNat).groups = (s.blk.courier n.toNat).groups ++
        [{ grp := x.grp.toNat, outExp := some x.lsbExp, outSum := egressFold x.lv x.data x.lsbExp % M13, outEnd := x.last }] ∧
      Frame [.couriers] s.blk t.blk) ∧
  (∀ (s : State) (n : BitVec 4) (step : BitVec 32), s.released → (s.blk.courier n.toNat).tapsOn = true →
    exec (.egressStepEnd n step) s = .next (s.after (unicast (unitEgress n.toNat) unitHO 0x14 [summaryFlit (stepEnd step.toNat (s.blk.courier n.toNat)).1]
      (s.blk.setCourier n.toNat (stepEnd step.toNat (s.blk.courier n.toNat)).2)))) ∧
  (∀ (s : State) x r, s.released → s.blk.ho.job.due = x :: r → s.blk.svc.state ≠ .safe → s.blk.hoRuns = true →
    exec .frankPresent s = .next (s.after (forEach (List.range 16) (frankDue x) (advTo x.pm.toNat (s.blk.modJob (fun j => { j with due := r })))))) ∧
  (∀ (s : State) (n : BitVec 4), s.released → (s.blk.courier n.toNat).frVld = true → s.blk.franksHeld = false → s.blk.svc.state ≠ .safe →
    exec (.frankAccept n) s = .next { s with blk := s.blk.setCourier n.toNat { s.blk.courier n.toNat with
      notices := (s.blk.courier n.toNat).notices.drop 1, frVld := !((s.blk.courier n.toNat).notices.drop 1).isEmpty } }) ∧
  (∀ (s : State) (n : BitVec 4) x l, s.released → (s.blk.courier n.toNat).frVld = true → s.blk.svc.state = .safe →
    (s.blk.courier n.toNat).notices.drop 1 = x :: l → x.frank = true →
    exec (.frankAccept n) s = .next { s with blk := s.blk.setCourier n.toNat { s.blk.courier n.toNat with notices := x :: l, frVld := false } })
/-- R103 to R109, R318, R319, R323: a Courier port's link, transfers, message lane and transit slots. -/
def Obligations.CourierPortCommands : Prop :=
  (∀ (s : State) (n : BitVec 4), s.released → (s.blk.courier n.toNat).en = false →
    exec (.crLinkUp n) s = .next { s with blk := s.blk.modCourier n.toNat (fun c => { c with linkUp := true }) }) ∧
  (∀ (s : State) (n : BitVec 4), s.released → (s.blk.courier n.toNat).powered = true → (s.blk.courier n.toNat).domFail = false →
    (s.blk.courier n.toNat).en = true →
    exec (.crLinkUp n) s = .next (s.after (startPort n.toNat (s.blk.modCourier n.toNat (fun c => { c with linkUp := true }))))) ∧
  (∀ (s : State) (n : BitVec 4), s.released → (s.blk.courier n.toNat).en = true →
    exec (.crLinkDown n) s = .next (s.after (portStop n.toNat (s.blk.modCourier n.toNat (fun c => { c with linkUp := false }))))) ∧
  (∀ (s : State) (n : BitVec 4) (id : BitVec 10) (resp : BitVec 2) x, s.released → s.blk.portUp n.toNat = true →
    (s.blk.courier n.toNat).xfers.find? (fun x => decide (x.id = id.toNat) && x.write) = some x →
    exec (.crWriteResponse n id resp) s = .next (s.after (xferEnd n.toNat x resp.toNat s.blk))) ∧
  (∀ (s : State) (n : BitVec 4) (id : BitVec 10) data (par : BitVec 64) resp x, s.released → s.blk.portUp n.toNat = true →
    (s.blk.courier n.toNat).xfers.find? (fun x => decide (x.id = id.toNat) && !x.write) = some x →
    laneParityBad 64 (BitVec.toNat (w := 2048) data) par.toNat = false →
    exec (.crReadBeat n id data par false resp) s = .next { s with blk := s.blk.modCourier n.toNat (fun c => { c with
      xfers := c.xfers.map (fun (z : Xfer) => if z.id = id.toNat then { x with got := x.got + 1, data := x.data ++ [data] } else z) }) }) ∧
  (∀ (s : State) (n vc : BitVec 4) f r, s.released → s.blk.portUp n.toNat = true → vc.toNat < 10 →
    0 < lnat (s.blk.courier n.toNat).credits vc.toNat → (tget (s.blk.courier n.toNat).txq vc.toNat).getD [] = f :: r →
    exec (.crFlitTransmit n vc) s = .next { s with blk := s.blk.modCourier n.toNat (fun c => { c with
      mt := some (vc.toNat, f), txq := tset c.txq vc.toNat r, credits := lset c.credits vc.toNat (lnat c.credits vc.toNat - 1) }) }) ∧
  (∀ (s : State) (n vc : BitVec 4), s.released → s.blk.portUp n.toNat = true → vc.toNat < 10 →
    exec (.crCreditReturn n vc) s = .next { s with blk := s.blk.modCourier n.toNat (fun c => { c with
      credits := lset c.credits vc.toNat (lnat c.credits vc.toNat + 1) }) }) ∧
  (∀ (s : State) (n vc : BitVec 4) f, s.released → s.blk.portUp n.toNat = true → vc.toNat < 10 → 0 < lnat (s.blk.courier n.toNat).hostCr vc.toNat →
    laneParityBad 16 (BitVec.toNat (w := 512) f.data) (BitVec.toNat (w := 16) f.par) = false →
    exec (.crFlitReceive n vc f) s = .next { s with blk := s.blk.modCourier n.toNat (fun c => { c with
      hostCr := lset c.hostCr vc.toNat (lnat c.hostCr vc.toNat - 1), rxq := tset c.rxq vc.toNat ((tget c.rxq vc.toNat).getD [] ++ [f]) }) }) ∧
  (∀ (s : State) (n vc : BitVec 4) fs hdr pl fcrc b, s.released → s.blk.portUp n.toNat = true → vc.toNat < 10 →
    firstPacket ((tget (s.blk.courier n.toNat).rxq vc.toNat).getD []) = some fs → unpackFleet fs = .good hdr pl fcrc →
    fleetOnward n.toNat vc.toNat hdr pl fcrc s.blk = some b →
    exec (.fleetPacketReceive n vc) s = .next (s.after (drainRx n.toNat vc.toNat fs.length b))) ∧
  (∀ (s : State) (n : BitVec 4), s.released → (s.blk.courier n.toNat).tapsOn = true → s.blk.hoRuns = true →
    exec (.transitSlotReport n) s = .next (s.after (reportDlv n.toNat
      (forEach (dedup ((s.blk.courier n.toNat).transit.map (fun t => t.1 % 16))) (reportTo n.toNat) s.blk)))) ∧
  (∀ (s : State) (n : BitVec 4), s.released → (s.blk.courier n.toNat).tapsOn = true → s.blk.hoRuns = false →
    exec (.transitSlotReport n) s = .next (s.after
      (forEach (dedup ((s.blk.courier n.toNat).transit.map (fun t => t.1 % 16))) (reportTo n.toNat) s.blk))) ∧
  (∀ (s : State) (n vc : BitVec 4) (src : BitVec 5), s.released → vc.toNat < 10 → src.toNat < 16 →
    (s.blk.slotAt n.toNat vc.toNat src.toNat).sent ≠ (s.blk.slotAt n.toNat vc.toNat src.toNat).arrived →
    ∃ t, exec (.transitLost n vc src) s = .next t ∧ t.pending = s.pending ∧ (t.blk.slotAt n.toNat vc.toNat src.toNat).sent = (s.blk.slotAt n.toNat vc.toNat src.toNat).arrived ∧
      tcnt t.blk.ho.fleet.drops 2 = tcnt s.blk.ho.fleet.drops 2 + 1)

/-- R30, R87 to R90, R116 to R122, R144, R256, R357, R360, R361, R442, R482: host handshakes of resets and shutdown,
failures that end in SAFE, supplies and identifiers. -/
def Obligations.ResetAndSupplyCommands : Prop :=
  (∀ (s : State) k, s.released → s.blk.arch.step = some k → k ≠ 0 → k < 3 →
    exec (.archiveDone 0) s = .next { s with blk := persistNext (k + 1) ledgerPages s.blk }) ∧
  (∀ (s : State), s.released → s.blk.arch.step = some 3 → exec (.archiveDone 0) s = .next (s.after (persistDone s.blk))) ∧
  (∀ (s : State) k (status : BitVec 2), s.released → s.blk.arch.step = some k → status ≠ 0 →
    exec (.archiveDone status) s = .next (s.after (coldProgress { s.blk with
      arch := { s.blk.arch with step := none, errors := s.blk.arch.errors + 1 }
      outs := { s.blk.outs with arCmd := none } }))) ∧
  (∀ (s : State), s.released → s.blk.env.shdnReq = false → s.blk.inJob = false →
    exec .shutdownRequest s = .next (s.after (startPersist (abandonCapture (hoEvent evShutdownReq []
      ((setIrqMisc 3 (s.blk.modEnv (fun e => { e with shdnReq := true }))).modSvc (fun v => { v with shutting := true }))))))) ∧
  (∀ (s : State), s.released → s.blk.svc.hoOn = true → exec .lockstepDisagree s = .next (s.after (enterSafe 2 s.blk))) ∧
  (∀ (s : State), s.released → s.blk.svc.hoOn = true → exec .refLost s = .next (s.after (enterSafe 4 s.blk))) ∧
  (∀ (s : State) (core : CoreIdx), s.released → (s.blk.core core.toNat).porN = true →
    exec (.sramUncorrectable (.letterbox core)) s = .next (s.after (failLetterbox core.toNat s.blk))) ∧
  (∀ (s : State) (r : RegionIdx) (m : BitVec 1), s.released → (s.blk.office r.toNat).powered = true →
    exec (.sramUncorrectable (.office r m)) s = .next (s.after (failMember r.toNat (decide (m = 1)) s.blk))) ∧
  (∀ (s : State), s.released → s.blk.svc.hoOn = true → exec (.sramUncorrectable .headOffice) s = .next (s.after (enterSafe 2 s.blk))) ∧
  (∀ (s : State) (n : BitVec 4) (id : BitVec 10) x, s.released → (s.blk.courier n.toNat).xfers.find? (fun x => x.id = id.toNat) = some x →
    exec (.sramUncorrectable (.courier n id)) s = .next (s.after (xferEnd n.toNat x 1 s.blk))) ∧
  (∀ (s : State), s.released → s.blk.dbg.trace ≠ [] →
    ∃ t, exec (.sramUncorrectable .trace) s = .next t ∧ t.blk.dbg.trace.length + 1 = s.blk.dbg.trace.length ∧ Frame [.dbg, .free] s.blk t.blk) ∧
  (∀ (s : State), s.released → s.blk.outs.coldReq = false → s.blk.outs.warmReq = true →
    exec .hostDone s = .next { s with blk := (s.blk.modOuts (fun o => { o with warmReq := false })).modSvc (fun v => { v with hostDone := true }) }) ∧
  (∀ (s : State), s.released → s.blk.outs.coldReq = true →
    exec .hostDone s = .next { s with blk := (s.blk.modOuts (fun o => { o with coldReq := false })).modSvc (fun v => { v with hostDone := true }) }) ∧
  (∀ (s : State), s.released → s.blk.outs.coldReq = false → s.blk.outs.warmReq = false →
    exec .hostDone s = .next (s.after (hoEvent evSpuriousDone [] (s.blk.modDebug (fun d => { d with spurious := d.spurious + 1 }))))) ∧
  (∀ (s : State), s.released → exec .externalResetRequest s = .next (s.after (startCold 5 s.blk))) ∧
  (∀ (s : State), s.released → s.blk.outs.warmReq = true →
    exec .hostWarmTimeout s = .next (s.after (startCold 3 (hoEvent evHostWarmTimeout [] (advTo s.blk.svc.resetDue s.blk))))) ∧
  (∀ (s : State), s.released → s.blk.outs.coldReq = true → s.blk.svc.state = .safe →
    exec .hostColdTimeout s = .next (s.after (hoEvent evHostColdTimeout [] ((advTo s.blk.svc.resetDue s.blk).modOuts
      (fun o => { o with coldReq := false }))))) ∧
  (∀ (s : State), s.released → s.blk.outs.coldReq = true → s.blk.svc.state ≠ .safe →
    exec .hostColdTimeout s = .next (s.after (enterOOS ((hoEvent evHostColdTimeout [] ((advTo s.blk.svc.resetDue s.blk).modOuts
      (fun o => { o with coldReq := false }))).modSvc (fun v => { v with reset := 0 }))))) ∧
  (∀ (s : State), s.released → s.blk.ho.resets.inWindow ≠ 0 →
    ∃ t, exec .resetWindowExpiry s = .next t ∧ t.blk.ho.resets.inWindow = (advTo s.blk.rstExpiry s.blk).recordsIn s.blk.ho.resets.warmAt ∧
      t.blk.ho.resets.warmAt = s.blk.ho.resets.warmAt) ∧
  (∀ (s : State) legs, s.released → s.blk.svc.pmOk = true →
    exec (.legRemeasure legs) s = .next (s.after (applyLegs (forEach legs remeasure s.blk)))) ∧
  (∀ (s : State) (feed loop : BitVec 16) (rack : BitVec 24), s.released → s.blk.env.idVld = false →
    ∃ t, exec (.powerIdValid true feed loop rack) s = .next t ∧ t.blk.svc.feed = feed ∧ t.blk.svc.loop = loop ∧ t.blk.svc.rack = rack ∧
      t.blk.env.idVld = true ∧ Frame [.env, .svc] s.blk t.blk) ∧
  (∀ (s : State) (r : RegionIdx) (up : Bool), s.released →
    exec (.regionVokFall r up) s = .next (s.after (forEach ((s.blk.units.cores.filter (fun p => decide (regionOf p.1 = r.toNat))).map (·.1)) loseVok
      (s.blk.modEnv (fun e => { e with rgnVok := maskSet e.rgnVok r.toNat up }))))) ∧
  (∀ (s : State) (core : CoreIdx), s.released → (s.blk.core core.toNat).ctl.test = none → (s.blk.core core.toNat).ctl.puStage = 1 →
    s.blk.windowOk core.toNat = false →
    exec (.testWindow core) s = .next (s.after (missWindow core.toNat (modCtl core.toNat (fun x => { x with test := none })
      (s.blk.modOffice (regionOf core.toNat) (fun o => { o with
        running := match o.running with | some x => if x.core = core.toNat then none else some x | none => none }))))))

/-- R86, R126, R136, R137, R454: the sync pulse and the stop pins. -/
def Obligations.SyncAndStopPins : Prop :=
  (∀ (s : State), s.released → s.blk.pm.powered = true → s.blk.pm.state = .armed → (∀ n, (advTo s.blk.edge s.blk).pm.since = some n → 1000 ≤ n) →
    ∃ t, exec (.syncPulse false) s = .next t ∧ t.blk.pm.count = s.blk.pm.loadV ∧ t.blk.pm.syncLatch = s.blk.pm.loadV ∧
      t.blk.pm.state = .loaded ∧ t.blk.pm.baseV = s.blk.pm.loadV.toNat ∧ t.blk.pm.baseP = s.blk.pm.loadP.toNat) ∧
  (∀ (s : State) (long : Bool) n, s.released → s.blk.pm.powered = true → (advTo s.blk.edge s.blk).pm.since = some n → n < 1000 →
    ∃ t, exec (.syncPulse long) s = .next t ∧ t.blk.pm.width = true ∧ t.blk.pm.state = s.blk.pm.state ∧ t.blk.pm.syncLatch = s.blk.pm.syncLatch) ∧
  (∀ (s : State) n, s.released → s.blk.pm.state = .loaded → s.blk.pm.since = some n →
    ∃ t, exec .syncMissing s = .next t ∧ t.blk.pm.missing = true ∧ t.blk.pm.state = .loaded) ∧
  (∀ (s : State), s.released → s.blk.pm.powered = true → s.blk.inForce = false →
    exec (.stopInput false) s = .next (s.after (registerUrgent ((s.blk.modEnv (fun e => { e with stopInN := false })).modStop
      (fun x => { x with latch := true }))))) ∧
  (∀ (s : State), s.released →
    exec (.stopInput true) s = .next (s.after (s.blk.modEnv (fun e => { e with stopInN := true })))) ∧
  (∀ (s : State) t, s.released → s.blk.stop.pulseAt = some t →
    ∃ u, exec .stopOutputPulseEnd s = .next u ∧ u.blk.outs.stopOutN = true ∧ u.blk.stop.pulseAt = none ∧ u.blk.stop.stopped = s.blk.stop.stopped)
/-- R43, R127, R128, R150 to R155, R236, R242, R452 to R459: stops, their release, the launch and the step boundary. -/
def Obligations.StopLaunchAndBoundary : Prop :=
  (∀ (s : State) t, s.released → s.blk.stop.at_ = some t → exec .stopCountReached s = .next (s.after (takeStop t (advTo t s.blk)))) ∧
  (∀ (s : State) t, s.released → s.blk.stop.at_ = none → s.blk.stop.sched = some t → s.blk.stop.stopped = false →
    exec .stopCountReached s = .next (s.after (scheduledStop t s.blk))) ∧
  (∀ (s : State), s.released → s.blk.releasable = true → exec .stopReleased s = .next (s.after (releaseStop s.blk))) ∧
  (∀ (s : State) t, s.released → s.blk.stop.resumeAt = some t →
    ∃ u, exec .resumeCountReached s = .next u ∧ u.blk.stop.stopped = false ∧ u.blk.stop.ownR = none ∧ u.blk.stop.resumeAt = none ∧
      u.pending = s.pending) ∧
  (∀ (s : State) t, s.released → s.blk.stop.ownR = some t → s.blk.stop.resumeAt = none →
    exec .resumeLate s = .next (s.after (originate .stopCtrl (hoEvent evResumeLate [] (advTo (t - 300000) s.blk))))) ∧
  (∀ (s : State) u r, s.released → s.blk.ho.job.armed = true → s.blk.ho.job.unarmed = u :: r →
    exec .launchArmDeadline s = .next (s.after (clearCause .launchAbort (originate .launchAbort (advTo (s.blk.ho.job.launchAt - 200000) s.blk))))) ∧
  (∀ (s : State), s.released → s.blk.ho.job.armed = true → s.blk.inForce = false → s.blk.ho.job.unarmed = [] → s.blk.stop.sched = none →
    exec .launchCountReached s = .next (s.after (doLaunch s.blk))) ∧
  (∀ (s : State), s.released → s.blk.ho.job.armed = true → s.blk.inForce = true →
    exec .launchCountReached s = .next (s.after (abortLaunch (advTo s.blk.ho.job.launchAt s.blk)))) ∧
  (∀ (s : State), s.released → s.blk.ho.job.launched = true → s.blk.stop.stopped = false → s.blk.ho.job.decided = true →
    s.blk.ho.job.fills.filter (fun f => decide (f.phase < 5)) = [] → s.blk.ho.parcel.voting = false → s.blk.stop.at_ = none →
    s.blk.beforeSlot s.blk.stop.sched = false → s.blk.ho.job.stopNext = true →
    exec .stepBoundary s = .next (s.after (scheduledStop s.blk.nextSlot s.blk))) ∧
  (∀ (s : State), s.released → s.blk.ho.job.launched = true → s.blk.stop.stopped = false → s.blk.ho.job.decided = true →
    s.blk.ho.job.fills.filter (fun f => decide (f.phase < 5)) = [] → s.blk.ho.parcel.voting = false → s.blk.stop.at_ = none →
    s.blk.beforeSlot s.blk.stop.sched = false → s.blk.ho.job.stopNext = false → s.blk.beforeSlot s.blk.ho.parcel.stopAt = false →
    exec .stepBoundary s = .next (s.after (openSlot s.blk.nextSlot (if s.blk.ho.job.withheld = 0 then s.blk.ho.job.step + 1 else s.blk.ho.job.step)
      s.blk.ho.job.withheld (s.blk.ho.job.slotIx + 1) (advTo s.blk.nextSlot s.blk)))) ∧
  (∀ (b : Block) (t step replay ix : Nat), (openSlot t step replay ix b).ho.job.step = step ∧ (openSlot t step replay ix b).ho.job.slotAt = t ∧
    (openSlot t step replay ix b).ho.job.inSlot = true ∧ (openSlot t step replay ix b).ho.job.decided = false ∧
    (openSlot t step replay ix b).ho.job.replay = replay ∧ (openSlot t step replay ix b).ho.job.recs = [])

/-- R13, R16, R110, R429, R432, R433, R438, R439, R441, R445, R447: writes and reads through the management port. -/
def Obligations.ManagementPortCommands : Prop :=
  (∀ (s : State) (o : BitVec 16) (v : BitVec 32), s.released → s.blk.svc.hoOn = true → s.blk.svc.state ≠ .booting → mapped o.toNat = true →
    0x4000 ≤ o.toNat → o.toNat < 0x6800 →
    exec (.registerWrite o v) s = .next { s with blk := { respond 0 0 s.blk with
      letters := memWrites s.blk.letters (8192 * ((o.toNat - 0x4000) / 256) + 256 * (s.blk.ring ((o.toNat - 0x4000) / 256)).ltrTail + o.toNat % 256)
        (le 4 v.toNat) } }) ∧
  (∀ (s : State) (o : BitVec 16) (v : BitVec 32), s.released → s.blk.svc.hoOn = true → mapped o.toNat = false →
    exec (.registerWrite o v) s = .next { s with blk := respond 0 1 (recordErr o.toNat 6 s.blk) }) ∧
  (∀ (s : State) (v : BitVec 32), s.released → s.blk.svc.hoOn = true → s.blk.svc.state ≠ .booting →
    exec (.registerWrite 0x800 v) s = .next { s with blk := respond 0 0 (s.blk.modMgmt (fun m => { m with
      err := w1c m.err v.toNat, errVld := m.errVld && decide (w1c m.err v.toNat ≠ 0) })) }) ∧
  (∀ (s : State), s.released →
    exec .managementPortReset s = .next { s with blk := s.blk.modOuts (fun o => { o with rspData := 0, rspErr := 0 }) }) ∧
  (∀ (s : State) (r : BitVec 6), s.released → s.blk.svc.hoOn = true → s.blk.svc.state ≠ .booting → mapped (0x1004 + 16 * r.toNat) = true →
    ((s.blk.ring r.toNat).ltrTail + 1) % 32 ≠ (s.blk.ring r.toNat).ltrHead →
    exec (.ringDoorbell r 1) s = .next (s.after (respond 0 0 (pump r.toNat 32 (s.blk.modRing r.toNat (fun x => { x with
      ltrTail := (x.ltrTail + 1) % 32 })))))) ∧
  (∀ (s : State) (r : BitVec 6), s.released → s.blk.svc.hoOn = true → s.blk.svc.state ≠ .booting → mapped (0x1004 + 16 * r.toNat) = true →
    ((s.blk.ring r.toNat).ltrTail + 1) % 32 = (s.blk.ring r.toNat).ltrHead →
    exec (.ringDoorbell r 1) s = .next (s.after (respond 0 0 (hoEvent evRingOverrun [] (recordErr (0x1004 + 16 * r.toNat) 2 s.blk))))) ∧
  (∀ (s : State) (r : BitVec 6) x xs, s.released → s.blk.svc.hoOn = true → s.blk.svc.state ≠ .booting → 56 ≤ r.toNat →
    (s.blk.ring r.toNat).recs = x :: xs →
    exec (.ringPop r 0x80000000) s = .next { s with blk := respond 0 0 (s.blk.modRing r.toNat (fun x => { x with
      recs := xs, rcpHead := (x.rcpHead + 1) % ringSize r.toNat })) }) ∧
  (∀ (s : State) (r : BitVec 6) x xs, s.released → s.blk.svc.hoOn = true → s.blk.svc.state ≠ .booting → r.toNat < 40 →
    (s.blk.ring r.toNat).recs = x :: xs →
    exec (.ringPop r 0x80000000) s = .next (s.after (respond 0 0 (drainHeld r.toNat (s.blk.modRing r.toNat (fun x => { x with
      recs := xs, rcpHead := (x.rcpHead + 1) % ringSize r.toNat })))))) ∧
  (∀ (s : State), s.released → s.blk.svc.hoOn = true →
    ∃ t, exec .pmCountRead s = .next t ∧ (t.blk.pm.cap = BitVec.ofNat 64 s.blk.now ∨ t.blk.pm.cap = BitVec.ofNat 64 (s.blk.now - 1)) ∧
      t.blk.outs.rspData = BitVec.ofNat 32 (lo32 t.blk.pm.cap.toNat) ∧ t.blk.outs.rspErr = 0 ∧ t.blk.outs.rsps = s.blk.outs.rsps + 1 ∧
      Frame [.outs, .pm, .free] s.blk t.blk) ∧
  (∀ (s : State), s.released → s.blk.svc.hoOn = true →
    ∃ t, exec (.pmLatchCapture 1) s = .next t ∧ (t.blk.pm.latch = BitVec.ofNat 64 s.blk.now ∨ t.blk.pm.latch = BitVec.ofNat 64 (s.blk.now - 1)) ∧
      t.blk.pm.cap = s.blk.pm.cap ∧ Frame [.outs, .pm, .free] s.blk t.blk) ∧
  (∀ (s : State), s.released → s.blk.svc.hoOn = true → s.blk.svc.state ≠ .booting →
    exec (.stopCtrlUrgent 1) s = .next (s.after (respond 0 0 (originate .stopCtrl s.blk)))) ∧
  (∀ (s : State) (v : BitVec 32), s.released → s.blk.svc.hoOn = true → s.blk.svc.state ≠ .booting → rsvCauses 0x700 v.toNat = [] →
    s.blk.capturing = false →
    exec (.crEnableWrite v) s = .next (s.after (respond 0 0 (forEach (List.range 16) (fun n b =>
      if (bit v.toNat n && !(b.courier n).portFail && !(b.courier n).domFail) = (b.courier n).en then b
      else if (bit v.toNat n && !(b.courier n).portFail && !(b.courier n).domFail) = true then enablePort n b else disablePort n b) s.blk)))) ∧
  (∀ (s : State) (v : BitVec 32), s.released → s.blk.svc.hoOn = true → s.blk.svc.state ≠ .booting → rsvCauses 0x700 v.toNat = [] →
    s.blk.capturing = true →
    exec (.crEnableWrite v) s = .next { s with blk := respond 0 0 (recordErr 0x700 4 s.blk) })
/-- R124, R125, R129, R131, R274, R449, R450, R466, R469, R471: keys, the key window and the test access port. -/
def Obligations.KeyAndTapCommands : Prop :=
  (∀ (s : State) (k : BitVec 2), s.released → s.blk.svc.hoOn = true → s.blk.svc.state ≠ .booting → s.blk.keysOpen = true → s.blk.keys.locked = false →
    s.blk.keys.win = none → s.blk.keys.port = none →
    exec (.keyLoadBegin (BitVec.ofNat 32 (0x100 + k.toNat))) s = .next { s with blk := respond 0 0 (s.blk.modKeys (fun x => { x with
      win := some (k.toNat, []), winSlot := k })) }) ∧
  (∀ (s : State), s.released → s.blk.svc.hoOn = true → s.blk.svc.state ≠ .booting → s.blk.keysOpen = true → s.blk.keys.locked = false →
    s.blk.keys.win = none →
    exec (.keyWindowLock 0x10000) s = .next { s with blk := respond 0 0 (s.blk.modKeys (fun x => { x with locked := true })) }) ∧
  (∀ (s : State), s.released → s.blk.svc.hoOn = true → s.blk.svc.state ≠ .booting →
    ∃ t, exec (.keyWindowZeroize 0x1000000) s = .next t ∧ t.blk.keys.slots = [0, 0, 0, 0] ∧ t.blk.keys.win = none ∧ t.blk.keys.port = none ∧
      t.blk.outs.keysZero = true ∧ t.blk.ledger.senders = [] ∧ t.blk.ho.mail.sessions = [] ∧ t.blk.keys.locked = s.blk.keys.locked) ∧
  (∀ (s : State) (w : BitVec 32) k ws, s.released → s.blk.svc.hoOn = true → s.blk.svc.state ≠ .booting → s.blk.keysOpen = true →
    s.blk.keys.locked = false → s.blk.keys.win = some (k, ws) → ws.length = 11 →
    ∃ t, exec (.keyDataWrite w) s = .next t ∧ t.blk.keys.slots = lset s.blk.keys.slots k (keyOf (ws ++ [w])) ∧ t.blk.keys.win = none ∧
      t.blk.keys.lastOk = true ∧ t.blk.keys.lastErr = false) ∧
  (∀ (s : State) (w : BitVec 32) k ws, s.released → s.blk.svc.hoOn = true → s.blk.svc.state ≠ .booting → s.blk.keysOpen = true →
    s.blk.keys.locked = false → s.blk.keys.win = some (k, ws) → ws.length ≠ 11 →
    exec (.keyDataWrite w) s = .next { s with blk := respond 0 0 (s.blk.modKeys (fun x => { x with win := some (k, ws ++ [w]) })) }) ∧
  (∀ (s : State) (w : BitVec 32), s.released → s.blk.svc.hoOn = true → s.blk.svc.state ≠ .booting → s.blk.keys.locked = true →
    exec (.keyDataWrite w) s = .next { s with blk := respond 0 2 (recordErr 0xA04 7 s.blk) }) ∧
  (∀ (s : State) (k : BitVec 2) (w : BitVec 32), s.released → s.blk.keysOpen = true → s.blk.keys.port = none → s.blk.keys.win = none →
    exec (.keyPortWord k w false) s = .next { s with blk := s.blk.modKeys (fun x => { x with port := some (k.toNat, [w]) }) }) ∧
  (∀ (s : State) (k : BitVec 2) (w : BitVec 32) ws, s.released → s.blk.keysOpen = true → s.blk.keys.port = some (k.toNat, ws) → s.blk.keys.win = none →
    ws.length = 11 →
    ∃ t, exec (.keyPortWord k w true) s = .next t ∧ t.blk.keys.slots = lset s.blk.keys.slots k.toNat (keyOf (ws ++ [w])) ∧ t.blk.keys.port = none ∧
      t.blk.outs.keyErr = s.blk.outs.keyErr) ∧
  (∀ (s : State), s.released →
    ∃ t, exec .zeroizeRequest s = .next t ∧ t.blk.keys.slots = [0, 0, 0, 0] ∧ t.blk.keys.win = none ∧ t.blk.keys.port = none ∧
      t.blk.outs.keysZero = true ∧ t.blk.outs.zeroDone = s.blk.outs.zeroDone + 1 ∧ t.blk.ledger.senders = [] ∧ t.blk.ho.mail.sessions = []) ∧
  (∀ (s : State), s.released → s.blk.tapOn = true →
    exec .tapReset s = .next { s with blk := s.blk.modDebug (fun d => { d with tap := .testLogicReset, tdoEn := false, tdo := false, tapIr := 0x01 }) }) ∧
  (∀ (s : State), s.released → s.blk.tapOn = false → exec .tapReset s = .next s ∧ exec .ijtagAccessSelect s = .next s) ∧
  (∀ (s : State), s.released → s.blk.tapOn = true → s.blk.dbg.netDue = false → s.blk.svc.lc ≠ .manufacture → s.blk.svc.lc ≠ .rma →
    ∃ t, exec .ijtagAccessSelect s = .next t ∧ t.blk.dbg.tapIr = 0x21 ∧ t.blk.dbg.tap = .runTestIdle ∧ t.blk.dbg.netOpen = s.blk.dbg.netOpen ∧
      Frame [.dbg] s.blk t.blk) ∧
  (∀ (b : Block), b.dbg.netOpen = false → b.dbg.tapIr = 0x21 → b.tapDr = [false]) ∧
  (∀ (s : State), s.released → s.blk.tapOn = true → s.blk.svc.lc = .manufacture ∨ s.blk.svc.lc = .rma → s.blk.dbg.netOpen = false →
    ∃ t, exec .ijtagAccessSelect s = .next t ∧ t.blk.dbg.netOpen = true ∧ t.blk.dbg.tapIr = 0x21 ∧ t.blk.keys.slots = [0, 0, 0, 0] ∧
      t.blk.ledger.openings = s.blk.ledger.openings ++ [s.blk.now]) ∧
  (∀ (s : State) (r : RegionIdx), s.released → s.blk.tapOn = true → s.blk.dbg.netOpen = true → s.blk.dbg.sibs.contains (.rg r) = false →
    exec (.sibOpen (.rg r)) s = .next { s with blk := s.blk.modDebug (fun d => { d with sibs := d.sibs ++ [.rg r] }) }) ∧
  (∀ (s : State), s.released → s.blk.tapOn = true → s.blk.dbg.netOpen = true → s.blk.dbg.sibs.contains .ho = false → s.blk.svc.hoOn = true →
    exec (.sibOpen .ho) s = .next (s.after (enterSafe 2 (s.blk.modDebug (fun d => { d with sibs := d.sibs ++ [.ho] }))))) ∧
  (∀ (s : State) (core : CoreIdx) (load : Bool) beat (last : Bool), s.released → s.blk.tapOn = true → s.blk.dbg.netOpen = true → s.blk.dbg.sibs.contains (.cap core) = true →
    s.blk.dbg.sibs.contains (.ls core) = false → (s.blk.core core.toNat).lbOn = true → (s.blk.core core.toNat).ctl.stopGated = true →
    (s.blk.core core.toNat).ctl.cap = none → (s.blk.core core.toNat).ctl.test = none →
    exec (.coreCapUpdate core load beat last) s = .next { s with blk := s.blk.modCore core.toNat (capMove load beat last s.blk.csLen) })

/-- R98, R203, R219, R225 to R228, R351, R461: what Offices and the Head Office file, and the step decision. -/
def Obligations.StepVerdictCommands : Prop :=
  (∀ (s : State) (r : RegionIdx) (c : BitVec 7) p b, s.released → s.blk.officeOn r.toNat = true →
    takeEvq r.toNat c.toNat (fun p => decide (hSvc p.hdr = 0x01) && !isSummary (s.blk.office r.toNat).st.step (p.pl.headD 0)) s.blk = some (p, b) →
    exec (.officeVerdictReceive r c) s =
      .next (s.after (if b.deadPkt p then deadLetter 20 b else fileVerdict r.toNat (pathUnit (hSrc p.hdr)) (p.pl.headD 0).toNat b))) ∧
  (∀ (s : State) (r : RegionIdx) (c : BitVec 7) p b, s.released → s.blk.officeWorks r.toNat = true →
    takeEvq r.toNat c.toNat (fun p => decide (hSvc p.hdr = 0x01) && isSummary (s.blk.office r.toNat).st.step (p.pl.headD 0)) s.blk = some (p, b) →
    (b.office r.toNat).st.sent = false → b.unverdicted (pathUnit (hSrc p.hdr)) = false → fld (p.pl.headD 0).toNat 56 2 = 0 →
    ∃ t, exec (.coreSummaryReceive r c) s = .next t ∧
      ((tget (t.blk.office r.toNat).st.roles (pathUnit (hSrc p.hdr))).getD {}).summary = some (fld (p.pl.headD 0).toNat 32 24, 0) ∧ t.pending = s.pending) ∧
  (∀ (s : State) (r : RegionIdx) (c : BitVec 7) p b, s.released → s.blk.officeWorks r.toNat = true →
    takeEvq r.toNat c.toNat (fun p => decide (hSvc p.hdr = 0x08)) s.blk = some (p, b) →
    exec (.stallEventReceive r c) s = .next (s.after (unicast (unitOffice r.toNat) unitHO 0x08 p.pl b))) ∧
  (∀ (s : State), s.released → s.blk.undecided = true → s.blk.ho.job.graphed = false → s.blk.tEndHeld = false → s.blk.ho.job.stalls = [] →
    ∃ t, exec .waitGraphBuild s = .next t ∧ t.blk.ho.job = { s.blk.ho.job with graphed := true, hangs := 0 } ∧ t.pending = s.pending) ∧
  (∀ (s : State) (r : RegionIdx), s.released → s.blk.officeWorks r.toNat = true → (s.blk.office r.toNat).st.sent = false → s.blk.ho.job.decided = false →
    s.blk.tEndHeld = false → s.blk.ho.job.graphed = true →
    exec (.regionVerdictDeadline r) s = .next (s.after (formRecord r.toNat s.blk))) ∧
  (∀ (s : State) p b, s.released → s.blk.hoRuns = true → takeHo 0x10 s.blk = some (p, b) → e2eBad p = none → b.deadPkt p = false → b.undecided = true →
    fld (p.pl.getD 0 0).toNat 0 32 = b.ho.job.step →
    ∃ t x, exec .regionRecordReceive s = .next t ∧ t.blk.ho.job.recs = b.ho.job.recs.filter (fun y => y.region ≠ x.region) ++ [x] ∧
      x.region = unitIndex (pathUnit (hSrc p.hdr)) ∧ x.step = fld (p.pl.getD 0 0).toNat 0 32 ∧
      x.reasons = BitVec.ofNat 32 (fld (p.pl.getD 0 0).toNat 32 32) ∧ x.digestSum = BitVec.ofNat 32 (fld (p.pl.getD 0 0).toNat 64 32) ∧
      x.tileCount = fld (p.pl.getD 0 0).toNat 96 32 ∧ x.mismatch = fld (p.pl.getD 1 0).toNat 0 24 ∧ x.unchk = fld (p.pl.getD 1 0).toNat 24 24 ∧
      x.suspects = fld (p.pl.getD 1 0).toNat 48 16) ∧
  (∀ (s : State) p b, s.released → s.blk.hoRuns = true → takeHo 0x14 s.blk = some (p, b) → e2eBad p = none → b.deadPkt p = false → b.undecided = true →
    fld (p.pl.getD 0 0).toNat 0 32 = b.ho.job.step →
    ∃ t, exec .egressSummaryReceive s = .next t ∧
      t.blk.ho.job.egress = b.ho.job.egress.filter (fun y => y.n ≠ unitIndex (pathUnit (hSrc p.hdr))) ++
        [⟨unitIndex (pathUnit (hSrc p.hdr)), fld (p.pl.getD 0 0).toNat 0 32, bit (p.pl.getD 0 0).toNat 96⟩]) ∧
  (∀ (s : State), s.released → s.blk.undecided = true → s.blk.tEndHeld = false →
    (forEach s.blk.popRegions regionVerdict s.blk).undecided = true →
    ∃ t, exec .stepDecision s = .next t ∧ t.blk.ho.job.decided = true ∧ t.blk.ho.job.step = (forEach s.blk.popRegions regionVerdict s.blk).ho.job.step ∧
      t.blk.ledger.stepDecided = t.blk.ho.job.step ∧ (t.blk.ho.job.lastMask = 0 → t.blk.ledger.stepFranked = t.blk.ho.job.step ∧ t.blk.ho.job.withheld = 0) ∧
      (t.blk.ho.job.lastMask ≠ 0 → t.blk.ho.job.withheld = t.blk.ho.job.replay + 1))
/-- R192 to R199, R237 to R245: fills of spares and the Dice. -/
def Obligations.FillAndDiceCommands : Prop :=
  (∀ (s : State) (r : RegionIdx), s.released → s.blk.officeWorks r.toNat = true → s.blk.ho.job.decided = true → s.blk.ho.job.withheld ≠ 0 →
    s.blk.ho.job.stopNext = false → (s.blk.office r.toNat).st.named = [] →
    exec (.decisionReceive r) s = .next (s.after (modSt r.toNat (fun x => { x with named := [], received := true }) (advTo (s.blk.tEnd + 17500) s.blk)))) ∧
  (∀ (s : State) (r : RegionIdx) role reason src dst, s.released → s.blk.officeWorks r.toNat = true → s.blk.ho.job.decided = true →
    s.blk.ho.job.withheld ≠ 0 → s.blk.ho.job.stopNext = false → (s.blk.office r.toNat).st.named = [(role, reason)] →
    s.blk.ho.job.fills.any (fun f => decide (f.role = role) && decide (f.phase < 5)) = false → s.blk.coreOf role = some src →
    s.blk.coreState src ≠ .unscreened → s.blk.spareFor src = some dst →
    ∃ t f, exec (.decisionReceive r) s = .next t ∧ t.blk.ho.job.fills = s.blk.ho.job.fills ++ [f] ∧ f.role = role ∧ f.src = src ∧ f.dst = dst ∧ f.phase = 2) ∧
  (∀ (s : State) (r : RegionIdx) (role : BitVec 20) f, s.released →
    s.blk.ho.job.fills.find? (fun f => decide (f.role = role.toNat) && decide (f.phase < 5) && decide (regionOf f.dst = r.toNat)) = some f →
    s.blk.stop.stopped = false → s.blk.officeOn r.toNat = true → f.phase = 2 → s.blk.unitsLeft f.dst .fill = false → (s.blk.core f.src).pins.isoN = false →
    exec (.fillPhaseComplete r role true) s = .next { s with blk := (setPhase role.toNat 3 s.blk).modCore f.src (fun c => c) }) ∧
  (∀ (s : State) (r : RegionIdx) (role : BitVec 20) f, s.released →
    s.blk.ho.job.fills.find? (fun f => decide (f.role = role.toNat) && decide (f.phase < 5) && decide (regionOf f.dst = r.toNat)) = some f →
    s.blk.stop.stopped = false → s.blk.officeOn r.toNat = true → f.phase = 3 → f.image ≠ [] →
    exec (.fillPhaseComplete r role true) s = .next { s with blk := writeContext f (setPhase role.toNat 4 s.blk) }) ∧
  (∀ (s : State) (r : RegionIdx) (role : BitVec 20) f, s.released →
    s.blk.ho.job.fills.find? (fun f => decide (f.role = role.toNat) && decide (f.phase < 5) && decide (regionOf f.dst = r.toNat)) = some f →
    s.blk.stop.stopped = false → s.blk.officeOn r.toNat = true → f.phase = 4 → s.blk.coreState f.dst = .spare → f.loaded = true →
    exec (.fillPhaseComplete r role true) s = .next (s.after (armFill r.toNat f s.blk))) ∧
  (∀ (s : State) (r : RegionIdx) (role : BitVec 20) f, s.released →
    s.blk.ho.job.fills.find? (fun f => decide (f.role = role.toNat) && decide (f.phase < 5) && decide (regionOf f.dst = r.toNat)) = some f →
    s.blk.stop.stopped = false → s.blk.officeOn r.toNat = true →
    exec (.fillPhaseComplete r role false) s = .next (s.after (failFill role.toNat (if f.phase = 3 then evSourceLost else evSpareFailed) s.blk))) ∧
  (∀ (s : State) (r : RegionIdx) (role : BitVec 20) f, s.released →
    s.blk.ho.job.fills.find? (fun f => decide (f.role = role.toNat) && decide (f.phase < 5) && decide (regionOf f.dst = r.toNat)) = some f →
    s.blk.stop.stopped = false →
    exec (.fillTimeout r role) s = .next (s.after (failFill role.toNat evSpareFailed (advTo (f.started + 1000000) s.blk)))) ∧
  (∀ (s : State) (r : RegionIdx) tiles late, s.released → s.blk.officeOn r.toNat = true → (s.blk.office r.toNat).reload = false → s.blk.ho.job.man.isSome = true →
    (s.blk.office r.toNat).st.filled = false → s.blk.ho.job.launched = false →
    ∃ t, exec (.diceFill r tiles late) s = .next t ∧ (t.blk.office r.toNat).st.filled = true ∧ (t.blk.office r.toNat).st.promoteRoles = [] ∧
      (t.blk.office r.toNat).dice.nextStep = s.blk.man.firstStep + 1 ∧ Frame [.dbg, .mgmt, .mail, .post, .cores, .offices, .routers, .couriers] s.blk t.blk)
/-- R24 to R28, R230, R260 to R272, R461: what an Office does beside the step. -/
def Obligations.OfficeDutyCommands : Prop :=
  (∀ (s : State) (r : RegionIdx) u t w, s.released → s.blk.officeOn r.toNat = true → s.blk.unitBusy r.toNat = false → s.blk.nextUnit r.toNat = some (u, t, w) →
    exec (.testUnitPlace r) s = .next (s.after (startUnit r.toNat u ((advTo t s.blk).modOffice r.toNat (fun o => { o with
      testq := o.testq.erase u
      spent := if w = 3 then o.spent else o.spent ++ [(4 * u.core + w, (advTo t s.blk).declLen u.mode u.unit)] }))))) ∧
  (∀ (s : State) (r : RegionIdx) u n, s.released → s.blk.officeOn r.toNat = true → s.blk.unitBusy r.toNat = false → s.blk.nextUnit r.toNat = none →
    (s.blk.office r.toNat).testq = [] → s.blk.ho.policy.spareSweep = true → s.blk.sweepNext r.toNat = some (u, n) →
    exec (.testUnitPlace r) s = .next { s with blk := startUnit r.toNat u (s.blk.modOffice r.toNat (fun o => { o with sweepCore := u.core, sweepUnit := n })) }) ∧
  (∀ (s : State) (r : RegionIdx), s.released → s.blk.officeOn r.toNat = true → (s.blk.office r.toNat).standby.live = true →
    (s.blk.office r.toNat).standby.eligible = true → (s.blk.office r.toNat).standby.testing = false →
    ∃ t, exec (.standbyPeriod r) s = .next t ∧ (t.blk.office r.toNat).standby.testing = true ∧ (t.blk.office r.toNat).standby.eligible = false ∧
      (t.blk.office r.toNat).serving = (s.blk.office r.toNat).serving) ∧
  (∀ (s : State) (r : RegionIdx), s.released → (s.blk.office r.toNat).standby.testing = true →
    ∃ t, exec (.standbyTestDone r true) s = .next t ∧ (t.blk.office r.toNat).standby.testing = false ∧ (t.blk.office r.toNat).standby.copying = true ∧
      Frame [.offices] s.blk t.blk) ∧
  (∀ (s : State) (r : RegionIdx), s.released → (s.blk.office r.toNat).standby.testing = true →
    ∃ t, exec (.standbyTestDone r false) s = .next t ∧ (t.blk.office r.toNat).standby.testing = false ∧ (t.blk.office r.toNat).standby.barred = true ∧
      (t.blk.office r.toNat).standby.eligible = false ∧ Frame [.dbg, .mgmt, .mail, .offices] s.blk t.blk) ∧
  (∀ (s : State) (r : RegionIdx), s.released → (s.blk.office r.toNat).standby.copying = true →
    ∃ t, exec (.standbyCopyDone r) s = .next t ∧ (t.blk.office r.toNat).standby.copying = false ∧ (t.blk.office r.toNat).standby.eligible = true ∧
      (t.blk.office r.toNat).swapWait = true ∧ Frame [.offices] s.blk t.blk) ∧
  (∀ (s : State) (r : RegionIdx), s.released → s.blk.officeOn r.toNat = true → (s.blk.office r.toNat).standby.live = true →
    (s.blk.office r.toNat).standby.eligible = true → s.blk.inJob = false → s.blk.ho.mail.outst = [] →
    ∃ t, exec (.plannedSwap r) s = .next t ∧ (t.blk.office r.toNat).serving = !(s.blk.office r.toNat).serving ∧ (t.blk.office r.toNat).swapWait = false) ∧
  (∀ (s : State) (r : RegionIdx), s.released → s.blk.officeOn r.toNat = true →
    exec (.officePrimaryFail r) s = .next (s.after (failMember r.toNat (s.blk.office r.toNat).serving s.blk))) ∧
  (∀ (s : State) (r : RegionIdx) k, s.released → s.blk.officeWorks r.toNat = true → s.blk.ho.policy.routerRound = true → (s.blk.office r.toNat).st.filled = true →
    (s.blk.office r.toNat).st.rounded = false → s.blk.tEndHeld = false → s.blk.roundRouter r.toNat = some k → s.blk.noneFor r.toNat k = true →
    ∃ t, exec (.routerRound r true) s = .next t ∧ (t.blk.office r.toNat).round = (k + 1) % 128 ∧ (t.blk.office r.toNat).st.rounded = true) ∧
  (∀ (s : State) (r : RegionIdx) e l, s.released → s.blk.officeOn r.toNat = true → s.blk.hoRuns = true → (s.blk.office r.toNat).events = e :: l →
    exec (.eventForward r) s = .next (s.after (forEach ((e :: l).filter (fun x => decide ((s.blk.office r.toNat).fwdAt x ≤
        (advTo (l.foldl (fun m x => min m ((s.blk.office r.toNat).fwdAt x)) ((s.blk.office r.toNat).fwdAt e)) s.blk).now))) (forwardOne r.toNat)
      (advTo (l.foldl (fun m x => min m ((s.blk.office r.toNat).fwdAt x)) ((s.blk.office r.toNat).fwdAt e)) s.blk)))) ∧
  (∀ (s : State), s.released → s.blk.hoRuns = true → s.blk.inJob = true →
    ∃ t, exec .cleanHour s = .next t ∧ t.blk.pm.hourAt = s.blk.nextHour ∧
      t.blk.ho.job.hourDue = s.blk.ho.job.hourDue ++ (advTo s.blk.nextHour s.blk).presentCores.filter ((advTo s.blk.nextHour s.blk).earns s.blk.nextHour) ∧
      (∀ i, (t.blk.hist i).pips = (s.blk.hist i).pips))

/-- R22, R283, R287, R292, R294 to R312: frames, seams, terminals, returns, congestion samples and table swaps. -/
def Obligations.PostNetworkCommands : Prop :=
  (∀ (s : State) (u : BitVec 24) d, s.released → unitKind u.toNat = 1 → unitIndex u.toNat < 16384 →
    (s.blk.office (unitIndex u.toNat / 128)).powered = true → (s.blk.router (unitIndex u.toNat)).lost = false →
    (∀ j, 128 * (unitIndex u.toNat / 128) ≤ j → j < 128 * (unitIndex u.toNat / 128) + 128 → (s.blk.router j).lost = false →
      (s.blk.router (unitIndex u.toNat)).frame ≤ (s.blk.router j).frame) →
    exec (.routerFrame ⟨u, d⟩) s = .next (s.after (frameOf false (unitIndex u.toNat) d s.blk))) ∧
  (∀ (s : State) (u : BitVec 24) d, s.released → unitKind u.toNat = 2 → unitIndex u.toNat < 16384 →
    (s.blk.office (unitIndex u.toNat)).powered = true → (s.blk.node (unitIndex u.toNat)).lost = false →
    exec (.routerFrame ⟨u, d⟩) s = .next (s.after (frameOf true (unitIndex u.toNat) d s.blk))) ∧
  (∀ (s : State) (u : BitVec 24) (dir : BitVec 2) x r, s.released → unitKind u.toNat = 2 →
    (tget (s.blk.node (unitIndex u.toNat)).seams dir.toNat).getD [] = x :: r →
    tget (s.blk.node (torusStep (unitIndex u.toNat) dir.toNat)).inp (opp dir.toNat) = none →
    exec (.seamDeliver u dir) s = .next { s with
      blk := (s.blk.modNode (unitIndex u.toNat) (fun y => { y with seams := tset y.seams dir.toNat r })).modNode
        (torusStep (unitIndex u.toNat) dir.toNat) (fun y => { y with inp := tset y.inp (opp dir.toNat) (ageBy x.frames x.pkt) }) }) ∧
  (∀ (s : State) (core : CoreIdx) p rest f, s.released → (s.blk.core core.toNat).porN = true →
    takeRx (fun p => decide (hPtype p.hdr ≠ 3) && !ownRow core.toNat p) (s.blk.net core.toNat).rx = some (p, rest) →
    e2eBad p = none → hPtype p.hdr = 0 → hSvc p.hdr = 0x02 → hEpoch p.hdr = (s.blk.net core.toNat).epoch.toNat →
    s.blk.ho.job.man.isSome = true → hFleet p.hdr = false → p.pl = [f] → fld f.toNat 52 3 ≠ 1 →
    ∃ t, exec (.terminalReceive (core.setWidth 24) false) s = .next t ∧
      tget (t.blk.core core.toNat).scr.desc (fld f.toNat 64 8) = some (BitVec.ofNat 64 f.toNat) ∧ t.pending = s.pending) ∧
  (∀ (s : State) (u : BitVec 24) full p rest, s.released → s.blk.termOn (s.blk.termOf u.toNat) = true → unitKind (s.blk.termOf u.toNat) ≠ 0 →
    takeRx (fun p => decide (hPtype p.hdr ≠ 3) && !ownRow (s.blk.termOf u.toNat) p) (s.blk.net (s.blk.termOf u.toNat)).rx = some (p, rest) →
    e2eBad p = none → hPtype p.hdr ≠ 2 → implemented (unitKind (s.blk.termOf u.toNat)) (hSvc p.hdr) = false →
    exec (.terminalReceive u full) s = .next (s.after (returnPkt (s.blk.termOf u.toNat) p 3 []
      (s.blk.modNet (s.blk.termOf u.toNat) (fun e => { e with rx := rest }))))) ∧
  (∀ (b : Block) (u i : Nat), (b.net u).lookup1 = false →
    lookupDiffers u i b = b.modNet u (fun e => { e with lookup1 := true })) ∧
  (∀ (b : Block) (i : Nat), (b.net unitHO).lookup1 = true → (lookupDiffers unitHO i b).svc.state = .safe) ∧
  (∀ (b : Block) (m i : Nat), m < 256 → (b.net (unitMember 0 m)).lookup1 = true →
    if m % 2 = 0 then ((lookupDiffers (unitMember 0 m) i b).office (m / 2)).memA.failed = true
    else ((lookupDiffers (unitMember 0 m) i b).office (m / 2)).memB.failed = true) ∧
  (∀ (s : State) (core : CoreIdx) p rest, s.released → (s.blk.core core.toNat).porN = true →
    takeRx (fun p => decide (hPtype p.hdr = 3)) (s.blk.net core.toNat).rx = some (p, rest) → e2eBad p = none →
    (s.blk.net core.toNat).held.find? (heldFor (p.pl.getD 0 0)) = none →
    exec (.returnedReceive (core.setWidth 24)) s = .next (s.after (unitEvent core.toNat evReturnLost (bumpCtr (unitIndex core.toNat) 0x0014 1
      (bumpCtr (unitIndex core.toNat) 0x0013 1 (s.blk.modNet core.toNat (fun e => { e with rx := rest }))))))) ∧
  (∀ (s : State) (u : BitVec 24) x, s.released → (s.blk.net (s.blk.termOf u.toNat)).held.find? (·.waiting) = some x →
    s.blk.termOn (s.blk.termOf u.toNat) = true →
    exec (.resendTimer u) s = .next (s.after (enqueue (s.blk.termOf u.toNat) x.pkt (s.blk.modNet (s.blk.termOf u.toNat) (fun e => { e with
      held := e.held.map (fun y => if y = x then { y with waiting := false } else y) }))))) ∧
  (∀ (s : State) (r : RegionIdx) (k : BitVec 7), s.released → (s.blk.office r.toNat).powered = true → (s.blk.router (128 * r.toNat + k.toNat)).lost = false →
    (s.blk.router (128 * r.toNat + k.toNat)).offered ≠ 0 →
    exec (.congestionSample r k) s = .next (s.after (unicast (unitRouter (128 * r.toNat + k.toNat)) (unitOffice r.toNat) 0x12
      [BitVec.ofNat 128 (min 15 (16 * (s.blk.router (128 * r.toNat + k.toNat)).busy / (s.blk.router (128 * r.toNat + k.toNat)).offered) +
        16 * min 15 (log2Up (1 + (s.blk.router (128 * r.toNat + k.toNat)).defl)))]
      ((advTo (sampleTime s.blk.now) s.blk).modRouter (128 * r.toNat + k.toNat) (fun x => { x with busy := 0, offered := 0, defl := 0 }))))) ∧
  (∀ (s : State) (r : RegionIdx), s.released → (s.blk.office r.toNat).powered = true → (s.blk.office r.toNat).dead = false →
    (s.blk.office r.toNat).server.maps = 8 → ((List.range 128).all (fun k => (s.blk.router (128 * r.toNat + k)).lost || (tget (s.blk.office r.toNat).samples k).isSome)) = true →
    ∃ t, exec (.regionMapSend r) s = .next t ∧ (t.blk.office r.toNat).server.maps = 8 ∧ (t.blk.office r.toNat).samples = [] ∧
      (t.blk.office r.toNat).returned = 0 ∧ (t.blk.office r.toNat).discards = 0 ∧
      Frame [.pm, .letters, .cores, .offices, .routers, .couriers, .post] s.blk t.blk) ∧
  (∀ (s : State), s.released → s.blk.hoRuns = true → s.blk.dbg.exporting = none →
    ∃ t, exec .waferMapBroadcast s = .next t ∧
      t.blk.ho.post.waferMaps = ((advTo (roundUp s.blk.now 100000) s.blk).waferMap :: s.blk.ho.post.waferMaps).take 256 ∧
      Frame [.pm, .letters, .offices, .post] s.blk t.blk) ∧
  (∀ (s : State) (r : RegionIdx) (around : BitVec 128) away, s.released → s.blk.hoRuns = true → s.blk.populated r.toNat = true → s.blk.ho.post.swapAt = none →
    exec (.tableSwapStart r ⟨around, away⟩) s = .next (s.after (beginSwap r.toNat around (away.map (·.toNat)) s.blk))) ∧
  (∀ (s : State) (r : RegionIdx) (around : BitVec 128) away a, s.released → s.blk.hoRuns = true → s.blk.populated r.toNat = true → s.blk.ho.post.swapAt = some a →
    exec (.tableSwapStart r ⟨around, away⟩) s = .next { s with blk := s.blk.modPost (fun p => { p with swapq := p.swapq ++ [(r.toNat, around)] }) }) ∧
  (∀ (s : State) a, s.released → s.blk.ho.post.swapAt = some a → s.blk.ho.post.swapq = [] →
    ∃ t, exec .tableVersionRetire s = .next t ∧ t.blk.ho.post.ver = !s.blk.ho.post.ver ∧ t.blk.ho.post.swapAt = none ∧
      Frame [.pm, .letters, .routers, .nodes, .post] s.blk t.blk) ∧
  (∀ (s : State) (u : BitVec 24) st l, s.released → s.blk.stagesOf u.toNat = st :: l → stageWhole st = true →
    exec (.stagedActivation u) s = .next (s.after (dropStage u.toNat st.stageId (applyStage u.toNat st (advTo st.act s.blk))))) ∧
  (∀ (s : State) (u : BitVec 24) st l, s.released → s.blk.stagesOf u.toNat = st :: l → stageWhole st = false →
    exec (.stagedActivation u) s = .next (s.after (dropStage u.toNat st.stageId (unitEvent u.toNat evStageIncomplete (advTo st.act s.blk))))) ∧
  (∀ (s : State) (u tgt : BitVec 24) x, s.released →
    (s.blk.net u.toNat).sends.find? (fun x => x.missing.any (fun m => decide (m.1 = tgt.toNat) && decide (m.2 < 4))) = some x →
    exec (.stageAckTimeout u tgt) s = .next (s.after (sendPkt u.toNat tgt.toNat 1 x.svc x.svc 0 false
      (stageFlit x.act x.stageId :: x.content.take 3)
      ((advTo (x.sentAt + 30000) s.blk).modNet u.toNat (fun e => { e with sends := e.sends.map (fun y =>
        if y.stageId = x.stageId then { y with
          sentAt := (advTo (x.sentAt + 30000) s.blk).now,
          missing := y.missing.map (fun m => if m.1 = tgt.toNat then (tgt.toNat, m.2 + 1) else m) } else y) }))))) ∧
  (∀ (s : State) (r : RegionIdx) (k : BitVec 7), s.released → s.blk.populated r.toNat = true → (s.blk.router (128 * r.toNat + k.toNat)).lost = false →
    ∃ t, exec (.routerLost r k) s = .next t ∧ (t.blk.router (128 * r.toNat + k.toNat)).lost = true)

/-- R320 to R336, R384, R385, R396, R399: the Head Office's fleet messages, partners, Bulk streams and collectives. -/
def Obligations.FleetMessageCommands : Prop :=
  (∀ (s : State) m, s.released → s.blk.hoRuns = true → firstOf 0x01 s.blk.ho.fleet.requests = some m → m.final = (takeRequest m s.blk).wafer →
    m.bytes.length = 32 → fld (ofLe m.bytes) 89 3 = 0 → fld (ofLe m.bytes) 192 64 = 0 → (takeRequest m s.blk).helloRefuse m.src (ofLe m.bytes) = 0 →
    exec .fleetHello s = .next (s.after (sendReply 0x02 m.orig m.rtag m.reqSeq 0 (partnerHello m.src (ofLe m.bytes) 0 (takeRequest m s.blk)).helloBody
      (partnerHello m.src (ofLe m.bytes) 0 (takeRequest m s.blk))))) ∧
  (∀ (s : State) m, s.released → s.blk.hoRuns = true → firstOf 0x01 s.blk.ho.fleet.requests = none → firstOf 0x02 s.blk.ho.fleet.replies = some m →
    (takeReply m s.blk).replyFits m = true → m.bytes.length = 32 → fld (ofLe m.bytes) 89 3 = 0 → fld (ofLe m.bytes) 192 64 = 0 →
    exec .fleetHello s = .next (s.after (partnerHello m.src (ofLe m.bytes) ((takeReply m s.blk).helloRefuse m.src (ofLe m.bytes))
      (freeReply m.rtag (takeReply m s.blk))))) ∧
  (∀ (s : State) t, s.released → s.blk.hoRuns = true → s.blk.ho.fleet.helloAt = some t → s.blk.ledger.gens = [] →
    exec .helloPeriodic s = .next (s.after (forEach ((advTo (t + 1000000000) s.blk).modFleet (fun f => { f with
        helloAt := some (advTo (t + 1000000000) s.blk).now })).polled sendHello
      ((advTo (t + 1000000000) s.blk).modFleet (fun f => { f with helloAt := some (advTo (t + 1000000000) s.blk).now }))))) ∧
  (∀ (s : State) (w : BitVec 16) p, s.released → s.blk.hoRuns = true → tget s.blk.ho.fleet.partners w.toNat = some p → p.state = 0 →
    s.blk.taking = none → s.blk.ho.parcel.rerep = none →
    exec (.partnerStale w) s = .next (s.after (reselect (hoEvent evPartnerStale [] (modPartner w.toNat (fun p => { p with
        state := 1, since := (advTo (p.heard + if s.blk.polled.contains w.toNat then 3000000000 else 10000000000) s.blk).now })
      (advTo (p.heard + if s.blk.polled.contains w.toNat then 3000000000 else 10000000000) s.blk)))))) ∧
  (∀ (s : State) (w : BitVec 16) p, s.released → s.blk.hoRuns = true → tget s.blk.ho.fleet.partners w.toNat = some p → p.state ≠ 0 →
    s.blk.isHolder w.toNat = false → s.blk.isHoldee w.toNat = false →
    exec (.partnerRemove w) s = .next (s.after ((advTo (p.since + 60000000000) s.blk).modFleet (fun f => { f with
      partners := tdel f.partners w.toNat })))) ∧
  (∀ (s : State) m, s.released → s.blk.hoRuns = true →
    s.blk.ho.fleet.requests.find? (fun m => decide (m.mtype = 0x10) && decide (m.final = s.blk.wafer)) = some m → s.blk.refusedSender m.src = none →
    (s.blk.ring (40 + m.src % 16)).inbox.length < 31 →
    exec .letterMessage s = .next (s.after (takeRequest m (pump (40 + m.src % 16) 32 (s.blk.modRing (40 + m.src % 16) (fun x => { x with
      inbox := x.inbox ++ [(m.bytes, m.src, m.orig, m.rtag, m.reqSeq)], ltrTail := (x.ltrTail + 1) % 32 })))))) ∧
  (∀ (s : State) m l, s.released → s.blk.hoRuns = true → s.blk.ho.fleet.forwards = m :: l → m.final = s.blk.wafer → s.blk.refusedSender m.src = none →
    (s.blk.ring (40 + m.src % 16)).inbox.length < 31 →
    exec .letterFwd s = .next (s.after (takeForward m (placeLetter m s.blk).2))) ∧
  (∀ (s : State) m, s.released → s.blk.hoRuns = true → s.blk.ho.fleet.forwards = [] →
    s.blk.ho.fleet.requests.find? (fun m => decide (m.mtype = 0x10) && decide (m.final ≠ s.blk.wafer)) = some m →
    (sendRequestFrom m.src 0x12 m.final m.epoch m.bytes none (some (m.orig, m.rtag, m.reqSeq)) true (takeRequest m s.blk)).1 = 0 →
    exec .letterFwd s = .next (s.after (sendRequestFrom m.src 0x12 m.final m.epoch m.bytes none (some (m.orig, m.rtag, m.reqSeq)) true
      (takeRequest m s.blk)).2)) ∧
  (∀ (s : State) m x r, s.released → s.blk.hoRuns = true →
    s.blk.ho.fleet.replies.find? (fun m => decide (m.mtype = 0x11) || decide (m.mtype = 0x13)) = some m → m.mtype = 0x11 →
    tget s.blk.ho.fleet.slots m.rtag = some x → x.reqSeq = m.reqSeq → x.relay = none → x.ring = some r →
    exec .receiptMessage s = .next (s.after (pump r 32 (advanceHead r (putReceipt r none m.bytes (freeReply m.rtag (takeReply m s.blk))))))) ∧
  (∀ (s : State) (k : BitVec 10) x r, s.released → tget s.blk.ho.fleet.slots k.toNat = some x → x.ring = some r →
    exec (.replyTimeout k) s = .next (s.after (localAnswer r 0x0503 0 (freeReply k.toNat (advTo (x.since + 10000000) s.blk))))) ∧
  (∀ (s : State) (k : BitVec 10) x, s.released → tget s.blk.ho.fleet.slots k.toNat = some x → x.ring = none → x.own = none →
    exec (.replyTimeout k) s = .next (s.after (freeReply k.toNat (advTo (x.since + 10000000) s.blk)))) ∧
  (∀ (s : State) (src rs : BitVec 16) m, s.released →
    s.blk.ho.fleet.parts.find? (fun m => decide (m.src = src.toNat) && decide (m.reqSeq = rs.toNat)) = some m →
    exec (.fragmentTimeout src rs) s = .next (s.after (giveCredits m ((advTo (m.first + 100000) s.blk).modFleet (fun f => { f with
      parts := f.parts.filter (fun x => !sameMsg m x) }))))) ∧
  (∀ (s : State) (r : BitVec 6) dst l, s.released → s.blk.consumes = true → (s.blk.ring r.toNat).away = some dst → (s.blk.ring r.toNat).relayed = false →
    s.blk.headLetter r.toNat = some l → (sendRequest 0x10 dst l.epoch l.bytes (some r.toNat) (ensureLive dst s.blk)).1 = 0 →
    exec (.ringLetterRelay r) s = .next (s.after ((sendRequest 0x10 dst l.epoch l.bytes (some r.toNat) (ensureLive dst s.blk)).2.modRing r.toNat
      (fun x => { x with relayed := true })))) ∧
  (∀ (s : State) m k, s.released → s.blk.hoRuns = true → firstOf 0x20 s.blk.ho.fleet.requests = some m → m.final = (takeRequest m s.blk).wafer →
    freeStream (takeRequest m s.blk).ho.fleet.streams = some k →
    exec .bulkOpen s = .next (s.after (sendReply 0x21 m.orig m.rtag m.reqSeq m.epoch [64] ((takeRequest m s.blk).modFleet (fun f => { f with
      streams := tset f.streams k { peer := m.src, tag := m.reqSeq, credits := 64, since := (takeRequest m s.blk).now } }))))) ∧
  (∀ (s : State) m x k, s.released → s.blk.hoRuns = true → firstOf 0x21 s.blk.ho.fleet.replies = some m → tget s.blk.ho.fleet.slots m.rtag = some x →
    freeStream s.blk.ho.fleet.bulkOut = some k → x.reqSeq = m.reqSeq → x.mtype = 0x20 →
    ∃ t, exec .bulkGrant s = .next t ∧ tget t.blk.ho.fleet.bulkOut k =
        some { peer := m.src, sender := true, tag := m.reqSeq, rtag := m.rtag, epoch := m.epoch, credits := min 64 (rd m.bytes 0 1), since := s.blk.now } ∧
      t.blk.ho.fleet.slots = tdel s.blk.ho.fleet.slots m.rtag ∧ Frame [.fleet] s.blk t.blk) ∧
  (∀ (s : State) m k st, s.released → s.blk.hoRuns = true → firstOf 0x22 s.blk.ho.fleet.bulk = some m → streamOf s.blk.ho.fleet.streams m.src m.reqSeq = some (k, st) →
    exec .bulkData s = .next (s.after (sendReply 0x23 m.src m.rtag m.reqSeq m.epoch [1] (s.blk.modFleet (fun f => { f with
      bulk := dropOne m f.bulk
      streams := tset f.streams k { st with pkts := (st.pkts ++ [m.bytes]).drop (st.pkts.length + 1 - 64), since := s.blk.now } }))))) ∧
  (∀ (m : FleetMsg) (l : List FleetMsg), m ∈ l → (dropOne m l).length + 1 = l.length) ∧
  (∀ (s : State) m k st, s.released → s.blk.hoRuns = true → firstOf 0x23 s.blk.ho.fleet.replies = some m → streamOf s.blk.ho.fleet.bulkOut m.src m.reqSeq = some (k, st) → st.pkts = [] →
    ∃ t, exec .bulkCredit s = .next t ∧ tget t.blk.ho.fleet.bulkOut k = some { st with credits := min 64 (st.credits + 1), since := s.blk.now } ∧
      Frame [.fleet] s.blk t.blk) ∧
  (∀ (s : State) (k : BitVec 6) st, s.released → tget s.blk.ho.fleet.bulkOut k.toNat = some st → st.credits = 0 →
    ∃ t, exec (.bulkCreditTimeout k) s = .next t ∧ t.blk.ho.fleet.bulkOut = tdel s.blk.ho.fleet.bulkOut k.toNat ∧ t.pending = s.pending) ∧
  (∀ (s : State) m, s.released → s.blk.hoRuns = true → firstOf 0x30 s.blk.ho.fleet.colls = some m → m.rtag = 14 →
    (childrenOf s.blk.ho.fleet.len s.blk.wafer).any (fun c => decide (c.2 = m.src)) = true → s.blk.ho.fleet.ended = [] →
    tget s.blk.ho.fleet.coll 14 = none →
    exec .collUp s = .next (s.after (collCheck 14 ((takeColl m s.blk).modFleet (fun f => { f with
      coll := tset f.coll 14 { op := 0, since := s.blk.now, kids := [(m.src, collVals m)] } }))))) ∧
  (∀ (s : State) m port, s.released → s.blk.hoRuns = true → firstOf 0x31 s.blk.ho.fleet.colls = some m → s.blk.ho.fleet.ended = [] →
    parentOf s.blk.ho.fleet.len s.blk.wafer = some (port, m.src) →
    exec .collDown s = .next (s.after (collResult (m.rtag % 16) (m.rtag / 16 % 8) (collVals m) (takeColl m s.blk)))) ∧
  (∀ (s : State) (id : BitVec 4) c, s.released → tget s.blk.ho.fleet.coll id.toNat = some c →
    ∃ t, exec (.collTimeout id) s = .next t ∧ t.blk.ho.fleet.coll = tdel s.blk.ho.fleet.coll id.toNat ∧ id.toNat ∈ t.blk.ho.fleet.ended)

/-- R375 to R395: the parcel rows, reservations, commits and the end of a job. -/
def Obligations.ParcelAndTeardownCommands : Prop :=
  (∀ (s : State), s.released → s.blk.ho.job.launched = true → s.blk.ho.policy.interval ≠ 0 → s.blk.hoRuns = true →
    exec .parcelPrepare s = .next (s.after (prepareParcel (advTo ((s.blk.now / (s.blk.ho.policy.interval * 60000000000) + 1) *
      (s.blk.ho.policy.interval * 60000000000) - 60000000000) s.blk)))) ∧
  (∀ (s : State) w, s.released → s.blk.ho.job.launched = true → s.blk.hoRuns = true → s.blk.ho.parcel.holder1 = some w → s.blk.taking = none →
    exec .parcelReserveRenew s = .next (s.after (reserveBoth ((advTo (s.blk.ho.parcel.reservedAt + 60000000000) s.blk).modParcel (fun p => { p with
      reservedAt := (advTo (s.blk.ho.parcel.reservedAt + 60000000000) s.blk).now }))))) ∧
  (∀ (s : State), s.released → s.blk.ho.parcel.voting = true → s.blk.ho.job.launched = true →
    ∃ t, exec .parcelVoteLate s = .next t ∧ t.blk.ho.parcel.voting = false ∧ t.blk.ho.parcel.stopAt = none ∧ StopCause.parcelVoteLate ∈ t.blk.stop.causes) ∧
  (∀ (s : State) n, s.released → s.blk.ho.parcel.stopAt = some n → s.blk.ho.job.launched = true → s.blk.inForce = true →
    ∃ t, exec .parcelStop s = .next t ∧ t.blk.ho.parcel.stopAt = none ∧ t.blk.ho.parcel.inStop = some n ∧ t.blk.ledger.lastGen = s.blk.ledger.lastGen + 1 ∧
      StopCause.parcelStop ∈ t.blk.stop.causes) ∧
  (∀ (s : State) g, s.released → s.blk.taking = some g → s.blk.dataDone = true → s.blk.ho.parcel.rooting = false → s.blk.hoRuns = true →
    ∃ t, exec .parcelRootBuild s = .next t ∧ t.blk.ho.parcel.rooting = true ∧
      t.blk.ho.parcel.root = some (sha384v (s.blk.page0 g ++ s.blk.crcTable (s.blk.page0 g)))) ∧
  (∀ (s : State) g, s.released → s.blk.taking = some g → s.blk.ho.parcel.rooting = true → s.blk.ho.parcel.committing = false →
    s.blk.ho.parcel.fail1 = false → s.blk.ho.parcel.fail2 = false → (List.range s.blk.moves.length).all (fun i => s.blk.ho.parcel.done1.contains i) = true →
    (List.range s.blk.moves.length).all (fun i => s.blk.ho.parcel.done2.contains i) = true →
    ∃ t, exec .parcelCommitSend s = .next t ∧ t.blk.ho.parcel.committing = true ∧ t.blk.ho.parcel.commitAt = s.blk.now ∧
      t.blk.ledger.inGen = some { g with state := .committing }) ∧
  (∀ (s : State) n, s.released → s.blk.ho.parcel.inStop = some n → s.blk.capturing = true → s.blk.ho.parcel.pagesLeft ≠ 0 →
    (advTo (n + s.blk.ho.policy.tStop - 100000) s.blk).capturing = true →
    exec .parcelOverrun s = .next (s.after (hoEvent evParcelOverrun [] (originate .parcelOverrun (advTo (n + s.blk.ho.policy.tStop - 100000) s.blk))))) ∧
  (∀ (s : State) n, s.released → s.blk.ho.parcel.inStop = some n → s.blk.stop.causes = [.parcelStop] → s.blk.stop.latch = false →
    ∃ t, exec .parcelUngate s = .next t ∧ t.blk.ho.parcel.inStop = none ∧ t.blk.stop.stopped = false ∧
      t.blk.ho.job.lateShift = s.blk.ho.job.lateShift + s.blk.ho.policy.tStop) ∧
  (∀ (s : State) (second ok : Bool), s.released → s.blk.ho.parcel.committing = true →
    exec (.parcelCommitAnswer second ok) s = .next (s.after (commitAnswer second ok s.blk))) ∧
  (∀ (b : Block) g, b.taking = some g → b.ho.parcel.ans1 = none → b.ho.parcel.ans2 = none →
    (commitAnswer false true b).ho.parcel.ans1 = some true ∧ (commitAnswer false true b).ho.parcel.ans2 = none ∧
      (commitAnswer false true b).ledger.inGen = some { g with state := if g.state = .committing then .single else g.state }) ∧
  (∀ (s : State), s.released → s.blk.ho.parcel.committing = true → s.blk.ho.parcel.ans1 = none →
    exec (.parcelCommitTimeout false) s = .next (s.after (failCopy false (advTo (s.blk.ho.parcel.commitAt + 60000000000) s.blk)))) ∧
  (∀ (s : State), s.released → s.blk.ho.parcel.committing = true → s.blk.ho.parcel.ans2 = none →
    exec (.parcelCommitTimeout true) s = .next (s.after (failCopy true (advTo (s.blk.ho.parcel.commitAt + 60000000000) s.blk)))) ∧
  (∀ (s : State) (w : BitVec 16) (g : BitVec 32) h, s.released →
    s.blk.ledger.holds.find? (fun h => h.holdee = w.toNat ∧ h.gen = g.toNat ∧ ¬ h.committed) = some h →
    ∃ t, exec (.reservationLapse w g) s = .next t ∧
      t.blk.ledger.holds = s.blk.ledger.holds.filter (fun x => !(decide (x.holdee = w.toNat) && decide (x.gen = g.toNat) && !x.committed)) ∧
      t.blk.ho.parcel.cooling.length = s.blk.ho.parcel.cooling.length + 1) ∧
  (∀ (s : State) n, s.released → s.blk.ho.job.tearing = some n → s.blk.quiet = true →
    exec .teardownQuiesced s = .next (s.after (endTeardown (advTo (n + 13000) s.blk)))) ∧
  (∀ (s : State) n, s.released → s.blk.ho.job.tearing = some n →
    ∃ x r, exec .teardownForce s = .next (s.after (endTeardown ((((advTo (n + 50000000) s.blk).allCouriers (fun c => { c with
        xfers := c.xfers.map (fun (y : Xfer) => { y with retired := true }) })).modFleet
        (fun f => { f with slots := [], streams := [], bulkOut := [] })).modJob (fun j => { j with forcedX := x, forcedR := r })))))
/-- R422 to R427: image packets, rounds and readback. -/
def Obligations.ImageCommands : Prop :=
  (∀ (s : State) (core : CoreIdx) (p : ImagePacket), s.released → (imgSweep s.blk).imgOpen core.toNat = true →
    ((imgSweep s.blk).core core.toNat).lbOn = true → (imgSweep s.blk).attached core.toNat = true →
    p.imageId = (imgSweep s.blk).ho.image.imageId →
    ((imgSweep s.blk).core core.toNat).img.got.contains p.pktIdx.toNat = false →
    ∃ t, exec (.imagePacket core p) s = .next t ∧
      (t.blk.core core.toNat).img.got = ((imgSweep s.blk).core core.toNat).img.got ++ [p.pktIdx.toNat] ∧
      (t.blk.core core.toNat).img.store = memWrites ((imgSweep s.blk).core core.toNat).img.store (48 * p.pktIdx.toNat) (le 48 p.bytes.toNat) ∧
      (t.blk.core core.toNat).pins.capWdata = BitVec.ofNat 128 (fld p.bytes.toNat 256 128)) ∧
  (∀ (s : State) (core : CoreIdx) (p : ImagePacket), s.released → (imgSweep s.blk).imgOpen core.toNat = true →
    ((imgSweep s.blk).core core.toNat).lbOn = true → (imgSweep s.blk).attached core.toNat = true →
    p.imageId = (imgSweep s.blk).ho.image.imageId →
    ((imgSweep s.blk).core core.toNat).img.got.contains p.pktIdx.toNat = true →
    ∃ t, exec (.imagePacket core p) s = .next t ∧
      (t.blk.core core.toNat).img = { ((imgSweep s.blk).core core.toNat).img with dups := ((imgSweep s.blk).core core.toNat).img.dups + 1 }) ∧
  (∀ (s : State) (r : RegionIdx), s.released → s.blk.ho.image.active = true → maskBit s.blk.ho.image.regions r.toNat = true →
    maskBit s.blk.ho.image.ended r.toNat = false → s.blk.ho.image.targets = [] → maskSet s.blk.ho.image.ended r.toNat true ≠ s.blk.ho.image.regions →
    s.blk.ho.mail.outst = [] →
    ∃ t, exec (.imageRoundEnd r) s = .next t ∧ t.blk.ho.image.ended = maskSet s.blk.ho.image.ended r.toNat true ∧ t.blk.ho.image.round = s.blk.ho.image.round ∧
      t.blk.ho.image.active = false) ∧
  (∀ (s : State) (core : CoreIdx) data, s.released → (imgSweep s.blk).imgOpen core.toNat = true → ((imgSweep s.blk).core core.toNat).lbOn = true →
    (imgSweep s.blk).imgMissing core.toNat = [] → sha384v data ≠ (imgSweep s.blk).ho.image.digest → ((imgSweep s.blk).core core.toNat).img.misses = 0 →
    ∃ t, exec (.imageReadbackDone core data) s = .next t ∧ (t.blk.core core.toNat).img =
      { ((imgSweep s.blk).core core.toNat).img with got := [], misses := 1, again := true }) ∧
  (∀ (s : State) (core : CoreIdx) data, s.released → (imgSweep s.blk).imgOpen core.toNat = true → ((imgSweep s.blk).core core.toNat).lbOn = true →
    (imgSweep s.blk).imgMissing core.toNat = [] → sha384v data = (imgSweep s.blk).ho.image.digest →
    ∃ t, exec (.imageReadbackDone core data) s = .next t ∧ (t.blk.core core.toNat).img.done = true) ∧
  (∀ (s : State) (core : CoreIdx) (p : ImagePacket), s.released → (∀ i ∈ s.blk.ho.image.targets, s.blk.imgOpen i = true → s.blk.imgLost i = false) →
    s.blk.imgOpen core.toNat = true → (s.blk.core core.toNat).lbOn = true → s.blk.attached core.toNat = true → p.imageId = s.blk.ho.image.imageId →
    (s.blk.core core.toNat).img.got.contains p.pktIdx.toNat = false →
    ∃ t, exec (.imagePacket core p) s = .next t ∧ (t.blk.core core.toNat).img = { (s.blk.core core.toNat).img with
        got := (s.blk.core core.toNat).img.got ++ [p.pktIdx.toNat]
        store := memWrites (s.blk.core core.toNat).img.store (48 * p.pktIdx.toNat) (le 48 p.bytes.toNat) } ∧ Frame [.cores] s.blk t.blk) ∧
  (∀ (s : State) (core : CoreIdx) (p : ImagePacket), s.released → (∀ i ∈ s.blk.ho.image.targets, s.blk.imgOpen i = true → s.blk.imgLost i = false) →
    s.blk.imgOpen core.toNat = true → (s.blk.core core.toNat).lbOn = true → s.blk.attached core.toNat = true → p.imageId = s.blk.ho.image.imageId →
    (s.blk.core core.toNat).img.got.contains p.pktIdx.toNat = true →
    exec (.imagePacket core p) s = .next { s with blk := modImg core.toNat (fun x => { x with dups := x.dups + 1 }) s.blk }) ∧
  (∀ (s : State) (r : RegionIdx), s.released → (∀ i ∈ s.blk.ho.image.targets, s.blk.imgOpen i = true → s.blk.imgLost i = false) →
    s.blk.ho.image.active = true → maskBit s.blk.ho.image.regions r.toNat = true → maskBit s.blk.ho.image.ended r.toNat = false →
    maskSet s.blk.ho.image.ended r.toNat true ≠ s.blk.ho.image.regions → s.blk.ho.image.targets.any s.blk.imgOpen = true →
    (∀ i ∈ s.blk.ho.image.targets, regionOf i = r.toNat → s.blk.imgOpen i = true → s.blk.imgMissing i = [] ∨
      (s.blk.core i).img.again = false ∧ s.blk.ho.image.round < 8) →
    exec (.imageRoundEnd r) s = .next { s with blk := s.blk.modImage (fun x => { x with
      ended := maskSet x.ended r.toNat true, asked := tset x.asked r.toNat (s.blk.imgAsked r.toNat) }) }) ∧
  (∀ (s : State) (core : CoreIdx) data, s.released → (∀ i ∈ s.blk.ho.image.targets, s.blk.imgOpen i = true → s.blk.imgLost i = false) →
    s.blk.imgOpen core.toNat = true → (s.blk.core core.toNat).lbOn = true → s.blk.imgMissing core.toNat = [] →
    sha384v data ≠ s.blk.ho.image.digest → (s.blk.core core.toNat).img.misses = 0 →
    exec (.imageReadbackDone core data) s = .next { s with blk := modImg core.toNat (fun x => { x with got := [], misses := 1, again := true }) s.blk }) ∧
  (∀ (s : State) (core : CoreIdx) data, s.released → (∀ i ∈ s.blk.ho.image.targets, s.blk.imgOpen i = true → s.blk.imgLost i = false) →
    s.blk.imgOpen core.toNat = true → (s.blk.core core.toNat).lbOn = true → s.blk.imgMissing core.toNat = [] → sha384v data = s.blk.ho.image.digest →
    s.blk.mayRelease = false → s.blk.ho.mail.outst = [] →
    ∃ t, exec (.imageReadbackDone core data) s = .next t ∧ (t.blk.core core.toNat).img = { (s.blk.core core.toNat).img with done := true } ∧
      t.blk.ho.image.active = s.blk.ho.image.targets.any (fun i => decide (i ≠ core.toNat) && s.blk.imgOpen i) ∧ Frame [.cores, .image] s.blk t.blk)

/-- R9, R409, R412, R421, R448: HELLO, IDENTIFY, INVENTORY and MEASURE. -/
def Obligations.IdentityLetters : Prop :=
  (∀ (s : State) (ring : BitVec 6) l, s.released → s.blk.carries ring.toNat 0x001 l → fld (l.p 0 1) 0 4 ≤ 1 → 1 ≤ fld (l.p 0 1) 4 4 →
    exec (.hello ring) s = .next (s.after (answerOk ring.toNat l (le 1 1 ++ le 1 archCode ++ le 1 relCode ++ le 1 (pmCode s.blk.pm.state))
      (s.blk.modMail (fun m => { m with sessions := if m.sessions.contains l.sender then m.sessions else m.sessions ++ [l.sender] }))))) ∧
  (∀ (s : State) (ring : BitVec 6) l, s.released → s.blk.carries ring.toNat 0x001 l → 1 < fld (l.p 0 1) 0 4 ∨ fld (l.p 0 1) 4 4 = 0 →
    exec (.hello ring) s = .next (s.after (answerRefuse ring.toNat l 0x0100 0 s.blk))) ∧
  (∀ (s : State) (ring : BitVec 6) l, s.released → s.blk.carries ring.toNat 0x002 l →
    exec (.identify ring) s = .next (s.after (answerOk ring.toNat l (le 4 s.blk.idcode ++ le 2 s.blk.wafer ++ le 1 (lcCode s.blk.svc.lc) ++
      le 1 (svcCode s.blk.svc.state) ++ le 16 s.blk.regionMask) s.blk))) ∧
  (∀ (s : State) (ring : BitVec 6) l, s.released → s.blk.carries ring.toNat 0x003 l →
    exec (.inventory ring) s = .next (s.after (answerParts ring.toNat l
      [s.blk.inv0, s.blk.inv1, s.blk.inv2, s.blk.inv3, s.blk.inv4, s.blk.inv5, s.blk.inv6] s.blk))) ∧
  (∀ (s : State) (ring : BitVec 6) l, s.released → s.blk.carries ring.toNat 0x004 l →
    exec (.measure ring) s = .next (s.after (answerOk ring.toNat l (le 48 s.blk.ho.mgmt.meas.toNat ++ le 1 (b01 s.blk.ho.mgmt.measSlot) ++ [0, 0, 0] ++
      le 4 s.blk.ho.mgmt.measLen) s.blk)))
/-- R127, R128, R136, R150, R153, R393, R412, R419, R457: the letters of the job and Postmark group. -/
def Obligations.JobLetters : Prop :=
  (∀ (s : State) (ring : BitVec 6) data l d n, s.released → s.blk.carries ring.toNat 0x101 l → s.blk.svc.state = .ready → s.blk.ho.job.man = none →
    s.blk.hostRead data (l.p 8 8) = some d → sha384v d = BitVec.ofNat 384 (l.p 16 48) → mayExceed (parseManifest d) = false →
    manifestFault s.blk d (parseManifest d) (freshBit s.blk).1 = none → (loadManifest (parseManifest d) s.blk).tMin = some n →
    exec (.jobLoad ring data) s = .next (s.after (answerWhole ring.toNat l [] 0 0 (le 2 (loadManifest (parseManifest d) s.blk).ledger.epoch ++ [0, 0] ++
      le 4 (manWorking (parseManifest d)).length ++ le 4 (loadManifest (parseManifest d) s.blk).ho.bm.gen.toNat ++
      le 4 (loadManifest (parseManifest d) s.blk).parcelPages ++ le 4 n) (loadManifest (parseManifest d) s.blk)))) ∧
  (∀ (s : State) (ring : BitVec 6) data l d, s.released → s.blk.carries ring.toNat 0x101 l → s.blk.svc.state = .ready → s.blk.ho.job.man = none →
    s.blk.hostRead data (l.p 8 8) = some d → sha384v d ≠ BitVec.ofNat 384 (l.p 16 48) →
    exec (.jobLoad ring data) s = .next (s.after (answerWhole ring.toNat l [] 0x0406 0 [] s.blk))) ∧
  (∀ (s : State) (ring : BitVec 6) l, s.released → s.blk.carries ring.toNat 0x102 l → s.blk.ho.job.man.isSome = true → s.blk.inJob = false →
    s.blk.pm.state = .loaded → l.p 0 8 % 1000 = 0 → s.blk.now + 2000000 ≤ l.p 0 8 → s.blk.unscreenedRoles ≤ s.blk.ho.policy.unscreenedLimit →
    (∀ i ∈ s.blk.workCores, s.blk.attached i = true) →
    ∃ b, exec (.launch ring []) s = .next (s.after (answerInterim ring.toNat l (le 8 (l.p 0 8) ++ le 8 b.ho.job.armedAt ++ le 4 b.ho.job.armedCnt) [] b)) ∧
      b.ho.job.armed = true ∧ b.ho.job.launchAt = l.p 0 8 ∧ b.ho.job.unarmed = [] ∧ b.ho.job.launched = s.blk.ho.job.launched ∧ b.ho.job.man = s.blk.ho.job.man) ∧
  (∀ (s : State) (ring : BitVec 6) l missing i, s.released → s.blk.carries ring.toNat 0x102 l → s.blk.ho.job.man.isSome = true → s.blk.inJob = false →
    s.blk.pm.state = .loaded → l.p 0 8 % 1000 = 0 → s.blk.now + 2000000 ≤ l.p 0 8 → s.blk.unscreenedRoles ≤ s.blk.ho.policy.unscreenedLimit →
    i ∈ s.blk.workCores → (missing.map (·.toNat)).contains i = true →
    ∃ b : Block, exec (.launch ring missing) s = .next (s.after (answerLater ring.toNat l [] b)) ∧
      b.ho.job.armed = true ∧ b.ho.job.launchAt = l.p 0 8 ∧ i ∈ b.ho.job.unarmed ∧ b.ho.job.launched = s.blk.ho.job.launched) ∧
  (∀ (s : State) (ring : BitVec 6) l missing, s.released → s.blk.carries ring.toNat 0x102 l → s.blk.ho.job.man.isSome = true → s.blk.inJob = false →
    s.blk.pm.state = .loaded → l.p 0 8 % 1000 = 0 → l.p 0 8 < s.blk.now + 2000000 →
    exec (.launch ring missing) s = .next (s.after (answerRefuse ring.toNat l 0x0402 0 s.blk))) ∧
  (∀ (s : State) (ring : BitVec 6) l, s.released → s.blk.carries ring.toNat 0x103 l → l.p 0 8 % 1000 = 0 → s.blk.now + 200000 ≤ l.p 0 8 →
    exec (.stopAt ring) s = .next (s.after (answerOk ring.toNat l (le 8 (l.p 0 8)) (s.blk.modStop (fun x => { x with sched := some (l.p 0 8) }))))) ∧
  (∀ (s : State) (ring : BitVec 6) l, s.released → s.blk.carries ring.toNat 0x104 l →
    exec (.urgentStop ring) s = .next (s.after (answerOk ring.toNat l (le 8 (originate .urgentLetter s.blk).stopCount) (originate .urgentLetter s.blk)))) ∧
  (∀ (s : State) (ring : BitVec 6) l, s.released → s.blk.carries ring.toNat 0x105 l → s.blk.env.stopInN = true →
    exec (.stopRelease ring) s = .next (s.after (answerOk ring.toNat l [] (s.blk.modStop (fun x => { x with
      causes := x.causes.filter (fun c => !letterCause c), latch := false }))))) ∧
  (∀ (s : State) (ring : BitVec 6) l, s.released → s.blk.carries ring.toNat 0x105 l → s.blk.env.stopInN = false →
    exec (.stopRelease ring) s = .next (s.after (answerRefuse ring.toNat l 0x0308 0 s.blk))) ∧
  (∀ (s : State) (ring : BitVec 6) l, s.released → s.blk.carries ring.toNat 0x106 l →
    exec (.jobTeardown ring) s = .next (s.after (answerInterim ring.toNat l [] [] (beginTeardown s.blk)))) ∧
  (∀ (s : State) (ring : BitVec 6) l, s.released → s.blk.carries ring.toNat 0x107 l → 1000 ≤ l.p 8 4 → l.p 8 4 ≤ 1000000000 → s.blk.inJob = false →
    exec (.postmarkLoad ring) s = .next (s.after (answerOk ring.toNat l [1] (setPmState .armed (s.blk.modPm (fun x => { x with
      loadV := BitVec.ofNat 64 (l.p 0 8), loadP := BitVec.ofNat 30 (l.p 8 4) })))))) ∧
  (∀ (s : State) (ring : BitVec 6) l, s.released → s.blk.carries ring.toNat 0x107 l → l.p 8 4 < 1000 ∨ 1000000000 < l.p 8 4 →
    exec (.postmarkLoad ring) s = .next (s.after (answerRefuse ring.toNat l 0x0400 40 s.blk)))
/-- R41, R166, R183, R184, R193, R211, R236, R247, R411, R413: the letters of the screening and verdict groups. -/
def Obligations.ScreeningLetters : Prop :=
  (∀ (s : State) (ring : BitVec 6) l, s.released → s.blk.carries ring.toNat 0x201 l → s.blk.inJob = false → 1 ≤ l.p 1 1 → l.p 1 1 ≤ 16 →
    l.p 0 1 + l.p 1 1 ≤ 16 → (∀ i, i < l.p 1 1 → fmtOk (BitVec.ofNat 64 (l.p (4 + 8 * i) 8)) = true) →
    (∀ i ∈ s.blk.liveCores, s.blk.attached i = true) →
    ∃ b, exec (.formatLoad ring [] 0) s = .next (s.after (answerOk ring.toNat l (le 4 0) b)) ∧
      b.ho.policy.fmt = putFmts (l.p 0 1) ((List.range (l.p 1 1)).map (fun i => BitVec.ofNat 64 (l.p (4 + 8 * i) 8))) s.blk.ho.policy.fmt ∧
      Frame [.policy, .cores, .couriers] s.blk b) ∧
  (∀ (s : State) (ring : BitVec 6) m t l, s.released → s.blk.carries ring.toNat 0x201 l → s.blk.inJob = false → 1 ≤ l.p 1 1 → l.p 1 1 ≤ 16 →
    l.p 0 1 + l.p 1 1 ≤ 16 → (∀ i, i < l.p 1 1 → fmtOk (BitVec.ofNat 64 (l.p (4 + 8 * i) 8)) = true) →
    ∃ n b, exec (.formatLoad ring m t) s = .next (s.after (answerOk ring.toNat l (le 4 n) b)) ∧
      b.ho.policy.fmt = putFmts (l.p 0 1) ((List.range (l.p 1 1)).map (fun i => BitVec.ofNat 64 (l.p (4 + 8 * i) 8))) s.blk.ho.policy.fmt) ∧
  (∀ (s : State) (ring : BitVec 6) m t l, s.released → s.blk.carries ring.toNat 0x201 l → s.blk.inJob = true →
    exec (.formatLoad ring m t) s = .next (s.after (answerRefuse ring.toNat l 0x0303 0 s.blk))) ∧
  (∀ (s : State) (ring : BitVec 6) l, s.released → s.blk.carries ring.toNat 0x202 l → s.blk.inJob = false →
    rateOk (l.p 0 1) = true → rateOk (l.p 1 1) = true → rateOk (l.p 2 1) = true →
    exec (.diceRates ring) s = .next (s.after (answerOk ring.toNat l [] (s.blk.modPolicy (fun p => { p with
      rdSuspect := l.p 0 1, rdProbation := l.p 1 1, rdActive := l.p 2 1, thrLd := BitVec.ofNat 32 (l.p 4 4) }))))) ∧
  (∀ (s : State) (ring : BitVec 6) l, s.released → s.blk.carries ring.toNat 0x203 l → s.blk.inJob = false →
    l.p 0 1 ≤ 2 → l.p 1 1 ≤ 2 → l.p 2 1 ≤ 2 → l.p 3 1 ≤ 1 → l.p 4 1 ≤ 2 → l.p 6 1 = 1 → l.p 5 1 ≤ 255 → fld (l.p 8 1) 0 4 ≤ fld (l.p 8 1) 4 4 →
    exec (.canaryBands ring) s = .next (s.after (answerOk ring.toNat l [] (s.blk.modPolicy (fun p => { p with
      canary := [l.p 0 1, l.p 1 1, l.p 2 1, l.p 3 1, l.p 4 1]
      bands := tset p.bands (l.p 5 1) (fld (l.p 8 1) 0 4, fld (l.p 8 1) 4 4) }))))) ∧
  (∀ (s : State) (ring : BitVec 6) l, s.released → s.blk.carries ring.toNat 0x301 l → s.blk.inJob = false → 1 ≤ l.p 0 1 → l.p 0 1 ≤ 4 →
    exec (.verdictPolicy ring) s = .next (s.after (answerOk ring.toNat l [] (s.blk.modPolicy (fun p => { p with
      replayLimit := l.p 0 1, unscreenedLimit := l.p 2 2 }))))) ∧
  (∀ (s : State) (ring : BitVec 6) l x, s.released → s.blk.carries ring.toNat 0x302 l →
    s.blk.ho.job.hist.find? (fun x => decide (x.step = l.p 0 4)) = some x →
    exec (.stepQuery ring) s = .next (s.after (answerOk ring.toNat l (le 1 (if s.blk.now < x.fc then 0 else if x.frank then 1 else 2) ++
      le 1 x.replays ++ [0, 0] ++ le 4 x.mask.toNat ++ le 16 x.digest.toNat ++ le 8 x.fc) s.blk))) ∧
  (∀ (s : State) (ring : BitVec 6) l, s.released → s.blk.carries ring.toNat 0x303 l → l.p 0 4 < 2 ^ 20 →
    exec (.coreQuery ring) s = .next (s.after (answerOk ring.toNat l (le 8 (s.blk.entry (l.p 0 4)) ++ le 1 (s.blk.hist (l.p 0 4)).pips ++
      le 1 (s.blk.hist (l.p 0 4)).fences ++ [0, 0] ++ le 8 ((s.blk.hist (l.p 0 4)).probStart.getD 0)) s.blk)))

/-- R24, R25, R232, R252, R263, R264, R271, R272, R414: the letters of the test group. -/
def Obligations.TestLetters : Prop :=
  (∀ (s : State) (ring : BitVec 6) l, s.released → s.blk.carries ring.toNat 0x401 l → s.blk.inJob = false → 8 ≤ l.p 0 2 → l.p 0 2 ≤ 400 →
    s.blk.longestUnit ≤ 1000 * l.p 0 2 → l.p 3 1 ≤ 1 → 1 ≤ l.p 4 1 → l.p 4 1 ≤ 168 → l.p 5 1 ≤ 1 →
    exec (.testPolicy ring) s = .next (s.after (answerOk ring.toNat l [] (s.blk.modPolicy (fun p => { p with
      sliceBudget := l.p 0 2
      recovery := l.p 2 1
      spareSweep := decide (l.p 3 1 = 1)
      standbyHours := l.p 4 1
      routerRound := decide (l.p 5 1 = 1) }))))) ∧
  (∀ (s : State) (ring : BitVec 6) l b, s.released → s.blk.carries ring.toNat 0x402 l → s.blk.inJob = false → l.p 17 1 ≤ 1 → s.blk.outOp 0x402 = false →
    b = answerInterim ring.toNat l [] [0, 0, 0] (forEach (s.blk.popRegions.filter (fun r => bit (l.p 0 16) r)) (fun r b =>
      b.modOffice r (fun o => { o with sweepq := b.sweepCores r (decide (l.p 17 1 = 1)) })) s.blk) →
    exec (.testSweep ring) s = .next (s.after (if b.outOp 0x402 then startSweep b else b))) ∧
  (∀ (s : State) (ring : BitVec 6) l, s.released → s.blk.carries ring.toNat 0x403 l → s.blk.inJob = false → l.p 0 4 < 2 ^ 20 →
    s.blk.coreState (l.p 0 4) = .fenced → tget s.blk.ho.bm.blocked (l.p 0 4) = none → (s.blk.hist (l.p 0 4)).fences = 1 →
    ∃ b, exec (.coreRestore ring) s = .next (s.after (answerInterim ring.toNat l [] [l.p 0 4] b)) ∧ (b.core (l.p 0 4)).pins.holdN = true ∧
      (b.core (l.p 0 4)).pins.cgN = true ∧ (b.core (l.p 0 4)).ctl.toHold = false ∧ Frame [.cores, .offices] s.blk b) ∧
  (∀ (s : State) (ring : BitVec 6) l, s.released → s.blk.carries ring.toNat 0x403 l → s.blk.inJob = false → (s.blk.hist (l.p 0 4)).fences ≠ 1 →
    exec (.coreRestore ring) s = .next (s.after (answerRefuse ring.toNat l 0x0405 0 s.blk))) ∧
  (∀ (s : State) (ring : BitVec 6) l, s.released → s.blk.carries ring.toNat 0x404 l → l.p 0 1 < 16 → s.blk.capturing = false →
    (s.blk.courier (l.p 0 1)).powered = true → (s.blk.courier (l.p 0 1)).domFail = false →
    exec (.testCourier ring true) s = .next (s.after (answerWhole ring.toNat l [] 0 0 [] (enablePort (l.p 0 1)
      ((advTo (s.blk.now + 1000000) (disablePort (l.p 0 1) s.blk)).modCourier (l.p 0 1) (fun c => { c with portFail := false })))))) ∧
  (∀ (s : State) (ring : BitVec 6) l, s.released → s.blk.carries ring.toNat 0x404 l → l.p 0 1 < 16 → s.blk.capturing = false →
    (s.blk.courier (l.p 0 1)).powered = true → (s.blk.courier (l.p 0 1)).domFail = false →
    exec (.testCourier ring false) s = .next (s.after (answerWhole ring.toNat l [] 0x0602 0 []
      ((advTo (s.blk.now + 1000000) (disablePort (l.p 0 1) s.blk)).modCourier (l.p 0 1) (fun c => { c with portFail := true }))))) ∧
  (∀ (s : State) (ring : BitVec 6) l, s.released → s.blk.carries ring.toNat 0x405 l → s.blk.populated (l.p 0 1) = true →
    exec (.officeSwap ring) s = .next (s.after (answerInterim ring.toNat l [] [l.p 0 1]
      (s.blk.modOffice (l.p 0 1) (fun o => { o with swapWait := true }))))) ∧
  (∀ (s : State) (ring : BitVec 6) pp tp l b, s.released → s.blk.carries ring.toNat 0x406 l → s.blk.inJob = false → l.p 0 1 < 16 →
    b = courierTested (l.p 0 1) pp tp ((portStop (l.p 0 1) s.blk).setCourier (l.p 0 1) { linkUp := ((portStop (l.p 0 1) s.blk).courier (l.p 0 1)).linkUp }) →
    exec (.courierPower ring pp tp) s = .next (s.after (answerWhole ring.toNat l [] 0 0
      (le 1 (if (b.courier (l.p 0 1)).domFail then 2 else if (b.courier (l.p 0 1)).portFail then 1 else 0)) b)))
/-- R17, R314, R329, R330, R373, R374, R386 to R391, R415, R416, R445: the letters of the network-table and parcel groups. -/
def Obligations.NetworkAndParcelLetters : Prop :=
  (∀ (s : State) (ring : BitVec 6) l, s.released → s.blk.carries ring.toNat 0x501 l → s.blk.inJob = false → (∀ r, r < 8 → l.p r 1 ≠ 0) →
    fleetSize ((List.range 8).map (fun r => l.p r 1)) ≤ 32768 → ((List.range 8).map (fun r => l.p r 1)).foldl (fun a x => a + x / 2) 0 ≤ 24 →
    l.p 8 2 < fleetSize ((List.range 8).map (fun r => l.p r 1)) →
    ∃ b, exec (.fleetRings ring) s = .next (s.after (answerOk ring.toNat l (le 2 b.ringSig) b)) ∧
      b.ho.fleet = { s.blk.ho.fleet with len := (List.range 8).map (fun r => l.p r 1) } ∧
      b.ho.mgmt = { s.blk.ho.mgmt with wafer := BitVec.ofNat 15 (l.p 8 2), waferVld := true } ∧ Frame [.fleet, .mgmt] s.blk b) ∧
  (∀ (s : State) (ring : BitVec 6) l, s.released → s.blk.carries ring.toNat 0x502 l → s.blk.capturing = false →
    exec (.courierEnable ring) s = .next (s.after (answerOk ring.toNat l (le 2 ((crEnable (l.p 0 2) s.blk).crMask (·.en))) (crEnable (l.p 0 2) s.blk)))) ∧
  (∀ (s : State) (ring : BitVec 6) l, s.released → s.blk.carries ring.toNat 0x502 l → s.blk.capturing = true →
    exec (.courierEnable ring) s = .next (s.after (answerRefuse ring.toNat l 0x0307 0 s.blk))) ∧
  (∀ (s : State) (ring : BitVec 6) l, s.released → s.blk.carries ring.toNat 0x503 l → 1 ≤ l.p 2 1 → l.p 2 1 ≤ 6 →
    exec (.partnerQuery ring) s = .next (s.after (answerOk ring.toNat l
      (le 1 ((s.blk.ho.fleet.partners.filter (fun p => decide (l.p 0 2 ≤ p.1))).take (l.p 2 1)).length ++ [0, 0, 0] ++
        ((s.blk.ho.fleet.partners.filter (fun p => decide (l.p 0 2 ≤ p.1))).take (l.p 2 1)).flatMap (fun p => le 32 (s.blk.partnerEntry p.1 p.2))) s.blk))) ∧
  (∀ (s : State) (ring : BitVec 6) l, s.released → s.blk.carries ring.toNat 0x601 l → s.blk.inJob = false → s.blk.ho.job.man = none →
    l.p 0 2 = 0 ∨ (5 ≤ l.p 0 2 ∧ l.p 0 2 ≤ 1440) → 1 ≤ l.p 2 1 → l.p 2 1 ≤ 8 → l.p 4 4 % 1000 = 0 → l.p 4 4 ≤ 45000000 →
    exec (.parcelPolicy ring) s = .next (s.after (answerOk ring.toNat l [] (s.blk.modPolicy (fun p => { p with
      interval := l.p 0 2, attempts := l.p 2 1, tStop := l.p 4 4 }))))) ∧
  (∀ (s : State) (ring : BitVec 6) l, s.released → s.blk.carries ring.toNat 0x602 l →
    exec (.holderCap ring) s = .next (s.after (answerOk ring.toNat l [] (s.blk.modPolicy (fun p => { p with holderCap := l.p 0 2 }))))) ∧
  (∀ (s : State) (ring : BitVec 6) l, s.released → s.blk.carries ring.toNat 0x610 l →
    s.blk.ledger.holds.find? (fun h => decide (h.holdee = l.holdee) && decide (h.gen = l.p 0 4) && !h.committed) = none →
    s.blk.pagesHeld + l.p 8 4 ≤ s.blk.ho.policy.holderCap * 262144 →
    ∃ base b, exec (.parcelReserve ring) s = .next (s.after (answerOk ring.toNat l (le 8 base) b)) ∧ base % 65536 = 0 ∧
      b.ledger.holds = s.blk.ledger.holds ++ [{ holdee := l.holdee, gen := l.p 0 4, epoch := l.p 4 2, base := base, pages := l.p 8 4, since := s.blk.now }] ∧
      Frame [.ledger, .free] s.blk b) ∧
  (∀ (s : State) (ring : BitVec 6) l, s.released → s.blk.carries ring.toNat 0x610 l →
    s.blk.ledger.holds.find? (fun h => decide (h.holdee = l.holdee) && decide (h.gen = l.p 0 4) && !h.committed) = none →
    s.blk.ho.policy.holderCap * 262144 < s.blk.pagesHeld + l.p 8 4 →
    exec (.parcelReserve ring) s = .next (s.after (answerRefuse ring.toNat l 0x0500 0 s.blk))) ∧
  (∀ (s : State) (ring : BitVec 6) l h, s.released → s.blk.carries ring.toNat 0x611 l →
    s.blk.ledger.holds.find? (fun h => decide (h.holdee = l.holdee) && decide (h.gen = l.p 0 4)) = some h → h.epoch = l.p 4 2 → h.pages = l.p 8 4 →
    h.committed = false →
    exec (.parcelCommit ring) s = .next (s.after (answerOk ring.toNat l [] (s.blk.modLedger (fun d => { d with
      holds := d.holds.map (fun (x : HoldRec) => if x.holdee = l.holdee ∧ x.gen = h.gen then
        { x with root := BitVec.ofNat 384 (l.p 12 48), committed := true } else x) }))))) ∧
  (∀ (s : State) (ring : BitVec 6) l hs, s.released → s.blk.carries ring.toNat 0x612 l →
    hs = s.blk.ledger.holds.filter (fun h => decide (h.holdee = l.p 0 2) && h.committed) →
    exec (.parcelQuery ring) s = .next (s.after (answerParts ring.toNat l ((List.range (max 1 (ceilDiv hs.length 3))).map (fun i =>
      le 1 (slice hs (3 * i) 3).length ++ [0, 0, 0] ++ (slice hs (3 * i) 3).flatMap holdBytes)) s.blk))) ∧
  (∀ (s : State) (ring : BitVec 6) l, s.released → s.blk.carries ring.toNat 0x613 l →
    ∃ b, exec (.parcelRelease ring) s = .next (s.after (answerOk ring.toNat l [] b)) ∧
      b.ledger.holds = s.blk.ledger.holds.filter (fun h => !(decide (h.holdee = l.p 0 2) && decide (h.gen = l.p 4 4))) ∧
      Frame [.ledger, .parcel] s.blk b) ∧
  (∀ (s : State) (ring : BitVec 6) a l root, s.released → s.blk.carries ring.toNat 0x620 l → s.blk.ho.job.man.isSome = true → s.blk.inJob = false →
    chooseRoot (if l.p 0 2 = s.blk.wafer then ((s.blk.ledger.gens.find? (fun g => decide (g.gen = l.p 4 4))).map (·.root)).getD 0
      else BitVec.ofNat 384 (l.p 12 48)) a.root1 a.root2 = .use root [false, true] false false →
    (List.range 16).any (fun p => s.blk.portUp p) = true → sha384v a.head1.flatten = root → restoreMapOk s.blk a.head1.flatten a.records = true →
    (∀ i, i < (pageKinds a.head1.flatten).length → pageWhole a.head1.flatten i (a.data1.getD i []) = true ∨
      pageWhole a.head1.flatten i (a.data2.getD i []) = true) →
    (∀ i, i < (pageKinds a.head1.flatten).length → lnat (pageKinds a.head1.flatten) i ≠ 4 → pageWhole a.head1.flatten i (a.back1.getD i []) = true) →
    exec (.parcelRestore ring a) s = .next (s.after (answerWhole ring.toNat l [] 0x0002 0 (le 4 (rd a.head1.flatten 16 4) ++ le 4 (rd a.head1.flatten 20 4))
      (applyRestore a (rd a.head1.flatten 16 4) s.blk)))) ∧
  (∀ (s : State) (ring : BitVec 6) a l d, s.released → s.blk.carries ring.toNat 0x620 l → s.blk.ho.job.man.isSome = true → s.blk.inJob = false →
    chooseRoot (if l.p 0 2 = s.blk.wafer then ((s.blk.ledger.gens.find? (fun g => decide (g.gen = l.p 4 4))).map (·.root)).getD 0
      else BitVec.ofNat 384 (l.p 12 48)) a.root1 a.root2 = .fail d →
    exec (.parcelRestore ring a) s = .next (s.after (answerWhole ring.toNat l [] 0x0601 d [] s.blk)))

/-- R356, R359, R363, R365, R417, R422 to R425: the letters of the reset and image groups. -/
def Obligations.ResetAndImageLetters : Prop :=
  (∀ (s : State) (ring : BitVec 6) l, s.released → s.blk.carries ring.toNat 0x701 l → s.blk.escalates = false →
    exec (.warmReset ring) s = .next (s.after (answerInterim ring.toNat l [] [] (startWarm 1 s.blk)))) ∧
  (∀ (s : State) (ring : BitVec 6) l, s.released → s.blk.carries ring.toNat 0x701 l → s.blk.escalates = true →
    exec (.warmReset ring) s = .next (s.after (answerWhole ring.toNat l [] 0x0302 0 [] (startWarm 1 s.blk)))) ∧
  (∀ (s : State) (ring : BitVec 6) l, s.released → s.blk.carries ring.toNat 0x702 l →
    exec (.coldReset ring) s = .next (s.after (startCold 4 (answerOk ring.toNat l [] s.blk)))) ∧
  (∀ (s : State) (ring : BitVec 6) l, s.released → s.blk.carries ring.toNat 0x703 l → s.blk.inJob = false → 1 ≤ l.p 0 1 → l.p 0 1 ≤ 15 → l.p 1 1 ≤ 1 →
    1 ≤ l.p 2 2 → l.p 2 2 ≤ 1440 →
    ∃ b, exec (.resetPolicy ring) s = .next (s.after (answerOk ring.toNat l [] b)) ∧ b.ho.policy = { s.blk.ho.policy with
        resetCount := l.p 0 1, autoWarm := decide (l.p 1 1 = 1), resetWindow := l.p 2 2 } ∧
      b.ho.resets.inWindow = b.recordsIn s.blk.ho.resets.warmAt ∧ b.ho.resets.warmAt = s.blk.ho.resets.warmAt ∧ Frame [.policy, .resets] s.blk b) ∧
  (∀ (s : State) (ring : BitVec 6) data l d c b, s.released → s.blk.carries ring.toNat 0x901 l → s.blk.inJob = false → l.p 8 4 % 16 = 0 →
    l.p 8 4 ≤ 786432 → l.p 80 1 ≤ 1 → s.blk.cfg = some c → c.images = true → s.blk.hostRead data (l.p 8 4) = some d →
    sha384v d = BitVec.ofNat 384 (l.p 16 48) → s.blk.outOp 0x901 = false →
    b = answerInterim ring.toNat l [] [] ((clearImages s.blk).modImage (fun _ => {
      active := true
      bytes := d
      digest := sha384v d
      imageId := BitVec.ofNat 16 l.seq
      round := 1
      regions := BitVec.ofNat 128 (l.p 64 16 &&& (clearImages s.blk).regionMask)
      targets := (clearImages s.blk).imageTargets (BitVec.ofNat 128 (l.p 64 16 &&& (clearImages s.blk).regionMask)) (decide (l.p 80 1 = 1)) })) →
    exec (.imageLoad ring data) s = .next (s.after (if b.outOp 0x901 then imgCheck b else b))) ∧
  (∀ (s : State) (ring : BitVec 6) l, s.released → s.blk.carries ring.toNat 0x902 l →
    exec (.imageStatus ring) s = .next (s.after (answerOk ring.toNat l (le 4 s.blk.ho.image.packets ++ le 4 s.blk.imgCounts.1 ++
      le 4 s.blk.imgCounts.2 ++ le 1 s.blk.ho.image.round) s.blk))) ∧
  (∀ (s : State) (ring : BitVec 6) l, s.released → s.blk.carries ring.toNat 0x903 l → s.blk.ho.image.active = true →
    exec (.imageAbort ring) s = .next (s.after (answerOk ring.toNat l [] (finishOp 0x901 0x0604 0 [] (s.blk.modImage (fun x => { x with
      active := false })))))) ∧
  (∀ (s : State) (ring : BitVec 6) l, s.released → s.blk.carries ring.toNat 0x903 l → s.blk.ho.image.active = false →
    exec (.imageAbort ring) s = .next (s.after (answerOk ring.toNat l [] s.blk)))
/-- R418, R462 to R468, R472: the letters of the debug group and the trace trigger. -/
def Obligations.DebugCommands : Prop :=
  (∀ (s : State) (ring : BitVec 6) l, s.released → s.blk.carries ring.toNat 0x801 l → l.p 0 4 ≤ l.p 4 4 → l.p 4 4 < 2 ^ 20 → l.p 8 1 ≤ 15 →
    counterCode (l.p 10 2) = true →
    exec (.counterSelect ring) s = .next (s.after (answerOk ring.toNat l [] (forEach
      (s.blk.liveCores.filter (fun i => decide (l.p 0 4 ≤ i) && decide (i ≤ l.p 4 4))) (selectCounter (l.p 8 1) (l.p 10 2)) s.blk)))) ∧
  (∀ (s : State) (ring : BitVec 6) l, s.released → s.blk.carries ring.toNat 0x802 l → s.blk.present (l.p 0 4) = true → (s.blk.core (l.p 0 4)).porN = true →
    exec (.counterRead ring) s = .next (s.after (answerOk ring.toNat l (s.blk.counterBytes (l.p 0 4)) s.blk))) ∧
  (∀ (s : State) (ring : BitVec 6) l, s.released → s.blk.carries ring.toNat 0x803 l → fld (l.p 0 8) 10 2 ≠ 3 →
    ∃ b res, exec (.traceControl ring) s = .next (s.after (answerOk ring.toNat l res b)) ∧ b.dbg.ctrl = BitVec.ofNat 64 (l.p 0 8) ∧
      b.dbg.state = (if bit (l.p 0 8) 0 then 1 else 0) ∧ b.dbg.trace = (if bit (l.p 0 8) 48 then [] else s.blk.dbg.trace) ∧ b.dbg.trig = none ∧
      Frame [.dbg] s.blk b) ∧
  (∀ (s : State) k, s.released → s.blk.dbg.matched = some k → fld s.blk.dbg.ctrl.toNat 10 2 ≠ 2 →
    exec .traceTrigger s = .next (s.after (hoEvent evTraceTrigger [] (s.blk.modDebug (fun d => { d with trig := some k, matched := none }))))) ∧
  (∀ (s : State) k b, s.released → s.blk.dbg.matched = some k → fld s.blk.dbg.ctrl.toNat 10 2 = 2 → s.blk.stop.stopped = false →
    b = hoEvent evTraceTrigger [] (s.blk.modDebug (fun d => { d with trig := some k, matched := none })) →
    exec .traceTrigger s = .next (s.after (originate .stopCtrl b))) ∧
  (∀ (s : State) (ring : BitVec 6) l size es bytes pieces res b, s.released → s.blk.carries ring.toNat 0x804 l →
    s.blk.exportEntries (l.p 0 1) = some (size, es) → l.p 4 8 % 256 = 0 → s.blk.capturing = false → 64 ≤ l.p 12 8 → s.blk.outOp 0x804 = false →
    bytes = s.blk.exportHeader (l.p 0 1) size (min es.length ((l.p 12 8 - 64) / size)) (es.take (min es.length ((l.p 12 8 - 64) / size))).flatten ++
      (es.take (min es.length ((l.p 12 8 - 64) / size))).flatten →
    pieces = cutPieces (bytes.length / 65536 + 2) 0 (l.p 4 8) bytes →
    res = le 4 (min es.length ((l.p 12 8 - 64) / size)) ++ le 1 (b01 (decide (min es.length ((l.p 12 8 - 64) / size) < es.length))) ++ [0, 0, 0] ++ le 8 bytes.length →
    b = answerInterim ring.toNat l [] [] (s.blk.modDebug (fun d => { d with
      exporting := some res, exportLeft := pieces.length, exportTodo := pieces })) →
    b.outOp 0x804 = true → b.dbg.exporting = some res → b.dbg.exportLeft ≠ 0 →
    exec (.exportData ring) s = .next (s.after (pumpExport 1024 b)))

/-- What the bring-up and power-wave commands (R252 to R259, R339 to R344) leave alone: every part of the block that is not listed is the same after. -/
def Obligations.BringUpFrames : Prop :=
  (∀ (s t : State) x0 x1, exec (.postmarkDomainTestDone x0 x1) s = .next t →
    Frame [.outs, .pm, .svc, .ledger, .dbg, .letters, .free, .mgmt, .mail, .job, .parcel, .post, .bm, .cores, .offices, .routers, .couriers] s.blk t.blk) ∧
  (∀ (s t : State) x0 x1 x2 x3, exec (.headOfficeTestDone x0 x1 x2 x3) s = .next t →
    Frame [.outs, .svc, .ledger, .dbg, .letters, .mgmt, .mail, .job, .parcel, .post, .cores] s.blk t.blk) ∧
  (∀ (s t : State) x0 x1, exec (.configurationCheck x0 x1) s = .next t →
    Frame [.outs, .svc, .cfg, .dbg, .letters, .mgmt, .mail] s.blk t.blk) ∧
  (∀ (s t : State) x0 x1, exec (.ledgerReloadDone x0 x1) s = .next t →
    Frame [.svc, .ledger, .arch, .letters, .bm, .offices] s.blk t.blk) ∧
  (∀ (s t : State) x0 x1 x2 x3, exec (.officeMemberTestDone x0 x1 x2 x3) s = .next t →
    Frame [.pm, .ledger, .dbg, .letters, .free, .mgmt, .mail, .post, .bm, .cores, .offices, .routers, .nodes, .couriers] s.blk t.blk) ∧
  (∀ (s t : State) x0 x1 x2, exec (.routerLoopbackDone x0 x1 x2) s = .next t →
    Frame [.ledger, .post, .bm, .cores, .offices, .routers] s.blk t.blk) ∧
  (∀ (s t : State) x0 x1 x2, exec (.courierDomainTestDone x0 x1 x2) s = .next t →
    Frame [.ledger, .stop, .dbg, .free, .mgmt, .mail, .fleet, .parcel, .post, .cores, .offices, .routers, .couriers] s.blk t.blk) ∧
  (∀ (s t : State) x0, exec (.officeLedgerDelivered x0) s = .next t →
    Frame [.ledger, .stop, .dbg, .mgmt, .mail, .job, .bm, .cores, .offices] s.blk t.blk) ∧
  (∀ (s t : State), exec .waveRequest s = .next t →
    Frame [.outs, .pm, .svc, .letters] s.blk t.blk) ∧
  (∀ (s t : State), exec .waveAck s = .next t →
    Frame [.outs, .pm, .svc, .keys, .cfg, .ledger, .arch, .stop, .dbg, .letters, .mgmt, .mail, .job, .policy, .resets, .fleet, .parcel, .image, .post, .bm, .cores, .offices, .routers, .nodes, .couriers] s.blk t.blk) ∧
  (∀ (s t : State), exec .waveFail s = .next t →
    Frame [.outs, .pm, .svc, .keys, .cfg, .ledger, .arch, .stop, .dbg, .letters, .mgmt, .mail, .job, .policy, .resets, .fleet, .parcel, .image, .post, .bm, .cores, .offices, .routers, .nodes, .couriers] s.blk t.blk) ∧
  (∀ (s t : State), exec .waveTimeout s = .next t →
    Frame [.outs, .pm, .svc, .keys, .cfg, .ledger, .arch, .stop, .dbg, .letters, .mgmt, .mail, .job, .policy, .resets, .fleet, .parcel, .image, .post, .bm, .cores, .offices, .routers, .nodes, .couriers] s.blk t.blk) ∧
  (∀ (s t : State), exec .boardMapPublication s = .next t →
    Frame [.svc, .ledger, .stop, .dbg, .letters, .mgmt, .mail, .post, .bm, .offices] s.blk t.blk)

/-- What the Core Tap Port commands (R48 to R83, R160 to R184, R348, R349) leave alone: every part of the block that is not listed is the same after. -/
def Obligations.CoreTapFrames : Prop :=
  (∀ (s t : State) x0, exec (.corePorAssert x0) s = .next t →
    Frame [.cores] s.blk t.blk) ∧
  (∀ (s t : State) x0 x1 x2, exec (.corePorRelease x0 x1 x2) s = .next t →
    Frame [.ledger, .dbg, .mgmt, .mail, .bm, .cores, .offices] s.blk t.blk) ∧
  (∀ (s t : State) x0 x1, exec (.alignmentEpochCheck x0 x1) s = .next t →
    Frame [.pm, .ledger, .letters, .bm, .cores, .offices] s.blk t.blk) ∧
  (∀ (s t : State) x0, exec (.clockChangeDeclared x0) s = .next t →
    Frame [.cores] s.blk t.blk) ∧
  (∀ (s t : State) x0, exec (.clockChangeEnded x0) s = .next t →
    Frame [.cores] s.blk t.blk) ∧
  (∀ (s t : State) x0 x1, exec (.weightBeat x0 x1) s = .next t →
    Frame [.cores, .offices] s.blk t.blk) ∧
  (∀ (s t : State) x0 x1, exec (.activationBeat x0 x1) s = .next t →
    Frame [.cores, .offices] s.blk t.blk) ∧
  (∀ (s t : State) x0 x1, exec (.accumulatorDrain x0 x1) s = .next t →
    Frame [.free, .cores, .offices] s.blk t.blk) ∧
  (∀ (s t : State) x0, exec (.rowCompare x0) s = .next t →
    Frame [.cores, .offices] s.blk t.blk) ∧
  (∀ (s t : State) x0 x1, exec (.outputBeat x0 x1) s = .next t →
    Frame [.cores, .offices] s.blk t.blk) ∧
  (∀ (s t : State) x0, exec (.saturationPulse x0) s = .next t →
    Frame [.cores] s.blk t.blk) ∧
  (∀ (s t : State) x0 x1, exec (.flushSticky x0 x1) s = .next t →
    Frame [.cores] s.blk t.blk) ∧
  (∀ (s t : State) x0 x1, exec (.tileVerdict x0 x1) s = .next t →
    Frame [.post, .cores, .offices, .routers, .couriers] s.blk t.blk) ∧
  (∀ (s t : State) x0, exec (.coreSummary x0) s = .next t →
    Frame [.post, .cores, .offices, .routers, .couriers] s.blk t.blk) ∧
  (∀ (s t : State) x0 x1 x2, exec (.milestone x0 x1 x2) s = .next t →
    Frame [.pm, .ledger, .stop, .dbg, .letters, .mgmt, .mail, .job, .post, .bm, .cores, .offices, .routers, .couriers] s.blk t.blk) ∧
  (∀ (s t : State) x0, exec (.stall x0) s = .next t →
    Frame [.pm, .letters, .post, .cores, .offices, .routers, .couriers] s.blk t.blk) ∧
  (∀ (s t : State) x0 x1 x2, exec (.waitBegin x0 x1 x2) s = .next t →
    Frame [.post, .cores, .offices, .routers, .couriers] s.blk t.blk) ∧
  (∀ (s t : State) x0, exec (.waitClear x0) s = .next t →
    Frame [.post, .cores, .offices, .routers, .couriers] s.blk t.blk) ∧
  (∀ (s t : State) x0 x1, exec (.shadowDescriptorRead x0 x1) s = .next t →
    Frame [.post, .cores, .offices, .routers, .couriers] s.blk t.blk) ∧
  (∀ (s t : State) x0 x1, exec (.fenceOrder x0 x1) s = .next t →
    Frame [.cores] s.blk t.blk) ∧
  (∀ (s t : State) x0, exec (.fenceAck x0) s = .next t →
    Frame [.cores] s.blk t.blk) ∧
  (∀ (s t : State) x0, exec (.fenceTimeout x0) s = .next t →
    Frame [.cores, .offices] s.blk t.blk) ∧
  (∀ (s t : State) x0, exec (.coreRelease x0) s = .next t →
    Frame [.cores] s.blk t.blk) ∧
  (∀ (s t : State) x0, exec (.testRequest x0) s = .next t →
    Frame [.ledger, .stop, .dbg, .mgmt, .mail, .job, .post, .bm, .cores, .offices] s.blk t.blk) ∧
  (∀ (s t : State) x0, exec (.testAck x0) s = .next t →
    Frame [.cores] s.blk t.blk) ∧
  (∀ (s t : State) x0 x1 x2, exec (.testDone x0 x1 x2) s = .next t →
    Frame [.ledger, .stop, .dbg, .mgmt, .mail, .job, .post, .bm, .cores, .offices] s.blk t.blk) ∧
  (∀ (s t : State) x0, exec (.testTimeout x0) s = .next t →
    Frame [.ledger, .stop, .dbg, .mgmt, .mail, .job, .post, .bm, .cores, .offices] s.blk t.blk) ∧
  (∀ (s t : State) x0 x1 x2, exec (.captureRequest x0 x1 x2) s = .next t →
    Frame [.cores] s.blk t.blk) ∧
  (∀ (s t : State) x0, exec (.captureAck x0) s = .next t →
    Frame [.cores] s.blk t.blk) ∧
  (∀ (s t : State) x0 x1 x2, exec (.captureBeat x0 x1 x2) s = .next t →
    Frame [.cores, .offices] s.blk t.blk) ∧
  (∀ (s t : State) x0, exec (.captureTimeout x0) s = .next t →
    Frame [.cores, .offices] s.blk t.blk) ∧
  (∀ (s t : State) x0, exec (.captureClose x0) s = .next t →
    Frame [.ledger, .stop, .dbg, .free, .mgmt, .mail, .job, .parcel, .post, .cores, .offices, .routers, .couriers] s.blk t.blk)

/-- What the Intake, Egress, Frank and Courier port commands (R91 to R109, R316 to R324) leave alone: every part of the block that is not listed is the same after. -/
def Obligations.TapAndCourierFrames : Prop :=
  (∀ (s t : State) x0 x1, exec (.intakeBeat x0 x1) s = .next t →
    Frame [.dbg, .mgmt, .mail, .couriers] s.blk t.blk) ∧
  (∀ (s t : State) x0 x1, exec (.egressInputBeat x0 x1) s = .next t →
    Frame [.dbg, .mgmt, .mail, .couriers] s.blk t.blk) ∧
  (∀ (s t : State) x0 x1, exec (.egressOutputBeat x0 x1) s = .next t →
    Frame [.dbg, .mgmt, .mail, .couriers] s.blk t.blk) ∧
  (∀ (s t : State) x0 x1, exec (.egressStepEnd x0 x1) s = .next t →
    Frame [.post, .cores, .offices, .routers, .couriers] s.blk t.blk) ∧
  (∀ (s t : State), exec .frankPresent s = .next t →
    Frame [.pm, .stop, .dbg, .letters, .mgmt, .mail, .job, .couriers] s.blk t.blk) ∧
  (∀ (s t : State) x0, exec (.frankAccept x0) s = .next t →
    Frame [.couriers] s.blk t.blk) ∧
  (∀ (s t : State) x0, exec (.crLinkUp x0) s = .next t →
    Frame [.dbg, .parcel, .couriers] s.blk t.blk) ∧
  (∀ (s t : State) x0, exec (.crLinkDown x0) s = .next t →
    Frame [.ledger, .stop, .dbg, .free, .mgmt, .mail, .fleet, .parcel, .post, .cores, .offices, .routers, .couriers] s.blk t.blk) ∧
  (∀ (s t : State) x0 x1 x2, exec (.crWriteResponse x0 x1 x2) s = .next t →
    Frame [.ledger, .stop, .dbg, .free, .mgmt, .mail, .fleet, .parcel, .post, .couriers] s.blk t.blk) ∧
  (∀ (s t : State) x0 x1 x2 x3 x4 x5, exec (.crReadBeat x0 x1 x2 x3 x4 x5) s = .next t →
    Frame [.ledger, .stop, .dbg, .free, .mgmt, .mail, .fleet, .parcel, .post, .couriers] s.blk t.blk) ∧
  (∀ (s t : State) x0 x1, exec (.crFlitTransmit x0 x1) s = .next t →
    Frame [.post, .cores, .offices, .routers, .couriers] s.blk t.blk) ∧
  (∀ (s t : State) x0 x1, exec (.crCreditReturn x0 x1) s = .next t →
    Frame [.couriers] s.blk t.blk) ∧
  (∀ (s t : State) x0 x1 x2, exec (.crFlitReceive x0 x1 x2) s = .next t →
    Frame [.dbg, .mgmt, .mail, .couriers] s.blk t.blk) ∧
  (∀ (s t : State) x0 x1, exec (.fleetPacketReceive x0 x1) s = .next t →
    Frame [.dbg, .mgmt, .mail, .fleet, .post, .cores, .offices, .routers, .couriers] s.blk t.blk) ∧
  (∀ (s t : State) x0, exec (.transitSlotReport x0) s = .next t →
    Frame [.post, .cores, .offices, .routers, .couriers] s.blk t.blk) ∧
  (∀ (s t : State) x0 x1 x2, exec (.transitLost x0 x1 x2) s = .next t →
    Frame [.pm, .dbg, .letters, .mgmt, .mail, .fleet, .couriers] s.blk t.blk)

/-- What the reset, supply, self-check, Postmark and stop commands (R87 to R90, R117, R118, R126 to R128, R133 to R154, R355 to R364, R452 to R459) leave alone: every part of the block that is not listed is the same after. -/
def Obligations.ResetAndStopFrames : Prop :=
  (∀ (s t : State), exec .hostDone s = .next t →
    Frame [.outs, .svc, .dbg, .letters, .mgmt, .mail] s.blk t.blk) ∧
  (∀ (s t : State), exec .externalResetRequest s = .next t →
    Frame [.outs, .pm, .svc, .keys, .cfg, .ledger, .arch, .stop, .dbg, .letters, .mgmt, .mail, .job, .policy, .resets, .fleet, .parcel, .image, .post, .bm, .cores, .offices, .routers, .nodes, .couriers] s.blk t.blk) ∧
  (∀ (s t : State) x0, exec (.syncPulse x0) s = .next t →
    Frame [.outs, .pm, .ledger, .stop, .dbg, .letters, .mgmt, .mail, .job, .parcel, .post, .bm, .cores, .offices] s.blk t.blk) ∧
  (∀ (s t : State), exec .syncMissing s = .next t →
    Frame [.pm, .dbg, .letters, .mgmt, .mail] s.blk t.blk) ∧
  (∀ (s t : State), exec .refLost s = .next t →
    Frame [.outs, .svc, .ledger, .dbg, .letters, .mgmt, .mail, .job, .parcel, .cores] s.blk t.blk) ∧
  (∀ (s t : State) x0, exec (.legRemeasure x0) s = .next t →
    Frame [.pm, .dbg, .letters, .free, .mgmt, .mail] s.blk t.blk) ∧
  (∀ (s t : State) x0 x1 x2 x3, exec (.powerIdValid x0 x1 x2 x3) s = .next t →
    Frame [.env, .svc, .dbg, .letters, .mgmt, .mail, .fleet, .parcel, .post] s.blk t.blk) ∧
  (∀ (s t : State) x0 x1, exec (.regionVokFall x0 x1) s = .next t →
    Frame [.env, .ledger, .dbg, .mgmt, .mail, .post, .bm, .cores, .offices] s.blk t.blk) ∧
  (∀ (s t : State) x0, exec (.testWindow x0) s = .next t →
    Frame [.ledger, .dbg, .mgmt, .mail, .post, .bm, .cores, .offices] s.blk t.blk) ∧
  (∀ (s t : State), exec .shutdownRequest s = .next t →
    Frame [.env, .outs, .pm, .svc, .ledger, .arch, .stop, .dbg, .letters, .mgmt, .mail, .job, .parcel, .post, .cores] s.blk t.blk) ∧
  (∀ (s t : State) x0, exec (.archiveDone x0) s = .next t →
    Frame [.outs, .pm, .svc, .keys, .cfg, .ledger, .arch, .stop, .dbg, .letters, .mgmt, .mail, .job, .policy, .resets, .fleet, .parcel, .image, .post, .bm, .cores, .offices, .routers, .nodes, .couriers] s.blk t.blk) ∧
  (∀ (s t : State) x0, exec (.stopInput x0) s = .next t →
    Frame [.env, .pm, .ledger, .stop, .letters, .mgmt, .mail, .job, .parcel, .post, .cores] s.blk t.blk) ∧
  (∀ (s t : State), exec .stopOutputPulseEnd s = .next t →
    Frame [.outs, .pm, .stop, .letters] s.blk t.blk) ∧
  (∀ (s t : State), exec .stopCountReached s = .next t →
    Frame [.outs, .pm, .ledger, .stop, .dbg, .letters, .free, .mgmt, .mail, .job, .parcel, .post, .cores] s.blk t.blk) ∧
  (∀ (s t : State), exec .stopReleased s = .next t →
    Frame [.stop, .dbg, .mgmt, .mail, .fleet, .parcel, .post, .cores, .couriers] s.blk t.blk) ∧
  (∀ (s t : State), exec .resumeCountReached s = .next t →
    Frame [.pm, .stop, .dbg, .letters, .mgmt, .mail, .job, .cores] s.blk t.blk) ∧
  (∀ (s t : State), exec .resumeLate s = .next t →
    Frame [.outs, .pm, .ledger, .stop, .dbg, .letters, .mgmt, .mail, .job, .parcel, .post, .cores] s.blk t.blk) ∧
  (∀ (s t : State), exec .launchArmDeadline s = .next t →
    Frame [.outs, .pm, .ledger, .stop, .letters, .mgmt, .mail, .job, .parcel, .post, .cores] s.blk t.blk) ∧
  (∀ (s t : State), exec .launchCountReached s = .next t →
    Frame [.outs, .pm, .ledger, .stop, .dbg, .letters, .free, .mgmt, .mail, .job, .fleet, .parcel, .post, .bm, .cores, .offices] s.blk t.blk) ∧
  (∀ (s t : State), exec .stepBoundary s = .next t →
    Frame [.outs, .pm, .svc, .ledger, .stop, .dbg, .letters, .free, .mgmt, .mail, .job, .resets, .fleet, .parcel, .image, .post, .bm, .cores, .offices, .routers, .couriers] s.blk t.blk) ∧
  (∀ (s t : State), exec .lockstepDisagree s = .next t →
    Frame [.outs, .svc, .ledger, .dbg, .letters, .mgmt, .mail, .job, .parcel, .cores] s.blk t.blk) ∧
  (∀ (s t : State) x0, exec (.sramUncorrectable x0) s = .next t →
    Frame [.outs, .svc, .ledger, .stop, .dbg, .letters, .free, .mgmt, .mail, .job, .fleet, .parcel, .post, .bm, .cores, .offices, .routers, .nodes, .couriers] s.blk t.blk) ∧
  (∀ (s t : State), exec .hostWarmTimeout s = .next t →
    Frame [.outs, .pm, .svc, .keys, .cfg, .ledger, .arch, .stop, .dbg, .letters, .mgmt, .mail, .job, .policy, .resets, .fleet, .parcel, .image, .post, .bm, .cores, .offices, .routers, .nodes, .couriers] s.blk t.blk) ∧
  (∀ (s t : State), exec .hostColdTimeout s = .next t →
    Frame [.outs, .pm, .svc, .ledger, .stop, .dbg, .letters, .mgmt, .mail, .job, .fleet, .parcel, .post, .bm, .cores, .offices] s.blk t.blk) ∧
  (∀ (s t : State), exec .resetWindowExpiry s = .next t →
    Frame [.pm, .letters, .resets] s.blk t.blk)

/-- What the verdict, fill and test-scheduling commands (R192 to R248, R260 to R270, R351 to R354) leave alone: every part of the block that is not listed is the same after. -/
def Obligations.StepFrames : Prop :=
  (∀ (s t : State) x0 x1 x2, exec (.diceFill x0 x1 x2) s = .next t →
    Frame [.dbg, .mgmt, .mail, .post, .cores, .offices, .routers, .couriers] s.blk t.blk) ∧
  (∀ (s t : State) x0 x1, exec (.officeVerdictReceive x0 x1) s = .next t →
    Frame [.ledger, .stop, .dbg, .free, .mgmt, .mail, .job, .fleet, .post, .bm, .cores, .offices, .routers, .couriers] s.blk t.blk) ∧
  (∀ (s t : State) x0 x1, exec (.coreSummaryReceive x0 x1) s = .next t →
    Frame [.offices] s.blk t.blk) ∧
  (∀ (s t : State) x0, exec (.regionVerdictDeadline x0) s = .next t →
    Frame [.outs, .pm, .svc, .ledger, .stop, .dbg, .letters, .free, .mgmt, .mail, .job, .resets, .fleet, .parcel, .image, .post, .bm, .cores, .offices, .routers, .couriers] s.blk t.blk) ∧
  (∀ (s t : State), exec .regionRecordReceive s = .next t →
    Frame [.dbg, .mgmt, .mail, .job, .fleet, .post, .cores, .offices, .routers, .couriers] s.blk t.blk) ∧
  (∀ (s t : State), exec .egressSummaryReceive s = .next t →
    Frame [.dbg, .mgmt, .mail, .job, .fleet, .post, .cores, .offices, .routers, .couriers] s.blk t.blk) ∧
  (∀ (s t : State), exec .stepDecision s = .next t →
    Frame [.outs, .pm, .svc, .ledger, .stop, .dbg, .letters, .free, .mgmt, .mail, .job, .resets, .fleet, .parcel, .image, .post, .bm, .cores, .offices, .routers, .couriers] s.blk t.blk) ∧
  (∀ (s t : State) x0, exec (.decisionReceive x0) s = .next t →
    Frame [.pm, .ledger, .stop, .dbg, .letters, .mgmt, .mail, .job, .offices] s.blk t.blk) ∧
  (∀ (s t : State) x0 x1 x2, exec (.fillPhaseComplete x0 x1 x2) s = .next t →
    Frame [.ledger, .stop, .dbg, .mgmt, .mail, .job, .bm, .cores, .offices] s.blk t.blk) ∧
  (∀ (s t : State) x0 x1, exec (.fillTimeout x0 x1) s = .next t →
    Frame [.pm, .ledger, .stop, .dbg, .letters, .mgmt, .mail, .job, .offices] s.blk t.blk) ∧
  (∀ (s t : State), exec .cleanHour s = .next t →
    Frame [.pm, .ledger, .dbg, .letters, .mgmt, .mail, .job, .bm, .offices] s.blk t.blk) ∧
  (∀ (s t : State), exec .waitGraphBuild s = .next t →
    Frame [.outs, .pm, .svc, .ledger, .stop, .dbg, .letters, .free, .mgmt, .mail, .job, .resets, .fleet, .parcel, .image, .post, .bm, .cores, .offices] s.blk t.blk) ∧
  (∀ (s t : State) x0 x1, exec (.stallEventReceive x0 x1) s = .next t →
    Frame [.job, .post, .cores, .offices, .routers, .couriers] s.blk t.blk) ∧
  (∀ (s t : State) x0, exec (.eventForward x0) s = .next t →
    Frame [.pm, .dbg, .letters, .mgmt, .mail, .offices] s.blk t.blk) ∧
  (∀ (s t : State) x0, exec (.testUnitPlace x0) s = .next t →
    Frame [.pm, .ledger, .dbg, .letters, .mgmt, .mail, .post, .cores, .offices] s.blk t.blk) ∧
  (∀ (s t : State) x0, exec (.standbyPeriod x0) s = .next t →
    Frame [.pm, .letters, .offices] s.blk t.blk) ∧
  (∀ (s t : State) x0, exec (.standbyCopyDone x0) s = .next t →
    Frame [.offices] s.blk t.blk) ∧
  (∀ (s t : State) x0, exec (.plannedSwap x0) s = .next t →
    Frame [.pm, .ledger, .letters, .mgmt, .mail, .post, .offices, .routers, .nodes] s.blk t.blk) ∧
  (∀ (s t : State) x0 x1, exec (.routerRound x0 x1) s = .next t →
    Frame [.pm, .ledger, .letters, .post, .bm, .cores, .offices, .routers, .nodes, .couriers] s.blk t.blk) ∧
  (∀ (s t : State) x0, exec (.officePrimaryFail x0) s = .next t →
    Frame [.ledger, .dbg, .mgmt, .mail, .job, .bm, .cores, .offices, .routers, .nodes] s.blk t.blk) ∧
  (∀ (s t : State) x0 x1, exec (.standbyTestDone x0 x1) s = .next t →
    Frame [.dbg, .mgmt, .mail, .offices] s.blk t.blk)

/-- What the Post Network and fleet message commands (R276 to R336) leave alone: every part of the block that is not listed is the same after. -/
def Obligations.NetworkAndFleetFrames : Prop :=
  (∀ (s t : State) x0, exec (.routerFrame x0) s = .next t →
    Frame [.outs, .svc, .ledger, .dbg, .letters, .mgmt, .mail, .job, .post, .bm, .cores, .offices, .routers, .nodes, .couriers] s.blk t.blk) ∧
  (∀ (s t : State) x0 x1, exec (.seamDeliver x0 x1) s = .next t →
    Frame [.nodes] s.blk t.blk) ∧
  (∀ (s t : State) x0 x1, exec (.terminalReceive x0 x1) s = .next t →
    Frame [.outs, .svc, .ledger, .stop, .dbg, .letters, .mgmt, .mail, .job, .fleet, .parcel, .post, .bm, .cores, .offices, .routers, .nodes, .couriers] s.blk t.blk) ∧
  (∀ (s t : State) x0, exec (.returnedReceive x0) s = .next t →
    Frame [.dbg, .mgmt, .mail, .post, .cores, .offices, .routers, .couriers] s.blk t.blk) ∧
  (∀ (s t : State) x0, exec (.resendTimer x0) s = .next t →
    Frame [.post, .cores, .offices, .routers, .couriers] s.blk t.blk) ∧
  (∀ (s t : State) x0 x1, exec (.congestionSample x0 x1) s = .next t →
    Frame [.pm, .letters, .post, .cores, .offices, .routers, .couriers] s.blk t.blk) ∧
  (∀ (s t : State) x0, exec (.regionMapSend x0) s = .next t →
    Frame [.pm, .letters, .post, .cores, .offices, .routers, .couriers] s.blk t.blk) ∧
  (∀ (s t : State), exec .waferMapBroadcast s = .next t →
    Frame [.pm, .letters, .post, .offices] s.blk t.blk) ∧
  (∀ (s t : State) x0 x1, exec (.tableSwapStart x0 x1) s = .next t →
    Frame [.pm, .letters, .post, .cores, .offices, .routers, .nodes, .couriers] s.blk t.blk) ∧
  (∀ (s t : State), exec .tableVersionRetire s = .next t →
    Frame [.pm, .letters, .post, .cores, .offices, .routers, .nodes, .couriers] s.blk t.blk) ∧
  (∀ (s t : State) x0, exec (.stagedActivation x0) s = .next t →
    Frame [.pm, .ledger, .dbg, .letters, .mgmt, .mail, .post, .bm, .cores, .offices, .routers, .nodes, .couriers] s.blk t.blk) ∧
  (∀ (s t : State) x0 x1, exec (.stageAckTimeout x0 x1) s = .next t →
    Frame [.pm, .letters, .post, .cores, .offices, .routers, .couriers] s.blk t.blk) ∧
  (∀ (s t : State), exec .fleetHello s = .next t →
    Frame [.dbg, .mgmt, .mail, .fleet, .parcel, .post, .couriers] s.blk t.blk) ∧
  (∀ (s t : State), exec .helloPeriodic s = .next t →
    Frame [.pm, .letters, .mail, .fleet, .post] s.blk t.blk) ∧
  (∀ (s t : State) x0, exec (.partnerStale x0) s = .next t →
    Frame [.pm, .ledger, .stop, .dbg, .letters, .mgmt, .mail, .fleet, .parcel, .post] s.blk t.blk) ∧
  (∀ (s t : State) x0, exec (.partnerRemove x0) s = .next t →
    Frame [.pm, .letters, .fleet] s.blk t.blk) ∧
  (∀ (s t : State), exec .letterMessage s = .next t →
    Frame [.ledger, .mgmt, .mail, .fleet, .post, .couriers] s.blk t.blk) ∧
  (∀ (s t : State), exec .letterFwd s = .next t →
    Frame [.ledger, .mgmt, .mail, .fleet, .post, .couriers] s.blk t.blk) ∧
  (∀ (s t : State), exec .receiptMessage s = .next t →
    Frame [.ledger, .dbg, .mgmt, .mail, .fleet, .parcel, .post, .couriers] s.blk t.blk) ∧
  (∀ (s t : State) x0, exec (.replyTimeout x0) s = .next t →
    Frame [.pm, .ledger, .letters, .mgmt, .mail, .fleet, .parcel, .post] s.blk t.blk) ∧
  (∀ (s t : State) x0 x1, exec (.fragmentTimeout x0 x1) s = .next t →
    Frame [.pm, .letters, .fleet, .post, .couriers] s.blk t.blk) ∧
  (∀ (s t : State) x0, exec (.ringLetterRelay x0) s = .next t →
    Frame [.ledger, .mgmt, .mail, .fleet, .post] s.blk t.blk) ∧
  (∀ (s t : State), exec .bulkOpen s = .next t →
    Frame [.fleet, .post, .couriers] s.blk t.blk) ∧
  (∀ (s t : State), exec .bulkGrant s = .next t →
    Frame [.dbg, .mgmt, .mail, .fleet, .post] s.blk t.blk) ∧
  (∀ (s t : State), exec .bulkData s = .next t →
    Frame [.fleet, .post] s.blk t.blk) ∧
  (∀ (s t : State), exec .bulkCredit s = .next t →
    Frame [.dbg, .mgmt, .mail, .fleet, .post] s.blk t.blk) ∧
  (∀ (s t : State) x0, exec (.bulkCreditTimeout x0) s = .next t →
    Frame [.pm, .letters, .fleet] s.blk t.blk) ∧
  (∀ (s t : State), exec .collUp s = .next t →
    Frame [.stop, .dbg, .mgmt, .mail, .fleet, .parcel, .post] s.blk t.blk) ∧
  (∀ (s t : State), exec .collDown s = .next t →
    Frame [.stop, .dbg, .mgmt, .mail, .fleet, .parcel, .post] s.blk t.blk) ∧
  (∀ (s t : State) x0, exec (.collTimeout x0) s = .next t →
    Frame [.pm, .dbg, .letters, .mgmt, .mail, .fleet] s.blk t.blk) ∧
  (∀ (s t : State) x0 x1, exec (.routerLost x0 x1) s = .next t →
    Frame [.pm, .ledger, .letters, .post, .bm, .cores, .offices, .routers, .nodes, .couriers] s.blk t.blk)

/-- What the parcel, teardown and image commands (R366 to R395, R423 to R425) leave alone: every part of the block that is not listed is the same after. -/
def Obligations.ParcelAndImageFrames : Prop :=
  (∀ (s t : State), exec .parcelPrepare s = .next t →
    Frame [.pm, .ledger, .dbg, .letters, .mgmt, .mail, .fleet, .parcel, .post] s.blk t.blk) ∧
  (∀ (s t : State), exec .parcelReserveRenew s = .next t →
    Frame [.pm, .letters, .mail, .fleet, .parcel, .post] s.blk t.blk) ∧
  (∀ (s t : State), exec .parcelVoteLate s = .next t →
    Frame [.outs, .pm, .ledger, .stop, .dbg, .letters, .mgmt, .mail, .job, .parcel, .post, .cores] s.blk t.blk) ∧
  (∀ (s t : State), exec .parcelStop s = .next t →
    Frame [.pm, .ledger, .stop, .dbg, .letters, .free, .mgmt, .mail, .job, .parcel, .cores, .offices, .couriers] s.blk t.blk) ∧
  (∀ (s t : State), exec .parcelRootBuild s = .next t →
    Frame [.ledger, .parcel, .couriers] s.blk t.blk) ∧
  (∀ (s t : State), exec .parcelCommitSend s = .next t →
    Frame [.ledger, .dbg, .mgmt, .mail, .fleet, .parcel, .post] s.blk t.blk) ∧
  (∀ (s t : State), exec .parcelOverrun s = .next t →
    Frame [.outs, .pm, .ledger, .stop, .dbg, .letters, .mgmt, .mail, .job, .parcel, .post, .cores] s.blk t.blk) ∧
  (∀ (s t : State), exec .parcelUngate s = .next t →
    Frame [.pm, .stop, .letters, .job, .parcel, .cores] s.blk t.blk) ∧
  (∀ (s t : State) x0 x1, exec (.parcelCommitAnswer x0 x1) s = .next t →
    Frame [.ledger, .dbg, .mgmt, .mail, .fleet, .parcel, .post] s.blk t.blk) ∧
  (∀ (s t : State) x0, exec (.parcelCommitTimeout x0) s = .next t →
    Frame [.pm, .ledger, .stop, .dbg, .letters, .mgmt, .mail, .fleet, .parcel, .post] s.blk t.blk) ∧
  (∀ (s t : State) x0 x1, exec (.reservationLapse x0 x1) s = .next t →
    Frame [.pm, .ledger, .letters, .parcel] s.blk t.blk) ∧
  (∀ (s t : State), exec .teardownQuiesced s = .next t →
    Frame [.outs, .pm, .svc, .ledger, .stop, .dbg, .letters, .mgmt, .mail, .job, .post, .cores, .offices, .couriers] s.blk t.blk) ∧
  (∀ (s t : State), exec .teardownForce s = .next t →
    Frame [.outs, .pm, .svc, .ledger, .stop, .dbg, .letters, .mgmt, .mail, .job, .fleet, .post, .cores, .offices, .couriers] s.blk t.blk) ∧
  (∀ (s t : State) x0 x1, exec (.imagePacket x0 x1) s = .next t →
    Frame [.ledger, .bm, .cores] s.blk t.blk) ∧
  (∀ (s t : State) x0, exec (.imageRoundEnd x0) s = .next t →
    Frame [.ledger, .mgmt, .mail, .image, .post, .bm, .cores] s.blk t.blk) ∧
  (∀ (s t : State) x0 x1, exec (.imageReadbackDone x0 x1) s = .next t →
    Frame [.ledger, .mgmt, .mail, .image, .post, .bm, .cores] s.blk t.blk)

/-- What the letters (R396 to R427, R463 to R468) leave alone: every part of the block that is not listed is the same after. -/
def Obligations.LetterFrames : Prop :=
  (∀ (s t : State) x0, exec (.hello x0) s = .next t →
    Frame [.ledger, .dbg, .mgmt, .mail, .fleet, .post] s.blk t.blk) ∧
  (∀ (s t : State) x0, exec (.identify x0) s = .next t →
    Frame [.ledger, .dbg, .mgmt, .mail, .fleet, .post] s.blk t.blk) ∧
  (∀ (s t : State) x0, exec (.inventory x0) s = .next t →
    Frame [.ledger, .dbg, .mgmt, .mail, .fleet, .post] s.blk t.blk) ∧
  (∀ (s t : State) x0, exec (.measure x0) s = .next t →
    Frame [.ledger, .dbg, .mgmt, .mail, .fleet, .post] s.blk t.blk) ∧
  (∀ (s t : State) x0 x1, exec (.jobLoad x0 x1) s = .next t →
    Frame [.svc, .ledger, .dbg, .letters, .free, .mgmt, .mail, .job, .fleet, .parcel, .post, .bm, .cores, .offices] s.blk t.blk) ∧
  (∀ (s t : State) x0 x1, exec (.launch x0 x1) s = .next t →
    Frame [.ledger, .dbg, .mgmt, .mail, .job, .fleet, .post, .cores, .offices, .routers, .couriers] s.blk t.blk) ∧
  (∀ (s t : State) x0, exec (.stopAt x0) s = .next t →
    Frame [.ledger, .stop, .dbg, .mgmt, .mail, .fleet, .post] s.blk t.blk) ∧
  (∀ (s t : State) x0, exec (.urgentStop x0) s = .next t →
    Frame [.outs, .pm, .ledger, .stop, .dbg, .letters, .mgmt, .mail, .job, .fleet, .parcel, .post, .cores] s.blk t.blk) ∧
  (∀ (s t : State) x0, exec (.stopRelease x0) s = .next t →
    Frame [.ledger, .stop, .dbg, .mgmt, .mail, .fleet, .post] s.blk t.blk) ∧
  (∀ (s t : State) x0, exec (.jobTeardown x0) s = .next t →
    Frame [.outs, .pm, .ledger, .stop, .dbg, .letters, .mgmt, .mail, .job, .fleet, .parcel, .post, .bm, .cores, .offices] s.blk t.blk) ∧
  (∀ (s t : State) x0, exec (.postmarkLoad x0) s = .next t →
    Frame [.pm, .ledger, .dbg, .letters, .mgmt, .mail, .fleet, .post] s.blk t.blk) ∧
  (∀ (s t : State) x0 x1 x2, exec (.formatLoad x0 x1 x2) s = .next t →
    Frame [.ledger, .stop, .dbg, .free, .mgmt, .mail, .policy, .fleet, .parcel, .post, .bm, .cores, .offices, .routers, .couriers] s.blk t.blk) ∧
  (∀ (s t : State) x0, exec (.diceRates x0) s = .next t →
    Frame [.ledger, .dbg, .mgmt, .mail, .policy, .fleet, .post] s.blk t.blk) ∧
  (∀ (s t : State) x0, exec (.canaryBands x0) s = .next t →
    Frame [.ledger, .dbg, .mgmt, .mail, .policy, .fleet, .post, .offices] s.blk t.blk) ∧
  (∀ (s t : State) x0, exec (.verdictPolicy x0) s = .next t →
    Frame [.ledger, .dbg, .mgmt, .mail, .policy, .fleet, .post] s.blk t.blk) ∧
  (∀ (s t : State) x0, exec (.stepQuery x0) s = .next t →
    Frame [.ledger, .dbg, .mgmt, .mail, .fleet, .post] s.blk t.blk) ∧
  (∀ (s t : State) x0, exec (.coreQuery x0) s = .next t →
    Frame [.ledger, .dbg, .mgmt, .mail, .fleet, .post] s.blk t.blk) ∧
  (∀ (s t : State) x0, exec (.testPolicy x0) s = .next t →
    Frame [.pm, .ledger, .dbg, .letters, .mgmt, .mail, .policy, .fleet, .post, .bm, .cores, .offices, .routers, .nodes, .couriers] s.blk t.blk) ∧
  (∀ (s t : State) x0, exec (.testSweep x0) s = .next t →
    Frame [.ledger, .dbg, .mgmt, .mail, .fleet, .post, .offices] s.blk t.blk) ∧
  (∀ (s t : State) x0, exec (.coreRestore x0) s = .next t →
    Frame [.ledger, .dbg, .mgmt, .mail, .fleet, .post, .cores, .offices] s.blk t.blk) ∧
  (∀ (s t : State) x0 x1, exec (.testCourier x0 x1) s = .next t →
    Frame [.pm, .ledger, .stop, .dbg, .letters, .free, .mgmt, .mail, .fleet, .parcel, .post, .cores, .offices, .routers, .couriers] s.blk t.blk) ∧
  (∀ (s t : State) x0, exec (.officeSwap x0) s = .next t →
    Frame [.ledger, .dbg, .mgmt, .mail, .fleet, .post, .offices] s.blk t.blk) ∧
  (∀ (s t : State) x0 x1 x2, exec (.courierPower x0 x1 x2) s = .next t →
    Frame [.ledger, .stop, .dbg, .free, .mgmt, .mail, .fleet, .parcel, .post, .cores, .offices, .routers, .couriers] s.blk t.blk) ∧
  (∀ (s t : State) x0, exec (.fleetRings x0) s = .next t →
    Frame [.ledger, .dbg, .mgmt, .mail, .fleet, .post] s.blk t.blk) ∧
  (∀ (s t : State) x0, exec (.courierEnable x0) s = .next t →
    Frame [.ledger, .stop, .dbg, .free, .mgmt, .mail, .fleet, .parcel, .post, .cores, .offices, .routers, .couriers] s.blk t.blk) ∧
  (∀ (s t : State) x0, exec (.partnerQuery x0) s = .next t →
    Frame [.ledger, .dbg, .mgmt, .mail, .fleet, .post] s.blk t.blk) ∧
  (∀ (s t : State) x0, exec (.parcelPolicy x0) s = .next t →
    Frame [.ledger, .dbg, .mgmt, .mail, .policy, .fleet, .post] s.blk t.blk) ∧
  (∀ (s t : State) x0, exec (.holderCap x0) s = .next t →
    Frame [.ledger, .dbg, .mgmt, .mail, .policy, .fleet, .post] s.blk t.blk) ∧
  (∀ (s t : State) x0, exec (.parcelReserve x0) s = .next t →
    Frame [.ledger, .dbg, .free, .mgmt, .mail, .fleet, .post] s.blk t.blk) ∧
  (∀ (s t : State) x0, exec (.parcelCommit x0) s = .next t →
    Frame [.ledger, .dbg, .mgmt, .mail, .fleet, .post] s.blk t.blk) ∧
  (∀ (s t : State) x0, exec (.parcelQuery x0) s = .next t →
    Frame [.ledger, .dbg, .mgmt, .mail, .fleet, .post] s.blk t.blk) ∧
  (∀ (s t : State) x0, exec (.parcelRelease x0) s = .next t →
    Frame [.ledger, .dbg, .mgmt, .mail, .fleet, .parcel, .post] s.blk t.blk) ∧
  (∀ (s t : State) x0 x1, exec (.parcelRestore x0 x1) s = .next t →
    Frame [.ledger, .dbg, .mgmt, .mail, .job, .policy, .fleet, .post, .cores, .offices] s.blk t.blk) ∧
  (∀ (s t : State) x0, exec (.warmReset x0) s = .next t →
    Frame [.outs, .pm, .svc, .ledger, .stop, .dbg, .letters, .mgmt, .mail, .job, .resets, .fleet, .parcel, .image, .post, .bm, .cores, .offices] s.blk t.blk) ∧
  (∀ (s t : State) x0, exec (.coldReset x0) s = .next t →
    Frame [.outs, .pm, .svc, .keys, .cfg, .ledger, .arch, .stop, .dbg, .letters, .mgmt, .mail, .job, .policy, .resets, .fleet, .parcel, .image, .post, .bm, .cores, .offices, .routers, .nodes, .couriers] s.blk t.blk) ∧
  (∀ (s t : State) x0, exec (.resetPolicy x0) s = .next t →
    Frame [.ledger, .dbg, .mgmt, .mail, .policy, .resets, .fleet, .post] s.blk t.blk) ∧
  (∀ (s t : State) x0, exec (.counterSelect x0) s = .next t →
    Frame [.ledger, .dbg, .mgmt, .mail, .fleet, .post, .cores] s.blk t.blk) ∧
  (∀ (s t : State) x0, exec (.counterRead x0) s = .next t →
    Frame [.ledger, .dbg, .mgmt, .mail, .fleet, .post] s.blk t.blk) ∧
  (∀ (s t : State) x0, exec (.traceControl x0) s = .next t →
    Frame [.ledger, .dbg, .mgmt, .mail, .fleet, .post] s.blk t.blk) ∧
  (∀ (s t : State), exec .traceTrigger s = .next t →
    Frame [.outs, .pm, .ledger, .stop, .dbg, .letters, .mgmt, .mail, .job, .parcel, .post, .cores] s.blk t.blk) ∧
  (∀ (s t : State) x0, exec (.exportData x0) s = .next t →
    Frame [.ledger, .dbg, .mgmt, .mail, .fleet, .post, .couriers] s.blk t.blk) ∧
  (∀ (s t : State) x0 x1, exec (.imageLoad x0 x1) s = .next t →
    Frame [.ledger, .dbg, .mgmt, .mail, .fleet, .image, .post, .bm, .cores] s.blk t.blk) ∧
  (∀ (s t : State) x0, exec (.imageStatus x0) s = .next t →
    Frame [.ledger, .dbg, .mgmt, .mail, .fleet, .post] s.blk t.blk) ∧
  (∀ (s t : State) x0, exec (.imageAbort x0) s = .next t →
    Frame [.ledger, .dbg, .mgmt, .mail, .fleet, .image, .post] s.blk t.blk) ∧
  (∀ (s t : State), exec .tapReset s = .next t →
    Frame [.dbg] s.blk t.blk) ∧
  (∀ (s t : State), exec .ijtagAccessSelect s = .next t →
    Frame [.outs, .keys, .ledger, .dbg, .mgmt, .mail] s.blk t.blk) ∧
  (∀ (s t : State) x0, exec (.sibOpen x0) s = .next t →
    Frame [.outs, .pm, .svc, .ledger, .stop, .dbg, .letters, .free, .mgmt, .mail, .job, .fleet, .parcel, .post, .bm, .cores, .offices, .routers, .nodes, .couriers] s.blk t.blk) ∧
  (∀ (s t : State) x0 x1 x2 x3, exec (.coreCapUpdate x0 x1 x2 x3) s = .next t →
    Frame [.cores] s.blk t.blk)

/-- What the management-window commands and key pins (R110 to R113, R124, R125, R428 to R451) leave alone: every part of the block that is not listed is the same after. -/
def Obligations.ManagementWindowFrames : Prop :=
  (∀ (s t : State) x0 x1 x2, exec (.keyPortWord x0 x1 x2) s = .next t →
    Frame [.outs, .keys, .dbg, .mgmt, .mail] s.blk t.blk) ∧
  (∀ (s t : State), exec .zeroizeRequest s = .next t →
    Frame [.outs, .keys, .ledger, .dbg, .mgmt, .mail] s.blk t.blk) ∧
  (∀ (s t : State) x0 x1, exec (.registerWrite x0 x1) s = .next t →
    Frame [.outs, .pm, .svc, .keys, .ledger, .stop, .dbg, .letters, .free, .mgmt, .mail, .job, .fleet, .parcel, .post, .cores, .offices, .routers, .couriers] s.blk t.blk) ∧
  (∀ (s t : State), exec .managementPortReset s = .next t →
    Frame [.outs] s.blk t.blk) ∧
  (∀ (s t : State) x0 x1, exec (.ringDoorbell x0 x1) s = .next t →
    Frame [.outs, .pm, .svc, .keys, .ledger, .stop, .dbg, .letters, .free, .mgmt, .mail, .job, .fleet, .parcel, .post, .cores, .offices, .routers, .couriers] s.blk t.blk) ∧
  (∀ (s t : State) x0 x1, exec (.ringPop x0 x1) s = .next t →
    Frame [.outs, .pm, .svc, .keys, .ledger, .stop, .dbg, .letters, .free, .mgmt, .mail, .job, .fleet, .parcel, .post, .cores, .offices, .routers, .couriers] s.blk t.blk) ∧
  (∀ (s t : State), exec .pmCountRead s = .next t →
    Frame [.outs, .pm, .letters, .free] s.blk t.blk) ∧
  (∀ (s t : State) x0, exec (.pmLatchCapture x0) s = .next t →
    Frame [.outs, .pm, .svc, .keys, .ledger, .stop, .dbg, .letters, .free, .mgmt, .mail, .job, .fleet, .parcel, .post, .cores, .offices, .routers, .couriers] s.blk t.blk) ∧
  (∀ (s t : State) x0, exec (.stopCtrlUrgent x0) s = .next t →
    Frame [.outs, .pm, .svc, .keys, .ledger, .stop, .dbg, .letters, .free, .mgmt, .mail, .job, .fleet, .parcel, .post, .cores, .offices, .routers, .couriers] s.blk t.blk) ∧
  (∀ (s t : State) x0, exec (.crEnableWrite x0) s = .next t →
    Frame [.outs, .pm, .svc, .keys, .ledger, .stop, .dbg, .letters, .free, .mgmt, .mail, .job, .fleet, .parcel, .post, .cores, .offices, .routers, .couriers] s.blk t.blk) ∧
  (∀ (s t : State) x0, exec (.keyLoadBegin x0) s = .next t →
    Frame [.outs, .pm, .svc, .keys, .ledger, .stop, .dbg, .letters, .free, .mgmt, .mail, .job, .fleet, .parcel, .post, .cores, .offices, .routers, .couriers] s.blk t.blk) ∧
  (∀ (s t : State) x0, exec (.keyWindowLock x0) s = .next t →
    Frame [.outs, .pm, .svc, .keys, .ledger, .stop, .dbg, .letters, .free, .mgmt, .mail, .job, .fleet, .parcel, .post, .cores, .offices, .routers, .couriers] s.blk t.blk) ∧
  (∀ (s t : State) x0, exec (.keyWindowZeroize x0) s = .next t →
    Frame [.outs, .pm, .svc, .keys, .ledger, .stop, .dbg, .letters, .free, .mgmt, .mail, .job, .fleet, .parcel, .post, .cores, .offices, .routers, .couriers] s.blk t.blk) ∧
  (∀ (s t : State) x0, exec (.keyDataWrite x0) s = .next t →
    Frame [.outs, .pm, .svc, .keys, .ledger, .stop, .dbg, .letters, .free, .mgmt, .mail, .job, .fleet, .parcel, .post, .cores, .offices, .routers, .couriers] s.blk t.blk)
end

