-- ==== Sys2Proof/Laws/State.lean ====
section
/-! SUPPORT. What each update of one part of the block leaves and what it writes, by rfl. -/

namespace Sys2Proof.Machine

open Sys2Proof

@[simp] theorem Block.modSvc_env (b : Block) (f : Svc → Svc) : (b.modSvc f).env = b.env := rfl
@[simp] theorem Block.modSvc_outs (b : Block) (f : Svc → Svc) : (b.modSvc f).outs = b.outs := rfl
@[simp] theorem Block.modSvc_pm (b : Block) (f : Svc → Svc) : (b.modSvc f).pm = b.pm := rfl
@[simp] theorem Block.modSvc_svc (b : Block) (f : Svc → Svc) : (b.modSvc f).svc = f b.svc := rfl
@[simp] theorem Block.modSvc_keys (b : Block) (f : Svc → Svc) : (b.modSvc f).keys = b.keys := rfl
@[simp] theorem Block.modSvc_cfg (b : Block) (f : Svc → Svc) : (b.modSvc f).cfg = b.cfg := rfl
@[simp] theorem Block.modSvc_ledger (b : Block) (f : Svc → Svc) : (b.modSvc f).ledger = b.ledger := rfl
@[simp] theorem Block.modSvc_arch (b : Block) (f : Svc → Svc) : (b.modSvc f).arch = b.arch := rfl
@[simp] theorem Block.modSvc_stop (b : Block) (f : Svc → Svc) : (b.modSvc f).stop = b.stop := rfl
@[simp] theorem Block.modSvc_ho (b : Block) (f : Svc → Svc) : (b.modSvc f).ho = b.ho := rfl
@[simp] theorem Block.modSvc_units (b : Block) (f : Svc → Svc) : (b.modSvc f).units = b.units := rfl
@[simp] theorem Block.modSvc_dbg (b : Block) (f : Svc → Svc) : (b.modSvc f).dbg = b.dbg := rfl
@[simp] theorem Block.modSvc_letters (b : Block) (f : Svc → Svc) : (b.modSvc f).letters = b.letters := rfl
@[simp] theorem Block.modSvc_free (b : Block) (f : Svc → Svc) : (b.modSvc f).free = b.free := rfl
@[simp] theorem Block.modPm_env (b : Block) (f : Postmark → Postmark) : (b.modPm f).env = b.env := rfl
@[simp] theorem Block.modPm_outs (b : Block) (f : Postmark → Postmark) : (b.modPm f).outs = b.outs := rfl
@[simp] theorem Block.modPm_pm (b : Block) (f : Postmark → Postmark) : (b.modPm f).pm = f b.pm := rfl
@[simp] theorem Block.modPm_svc (b : Block) (f : Postmark → Postmark) : (b.modPm f).svc = b.svc := rfl
@[simp] theorem Block.modPm_keys (b : Block) (f : Postmark → Postmark) : (b.modPm f).keys = b.keys := rfl
@[simp] theorem Block.modPm_cfg (b : Block) (f : Postmark → Postmark) : (b.modPm f).cfg = b.cfg := rfl
@[simp] theorem Block.modPm_ledger (b : Block) (f : Postmark → Postmark) : (b.modPm f).ledger = b.ledger := rfl
@[simp] theorem Block.modPm_arch (b : Block) (f : Postmark → Postmark) : (b.modPm f).arch = b.arch := rfl
@[simp] theorem Block.modPm_stop (b : Block) (f : Postmark → Postmark) : (b.modPm f).stop = b.stop := rfl
@[simp] theorem Block.modPm_ho (b : Block) (f : Postmark → Postmark) : (b.modPm f).ho = b.ho := rfl
@[simp] theorem Block.modPm_units (b : Block) (f : Postmark → Postmark) : (b.modPm f).units = b.units := rfl
@[simp] theorem Block.modPm_dbg (b : Block) (f : Postmark → Postmark) : (b.modPm f).dbg = b.dbg := rfl
@[simp] theorem Block.modPm_letters (b : Block) (f : Postmark → Postmark) : (b.modPm f).letters = b.letters := rfl
@[simp] theorem Block.modPm_free (b : Block) (f : Postmark → Postmark) : (b.modPm f).free = b.free := rfl
@[simp] theorem Block.modStop_env (b : Block) (f : Stop → Stop) : (b.modStop f).env = b.env := rfl
@[simp] theorem Block.modStop_outs (b : Block) (f : Stop → Stop) : (b.modStop f).outs = b.outs := rfl
@[simp] theorem Block.modStop_pm (b : Block) (f : Stop → Stop) : (b.modStop f).pm = b.pm := rfl
@[simp] theorem Block.modStop_svc (b : Block) (f : Stop → Stop) : (b.modStop f).svc = b.svc := rfl
@[simp] theorem Block.modStop_keys (b : Block) (f : Stop → Stop) : (b.modStop f).keys = b.keys := rfl
@[simp] theorem Block.modStop_cfg (b : Block) (f : Stop → Stop) : (b.modStop f).cfg = b.cfg := rfl
@[simp] theorem Block.modStop_ledger (b : Block) (f : Stop → Stop) : (b.modStop f).ledger = b.ledger := rfl
@[simp] theorem Block.modStop_arch (b : Block) (f : Stop → Stop) : (b.modStop f).arch = b.arch := rfl
@[simp] theorem Block.modStop_stop (b : Block) (f : Stop → Stop) : (b.modStop f).stop = f b.stop := rfl
@[simp] theorem Block.modStop_ho (b : Block) (f : Stop → Stop) : (b.modStop f).ho = b.ho := rfl
@[simp] theorem Block.modStop_units (b : Block) (f : Stop → Stop) : (b.modStop f).units = b.units := rfl
@[simp] theorem Block.modStop_dbg (b : Block) (f : Stop → Stop) : (b.modStop f).dbg = b.dbg := rfl
@[simp] theorem Block.modStop_letters (b : Block) (f : Stop → Stop) : (b.modStop f).letters = b.letters := rfl
@[simp] theorem Block.modStop_free (b : Block) (f : Stop → Stop) : (b.modStop f).free = b.free := rfl
@[simp] theorem Block.modOuts_env (b : Block) (f : Outs → Outs) : (b.modOuts f).env = b.env := rfl
@[simp] theorem Block.modOuts_outs (b : Block) (f : Outs → Outs) : (b.modOuts f).outs = f b.outs := rfl
@[simp] theorem Block.modOuts_pm (b : Block) (f : Outs → Outs) : (b.modOuts f).pm = b.pm := rfl
@[simp] theorem Block.modOuts_svc (b : Block) (f : Outs → Outs) : (b.modOuts f).svc = b.svc := rfl
@[simp] theorem Block.modOuts_keys (b : Block) (f : Outs → Outs) : (b.modOuts f).keys = b.keys := rfl
@[simp] theorem Block.modOuts_cfg (b : Block) (f : Outs → Outs) : (b.modOuts f).cfg = b.cfg := rfl
@[simp] theorem Block.modOuts_ledger (b : Block) (f : Outs → Outs) : (b.modOuts f).ledger = b.ledger := rfl
@[simp] theorem Block.modOuts_arch (b : Block) (f : Outs → Outs) : (b.modOuts f).arch = b.arch := rfl
@[simp] theorem Block.modOuts_stop (b : Block) (f : Outs → Outs) : (b.modOuts f).stop = b.stop := rfl
@[simp] theorem Block.modOuts_ho (b : Block) (f : Outs → Outs) : (b.modOuts f).ho = b.ho := rfl
@[simp] theorem Block.modOuts_units (b : Block) (f : Outs → Outs) : (b.modOuts f).units = b.units := rfl
@[simp] theorem Block.modOuts_dbg (b : Block) (f : Outs → Outs) : (b.modOuts f).dbg = b.dbg := rfl
@[simp] theorem Block.modOuts_letters (b : Block) (f : Outs → Outs) : (b.modOuts f).letters = b.letters := rfl
@[simp] theorem Block.modOuts_free (b : Block) (f : Outs → Outs) : (b.modOuts f).free = b.free := rfl
@[simp] theorem Block.modEnv_env (b : Block) (f : Env → Env) : (b.modEnv f).env = f b.env := rfl
@[simp] theorem Block.modEnv_outs (b : Block) (f : Env → Env) : (b.modEnv f).outs = b.outs := rfl
@[simp] theorem Block.modEnv_pm (b : Block) (f : Env → Env) : (b.modEnv f).pm = b.pm := rfl
@[simp] theorem Block.modEnv_svc (b : Block) (f : Env → Env) : (b.modEnv f).svc = b.svc := rfl
@[simp] theorem Block.modEnv_keys (b : Block) (f : Env → Env) : (b.modEnv f).keys = b.keys := rfl
@[simp] theorem Block.modEnv_cfg (b : Block) (f : Env → Env) : (b.modEnv f).cfg = b.cfg := rfl
@[simp] theorem Block.modEnv_ledger (b : Block) (f : Env → Env) : (b.modEnv f).ledger = b.ledger := rfl
@[simp] theorem Block.modEnv_arch (b : Block) (f : Env → Env) : (b.modEnv f).arch = b.arch := rfl
@[simp] theorem Block.modEnv_stop (b : Block) (f : Env → Env) : (b.modEnv f).stop = b.stop := rfl
@[simp] theorem Block.modEnv_ho (b : Block) (f : Env → Env) : (b.modEnv f).ho = b.ho := rfl
@[simp] theorem Block.modEnv_units (b : Block) (f : Env → Env) : (b.modEnv f).units = b.units := rfl
@[simp] theorem Block.modEnv_dbg (b : Block) (f : Env → Env) : (b.modEnv f).dbg = b.dbg := rfl
@[simp] theorem Block.modEnv_letters (b : Block) (f : Env → Env) : (b.modEnv f).letters = b.letters := rfl
@[simp] theorem Block.modEnv_free (b : Block) (f : Env → Env) : (b.modEnv f).free = b.free := rfl
@[simp] theorem Block.modKeys_env (b : Block) (f : Keys → Keys) : (b.modKeys f).env = b.env := rfl
@[simp] theorem Block.modKeys_outs (b : Block) (f : Keys → Keys) : (b.modKeys f).outs = b.outs := rfl
@[simp] theorem Block.modKeys_pm (b : Block) (f : Keys → Keys) : (b.modKeys f).pm = b.pm := rfl
@[simp] theorem Block.modKeys_svc (b : Block) (f : Keys → Keys) : (b.modKeys f).svc = b.svc := rfl
@[simp] theorem Block.modKeys_keys (b : Block) (f : Keys → Keys) : (b.modKeys f).keys = f b.keys := rfl
@[simp] theorem Block.modKeys_cfg (b : Block) (f : Keys → Keys) : (b.modKeys f).cfg = b.cfg := rfl
@[simp] theorem Block.modKeys_ledger (b : Block) (f : Keys → Keys) : (b.modKeys f).ledger = b.ledger := rfl
@[simp] theorem Block.modKeys_arch (b : Block) (f : Keys → Keys) : (b.modKeys f).arch = b.arch := rfl
@[simp] theorem Block.modKeys_stop (b : Block) (f : Keys → Keys) : (b.modKeys f).stop = b.stop := rfl
@[simp] theorem Block.modKeys_ho (b : Block) (f : Keys → Keys) : (b.modKeys f).ho = b.ho := rfl
@[simp] theorem Block.modKeys_units (b : Block) (f : Keys → Keys) : (b.modKeys f).units = b.units := rfl
@[simp] theorem Block.modKeys_dbg (b : Block) (f : Keys → Keys) : (b.modKeys f).dbg = b.dbg := rfl
@[simp] theorem Block.modKeys_letters (b : Block) (f : Keys → Keys) : (b.modKeys f).letters = b.letters := rfl
@[simp] theorem Block.modKeys_free (b : Block) (f : Keys → Keys) : (b.modKeys f).free = b.free := rfl
@[simp] theorem Block.modLedger_env (b : Block) (f : LedgerData → LedgerData) : (b.modLedger f).env = b.env := rfl
@[simp] theorem Block.modLedger_outs (b : Block) (f : LedgerData → LedgerData) : (b.modLedger f).outs = b.outs := rfl
@[simp] theorem Block.modLedger_pm (b : Block) (f : LedgerData → LedgerData) : (b.modLedger f).pm = b.pm := rfl
@[simp] theorem Block.modLedger_svc (b : Block) (f : LedgerData → LedgerData) : (b.modLedger f).svc = b.svc := rfl
@[simp] theorem Block.modLedger_keys (b : Block) (f : LedgerData → LedgerData) : (b.modLedger f).keys = b.keys := rfl
@[simp] theorem Block.modLedger_cfg (b : Block) (f : LedgerData → LedgerData) : (b.modLedger f).cfg = b.cfg := rfl
@[simp] theorem Block.modLedger_ledger (b : Block) (f : LedgerData → LedgerData) : (b.modLedger f).ledger = f b.ledger := rfl
@[simp] theorem Block.modLedger_arch (b : Block) (f : LedgerData → LedgerData) : (b.modLedger f).arch = b.arch := rfl
@[simp] theorem Block.modLedger_stop (b : Block) (f : LedgerData → LedgerData) : (b.modLedger f).stop = b.stop := rfl
@[simp] theorem Block.modLedger_ho (b : Block) (f : LedgerData → LedgerData) : (b.modLedger f).ho = b.ho := rfl
@[simp] theorem Block.modLedger_units (b : Block) (f : LedgerData → LedgerData) : (b.modLedger f).units = b.units := rfl
@[simp] theorem Block.modLedger_dbg (b : Block) (f : LedgerData → LedgerData) : (b.modLedger f).dbg = b.dbg := rfl
@[simp] theorem Block.modLedger_letters (b : Block) (f : LedgerData → LedgerData) : (b.modLedger f).letters = b.letters := rfl
@[simp] theorem Block.modLedger_free (b : Block) (f : LedgerData → LedgerData) : (b.modLedger f).free = b.free := rfl
@[simp] theorem Block.modDebug_env (b : Block) (f : Debug → Debug) : (b.modDebug f).env = b.env := rfl
@[simp] theorem Block.modDebug_outs (b : Block) (f : Debug → Debug) : (b.modDebug f).outs = b.outs := rfl
@[simp] theorem Block.modDebug_pm (b : Block) (f : Debug → Debug) : (b.modDebug f).pm = b.pm := rfl
@[simp] theorem Block.modDebug_svc (b : Block) (f : Debug → Debug) : (b.modDebug f).svc = b.svc := rfl
@[simp] theorem Block.modDebug_keys (b : Block) (f : Debug → Debug) : (b.modDebug f).keys = b.keys := rfl
@[simp] theorem Block.modDebug_cfg (b : Block) (f : Debug → Debug) : (b.modDebug f).cfg = b.cfg := rfl
@[simp] theorem Block.modDebug_ledger (b : Block) (f : Debug → Debug) : (b.modDebug f).ledger = b.ledger := rfl
@[simp] theorem Block.modDebug_arch (b : Block) (f : Debug → Debug) : (b.modDebug f).arch = b.arch := rfl
@[simp] theorem Block.modDebug_stop (b : Block) (f : Debug → Debug) : (b.modDebug f).stop = b.stop := rfl
@[simp] theorem Block.modDebug_ho (b : Block) (f : Debug → Debug) : (b.modDebug f).ho = b.ho := rfl
@[simp] theorem Block.modDebug_units (b : Block) (f : Debug → Debug) : (b.modDebug f).units = b.units := rfl
@[simp] theorem Block.modDebug_dbg (b : Block) (f : Debug → Debug) : (b.modDebug f).dbg = f b.dbg := rfl
@[simp] theorem Block.modDebug_letters (b : Block) (f : Debug → Debug) : (b.modDebug f).letters = b.letters := rfl
@[simp] theorem Block.modDebug_free (b : Block) (f : Debug → Debug) : (b.modDebug f).free = b.free := rfl
@[simp] theorem Block.modJob_env (b : Block) (f : Job → Job) : (b.modJob f).env = b.env := rfl
@[simp] theorem Block.modJob_outs (b : Block) (f : Job → Job) : (b.modJob f).outs = b.outs := rfl
@[simp] theorem Block.modJob_pm (b : Block) (f : Job → Job) : (b.modJob f).pm = b.pm := rfl
@[simp] theorem Block.modJob_svc (b : Block) (f : Job → Job) : (b.modJob f).svc = b.svc := rfl
@[simp] theorem Block.modJob_keys (b : Block) (f : Job → Job) : (b.modJob f).keys = b.keys := rfl
@[simp] theorem Block.modJob_cfg (b : Block) (f : Job → Job) : (b.modJob f).cfg = b.cfg := rfl
@[simp] theorem Block.modJob_ledger (b : Block) (f : Job → Job) : (b.modJob f).ledger = b.ledger := rfl
@[simp] theorem Block.modJob_arch (b : Block) (f : Job → Job) : (b.modJob f).arch = b.arch := rfl
@[simp] theorem Block.modJob_stop (b : Block) (f : Job → Job) : (b.modJob f).stop = b.stop := rfl
@[simp] theorem Block.modJob_units (b : Block) (f : Job → Job) : (b.modJob f).units = b.units := rfl
@[simp] theorem Block.modJob_dbg (b : Block) (f : Job → Job) : (b.modJob f).dbg = b.dbg := rfl
@[simp] theorem Block.modJob_letters (b : Block) (f : Job → Job) : (b.modJob f).letters = b.letters := rfl
@[simp] theorem Block.modJob_free (b : Block) (f : Job → Job) : (b.modJob f).free = b.free := rfl
@[simp] theorem Block.modJob_ho_mgmt (b : Block) (f : Job → Job) : (b.modJob f).ho.mgmt = b.ho.mgmt := rfl
@[simp] theorem Block.modJob_ho_mail (b : Block) (f : Job → Job) : (b.modJob f).ho.mail = b.ho.mail := rfl
@[simp] theorem Block.modJob_ho_job (b : Block) (f : Job → Job) : (b.modJob f).ho.job = f b.ho.job := rfl
@[simp] theorem Block.modJob_ho_policy (b : Block) (f : Job → Job) : (b.modJob f).ho.policy = b.ho.policy := rfl
@[simp] theorem Block.modJob_ho_resets (b : Block) (f : Job → Job) : (b.modJob f).ho.resets = b.ho.resets := rfl
@[simp] theorem Block.modJob_ho_fleet (b : Block) (f : Job → Job) : (b.modJob f).ho.fleet = b.ho.fleet := rfl
@[simp] theorem Block.modJob_ho_parcel (b : Block) (f : Job → Job) : (b.modJob f).ho.parcel = b.ho.parcel := rfl
@[simp] theorem Block.modJob_ho_image (b : Block) (f : Job → Job) : (b.modJob f).ho.image = b.ho.image := rfl
@[simp] theorem Block.modJob_ho_post (b : Block) (f : Job → Job) : (b.modJob f).ho.post = b.ho.post := rfl
@[simp] theorem Block.modJob_ho_bm (b : Block) (f : Job → Job) : (b.modJob f).ho.bm = b.ho.bm := rfl
@[simp] theorem Block.modMgmt_env (b : Block) (f : Mgmt → Mgmt) : (b.modMgmt f).env = b.env := rfl
@[simp] theorem Block.modMgmt_outs (b : Block) (f : Mgmt → Mgmt) : (b.modMgmt f).outs = b.outs := rfl
@[simp] theorem Block.modMgmt_pm (b : Block) (f : Mgmt → Mgmt) : (b.modMgmt f).pm = b.pm := rfl
@[simp] theorem Block.modMgmt_svc (b : Block) (f : Mgmt → Mgmt) : (b.modMgmt f).svc = b.svc := rfl
@[simp] theorem Block.modMgmt_keys (b : Block) (f : Mgmt → Mgmt) : (b.modMgmt f).keys = b.keys := rfl
@[simp] theorem Block.modMgmt_cfg (b : Block) (f : Mgmt → Mgmt) : (b.modMgmt f).cfg = b.cfg := rfl
@[simp] theorem Block.modMgmt_ledger (b : Block) (f : Mgmt → Mgmt) : (b.modMgmt f).ledger = b.ledger := rfl
@[simp] theorem Block.modMgmt_arch (b : Block) (f : Mgmt → Mgmt) : (b.modMgmt f).arch = b.arch := rfl
@[simp] theorem Block.modMgmt_stop (b : Block) (f : Mgmt → Mgmt) : (b.modMgmt f).stop = b.stop := rfl
@[simp] theorem Block.modMgmt_units (b : Block) (f : Mgmt → Mgmt) : (b.modMgmt f).units = b.units := rfl
@[simp] theorem Block.modMgmt_dbg (b : Block) (f : Mgmt → Mgmt) : (b.modMgmt f).dbg = b.dbg := rfl
@[simp] theorem Block.modMgmt_letters (b : Block) (f : Mgmt → Mgmt) : (b.modMgmt f).letters = b.letters := rfl
@[simp] theorem Block.modMgmt_free (b : Block) (f : Mgmt → Mgmt) : (b.modMgmt f).free = b.free := rfl
@[simp] theorem Block.modMgmt_ho_mgmt (b : Block) (f : Mgmt → Mgmt) : (b.modMgmt f).ho.mgmt = f b.ho.mgmt := rfl
@[simp] theorem Block.modMgmt_ho_mail (b : Block) (f : Mgmt → Mgmt) : (b.modMgmt f).ho.mail = b.ho.mail := rfl
@[simp] theorem Block.modMgmt_ho_job (b : Block) (f : Mgmt → Mgmt) : (b.modMgmt f).ho.job = b.ho.job := rfl
@[simp] theorem Block.modMgmt_ho_policy (b : Block) (f : Mgmt → Mgmt) : (b.modMgmt f).ho.policy = b.ho.policy := rfl
@[simp] theorem Block.modMgmt_ho_resets (b : Block) (f : Mgmt → Mgmt) : (b.modMgmt f).ho.resets = b.ho.resets := rfl
@[simp] theorem Block.modMgmt_ho_fleet (b : Block) (f : Mgmt → Mgmt) : (b.modMgmt f).ho.fleet = b.ho.fleet := rfl
@[simp] theorem Block.modMgmt_ho_parcel (b : Block) (f : Mgmt → Mgmt) : (b.modMgmt f).ho.parcel = b.ho.parcel := rfl
@[simp] theorem Block.modMgmt_ho_image (b : Block) (f : Mgmt → Mgmt) : (b.modMgmt f).ho.image = b.ho.image := rfl
@[simp] theorem Block.modMgmt_ho_post (b : Block) (f : Mgmt → Mgmt) : (b.modMgmt f).ho.post = b.ho.post := rfl
@[simp] theorem Block.modMgmt_ho_bm (b : Block) (f : Mgmt → Mgmt) : (b.modMgmt f).ho.bm = b.ho.bm := rfl
@[simp] theorem Block.modMail_env (b : Block) (f : Mail → Mail) : (b.modMail f).env = b.env := rfl
@[simp] theorem Block.modMail_outs (b : Block) (f : Mail → Mail) : (b.modMail f).outs = b.outs := rfl
@[simp] theorem Block.modMail_pm (b : Block) (f : Mail → Mail) : (b.modMail f).pm = b.pm := rfl
@[simp] theorem Block.modMail_svc (b : Block) (f : Mail → Mail) : (b.modMail f).svc = b.svc := rfl
@[simp] theorem Block.modMail_keys (b : Block) (f : Mail → Mail) : (b.modMail f).keys = b.keys := rfl
@[simp] theorem Block.modMail_cfg (b : Block) (f : Mail → Mail) : (b.modMail f).cfg = b.cfg := rfl
@[simp] theorem Block.modMail_ledger (b : Block) (f : Mail → Mail) : (b.modMail f).ledger = b.ledger := rfl
@[simp] theorem Block.modMail_arch (b : Block) (f : Mail → Mail) : (b.modMail f).arch = b.arch := rfl
@[simp] theorem Block.modMail_stop (b : Block) (f : Mail → Mail) : (b.modMail f).stop = b.stop := rfl
@[simp] theorem Block.modMail_units (b : Block) (f : Mail → Mail) : (b.modMail f).units = b.units := rfl
@[simp] theorem Block.modMail_dbg (b : Block) (f : Mail → Mail) : (b.modMail f).dbg = b.dbg := rfl
@[simp] theorem Block.modMail_letters (b : Block) (f : Mail → Mail) : (b.modMail f).letters = b.letters := rfl
@[simp] theorem Block.modMail_free (b : Block) (f : Mail → Mail) : (b.modMail f).free = b.free := rfl
@[simp] theorem Block.modMail_ho_mgmt (b : Block) (f : Mail → Mail) : (b.modMail f).ho.mgmt = b.ho.mgmt := rfl
@[simp] theorem Block.modMail_ho_mail (b : Block) (f : Mail → Mail) : (b.modMail f).ho.mail = f b.ho.mail := rfl
@[simp] theorem Block.modMail_ho_job (b : Block) (f : Mail → Mail) : (b.modMail f).ho.job = b.ho.job := rfl
@[simp] theorem Block.modMail_ho_policy (b : Block) (f : Mail → Mail) : (b.modMail f).ho.policy = b.ho.policy := rfl
@[simp] theorem Block.modMail_ho_resets (b : Block) (f : Mail → Mail) : (b.modMail f).ho.resets = b.ho.resets := rfl
@[simp] theorem Block.modMail_ho_fleet (b : Block) (f : Mail → Mail) : (b.modMail f).ho.fleet = b.ho.fleet := rfl
@[simp] theorem Block.modMail_ho_parcel (b : Block) (f : Mail → Mail) : (b.modMail f).ho.parcel = b.ho.parcel := rfl
@[simp] theorem Block.modMail_ho_image (b : Block) (f : Mail → Mail) : (b.modMail f).ho.image = b.ho.image := rfl
@[simp] theorem Block.modMail_ho_post (b : Block) (f : Mail → Mail) : (b.modMail f).ho.post = b.ho.post := rfl
@[simp] theorem Block.modMail_ho_bm (b : Block) (f : Mail → Mail) : (b.modMail f).ho.bm = b.ho.bm := rfl
@[simp] theorem Block.modFleet_env (b : Block) (f : Fleet → Fleet) : (b.modFleet f).env = b.env := rfl
@[simp] theorem Block.modFleet_outs (b : Block) (f : Fleet → Fleet) : (b.modFleet f).outs = b.outs := rfl
@[simp] theorem Block.modFleet_pm (b : Block) (f : Fleet → Fleet) : (b.modFleet f).pm = b.pm := rfl
@[simp] theorem Block.modFleet_svc (b : Block) (f : Fleet → Fleet) : (b.modFleet f).svc = b.svc := rfl
@[simp] theorem Block.modFleet_keys (b : Block) (f : Fleet → Fleet) : (b.modFleet f).keys = b.keys := rfl
@[simp] theorem Block.modFleet_cfg (b : Block) (f : Fleet → Fleet) : (b.modFleet f).cfg = b.cfg := rfl
@[simp] theorem Block.modFleet_ledger (b : Block) (f : Fleet → Fleet) : (b.modFleet f).ledger = b.ledger := rfl
@[simp] theorem Block.modFleet_arch (b : Block) (f : Fleet → Fleet) : (b.modFleet f).arch = b.arch := rfl
@[simp] theorem Block.modFleet_stop (b : Block) (f : Fleet → Fleet) : (b.modFleet f).stop = b.stop := rfl
@[simp] theorem Block.modFleet_units (b : Block) (f : Fleet → Fleet) : (b.modFleet f).units = b.units := rfl
@[simp] theorem Block.modFleet_dbg (b : Block) (f : Fleet → Fleet) : (b.modFleet f).dbg = b.dbg := rfl
@[simp] theorem Block.modFleet_letters (b : Block) (f : Fleet → Fleet) : (b.modFleet f).letters = b.letters := rfl
@[simp] theorem Block.modFleet_free (b : Block) (f : Fleet → Fleet) : (b.modFleet f).free = b.free := rfl
@[simp] theorem Block.modFleet_ho_mgmt (b : Block) (f : Fleet → Fleet) : (b.modFleet f).ho.mgmt = b.ho.mgmt := rfl
@[simp] theorem Block.modFleet_ho_mail (b : Block) (f : Fleet → Fleet) : (b.modFleet f).ho.mail = b.ho.mail := rfl
@[simp] theorem Block.modFleet_ho_job (b : Block) (f : Fleet → Fleet) : (b.modFleet f).ho.job = b.ho.job := rfl
@[simp] theorem Block.modFleet_ho_policy (b : Block) (f : Fleet → Fleet) : (b.modFleet f).ho.policy = b.ho.policy := rfl
@[simp] theorem Block.modFleet_ho_resets (b : Block) (f : Fleet → Fleet) : (b.modFleet f).ho.resets = b.ho.resets := rfl
@[simp] theorem Block.modFleet_ho_fleet (b : Block) (f : Fleet → Fleet) : (b.modFleet f).ho.fleet = f b.ho.fleet := rfl
@[simp] theorem Block.modFleet_ho_parcel (b : Block) (f : Fleet → Fleet) : (b.modFleet f).ho.parcel = b.ho.parcel := rfl
@[simp] theorem Block.modFleet_ho_image (b : Block) (f : Fleet → Fleet) : (b.modFleet f).ho.image = b.ho.image := rfl
@[simp] theorem Block.modFleet_ho_post (b : Block) (f : Fleet → Fleet) : (b.modFleet f).ho.post = b.ho.post := rfl
@[simp] theorem Block.modFleet_ho_bm (b : Block) (f : Fleet → Fleet) : (b.modFleet f).ho.bm = b.ho.bm := rfl
@[simp] theorem Block.modParcel_env (b : Block) (f : Parcel → Parcel) : (b.modParcel f).env = b.env := rfl
@[simp] theorem Block.modParcel_outs (b : Block) (f : Parcel → Parcel) : (b.modParcel f).outs = b.outs := rfl
@[simp] theorem Block.modParcel_pm (b : Block) (f : Parcel → Parcel) : (b.modParcel f).pm = b.pm := rfl
@[simp] theorem Block.modParcel_svc (b : Block) (f : Parcel → Parcel) : (b.modParcel f).svc = b.svc := rfl
@[simp] theorem Block.modParcel_keys (b : Block) (f : Parcel → Parcel) : (b.modParcel f).keys = b.keys := rfl
@[simp] theorem Block.modParcel_cfg (b : Block) (f : Parcel → Parcel) : (b.modParcel f).cfg = b.cfg := rfl
@[simp] theorem Block.modParcel_ledger (b : Block) (f : Parcel → Parcel) : (b.modParcel f).ledger = b.ledger := rfl
@[simp] theorem Block.modParcel_arch (b : Block) (f : Parcel → Parcel) : (b.modParcel f).arch = b.arch := rfl
@[simp] theorem Block.modParcel_stop (b : Block) (f : Parcel → Parcel) : (b.modParcel f).stop = b.stop := rfl
@[simp] theorem Block.modParcel_units (b : Block) (f : Parcel → Parcel) : (b.modParcel f).units = b.units := rfl
@[simp] theorem Block.modParcel_dbg (b : Block) (f : Parcel → Parcel) : (b.modParcel f).dbg = b.dbg := rfl
@[simp] theorem Block.modParcel_letters (b : Block) (f : Parcel → Parcel) : (b.modParcel f).letters = b.letters := rfl
@[simp] theorem Block.modParcel_free (b : Block) (f : Parcel → Parcel) : (b.modParcel f).free = b.free := rfl
@[simp] theorem Block.modParcel_ho_mgmt (b : Block) (f : Parcel → Parcel) : (b.modParcel f).ho.mgmt = b.ho.mgmt := rfl
@[simp] theorem Block.modParcel_ho_mail (b : Block) (f : Parcel → Parcel) : (b.modParcel f).ho.mail = b.ho.mail := rfl
@[simp] theorem Block.modParcel_ho_job (b : Block) (f : Parcel → Parcel) : (b.modParcel f).ho.job = b.ho.job := rfl
@[simp] theorem Block.modParcel_ho_policy (b : Block) (f : Parcel → Parcel) : (b.modParcel f).ho.policy = b.ho.policy := rfl
@[simp] theorem Block.modParcel_ho_resets (b : Block) (f : Parcel → Parcel) : (b.modParcel f).ho.resets = b.ho.resets := rfl
@[simp] theorem Block.modParcel_ho_fleet (b : Block) (f : Parcel → Parcel) : (b.modParcel f).ho.fleet = b.ho.fleet := rfl
@[simp] theorem Block.modParcel_ho_parcel (b : Block) (f : Parcel → Parcel) : (b.modParcel f).ho.parcel = f b.ho.parcel := rfl
@[simp] theorem Block.modParcel_ho_image (b : Block) (f : Parcel → Parcel) : (b.modParcel f).ho.image = b.ho.image := rfl
@[simp] theorem Block.modParcel_ho_post (b : Block) (f : Parcel → Parcel) : (b.modParcel f).ho.post = b.ho.post := rfl
@[simp] theorem Block.modParcel_ho_bm (b : Block) (f : Parcel → Parcel) : (b.modParcel f).ho.bm = b.ho.bm := rfl
@[simp] theorem Block.modPost_env (b : Block) (f : PostCtl → PostCtl) : (b.modPost f).env = b.env := rfl
@[simp] theorem Block.modPost_outs (b : Block) (f : PostCtl → PostCtl) : (b.modPost f).outs = b.outs := rfl
@[simp] theorem Block.modPost_pm (b : Block) (f : PostCtl → PostCtl) : (b.modPost f).pm = b.pm := rfl
@[simp] theorem Block.modPost_svc (b : Block) (f : PostCtl → PostCtl) : (b.modPost f).svc = b.svc := rfl
@[simp] theorem Block.modPost_keys (b : Block) (f : PostCtl → PostCtl) : (b.modPost f).keys = b.keys := rfl
@[simp] theorem Block.modPost_cfg (b : Block) (f : PostCtl → PostCtl) : (b.modPost f).cfg = b.cfg := rfl
@[simp] theorem Block.modPost_ledger (b : Block) (f : PostCtl → PostCtl) : (b.modPost f).ledger = b.ledger := rfl
@[simp] theorem Block.modPost_arch (b : Block) (f : PostCtl → PostCtl) : (b.modPost f).arch = b.arch := rfl
@[simp] theorem Block.modPost_stop (b : Block) (f : PostCtl → PostCtl) : (b.modPost f).stop = b.stop := rfl
@[simp] theorem Block.modPost_units (b : Block) (f : PostCtl → PostCtl) : (b.modPost f).units = b.units := rfl
@[simp] theorem Block.modPost_dbg (b : Block) (f : PostCtl → PostCtl) : (b.modPost f).dbg = b.dbg := rfl
@[simp] theorem Block.modPost_letters (b : Block) (f : PostCtl → PostCtl) : (b.modPost f).letters = b.letters := rfl
@[simp] theorem Block.modPost_free (b : Block) (f : PostCtl → PostCtl) : (b.modPost f).free = b.free := rfl
@[simp] theorem Block.modPost_ho_mgmt (b : Block) (f : PostCtl → PostCtl) : (b.modPost f).ho.mgmt = b.ho.mgmt := rfl
@[simp] theorem Block.modPost_ho_mail (b : Block) (f : PostCtl → PostCtl) : (b.modPost f).ho.mail = b.ho.mail := rfl
@[simp] theorem Block.modPost_ho_job (b : Block) (f : PostCtl → PostCtl) : (b.modPost f).ho.job = b.ho.job := rfl
@[simp] theorem Block.modPost_ho_policy (b : Block) (f : PostCtl → PostCtl) : (b.modPost f).ho.policy = b.ho.policy := rfl
@[simp] theorem Block.modPost_ho_resets (b : Block) (f : PostCtl → PostCtl) : (b.modPost f).ho.resets = b.ho.resets := rfl
@[simp] theorem Block.modPost_ho_fleet (b : Block) (f : PostCtl → PostCtl) : (b.modPost f).ho.fleet = b.ho.fleet := rfl
@[simp] theorem Block.modPost_ho_parcel (b : Block) (f : PostCtl → PostCtl) : (b.modPost f).ho.parcel = b.ho.parcel := rfl
@[simp] theorem Block.modPost_ho_image (b : Block) (f : PostCtl → PostCtl) : (b.modPost f).ho.image = b.ho.image := rfl
@[simp] theorem Block.modPost_ho_post (b : Block) (f : PostCtl → PostCtl) : (b.modPost f).ho.post = f b.ho.post := rfl
@[simp] theorem Block.modPost_ho_bm (b : Block) (f : PostCtl → PostCtl) : (b.modPost f).ho.bm = b.ho.bm := rfl
@[simp] theorem Block.modBm_env (b : Block) (f : BoardMap → BoardMap) : (b.modBm f).env = b.env := rfl
@[simp] theorem Block.modBm_outs (b : Block) (f : BoardMap → BoardMap) : (b.modBm f).outs = b.outs := rfl
@[simp] theorem Block.modBm_pm (b : Block) (f : BoardMap → BoardMap) : (b.modBm f).pm = b.pm := rfl
@[simp] theorem Block.modBm_svc (b : Block) (f : BoardMap → BoardMap) : (b.modBm f).svc = b.svc := rfl
@[simp] theorem Block.modBm_keys (b : Block) (f : BoardMap → BoardMap) : (b.modBm f).keys = b.keys := rfl
@[simp] theorem Block.modBm_cfg (b : Block) (f : BoardMap → BoardMap) : (b.modBm f).cfg = b.cfg := rfl
@[simp] theorem Block.modBm_ledger (b : Block) (f : BoardMap → BoardMap) : (b.modBm f).ledger = b.ledger := rfl
@[simp] theorem Block.modBm_arch (b : Block) (f : BoardMap → BoardMap) : (b.modBm f).arch = b.arch := rfl
@[simp] theorem Block.modBm_stop (b : Block) (f : BoardMap → BoardMap) : (b.modBm f).stop = b.stop := rfl
@[simp] theorem Block.modBm_units (b : Block) (f : BoardMap → BoardMap) : (b.modBm f).units = b.units := rfl
@[simp] theorem Block.modBm_dbg (b : Block) (f : BoardMap → BoardMap) : (b.modBm f).dbg = b.dbg := rfl
@[simp] theorem Block.modBm_letters (b : Block) (f : BoardMap → BoardMap) : (b.modBm f).letters = b.letters := rfl
@[simp] theorem Block.modBm_free (b : Block) (f : BoardMap → BoardMap) : (b.modBm f).free = b.free := rfl
@[simp] theorem Block.modBm_ho_mgmt (b : Block) (f : BoardMap → BoardMap) : (b.modBm f).ho.mgmt = b.ho.mgmt := rfl
@[simp] theorem Block.modBm_ho_mail (b : Block) (f : BoardMap → BoardMap) : (b.modBm f).ho.mail = b.ho.mail := rfl
@[simp] theorem Block.modBm_ho_job (b : Block) (f : BoardMap → BoardMap) : (b.modBm f).ho.job = b.ho.job := rfl
@[simp] theorem Block.modBm_ho_policy (b : Block) (f : BoardMap → BoardMap) : (b.modBm f).ho.policy = b.ho.policy := rfl
@[simp] theorem Block.modBm_ho_resets (b : Block) (f : BoardMap → BoardMap) : (b.modBm f).ho.resets = b.ho.resets := rfl
@[simp] theorem Block.modBm_ho_fleet (b : Block) (f : BoardMap → BoardMap) : (b.modBm f).ho.fleet = b.ho.fleet := rfl
@[simp] theorem Block.modBm_ho_parcel (b : Block) (f : BoardMap → BoardMap) : (b.modBm f).ho.parcel = b.ho.parcel := rfl
@[simp] theorem Block.modBm_ho_image (b : Block) (f : BoardMap → BoardMap) : (b.modBm f).ho.image = b.ho.image := rfl
@[simp] theorem Block.modBm_ho_post (b : Block) (f : BoardMap → BoardMap) : (b.modBm f).ho.post = b.ho.post := rfl
@[simp] theorem Block.modBm_ho_bm (b : Block) (f : BoardMap → BoardMap) : (b.modBm f).ho.bm = f b.ho.bm := rfl
@[simp] theorem Block.modPolicy_env (b : Block) (f : Policy → Policy) : (b.modPolicy f).env = b.env := rfl
@[simp] theorem Block.modPolicy_outs (b : Block) (f : Policy → Policy) : (b.modPolicy f).outs = b.outs := rfl
@[simp] theorem Block.modPolicy_pm (b : Block) (f : Policy → Policy) : (b.modPolicy f).pm = b.pm := rfl
@[simp] theorem Block.modPolicy_svc (b : Block) (f : Policy → Policy) : (b.modPolicy f).svc = b.svc := rfl
@[simp] theorem Block.modPolicy_keys (b : Block) (f : Policy → Policy) : (b.modPolicy f).keys = b.keys := rfl
@[simp] theorem Block.modPolicy_cfg (b : Block) (f : Policy → Policy) : (b.modPolicy f).cfg = b.cfg := rfl
@[simp] theorem Block.modPolicy_ledger (b : Block) (f : Policy → Policy) : (b.modPolicy f).ledger = b.ledger := rfl
@[simp] theorem Block.modPolicy_arch (b : Block) (f : Policy → Policy) : (b.modPolicy f).arch = b.arch := rfl
@[simp] theorem Block.modPolicy_stop (b : Block) (f : Policy → Policy) : (b.modPolicy f).stop = b.stop := rfl
@[simp] theorem Block.modPolicy_units (b : Block) (f : Policy → Policy) : (b.modPolicy f).units = b.units := rfl
@[simp] theorem Block.modPolicy_dbg (b : Block) (f : Policy → Policy) : (b.modPolicy f).dbg = b.dbg := rfl
@[simp] theorem Block.modPolicy_letters (b : Block) (f : Policy → Policy) : (b.modPolicy f).letters = b.letters := rfl
@[simp] theorem Block.modPolicy_free (b : Block) (f : Policy → Policy) : (b.modPolicy f).free = b.free := rfl
@[simp] theorem Block.modPolicy_ho_mgmt (b : Block) (f : Policy → Policy) : (b.modPolicy f).ho.mgmt = b.ho.mgmt := rfl
@[simp] theorem Block.modPolicy_ho_mail (b : Block) (f : Policy → Policy) : (b.modPolicy f).ho.mail = b.ho.mail := rfl
@[simp] theorem Block.modPolicy_ho_job (b : Block) (f : Policy → Policy) : (b.modPolicy f).ho.job = b.ho.job := rfl
@[simp] theorem Block.modPolicy_ho_policy (b : Block) (f : Policy → Policy) : (b.modPolicy f).ho.policy = f b.ho.policy := rfl
@[simp] theorem Block.modPolicy_ho_resets (b : Block) (f : Policy → Policy) : (b.modPolicy f).ho.resets = b.ho.resets := rfl
@[simp] theorem Block.modPolicy_ho_fleet (b : Block) (f : Policy → Policy) : (b.modPolicy f).ho.fleet = b.ho.fleet := rfl
@[simp] theorem Block.modPolicy_ho_parcel (b : Block) (f : Policy → Policy) : (b.modPolicy f).ho.parcel = b.ho.parcel := rfl
@[simp] theorem Block.modPolicy_ho_image (b : Block) (f : Policy → Policy) : (b.modPolicy f).ho.image = b.ho.image := rfl
@[simp] theorem Block.modPolicy_ho_post (b : Block) (f : Policy → Policy) : (b.modPolicy f).ho.post = b.ho.post := rfl
@[simp] theorem Block.modPolicy_ho_bm (b : Block) (f : Policy → Policy) : (b.modPolicy f).ho.bm = b.ho.bm := rfl
@[simp] theorem Block.modImage_env (b : Block) (f : ImageLoad → ImageLoad) : (b.modImage f).env = b.env := rfl
@[simp] theorem Block.modImage_outs (b : Block) (f : ImageLoad → ImageLoad) : (b.modImage f).outs = b.outs := rfl
@[simp] theorem Block.modImage_pm (b : Block) (f : ImageLoad → ImageLoad) : (b.modImage f).pm = b.pm := rfl
@[simp] theorem Block.modImage_svc (b : Block) (f : ImageLoad → ImageLoad) : (b.modImage f).svc = b.svc := rfl
@[simp] theorem Block.modImage_keys (b : Block) (f : ImageLoad → ImageLoad) : (b.modImage f).keys = b.keys := rfl
@[simp] theorem Block.modImage_cfg (b : Block) (f : ImageLoad → ImageLoad) : (b.modImage f).cfg = b.cfg := rfl
@[simp] theorem Block.modImage_ledger (b : Block) (f : ImageLoad → ImageLoad) : (b.modImage f).ledger = b.ledger := rfl
@[simp] theorem Block.modImage_arch (b : Block) (f : ImageLoad → ImageLoad) : (b.modImage f).arch = b.arch := rfl
@[simp] theorem Block.modImage_stop (b : Block) (f : ImageLoad → ImageLoad) : (b.modImage f).stop = b.stop := rfl
@[simp] theorem Block.modImage_units (b : Block) (f : ImageLoad → ImageLoad) : (b.modImage f).units = b.units := rfl
@[simp] theorem Block.modImage_dbg (b : Block) (f : ImageLoad → ImageLoad) : (b.modImage f).dbg = b.dbg := rfl
@[simp] theorem Block.modImage_letters (b : Block) (f : ImageLoad → ImageLoad) : (b.modImage f).letters = b.letters := rfl
@[simp] theorem Block.modImage_free (b : Block) (f : ImageLoad → ImageLoad) : (b.modImage f).free = b.free := rfl
@[simp] theorem Block.modImage_ho_mgmt (b : Block) (f : ImageLoad → ImageLoad) : (b.modImage f).ho.mgmt = b.ho.mgmt := rfl
@[simp] theorem Block.modImage_ho_mail (b : Block) (f : ImageLoad → ImageLoad) : (b.modImage f).ho.mail = b.ho.mail := rfl
@[simp] theorem Block.modImage_ho_job (b : Block) (f : ImageLoad → ImageLoad) : (b.modImage f).ho.job = b.ho.job := rfl
@[simp] theorem Block.modImage_ho_policy (b : Block) (f : ImageLoad → ImageLoad) : (b.modImage f).ho.policy = b.ho.policy := rfl
@[simp] theorem Block.modImage_ho_resets (b : Block) (f : ImageLoad → ImageLoad) : (b.modImage f).ho.resets = b.ho.resets := rfl
@[simp] theorem Block.modImage_ho_fleet (b : Block) (f : ImageLoad → ImageLoad) : (b.modImage f).ho.fleet = b.ho.fleet := rfl
@[simp] theorem Block.modImage_ho_parcel (b : Block) (f : ImageLoad → ImageLoad) : (b.modImage f).ho.parcel = b.ho.parcel := rfl
@[simp] theorem Block.modImage_ho_image (b : Block) (f : ImageLoad → ImageLoad) : (b.modImage f).ho.image = f b.ho.image := rfl
@[simp] theorem Block.modImage_ho_post (b : Block) (f : ImageLoad → ImageLoad) : (b.modImage f).ho.post = b.ho.post := rfl
@[simp] theorem Block.modImage_ho_bm (b : Block) (f : ImageLoad → ImageLoad) : (b.modImage f).ho.bm = b.ho.bm := rfl
@[simp] theorem Block.modResets_env (b : Block) (f : ResetLog → ResetLog) : (b.modResets f).env = b.env := rfl
@[simp] theorem Block.modResets_outs (b : Block) (f : ResetLog → ResetLog) : (b.modResets f).outs = b.outs := rfl
@[simp] theorem Block.modResets_pm (b : Block) (f : ResetLog → ResetLog) : (b.modResets f).pm = b.pm := rfl
@[simp] theorem Block.modResets_svc (b : Block) (f : ResetLog → ResetLog) : (b.modResets f).svc = b.svc := rfl
@[simp] theorem Block.modResets_keys (b : Block) (f : ResetLog → ResetLog) : (b.modResets f).keys = b.keys := rfl
@[simp] theorem Block.modResets_cfg (b : Block) (f : ResetLog → ResetLog) : (b.modResets f).cfg = b.cfg := rfl
@[simp] theorem Block.modResets_ledger (b : Block) (f : ResetLog → ResetLog) : (b.modResets f).ledger = b.ledger := rfl
@[simp] theorem Block.modResets_arch (b : Block) (f : ResetLog → ResetLog) : (b.modResets f).arch = b.arch := rfl
@[simp] theorem Block.modResets_stop (b : Block) (f : ResetLog → ResetLog) : (b.modResets f).stop = b.stop := rfl
@[simp] theorem Block.modResets_units (b : Block) (f : ResetLog → ResetLog) : (b.modResets f).units = b.units := rfl
@[simp] theorem Block.modResets_dbg (b : Block) (f : ResetLog → ResetLog) : (b.modResets f).dbg = b.dbg := rfl
@[simp] theorem Block.modResets_letters (b : Block) (f : ResetLog → ResetLog) : (b.modResets f).letters = b.letters := rfl
@[simp] theorem Block.modResets_free (b : Block) (f : ResetLog → ResetLog) : (b.modResets f).free = b.free := rfl
@[simp] theorem Block.modResets_ho_mgmt (b : Block) (f : ResetLog → ResetLog) : (b.modResets f).ho.mgmt = b.ho.mgmt := rfl
@[simp] theorem Block.modResets_ho_mail (b : Block) (f : ResetLog → ResetLog) : (b.modResets f).ho.mail = b.ho.mail := rfl
@[simp] theorem Block.modResets_ho_job (b : Block) (f : ResetLog → ResetLog) : (b.modResets f).ho.job = b.ho.job := rfl
@[simp] theorem Block.modResets_ho_policy (b : Block) (f : ResetLog → ResetLog) : (b.modResets f).ho.policy = b.ho.policy := rfl
@[simp] theorem Block.modResets_ho_resets (b : Block) (f : ResetLog → ResetLog) : (b.modResets f).ho.resets = f b.ho.resets := rfl
@[simp] theorem Block.modResets_ho_fleet (b : Block) (f : ResetLog → ResetLog) : (b.modResets f).ho.fleet = b.ho.fleet := rfl
@[simp] theorem Block.modResets_ho_parcel (b : Block) (f : ResetLog → ResetLog) : (b.modResets f).ho.parcel = b.ho.parcel := rfl
@[simp] theorem Block.modResets_ho_image (b : Block) (f : ResetLog → ResetLog) : (b.modResets f).ho.image = b.ho.image := rfl
@[simp] theorem Block.modResets_ho_post (b : Block) (f : ResetLog → ResetLog) : (b.modResets f).ho.post = b.ho.post := rfl
@[simp] theorem Block.modResets_ho_bm (b : Block) (f : ResetLog → ResetLog) : (b.modResets f).ho.bm = b.ho.bm := rfl
@[simp] theorem Block.setCore_env (b : Block) (k : Nat) (x : Core) : (b.setCore k x).env = b.env := rfl
@[simp] theorem Block.setCore_outs (b : Block) (k : Nat) (x : Core) : (b.setCore k x).outs = b.outs := rfl
@[simp] theorem Block.setCore_pm (b : Block) (k : Nat) (x : Core) : (b.setCore k x).pm = b.pm := rfl
@[simp] theorem Block.setCore_svc (b : Block) (k : Nat) (x : Core) : (b.setCore k x).svc = b.svc := rfl
@[simp] theorem Block.setCore_keys (b : Block) (k : Nat) (x : Core) : (b.setCore k x).keys = b.keys := rfl
@[simp] theorem Block.setCore_cfg (b : Block) (k : Nat) (x : Core) : (b.setCore k x).cfg = b.cfg := rfl
@[simp] theorem Block.setCore_ledger (b : Block) (k : Nat) (x : Core) : (b.setCore k x).ledger = b.ledger := rfl
@[simp] theorem Block.setCore_arch (b : Block) (k : Nat) (x : Core) : (b.setCore k x).arch = b.arch := rfl
@[simp] theorem Block.setCore_stop (b : Block) (k : Nat) (x : Core) : (b.setCore k x).stop = b.stop := rfl
@[simp] theorem Block.setCore_ho (b : Block) (k : Nat) (x : Core) : (b.setCore k x).ho = b.ho := rfl
@[simp] theorem Block.setCore_dbg (b : Block) (k : Nat) (x : Core) : (b.setCore k x).dbg = b.dbg := rfl
@[simp] theorem Block.setCore_letters (b : Block) (k : Nat) (x : Core) : (b.setCore k x).letters = b.letters := rfl
@[simp] theorem Block.setCore_free (b : Block) (k : Nat) (x : Core) : (b.setCore k x).free = b.free := rfl
@[simp] theorem Block.setCore_units_offices (b : Block) (k : Nat) (x : Core) : (b.setCore k x).units.offices = b.units.offices := rfl
@[simp] theorem Block.setCore_units_routers (b : Block) (k : Nat) (x : Core) : (b.setCore k x).units.routers = b.units.routers := rfl
@[simp] theorem Block.setCore_units_nodes (b : Block) (k : Nat) (x : Core) : (b.setCore k x).units.nodes = b.units.nodes := rfl
@[simp] theorem Block.setCore_units_couriers (b : Block) (k : Nat) (x : Core) : (b.setCore k x).units.couriers = b.units.couriers := rfl
@[simp] theorem Block.modCore_env (b : Block) (k : Nat) (f : Core → Core) : (b.modCore k f).env = b.env := rfl
@[simp] theorem Block.modCore_outs (b : Block) (k : Nat) (f : Core → Core) : (b.modCore k f).outs = b.outs := rfl
@[simp] theorem Block.modCore_pm (b : Block) (k : Nat) (f : Core → Core) : (b.modCore k f).pm = b.pm := rfl
@[simp] theorem Block.modCore_svc (b : Block) (k : Nat) (f : Core → Core) : (b.modCore k f).svc = b.svc := rfl
@[simp] theorem Block.modCore_keys (b : Block) (k : Nat) (f : Core → Core) : (b.modCore k f).keys = b.keys := rfl
@[simp] theorem Block.modCore_cfg (b : Block) (k : Nat) (f : Core → Core) : (b.modCore k f).cfg = b.cfg := rfl
@[simp] theorem Block.modCore_ledger (b : Block) (k : Nat) (f : Core → Core) : (b.modCore k f).ledger = b.ledger := rfl
@[simp] theorem Block.modCore_arch (b : Block) (k : Nat) (f : Core → Core) : (b.modCore k f).arch = b.arch := rfl
@[simp] theorem Block.modCore_stop (b : Block) (k : Nat) (f : Core → Core) : (b.modCore k f).stop = b.stop := rfl
@[simp] theorem Block.modCore_ho (b : Block) (k : Nat) (f : Core → Core) : (b.modCore k f).ho = b.ho := rfl
@[simp] theorem Block.modCore_dbg (b : Block) (k : Nat) (f : Core → Core) : (b.modCore k f).dbg = b.dbg := rfl
@[simp] theorem Block.modCore_letters (b : Block) (k : Nat) (f : Core → Core) : (b.modCore k f).letters = b.letters := rfl
@[simp] theorem Block.modCore_free (b : Block) (k : Nat) (f : Core → Core) : (b.modCore k f).free = b.free := rfl
@[simp] theorem Block.modCore_units_offices (b : Block) (k : Nat) (f : Core → Core) : (b.modCore k f).units.offices = b.units.offices := rfl
@[simp] theorem Block.modCore_units_routers (b : Block) (k : Nat) (f : Core → Core) : (b.modCore k f).units.routers = b.units.routers := rfl
@[simp] theorem Block.modCore_units_nodes (b : Block) (k : Nat) (f : Core → Core) : (b.modCore k f).units.nodes = b.units.nodes := rfl
@[simp] theorem Block.modCore_units_couriers (b : Block) (k : Nat) (f : Core → Core) : (b.modCore k f).units.couriers = b.units.couriers := rfl
@[simp] theorem Block.setOffice_env (b : Block) (k : Nat) (x : Office) : (b.setOffice k x).env = b.env := rfl
@[simp] theorem Block.setOffice_outs (b : Block) (k : Nat) (x : Office) : (b.setOffice k x).outs = b.outs := rfl
@[simp] theorem Block.setOffice_pm (b : Block) (k : Nat) (x : Office) : (b.setOffice k x).pm = b.pm := rfl
@[simp] theorem Block.setOffice_svc (b : Block) (k : Nat) (x : Office) : (b.setOffice k x).svc = b.svc := rfl
@[simp] theorem Block.setOffice_keys (b : Block) (k : Nat) (x : Office) : (b.setOffice k x).keys = b.keys := rfl
@[simp] theorem Block.setOffice_cfg (b : Block) (k : Nat) (x : Office) : (b.setOffice k x).cfg = b.cfg := rfl
@[simp] theorem Block.setOffice_ledger (b : Block) (k : Nat) (x : Office) : (b.setOffice k x).ledger = b.ledger := rfl
@[simp] theorem Block.setOffice_arch (b : Block) (k : Nat) (x : Office) : (b.setOffice k x).arch = b.arch := rfl
@[simp] theorem Block.setOffice_stop (b : Block) (k : Nat) (x : Office) : (b.setOffice k x).stop = b.stop := rfl
@[simp] theorem Block.setOffice_ho (b : Block) (k : Nat) (x : Office) : (b.setOffice k x).ho = b.ho := rfl
@[simp] theorem Block.setOffice_dbg (b : Block) (k : Nat) (x : Office) : (b.setOffice k x).dbg = b.dbg := rfl
@[simp] theorem Block.setOffice_letters (b : Block) (k : Nat) (x : Office) : (b.setOffice k x).letters = b.letters := rfl
@[simp] theorem Block.setOffice_free (b : Block) (k : Nat) (x : Office) : (b.setOffice k x).free = b.free := rfl
@[simp] theorem Block.setOffice_units_cores (b : Block) (k : Nat) (x : Office) : (b.setOffice k x).units.cores = b.units.cores := rfl
@[simp] theorem Block.setOffice_units_routers (b : Block) (k : Nat) (x : Office) : (b.setOffice k x).units.routers = b.units.routers := rfl
@[simp] theorem Block.setOffice_units_nodes (b : Block) (k : Nat) (x : Office) : (b.setOffice k x).units.nodes = b.units.nodes := rfl
@[simp] theorem Block.setOffice_units_couriers (b : Block) (k : Nat) (x : Office) : (b.setOffice k x).units.couriers = b.units.couriers := rfl
@[simp] theorem Block.modOffice_env (b : Block) (k : Nat) (f : Office → Office) : (b.modOffice k f).env = b.env := rfl
@[simp] theorem Block.modOffice_outs (b : Block) (k : Nat) (f : Office → Office) : (b.modOffice k f).outs = b.outs := rfl
@[simp] theorem Block.modOffice_pm (b : Block) (k : Nat) (f : Office → Office) : (b.modOffice k f).pm = b.pm := rfl
@[simp] theorem Block.modOffice_svc (b : Block) (k : Nat) (f : Office → Office) : (b.modOffice k f).svc = b.svc := rfl
@[simp] theorem Block.modOffice_keys (b : Block) (k : Nat) (f : Office → Office) : (b.modOffice k f).keys = b.keys := rfl
@[simp] theorem Block.modOffice_cfg (b : Block) (k : Nat) (f : Office → Office) : (b.modOffice k f).cfg = b.cfg := rfl
@[simp] theorem Block.modOffice_ledger (b : Block) (k : Nat) (f : Office → Office) : (b.modOffice k f).ledger = b.ledger := rfl
@[simp] theorem Block.modOffice_arch (b : Block) (k : Nat) (f : Office → Office) : (b.modOffice k f).arch = b.arch := rfl
@[simp] theorem Block.modOffice_stop (b : Block) (k : Nat) (f : Office → Office) : (b.modOffice k f).stop = b.stop := rfl
@[simp] theorem Block.modOffice_ho (b : Block) (k : Nat) (f : Office → Office) : (b.modOffice k f).ho = b.ho := rfl
@[simp] theorem Block.modOffice_dbg (b : Block) (k : Nat) (f : Office → Office) : (b.modOffice k f).dbg = b.dbg := rfl
@[simp] theorem Block.modOffice_letters (b : Block) (k : Nat) (f : Office → Office) : (b.modOffice k f).letters = b.letters := rfl
@[simp] theorem Block.modOffice_free (b : Block) (k : Nat) (f : Office → Office) : (b.modOffice k f).free = b.free := rfl
@[simp] theorem Block.modOffice_units_cores (b : Block) (k : Nat) (f : Office → Office) : (b.modOffice k f).units.cores = b.units.cores := rfl
@[simp] theorem Block.modOffice_units_routers (b : Block) (k : Nat) (f : Office → Office) : (b.modOffice k f).units.routers = b.units.routers := rfl
@[simp] theorem Block.modOffice_units_nodes (b : Block) (k : Nat) (f : Office → Office) : (b.modOffice k f).units.nodes = b.units.nodes := rfl
@[simp] theorem Block.modOffice_units_couriers (b : Block) (k : Nat) (f : Office → Office) : (b.modOffice k f).units.couriers = b.units.couriers := rfl
@[simp] theorem Block.setRouter_env (b : Block) (k : Nat) (x : Router) : (b.setRouter k x).env = b.env := rfl
@[simp] theorem Block.setRouter_outs (b : Block) (k : Nat) (x : Router) : (b.setRouter k x).outs = b.outs := rfl
@[simp] theorem Block.setRouter_pm (b : Block) (k : Nat) (x : Router) : (b.setRouter k x).pm = b.pm := rfl
@[simp] theorem Block.setRouter_svc (b : Block) (k : Nat) (x : Router) : (b.setRouter k x).svc = b.svc := rfl
@[simp] theorem Block.setRouter_keys (b : Block) (k : Nat) (x : Router) : (b.setRouter k x).keys = b.keys := rfl
@[simp] theorem Block.setRouter_cfg (b : Block) (k : Nat) (x : Router) : (b.setRouter k x).cfg = b.cfg := rfl
@[simp] theorem Block.setRouter_ledger (b : Block) (k : Nat) (x : Router) : (b.setRouter k x).ledger = b.ledger := rfl
@[simp] theorem Block.setRouter_arch (b : Block) (k : Nat) (x : Router) : (b.setRouter k x).arch = b.arch := rfl
@[simp] theorem Block.setRouter_stop (b : Block) (k : Nat) (x : Router) : (b.setRouter k x).stop = b.stop := rfl
@[simp] theorem Block.setRouter_ho (b : Block) (k : Nat) (x : Router) : (b.setRouter k x).ho = b.ho := rfl
@[simp] theorem Block.setRouter_dbg (b : Block) (k : Nat) (x : Router) : (b.setRouter k x).dbg = b.dbg := rfl
@[simp] theorem Block.setRouter_letters (b : Block) (k : Nat) (x : Router) : (b.setRouter k x).letters = b.letters := rfl
@[simp] theorem Block.setRouter_free (b : Block) (k : Nat) (x : Router) : (b.setRouter k x).free = b.free := rfl
@[simp] theorem Block.setRouter_units_cores (b : Block) (k : Nat) (x : Router) : (b.setRouter k x).units.cores = b.units.cores := rfl
@[simp] theorem Block.setRouter_units_offices (b : Block) (k : Nat) (x : Router) : (b.setRouter k x).units.offices = b.units.offices := rfl
@[simp] theorem Block.setRouter_units_nodes (b : Block) (k : Nat) (x : Router) : (b.setRouter k x).units.nodes = b.units.nodes := rfl
@[simp] theorem Block.setRouter_units_couriers (b : Block) (k : Nat) (x : Router) : (b.setRouter k x).units.couriers = b.units.couriers := rfl
@[simp] theorem Block.modRouter_env (b : Block) (k : Nat) (f : Router → Router) : (b.modRouter k f).env = b.env := rfl
@[simp] theorem Block.modRouter_outs (b : Block) (k : Nat) (f : Router → Router) : (b.modRouter k f).outs = b.outs := rfl
@[simp] theorem Block.modRouter_pm (b : Block) (k : Nat) (f : Router → Router) : (b.modRouter k f).pm = b.pm := rfl
@[simp] theorem Block.modRouter_svc (b : Block) (k : Nat) (f : Router → Router) : (b.modRouter k f).svc = b.svc := rfl
@[simp] theorem Block.modRouter_keys (b : Block) (k : Nat) (f : Router → Router) : (b.modRouter k f).keys = b.keys := rfl
@[simp] theorem Block.modRouter_cfg (b : Block) (k : Nat) (f : Router → Router) : (b.modRouter k f).cfg = b.cfg := rfl
@[simp] theorem Block.modRouter_ledger (b : Block) (k : Nat) (f : Router → Router) : (b.modRouter k f).ledger = b.ledger := rfl
@[simp] theorem Block.modRouter_arch (b : Block) (k : Nat) (f : Router → Router) : (b.modRouter k f).arch = b.arch := rfl
@[simp] theorem Block.modRouter_stop (b : Block) (k : Nat) (f : Router → Router) : (b.modRouter k f).stop = b.stop := rfl
@[simp] theorem Block.modRouter_ho (b : Block) (k : Nat) (f : Router → Router) : (b.modRouter k f).ho = b.ho := rfl
@[simp] theorem Block.modRouter_dbg (b : Block) (k : Nat) (f : Router → Router) : (b.modRouter k f).dbg = b.dbg := rfl
@[simp] theorem Block.modRouter_letters (b : Block) (k : Nat) (f : Router → Router) : (b.modRouter k f).letters = b.letters := rfl
@[simp] theorem Block.modRouter_free (b : Block) (k : Nat) (f : Router → Router) : (b.modRouter k f).free = b.free := rfl
@[simp] theorem Block.modRouter_units_cores (b : Block) (k : Nat) (f : Router → Router) : (b.modRouter k f).units.cores = b.units.cores := rfl
@[simp] theorem Block.modRouter_units_offices (b : Block) (k : Nat) (f : Router → Router) : (b.modRouter k f).units.offices = b.units.offices := rfl
@[simp] theorem Block.modRouter_units_nodes (b : Block) (k : Nat) (f : Router → Router) : (b.modRouter k f).units.nodes = b.units.nodes := rfl
@[simp] theorem Block.modRouter_units_couriers (b : Block) (k : Nat) (f : Router → Router) : (b.modRouter k f).units.couriers = b.units.couriers := rfl
@[simp] theorem Block.setNode_env (b : Block) (k : Nat) (x : Router) : (b.setNode k x).env = b.env := rfl
@[simp] theorem Block.setNode_outs (b : Block) (k : Nat) (x : Router) : (b.setNode k x).outs = b.outs := rfl
@[simp] theorem Block.setNode_pm (b : Block) (k : Nat) (x : Router) : (b.setNode k x).pm = b.pm := rfl
@[simp] theorem Block.setNode_svc (b : Block) (k : Nat) (x : Router) : (b.setNode k x).svc = b.svc := rfl
@[simp] theorem Block.setNode_keys (b : Block) (k : Nat) (x : Router) : (b.setNode k x).keys = b.keys := rfl
@[simp] theorem Block.setNode_cfg (b : Block) (k : Nat) (x : Router) : (b.setNode k x).cfg = b.cfg := rfl
@[simp] theorem Block.setNode_ledger (b : Block) (k : Nat) (x : Router) : (b.setNode k x).ledger = b.ledger := rfl
@[simp] theorem Block.setNode_arch (b : Block) (k : Nat) (x : Router) : (b.setNode k x).arch = b.arch := rfl
@[simp] theorem Block.setNode_stop (b : Block) (k : Nat) (x : Router) : (b.setNode k x).stop = b.stop := rfl
@[simp] theorem Block.setNode_ho (b : Block) (k : Nat) (x : Router) : (b.setNode k x).ho = b.ho := rfl
@[simp] theorem Block.setNode_dbg (b : Block) (k : Nat) (x : Router) : (b.setNode k x).dbg = b.dbg := rfl
@[simp] theorem Block.setNode_letters (b : Block) (k : Nat) (x : Router) : (b.setNode k x).letters = b.letters := rfl
@[simp] theorem Block.setNode_free (b : Block) (k : Nat) (x : Router) : (b.setNode k x).free = b.free := rfl
@[simp] theorem Block.setNode_units_cores (b : Block) (k : Nat) (x : Router) : (b.setNode k x).units.cores = b.units.cores := rfl
@[simp] theorem Block.setNode_units_offices (b : Block) (k : Nat) (x : Router) : (b.setNode k x).units.offices = b.units.offices := rfl
@[simp] theorem Block.setNode_units_routers (b : Block) (k : Nat) (x : Router) : (b.setNode k x).units.routers = b.units.routers := rfl
@[simp] theorem Block.setNode_units_couriers (b : Block) (k : Nat) (x : Router) : (b.setNode k x).units.couriers = b.units.couriers := rfl
@[simp] theorem Block.modNode_env (b : Block) (k : Nat) (f : Router → Router) : (b.modNode k f).env = b.env := rfl
@[simp] theorem Block.modNode_outs (b : Block) (k : Nat) (f : Router → Router) : (b.modNode k f).outs = b.outs := rfl
@[simp] theorem Block.modNode_pm (b : Block) (k : Nat) (f : Router → Router) : (b.modNode k f).pm = b.pm := rfl
@[simp] theorem Block.modNode_svc (b : Block) (k : Nat) (f : Router → Router) : (b.modNode k f).svc = b.svc := rfl
@[simp] theorem Block.modNode_keys (b : Block) (k : Nat) (f : Router → Router) : (b.modNode k f).keys = b.keys := rfl
@[simp] theorem Block.modNode_cfg (b : Block) (k : Nat) (f : Router → Router) : (b.modNode k f).cfg = b.cfg := rfl
@[simp] theorem Block.modNode_ledger (b : Block) (k : Nat) (f : Router → Router) : (b.modNode k f).ledger = b.ledger := rfl
@[simp] theorem Block.modNode_arch (b : Block) (k : Nat) (f : Router → Router) : (b.modNode k f).arch = b.arch := rfl
@[simp] theorem Block.modNode_stop (b : Block) (k : Nat) (f : Router → Router) : (b.modNode k f).stop = b.stop := rfl
@[simp] theorem Block.modNode_ho (b : Block) (k : Nat) (f : Router → Router) : (b.modNode k f).ho = b.ho := rfl
@[simp] theorem Block.modNode_dbg (b : Block) (k : Nat) (f : Router → Router) : (b.modNode k f).dbg = b.dbg := rfl
@[simp] theorem Block.modNode_letters (b : Block) (k : Nat) (f : Router → Router) : (b.modNode k f).letters = b.letters := rfl
@[simp] theorem Block.modNode_free (b : Block) (k : Nat) (f : Router → Router) : (b.modNode k f).free = b.free := rfl
@[simp] theorem Block.modNode_units_cores (b : Block) (k : Nat) (f : Router → Router) : (b.modNode k f).units.cores = b.units.cores := rfl
@[simp] theorem Block.modNode_units_offices (b : Block) (k : Nat) (f : Router → Router) : (b.modNode k f).units.offices = b.units.offices := rfl
@[simp] theorem Block.modNode_units_routers (b : Block) (k : Nat) (f : Router → Router) : (b.modNode k f).units.routers = b.units.routers := rfl
@[simp] theorem Block.modNode_units_couriers (b : Block) (k : Nat) (f : Router → Router) : (b.modNode k f).units.couriers = b.units.couriers := rfl
@[simp] theorem Block.setCourier_env (b : Block) (k : Nat) (x : Courier) : (b.setCourier k x).env = b.env := rfl
@[simp] theorem Block.setCourier_outs (b : Block) (k : Nat) (x : Courier) : (b.setCourier k x).outs = b.outs := rfl
@[simp] theorem Block.setCourier_pm (b : Block) (k : Nat) (x : Courier) : (b.setCourier k x).pm = b.pm := rfl
@[simp] theorem Block.setCourier_svc (b : Block) (k : Nat) (x : Courier) : (b.setCourier k x).svc = b.svc := rfl
@[simp] theorem Block.setCourier_keys (b : Block) (k : Nat) (x : Courier) : (b.setCourier k x).keys = b.keys := rfl
@[simp] theorem Block.setCourier_cfg (b : Block) (k : Nat) (x : Courier) : (b.setCourier k x).cfg = b.cfg := rfl
@[simp] theorem Block.setCourier_ledger (b : Block) (k : Nat) (x : Courier) : (b.setCourier k x).ledger = b.ledger := rfl
@[simp] theorem Block.setCourier_arch (b : Block) (k : Nat) (x : Courier) : (b.setCourier k x).arch = b.arch := rfl
@[simp] theorem Block.setCourier_stop (b : Block) (k : Nat) (x : Courier) : (b.setCourier k x).stop = b.stop := rfl
@[simp] theorem Block.setCourier_ho (b : Block) (k : Nat) (x : Courier) : (b.setCourier k x).ho = b.ho := rfl
@[simp] theorem Block.setCourier_dbg (b : Block) (k : Nat) (x : Courier) : (b.setCourier k x).dbg = b.dbg := rfl
@[simp] theorem Block.setCourier_letters (b : Block) (k : Nat) (x : Courier) : (b.setCourier k x).letters = b.letters := rfl
@[simp] theorem Block.setCourier_free (b : Block) (k : Nat) (x : Courier) : (b.setCourier k x).free = b.free := rfl
@[simp] theorem Block.setCourier_units_cores (b : Block) (k : Nat) (x : Courier) : (b.setCourier k x).units.cores = b.units.cores := rfl
@[simp] theorem Block.setCourier_units_offices (b : Block) (k : Nat) (x : Courier) : (b.setCourier k x).units.offices = b.units.offices := rfl
@[simp] theorem Block.setCourier_units_routers (b : Block) (k : Nat) (x : Courier) : (b.setCourier k x).units.routers = b.units.routers := rfl
@[simp] theorem Block.setCourier_units_nodes (b : Block) (k : Nat) (x : Courier) : (b.setCourier k x).units.nodes = b.units.nodes := rfl
@[simp] theorem Block.modCourier_env (b : Block) (k : Nat) (f : Courier → Courier) : (b.modCourier k f).env = b.env := rfl
@[simp] theorem Block.modCourier_outs (b : Block) (k : Nat) (f : Courier → Courier) : (b.modCourier k f).outs = b.outs := rfl
@[simp] theorem Block.modCourier_pm (b : Block) (k : Nat) (f : Courier → Courier) : (b.modCourier k f).pm = b.pm := rfl
@[simp] theorem Block.modCourier_svc (b : Block) (k : Nat) (f : Courier → Courier) : (b.modCourier k f).svc = b.svc := rfl
@[simp] theorem Block.modCourier_keys (b : Block) (k : Nat) (f : Courier → Courier) : (b.modCourier k f).keys = b.keys := rfl
@[simp] theorem Block.modCourier_cfg (b : Block) (k : Nat) (f : Courier → Courier) : (b.modCourier k f).cfg = b.cfg := rfl
@[simp] theorem Block.modCourier_ledger (b : Block) (k : Nat) (f : Courier → Courier) : (b.modCourier k f).ledger = b.ledger := rfl
@[simp] theorem Block.modCourier_arch (b : Block) (k : Nat) (f : Courier → Courier) : (b.modCourier k f).arch = b.arch := rfl
@[simp] theorem Block.modCourier_stop (b : Block) (k : Nat) (f : Courier → Courier) : (b.modCourier k f).stop = b.stop := rfl
@[simp] theorem Block.modCourier_ho (b : Block) (k : Nat) (f : Courier → Courier) : (b.modCourier k f).ho = b.ho := rfl
@[simp] theorem Block.modCourier_dbg (b : Block) (k : Nat) (f : Courier → Courier) : (b.modCourier k f).dbg = b.dbg := rfl
@[simp] theorem Block.modCourier_letters (b : Block) (k : Nat) (f : Courier → Courier) : (b.modCourier k f).letters = b.letters := rfl
@[simp] theorem Block.modCourier_free (b : Block) (k : Nat) (f : Courier → Courier) : (b.modCourier k f).free = b.free := rfl
@[simp] theorem Block.modCourier_units_cores (b : Block) (k : Nat) (f : Courier → Courier) : (b.modCourier k f).units.cores = b.units.cores := rfl
@[simp] theorem Block.modCourier_units_offices (b : Block) (k : Nat) (f : Courier → Courier) : (b.modCourier k f).units.offices = b.units.offices := rfl
@[simp] theorem Block.modCourier_units_routers (b : Block) (k : Nat) (f : Courier → Courier) : (b.modCourier k f).units.routers = b.units.routers := rfl
@[simp] theorem Block.modCourier_units_nodes (b : Block) (k : Nat) (f : Courier → Courier) : (b.modCourier k f).units.nodes = b.units.nodes := rfl
@[simp] theorem Block.allCores_env (b : Block) (f : Core → Core) : (b.allCores f).env = b.env := rfl
@[simp] theorem Block.allCores_outs (b : Block) (f : Core → Core) : (b.allCores f).outs = b.outs := rfl
@[simp] theorem Block.allCores_pm (b : Block) (f : Core → Core) : (b.allCores f).pm = b.pm := rfl
@[simp] theorem Block.allCores_svc (b : Block) (f : Core → Core) : (b.allCores f).svc = b.svc := rfl
@[simp] theorem Block.allCores_keys (b : Block) (f : Core → Core) : (b.allCores f).keys = b.keys := rfl
@[simp] theorem Block.allCores_cfg (b : Block) (f : Core → Core) : (b.allCores f).cfg = b.cfg := rfl
@[simp] theorem Block.allCores_ledger (b : Block) (f : Core → Core) : (b.allCores f).ledger = b.ledger := rfl
@[simp] theorem Block.allCores_arch (b : Block) (f : Core → Core) : (b.allCores f).arch = b.arch := rfl
@[simp] theorem Block.allCores_stop (b : Block) (f : Core → Core) : (b.allCores f).stop = b.stop := rfl
@[simp] theorem Block.allCores_ho (b : Block) (f : Core → Core) : (b.allCores f).ho = b.ho := rfl
@[simp] theorem Block.allCores_dbg (b : Block) (f : Core → Core) : (b.allCores f).dbg = b.dbg := rfl
@[simp] theorem Block.allCores_letters (b : Block) (f : Core → Core) : (b.allCores f).letters = b.letters := rfl
@[simp] theorem Block.allCores_free (b : Block) (f : Core → Core) : (b.allCores f).free = b.free := rfl
@[simp] theorem Block.allCores_units_offices (b : Block) (f : Core → Core) : (b.allCores f).units.offices = b.units.offices := rfl
@[simp] theorem Block.allCores_units_routers (b : Block) (f : Core → Core) : (b.allCores f).units.routers = b.units.routers := rfl
@[simp] theorem Block.allCores_units_nodes (b : Block) (f : Core → Core) : (b.allCores f).units.nodes = b.units.nodes := rfl
@[simp] theorem Block.allCores_units_couriers (b : Block) (f : Core → Core) : (b.allCores f).units.couriers = b.units.couriers := rfl
@[simp] theorem Block.allOffices_env (b : Block) (f : Office → Office) : (b.allOffices f).env = b.env := rfl
@[simp] theorem Block.allOffices_outs (b : Block) (f : Office → Office) : (b.allOffices f).outs = b.outs := rfl
@[simp] theorem Block.allOffices_pm (b : Block) (f : Office → Office) : (b.allOffices f).pm = b.pm := rfl
@[simp] theorem Block.allOffices_svc (b : Block) (f : Office → Office) : (b.allOffices f).svc = b.svc := rfl
@[simp] theorem Block.allOffices_keys (b : Block) (f : Office → Office) : (b.allOffices f).keys = b.keys := rfl
@[simp] theorem Block.allOffices_cfg (b : Block) (f : Office → Office) : (b.allOffices f).cfg = b.cfg := rfl
@[simp] theorem Block.allOffices_ledger (b : Block) (f : Office → Office) : (b.allOffices f).ledger = b.ledger := rfl
@[simp] theorem Block.allOffices_arch (b : Block) (f : Office → Office) : (b.allOffices f).arch = b.arch := rfl
@[simp] theorem Block.allOffices_stop (b : Block) (f : Office → Office) : (b.allOffices f).stop = b.stop := rfl
@[simp] theorem Block.allOffices_ho (b : Block) (f : Office → Office) : (b.allOffices f).ho = b.ho := rfl
@[simp] theorem Block.allOffices_dbg (b : Block) (f : Office → Office) : (b.allOffices f).dbg = b.dbg := rfl
@[simp] theorem Block.allOffices_letters (b : Block) (f : Office → Office) : (b.allOffices f).letters = b.letters := rfl
@[simp] theorem Block.allOffices_free (b : Block) (f : Office → Office) : (b.allOffices f).free = b.free := rfl
@[simp] theorem Block.allOffices_units_cores (b : Block) (f : Office → Office) : (b.allOffices f).units.cores = b.units.cores := rfl
@[simp] theorem Block.allOffices_units_routers (b : Block) (f : Office → Office) : (b.allOffices f).units.routers = b.units.routers := rfl
@[simp] theorem Block.allOffices_units_nodes (b : Block) (f : Office → Office) : (b.allOffices f).units.nodes = b.units.nodes := rfl
@[simp] theorem Block.allOffices_units_couriers (b : Block) (f : Office → Office) : (b.allOffices f).units.couriers = b.units.couriers := rfl
@[simp] theorem Block.allRouters_env (b : Block) (f : Router → Router) : (b.allRouters f).env = b.env := rfl
@[simp] theorem Block.allRouters_outs (b : Block) (f : Router → Router) : (b.allRouters f).outs = b.outs := rfl
@[simp] theorem Block.allRouters_pm (b : Block) (f : Router → Router) : (b.allRouters f).pm = b.pm := rfl
@[simp] theorem Block.allRouters_svc (b : Block) (f : Router → Router) : (b.allRouters f).svc = b.svc := rfl
@[simp] theorem Block.allRouters_keys (b : Block) (f : Router → Router) : (b.allRouters f).keys = b.keys := rfl
@[simp] theorem Block.allRouters_cfg (b : Block) (f : Router → Router) : (b.allRouters f).cfg = b.cfg := rfl
@[simp] theorem Block.allRouters_ledger (b : Block) (f : Router → Router) : (b.allRouters f).ledger = b.ledger := rfl
@[simp] theorem Block.allRouters_arch (b : Block) (f : Router → Router) : (b.allRouters f).arch = b.arch := rfl
@[simp] theorem Block.allRouters_stop (b : Block) (f : Router → Router) : (b.allRouters f).stop = b.stop := rfl
@[simp] theorem Block.allRouters_ho (b : Block) (f : Router → Router) : (b.allRouters f).ho = b.ho := rfl
@[simp] theorem Block.allRouters_dbg (b : Block) (f : Router → Router) : (b.allRouters f).dbg = b.dbg := rfl
@[simp] theorem Block.allRouters_letters (b : Block) (f : Router → Router) : (b.allRouters f).letters = b.letters := rfl
@[simp] theorem Block.allRouters_free (b : Block) (f : Router → Router) : (b.allRouters f).free = b.free := rfl
@[simp] theorem Block.allRouters_units_cores (b : Block) (f : Router → Router) : (b.allRouters f).units.cores = b.units.cores := rfl
@[simp] theorem Block.allRouters_units_offices (b : Block) (f : Router → Router) : (b.allRouters f).units.offices = b.units.offices := rfl
@[simp] theorem Block.allRouters_units_nodes (b : Block) (f : Router → Router) : (b.allRouters f).units.nodes = b.units.nodes := rfl
@[simp] theorem Block.allRouters_units_couriers (b : Block) (f : Router → Router) : (b.allRouters f).units.couriers = b.units.couriers := rfl
@[simp] theorem Block.allNodes_env (b : Block) (f : Router → Router) : (b.allNodes f).env = b.env := rfl
@[simp] theorem Block.allNodes_outs (b : Block) (f : Router → Router) : (b.allNodes f).outs = b.outs := rfl
@[simp] theorem Block.allNodes_pm (b : Block) (f : Router → Router) : (b.allNodes f).pm = b.pm := rfl
@[simp] theorem Block.allNodes_svc (b : Block) (f : Router → Router) : (b.allNodes f).svc = b.svc := rfl
@[simp] theorem Block.allNodes_keys (b : Block) (f : Router → Router) : (b.allNodes f).keys = b.keys := rfl
@[simp] theorem Block.allNodes_cfg (b : Block) (f : Router → Router) : (b.allNodes f).cfg = b.cfg := rfl
@[simp] theorem Block.allNodes_ledger (b : Block) (f : Router → Router) : (b.allNodes f).ledger = b.ledger := rfl
@[simp] theorem Block.allNodes_arch (b : Block) (f : Router → Router) : (b.allNodes f).arch = b.arch := rfl
@[simp] theorem Block.allNodes_stop (b : Block) (f : Router → Router) : (b.allNodes f).stop = b.stop := rfl
@[simp] theorem Block.allNodes_ho (b : Block) (f : Router → Router) : (b.allNodes f).ho = b.ho := rfl
@[simp] theorem Block.allNodes_dbg (b : Block) (f : Router → Router) : (b.allNodes f).dbg = b.dbg := rfl
@[simp] theorem Block.allNodes_letters (b : Block) (f : Router → Router) : (b.allNodes f).letters = b.letters := rfl
@[simp] theorem Block.allNodes_free (b : Block) (f : Router → Router) : (b.allNodes f).free = b.free := rfl
@[simp] theorem Block.allNodes_units_cores (b : Block) (f : Router → Router) : (b.allNodes f).units.cores = b.units.cores := rfl
@[simp] theorem Block.allNodes_units_offices (b : Block) (f : Router → Router) : (b.allNodes f).units.offices = b.units.offices := rfl
@[simp] theorem Block.allNodes_units_routers (b : Block) (f : Router → Router) : (b.allNodes f).units.routers = b.units.routers := rfl
@[simp] theorem Block.allNodes_units_couriers (b : Block) (f : Router → Router) : (b.allNodes f).units.couriers = b.units.couriers := rfl
@[simp] theorem Block.allCouriers_env (b : Block) (f : Courier → Courier) : (b.allCouriers f).env = b.env := rfl
@[simp] theorem Block.allCouriers_outs (b : Block) (f : Courier → Courier) : (b.allCouriers f).outs = b.outs := rfl
@[simp] theorem Block.allCouriers_pm (b : Block) (f : Courier → Courier) : (b.allCouriers f).pm = b.pm := rfl
@[simp] theorem Block.allCouriers_svc (b : Block) (f : Courier → Courier) : (b.allCouriers f).svc = b.svc := rfl
@[simp] theorem Block.allCouriers_keys (b : Block) (f : Courier → Courier) : (b.allCouriers f).keys = b.keys := rfl
@[simp] theorem Block.allCouriers_cfg (b : Block) (f : Courier → Courier) : (b.allCouriers f).cfg = b.cfg := rfl
@[simp] theorem Block.allCouriers_ledger (b : Block) (f : Courier → Courier) : (b.allCouriers f).ledger = b.ledger := rfl
@[simp] theorem Block.allCouriers_arch (b : Block) (f : Courier → Courier) : (b.allCouriers f).arch = b.arch := rfl
@[simp] theorem Block.allCouriers_stop (b : Block) (f : Courier → Courier) : (b.allCouriers f).stop = b.stop := rfl
@[simp] theorem Block.allCouriers_ho (b : Block) (f : Courier → Courier) : (b.allCouriers f).ho = b.ho := rfl
@[simp] theorem Block.allCouriers_dbg (b : Block) (f : Courier → Courier) : (b.allCouriers f).dbg = b.dbg := rfl
@[simp] theorem Block.allCouriers_letters (b : Block) (f : Courier → Courier) : (b.allCouriers f).letters = b.letters := rfl
@[simp] theorem Block.allCouriers_free (b : Block) (f : Courier → Courier) : (b.allCouriers f).free = b.free := rfl
@[simp] theorem Block.allCouriers_units_cores (b : Block) (f : Courier → Courier) : (b.allCouriers f).units.cores = b.units.cores := rfl
@[simp] theorem Block.allCouriers_units_offices (b : Block) (f : Courier → Courier) : (b.allCouriers f).units.offices = b.units.offices := rfl
@[simp] theorem Block.allCouriers_units_routers (b : Block) (f : Courier → Courier) : (b.allCouriers f).units.routers = b.units.routers := rfl
@[simp] theorem Block.allCouriers_units_nodes (b : Block) (f : Courier → Courier) : (b.allCouriers f).units.nodes = b.units.nodes := rfl
@[simp] theorem Block.modRing_env (b : Block) (r : Nat) (f : Ring → Ring) : (b.modRing r f).env = b.env := rfl
@[simp] theorem Block.modRing_outs (b : Block) (r : Nat) (f : Ring → Ring) : (b.modRing r f).outs = b.outs := rfl
@[simp] theorem Block.modRing_pm (b : Block) (r : Nat) (f : Ring → Ring) : (b.modRing r f).pm = b.pm := rfl
@[simp] theorem Block.modRing_svc (b : Block) (r : Nat) (f : Ring → Ring) : (b.modRing r f).svc = b.svc := rfl
@[simp] theorem Block.modRing_keys (b : Block) (r : Nat) (f : Ring → Ring) : (b.modRing r f).keys = b.keys := rfl
@[simp] theorem Block.modRing_cfg (b : Block) (r : Nat) (f : Ring → Ring) : (b.modRing r f).cfg = b.cfg := rfl
@[simp] theorem Block.modRing_ledger (b : Block) (r : Nat) (f : Ring → Ring) : (b.modRing r f).ledger = b.ledger := rfl
@[simp] theorem Block.modRing_arch (b : Block) (r : Nat) (f : Ring → Ring) : (b.modRing r f).arch = b.arch := rfl
@[simp] theorem Block.modRing_stop (b : Block) (r : Nat) (f : Ring → Ring) : (b.modRing r f).stop = b.stop := rfl
@[simp] theorem Block.modRing_units (b : Block) (r : Nat) (f : Ring → Ring) : (b.modRing r f).units = b.units := rfl
@[simp] theorem Block.modRing_dbg (b : Block) (r : Nat) (f : Ring → Ring) : (b.modRing r f).dbg = b.dbg := rfl
@[simp] theorem Block.modRing_letters (b : Block) (r : Nat) (f : Ring → Ring) : (b.modRing r f).letters = b.letters := rfl
@[simp] theorem Block.modRing_free (b : Block) (r : Nat) (f : Ring → Ring) : (b.modRing r f).free = b.free := rfl
@[simp] theorem Block.modRing_ho_mgmt (b : Block) (r : Nat) (f : Ring → Ring) : (b.modRing r f).ho.mgmt = b.ho.mgmt := rfl
@[simp] theorem Block.modRing_ho_job (b : Block) (r : Nat) (f : Ring → Ring) : (b.modRing r f).ho.job = b.ho.job := rfl
@[simp] theorem Block.modRing_ho_policy (b : Block) (r : Nat) (f : Ring → Ring) : (b.modRing r f).ho.policy = b.ho.policy := rfl
@[simp] theorem Block.modRing_ho_resets (b : Block) (r : Nat) (f : Ring → Ring) : (b.modRing r f).ho.resets = b.ho.resets := rfl
@[simp] theorem Block.modRing_ho_fleet (b : Block) (r : Nat) (f : Ring → Ring) : (b.modRing r f).ho.fleet = b.ho.fleet := rfl
@[simp] theorem Block.modRing_ho_parcel (b : Block) (r : Nat) (f : Ring → Ring) : (b.modRing r f).ho.parcel = b.ho.parcel := rfl
@[simp] theorem Block.modRing_ho_image (b : Block) (r : Nat) (f : Ring → Ring) : (b.modRing r f).ho.image = b.ho.image := rfl
@[simp] theorem Block.modRing_ho_post (b : Block) (r : Nat) (f : Ring → Ring) : (b.modRing r f).ho.post = b.ho.post := rfl
@[simp] theorem Block.modRing_ho_bm (b : Block) (r : Nat) (f : Ring → Ring) : (b.modRing r f).ho.bm = b.ho.bm := rfl
@[simp] theorem held_outs (o n : Block) : (held o n).outs = n.outs := rfl
@[simp] theorem held_pm (o n : Block) : (held o n).pm = n.pm := rfl
@[simp] theorem held_svc (o n : Block) : (held o n).svc = n.svc := rfl
@[simp] theorem held_keys (o n : Block) : (held o n).keys = n.keys := rfl
@[simp] theorem held_cfg (o n : Block) : (held o n).cfg = n.cfg := rfl
@[simp] theorem held_ledger (o n : Block) : (held o n).ledger = n.ledger := rfl
@[simp] theorem held_arch (o n : Block) : (held o n).arch = n.arch := rfl
@[simp] theorem held_stop (o n : Block) : (held o n).stop = n.stop := rfl
@[simp] theorem held_ho (o n : Block) : (held o n).ho = n.ho := rfl
@[simp] theorem held_units (o n : Block) : (held o n).units = n.units := rfl
@[simp] theorem held_dbg (o n : Block) : (held o n).dbg = n.dbg := rfl
@[simp] theorem held_free (o n : Block) : (held o n).free = n.free := rfl
@[simp] theorem held_porN (o n : Block) : (held o n).env.porN = o.env.porN := rfl
@[simp] theorem held_blkVok (o n : Block) : (held o n).env.blkVok = n.env.blkVok := rfl
@[simp] theorem held_idVld (o n : Block) : (held o n).env.idVld = n.env.idVld := rfl
@[simp] theorem held_feedIn (o n : Block) : (held o n).env.feedIn = n.env.feedIn := rfl
@[simp] theorem held_loopIn (o n : Block) : (held o n).env.loopIn = n.env.loopIn := rfl
@[simp] theorem held_rackIn (o n : Block) : (held o n).env.rackIn = n.env.rackIn := rfl
@[simp] theorem held_rgnVok (o n : Block) : (held o n).env.rgnVok = n.env.rgnVok := rfl
@[simp] theorem held_shdnReq (o n : Block) : (held o n).env.shdnReq = n.env.shdnReq := rfl
@[simp] theorem held_stopInN (o n : Block) : (held o n).env.stopInN = n.env.stopInN := rfl
@[simp] theorem Block.modSvc_core (b : Block) (f : Svc → Svc) (i : Nat) : (b.modSvc f).core i = b.core i := rfl
@[simp] theorem Block.modSvc_office (b : Block) (f : Svc → Svc) (i : Nat) : (b.modSvc f).office i = b.office i := rfl
@[simp] theorem Block.modSvc_router (b : Block) (f : Svc → Svc) (i : Nat) : (b.modSvc f).router i = b.router i := rfl
@[simp] theorem Block.modSvc_node (b : Block) (f : Svc → Svc) (i : Nat) : (b.modSvc f).node i = b.node i := rfl
@[simp] theorem Block.modSvc_courier (b : Block) (f : Svc → Svc) (i : Nat) : (b.modSvc f).courier i = b.courier i := rfl
@[simp] theorem Block.modSvc_ring (b : Block) (f : Svc → Svc) (i : Nat) : (b.modSvc f).ring i = b.ring i := rfl
@[simp] theorem Block.modSvc_hist (b : Block) (f : Svc → Svc) (i : Nat) : (b.modSvc f).hist i = b.hist i := rfl
@[simp] theorem Block.modSvc_now (b : Block) (f : Svc → Svc) : (b.modSvc f).now = b.now := rfl
@[simp] theorem Block.modSvc_present (b : Block) (f : Svc → Svc) (i : Nat) : (b.modSvc f).present i = b.present i := rfl
@[simp] theorem Block.modSvc_populated (b : Block) (f : Svc → Svc) (i : Nat) : (b.modSvc f).populated i = b.populated i := rfl
@[simp] theorem Block.modSvc_inJob (b : Block) (f : Svc → Svc) : (b.modSvc f).inJob = b.inJob := rfl
@[simp] theorem Block.modPm_core (b : Block) (f : Postmark → Postmark) (i : Nat) : (b.modPm f).core i = b.core i := rfl
@[simp] theorem Block.modPm_office (b : Block) (f : Postmark → Postmark) (i : Nat) : (b.modPm f).office i = b.office i := rfl
@[simp] theorem Block.modPm_router (b : Block) (f : Postmark → Postmark) (i : Nat) : (b.modPm f).router i = b.router i := rfl
@[simp] theorem Block.modPm_node (b : Block) (f : Postmark → Postmark) (i : Nat) : (b.modPm f).node i = b.node i := rfl
@[simp] theorem Block.modPm_courier (b : Block) (f : Postmark → Postmark) (i : Nat) : (b.modPm f).courier i = b.courier i := rfl
@[simp] theorem Block.modPm_ring (b : Block) (f : Postmark → Postmark) (i : Nat) : (b.modPm f).ring i = b.ring i := rfl
@[simp] theorem Block.modPm_hist (b : Block) (f : Postmark → Postmark) (i : Nat) : (b.modPm f).hist i = b.hist i := rfl
@[simp] theorem Block.modPm_present (b : Block) (f : Postmark → Postmark) (i : Nat) : (b.modPm f).present i = b.present i := rfl
@[simp] theorem Block.modPm_populated (b : Block) (f : Postmark → Postmark) (i : Nat) : (b.modPm f).populated i = b.populated i := rfl
@[simp] theorem Block.modPm_inJob (b : Block) (f : Postmark → Postmark) : (b.modPm f).inJob = b.inJob := rfl
@[simp] theorem Block.modStop_core (b : Block) (f : Stop → Stop) (i : Nat) : (b.modStop f).core i = b.core i := rfl
@[simp] theorem Block.modStop_office (b : Block) (f : Stop → Stop) (i : Nat) : (b.modStop f).office i = b.office i := rfl
@[simp] theorem Block.modStop_router (b : Block) (f : Stop → Stop) (i : Nat) : (b.modStop f).router i = b.router i := rfl
@[simp] theorem Block.modStop_node (b : Block) (f : Stop → Stop) (i : Nat) : (b.modStop f).node i = b.node i := rfl
@[simp] theorem Block.modStop_courier (b : Block) (f : Stop → Stop) (i : Nat) : (b.modStop f).courier i = b.courier i := rfl
@[simp] theorem Block.modStop_ring (b : Block) (f : Stop → Stop) (i : Nat) : (b.modStop f).ring i = b.ring i := rfl
@[simp] theorem Block.modStop_hist (b : Block) (f : Stop → Stop) (i : Nat) : (b.modStop f).hist i = b.hist i := rfl
@[simp] theorem Block.modStop_now (b : Block) (f : Stop → Stop) : (b.modStop f).now = b.now := rfl
@[simp] theorem Block.modStop_present (b : Block) (f : Stop → Stop) (i : Nat) : (b.modStop f).present i = b.present i := rfl
@[simp] theorem Block.modStop_populated (b : Block) (f : Stop → Stop) (i : Nat) : (b.modStop f).populated i = b.populated i := rfl
@[simp] theorem Block.modStop_inJob (b : Block) (f : Stop → Stop) : (b.modStop f).inJob = b.inJob := rfl
@[simp] theorem Block.modOuts_core (b : Block) (f : Outs → Outs) (i : Nat) : (b.modOuts f).core i = b.core i := rfl
@[simp] theorem Block.modOuts_office (b : Block) (f : Outs → Outs) (i : Nat) : (b.modOuts f).office i = b.office i := rfl
@[simp] theorem Block.modOuts_router (b : Block) (f : Outs → Outs) (i : Nat) : (b.modOuts f).router i = b.router i := rfl
@[simp] theorem Block.modOuts_node (b : Block) (f : Outs → Outs) (i : Nat) : (b.modOuts f).node i = b.node i := rfl
@[simp] theorem Block.modOuts_courier (b : Block) (f : Outs → Outs) (i : Nat) : (b.modOuts f).courier i = b.courier i := rfl
@[simp] theorem Block.modOuts_ring (b : Block) (f : Outs → Outs) (i : Nat) : (b.modOuts f).ring i = b.ring i := rfl
@[simp] theorem Block.modOuts_hist (b : Block) (f : Outs → Outs) (i : Nat) : (b.modOuts f).hist i = b.hist i := rfl
@[simp] theorem Block.modOuts_now (b : Block) (f : Outs → Outs) : (b.modOuts f).now = b.now := rfl
@[simp] theorem Block.modOuts_present (b : Block) (f : Outs → Outs) (i : Nat) : (b.modOuts f).present i = b.present i := rfl
@[simp] theorem Block.modOuts_populated (b : Block) (f : Outs → Outs) (i : Nat) : (b.modOuts f).populated i = b.populated i := rfl
@[simp] theorem Block.modOuts_inJob (b : Block) (f : Outs → Outs) : (b.modOuts f).inJob = b.inJob := rfl
@[simp] theorem Block.modEnv_core (b : Block) (f : Env → Env) (i : Nat) : (b.modEnv f).core i = b.core i := rfl
@[simp] theorem Block.modEnv_office (b : Block) (f : Env → Env) (i : Nat) : (b.modEnv f).office i = b.office i := rfl
@[simp] theorem Block.modEnv_router (b : Block) (f : Env → Env) (i : Nat) : (b.modEnv f).router i = b.router i := rfl
@[simp] theorem Block.modEnv_node (b : Block) (f : Env → Env) (i : Nat) : (b.modEnv f).node i = b.node i := rfl
@[simp] theorem Block.modEnv_courier (b : Block) (f : Env → Env) (i : Nat) : (b.modEnv f).courier i = b.courier i := rfl
@[simp] theorem Block.modEnv_ring (b : Block) (f : Env → Env) (i : Nat) : (b.modEnv f).ring i = b.ring i := rfl
@[simp] theorem Block.modEnv_hist (b : Block) (f : Env → Env) (i : Nat) : (b.modEnv f).hist i = b.hist i := rfl
@[simp] theorem Block.modEnv_now (b : Block) (f : Env → Env) : (b.modEnv f).now = b.now := rfl
@[simp] theorem Block.modEnv_present (b : Block) (f : Env → Env) (i : Nat) : (b.modEnv f).present i = b.present i := rfl
@[simp] theorem Block.modEnv_populated (b : Block) (f : Env → Env) (i : Nat) : (b.modEnv f).populated i = b.populated i := rfl
@[simp] theorem Block.modEnv_inJob (b : Block) (f : Env → Env) : (b.modEnv f).inJob = b.inJob := rfl
@[simp] theorem Block.modKeys_core (b : Block) (f : Keys → Keys) (i : Nat) : (b.modKeys f).core i = b.core i := rfl
@[simp] theorem Block.modKeys_office (b : Block) (f : Keys → Keys) (i : Nat) : (b.modKeys f).office i = b.office i := rfl
@[simp] theorem Block.modKeys_router (b : Block) (f : Keys → Keys) (i : Nat) : (b.modKeys f).router i = b.router i := rfl
@[simp] theorem Block.modKeys_node (b : Block) (f : Keys → Keys) (i : Nat) : (b.modKeys f).node i = b.node i := rfl
@[simp] theorem Block.modKeys_courier (b : Block) (f : Keys → Keys) (i : Nat) : (b.modKeys f).courier i = b.courier i := rfl
@[simp] theorem Block.modKeys_ring (b : Block) (f : Keys → Keys) (i : Nat) : (b.modKeys f).ring i = b.ring i := rfl
@[simp] theorem Block.modKeys_hist (b : Block) (f : Keys → Keys) (i : Nat) : (b.modKeys f).hist i = b.hist i := rfl
@[simp] theorem Block.modKeys_now (b : Block) (f : Keys → Keys) : (b.modKeys f).now = b.now := rfl
@[simp] theorem Block.modKeys_present (b : Block) (f : Keys → Keys) (i : Nat) : (b.modKeys f).present i = b.present i := rfl
@[simp] theorem Block.modKeys_populated (b : Block) (f : Keys → Keys) (i : Nat) : (b.modKeys f).populated i = b.populated i := rfl
@[simp] theorem Block.modKeys_inJob (b : Block) (f : Keys → Keys) : (b.modKeys f).inJob = b.inJob := rfl
@[simp] theorem Block.modLedger_core (b : Block) (f : LedgerData → LedgerData) (i : Nat) : (b.modLedger f).core i = b.core i := rfl
@[simp] theorem Block.modLedger_office (b : Block) (f : LedgerData → LedgerData) (i : Nat) : (b.modLedger f).office i = b.office i := rfl
@[simp] theorem Block.modLedger_router (b : Block) (f : LedgerData → LedgerData) (i : Nat) : (b.modLedger f).router i = b.router i := rfl
@[simp] theorem Block.modLedger_node (b : Block) (f : LedgerData → LedgerData) (i : Nat) : (b.modLedger f).node i = b.node i := rfl
@[simp] theorem Block.modLedger_courier (b : Block) (f : LedgerData → LedgerData) (i : Nat) : (b.modLedger f).courier i = b.courier i := rfl
@[simp] theorem Block.modLedger_ring (b : Block) (f : LedgerData → LedgerData) (i : Nat) : (b.modLedger f).ring i = b.ring i := rfl
@[simp] theorem Block.modLedger_now (b : Block) (f : LedgerData → LedgerData) : (b.modLedger f).now = b.now := rfl
@[simp] theorem Block.modLedger_present (b : Block) (f : LedgerData → LedgerData) (i : Nat) : (b.modLedger f).present i = b.present i := rfl
@[simp] theorem Block.modLedger_populated (b : Block) (f : LedgerData → LedgerData) (i : Nat) : (b.modLedger f).populated i = b.populated i := rfl
@[simp] theorem Block.modLedger_inJob (b : Block) (f : LedgerData → LedgerData) : (b.modLedger f).inJob = b.inJob := rfl
@[simp] theorem Block.modDebug_core (b : Block) (f : Debug → Debug) (i : Nat) : (b.modDebug f).core i = b.core i := rfl
@[simp] theorem Block.modDebug_office (b : Block) (f : Debug → Debug) (i : Nat) : (b.modDebug f).office i = b.office i := rfl
@[simp] theorem Block.modDebug_router (b : Block) (f : Debug → Debug) (i : Nat) : (b.modDebug f).router i = b.router i := rfl
@[simp] theorem Block.modDebug_node (b : Block) (f : Debug → Debug) (i : Nat) : (b.modDebug f).node i = b.node i := rfl
@[simp] theorem Block.modDebug_courier (b : Block) (f : Debug → Debug) (i : Nat) : (b.modDebug f).courier i = b.courier i := rfl
@[simp] theorem Block.modDebug_ring (b : Block) (f : Debug → Debug) (i : Nat) : (b.modDebug f).ring i = b.ring i := rfl
@[simp] theorem Block.modDebug_hist (b : Block) (f : Debug → Debug) (i : Nat) : (b.modDebug f).hist i = b.hist i := rfl
@[simp] theorem Block.modDebug_now (b : Block) (f : Debug → Debug) : (b.modDebug f).now = b.now := rfl
@[simp] theorem Block.modDebug_present (b : Block) (f : Debug → Debug) (i : Nat) : (b.modDebug f).present i = b.present i := rfl
@[simp] theorem Block.modDebug_populated (b : Block) (f : Debug → Debug) (i : Nat) : (b.modDebug f).populated i = b.populated i := rfl
@[simp] theorem Block.modDebug_inJob (b : Block) (f : Debug → Debug) : (b.modDebug f).inJob = b.inJob := rfl
@[simp] theorem Block.modJob_core (b : Block) (f : Job → Job) (i : Nat) : (b.modJob f).core i = b.core i := rfl
@[simp] theorem Block.modJob_office (b : Block) (f : Job → Job) (i : Nat) : (b.modJob f).office i = b.office i := rfl
@[simp] theorem Block.modJob_router (b : Block) (f : Job → Job) (i : Nat) : (b.modJob f).router i = b.router i := rfl
@[simp] theorem Block.modJob_node (b : Block) (f : Job → Job) (i : Nat) : (b.modJob f).node i = b.node i := rfl
@[simp] theorem Block.modJob_courier (b : Block) (f : Job → Job) (i : Nat) : (b.modJob f).courier i = b.courier i := rfl
@[simp] theorem Block.modJob_ring (b : Block) (f : Job → Job) (i : Nat) : (b.modJob f).ring i = b.ring i := rfl
@[simp] theorem Block.modJob_hist (b : Block) (f : Job → Job) (i : Nat) : (b.modJob f).hist i = b.hist i := rfl
@[simp] theorem Block.modJob_now (b : Block) (f : Job → Job) : (b.modJob f).now = b.now := rfl
@[simp] theorem Block.modJob_present (b : Block) (f : Job → Job) (i : Nat) : (b.modJob f).present i = b.present i := rfl
@[simp] theorem Block.modJob_populated (b : Block) (f : Job → Job) (i : Nat) : (b.modJob f).populated i = b.populated i := rfl
@[simp] theorem Block.modMgmt_core (b : Block) (f : Mgmt → Mgmt) (i : Nat) : (b.modMgmt f).core i = b.core i := rfl
@[simp] theorem Block.modMgmt_office (b : Block) (f : Mgmt → Mgmt) (i : Nat) : (b.modMgmt f).office i = b.office i := rfl
@[simp] theorem Block.modMgmt_router (b : Block) (f : Mgmt → Mgmt) (i : Nat) : (b.modMgmt f).router i = b.router i := rfl
@[simp] theorem Block.modMgmt_node (b : Block) (f : Mgmt → Mgmt) (i : Nat) : (b.modMgmt f).node i = b.node i := rfl
@[simp] theorem Block.modMgmt_courier (b : Block) (f : Mgmt → Mgmt) (i : Nat) : (b.modMgmt f).courier i = b.courier i := rfl
@[simp] theorem Block.modMgmt_ring (b : Block) (f : Mgmt → Mgmt) (i : Nat) : (b.modMgmt f).ring i = b.ring i := rfl
@[simp] theorem Block.modMgmt_hist (b : Block) (f : Mgmt → Mgmt) (i : Nat) : (b.modMgmt f).hist i = b.hist i := rfl
@[simp] theorem Block.modMgmt_now (b : Block) (f : Mgmt → Mgmt) : (b.modMgmt f).now = b.now := rfl
@[simp] theorem Block.modMgmt_present (b : Block) (f : Mgmt → Mgmt) (i : Nat) : (b.modMgmt f).present i = b.present i := rfl
@[simp] theorem Block.modMgmt_populated (b : Block) (f : Mgmt → Mgmt) (i : Nat) : (b.modMgmt f).populated i = b.populated i := rfl
@[simp] theorem Block.modMgmt_inJob (b : Block) (f : Mgmt → Mgmt) : (b.modMgmt f).inJob = b.inJob := rfl
@[simp] theorem Block.modMail_core (b : Block) (f : Mail → Mail) (i : Nat) : (b.modMail f).core i = b.core i := rfl
@[simp] theorem Block.modMail_office (b : Block) (f : Mail → Mail) (i : Nat) : (b.modMail f).office i = b.office i := rfl
@[simp] theorem Block.modMail_router (b : Block) (f : Mail → Mail) (i : Nat) : (b.modMail f).router i = b.router i := rfl
@[simp] theorem Block.modMail_node (b : Block) (f : Mail → Mail) (i : Nat) : (b.modMail f).node i = b.node i := rfl
@[simp] theorem Block.modMail_courier (b : Block) (f : Mail → Mail) (i : Nat) : (b.modMail f).courier i = b.courier i := rfl
@[simp] theorem Block.modMail_hist (b : Block) (f : Mail → Mail) (i : Nat) : (b.modMail f).hist i = b.hist i := rfl
@[simp] theorem Block.modMail_now (b : Block) (f : Mail → Mail) : (b.modMail f).now = b.now := rfl
@[simp] theorem Block.modMail_present (b : Block) (f : Mail → Mail) (i : Nat) : (b.modMail f).present i = b.present i := rfl
@[simp] theorem Block.modMail_populated (b : Block) (f : Mail → Mail) (i : Nat) : (b.modMail f).populated i = b.populated i := rfl
@[simp] theorem Block.modMail_inJob (b : Block) (f : Mail → Mail) : (b.modMail f).inJob = b.inJob := rfl
@[simp] theorem Block.modFleet_core (b : Block) (f : Fleet → Fleet) (i : Nat) : (b.modFleet f).core i = b.core i := rfl
@[simp] theorem Block.modFleet_office (b : Block) (f : Fleet → Fleet) (i : Nat) : (b.modFleet f).office i = b.office i := rfl
@[simp] theorem Block.modFleet_router (b : Block) (f : Fleet → Fleet) (i : Nat) : (b.modFleet f).router i = b.router i := rfl
@[simp] theorem Block.modFleet_node (b : Block) (f : Fleet → Fleet) (i : Nat) : (b.modFleet f).node i = b.node i := rfl
@[simp] theorem Block.modFleet_courier (b : Block) (f : Fleet → Fleet) (i : Nat) : (b.modFleet f).courier i = b.courier i := rfl
@[simp] theorem Block.modFleet_ring (b : Block) (f : Fleet → Fleet) (i : Nat) : (b.modFleet f).ring i = b.ring i := rfl
@[simp] theorem Block.modFleet_hist (b : Block) (f : Fleet → Fleet) (i : Nat) : (b.modFleet f).hist i = b.hist i := rfl
@[simp] theorem Block.modFleet_now (b : Block) (f : Fleet → Fleet) : (b.modFleet f).now = b.now := rfl
@[simp] theorem Block.modFleet_present (b : Block) (f : Fleet → Fleet) (i : Nat) : (b.modFleet f).present i = b.present i := rfl
@[simp] theorem Block.modFleet_populated (b : Block) (f : Fleet → Fleet) (i : Nat) : (b.modFleet f).populated i = b.populated i := rfl
@[simp] theorem Block.modFleet_inJob (b : Block) (f : Fleet → Fleet) : (b.modFleet f).inJob = b.inJob := rfl
@[simp] theorem Block.modParcel_core (b : Block) (f : Parcel → Parcel) (i : Nat) : (b.modParcel f).core i = b.core i := rfl
@[simp] theorem Block.modParcel_office (b : Block) (f : Parcel → Parcel) (i : Nat) : (b.modParcel f).office i = b.office i := rfl
@[simp] theorem Block.modParcel_router (b : Block) (f : Parcel → Parcel) (i : Nat) : (b.modParcel f).router i = b.router i := rfl
@[simp] theorem Block.modParcel_node (b : Block) (f : Parcel → Parcel) (i : Nat) : (b.modParcel f).node i = b.node i := rfl
@[simp] theorem Block.modParcel_courier (b : Block) (f : Parcel → Parcel) (i : Nat) : (b.modParcel f).courier i = b.courier i := rfl
@[simp] theorem Block.modParcel_ring (b : Block) (f : Parcel → Parcel) (i : Nat) : (b.modParcel f).ring i = b.ring i := rfl
@[simp] theorem Block.modParcel_hist (b : Block) (f : Parcel → Parcel) (i : Nat) : (b.modParcel f).hist i = b.hist i := rfl
@[simp] theorem Block.modParcel_now (b : Block) (f : Parcel → Parcel) : (b.modParcel f).now = b.now := rfl
@[simp] theorem Block.modParcel_present (b : Block) (f : Parcel → Parcel) (i : Nat) : (b.modParcel f).present i = b.present i := rfl
@[simp] theorem Block.modParcel_populated (b : Block) (f : Parcel → Parcel) (i : Nat) : (b.modParcel f).populated i = b.populated i := rfl
@[simp] theorem Block.modParcel_inJob (b : Block) (f : Parcel → Parcel) : (b.modParcel f).inJob = b.inJob := rfl
@[simp] theorem Block.modPost_core (b : Block) (f : PostCtl → PostCtl) (i : Nat) : (b.modPost f).core i = b.core i := rfl
@[simp] theorem Block.modPost_office (b : Block) (f : PostCtl → PostCtl) (i : Nat) : (b.modPost f).office i = b.office i := rfl
@[simp] theorem Block.modPost_router (b : Block) (f : PostCtl → PostCtl) (i : Nat) : (b.modPost f).router i = b.router i := rfl
@[simp] theorem Block.modPost_node (b : Block) (f : PostCtl → PostCtl) (i : Nat) : (b.modPost f).node i = b.node i := rfl
@[simp] theorem Block.modPost_courier (b : Block) (f : PostCtl → PostCtl) (i : Nat) : (b.modPost f).courier i = b.courier i := rfl
@[simp] theorem Block.modPost_ring (b : Block) (f : PostCtl → PostCtl) (i : Nat) : (b.modPost f).ring i = b.ring i := rfl
@[simp] theorem Block.modPost_hist (b : Block) (f : PostCtl → PostCtl) (i : Nat) : (b.modPost f).hist i = b.hist i := rfl
@[simp] theorem Block.modPost_now (b : Block) (f : PostCtl → PostCtl) : (b.modPost f).now = b.now := rfl
@[simp] theorem Block.modPost_present (b : Block) (f : PostCtl → PostCtl) (i : Nat) : (b.modPost f).present i = b.present i := rfl
@[simp] theorem Block.modPost_populated (b : Block) (f : PostCtl → PostCtl) (i : Nat) : (b.modPost f).populated i = b.populated i := rfl
@[simp] theorem Block.modPost_inJob (b : Block) (f : PostCtl → PostCtl) : (b.modPost f).inJob = b.inJob := rfl
@[simp] theorem Block.modBm_core (b : Block) (f : BoardMap → BoardMap) (i : Nat) : (b.modBm f).core i = b.core i := rfl
@[simp] theorem Block.modBm_office (b : Block) (f : BoardMap → BoardMap) (i : Nat) : (b.modBm f).office i = b.office i := rfl
@[simp] theorem Block.modBm_router (b : Block) (f : BoardMap → BoardMap) (i : Nat) : (b.modBm f).router i = b.router i := rfl
@[simp] theorem Block.modBm_node (b : Block) (f : BoardMap → BoardMap) (i : Nat) : (b.modBm f).node i = b.node i := rfl
@[simp] theorem Block.modBm_courier (b : Block) (f : BoardMap → BoardMap) (i : Nat) : (b.modBm f).courier i = b.courier i := rfl
@[simp] theorem Block.modBm_ring (b : Block) (f : BoardMap → BoardMap) (i : Nat) : (b.modBm f).ring i = b.ring i := rfl
@[simp] theorem Block.modBm_hist (b : Block) (f : BoardMap → BoardMap) (i : Nat) : (b.modBm f).hist i = b.hist i := rfl
@[simp] theorem Block.modBm_now (b : Block) (f : BoardMap → BoardMap) : (b.modBm f).now = b.now := rfl
@[simp] theorem Block.modBm_present (b : Block) (f : BoardMap → BoardMap) (i : Nat) : (b.modBm f).present i = b.present i := rfl
@[simp] theorem Block.modBm_populated (b : Block) (f : BoardMap → BoardMap) (i : Nat) : (b.modBm f).populated i = b.populated i := rfl
@[simp] theorem Block.modBm_inJob (b : Block) (f : BoardMap → BoardMap) : (b.modBm f).inJob = b.inJob := rfl
@[simp] theorem Block.modPolicy_core (b : Block) (f : Policy → Policy) (i : Nat) : (b.modPolicy f).core i = b.core i := rfl
@[simp] theorem Block.modPolicy_office (b : Block) (f : Policy → Policy) (i : Nat) : (b.modPolicy f).office i = b.office i := rfl
@[simp] theorem Block.modPolicy_router (b : Block) (f : Policy → Policy) (i : Nat) : (b.modPolicy f).router i = b.router i := rfl
@[simp] theorem Block.modPolicy_node (b : Block) (f : Policy → Policy) (i : Nat) : (b.modPolicy f).node i = b.node i := rfl
@[simp] theorem Block.modPolicy_courier (b : Block) (f : Policy → Policy) (i : Nat) : (b.modPolicy f).courier i = b.courier i := rfl
@[simp] theorem Block.modPolicy_ring (b : Block) (f : Policy → Policy) (i : Nat) : (b.modPolicy f).ring i = b.ring i := rfl
@[simp] theorem Block.modPolicy_hist (b : Block) (f : Policy → Policy) (i : Nat) : (b.modPolicy f).hist i = b.hist i := rfl
@[simp] theorem Block.modPolicy_now (b : Block) (f : Policy → Policy) : (b.modPolicy f).now = b.now := rfl
@[simp] theorem Block.modPolicy_present (b : Block) (f : Policy → Policy) (i : Nat) : (b.modPolicy f).present i = b.present i := rfl
@[simp] theorem Block.modPolicy_populated (b : Block) (f : Policy → Policy) (i : Nat) : (b.modPolicy f).populated i = b.populated i := rfl
@[simp] theorem Block.modPolicy_inJob (b : Block) (f : Policy → Policy) : (b.modPolicy f).inJob = b.inJob := rfl
@[simp] theorem Block.modImage_core (b : Block) (f : ImageLoad → ImageLoad) (i : Nat) : (b.modImage f).core i = b.core i := rfl
@[simp] theorem Block.modImage_office (b : Block) (f : ImageLoad → ImageLoad) (i : Nat) : (b.modImage f).office i = b.office i := rfl
@[simp] theorem Block.modImage_router (b : Block) (f : ImageLoad → ImageLoad) (i : Nat) : (b.modImage f).router i = b.router i := rfl
@[simp] theorem Block.modImage_node (b : Block) (f : ImageLoad → ImageLoad) (i : Nat) : (b.modImage f).node i = b.node i := rfl
@[simp] theorem Block.modImage_courier (b : Block) (f : ImageLoad → ImageLoad) (i : Nat) : (b.modImage f).courier i = b.courier i := rfl
@[simp] theorem Block.modImage_ring (b : Block) (f : ImageLoad → ImageLoad) (i : Nat) : (b.modImage f).ring i = b.ring i := rfl
@[simp] theorem Block.modImage_hist (b : Block) (f : ImageLoad → ImageLoad) (i : Nat) : (b.modImage f).hist i = b.hist i := rfl
@[simp] theorem Block.modImage_now (b : Block) (f : ImageLoad → ImageLoad) : (b.modImage f).now = b.now := rfl
@[simp] theorem Block.modImage_present (b : Block) (f : ImageLoad → ImageLoad) (i : Nat) : (b.modImage f).present i = b.present i := rfl
@[simp] theorem Block.modImage_populated (b : Block) (f : ImageLoad → ImageLoad) (i : Nat) : (b.modImage f).populated i = b.populated i := rfl
@[simp] theorem Block.modImage_inJob (b : Block) (f : ImageLoad → ImageLoad) : (b.modImage f).inJob = b.inJob := rfl
@[simp] theorem Block.modResets_core (b : Block) (f : ResetLog → ResetLog) (i : Nat) : (b.modResets f).core i = b.core i := rfl
@[simp] theorem Block.modResets_office (b : Block) (f : ResetLog → ResetLog) (i : Nat) : (b.modResets f).office i = b.office i := rfl
@[simp] theorem Block.modResets_router (b : Block) (f : ResetLog → ResetLog) (i : Nat) : (b.modResets f).router i = b.router i := rfl
@[simp] theorem Block.modResets_node (b : Block) (f : ResetLog → ResetLog) (i : Nat) : (b.modResets f).node i = b.node i := rfl
@[simp] theorem Block.modResets_courier (b : Block) (f : ResetLog → ResetLog) (i : Nat) : (b.modResets f).courier i = b.courier i := rfl
@[simp] theorem Block.modResets_ring (b : Block) (f : ResetLog → ResetLog) (i : Nat) : (b.modResets f).ring i = b.ring i := rfl
@[simp] theorem Block.modResets_hist (b : Block) (f : ResetLog → ResetLog) (i : Nat) : (b.modResets f).hist i = b.hist i := rfl
@[simp] theorem Block.modResets_now (b : Block) (f : ResetLog → ResetLog) : (b.modResets f).now = b.now := rfl
@[simp] theorem Block.modResets_present (b : Block) (f : ResetLog → ResetLog) (i : Nat) : (b.modResets f).present i = b.present i := rfl
@[simp] theorem Block.modResets_populated (b : Block) (f : ResetLog → ResetLog) (i : Nat) : (b.modResets f).populated i = b.populated i := rfl
@[simp] theorem Block.modResets_inJob (b : Block) (f : ResetLog → ResetLog) : (b.modResets f).inJob = b.inJob := rfl
@[simp] theorem Block.setCore_office (b : Block) (k : Nat) (x : Core) (i : Nat) : (b.setCore k x).office i = b.office i := rfl
@[simp] theorem Block.setCore_router (b : Block) (k : Nat) (x : Core) (i : Nat) : (b.setCore k x).router i = b.router i := rfl
@[simp] theorem Block.setCore_node (b : Block) (k : Nat) (x : Core) (i : Nat) : (b.setCore k x).node i = b.node i := rfl
@[simp] theorem Block.setCore_courier (b : Block) (k : Nat) (x : Core) (i : Nat) : (b.setCore k x).courier i = b.courier i := rfl
@[simp] theorem Block.setCore_ring (b : Block) (k : Nat) (x : Core) (i : Nat) : (b.setCore k x).ring i = b.ring i := rfl
@[simp] theorem Block.setCore_hist (b : Block) (k : Nat) (x : Core) (i : Nat) : (b.setCore k x).hist i = b.hist i := rfl
@[simp] theorem Block.setCore_now (b : Block) (k : Nat) (x : Core) : (b.setCore k x).now = b.now := rfl
@[simp] theorem Block.setCore_present (b : Block) (k : Nat) (x : Core) (i : Nat) : (b.setCore k x).present i = b.present i := rfl
@[simp] theorem Block.setCore_populated (b : Block) (k : Nat) (x : Core) (i : Nat) : (b.setCore k x).populated i = b.populated i := rfl
@[simp] theorem Block.setCore_inJob (b : Block) (k : Nat) (x : Core) : (b.setCore k x).inJob = b.inJob := rfl
@[simp] theorem Block.modCore_office (b : Block) (k : Nat) (f : Core → Core) (i : Nat) : (b.modCore k f).office i = b.office i := rfl
@[simp] theorem Block.modCore_router (b : Block) (k : Nat) (f : Core → Core) (i : Nat) : (b.modCore k f).router i = b.router i := rfl
@[simp] theorem Block.modCore_node (b : Block) (k : Nat) (f : Core → Core) (i : Nat) : (b.modCore k f).node i = b.node i := rfl
@[simp] theorem Block.modCore_courier (b : Block) (k : Nat) (f : Core → Core) (i : Nat) : (b.modCore k f).courier i = b.courier i := rfl
@[simp] theorem Block.modCore_ring (b : Block) (k : Nat) (f : Core → Core) (i : Nat) : (b.modCore k f).ring i = b.ring i := rfl
@[simp] theorem Block.modCore_hist (b : Block) (k : Nat) (f : Core → Core) (i : Nat) : (b.modCore k f).hist i = b.hist i := rfl
@[simp] theorem Block.modCore_now (b : Block) (k : Nat) (f : Core → Core) : (b.modCore k f).now = b.now := rfl
@[simp] theorem Block.modCore_present (b : Block) (k : Nat) (f : Core → Core) (i : Nat) : (b.modCore k f).present i = b.present i := rfl
@[simp] theorem Block.modCore_populated (b : Block) (k : Nat) (f : Core → Core) (i : Nat) : (b.modCore k f).populated i = b.populated i := rfl
@[simp] theorem Block.modCore_inJob (b : Block) (k : Nat) (f : Core → Core) : (b.modCore k f).inJob = b.inJob := rfl
@[simp] theorem Block.setOffice_core (b : Block) (k : Nat) (x : Office) (i : Nat) : (b.setOffice k x).core i = b.core i := rfl
@[simp] theorem Block.setOffice_router (b : Block) (k : Nat) (x : Office) (i : Nat) : (b.setOffice k x).router i = b.router i := rfl
@[simp] theorem Block.setOffice_node (b : Block) (k : Nat) (x : Office) (i : Nat) : (b.setOffice k x).node i = b.node i := rfl
@[simp] theorem Block.setOffice_courier (b : Block) (k : Nat) (x : Office) (i : Nat) : (b.setOffice k x).courier i = b.courier i := rfl
@[simp] theorem Block.setOffice_ring (b : Block) (k : Nat) (x : Office) (i : Nat) : (b.setOffice k x).ring i = b.ring i := rfl
@[simp] theorem Block.setOffice_hist (b : Block) (k : Nat) (x : Office) (i : Nat) : (b.setOffice k x).hist i = b.hist i := rfl
@[simp] theorem Block.setOffice_now (b : Block) (k : Nat) (x : Office) : (b.setOffice k x).now = b.now := rfl
@[simp] theorem Block.setOffice_present (b : Block) (k : Nat) (x : Office) (i : Nat) : (b.setOffice k x).present i = b.present i := rfl
@[simp] theorem Block.setOffice_populated (b : Block) (k : Nat) (x : Office) (i : Nat) : (b.setOffice k x).populated i = b.populated i := rfl
@[simp] theorem Block.setOffice_inJob (b : Block) (k : Nat) (x : Office) : (b.setOffice k x).inJob = b.inJob := rfl
@[simp] theorem Block.modOffice_core (b : Block) (k : Nat) (f : Office → Office) (i : Nat) : (b.modOffice k f).core i = b.core i := rfl
@[simp] theorem Block.modOffice_router (b : Block) (k : Nat) (f : Office → Office) (i : Nat) : (b.modOffice k f).router i = b.router i := rfl
@[simp] theorem Block.modOffice_node (b : Block) (k : Nat) (f : Office → Office) (i : Nat) : (b.modOffice k f).node i = b.node i := rfl
@[simp] theorem Block.modOffice_courier (b : Block) (k : Nat) (f : Office → Office) (i : Nat) : (b.modOffice k f).courier i = b.courier i := rfl
@[simp] theorem Block.modOffice_ring (b : Block) (k : Nat) (f : Office → Office) (i : Nat) : (b.modOffice k f).ring i = b.ring i := rfl
@[simp] theorem Block.modOffice_hist (b : Block) (k : Nat) (f : Office → Office) (i : Nat) : (b.modOffice k f).hist i = b.hist i := rfl
@[simp] theorem Block.modOffice_now (b : Block) (k : Nat) (f : Office → Office) : (b.modOffice k f).now = b.now := rfl
@[simp] theorem Block.modOffice_present (b : Block) (k : Nat) (f : Office → Office) (i : Nat) : (b.modOffice k f).present i = b.present i := rfl
@[simp] theorem Block.modOffice_populated (b : Block) (k : Nat) (f : Office → Office) (i : Nat) : (b.modOffice k f).populated i = b.populated i := rfl
@[simp] theorem Block.modOffice_inJob (b : Block) (k : Nat) (f : Office → Office) : (b.modOffice k f).inJob = b.inJob := rfl
@[simp] theorem Block.setRouter_core (b : Block) (k : Nat) (x : Router) (i : Nat) : (b.setRouter k x).core i = b.core i := rfl
@[simp] theorem Block.setRouter_office (b : Block) (k : Nat) (x : Router) (i : Nat) : (b.setRouter k x).office i = b.office i := rfl
@[simp] theorem Block.setRouter_node (b : Block) (k : Nat) (x : Router) (i : Nat) : (b.setRouter k x).node i = b.node i := rfl
@[simp] theorem Block.setRouter_courier (b : Block) (k : Nat) (x : Router) (i : Nat) : (b.setRouter k x).courier i = b.courier i := rfl
@[simp] theorem Block.setRouter_ring (b : Block) (k : Nat) (x : Router) (i : Nat) : (b.setRouter k x).ring i = b.ring i := rfl
@[simp] theorem Block.setRouter_hist (b : Block) (k : Nat) (x : Router) (i : Nat) : (b.setRouter k x).hist i = b.hist i := rfl
@[simp] theorem Block.setRouter_now (b : Block) (k : Nat) (x : Router) : (b.setRouter k x).now = b.now := rfl
@[simp] theorem Block.setRouter_present (b : Block) (k : Nat) (x : Router) (i : Nat) : (b.setRouter k x).present i = b.present i := rfl
@[simp] theorem Block.setRouter_populated (b : Block) (k : Nat) (x : Router) (i : Nat) : (b.setRouter k x).populated i = b.populated i := rfl
@[simp] theorem Block.setRouter_inJob (b : Block) (k : Nat) (x : Router) : (b.setRouter k x).inJob = b.inJob := rfl
@[simp] theorem Block.modRouter_core (b : Block) (k : Nat) (f : Router → Router) (i : Nat) : (b.modRouter k f).core i = b.core i := rfl
@[simp] theorem Block.modRouter_office (b : Block) (k : Nat) (f : Router → Router) (i : Nat) : (b.modRouter k f).office i = b.office i := rfl
@[simp] theorem Block.modRouter_node (b : Block) (k : Nat) (f : Router → Router) (i : Nat) : (b.modRouter k f).node i = b.node i := rfl
@[simp] theorem Block.modRouter_courier (b : Block) (k : Nat) (f : Router → Router) (i : Nat) : (b.modRouter k f).courier i = b.courier i := rfl
@[simp] theorem Block.modRouter_ring (b : Block) (k : Nat) (f : Router → Router) (i : Nat) : (b.modRouter k f).ring i = b.ring i := rfl
@[simp] theorem Block.modRouter_hist (b : Block) (k : Nat) (f : Router → Router) (i : Nat) : (b.modRouter k f).hist i = b.hist i := rfl
@[simp] theorem Block.modRouter_now (b : Block) (k : Nat) (f : Router → Router) : (b.modRouter k f).now = b.now := rfl
@[simp] theorem Block.modRouter_present (b : Block) (k : Nat) (f : Router → Router) (i : Nat) : (b.modRouter k f).present i = b.present i := rfl
@[simp] theorem Block.modRouter_populated (b : Block) (k : Nat) (f : Router → Router) (i : Nat) : (b.modRouter k f).populated i = b.populated i := rfl
@[simp] theorem Block.modRouter_inJob (b : Block) (k : Nat) (f : Router → Router) : (b.modRouter k f).inJob = b.inJob := rfl
@[simp] theorem Block.setNode_core (b : Block) (k : Nat) (x : Router) (i : Nat) : (b.setNode k x).core i = b.core i := rfl
@[simp] theorem Block.setNode_office (b : Block) (k : Nat) (x : Router) (i : Nat) : (b.setNode k x).office i = b.office i := rfl
@[simp] theorem Block.setNode_router (b : Block) (k : Nat) (x : Router) (i : Nat) : (b.setNode k x).router i = b.router i := rfl
@[simp] theorem Block.setNode_courier (b : Block) (k : Nat) (x : Router) (i : Nat) : (b.setNode k x).courier i = b.courier i := rfl
@[simp] theorem Block.setNode_ring (b : Block) (k : Nat) (x : Router) (i : Nat) : (b.setNode k x).ring i = b.ring i := rfl
@[simp] theorem Block.setNode_hist (b : Block) (k : Nat) (x : Router) (i : Nat) : (b.setNode k x).hist i = b.hist i := rfl
@[simp] theorem Block.setNode_now (b : Block) (k : Nat) (x : Router) : (b.setNode k x).now = b.now := rfl
@[simp] theorem Block.setNode_present (b : Block) (k : Nat) (x : Router) (i : Nat) : (b.setNode k x).present i = b.present i := rfl
@[simp] theorem Block.setNode_populated (b : Block) (k : Nat) (x : Router) (i : Nat) : (b.setNode k x).populated i = b.populated i := rfl
@[simp] theorem Block.setNode_inJob (b : Block) (k : Nat) (x : Router) : (b.setNode k x).inJob = b.inJob := rfl
@[simp] theorem Block.modNode_core (b : Block) (k : Nat) (f : Router → Router) (i : Nat) : (b.modNode k f).core i = b.core i := rfl
@[simp] theorem Block.modNode_office (b : Block) (k : Nat) (f : Router → Router) (i : Nat) : (b.modNode k f).office i = b.office i := rfl
@[simp] theorem Block.modNode_router (b : Block) (k : Nat) (f : Router → Router) (i : Nat) : (b.modNode k f).router i = b.router i := rfl
@[simp] theorem Block.modNode_courier (b : Block) (k : Nat) (f : Router → Router) (i : Nat) : (b.modNode k f).courier i = b.courier i := rfl
@[simp] theorem Block.modNode_ring (b : Block) (k : Nat) (f : Router → Router) (i : Nat) : (b.modNode k f).ring i = b.ring i := rfl
@[simp] theorem Block.modNode_hist (b : Block) (k : Nat) (f : Router → Router) (i : Nat) : (b.modNode k f).hist i = b.hist i := rfl
@[simp] theorem Block.modNode_now (b : Block) (k : Nat) (f : Router → Router) : (b.modNode k f).now = b.now := rfl
@[simp] theorem Block.modNode_present (b : Block) (k : Nat) (f : Router → Router) (i : Nat) : (b.modNode k f).present i = b.present i := rfl
@[simp] theorem Block.modNode_populated (b : Block) (k : Nat) (f : Router → Router) (i : Nat) : (b.modNode k f).populated i = b.populated i := rfl
@[simp] theorem Block.modNode_inJob (b : Block) (k : Nat) (f : Router → Router) : (b.modNode k f).inJob = b.inJob := rfl
@[simp] theorem Block.setCourier_core (b : Block) (k : Nat) (x : Courier) (i : Nat) : (b.setCourier k x).core i = b.core i := rfl
@[simp] theorem Block.setCourier_office (b : Block) (k : Nat) (x : Courier) (i : Nat) : (b.setCourier k x).office i = b.office i := rfl
@[simp] theorem Block.setCourier_router (b : Block) (k : Nat) (x : Courier) (i : Nat) : (b.setCourier k x).router i = b.router i := rfl
@[simp] theorem Block.setCourier_node (b : Block) (k : Nat) (x : Courier) (i : Nat) : (b.setCourier k x).node i = b.node i := rfl
@[simp] theorem Block.setCourier_ring (b : Block) (k : Nat) (x : Courier) (i : Nat) : (b.setCourier k x).ring i = b.ring i := rfl
@[simp] theorem Block.setCourier_hist (b : Block) (k : Nat) (x : Courier) (i : Nat) : (b.setCourier k x).hist i = b.hist i := rfl
@[simp] theorem Block.setCourier_now (b : Block) (k : Nat) (x : Courier) : (b.setCourier k x).now = b.now := rfl
@[simp] theorem Block.setCourier_present (b : Block) (k : Nat) (x : Courier) (i : Nat) : (b.setCourier k x).present i = b.present i := rfl
@[simp] theorem Block.setCourier_populated (b : Block) (k : Nat) (x : Courier) (i : Nat) : (b.setCourier k x).populated i = b.populated i := rfl
@[simp] theorem Block.setCourier_inJob (b : Block) (k : Nat) (x : Courier) : (b.setCourier k x).inJob = b.inJob := rfl
@[simp] theorem Block.modCourier_core (b : Block) (k : Nat) (f : Courier → Courier) (i : Nat) : (b.modCourier k f).core i = b.core i := rfl
@[simp] theorem Block.modCourier_office (b : Block) (k : Nat) (f : Courier → Courier) (i : Nat) : (b.modCourier k f).office i = b.office i := rfl
@[simp] theorem Block.modCourier_router (b : Block) (k : Nat) (f : Courier → Courier) (i : Nat) : (b.modCourier k f).router i = b.router i := rfl
@[simp] theorem Block.modCourier_node (b : Block) (k : Nat) (f : Courier → Courier) (i : Nat) : (b.modCourier k f).node i = b.node i := rfl
@[simp] theorem Block.modCourier_ring (b : Block) (k : Nat) (f : Courier → Courier) (i : Nat) : (b.modCourier k f).ring i = b.ring i := rfl
@[simp] theorem Block.modCourier_hist (b : Block) (k : Nat) (f : Courier → Courier) (i : Nat) : (b.modCourier k f).hist i = b.hist i := rfl
@[simp] theorem Block.modCourier_now (b : Block) (k : Nat) (f : Courier → Courier) : (b.modCourier k f).now = b.now := rfl
@[simp] theorem Block.modCourier_present (b : Block) (k : Nat) (f : Courier → Courier) (i : Nat) : (b.modCourier k f).present i = b.present i := rfl
@[simp] theorem Block.modCourier_populated (b : Block) (k : Nat) (f : Courier → Courier) (i : Nat) : (b.modCourier k f).populated i = b.populated i := rfl
@[simp] theorem Block.modCourier_inJob (b : Block) (k : Nat) (f : Courier → Courier) : (b.modCourier k f).inJob = b.inJob := rfl
@[simp] theorem Block.allCores_office (b : Block) (f : Core → Core) (i : Nat) : (b.allCores f).office i = b.office i := rfl
@[simp] theorem Block.allCores_router (b : Block) (f : Core → Core) (i : Nat) : (b.allCores f).router i = b.router i := rfl
@[simp] theorem Block.allCores_node (b : Block) (f : Core → Core) (i : Nat) : (b.allCores f).node i = b.node i := rfl
@[simp] theorem Block.allCores_courier (b : Block) (f : Core → Core) (i : Nat) : (b.allCores f).courier i = b.courier i := rfl
@[simp] theorem Block.allCores_ring (b : Block) (f : Core → Core) (i : Nat) : (b.allCores f).ring i = b.ring i := rfl
@[simp] theorem Block.allCores_hist (b : Block) (f : Core → Core) (i : Nat) : (b.allCores f).hist i = b.hist i := rfl
@[simp] theorem Block.allCores_now (b : Block) (f : Core → Core) : (b.allCores f).now = b.now := rfl
@[simp] theorem Block.allCores_present (b : Block) (f : Core → Core) (i : Nat) : (b.allCores f).present i = b.present i := rfl
@[simp] theorem Block.allCores_populated (b : Block) (f : Core → Core) (i : Nat) : (b.allCores f).populated i = b.populated i := rfl
@[simp] theorem Block.allCores_inJob (b : Block) (f : Core → Core) : (b.allCores f).inJob = b.inJob := rfl
@[simp] theorem Block.allOffices_core (b : Block) (f : Office → Office) (i : Nat) : (b.allOffices f).core i = b.core i := rfl
@[simp] theorem Block.allOffices_router (b : Block) (f : Office → Office) (i : Nat) : (b.allOffices f).router i = b.router i := rfl
@[simp] theorem Block.allOffices_node (b : Block) (f : Office → Office) (i : Nat) : (b.allOffices f).node i = b.node i := rfl
@[simp] theorem Block.allOffices_courier (b : Block) (f : Office → Office) (i : Nat) : (b.allOffices f).courier i = b.courier i := rfl
@[simp] theorem Block.allOffices_ring (b : Block) (f : Office → Office) (i : Nat) : (b.allOffices f).ring i = b.ring i := rfl
@[simp] theorem Block.allOffices_hist (b : Block) (f : Office → Office) (i : Nat) : (b.allOffices f).hist i = b.hist i := rfl
@[simp] theorem Block.allOffices_now (b : Block) (f : Office → Office) : (b.allOffices f).now = b.now := rfl
@[simp] theorem Block.allOffices_present (b : Block) (f : Office → Office) (i : Nat) : (b.allOffices f).present i = b.present i := rfl
@[simp] theorem Block.allOffices_populated (b : Block) (f : Office → Office) (i : Nat) : (b.allOffices f).populated i = b.populated i := rfl
@[simp] theorem Block.allOffices_inJob (b : Block) (f : Office → Office) : (b.allOffices f).inJob = b.inJob := rfl
@[simp] theorem Block.allRouters_core (b : Block) (f : Router → Router) (i : Nat) : (b.allRouters f).core i = b.core i := rfl
@[simp] theorem Block.allRouters_office (b : Block) (f : Router → Router) (i : Nat) : (b.allRouters f).office i = b.office i := rfl
@[simp] theorem Block.allRouters_node (b : Block) (f : Router → Router) (i : Nat) : (b.allRouters f).node i = b.node i := rfl
@[simp] theorem Block.allRouters_courier (b : Block) (f : Router → Router) (i : Nat) : (b.allRouters f).courier i = b.courier i := rfl
@[simp] theorem Block.allRouters_ring (b : Block) (f : Router → Router) (i : Nat) : (b.allRouters f).ring i = b.ring i := rfl
@[simp] theorem Block.allRouters_hist (b : Block) (f : Router → Router) (i : Nat) : (b.allRouters f).hist i = b.hist i := rfl
@[simp] theorem Block.allRouters_now (b : Block) (f : Router → Router) : (b.allRouters f).now = b.now := rfl
@[simp] theorem Block.allRouters_present (b : Block) (f : Router → Router) (i : Nat) : (b.allRouters f).present i = b.present i := rfl
@[simp] theorem Block.allRouters_populated (b : Block) (f : Router → Router) (i : Nat) : (b.allRouters f).populated i = b.populated i := rfl
@[simp] theorem Block.allRouters_inJob (b : Block) (f : Router → Router) : (b.allRouters f).inJob = b.inJob := rfl
@[simp] theorem Block.allNodes_core (b : Block) (f : Router → Router) (i : Nat) : (b.allNodes f).core i = b.core i := rfl
@[simp] theorem Block.allNodes_office (b : Block) (f : Router → Router) (i : Nat) : (b.allNodes f).office i = b.office i := rfl
@[simp] theorem Block.allNodes_router (b : Block) (f : Router → Router) (i : Nat) : (b.allNodes f).router i = b.router i := rfl
@[simp] theorem Block.allNodes_courier (b : Block) (f : Router → Router) (i : Nat) : (b.allNodes f).courier i = b.courier i := rfl
@[simp] theorem Block.allNodes_ring (b : Block) (f : Router → Router) (i : Nat) : (b.allNodes f).ring i = b.ring i := rfl
@[simp] theorem Block.allNodes_hist (b : Block) (f : Router → Router) (i : Nat) : (b.allNodes f).hist i = b.hist i := rfl
@[simp] theorem Block.allNodes_now (b : Block) (f : Router → Router) : (b.allNodes f).now = b.now := rfl
@[simp] theorem Block.allNodes_present (b : Block) (f : Router → Router) (i : Nat) : (b.allNodes f).present i = b.present i := rfl
@[simp] theorem Block.allNodes_populated (b : Block) (f : Router → Router) (i : Nat) : (b.allNodes f).populated i = b.populated i := rfl
@[simp] theorem Block.allNodes_inJob (b : Block) (f : Router → Router) : (b.allNodes f).inJob = b.inJob := rfl
@[simp] theorem Block.allCouriers_core (b : Block) (f : Courier → Courier) (i : Nat) : (b.allCouriers f).core i = b.core i := rfl
@[simp] theorem Block.allCouriers_office (b : Block) (f : Courier → Courier) (i : Nat) : (b.allCouriers f).office i = b.office i := rfl
@[simp] theorem Block.allCouriers_router (b : Block) (f : Courier → Courier) (i : Nat) : (b.allCouriers f).router i = b.router i := rfl
@[simp] theorem Block.allCouriers_node (b : Block) (f : Courier → Courier) (i : Nat) : (b.allCouriers f).node i = b.node i := rfl
@[simp] theorem Block.allCouriers_ring (b : Block) (f : Courier → Courier) (i : Nat) : (b.allCouriers f).ring i = b.ring i := rfl
@[simp] theorem Block.allCouriers_hist (b : Block) (f : Courier → Courier) (i : Nat) : (b.allCouriers f).hist i = b.hist i := rfl
@[simp] theorem Block.allCouriers_now (b : Block) (f : Courier → Courier) : (b.allCouriers f).now = b.now := rfl
@[simp] theorem Block.allCouriers_present (b : Block) (f : Courier → Courier) (i : Nat) : (b.allCouriers f).present i = b.present i := rfl
@[simp] theorem Block.allCouriers_populated (b : Block) (f : Courier → Courier) (i : Nat) : (b.allCouriers f).populated i = b.populated i := rfl
@[simp] theorem Block.allCouriers_inJob (b : Block) (f : Courier → Courier) : (b.allCouriers f).inJob = b.inJob := rfl
@[simp] theorem Block.modRing_core (b : Block) (r : Nat) (f : Ring → Ring) (i : Nat) : (b.modRing r f).core i = b.core i := rfl
@[simp] theorem Block.modRing_office (b : Block) (r : Nat) (f : Ring → Ring) (i : Nat) : (b.modRing r f).office i = b.office i := rfl
@[simp] theorem Block.modRing_router (b : Block) (r : Nat) (f : Ring → Ring) (i : Nat) : (b.modRing r f).router i = b.router i := rfl
@[simp] theorem Block.modRing_node (b : Block) (r : Nat) (f : Ring → Ring) (i : Nat) : (b.modRing r f).node i = b.node i := rfl
@[simp] theorem Block.modRing_courier (b : Block) (r : Nat) (f : Ring → Ring) (i : Nat) : (b.modRing r f).courier i = b.courier i := rfl
@[simp] theorem Block.modRing_hist (b : Block) (r : Nat) (f : Ring → Ring) (i : Nat) : (b.modRing r f).hist i = b.hist i := rfl
@[simp] theorem Block.modRing_now (b : Block) (r : Nat) (f : Ring → Ring) : (b.modRing r f).now = b.now := rfl
@[simp] theorem Block.modRing_present (b : Block) (r : Nat) (f : Ring → Ring) (i : Nat) : (b.modRing r f).present i = b.present i := rfl
@[simp] theorem Block.modRing_populated (b : Block) (r : Nat) (f : Ring → Ring) (i : Nat) : (b.modRing r f).populated i = b.populated i := rfl
@[simp] theorem Block.modRing_inJob (b : Block) (r : Nat) (f : Ring → Ring) : (b.modRing r f).inJob = b.inJob := rfl
@[simp] theorem held_core (o b : Block) (i : Nat) : (held o b).core i = b.core i := rfl
@[simp] theorem held_office (o b : Block) (i : Nat) : (held o b).office i = b.office i := rfl
@[simp] theorem held_router (o b : Block) (i : Nat) : (held o b).router i = b.router i := rfl
@[simp] theorem held_node (o b : Block) (i : Nat) : (held o b).node i = b.node i := rfl
@[simp] theorem held_courier (o b : Block) (i : Nat) : (held o b).courier i = b.courier i := rfl
@[simp] theorem held_ring (o b : Block) (i : Nat) : (held o b).ring i = b.ring i := rfl
@[simp] theorem held_hist (o b : Block) (i : Nat) : (held o b).hist i = b.hist i := rfl
@[simp] theorem held_now (o b : Block) : (held o b).now = b.now := rfl
@[simp] theorem held_present (o b : Block) (i : Nat) : (held o b).present i = b.present i := rfl
@[simp] theorem held_populated (o b : Block) (i : Nat) : (held o b).populated i = b.populated i := rfl
@[simp] theorem held_inJob (o b : Block) : (held o b).inJob = b.inJob := rfl

/-! ### One row of a table of units -/

@[simp] theorem tget_tset_self {α : Type} (t : Tab α) (k : Nat) (a : α) : tget (tset t k a) k = some a := by
  induction t with
  | nil => simp [tset, tget]
  | cons p r ih =>
    obtain ⟨j, x⟩ := p
    unfold tset
    split
    · simp [tget]
    · split
      · simp [tget]
      · rename_i h1 h2
        simp [tget, Ne.symm h2, ih]

theorem tget_tset_ne {α : Type} (t : Tab α) {k j : Nat} (a : α) (h : j ≠ k) : tget (tset t k a) j = tget t j := by
  induction t with
  | nil => simp [tset, tget, Ne.symm h]
  | cons p r ih =>
    obtain ⟨i, x⟩ := p
    unfold tset
    split
    · simp [tget, Ne.symm h]
    · split
      · rename_i h2
        subst h2
        simp [tget, Ne.symm h]
      · simp only [tget]
        split
        · rfl
        · exact ih


@[simp] theorem tset_tset {α : Type} (t : Tab α) (k : Nat) (a c : α) : tset (tset t k a) k c = tset t k c := by
  induction t with
  | nil => simp [tset]
  | cons p r ih =>
    obtain ⟨j, x⟩ := p
    by_cases h1 : k < j
    · simp [tset, h1]
    · by_cases h2 : k = j
      · simp [tset, h1, h2]
      · simp [tset, h1, h2, ih]

@[simp] theorem Block.setCore_setCore (b : Block) (k : Nat) (x y : Core) : (b.setCore k x).setCore k y = b.setCore k y := by simp [Block.setCore]
@[simp] theorem Block.setOffice_setOffice (b : Block) (k : Nat) (x y : Office) : (b.setOffice k x).setOffice k y = b.setOffice k y := by simp [Block.setOffice]
@[simp] theorem Block.setRouter_setRouter (b : Block) (k : Nat) (x y : Router) : (b.setRouter k x).setRouter k y = b.setRouter k y := by simp [Block.setRouter]
@[simp] theorem Block.setNode_setNode (b : Block) (k : Nat) (x y : Router) : (b.setNode k x).setNode k y = b.setNode k y := by simp [Block.setNode]
@[simp] theorem Block.setCourier_setCourier (b : Block) (k : Nat) (x y : Courier) : (b.setCourier k x).setCourier k y = b.setCourier k y := by simp [Block.setCourier]
@[simp] theorem Block.setCore_self (b : Block) (k : Nat) (x : Core) : (b.setCore k x).core k = x := by simp [Block.core, Block.setCore]
theorem Block.setCore_ne (b : Block) {k j : Nat} (x : Core) (h : j ≠ k) : (b.setCore k x).core j = b.core j := by simp [Block.core, Block.setCore, tget_tset_ne _ _ h]
@[simp] theorem Block.modCore_self (b : Block) (k : Nat) (f : Core → Core) : (b.modCore k f).core k = f (b.core k) := by simp [Block.modCore]
theorem Block.modCore_ne (b : Block) {k j : Nat} (f : Core → Core) (h : j ≠ k) : (b.modCore k f).core j = b.core j := Block.setCore_ne b _ h
@[simp] theorem Block.setOffice_self (b : Block) (k : Nat) (x : Office) : (b.setOffice k x).office k = x := by simp [Block.office, Block.setOffice]
theorem Block.setOffice_ne (b : Block) {k j : Nat} (x : Office) (h : j ≠ k) : (b.setOffice k x).office j = b.office j := by simp [Block.office, Block.setOffice, tget_tset_ne _ _ h]
@[simp] theorem Block.modOffice_self (b : Block) (k : Nat) (f : Office → Office) : (b.modOffice k f).office k = f (b.office k) := by simp [Block.modOffice]
theorem Block.modOffice_ne (b : Block) {k j : Nat} (f : Office → Office) (h : j ≠ k) : (b.modOffice k f).office j = b.office j := Block.setOffice_ne b _ h
@[simp] theorem Block.setRouter_self (b : Block) (k : Nat) (x : Router) : (b.setRouter k x).router k = x := by simp [Block.router, Block.setRouter]
theorem Block.setRouter_ne (b : Block) {k j : Nat} (x : Router) (h : j ≠ k) : (b.setRouter k x).router j = b.router j := by simp [Block.router, Block.setRouter, tget_tset_ne _ _ h]
@[simp] theorem Block.modRouter_self (b : Block) (k : Nat) (f : Router → Router) : (b.modRouter k f).router k = f (b.router k) := by simp [Block.modRouter]
theorem Block.modRouter_ne (b : Block) {k j : Nat} (f : Router → Router) (h : j ≠ k) : (b.modRouter k f).router j = b.router j := Block.setRouter_ne b _ h
@[simp] theorem Block.setNode_self (b : Block) (k : Nat) (x : Router) : (b.setNode k x).node k = x := by simp [Block.node, Block.setNode]
theorem Block.setNode_ne (b : Block) {k j : Nat} (x : Router) (h : j ≠ k) : (b.setNode k x).node j = b.node j := by simp [Block.node, Block.setNode, tget_tset_ne _ _ h]
@[simp] theorem Block.modNode_self (b : Block) (k : Nat) (f : Router → Router) : (b.modNode k f).node k = f (b.node k) := by simp [Block.modNode]
theorem Block.modNode_ne (b : Block) {k j : Nat} (f : Router → Router) (h : j ≠ k) : (b.modNode k f).node j = b.node j := Block.setNode_ne b _ h
@[simp] theorem Block.setCourier_self (b : Block) (k : Nat) (x : Courier) : (b.setCourier k x).courier k = x := by simp [Block.courier, Block.setCourier]
theorem Block.setCourier_ne (b : Block) {k j : Nat} (x : Courier) (h : j ≠ k) : (b.setCourier k x).courier j = b.courier j := by simp [Block.courier, Block.setCourier, tget_tset_ne _ _ h]
@[simp] theorem Block.modCourier_self (b : Block) (k : Nat) (f : Courier → Courier) : (b.modCourier k f).courier k = f (b.courier k) := by simp [Block.modCourier]
theorem Block.modCourier_ne (b : Block) {k j : Nat} (f : Courier → Courier) (h : j ≠ k) : (b.modCourier k f).courier j = b.courier j := Block.setCourier_ne b _ h
/-- Two changes of one unit are one. -/
theorem Block.modCore_modCore (b : Block) (k : Nat) (f g : Core → Core) : (b.modCore k f).modCore k g = b.modCore k (fun x => g (f x)) := by simp [Block.modCore]
/-- Two changes of one unit are one. -/
theorem Block.modOffice_modOffice (b : Block) (k : Nat) (f g : Office → Office) : (b.modOffice k f).modOffice k g = b.modOffice k (fun x => g (f x)) := by simp [Block.modOffice]
/-- Two changes of one unit are one. -/
theorem Block.modRouter_modRouter (b : Block) (k : Nat) (f g : Router → Router) : (b.modRouter k f).modRouter k g = b.modRouter k (fun x => g (f x)) := by simp [Block.modRouter]
/-- Two changes of one unit are one. -/
theorem Block.modNode_modNode (b : Block) (k : Nat) (f g : Router → Router) : (b.modNode k f).modNode k g = b.modNode k (fun x => g (f x)) := by simp [Block.modNode]
/-- Two changes of one unit are one. -/
theorem Block.modCourier_modCourier (b : Block) (k : Nat) (f g : Courier → Courier) : (b.modCourier k f).modCourier k g = b.modCourier k (fun x => g (f x)) := by simp [Block.modCourier]
@[simp] theorem Block.modRing_self (b : Block) (r : Nat) (f : Ring → Ring) : (b.modRing r f).ring r = f (b.ring r) := by simp [Block.ring, Block.modRing]
theorem Block.modRing_ne (b : Block) {r q : Nat} (f : Ring → Ring) (h : q ≠ r) : (b.modRing r f).ring q = b.ring q := by simp [Block.ring, Block.modRing, tget_tset_ne _ _ h]

end Sys2Proof.Machine
end

