-- ==== Sys2Proof/Laws/Act.lean ====
section
/-! SUPPORT. What a command can do at all: it always answers a next state, leaves the queue, and acts only while
rs_por_n is 1. -/

namespace Sys2Proof.Machine

open Sys2Proof

theorem act_live {f : Block → Block} {s : State} (h : s.blk.env.porN = true) :
    act f s = .next { blk := held s.blk (f s.blk), pending := s.pending } := by simp [act, h]

theorem act_reset {f : Block → Block} {s : State} (h : s.blk.env.porN = false) : act f s = .next s := by simp [act, h]

/-- To show what a command's next state satisfies, show it of the held block. -/
theorem act_next {f : Block → Block} {s : State} {P : State → Prop} (h : s.blk.env.porN = true)
    (hp : P { blk := held s.blk (f s.blk), pending := s.pending }) : ∃ t, act f s = .next t ∧ P t := ⟨_, act_live h, hp⟩

/-- An effect that leaves the pins and the power of the Head Office domain is the whole effect. -/
theorem held_of_eq {o n : Block} (he : n.env = o.env) (hl : n.letters = o.letters) (hs : hoLost o n = false) : held o n = n := by
  cases n
  simp only [held, hs] at *
  subst he hl
  rfl

/-- A command whose effect leaves the pins and the power of the Head Office domain has exactly that effect. -/
theorem act_eq {f : Block → Block} {s : State} {c : Block} (h : s.blk.env.porN = true) (hf : f s.blk = c) (he : c.env = s.blk.env)
    (hl : c.letters = s.blk.letters) (hs : c.svc.coldOff = s.blk.svc.coldOff) (hp : c.pm.coldCount = s.blk.pm.coldCount) :
    act f s = .next { s with blk := c } := by
  rw [act_live h, hf, held_of_eq he hl (by simp [hoLost, hs, hp])]

/-- Every command but three is an effect on the released block. -/
theorem exec_act (c : Instr) (s : State) (h1 : c ≠ .blockPowerOnReset)
    (h2 : ∀ a1 a2 a3 a4 a5 a6 a7 a8 a9, c ≠ .blockResetRelease a1 a2 a3 a4 a5 a6 a7 a8 a9)
    (h3 : ∀ o v, c ≠ .registerWrite o v) : ∃ f, exec c s = act f s := by
  cases c
  case managementPortReset => simp only [exec, execManagementPortReset]; exact ⟨_, rfl⟩
  all_goals first | exact ⟨_, rfl⟩ | exact absurd rfl h1 | exact absurd rfl (h2 _ _ _ _ _ _ _ _ _) | exact absurd rfl (h3 _ _)

end Sys2Proof.Machine
end

