-- ==== Sys2Proof/Laws/Frame.lean ====
section
/-! SUPPORT. Frames compose, and the frame of each shared operation over the block. -/

namespace Sys2Proof.Machine

open Sys2Proof

@[simp] theorem State.after_blk (s : State) (b : Block) : (s.after b).blk = held s.blk b := rfl
@[simp] theorem State.after_pending (s : State) (b : Block) : (s.after b).pending = s.pending := rfl

/-- Where an effect reduces to c, the command answers the state after c. -/
theorem act_after {f : Block → Block} {s : State} {c : Block} (h : s.released) (hf : f s.blk = c) : act f s = .next (s.after c) := by
  rw [act_live h, hf]; rfl

/-- An effect that leaves the pins and the power of the Head Office domain is the whole effect. -/
theorem after_eq {s : State} {c : Block} (he : c.env = s.blk.env) (hl : c.letters = s.blk.letters) (hs : hoLost s.blk c = false) :
    s.after c = { s with blk := c } := by simp [State.after, held_of_eq he hl hs]

theorem Frame.refl (l : List Part) (b : Block) : Frame l b b := by intro p; right; cases p <;> rfl

theorem Frame.trans {l : List Part} {a b c : Block} (h : Frame l a b) (k : Frame l b c) : Frame l a c := by
  intro p
  rcases h p with h | h
  · exact .inl h
  · rcases k p with k | k
    · exact .inl k
    · right
      cases p <;> simp only [Part.same] at * <;> rw [k, h]

theorem Frame.mono {l m : List Part} {a b : Block} (h : Frame l a b) (s : ∀ p ∈ l, p ∈ m) : Frame m a b := by
  intro p
  rcases h p with h | h
  · exact .inl (s p h)
  · exact .inr h

theorem Frame.get {l : List Part} {a b : Block} (h : Frame l a b) (p : Part) (n : p ∉ l) : p.same a b := (h p).resolve_left n

theorem Frame.ite {l : List Part} {a b c : Block} {p : Prop} [Decidable p] (h : Frame l a b) (k : Frame l a c) : Frame l a (if p then b else c) := by
  split
  · exact h
  · exact k

theorem Frame.forEach {α : Type} {l : List Part} (f : α → Block → Block) (h : ∀ a b, Frame l b (f a b)) (xs : List α) (b : Block) :
    Frame l b (forEach xs f b) := by
  induction xs generalizing b with
  | nil => exact Frame.refl l b
  | cons x r ih => exact (h x b).trans (ih (f x b))

theorem hoLost_same {o n : Block} (hs : n.svc.coldOff = o.svc.coldOff) (hp : n.pm.coldCount = o.pm.coldCount) : hoLost o n = false := by
  simp [hoLost, hs, hp]

/-- A frame of an effect is a frame of the command where the Head Office domain keeps its power. -/
theorem Frame.held {l : List Part} {o n : Block} (h : Frame l o n) (hl : hoLost o n = false) : Frame l o (held o n) := by
  intro p
  rcases h p with h | h
  · exact .inl h
  · right
    cases p
    case letters => simp [Part.same, Machine.held, hl]
    case env => simp only [Part.same] at *; simp [Machine.held, h]
    all_goals exact h

/-- The same where an effect leaves the service state and the Postmark alone. -/
theorem Frame.held' {l : List Part} {o n : Block} (h : Frame l o n) (hs : Part.svc ∉ l) (hp : Part.pm ∉ l) : Frame l o (Machine.held o n) :=
  h.held (hoLost_same (congrArg Svc.coldOff (h.get .svc hs)) (congrArg Postmark.coldCount (h.get .pm hp)))

theorem Frame.forEach1 {α : Type} {l : List Part} {a : Block} {f : α → Block → Block} {xs : List α} {b : Block} (h : Frame l a b)
    (k : ∀ x c, Frame l a c → Frame l a (f x c)) : Frame l a (Machine.forEach xs f b) := by
  induction xs generalizing b with
  | nil => exact h
  | cons x r ih => exact ih (k x b h)

/-- Inclusion of literal lists of parts, by evaluation. -/
theorem subs_of {xs ys : List Part} (h : xs.all (fun p => decide (p ∈ ys)) = true) : ∀ p ∈ xs, p ∈ ys := fun p hp => by
  simpa using List.all_eq_true.1 h p hp

/-- Every block that a letter's own meaning answers with. -/
def Reply.within (l : List Part) (a : Block) : Reply → Prop
  | .refuse _ _ => True
  | .done _ b => Frame l a b
  | .later _ b => Frame l a b
  | .interim _ _ b => Frame l a b
  | .whole _ _ _ _ b => Frame l a b
  | .parts _ b => Frame l a b

theorem within_done {l : List Part} {a b : Block} {x : List Byte} (h : Frame l a b) : Reply.within l a (.done x b) := h
theorem within_later {l : List Part} {a b : Block} {x : List Nat} (h : Frame l a b) : Reply.within l a (.later x b) := h
theorem within_interim {l : List Part} {a b : Block} {x : List Byte} {y : List Nat} (h : Frame l a b) : Reply.within l a (.interim x y b) := h
theorem within_whole {l : List Part} {a b : Block} {x z : List Byte} {s d : Nat} (h : Frame l a b) : Reply.within l a (.whole x s d z b) := h
theorem within_parts {l : List Part} {a b : Block} {x : List (List Byte)} (h : Frame l a b) : Reply.within l a (.parts x b) := h

end Sys2Proof.Machine
end

