-- ==== Sys2Proof/Laws/FrameOps.lean ====
section
/-! SUPPORT. The frame of every operation of shared operations: time, events, core states, the Post Network and letters: the parts of the block it can change. -/

namespace Sys2Proof.Machine

open Sys2Proof

theorem frame_modJob {l : List Part} {a b : Block} (f : Job → Job) (h : Frame l a b) (m : ∀ p ∈ ([.job] : List Part), p ∈ l) : Frame l a (b.modJob f) :=
  h.trans (fun p => by cases p <;> first | exact .inr rfl | exact .inl (m _ (List.mem_singleton.2 rfl)))

theorem frame_modMgmt {l : List Part} {a b : Block} (f : Mgmt → Mgmt) (h : Frame l a b) (m : ∀ p ∈ ([.mgmt] : List Part), p ∈ l) : Frame l a (b.modMgmt f) :=
  h.trans (fun p => by cases p <;> first | exact .inr rfl | exact .inl (m _ (List.mem_singleton.2 rfl)))

theorem frame_modMail {l : List Part} {a b : Block} (f : Mail → Mail) (h : Frame l a b) (m : ∀ p ∈ ([.mail] : List Part), p ∈ l) : Frame l a (b.modMail f) :=
  h.trans (fun p => by cases p <;> first | exact .inr rfl | exact .inl (m _ (List.mem_singleton.2 rfl)))

theorem frame_modFleet {l : List Part} {a b : Block} (f : Fleet → Fleet) (h : Frame l a b) (m : ∀ p ∈ ([.fleet] : List Part), p ∈ l) : Frame l a (b.modFleet f) :=
  h.trans (fun p => by cases p <;> first | exact .inr rfl | exact .inl (m _ (List.mem_singleton.2 rfl)))

theorem frame_modParcel {l : List Part} {a b : Block} (f : Parcel → Parcel) (h : Frame l a b) (m : ∀ p ∈ ([.parcel] : List Part), p ∈ l) : Frame l a (b.modParcel f) :=
  h.trans (fun p => by cases p <;> first | exact .inr rfl | exact .inl (m _ (List.mem_singleton.2 rfl)))

theorem frame_modPost {l : List Part} {a b : Block} (f : PostCtl → PostCtl) (h : Frame l a b) (m : ∀ p ∈ ([.post] : List Part), p ∈ l) : Frame l a (b.modPost f) :=
  h.trans (fun p => by cases p <;> first | exact .inr rfl | exact .inl (m _ (List.mem_singleton.2 rfl)))

theorem frame_modBm {l : List Part} {a b : Block} (f : BoardMap → BoardMap) (h : Frame l a b) (m : ∀ p ∈ ([.bm] : List Part), p ∈ l) : Frame l a (b.modBm f) :=
  h.trans (fun p => by cases p <;> first | exact .inr rfl | exact .inl (m _ (List.mem_singleton.2 rfl)))

theorem frame_modPolicy {l : List Part} {a b : Block} (f : Policy → Policy) (h : Frame l a b) (m : ∀ p ∈ ([.policy] : List Part), p ∈ l) : Frame l a (b.modPolicy f) :=
  h.trans (fun p => by cases p <;> first | exact .inr rfl | exact .inl (m _ (List.mem_singleton.2 rfl)))

theorem frame_modImage {l : List Part} {a b : Block} (f : ImageLoad → ImageLoad) (h : Frame l a b) (m : ∀ p ∈ ([.image] : List Part), p ∈ l) : Frame l a (b.modImage f) :=
  h.trans (fun p => by cases p <;> first | exact .inr rfl | exact .inl (m _ (List.mem_singleton.2 rfl)))

theorem frame_modResets {l : List Part} {a b : Block} (f : ResetLog → ResetLog) (h : Frame l a b) (m : ∀ p ∈ ([.resets] : List Part), p ∈ l) : Frame l a (b.modResets f) :=
  h.trans (fun p => by cases p <;> first | exact .inr rfl | exact .inl (m _ (List.mem_singleton.2 rfl)))

theorem frame_modSvc {l : List Part} {a b : Block} (f : Svc → Svc) (h : Frame l a b) (m : ∀ p ∈ ([.svc] : List Part), p ∈ l) : Frame l a (b.modSvc f) :=
  h.trans (fun p => by cases p <;> first | exact .inr rfl | exact .inl (m _ (List.mem_singleton.2 rfl)))

theorem frame_modPm {l : List Part} {a b : Block} (f : Postmark → Postmark) (h : Frame l a b) (m : ∀ p ∈ ([.pm] : List Part), p ∈ l) : Frame l a (b.modPm f) :=
  h.trans (fun p => by cases p <;> first | exact .inr rfl | exact .inl (m _ (List.mem_singleton.2 rfl)))

theorem frame_modStop {l : List Part} {a b : Block} (f : Stop → Stop) (h : Frame l a b) (m : ∀ p ∈ ([.stop] : List Part), p ∈ l) : Frame l a (b.modStop f) :=
  h.trans (fun p => by cases p <;> first | exact .inr rfl | exact .inl (m _ (List.mem_singleton.2 rfl)))

theorem frame_modOuts {l : List Part} {a b : Block} (f : Outs → Outs) (h : Frame l a b) (m : ∀ p ∈ ([.outs] : List Part), p ∈ l) : Frame l a (b.modOuts f) :=
  h.trans (fun p => by cases p <;> first | exact .inr rfl | exact .inl (m _ (List.mem_singleton.2 rfl)))

theorem frame_modEnv {l : List Part} {a b : Block} (f : Env → Env) (h : Frame l a b) (m : ∀ p ∈ ([.env] : List Part), p ∈ l) : Frame l a (b.modEnv f) :=
  h.trans (fun p => by cases p <;> first | exact .inr rfl | exact .inl (m _ (List.mem_singleton.2 rfl)))

theorem frame_modKeys {l : List Part} {a b : Block} (f : Keys → Keys) (h : Frame l a b) (m : ∀ p ∈ ([.keys] : List Part), p ∈ l) : Frame l a (b.modKeys f) :=
  h.trans (fun p => by cases p <;> first | exact .inr rfl | exact .inl (m _ (List.mem_singleton.2 rfl)))

theorem frame_modLedger {l : List Part} {a b : Block} (f : LedgerData → LedgerData) (h : Frame l a b) (m : ∀ p ∈ ([.ledger] : List Part), p ∈ l) : Frame l a (b.modLedger f) :=
  h.trans (fun p => by cases p <;> first | exact .inr rfl | exact .inl (m _ (List.mem_singleton.2 rfl)))

theorem frame_modDebug {l : List Part} {a b : Block} (f : Debug → Debug) (h : Frame l a b) (m : ∀ p ∈ ([.dbg] : List Part), p ∈ l) : Frame l a (b.modDebug f) :=
  h.trans (fun p => by cases p <;> first | exact .inr rfl | exact .inl (m _ (List.mem_singleton.2 rfl)))

theorem frame_modRing {l : List Part} {a b : Block} (r : Nat) (f : Ring → Ring) (h : Frame l a b) (m : ∀ p ∈ ([.mail] : List Part), p ∈ l) : Frame l a (b.modRing r f) :=
  h.trans (fun p => by cases p <;> first | exact .inr rfl | exact .inl (m _ (List.mem_singleton.2 rfl)))

theorem frame_setHist {l : List Part} {a b : Block} (i : Nat) (x : CoreHist) (h : Frame l a b) (m : ∀ p ∈ ([.ledger] : List Part), p ∈ l) : Frame l a (b.setHist i x) :=
  h.trans (fun p => by cases p <;> first | exact .inr rfl | exact .inl (m _ (List.mem_singleton.2 rfl)))

theorem frame_modHist {l : List Part} {a b : Block} (i : Nat) (f : CoreHist → CoreHist) (h : Frame l a b) (m : ∀ p ∈ ([.ledger] : List Part), p ∈ l) : Frame l a (b.modHist i f) :=
  h.trans (fun p => by cases p <;> first | exact .inr rfl | exact .inl (m _ (List.mem_singleton.2 rfl)))

theorem frame_setCore {l : List Part} {a b : Block} (k : Nat) (x : Core) (h : Frame l a b) (m : ∀ p ∈ ([.cores] : List Part), p ∈ l) : Frame l a (b.setCore k x) :=
  h.trans (fun p => by cases p <;> first | exact .inr rfl | exact .inl (m _ (List.mem_singleton.2 rfl)))

theorem frame_modCore {l : List Part} {a b : Block} (k : Nat) (f : Core → Core) (h : Frame l a b) (m : ∀ p ∈ ([.cores] : List Part), p ∈ l) : Frame l a (b.modCore k f) :=
  h.trans (fun p => by cases p <;> first | exact .inr rfl | exact .inl (m _ (List.mem_singleton.2 rfl)))

theorem frame_setOffice {l : List Part} {a b : Block} (k : Nat) (x : Office) (h : Frame l a b) (m : ∀ p ∈ ([.offices] : List Part), p ∈ l) : Frame l a (b.setOffice k x) :=
  h.trans (fun p => by cases p <;> first | exact .inr rfl | exact .inl (m _ (List.mem_singleton.2 rfl)))

theorem frame_modOffice {l : List Part} {a b : Block} (k : Nat) (f : Office → Office) (h : Frame l a b) (m : ∀ p ∈ ([.offices] : List Part), p ∈ l) : Frame l a (b.modOffice k f) :=
  h.trans (fun p => by cases p <;> first | exact .inr rfl | exact .inl (m _ (List.mem_singleton.2 rfl)))

theorem frame_setRouter {l : List Part} {a b : Block} (k : Nat) (x : Router) (h : Frame l a b) (m : ∀ p ∈ ([.routers] : List Part), p ∈ l) : Frame l a (b.setRouter k x) :=
  h.trans (fun p => by cases p <;> first | exact .inr rfl | exact .inl (m _ (List.mem_singleton.2 rfl)))

theorem frame_modRouter {l : List Part} {a b : Block} (k : Nat) (f : Router → Router) (h : Frame l a b) (m : ∀ p ∈ ([.routers] : List Part), p ∈ l) : Frame l a (b.modRouter k f) :=
  h.trans (fun p => by cases p <;> first | exact .inr rfl | exact .inl (m _ (List.mem_singleton.2 rfl)))

theorem frame_setNode {l : List Part} {a b : Block} (k : Nat) (x : Router) (h : Frame l a b) (m : ∀ p ∈ ([.nodes] : List Part), p ∈ l) : Frame l a (b.setNode k x) :=
  h.trans (fun p => by cases p <;> first | exact .inr rfl | exact .inl (m _ (List.mem_singleton.2 rfl)))

theorem frame_modNode {l : List Part} {a b : Block} (k : Nat) (f : Router → Router) (h : Frame l a b) (m : ∀ p ∈ ([.nodes] : List Part), p ∈ l) : Frame l a (b.modNode k f) :=
  h.trans (fun p => by cases p <;> first | exact .inr rfl | exact .inl (m _ (List.mem_singleton.2 rfl)))

theorem frame_setCourier {l : List Part} {a b : Block} (k : Nat) (x : Courier) (h : Frame l a b) (m : ∀ p ∈ ([.couriers] : List Part), p ∈ l) : Frame l a (b.setCourier k x) :=
  h.trans (fun p => by cases p <;> first | exact .inr rfl | exact .inl (m _ (List.mem_singleton.2 rfl)))

theorem frame_modCourier {l : List Part} {a b : Block} (k : Nat) (f : Courier → Courier) (h : Frame l a b) (m : ∀ p ∈ ([.couriers] : List Part), p ∈ l) : Frame l a (b.modCourier k f) :=
  h.trans (fun p => by cases p <;> first | exact .inr rfl | exact .inl (m _ (List.mem_singleton.2 rfl)))

theorem frame_allCores {l : List Part} {a b : Block} (f : Core → Core) (h : Frame l a b) (m : ∀ p ∈ ([.cores] : List Part), p ∈ l) : Frame l a (b.allCores f) :=
  h.trans (fun p => by cases p <;> first | exact .inr rfl | exact .inl (m _ (List.mem_singleton.2 rfl)))

theorem frame_allOffices {l : List Part} {a b : Block} (f : Office → Office) (h : Frame l a b) (m : ∀ p ∈ ([.offices] : List Part), p ∈ l) : Frame l a (b.allOffices f) :=
  h.trans (fun p => by cases p <;> first | exact .inr rfl | exact .inl (m _ (List.mem_singleton.2 rfl)))

theorem frame_allRouters {l : List Part} {a b : Block} (f : Router → Router) (h : Frame l a b) (m : ∀ p ∈ ([.routers] : List Part), p ∈ l) : Frame l a (b.allRouters f) :=
  h.trans (fun p => by cases p <;> first | exact .inr rfl | exact .inl (m _ (List.mem_singleton.2 rfl)))

theorem frame_allNodes {l : List Part} {a b : Block} (f : Router → Router) (h : Frame l a b) (m : ∀ p ∈ ([.nodes] : List Part), p ∈ l) : Frame l a (b.allNodes f) :=
  h.trans (fun p => by cases p <;> first | exact .inr rfl | exact .inl (m _ (List.mem_singleton.2 rfl)))

theorem frame_allCouriers {l : List Part} {a b : Block} (f : Courier → Courier) (h : Frame l a b) (m : ∀ p ∈ ([.couriers] : List Part), p ∈ l) : Frame l a (b.allCouriers f) :=
  h.trans (fun p => by cases p <;> first | exact .inr rfl | exact .inl (m _ (List.mem_singleton.2 rfl)))

theorem frame_allHops {l : List Part} {a b : Block} (f : Router → Router) (h : Frame l a b) (m : ∀ p ∈ ([.routers, .nodes] : List Part), p ∈ l) :
    Frame l a (b.allHops f) :=
  frame_allNodes f (frame_allRouters f h fun p hp => m p (subs_of rfl p hp)) fun p hp => m p (subs_of rfl p hp)

theorem frame_with_pm {l : List Part} {a b : Block} (h : Frame l a b) (x) (m : ∀ p ∈ ([.pm] : List Part), p ∈ l) : Frame l a { b with pm := x } :=
  h.trans (fun p => by cases p <;> first | exact .inr rfl | exact .inl (m _ (List.mem_singleton.2 rfl)))

theorem frame_with_svc {l : List Part} {a b : Block} (h : Frame l a b) (x) (m : ∀ p ∈ ([.svc] : List Part), p ∈ l) : Frame l a { b with svc := x } :=
  h.trans (fun p => by cases p <;> first | exact .inr rfl | exact .inl (m _ (List.mem_singleton.2 rfl)))

theorem frame_with_ledger {l : List Part} {a b : Block} (h : Frame l a b) (x) (m : ∀ p ∈ ([.ledger] : List Part), p ∈ l) : Frame l a { b with ledger := x } :=
  h.trans (fun p => by cases p <;> first | exact .inr rfl | exact .inl (m _ (List.mem_singleton.2 rfl)))

theorem frame_with_arch {l : List Part} {a b : Block} (h : Frame l a b) (x) (m : ∀ p ∈ ([.arch] : List Part), p ∈ l) : Frame l a { b with arch := x } :=
  h.trans (fun p => by cases p <;> first | exact .inr rfl | exact .inl (m _ (List.mem_singleton.2 rfl)))

theorem frame_with_stop {l : List Part} {a b : Block} (h : Frame l a b) (x) (m : ∀ p ∈ ([.stop] : List Part), p ∈ l) : Frame l a { b with stop := x } :=
  h.trans (fun p => by cases p <;> first | exact .inr rfl | exact .inl (m _ (List.mem_singleton.2 rfl)))

theorem frame_with_outs {l : List Part} {a b : Block} (h : Frame l a b) (x) (m : ∀ p ∈ ([.outs] : List Part), p ∈ l) : Frame l a { b with outs := x } :=
  h.trans (fun p => by cases p <;> first | exact .inr rfl | exact .inl (m _ (List.mem_singleton.2 rfl)))

theorem frame_with_keys {l : List Part} {a b : Block} (h : Frame l a b) (x) (m : ∀ p ∈ ([.keys] : List Part), p ∈ l) : Frame l a { b with keys := x } :=
  h.trans (fun p => by cases p <;> first | exact .inr rfl | exact .inl (m _ (List.mem_singleton.2 rfl)))

theorem frame_with_dbg {l : List Part} {a b : Block} (h : Frame l a b) (x) (m : ∀ p ∈ ([.dbg] : List Part), p ∈ l) : Frame l a { b with dbg := x } :=
  h.trans (fun p => by cases p <;> first | exact .inr rfl | exact .inl (m _ (List.mem_singleton.2 rfl)))

theorem frame_with_cfg {l : List Part} {a b : Block} (h : Frame l a b) (x) (m : ∀ p ∈ ([.cfg] : List Part), p ∈ l) : Frame l a { b with cfg := x } :=
  h.trans (fun p => by cases p <;> first | exact .inr rfl | exact .inl (m _ (List.mem_singleton.2 rfl)))

theorem frame_with_free {l : List Part} {a b : Block} (h : Frame l a b) (x) (m : ∀ p ∈ ([.free] : List Part), p ∈ l) : Frame l a { b with free := x } :=
  h.trans (fun p => by cases p <;> first | exact .inr rfl | exact .inl (m _ (List.mem_singleton.2 rfl)))

theorem frame_with_env {l : List Part} {a b : Block} (h : Frame l a b) (x) (m : ∀ p ∈ ([.env] : List Part), p ∈ l) : Frame l a { b with env := x } :=
  h.trans (fun p => by cases p <;> first | exact .inr rfl | exact .inl (m _ (List.mem_singleton.2 rfl)))

theorem frame_with_letters {l : List Part} {a b : Block} (h : Frame l a b) (x) (m : ∀ p ∈ ([.letters] : List Part), p ∈ l) : Frame l a { b with letters := x } :=
  h.trans (fun p => by cases p <;> first | exact .inr rfl | exact .inl (m _ (List.mem_singleton.2 rfl)))

theorem frame_withArchOuts {l : List Part} {a b : Block} (h : Frame l a b) (x y) (m : ∀ p ∈ ([.outs, .arch] : List Part), p ∈ l) :
    Frame l a { b with arch := x, outs := y } :=
  h.trans (fun p => by cases p <;> first | exact .inr rfl | exact .inl (m _ (by decide)))

theorem frame_withLedgerArch {l : List Part} {a b : Block} (h : Frame l a b) (x y) (m : ∀ p ∈ ([.ledger, .arch] : List Part), p ∈ l) :
    Frame l a { b with ledger := x, arch := y } :=
  h.trans (fun p => by cases p <;> first | exact .inr rfl | exact .inl (m _ (by decide)))

/-! ### Ops -/

theorem frame_advTo {L0 : List Part} {o0 : Block} (n : Nat) {b : Block} (h0 : Frame L0 o0 b) (m0 : ∀ p ∈ ([.pm] : List Part), p ∈ L0) :
    Frame L0 o0 (advTo n b) := by
  unfold advTo
  repeat' first
    | with_reducible assumption
    | with_reducible exact fun p hp => m0 p (subs_of rfl p hp)
    | with_reducible apply frame_modPm
    | with_reducible apply Frame.ite
    | (intro _ _ _)
    | split
    | dsimp only
    | exact Frame.trans h0 (fun p => by cases p <;> first | exact .inr rfl | exact .inl (m0 _ (by decide)))

theorem frame_freshBit {L0 : List Part} {o0 : Block} {b : Block} (h0 : Frame L0 o0 b) (m0 : ∀ p ∈ ([.free] : List Part), p ∈ L0) :
    Frame L0 o0 (freshBit b).2 := by
  unfold freshBit
  repeat' first
    | with_reducible assumption
    | with_reducible exact fun p hp => m0 p (subs_of rfl p hp)
    | with_reducible apply Frame.ite
    | with_reducible refine frame_with_free ?_ _ ?_
    | (intro _ _ _)
    | split
    | dsimp only
    | exact Frame.trans h0 (fun p => by cases p <;> first | exact .inr rfl | exact .inl (m0 _ (by decide)))

theorem frame_freshWord {L0 : List Part} {o0 : Block} {b : Block} (h0 : Frame L0 o0 b) (m0 : ∀ p ∈ ([.free] : List Part), p ∈ L0) :
    Frame L0 o0 (freshWord b).2 := by
  unfold freshWord
  repeat' first
    | with_reducible assumption
    | with_reducible exact fun p hp => m0 p (subs_of rfl p hp)
    | with_reducible apply Frame.ite
    | with_reducible refine frame_with_free ?_ _ ?_
    | (intro _ _ _)
    | split
    | dsimp only
    | exact Frame.trans h0 (fun p => by cases p <;> first | exact .inr rfl | exact .inl (m0 _ (by decide)))

theorem frame_setGen {L0 : List Part} {o0 : Block} (g : Option GenRec) {b : Block} (h0 : Frame L0 o0 b) (m0 : ∀ p ∈ ([.ledger] : List Part), p ∈ L0) :
    Frame L0 o0 (setGen g b) := by
  unfold setGen
  repeat' first
    | with_reducible assumption
    | with_reducible exact fun p hp => m0 p (subs_of rfl p hp)
    | with_reducible apply frame_modLedger
    | with_reducible apply Frame.ite
    | (intro _ _ _)
    | split
    | dsimp only
    | exact Frame.trans h0 (fun p => by cases p <;> first | exact .inr rfl | exact .inl (m0 _ (by decide)))

theorem frame_setIrqRing {L0 : List Part} {o0 : Block} (r : Nat) {b : Block} (h0 : Frame L0 o0 b) (m0 : ∀ p ∈ ([.mgmt] : List Part), p ∈ L0) :
    Frame L0 o0 (setIrqRing r b) := by
  unfold setIrqRing
  repeat' first
    | with_reducible assumption
    | with_reducible exact fun p hp => m0 p (subs_of rfl p hp)
    | with_reducible apply frame_modMgmt
    | with_reducible apply Frame.ite
    | (intro _ _ _)
    | split
    | dsimp only
    | exact Frame.trans h0 (fun p => by cases p <;> first | exact .inr rfl | exact .inl (m0 _ (by decide)))

theorem frame_setIrqMisc {L0 : List Part} {o0 : Block} (i : Nat) {b : Block} (h0 : Frame L0 o0 b) (m0 : ∀ p ∈ ([.mgmt] : List Part), p ∈ L0) :
    Frame L0 o0 (setIrqMisc i b) := by
  unfold setIrqMisc
  repeat' first
    | with_reducible assumption
    | with_reducible exact fun p hp => m0 p (subs_of rfl p hp)
    | with_reducible apply frame_modMgmt
    | with_reducible apply Frame.ite
    | (intro _ _ _)
    | split
    | dsimp only
    | exact Frame.trans h0 (fun p => by cases p <;> first | exact .inr rfl | exact .inl (m0 _ (by decide)))

theorem frame_recordErr {L0 : List Part} {o0 : Block} (offset : Nat) (cause : Nat) {b : Block} (h0 : Frame L0 o0 b) (m0 : ∀ p ∈ ([.mgmt] : List Part), p ∈ L0) :
    Frame L0 o0 (recordErr offset cause b) := by
  unfold recordErr
  repeat' first
    | with_reducible assumption
    | with_reducible exact fun p hp => m0 p (subs_of rfl p hp)
    | with_reducible apply frame_setIrqMisc
    | with_reducible apply frame_modMgmt
    | with_reducible apply Frame.ite
    | (intro _ _ _)
    | split
    | dsimp only
    | exact Frame.trans h0 (fun p => by cases p <;> first | exact .inr rfl | exact .inl (m0 _ (by decide)))

theorem frame_placeRecord {L0 : List Part} {o0 : Block} (r : Nat) (rc : List Byte) {b : Block} (h0 : Frame L0 o0 b) (m0 : ∀ p ∈ ([.mgmt, .mail] : List Part), p ∈ L0) :
    Frame L0 o0 (placeRecord r rc b) := by
  unfold placeRecord
  repeat' first
    | with_reducible assumption
    | with_reducible exact fun p hp => m0 p (subs_of rfl p hp)
    | with_reducible apply frame_setIrqRing
    | with_reducible apply frame_modRing
    | with_reducible apply Frame.ite
    | (intro _ _ _)
    | split
    | dsimp only
    | exact Frame.trans h0 (fun p => by cases p <;> first | exact .inr rfl | exact .inl (m0 _ (by decide)))

theorem frame_putEvent {L0 : List Part} {o0 : Block} (r : Nat) (code : Nat) (pm : Nat) (unit : Nat) (occ : Nat) (body : List Byte) {b : Block} (h0 : Frame L0 o0 b) (m0 : ∀ p ∈ ([.mgmt, .mail] : List Part), p ∈ L0) :
    Frame L0 o0 (putEvent r code pm unit occ body b) := by
  unfold putEvent
  repeat' first
    | with_reducible assumption
    | with_reducible exact fun p hp => m0 p (subs_of rfl p hp)
    | with_reducible apply frame_placeRecord
    | with_reducible apply frame_modRing
    | with_reducible apply Frame.ite
    | (intro _ _ _)
    | split
    | dsimp only
    | exact Frame.trans h0 (fun p => by cases p <;> first | exact .inr rfl | exact .inl (m0 _ (by decide)))

theorem frame_putLost {L0 : List Part} {o0 : Block} (r : Nat) {b : Block} (h0 : Frame L0 o0 b) (m0 : ∀ p ∈ ([.mgmt, .mail] : List Part), p ∈ L0) :
    Frame L0 o0 (putLost r b) := by
  unfold putLost
  repeat' first
    | with_reducible assumption
    | with_reducible exact fun p hp => m0 p (subs_of rfl p hp)
    | with_reducible apply frame_putEvent
    | with_reducible apply frame_modRing
    | with_reducible apply Frame.ite
    | (intro _ _ _)
    | split
    | dsimp only
    | exact Frame.trans h0 (fun p => by cases p <;> first | exact .inr rfl | exact .inl (m0 _ (by decide)))

theorem frame_admitEvent {L0 : List Part} {o0 : Block} (code : Nat) (pm : Nat) (unit : Nat) (occ : Nat) (body : List Byte) {b : Block} (h0 : Frame L0 o0 b) (m0 : ∀ p ∈ ([.mgmt, .mail] : List Part), p ∈ L0) :
    Frame L0 o0 (admitEvent code pm unit occ body b) := by
  unfold admitEvent
  repeat' first
    | with_reducible assumption
    | with_reducible exact fun p hp => m0 p (subs_of rfl p hp)
    | with_reducible apply frame_putLost
    | with_reducible apply frame_putEvent
    | with_reducible apply frame_recordErr
    | with_reducible apply frame_modRing
    | with_reducible apply Frame.ite
    | (intro _ _ _)
    | split
    | dsimp only
    | exact Frame.trans h0 (fun p => by cases p <;> first | exact .inr rfl | exact .inl (m0 _ (by decide)))

theorem frame_traceEvent {L0 : List Part} {o0 : Block} (code : Nat) (pm : Nat) (unit : Nat) (body : List Byte) {b : Block} (h0 : Frame L0 o0 b) (m0 : ∀ p ∈ ([.dbg, .mgmt, .mail] : List Part), p ∈ L0) :
    Frame L0 o0 (traceEvent code pm unit body b) := by
  unfold traceEvent
  repeat' first
    | with_reducible assumption
    | with_reducible exact fun p hp => m0 p (subs_of rfl p hp)
    | with_reducible apply frame_admitEvent
    | with_reducible apply frame_modDebug
    | with_reducible apply Frame.ite
    | (intro _ _ _)
    | split
    | dsimp only
    | exact Frame.trans h0 (fun p => by cases p <;> first | exact .inr rfl | exact .inl (m0 _ (by decide)))

theorem frame_postEventN {L0 : List Part} {o0 : Block} (code : Nat) (pm : Nat) (unit : Nat) (occ : Nat) (body : List Byte) {b : Block} (h0 : Frame L0 o0 b) (m0 : ∀ p ∈ ([.dbg, .mgmt, .mail] : List Part), p ∈ L0) :
    Frame L0 o0 (postEventN code pm unit occ body b) := by
  unfold postEventN
  repeat' first
    | with_reducible assumption
    | with_reducible exact fun p hp => m0 p (subs_of rfl p hp)
    | with_reducible apply frame_admitEvent
    | with_reducible apply frame_traceEvent
    | with_reducible apply Frame.ite
    | (intro _ _ _)
    | split
    | dsimp only
    | exact Frame.trans h0 (fun p => by cases p <;> first | exact .inr rfl | exact .inl (m0 _ (by decide)))

theorem frame_postEvent {L0 : List Part} {o0 : Block} (code : Nat) (unit : Nat) (body : List Byte) {b : Block} (h0 : Frame L0 o0 b) (m0 : ∀ p ∈ ([.dbg, .mgmt, .mail] : List Part), p ∈ L0) :
    Frame L0 o0 (postEvent code unit body b) := by
  unfold postEvent
  repeat' first
    | with_reducible assumption
    | with_reducible exact fun p hp => m0 p (subs_of rfl p hp)
    | with_reducible apply frame_postEventN
    | with_reducible apply Frame.ite
    | (intro _ _ _)
    | split
    | dsimp only
    | exact Frame.trans h0 (fun p => by cases p <;> first | exact .inr rfl | exact .inl (m0 _ (by decide)))

theorem frame_hoEvent {L0 : List Part} {o0 : Block} (code : Nat) (body : List Byte) {b : Block} (h0 : Frame L0 o0 b) (m0 : ∀ p ∈ ([.dbg, .mgmt, .mail] : List Part), p ∈ L0) :
    Frame L0 o0 (hoEvent code body b) := by
  unfold hoEvent
  repeat' first
    | with_reducible assumption
    | with_reducible exact fun p hp => m0 p (subs_of rfl p hp)
    | with_reducible apply frame_postEvent
    | with_reducible apply Frame.ite
    | (intro _ _ _)
    | split
    | dsimp only
    | exact Frame.trans h0 (fun p => by cases p <;> first | exact .inr rfl | exact .inl (m0 _ (by decide)))

theorem frame_bumpCtr {L0 : List Part} {o0 : Block} (i : Nat) (code : Nat) (n : Nat) {b : Block} (h0 : Frame L0 o0 b) (m0 : ∀ p ∈ ([.cores] : List Part), p ∈ L0) :
    Frame L0 o0 (bumpCtr i code n b) := by
  unfold bumpCtr
  repeat' first
    | with_reducible assumption
    | with_reducible exact fun p hp => m0 p (subs_of rfl p hp)
    | with_reducible apply frame_modCore
    | with_reducible apply Frame.ite
    | (intro _ _ _)
    | split
    | dsimp only
    | exact Frame.trans h0 (fun p => by cases p <;> first | exact .inr rfl | exact .inl (m0 _ (by decide)))

theorem frame_fileEvent {L0 : List Part} {o0 : Block} (r : Nat) (code : Nat) (unit : Nat) (body : List Byte) {b : Block} (h0 : Frame L0 o0 b) (m0 : ∀ p ∈ ([.offices] : List Part), p ∈ L0) :
    Frame L0 o0 (fileEvent r code unit body b) := by
  unfold fileEvent
  repeat' first
    | with_reducible assumption
    | with_reducible exact fun p hp => m0 p (subs_of rfl p hp)
    | with_reducible apply frame_modOffice
    | with_reducible apply Frame.ite
    | (intro _ _ _)
    | split
    | dsimp only
    | exact Frame.trans h0 (fun p => by cases p <;> first | exact .inr rfl | exact .inl (m0 _ (by decide)))

theorem frame_lbEvent {L0 : List Part} {o0 : Block} (i : Nat) (code : Nat) (body : List Byte) {b : Block} (h0 : Frame L0 o0 b) (m0 : ∀ p ∈ ([.cores, .offices] : List Part), p ∈ L0) :
    Frame L0 o0 (lbEvent i code body b) := by
  unfold lbEvent
  repeat' first
    | with_reducible assumption
    | with_reducible exact fun p hp => m0 p (subs_of rfl p hp)
    | with_reducible apply frame_bumpCtr
    | with_reducible apply frame_fileEvent
    | with_reducible apply Frame.ite
    | (intro _ _ _)
    | split
    | dsimp only
    | exact Frame.trans h0 (fun p => by cases p <;> first | exact .inr rfl | exact .inl (m0 _ (by decide)))

theorem frame_raiseAlarm {L0 : List Part} {o0 : Block} (code : Nat) {b : Block} (h0 : Frame L0 o0 b) (m0 : ∀ p ∈ ([.outs, .mgmt] : List Part), p ∈ L0) :
    Frame L0 o0 (raiseAlarm code b) := by
  unfold raiseAlarm
  repeat' first
    | with_reducible assumption
    | with_reducible exact fun p hp => m0 p (subs_of rfl p hp)
    | with_reducible apply frame_setIrqMisc
    | with_reducible apply frame_modOuts
    | with_reducible apply Frame.ite
    | (intro _ _ _)
    | split
    | dsimp only
    | exact Frame.trans h0 (fun p => by cases p <;> first | exact .inr rfl | exact .inl (m0 _ (by decide)))

theorem frame_setSvc {L0 : List Part} {o0 : Block} (st : SvcState) {b : Block} (h0 : Frame L0 o0 b) (m0 : ∀ p ∈ ([.svc, .dbg, .mgmt, .mail] : List Part), p ∈ L0) :
    Frame L0 o0 (setSvc st b) := by
  unfold setSvc
  repeat' first
    | with_reducible assumption
    | with_reducible exact fun p hp => m0 p (subs_of rfl p hp)
    | with_reducible apply frame_hoEvent
    | with_reducible apply frame_setIrqMisc
    | with_reducible apply frame_modSvc
    | with_reducible apply Frame.ite
    | (intro _ _ _)
    | split
    | dsimp only
    | exact Frame.trans h0 (fun p => by cases p <;> first | exact .inr rfl | exact .inl (m0 _ (by decide)))

theorem frame_setPmState {L0 : List Part} {o0 : Block} (st : PmState) {b : Block} (h0 : Frame L0 o0 b) (m0 : ∀ p ∈ ([.pm, .mgmt] : List Part), p ∈ L0) :
    Frame L0 o0 (setPmState st b) := by
  unfold setPmState
  repeat' first
    | with_reducible assumption
    | with_reducible exact fun p hp => m0 p (subs_of rfl p hp)
    | with_reducible apply frame_setIrqMisc
    | with_reducible apply frame_modPm
    | with_reducible apply Frame.ite
    | (intro _ _ _)
    | split
    | dsimp only
    | exact Frame.trans h0 (fun p => by cases p <;> first | exact .inr rfl | exact .inl (m0 _ (by decide)))

theorem frame_publish {L0 : List Part} {o0 : Block} {b : Block} (h0 : Frame L0 o0 b) (m0 : ∀ p ∈ ([.ledger, .bm] : List Part), p ∈ L0) :
    Frame L0 o0 (publish b) := by
  unfold publish
  repeat' first
    | with_reducible assumption
    | with_reducible exact fun p hp => m0 p (subs_of rfl p hp)
    | with_reducible apply frame_modBm
    | with_reducible apply frame_modLedger
    | with_reducible apply Frame.ite
    | (intro _ _ _)
    | split
    | dsimp only
    | exact Frame.trans h0 (fun p => by cases p <;> first | exact .inr rfl | exact .inl (m0 _ (by decide)))

theorem frame_bmMark {L0 : List Part} {o0 : Block} {b : Block} (h0 : Frame L0 o0 b) (m0 : ∀ p ∈ ([.bm] : List Part), p ∈ L0) :
    Frame L0 o0 (bmMark b) := by
  unfold bmMark
  repeat' first
    | with_reducible assumption
    | with_reducible exact fun p hp => m0 p (subs_of rfl p hp)
    | with_reducible apply frame_modBm
    | with_reducible apply Frame.ite
    | (intro _ _ _)
    | split
    | dsimp only
    | exact Frame.trans h0 (fun p => by cases p <;> first | exact .inr rfl | exact .inl (m0 _ (by decide)))

theorem frame_publishDue {L0 : List Part} {o0 : Block} {b : Block} (h0 : Frame L0 o0 b) (m0 : ∀ p ∈ ([.ledger, .bm] : List Part), p ∈ L0) :
    Frame L0 o0 (publishDue b) := by
  unfold publishDue
  repeat' first
    | with_reducible assumption
    | with_reducible exact fun p hp => m0 p (subs_of rfl p hp)
    | with_reducible apply frame_publish
    | with_reducible apply Frame.ite
    | (intro _ _ _)
    | split
    | dsimp only
    | exact Frame.trans h0 (fun p => by cases p <;> first | exact .inr rfl | exact .inl (m0 _ (by decide)))

theorem frame_bmChanged {L0 : List Part} {o0 : Block} {b : Block} (h0 : Frame L0 o0 b) (m0 : ∀ p ∈ ([.ledger, .bm] : List Part), p ∈ L0) :
    Frame L0 o0 (bmChanged b) := by
  unfold bmChanged
  repeat' first
    | with_reducible assumption
    | with_reducible exact fun p hp => m0 p (subs_of rfl p hp)
    | with_reducible apply frame_publishDue
    | with_reducible apply frame_bmMark
    | with_reducible apply Frame.ite
    | (intro _ _ _)
    | split
    | dsimp only
    | exact Frame.trans h0 (fun p => by cases p <;> first | exact .inr rfl | exact .inl (m0 _ (by decide)))

theorem frame_fenceHold {L0 : List Part} {o0 : Block} (i : Nat) {b : Block} (h0 : Frame L0 o0 b) (m0 : ∀ p ∈ ([.cores] : List Part), p ∈ L0) :
    Frame L0 o0 (fenceHold i b) := by
  unfold fenceHold
  repeat' first
    | with_reducible assumption
    | with_reducible exact fun p hp => m0 p (subs_of rfl p hp)
    | with_reducible apply frame_modCore
    | with_reducible apply Frame.ite
    | (intro _ _ _)
    | split
    | dsimp only
    | exact Frame.trans h0 (fun p => by cases p <;> first | exact .inr rfl | exact .inl (m0 _ (by decide)))

theorem frame_stopJobNext {L0 : List Part} {o0 : Block} {b : Block} (h0 : Frame L0 o0 b) (m0 : ∀ p ∈ ([.stop, .job] : List Part), p ∈ L0) :
    Frame L0 o0 (stopJobNext b) := by
  unfold stopJobNext
  repeat' first
    | with_reducible assumption
    | with_reducible exact fun p hp => m0 p (subs_of rfl p hp)
    | with_reducible apply frame_modJob
    | with_reducible apply frame_modStop
    | with_reducible apply Frame.ite
    | (intro _ _ _)
    | split
    | dsimp only
    | exact Frame.trans h0 (fun p => by cases p <;> first | exact .inr rfl | exact .inl (m0 _ (by decide)))

theorem frame_fillTo {L0 : List Part} {o0 : Block} (pick : Fill → Bool) (ph : Nat) {b : Block} (h0 : Frame L0 o0 b) (m0 : ∀ p ∈ ([.ledger, .job] : List Part), p ∈ L0) :
    Frame L0 o0 (fillTo pick ph b) := by
  unfold fillTo
  repeat' first
    | with_reducible assumption
    | with_reducible exact fun p hp => m0 p (subs_of rfl p hp)
    | with_reducible apply frame_modJob
    | with_reducible apply frame_modLedger
    | with_reducible apply Frame.ite
    | (intro _ _ _)
    | split
    | dsimp only
    | exact Frame.trans h0 (fun p => by cases p <;> first | exact .inr rfl | exact .inl (m0 _ (by decide)))

theorem frame_modRelocs {L0 : List Part} {o0 : Block} (r : Nat) (f : List Reloc → List Reloc) {b : Block} (h0 : Frame L0 o0 b) (m0 : ∀ p ∈ ([.job, .offices] : List Part), p ∈ L0) :
    Frame L0 o0 (modRelocs r f b) := by
  unfold modRelocs
  repeat' first
    | with_reducible assumption
    | with_reducible exact fun p hp => m0 p (subs_of rfl p hp)
    | with_reducible apply frame_modOffice
    | with_reducible apply frame_modJob
    | with_reducible apply Frame.ite
    | (intro _ _ _)
    | split
    | dsimp only
    | exact Frame.trans h0 (fun p => by cases p <;> first | exact .inr rfl | exact .inl (m0 _ (by decide)))

theorem frame_endFills {L0 : List Part} {o0 : Block} {b : Block} (h0 : Frame L0 o0 b) (m0 : ∀ p ∈ ([.ledger, .job] : List Part), p ∈ L0) :
    Frame L0 o0 (endFills b) := by
  unfold endFills
  repeat' first
    | with_reducible assumption
    | with_reducible exact fun p hp => m0 p (subs_of rfl p hp)
    | with_reducible apply frame_fillTo
    | with_reducible apply frame_modJob
    | with_reducible apply Frame.ite
    | (intro _ _ _)
    | split
    | dsimp only
    | exact Frame.trans h0 (fun p => by cases p <;> first | exact .inr rfl | exact .inl (m0 _ (by decide)))

theorem frame_failFill {L0 : List Part} {o0 : Block} (role : Nat) (code : Nat) {b : Block} (h0 : Frame L0 o0 b) (m0 : ∀ p ∈ ([.ledger, .stop, .dbg, .mgmt, .mail, .job, .offices] : List Part), p ∈ L0) :
    Frame L0 o0 (failFill role code b) := by
  unfold failFill
  repeat' first
    | with_reducible assumption
    | with_reducible exact fun p hp => m0 p (subs_of rfl p hp)
    | with_reducible apply Frame.forEach1
    | with_reducible apply frame_modRelocs
    | with_reducible apply frame_stopJobNext
    | with_reducible apply frame_hoEvent
    | with_reducible apply frame_fillTo
    | with_reducible apply Frame.ite
    | (intro _ _ _)
    | split
    | dsimp only
    | exact Frame.trans h0 (fun p => by cases p <;> first | exact .inr rfl | exact .inl (m0 _ (by decide)))

theorem frame_failTarget {L0 : List Part} {o0 : Block} (i : Nat) {b : Block} (h0 : Frame L0 o0 b) (m0 : ∀ p ∈ ([.ledger, .stop, .dbg, .mgmt, .mail, .job, .offices] : List Part), p ∈ L0) :
    Frame L0 o0 (failTarget i b) := by
  unfold failTarget
  repeat' first
    | with_reducible assumption
    | with_reducible exact fun p hp => m0 p (subs_of rfl p hp)
    | with_reducible apply Frame.forEach1
    | with_reducible apply frame_failFill
    | with_reducible apply Frame.ite
    | (intro _ _ _)
    | split
    | dsimp only
    | exact Frame.trans h0 (fun p => by cases p <;> first | exact .inr rfl | exact .inl (m0 _ (by decide)))

theorem frame_addReason {L0 : List Part} {o0 : Block} (r : Nat) (bitno : Nat) {b : Block} (h0 : Frame L0 o0 b) (m0 : ∀ p ∈ ([.offices] : List Part), p ∈ L0) :
    Frame L0 o0 (addReason r bitno b) := by
  unfold addReason
  repeat' first
    | with_reducible assumption
    | with_reducible exact fun p hp => m0 p (subs_of rfl p hp)
    | with_reducible apply frame_modOffice
    | with_reducible apply Frame.ite
    | (intro _ _ _)
    | split
    | dsimp only
    | exact Frame.trans h0 (fun p => by cases p <;> first | exact .inr rfl | exact .inl (m0 _ (by decide)))

theorem frame_nameRole {L0 : List Part} {o0 : Block} (r : Nat) (role : Nat) (code : Nat) {b : Block} (h0 : Frame L0 o0 b) (m0 : ∀ p ∈ ([.offices] : List Part), p ∈ L0) :
    Frame L0 o0 (nameRole r role code b) := by
  unfold nameRole
  repeat' first
    | with_reducible assumption
    | with_reducible exact fun p hp => m0 p (subs_of rfl p hp)
    | with_reducible apply frame_modOffice
    | with_reducible apply Frame.ite
    | (intro _ _ _)
    | split
    | dsimp only
    | exact Frame.trans h0 (fun p => by cases p <;> first | exact .inr rfl | exact .inl (m0 _ (by decide)))

theorem frame_fenceState {L0 : List Part} {o0 : Block} (i : Nat) (byTest : Bool) {b : Block} (h0 : Frame L0 o0 b) (m0 : ∀ p ∈ ([.ledger, .stop, .dbg, .mgmt, .mail, .job, .bm, .cores, .offices] : List Part), p ∈ L0) :
    Frame L0 o0 (fenceState i byTest b) := by
  unfold fenceState
  repeat' first
    | with_reducible assumption
    | with_reducible exact fun p hp => m0 p (subs_of rfl p hp)
    | with_reducible apply frame_fenceHold
    | with_reducible apply frame_bmChanged
    | with_reducible apply frame_setHist
    | with_reducible apply frame_failTarget
    | with_reducible apply frame_nameRole
    | with_reducible apply frame_addReason
    | with_reducible apply Frame.ite
    | (intro _ _ _)
    | split
    | dsimp only
    | exact Frame.trans h0 (fun p => by cases p <;> first | exact .inr rfl | exact .inl (m0 _ (by decide)))

theorem frame_failTest {L0 : List Part} {o0 : Block} (i : Nat) {b : Block} (h0 : Frame L0 o0 b) (m0 : ∀ p ∈ ([.ledger, .stop, .dbg, .mgmt, .mail, .job, .bm, .cores, .offices] : List Part), p ∈ L0) :
    Frame L0 o0 (failTest i b) := by
  unfold failTest
  repeat' first
    | with_reducible assumption
    | with_reducible exact fun p hp => m0 p (subs_of rfl p hp)
    | with_reducible apply frame_modHist
    | with_reducible apply frame_fenceState
    | with_reducible apply Frame.ite
    | (intro _ _ _)
    | split
    | dsimp only
    | exact Frame.trans h0 (fun p => by cases p <;> first | exact .inr rfl | exact .inl (m0 _ (by decide)))

theorem frame_queueUnit {L0 : List Part} {o0 : Block} (r : Nat) (u : TestUnit) {b : Block} (h0 : Frame L0 o0 b) (m0 : ∀ p ∈ ([.dbg, .mgmt, .mail, .offices] : List Part), p ∈ L0) :
    Frame L0 o0 (queueUnit r u b) := by
  unfold queueUnit
  repeat' first
    | with_reducible assumption
    | with_reducible exact fun p hp => m0 p (subs_of rfl p hp)
    | with_reducible apply frame_modOffice
    | with_reducible apply frame_postEvent
    | with_reducible apply Frame.ite
    | (intro _ _ _)
    | split
    | dsimp only
    | exact Frame.trans h0 (fun p => by cases p <;> first | exact .inr rfl | exact .inl (m0 _ (by decide)))

theorem frame_queueSuspicion {L0 : List Part} {o0 : Block} (i : Nat) {b : Block} (h0 : Frame L0 o0 b) (m0 : ∀ p ∈ ([.ledger, .dbg, .mgmt, .mail, .offices] : List Part), p ∈ L0) :
    Frame L0 o0 (queueSuspicion i b) := by
  unfold queueSuspicion
  repeat' first
    | with_reducible assumption
    | with_reducible exact fun p hp => m0 p (subs_of rfl p hp)
    | with_reducible apply Frame.forEach1
    | with_reducible apply frame_queueUnit
    | with_reducible apply frame_modHist
    | with_reducible apply frame_modOffice
    | with_reducible apply Frame.ite
    | (intro _ _ _)
    | split
    | dsimp only
    | exact Frame.trans h0 (fun p => by cases p <;> first | exact .inr rfl | exact .inl (m0 _ (by decide)))

theorem frame_boundaryState {L0 : List Part} {o0 : Block} (i : Nat) {b : Block} (h0 : Frame L0 o0 b) (m0 : ∀ p ∈ ([.ledger, .dbg, .mgmt, .mail, .bm, .offices] : List Part), p ∈ L0) :
    Frame L0 o0 (boundaryState i b) := by
  unfold boundaryState
  repeat' first
    | with_reducible assumption
    | with_reducible exact fun p hp => m0 p (subs_of rfl p hp)
    | with_reducible apply frame_bmMark
    | with_reducible apply frame_setHist
    | with_reducible apply frame_queueSuspicion
    | with_reducible apply Frame.ite
    | (intro _ _ _)
    | split
    | dsimp only
    | exact Frame.trans h0 (fun p => by cases p <;> first | exact .inr rfl | exact .inl (m0 _ (by decide)))

theorem frame_cleanPip {L0 : List Part} {o0 : Block} (hour : Nat) (i : Nat) {b : Block} (h0 : Frame L0 o0 b) (m0 : ∀ p ∈ ([.ledger, .bm] : List Part), p ∈ L0) :
    Frame L0 o0 (cleanPip hour i b) := by
  unfold cleanPip
  repeat' first
    | with_reducible assumption
    | with_reducible exact fun p hp => m0 p (subs_of rfl p hp)
    | with_reducible apply frame_setHist
    | with_reducible apply frame_bmMark
    | with_reducible apply frame_modHist
    | with_reducible apply Frame.ite
    | (intro _ _ _)
    | split
    | dsimp only
    | exact Frame.trans h0 (fun p => by cases p <;> first | exact .inr rfl | exact .inl (m0 _ (by decide)))

theorem frame_boundaryCore {L0 : List Part} {o0 : Block} (i : Nat) {b : Block} (h0 : Frame L0 o0 b) (m0 : ∀ p ∈ ([.ledger, .dbg, .mgmt, .mail, .bm, .offices] : List Part), p ∈ L0) :
    Frame L0 o0 (boundaryCore i b) := by
  unfold boundaryCore
  repeat' first
    | with_reducible assumption
    | with_reducible exact fun p hp => m0 p (subs_of rfl p hp)
    | with_reducible apply frame_boundaryState
    | with_reducible apply Frame.forEach1
    | with_reducible apply frame_cleanPip
    | with_reducible apply Frame.ite
    | (intro _ _ _)
    | split
    | dsimp only
    | exact Frame.trans h0 (fun p => by cases p <;> first | exact .inr rfl | exact .inl (m0 _ (by decide)))

theorem frame_boundaryAll {L0 : List Part} {o0 : Block} {b : Block} (h0 : Frame L0 o0 b) (m0 : ∀ p ∈ ([.ledger, .dbg, .mgmt, .mail, .job, .bm, .offices] : List Part), p ∈ L0) :
    Frame L0 o0 (boundaryAll b) := by
  unfold boundaryAll
  repeat' first
    | with_reducible assumption
    | with_reducible exact fun p hp => m0 p (subs_of rfl p hp)
    | with_reducible apply Frame.forEach1
    | with_reducible apply frame_boundaryCore
    | with_reducible apply frame_modJob
    | with_reducible apply Frame.ite
    | (intro _ _ _)
    | split
    | dsimp only
    | exact Frame.trans h0 (fun p => by cases p <;> first | exact .inr rfl | exact .inl (m0 _ (by decide)))

theorem frame_charge {L0 : List Part} {o0 : Block} (i : Nat) (n : Nat) {b : Block} (h0 : Frame L0 o0 b) (m0 : ∀ p ∈ ([.ledger, .stop, .dbg, .mgmt, .mail, .job, .bm, .cores, .offices] : List Part), p ∈ L0) :
    Frame L0 o0 (charge i n b) := by
  unfold charge
  repeat' first
    | with_reducible assumption
    | with_reducible exact fun p hp => m0 p (subs_of rfl p hp)
    | with_reducible apply frame_modHist
    | with_reducible apply frame_fenceState
    | with_reducible apply frame_publishDue
    | with_reducible apply frame_boundaryState
    | with_reducible apply Frame.ite
    | (intro _ _ _)
    | split
    | dsimp only
    | exact Frame.trans h0 (fun p => by cases p <;> first | exact .inr rfl | exact .inl (m0 _ (by decide)))

theorem frame_unscreen {L0 : List Part} {o0 : Block} (i : Nat) {b : Block} (h0 : Frame L0 o0 b) (m0 : ∀ p ∈ ([.ledger, .bm, .offices] : List Part), p ∈ L0) :
    Frame L0 o0 (unscreen i b) := by
  unfold unscreen
  repeat' first
    | with_reducible assumption
    | with_reducible exact fun p hp => m0 p (subs_of rfl p hp)
    | with_reducible apply frame_bmChanged
    | with_reducible apply frame_modHist
    | with_reducible apply frame_addReason
    | with_reducible apply Frame.ite
    | (intro _ _ _)
    | split
    | dsimp only
    | exact Frame.trans h0 (fun p => by cases p <;> first | exact .inr rfl | exact .inl (m0 _ (by decide)))

theorem frame_failLetterbox {L0 : List Part} {o0 : Block} (i : Nat) {b : Block} (h0 : Frame L0 o0 b) (m0 : ∀ p ∈ ([.ledger, .bm, .cores, .offices] : List Part), p ∈ L0) :
    Frame L0 o0 (failLetterbox i b) := by
  unfold failLetterbox
  repeat' first
    | with_reducible assumption
    | with_reducible exact fun p hp => m0 p (subs_of rfl p hp)
    | with_reducible apply frame_unscreen
    | with_reducible apply frame_modCore
    | with_reducible apply Frame.ite
    | (intro _ _ _)
    | split
    | dsimp only
    | exact Frame.trans h0 (fun p => by cases p <;> first | exact .inr rfl | exact .inl (m0 _ (by decide)))

theorem frame_blockCore {L0 : List Part} {o0 : Block} (i : Nat) (why : Nat) {b : Block} (h0 : Frame L0 o0 b) (m0 : ∀ p ∈ ([.ledger, .bm] : List Part), p ∈ L0) :
    Frame L0 o0 (blockCore i why b) := by
  unfold blockCore
  repeat' first
    | with_reducible assumption
    | with_reducible exact fun p hp => m0 p (subs_of rfl p hp)
    | with_reducible apply frame_bmChanged
    | with_reducible apply frame_modBm
    | with_reducible apply Frame.ite
    | (intro _ _ _)
    | split
    | dsimp only
    | exact Frame.trans h0 (fun p => by cases p <;> first | exact .inr rfl | exact .inl (m0 _ (by decide)))

/-! ### Post -/

theorem frame_modNet {L0 : List Part} {o0 : Block} {b : Block} (u : Nat) (f : NetEnd → NetEnd) (h0 : Frame L0 o0 b) (m0 : ∀ p ∈ ([.post, .cores, .offices, .routers, .couriers] : List Part), p ∈ L0) :
    Frame L0 o0 (Block.modNet b u f) := by
  unfold Block.modNet
  repeat' first
    | with_reducible assumption
    | with_reducible exact fun p hp => m0 p (subs_of rfl p hp)
    | with_reducible apply frame_modCore
    | with_reducible apply frame_modRouter
    | with_reducible apply frame_modOffice
    | with_reducible apply frame_modPost
    | with_reducible apply frame_modCourier
    | with_reducible apply Frame.ite
    | (intro _ _ _)
    | split
    | dsimp only
    | exact Frame.trans h0 (fun p => by cases p <;> first | exact .inr rfl | exact .inl (m0 _ (by decide)))

theorem frame_unitEvent {L0 : List Part} {o0 : Block} (u : Nat) (code : Nat) {b : Block} (h0 : Frame L0 o0 b) (m0 : ∀ p ∈ ([.dbg, .mgmt, .mail, .cores, .offices] : List Part), p ∈ L0) :
    Frame L0 o0 (unitEvent u code b) := by
  unfold unitEvent
  repeat' first
    | with_reducible assumption
    | with_reducible exact fun p hp => m0 p (subs_of rfl p hp)
    | with_reducible apply frame_lbEvent
    | with_reducible apply frame_fileEvent
    | with_reducible apply frame_postEvent
    | with_reducible apply Frame.ite
    | (intro _ _ _)
    | split
    | dsimp only
    | exact Frame.trans h0 (fun p => by cases p <;> first | exact .inr rfl | exact .inl (m0 _ (by decide)))

theorem frame_enqueue {L0 : List Part} {o0 : Block} (u : Nat) (p : Packet) {b : Block} (h0 : Frame L0 o0 b) (m0 : ∀ p ∈ ([.post, .cores, .offices, .routers, .couriers] : List Part), p ∈ L0) :
    Frame L0 o0 (enqueue u p b) := by
  unfold enqueue
  repeat' first
    | with_reducible assumption
    | with_reducible exact fun p hp => m0 p (subs_of rfl p hp)
    | with_reducible apply frame_modNet
    | with_reducible apply frame_lbEvent
    | with_reducible apply frame_bumpCtr
    | with_reducible apply Frame.ite
    | (intro _ _ _)
    | split
    | dsimp only
    | exact Frame.trans h0 (fun p => by cases p <;> first | exact .inr rfl | exact .inl (m0 _ (by decide)))

theorem frame_sendKept {L0 : List Part} {o0 : Block} (u : Nat) (p : Packet) {b : Block} (h0 : Frame L0 o0 b) (m0 : ∀ p ∈ ([.post, .cores, .offices, .routers, .couriers] : List Part), p ∈ L0) :
    Frame L0 o0 (sendKept u p b) := by
  unfold sendKept
  repeat' first
    | with_reducible assumption
    | with_reducible exact fun p hp => m0 p (subs_of rfl p hp)
    | with_reducible apply frame_enqueue
    | with_reducible apply frame_modNet
    | with_reducible apply frame_held
    | with_reducible apply Frame.ite
    | (intro _ _ _)
    | split
    | dsimp only
    | exact Frame.trans h0 (fun p => by cases p <;> first | exact .inr rfl | exact .inl (m0 _ (by decide)))

theorem frame_sendPktL {L0 : List Part} {o0 : Block} (lane : Nat) (fcrc : BitVec 32) (src : Nat) (dst : Nat) (ptype : Nat) (svc : Nat) (ssvc : Nat) (epoch : Nat) (fleet : Bool) (pl : List Flit) {b : Block} (h0 : Frame L0 o0 b) (m0 : ∀ p ∈ ([.post, .cores, .offices, .routers, .couriers] : List Part), p ∈ L0) :
    Frame L0 o0 (sendPktL lane fcrc src dst ptype svc ssvc epoch fleet pl b) := by
  unfold sendPktL
  repeat' first
    | with_reducible assumption
    | with_reducible exact fun p hp => m0 p (subs_of rfl p hp)
    | with_reducible apply frame_sendKept
    | with_reducible apply frame_modNet
    | with_reducible apply Frame.ite
    | (intro _ _ _)
    | split
    | dsimp only
    | exact Frame.trans h0 (fun p => by cases p <;> first | exact .inr rfl | exact .inl (m0 _ (by decide)))

/-- A packet of the Head Office waits at its own terminal. -/
theorem frame_enqueueHo {l : List Part} {a : Block} (p : Packet) {b : Block} (h : Frame l a b) (m : ∀ p ∈ ([.post] : List Part), p ∈ l) :
    Frame l a (enqueue unitHO p b) := by
  unfold enqueue
  rw [if_pos (show unitKind unitHO ≠ 0 by decide)]
  simp only [show unitKind unitHO = 4 from rfl, Block.modNet]
  exact frame_modPost _ h m

theorem frame_sendKeptHo {l : List Part} {a : Block} (p : Packet) {b : Block} (h : Frame l a b) (m : ∀ p ∈ ([.post] : List Part), p ∈ l) :
    Frame l a (sendKept unitHO p b) := by
  unfold sendKept
  refine frame_enqueueHo _ ?_ m
  simp only [show unitKind unitHO = 4 from rfl, Block.modNet]
  exact frame_modPost _ h m

theorem frame_sendPktLHo {l : List Part} {a : Block} (lane : Nat) (fcrc : BitVec 32) (dst ptype svc ssvc epoch : Nat) (fleet : Bool) (pl : List Flit) {b : Block} (h : Frame l a b)
    (m : ∀ p ∈ ([.post] : List Part), p ∈ l) : Frame l a (sendPktL lane fcrc unitHO dst ptype svc ssvc epoch fleet pl b) := by
  unfold sendPktL
  split
  · refine frame_sendKeptHo _ ?_ m
    simp only [show unitKind unitHO = 4 from rfl, Block.modNet]
    exact frame_modPost _ h m
  · exact h

theorem frame_sendPktHo {l : List Part} {a : Block} (dst ptype svc ssvc epoch : Nat) (fleet : Bool) (pl : List Flit) {b : Block} (h : Frame l a b)
    (m : ∀ p ∈ ([.post] : List Part), p ∈ l) : Frame l a (sendPkt unitHO dst ptype svc ssvc epoch fleet pl b) :=
  frame_sendPktLHo 0 0 dst ptype svc ssvc epoch fleet pl h m

theorem frame_unicastHo {l : List Part} {a : Block} (dst svc : Nat) (pl : List Flit) {b : Block} (h : Frame l a b)
    (m : ∀ p ∈ ([.post] : List Part), p ∈ l) : Frame l a (unicast unitHO dst svc pl b) :=
  frame_sendPktHo dst 0 svc svc 0 false pl h m

theorem frame_sendPkt {L0 : List Part} {o0 : Block} (src : Nat) (dst : Nat) (ptype : Nat) (svc : Nat) (ssvc : Nat) (epoch : Nat) (fleet : Bool) (pl : List Flit) {b : Block} (h0 : Frame L0 o0 b) (m0 : ∀ p ∈ ([.post, .cores, .offices, .routers, .couriers] : List Part), p ∈ L0) :
    Frame L0 o0 (sendPkt src dst ptype svc ssvc epoch fleet pl b) := by
  unfold sendPkt
  repeat' first
    | with_reducible assumption
    | with_reducible exact fun p hp => m0 p (subs_of rfl p hp)
    | with_reducible apply frame_sendPktL
    | with_reducible apply Frame.ite
    | (intro _ _ _)
    | split
    | dsimp only
    | exact Frame.trans h0 (fun p => by cases p <;> first | exact .inr rfl | exact .inl (m0 _ (by decide)))

theorem frame_unicast {L0 : List Part} {o0 : Block} (src : Nat) (dst : Nat) (svc : Nat) (pl : List Flit) {b : Block} (h0 : Frame L0 o0 b) (m0 : ∀ p ∈ ([.post, .cores, .offices, .routers, .couriers] : List Part), p ∈ L0) :
    Frame L0 o0 (unicast src dst svc pl b) := by
  unfold unicast
  repeat' first
    | with_reducible assumption
    | with_reducible exact fun p hp => m0 p (subs_of rfl p hp)
    | with_reducible apply frame_sendPkt
    | with_reducible apply Frame.ite
    | (intro _ _ _)
    | split
    | dsimp only
    | exact Frame.trans h0 (fun p => by cases p <;> first | exact .inr rfl | exact .inl (m0 _ (by decide)))

theorem frame_writeTables {L0 : List Part} {o0 : Block} (ver : Bool) (r : Nat) (dead : List Nat) {b : Block} (h0 : Frame L0 o0 b) (m0 : ∀ p ∈ ([.routers] : List Part), p ∈ L0) :
    Frame L0 o0 (writeTables ver r dead b) := by
  unfold writeTables
  repeat' first
    | with_reducible assumption
    | with_reducible exact fun p hp => m0 p (subs_of rfl p hp)
    | with_reducible apply Frame.forEach1
    | with_reducible apply frame_modRouter
    | with_reducible apply Frame.ite
    | (intro _ _ _)
    | split
    | dsimp only
    | exact Frame.trans h0 (fun p => by cases p <;> first | exact .inr rfl | exact .inl (m0 _ (by decide)))

/-! ### Mail -/

theorem frame_reportTo {L0 : List Part} {o0 : Block} (n : Nat) (src : Nat) {b : Block} (h0 : Frame L0 o0 b) (m0 : ∀ p ∈ ([.post, .cores, .offices, .routers, .couriers] : List Part), p ∈ L0) :
    Frame L0 o0 (reportTo n src b) := by
  unfold reportTo
  repeat' first
    | with_reducible assumption
    | with_reducible exact fun p hp => m0 p (subs_of rfl p hp)
    | with_reducible apply frame_sendPkt
    | with_reducible apply Frame.ite
    | (intro _ _ _)
    | split
    | dsimp only
    | exact Frame.trans h0 (fun p => by cases p <;> first | exact .inr rfl | exact .inl (m0 _ (by decide)))

theorem frame_sendFragsFrom {l : List Part} {a : Block} (src : Nat) (hops : List Nat) (dst cls mtype rtag epoch final orig reqSeq : Nat) (bytes : List Byte)
    {b : Block} (h : Frame l a b) (m : ∀ p ∈ ([.post] : List Part), p ∈ l) :
    Frame l a (sendFragsFrom src hops dst cls mtype rtag epoch final orig reqSeq bytes b) := by
  unfold sendFragsFrom
  refine Frame.forEach1 h fun x c hc => ?_
  exact frame_sendPktLHo _ _ _ _ _ _ _ _ _ hc m

theorem frame_sendFrags {L0 : List Part} {o0 : Block} (hops : List Nat) (dst : Nat) (cls : Nat) (mtype : Nat) (rtag : Nat) (epoch : Nat) (final : Nat) (orig : Nat) (reqSeq : Nat) (bytes : List Byte) {b : Block} (h0 : Frame L0 o0 b) (m0 : ∀ p ∈ ([.post] : List Part), p ∈ L0) :
    Frame L0 o0 (sendFrags hops dst cls mtype rtag epoch final orig reqSeq bytes b) := by
  unfold sendFrags
  repeat' first
    | with_reducible assumption
    | with_reducible exact fun p hp => m0 p (subs_of rfl p hp)
    | with_reducible apply frame_sendFragsFrom
    | with_reducible apply Frame.ite
    | (intro _ _ _)
    | split
    | dsimp only
    | exact Frame.trans h0 (fun p => by cases p <;> first | exact .inr rfl | exact .inl (m0 _ (by decide)))

theorem frame_sendReply {L0 : List Part} {o0 : Block} (mtype : Nat) (dst : Nat) (rtag : Nat) (reqSeq : Nat) (epoch : Nat) (bytes : List Byte) {b : Block} (h0 : Frame L0 o0 b) (m0 : ∀ p ∈ ([.post] : List Part), p ∈ L0) :
    Frame L0 o0 (sendReply mtype dst rtag reqSeq epoch bytes b) := by
  unfold sendReply
  repeat' first
    | with_reducible assumption
    | with_reducible exact fun p hp => m0 p (subs_of rfl p hp)
    | with_reducible apply frame_sendFrags
    | with_reducible apply Frame.ite
    | (intro _ _ _)
    | split
    | dsimp only
    | exact Frame.trans h0 (fun p => by cases p <;> first | exact .inr rfl | exact .inl (m0 _ (by decide)))

theorem frame_sendRequestFrom {L0 : List Part} {o0 : Block} (src mtype dst epoch : Nat) (bytes : List Byte) (ring : Option Nat)
    (relay : Option (Nat × Nat × Nat)) (fwd : Bool) {b : Block} (h : Frame L0 o0 b) (m : ∀ p ∈ ([.fleet, .post] : List Part), p ∈ L0) :
    Frame L0 o0 (sendRequestFrom src mtype dst epoch bytes ring relay fwd b).2 := by
  unfold sendRequestFrom
  generalize b.freeSlot = fs
  cases b.route dst with
  | none => exact h
  | some x =>
    cases fs with
    | none => exact h
    | some k => exact frame_sendFragsFrom _ _ _ _ _ _ _ _ _ _ _ (frame_modFleet _ h (fun p hp => m p (subs_of rfl p hp))) (fun p hp => m p (subs_of rfl p hp))

theorem frame_sendRequest {L0 : List Part} {o0 : Block} (mtype : Nat) (dst : Nat) (epoch : Nat) (bytes : List Byte) (ring : Option Nat) {b : Block} (h0 : Frame L0 o0 b) (m0 : ∀ p ∈ ([.fleet, .post] : List Part), p ∈ L0) :
    Frame L0 o0 (sendRequest mtype dst epoch bytes ring b).2 := by
  unfold sendRequest
  repeat' first
    | with_reducible assumption
    | with_reducible exact fun p hp => m0 p (subs_of rfl p hp)
    | with_reducible apply frame_sendRequestFrom
    | with_reducible apply Frame.ite
    | (intro _ _ _)
    | split
    | dsimp only
    | exact Frame.trans h0 (fun p => by cases p <;> first | exact .inr rfl | exact .inl (m0 _ (by decide)))

theorem frame_deadLetter {L0 : List Part} {o0 : Block} (kind : Nat) {b : Block} (h0 : Frame L0 o0 b) (m0 : ∀ p ∈ ([.dbg, .mgmt, .mail, .fleet] : List Part), p ∈ L0) :
    Frame L0 o0 (deadLetter kind b) := by
  unfold deadLetter
  repeat' first
    | with_reducible assumption
    | with_reducible exact fun p hp => m0 p (subs_of rfl p hp)
    | with_reducible apply frame_hoEvent
    | with_reducible apply frame_modFleet
    | with_reducible apply Frame.ite
    | (intro _ _ _)
    | split
    | dsimp only
    | exact Frame.trans h0 (fun p => by cases p <;> first | exact .inr rfl | exact .inl (m0 _ (by decide)))

theorem frame_advanceHead {L0 : List Part} {o0 : Block} (r : Nat) {b : Block} (h0 : Frame L0 o0 b) (m0 : ∀ p ∈ ([.mail] : List Part), p ∈ L0) :
    Frame L0 o0 (advanceHead r b) := by
  unfold advanceHead
  repeat' first
    | with_reducible assumption
    | with_reducible exact fun p hp => m0 p (subs_of rfl p hp)
    | with_reducible apply frame_modRing
    | with_reducible apply Frame.ite
    | (intro _ _ _)
    | split
    | dsimp only
    | exact Frame.trans h0 (fun p => by cases p <;> first | exact .inr rfl | exact .inl (m0 _ (by decide)))

theorem frame_putReceipt {L0 : List Part} {o0 : Block} (r : Nat) (reply : Option (Nat × Nat × Nat)) (rc : List Byte) {b : Block} (h0 : Frame L0 o0 b) (m0 : ∀ p ∈ ([.mgmt, .mail, .post] : List Part), p ∈ L0) :
    Frame L0 o0 (putReceipt r reply rc b) := by
  unfold putReceipt
  repeat' first
    | with_reducible assumption
    | with_reducible exact fun p hp => m0 p (subs_of rfl p hp)
    | with_reducible apply frame_setIrqRing
    | with_reducible apply frame_modRing
    | with_reducible apply frame_sendReply
    | with_reducible apply frame_placeRecord
    | with_reducible apply frame_held
    | with_reducible apply Frame.ite
    | (intro _ _ _)
    | split
    | dsimp only
    | exact Frame.trans h0 (fun p => by cases p <;> first | exact .inr rfl | exact .inl (m0 _ (by decide)))

theorem frame_issue {L0 : List Part} {o0 : Block} (o : Outst) (zeroTag : Bool) (final : Bool) (more : Bool) (status : Nat) (part : Nat) (parts : Nat) (detail : Nat) (res : List Byte) {b : Block} (h0 : Frame L0 o0 b) (m0 : ∀ p ∈ ([.mgmt, .mail, .post] : List Part), p ∈ L0) :
    Frame L0 o0 (issue o zeroTag final more status part parts detail res b) := by
  unfold issue
  repeat' first
    | with_reducible assumption
    | with_reducible exact fun p hp => m0 p (subs_of rfl p hp)
    | with_reducible apply frame_putReceipt
    | with_reducible apply frame_modMail
    | with_reducible apply Frame.forEach1
    | with_reducible apply Frame.ite
    | (intro _ _ _)
    | split
    | dsimp only
    | exact Frame.trans h0 (fun p => by cases p <;> first | exact .inr rfl | exact .inl (m0 _ (by decide)))

theorem frame_refuseA {L0 : List Part} {o0 : Block} (l : Letter) (zeroTag : Bool) (status : Nat) (detail : Nat) {b : Block} (h0 : Frame L0 o0 b) (m0 : ∀ p ∈ ([.mgmt, .mail, .post] : List Part), p ∈ L0) :
    Frame L0 o0 (refuseA l zeroTag status detail b) := by
  unfold refuseA
  repeat' first
    | with_reducible assumption
    | with_reducible exact fun p hp => m0 p (subs_of rfl p hp)
    | with_reducible apply frame_putReceipt
    | with_reducible apply Frame.ite
    | (intro _ _ _)
    | split
    | dsimp only
    | exact Frame.trans h0 (fun p => by cases p <;> first | exact .inr rfl | exact .inl (m0 _ (by decide)))

theorem frame_refuseL {L0 : List Part} {o0 : Block} (l : Letter) (zeroTag : Bool) (status : Nat) (detail : Nat) {b : Block} (h0 : Frame L0 o0 b) (m0 : ∀ p ∈ ([.mgmt, .mail, .post] : List Part), p ∈ L0) :
    Frame L0 o0 (refuseL l zeroTag status detail b) := by
  unfold refuseL
  repeat' first
    | with_reducible assumption
    | with_reducible exact fun p hp => m0 p (subs_of rfl p hp)
    | with_reducible apply frame_issue
    | with_reducible apply Frame.ite
    | (intro _ _ _)
    | split
    | dsimp only
    | exact Frame.trans h0 (fun p => by cases p <;> first | exact .inr rfl | exact .inl (m0 _ (by decide)))

theorem frame_modOutst {L0 : List Part} {o0 : Block} (op : Nat) (f : List Nat → List Nat) {b : Block} (h0 : Frame L0 o0 b) (m0 : ∀ p ∈ ([.mail] : List Part), p ∈ L0) :
    Frame L0 o0 (modOutst op f b) := by
  unfold modOutst
  repeat' first
    | with_reducible assumption
    | with_reducible exact fun p hp => m0 p (subs_of rfl p hp)
    | with_reducible apply frame_modMail
    | with_reducible apply Frame.ite
    | (intro _ _ _)
    | split
    | dsimp only
    | exact Frame.trans h0 (fun p => by cases p <;> first | exact .inr rfl | exact .inl (m0 _ (by decide)))

theorem frame_recordSeq {L0 : List Part} {o0 : Block} (l : Letter) {b : Block} (h0 : Frame L0 o0 b) (m0 : ∀ p ∈ ([.ledger, .mail] : List Part), p ∈ L0) :
    Frame L0 o0 (recordSeq l b) := by
  unfold recordSeq
  repeat' first
    | with_reducible assumption
    | with_reducible exact fun p hp => m0 p (subs_of rfl p hp)
    | with_reducible apply frame_modLedger
    | with_reducible apply frame_modMail
    | with_reducible apply Frame.ite
    | (intro _ _ _)
    | split
    | dsimp only
    | exact Frame.trans h0 (fun p => by cases p <;> first | exact .inr rfl | exact .inl (m0 _ (by decide)))

theorem frame_pump {l : List Part} {a : Block} (r fuel : Nat) {b : Block} (h : Frame l a b)
    (m : ∀ p ∈ ([.ledger, .mgmt, .mail, .post] : List Part), p ∈ l) : Frame l a (pump r fuel b) := by
  induction fuel generalizing b with
  | zero => exact h
  | succ n ih =>
    unfold pump
    repeat' first
      | assumption
      | exact fun p hp => m p (subs_of rfl p hp)
      | with_reducible apply ih
      | with_reducible apply frame_advanceHead
      | with_reducible apply frame_refuseA
      | with_reducible apply frame_refuseL
      | with_reducible apply frame_putReceipt
      | with_reducible apply frame_modMail
      | with_reducible apply frame_modRing
      | with_reducible apply frame_recordSeq
      | with_reducible apply Frame.ite
      | split
      | dsimp only

theorem frame_unbusy {L0 : List Part} {o0 : Block} (r : Nat) {b : Block} (h0 : Frame L0 o0 b) (m0 : ∀ p ∈ ([.ledger, .mgmt, .mail, .post] : List Part), p ∈ L0) :
    Frame L0 o0 (unbusy r b) := by
  unfold unbusy
  repeat' first
    | with_reducible assumption
    | with_reducible exact fun p hp => m0 p (subs_of rfl p hp)
    | with_reducible apply frame_pump
    | with_reducible apply frame_modRing
    | with_reducible apply Frame.ite
    | (intro _ _ _)
    | split
    | dsimp only
    | exact Frame.trans h0 (fun p => by cases p <;> first | exact .inr rfl | exact .inl (m0 _ (by decide)))

theorem frame_finishOp {L0 : List Part} {o0 : Block} (op : Nat) (status : Nat) (detail : Nat) (res : List Byte) {b : Block} (h0 : Frame L0 o0 b) (m0 : ∀ p ∈ ([.ledger, .mgmt, .mail, .post] : List Part), p ∈ L0) :
    Frame L0 o0 (finishOp op status detail res b) := by
  unfold finishOp
  repeat' first
    | with_reducible assumption
    | with_reducible exact fun p hp => m0 p (subs_of rfl p hp)
    | with_reducible apply frame_issue
    | with_reducible apply frame_modMail
    | with_reducible apply frame_unbusy
    | with_reducible apply Frame.ite
    | (intro _ _ _)
    | split
    | dsimp only
    | exact Frame.trans h0 (fun p => by cases p <;> first | exact .inr rfl | exact .inl (m0 _ (by decide)))

theorem frame_firstReceipt {L0 : List Part} {o0 : Block} (op : Nat) (res : List Byte) {b : Block} (h0 : Frame L0 o0 b) (m0 : ∀ p ∈ ([.ledger, .mgmt, .mail, .post] : List Part), p ∈ L0) :
    Frame L0 o0 (firstReceipt op res b) := by
  unfold firstReceipt
  repeat' first
    | with_reducible assumption
    | with_reducible exact fun p hp => m0 p (subs_of rfl p hp)
    | with_reducible apply frame_unbusy
    | with_reducible apply frame_issue
    | with_reducible apply frame_modMail
    | with_reducible apply Frame.ite
    | (intro _ _ _)
    | split
    | dsimp only
    | exact Frame.trans h0 (fun p => by cases p <;> first | exact .inr rfl | exact .inl (m0 _ (by decide)))

theorem frame_pumpAll {L0 : List Part} {o0 : Block} {b : Block} (h0 : Frame L0 o0 b) (m0 : ∀ p ∈ ([.ledger, .mgmt, .mail, .post] : List Part), p ∈ L0) :
    Frame L0 o0 (pumpAll b) := by
  unfold pumpAll
  repeat' first
    | with_reducible assumption
    | with_reducible exact fun p hp => m0 p (subs_of rfl p hp)
    | with_reducible apply Frame.forEach1
    | with_reducible apply frame_pump
    | with_reducible apply Frame.ite
    | (intro _ _ _)
    | split
    | dsimp only
    | exact Frame.trans h0 (fun p => by cases p <;> first | exact .inr rfl | exact .inl (m0 _ (by decide)))

theorem frame_drainHeld {L0 : List Part} {o0 : Block} (r : Nat) {b : Block} (h0 : Frame L0 o0 b) (m0 : ∀ p ∈ ([.ledger, .mgmt, .mail, .post] : List Part), p ∈ L0) :
    Frame L0 o0 (drainHeld r b) := by
  unfold drainHeld
  repeat' first
    | with_reducible assumption
    | with_reducible exact fun p hp => m0 p (subs_of rfl p hp)
    | with_reducible apply frame_pump
    | with_reducible apply frame_placeRecord
    | with_reducible apply frame_modRing
    | with_reducible apply frame_held
    | with_reducible apply Frame.ite
    | (intro _ _ _)
    | split
    | dsimp only
    | exact Frame.trans h0 (fun p => by cases p <;> first | exact .inr rfl | exact .inl (m0 _ (by decide)))

theorem frame_nextLetter {L0 : List Part} {o0 : Block} (r : Nat) {b : Block} (h0 : Frame L0 o0 b) (m0 : ∀ p ∈ ([.ledger, .mgmt, .mail, .post] : List Part), p ∈ L0) :
    Frame L0 o0 (nextLetter r b) := by
  unfold nextLetter
  repeat' first
    | with_reducible assumption
    | with_reducible exact fun p hp => m0 p (subs_of rfl p hp)
    | with_reducible apply frame_pump
    | with_reducible apply frame_advanceHead
    | with_reducible apply Frame.ite
    | (intro _ _ _)
    | split
    | dsimp only
    | exact Frame.trans h0 (fun p => by cases p <;> first | exact .inr rfl | exact .inl (m0 _ (by decide)))

theorem frame_answerRefuse {L0 : List Part} {o0 : Block} (r : Nat) (l : Letter) (st : Nat) (d : Nat) {b : Block} (h0 : Frame L0 o0 b) (m0 : ∀ p ∈ ([.ledger, .mgmt, .mail, .post] : List Part), p ∈ L0) :
    Frame L0 o0 (answerRefuse r l st d b) := by
  unfold answerRefuse
  repeat' first
    | with_reducible assumption
    | with_reducible exact fun p hp => m0 p (subs_of rfl p hp)
    | with_reducible apply frame_nextLetter
    | with_reducible apply frame_refuseL
    | with_reducible apply Frame.ite
    | (intro _ _ _)
    | split
    | dsimp only
    | exact Frame.trans h0 (fun p => by cases p <;> first | exact .inr rfl | exact .inl (m0 _ (by decide)))

theorem frame_answerOk {L0 : List Part} {o0 : Block} (r : Nat) (l : Letter) (res : List Byte) {b : Block} (h0 : Frame L0 o0 b) (m0 : ∀ p ∈ ([.ledger, .mgmt, .mail, .post] : List Part), p ∈ L0) :
    Frame L0 o0 (answerOk r l res b) := by
  unfold answerOk
  repeat' first
    | with_reducible assumption
    | with_reducible exact fun p hp => m0 p (subs_of rfl p hp)
    | with_reducible apply frame_nextLetter
    | with_reducible apply frame_issue
    | with_reducible apply Frame.ite
    | (intro _ _ _)
    | split
    | dsimp only
    | exact Frame.trans h0 (fun p => by cases p <;> first | exact .inr rfl | exact .inl (m0 _ (by decide)))

theorem frame_answerLater {L0 : List Part} {o0 : Block} (r : Nat) (l : Letter) (acc : List Nat) {b : Block} (h0 : Frame L0 o0 b) (m0 : ∀ p ∈ ([.mail] : List Part), p ∈ L0) :
    Frame L0 o0 (answerLater r l acc b) := by
  unfold answerLater
  repeat' first
    | with_reducible assumption
    | with_reducible exact fun p hp => m0 p (subs_of rfl p hp)
    | with_reducible apply frame_advanceHead
    | with_reducible apply frame_modMail
    | with_reducible apply frame_modRing
    | with_reducible apply Frame.ite
    | (intro _ _ _)
    | split
    | dsimp only
    | exact Frame.trans h0 (fun p => by cases p <;> first | exact .inr rfl | exact .inl (m0 _ (by decide)))

theorem frame_answerInterim {L0 : List Part} {o0 : Block} (r : Nat) (l : Letter) (res : List Byte) (acc : List Nat) {b : Block} (h0 : Frame L0 o0 b) (m0 : ∀ p ∈ ([.ledger, .mgmt, .mail, .post] : List Part), p ∈ L0) :
    Frame L0 o0 (answerInterim r l res acc b) := by
  unfold answerInterim
  repeat' first
    | with_reducible assumption
    | with_reducible exact fun p hp => m0 p (subs_of rfl p hp)
    | with_reducible apply frame_nextLetter
    | with_reducible apply frame_issue
    | with_reducible apply frame_modMail
    | with_reducible apply Frame.ite
    | (intro _ _ _)
    | split
    | dsimp only
    | exact Frame.trans h0 (fun p => by cases p <;> first | exact .inr rfl | exact .inl (m0 _ (by decide)))

theorem frame_answerWhole {L0 : List Part} {o0 : Block} (r : Nat) (l : Letter) (res : List Byte) (st : Nat) (d : Nat) (res2 : List Byte) {b : Block} (h0 : Frame L0 o0 b) (m0 : ∀ p ∈ ([.ledger, .mgmt, .mail, .post] : List Part), p ∈ L0) :
    Frame L0 o0 (answerWhole r l res st d res2 b) := by
  unfold answerWhole
  repeat' first
    | with_reducible assumption
    | with_reducible exact fun p hp => m0 p (subs_of rfl p hp)
    | with_reducible apply frame_nextLetter
    | with_reducible apply frame_issue
    | with_reducible apply Frame.ite
    | (intro _ _ _)
    | split
    | dsimp only
    | exact Frame.trans h0 (fun p => by cases p <;> first | exact .inr rfl | exact .inl (m0 _ (by decide)))

theorem frame_answerParts {L0 : List Part} {o0 : Block} (r : Nat) (l : Letter) (ps : List (List Byte)) {b : Block} (h0 : Frame L0 o0 b) (m0 : ∀ p ∈ ([.ledger, .mgmt, .mail, .post] : List Part), p ∈ L0) :
    Frame L0 o0 (answerParts r l ps b) := by
  unfold answerParts
  repeat' first
    | with_reducible assumption
    | with_reducible exact fun p hp => m0 p (subs_of rfl p hp)
    | with_reducible apply frame_nextLetter
    | with_reducible apply Frame.forEach1
    | with_reducible apply frame_issue
    | with_reducible apply Frame.ite
    | (intro _ _ _)
    | split
    | dsimp only
    | exact Frame.trans h0 (fun p => by cases p <;> first | exact .inr rfl | exact .inl (m0 _ (by decide)))

theorem frame_letterRow {l : List Part} {a : Block} (r op : Nat) (f : Letter → Block → Reply) {b : Block} (h : Frame l a b)
    (hf : ∀ x c, Frame l a c → Reply.within l a (f x c)) (m : ∀ p ∈ ([.ledger, .dbg, .mgmt, .mail, .fleet, .post] : List Part), p ∈ l) :
    Frame l a (letterRow r op f b) := by
  unfold letterRow
  split
  · exact h
  · rename_i x hx
    split
    · exact h
    · split
      · exact frame_answerRefuse _ _ _ _ h (fun p hp => m p (subs_of rfl p hp))
      · refine Frame.ite (frame_deadLetter _ (frame_answerRefuse _ _ _ _ h (fun p hp => m p (subs_of rfl p hp))) (fun p hp => m p (subs_of rfl p hp))) ?_
        refine Frame.ite (frame_answerRefuse _ _ _ _ h (fun p hp => m p (subs_of rfl p hp))) ?_
        refine Frame.ite (frame_answerRefuse _ _ _ _ h (fun p hp => m p (subs_of rfl p hp))) ?_
        have k := hf x b h
        split
        · exact frame_answerRefuse _ _ _ _ h (fun p hp => m p (subs_of rfl p hp))
        all_goals
          rename_i he
          rw [he] at k
        · exact frame_answerOk _ _ _ k (fun p hp => m p (subs_of rfl p hp))
        · exact frame_answerLater _ _ _ k (fun p hp => m p (subs_of rfl p hp))
        · exact frame_answerInterim _ _ _ _ k (fun p hp => m p (subs_of rfl p hp))
        · exact frame_answerWhole _ _ _ _ _ _ k (fun p hp => m p (subs_of rfl p hp))
        · exact frame_answerParts _ _ _ k (fun p hp => m p (subs_of rfl p hp))

theorem frame_abortLong {L0 : List Part} {o0 : Block} (status : Nat) (skip : Nat → Bool) {b : Block} (h0 : Frame L0 o0 b) (m0 : ∀ p ∈ ([.ledger, .mgmt, .mail, .post] : List Part), p ∈ L0) :
    Frame L0 o0 (abortLong status skip b) := by
  unfold abortLong
  repeat' first
    | with_reducible assumption
    | with_reducible exact fun p hp => m0 p (subs_of rfl p hp)
    | with_reducible apply Frame.forEach1
    | with_reducible apply frame_finishOp
    | with_reducible apply Frame.ite
    | (intro _ _ _)
    | split
    | dsimp only
    | exact Frame.trans h0 (fun p => by cases p <;> first | exact .inr rfl | exact .inl (m0 _ (by decide)))

end Sys2Proof.Machine
end

