-- ==== Sys2Proof/Laws/FrameControl.lean ====
section
/-! SUPPORT. The frame of every operation of stops, parcels, taps, Couriers and fleet messages: the parts of the block it can change. -/

namespace Sys2Proof.Machine

open Sys2Proof

/-! ### Stops -/

theorem frame_sendColl {L0 : List Part} {o0 : Block} (port : Nat) (dst : Nat) (mtype : Nat) (id : Nat) (op : Nat) (vals : List Nat) {b : Block} (h0 : Frame L0 o0 b) (m0 : ∀ p ∈ ([.post] : List Part), p ∈ L0) :
    Frame L0 o0 (sendColl port dst mtype id op vals b) := by
  unfold sendColl
  repeat' first
    | with_reducible assumption
    | with_reducible exact fun p hp => m0 p (subs_of rfl p hp)
    | with_reducible apply frame_sendFrags
    | with_reducible apply Frame.ite
    | (intro _ _ _)
    | split
    | dsimp only
    | exact Frame.trans h0 (fun p => by cases p <;> first | exact .inr rfl | exact .inl (m0 _ (by decide)))

theorem frame_skipDue {L0 : List Part} {o0 : Block} {b : Block} (h0 : Frame L0 o0 b) (m0 : ∀ p ∈ ([.dbg, .mgmt, .mail, .parcel] : List Part), p ∈ L0) :
    Frame L0 o0 (skipDue b) := by
  unfold skipDue
  repeat' first
    | with_reducible assumption
    | with_reducible exact fun p hp => m0 p (subs_of rfl p hp)
    | with_reducible apply frame_hoEvent
    | with_reducible apply frame_modParcel
    | with_reducible apply Frame.ite
    | (intro _ _ _)
    | split
    | dsimp only
    | exact Frame.trans h0 (fun p => by cases p <;> first | exact .inr rfl | exact .inl (m0 _ (by decide)))

theorem frame_collEffect {L0 : List Part} {o0 : Block} (id : Nat) (vals : List Nat) {b : Block} (h0 : Frame L0 o0 b) (m0 : ∀ p ∈ ([.stop, .dbg, .mgmt, .mail, .parcel] : List Part), p ∈ L0) :
    Frame L0 o0 (collEffect id vals b) := by
  unfold collEffect
  repeat' first
    | with_reducible assumption
    | with_reducible exact fun p hp => m0 p (subs_of rfl p hp)
    | with_reducible apply frame_modStop
    | with_reducible apply frame_modParcel
    | with_reducible apply frame_skipDue
    | with_reducible apply Frame.ite
    | (intro _ _ _)
    | split
    | dsimp only
    | exact Frame.trans h0 (fun p => by cases p <;> first | exact .inr rfl | exact .inl (m0 _ (by decide)))

theorem frame_collResult {L0 : List Part} {o0 : Block} (id : Nat) (op : Nat) (vals : List Nat) {b : Block} (h0 : Frame L0 o0 b) (m0 : ∀ p ∈ ([.stop, .dbg, .mgmt, .mail, .fleet, .parcel, .post] : List Part), p ∈ L0) :
    Frame L0 o0 (collResult id op vals b) := by
  unfold collResult
  repeat' first
    | with_reducible assumption
    | with_reducible exact fun p hp => m0 p (subs_of rfl p hp)
    | with_reducible apply Frame.forEach1
    | with_reducible apply frame_sendColl
    | with_reducible apply frame_collEffect
    | with_reducible apply frame_modFleet
    | with_reducible apply Frame.ite
    | (intro _ _ _)
    | split
    | dsimp only
    | exact Frame.trans h0 (fun p => by cases p <;> first | exact .inr rfl | exact .inl (m0 _ (by decide)))

theorem frame_collCheck {L0 : List Part} {o0 : Block} (id : Nat) {b : Block} (h0 : Frame L0 o0 b) (m0 : ∀ p ∈ ([.stop, .dbg, .mgmt, .mail, .fleet, .parcel, .post] : List Part), p ∈ L0) :
    Frame L0 o0 (collCheck id b) := by
  unfold collCheck
  repeat' first
    | with_reducible assumption
    | with_reducible exact fun p hp => m0 p (subs_of rfl p hp)
    | with_reducible apply frame_collResult
    | with_reducible apply frame_sendColl
    | with_reducible apply Frame.ite
    | (intro _ _ _)
    | split
    | dsimp only
    | exact Frame.trans h0 (fun p => by cases p <;> first | exact .inr rfl | exact .inl (m0 _ (by decide)))

theorem frame_contribute {L0 : List Part} {o0 : Block} (id : Nat) (op : Nat) (vals : List Nat) {b : Block} (h0 : Frame L0 o0 b) (m0 : ∀ p ∈ ([.stop, .dbg, .mgmt, .mail, .fleet, .parcel, .post] : List Part), p ∈ L0) :
    Frame L0 o0 (contribute id op vals b) := by
  unfold contribute
  repeat' first
    | with_reducible assumption
    | with_reducible exact fun p hp => m0 p (subs_of rfl p hp)
    | with_reducible apply frame_collCheck
    | with_reducible apply frame_modFleet
    | with_reducible apply Frame.ite
    | (intro _ _ _)
    | split
    | dsimp only
    | exact Frame.trans h0 (fun p => by cases p <;> first | exact .inr rfl | exact .inl (m0 _ (by decide)))

theorem frame_applyLegs {L0 : List Part} {o0 : Block} {b : Block} (h0 : Frame L0 o0 b) (m0 : ∀ p ∈ ([.pm] : List Part), p ∈ L0) :
    Frame L0 o0 (applyLegs b) := by
  unfold applyLegs
  repeat' first
    | with_reducible assumption
    | with_reducible exact fun p hp => m0 p (subs_of rfl p hp)
    | with_reducible apply frame_modPm
    | with_reducible apply Frame.ite
    | (intro _ _ _)
    | split
    | dsimp only
    | exact Frame.trans h0 (fun p => by cases p <;> first | exact .inr rfl | exact .inl (m0 _ (by decide)))

theorem frame_abortLaunch {L0 : List Part} {o0 : Block} {b : Block} (h0 : Frame L0 o0 b) (m0 : ∀ p ∈ ([.pm, .ledger, .mgmt, .mail, .job, .post, .cores] : List Part), p ∈ L0) :
    Frame L0 o0 (abortLaunch b) := by
  unfold abortLaunch
  repeat' first
    | with_reducible assumption
    | with_reducible exact fun p hp => m0 p (subs_of rfl p hp)
    | with_reducible apply frame_finishOp
    | with_reducible apply frame_applyLegs
    | with_reducible apply Frame.forEach1
    | with_reducible apply frame_modCore
    | with_reducible apply frame_modJob
    | with_reducible apply Frame.ite
    | (intro _ _ _)
    | split
    | dsimp only
    | exact Frame.trans h0 (fun p => by cases p <;> first | exact .inr rfl | exact .inl (m0 _ (by decide)))

theorem frame_pulseStop {L0 : List Part} {o0 : Block} {b : Block} (h0 : Frame L0 o0 b) (m0 : ∀ p ∈ ([.outs, .stop] : List Part), p ∈ L0) :
    Frame L0 o0 (pulseStop b) := by
  unfold pulseStop
  repeat' first
    | with_reducible assumption
    | with_reducible exact fun p hp => m0 p (subs_of rfl p hp)
    | with_reducible apply frame_modOuts
    | with_reducible apply frame_modStop
    | with_reducible apply Frame.ite
    | (intro _ _ _)
    | split
    | dsimp only
    | exact Frame.trans h0 (fun p => by cases p <;> first | exact .inr rfl | exact .inl (m0 _ (by decide)))

theorem frame_disarm {L0 : List Part} {o0 : Block} {b : Block} (h0 : Frame L0 o0 b) (m0 : ∀ p ∈ ([.pm, .ledger, .stop, .mgmt, .mail, .job, .parcel, .post, .cores] : List Part), p ∈ L0) :
    Frame L0 o0 (disarm b) := by
  unfold disarm
  repeat' first
    | with_reducible assumption
    | with_reducible exact fun p hp => m0 p (subs_of rfl p hp)
    | with_reducible apply frame_abortLaunch
    | with_reducible apply frame_modStop
    | with_reducible apply frame_modParcel
    | with_reducible apply Frame.ite
    | (intro _ _ _)
    | split
    | dsimp only
    | exact Frame.trans h0 (fun p => by cases p <;> first | exact .inr rfl | exact .inl (m0 _ (by decide)))

theorem frame_registerUrgent {L0 : List Part} {o0 : Block} {b : Block} (h0 : Frame L0 o0 b) (m0 : ∀ p ∈ ([.pm, .ledger, .stop, .mgmt, .mail, .job, .parcel, .post, .cores] : List Part), p ∈ L0) :
    Frame L0 o0 (registerUrgent b) := by
  unfold registerUrgent
  repeat' first
    | with_reducible assumption
    | with_reducible exact fun p hp => m0 p (subs_of rfl p hp)
    | with_reducible apply frame_disarm
    | with_reducible apply frame_modStop
    | with_reducible apply Frame.ite
    | (intro _ _ _)
    | split
    | dsimp only
    | exact Frame.trans h0 (fun p => by cases p <;> first | exact .inr rfl | exact .inl (m0 _ (by decide)))

theorem frame_addCause {L0 : List Part} {o0 : Block} (c : StopCause) {b : Block} (h0 : Frame L0 o0 b) (m0 : ∀ p ∈ ([.stop] : List Part), p ∈ L0) :
    Frame L0 o0 (addCause c b) := by
  unfold addCause
  repeat' first
    | with_reducible assumption
    | with_reducible exact fun p hp => m0 p (subs_of rfl p hp)
    | with_reducible apply frame_modStop
    | with_reducible apply Frame.ite
    | (intro _ _ _)
    | split
    | dsimp only
    | exact Frame.trans h0 (fun p => by cases p <;> first | exact .inr rfl | exact .inl (m0 _ (by decide)))

theorem frame_originate {L0 : List Part} {o0 : Block} (c : StopCause) {b : Block} (h0 : Frame L0 o0 b) (m0 : ∀ p ∈ ([.outs, .pm, .ledger, .stop, .mgmt, .mail, .job, .parcel, .post, .cores] : List Part), p ∈ L0) :
    Frame L0 o0 (originate c b) := by
  unfold originate
  repeat' first
    | with_reducible assumption
    | with_reducible exact fun p hp => m0 p (subs_of rfl p hp)
    | with_reducible apply frame_addCause
    | with_reducible apply frame_disarm
    | with_reducible apply frame_pulseStop
    | with_reducible apply frame_registerUrgent
    | with_reducible apply Frame.ite
    | (intro _ _ _)
    | split
    | dsimp only
    | exact Frame.trans h0 (fun p => by cases p <;> first | exact .inr rfl | exact .inl (m0 _ (by decide)))

theorem frame_receiveStop {L0 : List Part} {o0 : Block} {b : Block} (h0 : Frame L0 o0 b) (m0 : ∀ p ∈ ([.pm, .ledger, .stop, .mgmt, .mail, .job, .parcel, .post, .cores] : List Part), p ∈ L0) :
    Frame L0 o0 (receiveStop b) := by
  unfold receiveStop
  repeat' first
    | with_reducible assumption
    | with_reducible exact fun p hp => m0 p (subs_of rfl p hp)
    | with_reducible apply frame_modStop
    | with_reducible apply frame_disarm
    | with_reducible apply frame_registerUrgent
    | with_reducible apply Frame.ite
    | (intro _ _ _)
    | split
    | dsimp only
    | exact Frame.trans h0 (fun p => by cases p <;> first | exact .inr rfl | exact .inl (m0 _ (by decide)))

theorem frame_gateCore {L0 : List Part} {o0 : Block} (t : Nat) (i : Nat) {b : Block} (h0 : Frame L0 o0 b) (m0 : ∀ p ∈ ([.free, .cores] : List Part), p ∈ L0) :
    Frame L0 o0 (gateCore t i b) := by
  unfold gateCore
  repeat' first
    | with_reducible assumption
    | with_reducible exact fun p hp => m0 p (subs_of rfl p hp)
    | with_reducible apply frame_freshWord
    | with_reducible apply frame_modCore
    | with_reducible apply Frame.ite
    | (intro _ _ _)
    | split
    | dsimp only
    | exact Frame.trans h0 (fun p => by cases p <;> first | exact .inr rfl | exact .inl (m0 _ (by decide)))

theorem frame_gateAll {L0 : List Part} {o0 : Block} (t : Nat) {b : Block} (h0 : Frame L0 o0 b) (m0 : ∀ p ∈ ([.stop, .free, .job, .cores] : List Part), p ∈ L0) :
    Frame L0 o0 (gateAll t b) := by
  unfold gateAll
  repeat' first
    | with_reducible assumption
    | with_reducible exact fun p hp => m0 p (subs_of rfl p hp)
    | with_reducible apply Frame.forEach1
    | with_reducible apply frame_gateCore
    | with_reducible apply frame_modStop
    | with_reducible apply frame_modJob
    | with_reducible apply Frame.ite
    | (intro _ _ _)
    | split
    | dsimp only
    | exact Frame.trans h0 (fun p => by cases p <;> first | exact .inr rfl | exact .inl (m0 _ (by decide)))

theorem frame_takeStop {L0 : List Part} {o0 : Block} (t : Nat) {b : Block} (h0 : Frame L0 o0 b) (m0 : ∀ p ∈ ([.stop, .dbg, .free, .mgmt, .mail, .job, .cores] : List Part), p ∈ L0) :
    Frame L0 o0 (takeStop t b) := by
  unfold takeStop
  repeat' first
    | with_reducible assumption
    | with_reducible exact fun p hp => m0 p (subs_of rfl p hp)
    | with_reducible apply frame_hoEvent
    | with_reducible apply frame_gateAll
    | with_reducible apply frame_modStop
    | with_reducible apply Frame.ite
    | (intro _ _ _)
    | split
    | dsimp only
    | exact Frame.trans h0 (fun p => by cases p <;> first | exact .inr rfl | exact .inl (m0 _ (by decide)))

theorem frame_clearCause {L0 : List Part} {o0 : Block} (c : StopCause) {b : Block} (h0 : Frame L0 o0 b) (m0 : ∀ p ∈ ([.stop] : List Part), p ∈ L0) :
    Frame L0 o0 (clearCause c b) := by
  unfold clearCause
  repeat' first
    | with_reducible assumption
    | with_reducible exact fun p hp => m0 p (subs_of rfl p hp)
    | with_reducible apply frame_modStop
    | with_reducible apply Frame.ite
    | (intro _ _ _)
    | split
    | dsimp only
    | exact Frame.trans h0 (fun p => by cases p <;> first | exact .inr rfl | exact .inl (m0 _ (by decide)))

theorem frame_ungateAll {L0 : List Part} {o0 : Block} {b : Block} (h0 : Frame L0 o0 b) (m0 : ∀ p ∈ ([.stop, .cores] : List Part), p ∈ L0) :
    Frame L0 o0 (ungateAll b) := by
  unfold ungateAll
  repeat' first
    | with_reducible assumption
    | with_reducible exact fun p hp => m0 p (subs_of rfl p hp)
    | with_reducible apply Frame.forEach1
    | with_reducible apply frame_bumpCtr
    | with_reducible apply frame_modCore
    | with_reducible apply frame_modStop
    | with_reducible apply Frame.ite
    | (intro _ _ _)
    | split
    | dsimp only
    | exact Frame.trans h0 (fun p => by cases p <;> first | exact .inr rfl | exact .inl (m0 _ (by decide)))

theorem frame_presentHead {L0 : List Part} {o0 : Block} (n : Nat) {b : Block} (h0 : Frame L0 o0 b) (m0 : ∀ p ∈ ([.couriers] : List Part), p ∈ L0) :
    Frame L0 o0 (presentHead n b) := by
  unfold presentHead
  repeat' first
    | with_reducible assumption
    | with_reducible exact fun p hp => m0 p (subs_of rfl p hp)
    | with_reducible apply frame_modCourier
    | with_reducible apply Frame.ite
    | (intro _ _ _)
    | split
    | dsimp only
    | exact Frame.trans h0 (fun p => by cases p <;> first | exact .inr rfl | exact .inl (m0 _ (by decide)))

theorem frame_presentAll {L0 : List Part} {o0 : Block} {b : Block} (h0 : Frame L0 o0 b) (m0 : ∀ p ∈ ([.couriers] : List Part), p ∈ L0) :
    Frame L0 o0 (presentAll b) := by
  unfold presentAll
  repeat' first
    | with_reducible assumption
    | with_reducible exact fun p hp => m0 p (subs_of rfl p hp)
    | with_reducible apply Frame.forEach1
    | with_reducible apply frame_presentHead
    | with_reducible apply Frame.ite
    | (intro _ _ _)
    | split
    | dsimp only
    | exact Frame.trans h0 (fun p => by cases p <;> first | exact .inr rfl | exact .inl (m0 _ (by decide)))

theorem frame_releaseStop {L0 : List Part} {o0 : Block} {b : Block} (h0 : Frame L0 o0 b) (m0 : ∀ p ∈ ([.stop, .dbg, .mgmt, .mail, .fleet, .parcel, .post, .cores, .couriers] : List Part), p ∈ L0) :
    Frame L0 o0 (releaseStop b) := by
  unfold releaseStop
  repeat' first
    | with_reducible assumption
    | with_reducible exact fun p hp => m0 p (subs_of rfl p hp)
    | with_reducible apply frame_hoEvent
    | with_reducible apply frame_contribute
    | with_reducible apply frame_presentAll
    | with_reducible apply frame_modStop
    | with_reducible apply frame_ungateAll
    | with_reducible apply Frame.ite
    | (intro _ _ _)
    | split
    | dsimp only
    | exact Frame.trans h0 (fun p => by cases p <;> first | exact .inr rfl | exact .inl (m0 _ (by decide)))

theorem frame_enterSafe {L0 : List Part} {o0 : Block} (code : Nat) {b : Block} (h0 : Frame L0 o0 b) (m0 : ∀ p ∈ ([.outs, .svc, .ledger, .dbg, .mgmt, .mail, .job, .cores] : List Part), p ∈ L0) :
    Frame L0 o0 (enterSafe code b) := by
  unfold enterSafe
  repeat' first
    | with_reducible assumption
    | with_reducible exact fun p hp => m0 p (subs_of rfl p hp)
    | with_reducible apply frame_raiseAlarm
    | with_reducible apply frame_setSvc
    | with_reducible apply frame_modSvc
    | with_reducible apply Frame.forEach1
    | with_reducible apply frame_modCore
    | with_reducible apply frame_setGen
    | with_reducible apply frame_endFills
    | with_reducible apply frame_modJob
    | with_reducible apply Frame.ite
    | (intro _ _ _)
    | split
    | dsimp only
    | exact Frame.trans h0 (fun p => by cases p <;> first | exact .inr rfl | exact .inl (m0 _ (by decide)))

theorem frame_startPersist {L0 : List Part} {o0 : Block} {b : Block} (h0 : Frame L0 o0 b) (m0 : ∀ p ∈ ([.outs, .arch] : List Part), p ∈ L0) :
    Frame L0 o0 (startPersist b) := by
  unfold startPersist
  repeat' first
    | with_reducible assumption
    | with_reducible exact fun p hp => m0 p (subs_of rfl p hp)
    | with_reducible apply Frame.ite
    | with_reducible refine frame_with_arch ?_ _ ?_
    | with_reducible refine frame_with_outs ?_ _ ?_
    | (intro _ _ _)
    | split
    | dsimp only
    | exact Frame.trans h0 (fun p => by cases p <;> first | exact .inr rfl | exact .inl (m0 _ (by decide)))

theorem frame_failParcel {L0 : List Part} {o0 : Block} {b : Block} (h0 : Frame L0 o0 b) (m0 : ∀ p ∈ ([.ledger, .stop, .dbg, .mgmt, .mail, .parcel] : List Part), p ∈ L0) :
    Frame L0 o0 (failParcel b) := by
  unfold failParcel
  repeat' first
    | with_reducible assumption
    | with_reducible exact fun p hp => m0 p (subs_of rfl p hp)
    | with_reducible apply frame_hoEvent
    | with_reducible apply frame_setGen
    | with_reducible apply frame_clearCause
    | with_reducible apply frame_modParcel
    | with_reducible apply Frame.ite
    | (intro _ _ _)
    | split
    | dsimp only
    | exact Frame.trans h0 (fun p => by cases p <;> first | exact .inr rfl | exact .inl (m0 _ (by decide)))

theorem frame_abandonCapture {L0 : List Part} {o0 : Block} {b : Block} (h0 : Frame L0 o0 b) (m0 : ∀ p ∈ ([.ledger, .stop, .dbg, .mgmt, .mail, .parcel] : List Part), p ∈ L0) :
    Frame L0 o0 (abandonCapture b) := by
  unfold abandonCapture
  repeat' first
    | with_reducible assumption
    | with_reducible exact fun p hp => m0 p (subs_of rfl p hp)
    | with_reducible apply frame_failParcel
    | with_reducible apply Frame.ite
    | (intro _ _ _)
    | split
    | dsimp only
    | exact Frame.trans h0 (fun p => by cases p <;> first | exact .inr rfl | exact .inl (m0 _ (by decide)))

theorem frame_beginTeardown {L0 : List Part} {o0 : Block} {b : Block} (h0 : Frame L0 o0 b) (m0 : ∀ p ∈ ([.outs, .pm, .ledger, .stop, .dbg, .mgmt, .mail, .job, .fleet, .parcel, .post, .bm, .cores, .offices] : List Part), p ∈ L0) :
    Frame L0 o0 (beginTeardown b) := by
  unfold beginTeardown
  repeat' first
    | with_reducible assumption
    | with_reducible exact fun p hp => m0 p (subs_of rfl p hp)
    | with_reducible apply frame_endFills
    | with_reducible apply frame_abortLaunch
    | with_reducible apply frame_originate
    | with_reducible apply frame_modLedger
    | with_reducible apply frame_abandonCapture
    | with_reducible apply Frame.forEach1
    | with_reducible apply frame_contribute
    | with_reducible apply frame_modOffice
    | with_reducible apply frame_modCore
    | with_reducible apply frame_allCores
    | with_reducible apply frame_modParcel
    | with_reducible apply frame_modFleet
    | with_reducible apply frame_modJob
    | with_reducible apply frame_publishDue
    | with_reducible apply frame_boundaryAll
    | with_reducible apply Frame.ite
    | (intro _ _ _)
    | split
    | dsimp only
    | exact Frame.trans h0 (fun p => by cases p <;> first | exact .inr rfl | exact .inl (m0 _ (by decide)))

theorem frame_dropCopies {L0 : List Part} {o0 : Block} {b : Block} (h0 : Frame L0 o0 b) (m0 : ∀ p ∈ ([.post, .cores, .offices, .couriers] : List Part), p ∈ L0) :
    Frame L0 o0 (dropCopies b) := by
  unfold dropCopies
  repeat' first
    | with_reducible assumption
    | with_reducible exact fun p hp => m0 p (subs_of rfl p hp)
    | with_reducible apply frame_held
    | with_reducible apply frame_allCores
    | with_reducible apply frame_allOffices
    | with_reducible apply frame_allCouriers
    | with_reducible apply frame_modPost
    | with_reducible apply Frame.ite
    | (intro _ _ _)
    | split
    | dsimp only
    | exact Frame.trans h0 (fun p => by cases p <;> first | exact .inr rfl | exact .inl (m0 _ (by decide)))

theorem frame_raiseWarm {L0 : List Part} {o0 : Block} {b : Block} (h0 : Frame L0 o0 b) (m0 : ∀ p ∈ ([.outs, .svc] : List Part), p ∈ L0) :
    Frame L0 o0 (raiseWarm b) := by
  unfold raiseWarm
  repeat' first
    | with_reducible assumption
    | with_reducible exact fun p hp => m0 p (subs_of rfl p hp)
    | with_reducible apply frame_modOuts
    | with_reducible apply frame_modSvc
    | with_reducible apply frame_hostDone
    | with_reducible apply Frame.ite
    | (intro _ _ _)
    | split
    | dsimp only
    | exact Frame.trans h0 (fun p => by cases p <;> first | exact .inr rfl | exact .inl (m0 _ (by decide)))

theorem frame_endTeardown {L0 : List Part} {o0 : Block} {b : Block} (h0 : Frame L0 o0 b) (m0 : ∀ p ∈ ([.outs, .pm, .svc, .ledger, .stop, .dbg, .mgmt, .mail, .job, .post, .cores, .offices, .couriers] : List Part), p ∈ L0) :
    Frame L0 o0 (endTeardown b) := by
  unfold endTeardown
  repeat' first
    | with_reducible assumption
    | with_reducible exact fun p hp => m0 p (subs_of rfl p hp)
    | with_reducible apply frame_hoEvent
    | with_reducible apply frame_dropCopies
    | with_reducible apply frame_clearCause
    | with_reducible apply frame_finishOp
    | with_reducible apply frame_applyLegs
    | with_reducible apply frame_modJob
    | with_reducible apply frame_raiseWarm
    | with_reducible apply frame_setSvc
    | with_reducible apply Frame.ite
    | (intro _ _ _)
    | split
    | dsimp only
    | exact Frame.trans h0 (fun p => by cases p <;> first | exact .inr rfl | exact .inl (m0 _ (by decide)))

/-! ### Parcels -/

theorem frame_issueXfer {L0 : List Part} {o0 : Block} (n : Nat) (write : Bool) (wafer : Nat) (addr : Nat) (beats : Nat) (use : XferUse) (data : List (BitVec 2048)) {b : Block} (h0 : Frame L0 o0 b) (m0 : ∀ p ∈ ([.couriers] : List Part), p ∈ L0) :
    Frame L0 o0 (issueXfer n write wafer addr beats use data b) := by
  unfold issueXfer
  repeat' first
    | with_reducible assumption
    | with_reducible exact fun p hp => m0 p (subs_of rfl p hp)
    | with_reducible apply frame_modCourier
    | with_reducible apply Frame.ite
    | (intro _ _ _)
    | split
    | dsimp only
    | exact Frame.trans h0 (fun p => by cases p <;> first | exact .inr rfl | exact .inl (m0 _ (by decide)))

theorem frame_writeCopy {L0 : List Part} {o0 : Block} (second : Bool) (mv : Nat) (data : List (BitVec 2048)) {b : Block} (h0 : Frame L0 o0 b) (m0 : ∀ p ∈ ([.parcel, .couriers] : List Part), p ∈ L0) :
    Frame L0 o0 (writeCopy second mv data b) := by
  unfold writeCopy
  repeat' first
    | with_reducible assumption
    | with_reducible exact fun p hp => m0 p (subs_of rfl p hp)
    | with_reducible apply frame_issueXfer
    | with_reducible apply frame_modParcel
    | with_reducible apply Frame.ite
    | (intro _ _ _)
    | split
    | dsimp only
    | exact Frame.trans h0 (fun p => by cases p <;> first | exact .inr rfl | exact .inl (m0 _ (by decide)))

theorem frame_pumpWrites {L0 : List Part} {o0 : Block} {b : Block} (h0 : Frame L0 o0 b) (m0 : ∀ p ∈ ([.parcel, .couriers] : List Part), p ∈ L0) :
    Frame L0 o0 (pumpWrites b) := by
  unfold pumpWrites
  repeat' first
    | with_reducible assumption
    | with_reducible exact fun p hp => m0 p (subs_of rfl p hp)
    | with_reducible apply Frame.forEach1
    | with_reducible apply frame_writeCopy
    | with_reducible apply frame_modParcel
    | with_reducible apply Frame.ite
    | (intro _ _ _)
    | split
    | dsimp only
    | exact Frame.trans h0 (fun p => by cases p <;> first | exact .inr rfl | exact .inl (m0 _ (by decide)))

theorem frame_pumpReads {L0 : List Part} {o0 : Block} (n : Nat) {b : Block} (h : Frame L0 o0 b) (m0 : ∀ p ∈ ([.parcel, .couriers] : List Part), p ∈ L0) :
    Frame L0 o0 (pumpReads n b) := by
  induction n generalizing b with
  | zero => exact h
  | succ n ih =>
    unfold pumpReads
    repeat' first
      | with_reducible assumption
      | with_reducible exact fun p hp => m0 p (subs_of rfl p hp)
      | with_reducible apply ih
      | with_reducible apply frame_issueXfer
      | with_reducible apply frame_modParcel
      | split
      | dsimp only

theorem frame_runRead {L0 : List Part} {o0 : Block} (mv : Nat) (data : List (BitVec 2048)) {b : Block} (h0 : Frame L0 o0 b) (m0 : ∀ p ∈ ([.stop, .parcel, .couriers] : List Part), p ∈ L0) :
    Frame L0 o0 (runRead mv data b) := by
  unfold runRead
  repeat' first
    | with_reducible assumption
    | with_reducible exact fun p hp => m0 p (subs_of rfl p hp)
    | with_reducible apply Frame.forEach1
    | with_reducible apply frame_modParcel
    | with_reducible apply frame_clearCause
    | with_reducible apply frame_writeCopy
    | with_reducible apply Frame.ite
    | (intro _ _ _)
    | split
    | dsimp only
    | exact Frame.trans h0 (fun p => by cases p <;> first | exact .inr rfl | exact .inl (m0 _ (by decide)))

theorem frame_coreRecord {L0 : List Part} {o0 : Block} (role : Nat) (beats : List Flit) {b : Block} (h0 : Frame L0 o0 b) (m0 : ∀ p ∈ ([.stop, .parcel, .couriers] : List Part), p ∈ L0) :
    Frame L0 o0 (coreRecord role beats b) := by
  unfold coreRecord
  repeat' first
    | with_reducible assumption
    | with_reducible exact fun p hp => m0 p (subs_of rfl p hp)
    | with_reducible apply frame_modParcel
    | with_reducible apply frame_runRead
    | with_reducible apply Frame.ite
    | (intro _ _ _)
    | split
    | dsimp only
    | exact Frame.trans h0 (fun p => by cases p <;> first | exact .inr rfl | exact .inl (m0 _ (by decide)))

theorem frame_captureArrive {L0 : List Part} {o0 : Block} (n : Nat) (pl : List Flit) {b : Block} (h0 : Frame L0 o0 b) (m0 : ∀ p ∈ ([.stop, .parcel, .couriers] : List Part), p ∈ L0) :
    Frame L0 o0 (captureArrive n pl b) := by
  unfold captureArrive
  repeat' first
    | with_reducible assumption
    | with_reducible exact fun p hp => m0 p (subs_of rfl p hp)
    | with_reducible apply frame_modCourier
    | with_reducible apply frame_coreRecord
    | with_reducible apply Frame.ite
    | (intro _ _ _)
    | split
    | dsimp only
    | exact Frame.trans h0 (fun p => by cases p <;> first | exact .inr rfl | exact .inl (m0 _ (by decide)))

theorem frame_sendHello {L0 : List Part} {o0 : Block} (dst : Nat) {b : Block} (h0 : Frame L0 o0 b) (m0 : ∀ p ∈ ([.fleet, .post] : List Part), p ∈ L0) :
    Frame L0 o0 (sendHello dst b) := by
  unfold sendHello
  repeat' first
    | with_reducible assumption
    | with_reducible exact fun p hp => m0 p (subs_of rfl p hp)
    | with_reducible apply frame_sendRequest
    | with_reducible apply Frame.ite
    | (intro _ _ _)
    | split
    | dsimp only
    | exact Frame.trans h0 (fun p => by cases p <;> first | exact .inr rfl | exact .inl (m0 _ (by decide)))

theorem frame_ensureLive {L0 : List Part} {o0 : Block} (dst : Nat) {b : Block} (h0 : Frame L0 o0 b) (m0 : ∀ p ∈ ([.fleet, .post] : List Part), p ∈ L0) :
    Frame L0 o0 (ensureLive dst b) := by
  unfold ensureLive
  repeat' first
    | with_reducible assumption
    | with_reducible exact fun p hp => m0 p (subs_of rfl p hp)
    | with_reducible apply frame_sendHello
    | with_reducible apply Frame.ite
    | (intro _ _ _)
    | split
    | dsimp only
    | exact Frame.trans h0 (fun p => by cases p <;> first | exact .inr rfl | exact .inl (m0 _ (by decide)))

theorem frame_sendLetter {L0 : List Part} {o0 : Block} (dst : Nat) (op : Nat) (params : List Byte) (which : Nat) {b : Block} (h0 : Frame L0 o0 b) (m0 : ∀ p ∈ ([.mail, .fleet, .post] : List Part), p ∈ L0) :
    Frame L0 o0 (sendLetter dst op params which b) := by
  unfold sendLetter
  repeat' first
    | with_reducible assumption
    | with_reducible exact fun p hp => m0 p (subs_of rfl p hp)
    | with_reducible apply frame_ensureLive
    | with_reducible apply frame_sendRequest
    | with_reducible apply frame_modMail
    | with_reducible apply frame_modFleet
    | with_reducible apply Frame.ite
    | (intro _ _ _)
    | split
    | dsimp only
    | exact Frame.trans h0 (fun p => by cases p <;> first | exact .inr rfl | exact .inl (m0 _ (by decide)))

theorem frame_helloLetter {L0 : List Part} {o0 : Block} (dst : Nat) {b : Block} (h0 : Frame L0 o0 b) (m0 : ∀ p ∈ ([.mail, .fleet, .post] : List Part), p ∈ L0) :
    Frame L0 o0 (helloLetter dst b) := by
  unfold helloLetter
  repeat' first
    | with_reducible assumption
    | with_reducible exact fun p hp => m0 p (subs_of rfl p hp)
    | with_reducible apply frame_sendLetter
    | with_reducible apply Frame.ite
    | (intro _ _ _)
    | split
    | dsimp only
    | exact Frame.trans h0 (fun p => by cases p <;> first | exact .inr rfl | exact .inl (m0 _ (by decide)))

theorem frame_reserveBoth {L0 : List Part} {o0 : Block} {b : Block} (h0 : Frame L0 o0 b) (m0 : ∀ p ∈ ([.mail, .fleet, .post] : List Part), p ∈ L0) :
    Frame L0 o0 (reserveBoth b) := by
  unfold reserveBoth
  repeat' first
    | with_reducible assumption
    | with_reducible exact fun p hp => m0 p (subs_of rfl p hp)
    | with_reducible apply frame_sendLetter
    | with_reducible apply Frame.ite
    | (intro _ _ _)
    | split
    | dsimp only
    | exact Frame.trans h0 (fun p => by cases p <;> first | exact .inr rfl | exact .inl (m0 _ (by decide)))

theorem frame_selectHolders {L0 : List Part} {o0 : Block} {b : Block} (h0 : Frame L0 o0 b) (m0 : ∀ p ∈ ([.dbg, .mgmt, .mail, .parcel] : List Part), p ∈ L0) :
    Frame L0 o0 (selectHolders b) := by
  unfold selectHolders
  repeat' first
    | with_reducible assumption
    | with_reducible exact fun p hp => m0 p (subs_of rfl p hp)
    | with_reducible apply frame_modParcel
    | with_reducible apply frame_hoEvent
    | with_reducible apply Frame.ite
    | (intro _ _ _)
    | split
    | dsimp only
    | exact Frame.trans h0 (fun p => by cases p <;> first | exact .inr rfl | exact .inl (m0 _ (by decide)))

theorem frame_prepareParcel {L0 : List Part} {o0 : Block} {b : Block} (h0 : Frame L0 o0 b) (m0 : ∀ p ∈ ([.ledger, .dbg, .mgmt, .mail, .fleet, .parcel, .post] : List Part), p ∈ L0) :
    Frame L0 o0 (prepareParcel b) := by
  unfold prepareParcel
  repeat' first
    | with_reducible assumption
    | with_reducible exact fun p hp => m0 p (subs_of rfl p hp)
    | with_reducible apply frame_selectHolders
    | with_reducible apply frame_helloLetter
    | with_reducible apply frame_modParcel
    | with_reducible apply frame_setGen
    | with_reducible apply frame_reserveBoth
    | with_reducible apply Frame.ite
    | (intro _ _ _)
    | split
    | dsimp only
    | exact Frame.trans h0 (fun p => by cases p <;> first | exact .inr rfl | exact .inl (m0 _ (by decide)))

theorem frame_keepGen {L0 : List Part} {o0 : Block} (g : GenRec) {b : Block} (h0 : Frame L0 o0 b) (m0 : ∀ p ∈ ([.ledger] : List Part), p ∈ L0) :
    Frame L0 o0 (keepGen g b) := by
  unfold keepGen
  repeat' first
    | with_reducible assumption
    | with_reducible exact fun p hp => m0 p (subs_of rfl p hp)
    | with_reducible apply frame_modLedger
    | with_reducible apply Frame.ite
    | (intro _ _ _)
    | split
    | dsimp only
    | exact Frame.trans h0 (fun p => by cases p <;> first | exact .inr rfl | exact .inl (m0 _ (by decide)))

theorem frame_releaseOlder {L0 : List Part} {o0 : Block} (gen : Nat) {b : Block} (h0 : Frame L0 o0 b) (m0 : ∀ p ∈ ([.ledger, .mail, .fleet, .parcel, .post] : List Part), p ∈ L0) :
    Frame L0 o0 (releaseOlder gen b) := by
  unfold releaseOlder
  repeat' first
    | with_reducible assumption
    | with_reducible exact fun p hp => m0 p (subs_of rfl p hp)
    | with_reducible apply Frame.forEach1
    | with_reducible apply frame_sendLetter
    | with_reducible apply frame_modLedger
    | with_reducible apply frame_modParcel
    | with_reducible apply Frame.ite
    | (intro _ _ _)
    | split
    | dsimp only
    | exact Frame.trans h0 (fun p => by cases p <;> first | exact .inr rfl | exact .inl (m0 _ (by decide)))

theorem frame_tryRerep {L0 : List Part} {o0 : Block} (g : GenRec) (survivor : Nat) (tried : List Nat) {b : Block} (h0 : Frame L0 o0 b) (m0 : ∀ p ∈ ([.mail, .fleet, .parcel, .post] : List Part), p ∈ L0) :
    Frame L0 o0 (tryRerep g survivor tried b) := by
  unfold tryRerep
  repeat' first
    | with_reducible assumption
    | with_reducible exact fun p hp => m0 p (subs_of rfl p hp)
    | with_reducible apply frame_modParcel
    | with_reducible apply frame_sendLetter
    | with_reducible apply frame_helloLetter
    | with_reducible apply Frame.ite
    | (intro _ _ _)
    | split
    | dsimp only
    | exact Frame.trans h0 (fun p => by cases p <;> first | exact .inr rfl | exact .inl (m0 _ (by decide)))

theorem frame_nextRerep {L0 : List Part} {o0 : Block}  (z : Nat) {b : Block} (h0 : Frame L0 o0 b)
    (m0 : ∀ p ∈ ([.mail, .fleet, .parcel, .post] : List Part), p ∈ L0) : Frame L0 o0 (nextRerep  z b) := by
  induction z generalizing b with
  | zero => exact h0
  | succ n ih =>
    unfold nextRerep
    repeat' first
      | with_reducible assumption
      | with_reducible exact fun p hp => m0 p (subs_of rfl p hp)
      | with_reducible apply ih
      | with_reducible apply frame_modParcel
      | with_reducible apply frame_tryRerep
      | with_reducible apply Frame.ite
      | (intro _ _ _)
      | split
      | dsimp only

theorem frame_startRerep {L0 : List Part} {o0 : Block} (g : GenRec) (survivor : Nat) {b : Block} (h0 : Frame L0 o0 b) (m0 : ∀ p ∈ ([.mail, .fleet, .parcel, .post] : List Part), p ∈ L0) :
    Frame L0 o0 (startRerep g survivor b) := by
  unfold startRerep
  repeat' first
    | with_reducible assumption
    | with_reducible exact fun p hp => m0 p (subs_of rfl p hp)
    | with_reducible apply frame_nextRerep
    | with_reducible apply frame_modParcel
    | with_reducible apply Frame.ite
    | (intro _ _ _)
    | split
    | dsimp only
    | exact Frame.trans h0 (fun p => by cases p <;> first | exact .inr rfl | exact .inl (m0 _ (by decide)))

theorem frame_settleGen {L0 : List Part} {o0 : Block} {b : Block} (h0 : Frame L0 o0 b) (m0 : ∀ p ∈ ([.ledger, .dbg, .mgmt, .mail, .fleet, .parcel, .post] : List Part), p ∈ L0) :
    Frame L0 o0 (settleGen b) := by
  unfold settleGen
  repeat' first
    | with_reducible assumption
    | with_reducible exact fun p hp => m0 p (subs_of rfl p hp)
    | with_reducible apply frame_setGen
    | with_reducible apply frame_modParcel
    | with_reducible apply frame_keepGen
    | with_reducible apply frame_releaseOlder
    | with_reducible apply frame_hoEvent
    | with_reducible apply frame_startRerep
    | with_reducible apply Frame.ite
    | (intro _ _ _)
    | split
    | dsimp only
    | exact Frame.trans h0 (fun p => by cases p <;> first | exact .inr rfl | exact .inl (m0 _ (by decide)))

theorem frame_commitAnswer {L0 : List Part} {o0 : Block} (second : Bool) (ok : Bool) {b : Block} (h0 : Frame L0 o0 b) (m0 : ∀ p ∈ ([.ledger, .dbg, .mgmt, .mail, .fleet, .parcel, .post] : List Part), p ∈ L0) :
    Frame L0 o0 (commitAnswer second ok b) := by
  unfold commitAnswer
  repeat' first
    | with_reducible assumption
    | with_reducible exact fun p hp => m0 p (subs_of rfl p hp)
    | with_reducible apply frame_setGen
    | with_reducible apply frame_modParcel
    | with_reducible apply frame_settleGen
    | with_reducible apply Frame.ite
    | (intro _ _ _)
    | split
    | dsimp only
    | exact Frame.trans h0 (fun p => by cases p <;> first | exact .inr rfl | exact .inl (m0 _ (by decide)))

theorem frame_failCopy {L0 : List Part} {o0 : Block} (second : Bool) {b : Block} (h0 : Frame L0 o0 b) (m0 : ∀ p ∈ ([.ledger, .stop, .dbg, .mgmt, .mail, .fleet, .parcel, .post] : List Part), p ∈ L0) :
    Frame L0 o0 (failCopy second b) := by
  unfold failCopy
  repeat' first
    | with_reducible assumption
    | with_reducible exact fun p hp => m0 p (subs_of rfl p hp)
    | with_reducible apply frame_modParcel
    | with_reducible apply frame_failParcel
    | with_reducible apply frame_commitAnswer
    | with_reducible apply Frame.ite
    | (intro _ _ _)
    | split
    | dsimp only
    | exact Frame.trans h0 (fun p => by cases p <;> first | exact .inr rfl | exact .inl (m0 _ (by decide)))

theorem frame_countRetry {L0 : List Part} {o0 : Block} (mv : Nat) (kind : Nat) {b : Block} (h0 : Frame L0 o0 b) (m0 : ∀ p ∈ ([.parcel] : List Part), p ∈ L0) :
    Frame L0 o0 (countRetry mv kind b) := by
  unfold countRetry
  repeat' first
    | with_reducible assumption
    | with_reducible exact fun p hp => m0 p (subs_of rfl p hp)
    | with_reducible apply frame_modParcel
    | with_reducible apply Frame.ite
    | (intro _ _ _)
    | split
    | dsimp only
    | exact Frame.trans h0 (fun p => by cases p <;> first | exact .inr rfl | exact .inl (m0 _ (by decide)))

theorem frame_pumpRerep {L0 : List Part} {o0 : Block} {b : Block} (h0 : Frame L0 o0 b) (m0 : ∀ p ∈ ([.parcel, .couriers] : List Part), p ∈ L0) :
    Frame L0 o0 (pumpRerep b) := by
  unfold pumpRerep
  repeat' first
    | with_reducible assumption
    | with_reducible exact fun p hp => m0 p (subs_of rfl p hp)
    | with_reducible apply frame_issueXfer
    | with_reducible apply frame_modParcel
    | with_reducible apply Frame.ite
    | (intro _ _ _)
    | split
    | dsimp only
    | exact Frame.trans h0 (fun p => by cases p <;> first | exact .inr rfl | exact .inl (m0 _ (by decide)))

theorem frame_failRerep {L0 : List Part} {o0 : Block} {b : Block} (h0 : Frame L0 o0 b) (m0 : ∀ p ∈ ([.mail, .fleet, .parcel, .post] : List Part), p ∈ L0) :
    Frame L0 o0 (failRerep b) := by
  unfold failRerep
  repeat' first
    | with_reducible assumption
    | with_reducible exact fun p hp => m0 p (subs_of rfl p hp)
    | with_reducible apply frame_nextRerep
    | with_reducible apply frame_tryRerep
    | with_reducible apply frame_modParcel
    | with_reducible apply Frame.ite
    | (intro _ _ _)
    | split
    | dsimp only
    | exact Frame.trans h0 (fun p => by cases p <;> first | exact .inr rfl | exact .inl (m0 _ (by decide)))

theorem frame_pumpExport {L0 : List Part} {o0 : Block} (n : Nat) {b : Block} (h : Frame L0 o0 b) (m0 : ∀ p ∈ ([.dbg, .couriers] : List Part), p ∈ L0) :
    Frame L0 o0 (pumpExport n b) := by
  induction n generalizing b with
  | zero => exact h
  | succ n ih =>
    unfold pumpExport
    repeat' first
      | with_reducible assumption
      | with_reducible exact fun p hp => m0 p (subs_of rfl p hp)
      | with_reducible apply ih
      | with_reducible apply frame_issueXfer
      | with_reducible apply frame_modDebug
      | split

theorem frame_exportEnd {L0 : List Part} {o0 : Block} (k : Nat) (x : Xfer) (resp : Nat) {b : Block} (h0 : Frame L0 o0 b) (m0 : ∀ p ∈ ([.ledger, .dbg, .mgmt, .mail, .post, .couriers] : List Part), p ∈ L0) :
    Frame L0 o0 (exportEnd k x resp b) := by
  unfold exportEnd
  repeat' first
    | with_reducible assumption
    | with_reducible exact fun p hp => m0 p (subs_of rfl p hp)
    | with_reducible apply frame_pumpExport
    | with_reducible apply frame_modDebug
    | with_reducible apply frame_finishOp
    | with_reducible apply frame_hoEvent
    | with_reducible apply Frame.ite
    | (intro _ _ _)
    | split
    | dsimp only
    | exact Frame.trans h0 (fun p => by cases p <;> first | exact .inr rfl | exact .inl (m0 _ (by decide)))

theorem frame_xferEnd {L0 : List Part} {o0 : Block} (n : Nat) (x : Xfer) (resp : Nat) {b : Block} (h0 : Frame L0 o0 b) (m0 : ∀ p ∈ ([.ledger, .stop, .dbg, .mgmt, .mail, .fleet, .parcel, .post, .couriers] : List Part), p ∈ L0) :
    Frame L0 o0 (xferEnd n x resp b) := by
  unfold xferEnd
  repeat' first
    | with_reducible assumption
    | with_reducible exact fun p hp => m0 p (subs_of rfl p hp)
    | with_reducible apply frame_modCourier
    | with_reducible apply frame_deadLetter
    | with_reducible apply frame_exportEnd
    | with_reducible apply frame_runRead
    | with_reducible apply frame_countRetry
    | with_reducible apply frame_modParcel
    | with_reducible apply frame_failParcel
    | with_reducible apply frame_writeCopy
    | with_reducible apply frame_failCopy
    | with_reducible apply frame_issueXfer
    | with_reducible apply frame_failRerep
    | with_reducible apply frame_sendLetter
    | with_reducible apply frame_pumpRerep
    | with_reducible apply frame_pumpReads
    | with_reducible apply frame_pumpWrites
    | with_reducible apply Frame.ite
    | (intro _ _ _)
    | split
    | dsimp only
    | exact Frame.trans h0 (fun p => by cases p <;> first | exact .inr rfl | exact .inl (m0 _ (by decide)))

theorem frame_portStop {L0 : List Part} {o0 : Block} (n : Nat) {b : Block} (h0 : Frame L0 o0 b) (m0 : ∀ p ∈ ([.ledger, .stop, .dbg, .mgmt, .mail, .fleet, .parcel, .post, .cores, .offices, .routers, .couriers] : List Part), p ∈ L0) :
    Frame L0 o0 (portStop n b) := by
  unfold portStop
  repeat' first
    | with_reducible assumption
    | with_reducible exact fun p hp => m0 p (subs_of rfl p hp)
    | with_reducible apply frame_held
    | with_reducible apply frame_modFleet
    | with_reducible apply frame_modCourier
    | with_reducible apply Frame.forEach1
    | with_reducible apply frame_reportTo
    | with_reducible apply frame_xferEnd
    | with_reducible apply Frame.ite
    | (intro _ _ _)
    | split
    | dsimp only
    | exact Frame.trans h0 (fun p => by cases p <;> first | exact .inr rfl | exact .inl (m0 _ (by decide)))

theorem frame_startPort {L0 : List Part} {o0 : Block} (n : Nat) {b : Block} (h0 : Frame L0 o0 b) (m0 : ∀ p ∈ ([.dbg, .parcel, .couriers] : List Part), p ∈ L0) :
    Frame L0 o0 (startPort n b) := by
  unfold startPort
  repeat' first
    | with_reducible assumption
    | with_reducible exact fun p hp => m0 p (subs_of rfl p hp)
    | with_reducible apply frame_pumpExport
    | with_reducible apply frame_pumpRerep
    | with_reducible apply frame_pumpReads
    | with_reducible apply frame_pumpWrites
    | with_reducible apply frame_modCourier
    | with_reducible apply Frame.ite
    | (intro _ _ _)
    | split
    | dsimp only
    | exact Frame.trans h0 (fun p => by cases p <;> first | exact .inr rfl | exact .inl (m0 _ (by decide)))

theorem frame_enablePort {L0 : List Part} {o0 : Block} (n : Nat) {b : Block} (h0 : Frame L0 o0 b) (m0 : ∀ p ∈ ([.dbg, .parcel, .couriers] : List Part), p ∈ L0) :
    Frame L0 o0 (enablePort n b) := by
  unfold enablePort
  repeat' first
    | with_reducible assumption
    | with_reducible exact fun p hp => m0 p (subs_of rfl p hp)
    | with_reducible apply frame_modCourier
    | with_reducible apply frame_startPort
    | with_reducible apply Frame.ite
    | (intro _ _ _)
    | split
    | dsimp only
    | exact Frame.trans h0 (fun p => by cases p <;> first | exact .inr rfl | exact .inl (m0 _ (by decide)))

theorem frame_disablePort {L0 : List Part} {o0 : Block} (n : Nat) {b : Block} (h0 : Frame L0 o0 b) (m0 : ∀ p ∈ ([.ledger, .stop, .dbg, .mgmt, .mail, .fleet, .parcel, .post, .cores, .offices, .routers, .couriers] : List Part), p ∈ L0) :
    Frame L0 o0 (disablePort n b) := by
  unfold disablePort
  repeat' first
    | with_reducible assumption
    | with_reducible exact fun p hp => m0 p (subs_of rfl p hp)
    | with_reducible apply frame_portStop
    | with_reducible apply frame_modCourier
    | with_reducible apply Frame.ite
    | (intro _ _ _)
    | split
    | dsimp only
    | exact Frame.trans h0 (fun p => by cases p <;> first | exact .inr rfl | exact .inl (m0 _ (by decide)))

theorem frame_disableDomain {L0 : List Part} {o0 : Block} (n : Nat) {b : Block} (h0 : Frame L0 o0 b) (m0 : ∀ p ∈ ([.ledger, .stop, .dbg, .mgmt, .mail, .fleet, .parcel, .post, .cores, .offices, .routers, .couriers] : List Part), p ∈ L0) :
    Frame L0 o0 (disableDomain n b) := by
  unfold disableDomain
  repeat' first
    | with_reducible assumption
    | with_reducible exact fun p hp => m0 p (subs_of rfl p hp)
    | with_reducible apply frame_disablePort
    | with_reducible apply frame_modCourier
    | with_reducible apply Frame.ite
    | (intro _ _ _)
    | split
    | dsimp only
    | exact Frame.trans h0 (fun p => by cases p <;> first | exact .inr rfl | exact .inl (m0 _ (by decide)))

theorem frame_parcelPrepare {L0 : List Part} {o0 : Block} {b : Block} (h0 : Frame L0 o0 b) (m0 : ∀ p ∈ ([.pm, .ledger, .dbg, .mgmt, .mail, .fleet, .parcel, .post] : List Part), p ∈ L0) :
    Frame L0 o0 (parcelPrepare b) := by
  unfold parcelPrepare
  repeat' first
    | with_reducible assumption
    | with_reducible exact fun p hp => m0 p (subs_of rfl p hp)
    | with_reducible apply frame_advTo
    | with_reducible apply frame_prepareParcel
    | with_reducible apply Frame.ite
    | (intro _ _ _)
    | split
    | dsimp only
    | exact Frame.trans h0 (fun p => by cases p <;> first | exact .inr rfl | exact .inl (m0 _ (by decide)))

theorem frame_parcelRenew {L0 : List Part} {o0 : Block} {b : Block} (h0 : Frame L0 o0 b) (m0 : ∀ p ∈ ([.pm, .mail, .fleet, .parcel, .post] : List Part), p ∈ L0) :
    Frame L0 o0 (parcelRenew b) := by
  unfold parcelRenew
  repeat' first
    | with_reducible assumption
    | with_reducible exact fun p hp => m0 p (subs_of rfl p hp)
    | with_reducible apply frame_advTo
    | with_reducible apply frame_reserveBoth
    | with_reducible apply frame_modParcel
    | with_reducible apply Frame.ite
    | (intro _ _ _)
    | split
    | dsimp only
    | exact Frame.trans h0 (fun p => by cases p <;> first | exact .inr rfl | exact .inl (m0 _ (by decide)))

theorem frame_parcelVoteLate {L0 : List Part} {o0 : Block} {b : Block} (h0 : Frame L0 o0 b) (m0 : ∀ p ∈ ([.outs, .pm, .ledger, .stop, .dbg, .mgmt, .mail, .job, .parcel, .post, .cores] : List Part), p ∈ L0) :
    Frame L0 o0 (parcelVoteLate b) := by
  unfold parcelVoteLate
  repeat' first
    | with_reducible assumption
    | with_reducible exact fun p hp => m0 p (subs_of rfl p hp)
    | with_reducible apply frame_advTo
    | with_reducible apply frame_hoEvent
    | with_reducible apply frame_originate
    | with_reducible apply frame_modParcel
    | with_reducible apply frame_skipDue
    | with_reducible apply Frame.ite
    | (intro _ _ _)
    | split
    | dsimp only
    | exact Frame.trans h0 (fun p => by cases p <;> first | exact .inr rfl | exact .inl (m0 _ (by decide)))

theorem frame_parcelStop {L0 : List Part} {o0 : Block} {b : Block} (h0 : Frame L0 o0 b) (m0 : ∀ p ∈ ([.pm, .ledger, .stop, .dbg, .free, .mgmt, .mail, .job, .parcel, .cores, .offices, .couriers] : List Part), p ∈ L0) :
    Frame L0 o0 (parcelStop b) := by
  unfold parcelStop
  repeat' first
    | with_reducible assumption
    | with_reducible exact fun p hp => m0 p (subs_of rfl p hp)
    | with_reducible apply frame_advTo
    | with_reducible apply frame_addCause
    | with_reducible apply frame_takeStop
    | with_reducible apply Frame.forEach1
    | with_reducible apply frame_modOffice
    | with_reducible apply frame_setGen
    | with_reducible apply frame_modLedger
    | with_reducible apply frame_modParcel
    | with_reducible apply frame_allCouriers
    | with_reducible apply frame_pumpReads
    | with_reducible apply frame_runRead
    | with_reducible apply Frame.ite
    | (intro _ _ _)
    | split
    | dsimp only
    | exact Frame.trans h0 (fun p => by cases p <;> first | exact .inr rfl | exact .inl (m0 _ (by decide)))

theorem frame_parcelRootBuild {L0 : List Part} {o0 : Block} {b : Block} (h0 : Frame L0 o0 b) (m0 : ∀ p ∈ ([.ledger, .parcel, .couriers] : List Part), p ∈ L0) :
    Frame L0 o0 (parcelRootBuild b) := by
  unfold parcelRootBuild
  repeat' first
    | with_reducible assumption
    | with_reducible exact fun p hp => m0 p (subs_of rfl p hp)
    | with_reducible apply frame_setGen
    | with_reducible apply frame_modParcel
    | with_reducible apply Frame.forEach1
    | with_reducible apply frame_writeCopy
    | with_reducible apply Frame.ite
    | (intro _ _ _)
    | split
    | dsimp only
    | exact Frame.trans h0 (fun p => by cases p <;> first | exact .inr rfl | exact .inl (m0 _ (by decide)))

theorem frame_parcelCommitSend {L0 : List Part} {o0 : Block} {b : Block} (h0 : Frame L0 o0 b) (m0 : ∀ p ∈ ([.ledger, .dbg, .mgmt, .mail, .fleet, .parcel, .post] : List Part), p ∈ L0) :
    Frame L0 o0 (parcelCommitSend b) := by
  unfold parcelCommitSend
  repeat' first
    | with_reducible assumption
    | with_reducible exact fun p hp => m0 p (subs_of rfl p hp)
    | with_reducible apply frame_setGen
    | with_reducible apply frame_modParcel
    | with_reducible apply frame_commitAnswer
    | with_reducible apply frame_sendLetter
    | with_reducible apply Frame.ite
    | (intro _ _ _)
    | split
    | dsimp only
    | exact Frame.trans h0 (fun p => by cases p <;> first | exact .inr rfl | exact .inl (m0 _ (by decide)))

theorem frame_parcelOverrun {L0 : List Part} {o0 : Block} {b : Block} (h0 : Frame L0 o0 b) (m0 : ∀ p ∈ ([.outs, .pm, .ledger, .stop, .dbg, .mgmt, .mail, .job, .parcel, .post, .cores] : List Part), p ∈ L0) :
    Frame L0 o0 (parcelOverrun b) := by
  unfold parcelOverrun
  repeat' first
    | with_reducible assumption
    | with_reducible exact fun p hp => m0 p (subs_of rfl p hp)
    | with_reducible apply frame_advTo
    | with_reducible apply frame_hoEvent
    | with_reducible apply frame_originate
    | with_reducible apply Frame.ite
    | (intro _ _ _)
    | split
    | dsimp only
    | exact Frame.trans h0 (fun p => by cases p <;> first | exact .inr rfl | exact .inl (m0 _ (by decide)))

theorem frame_parcelUngate {L0 : List Part} {o0 : Block} {b : Block} (h0 : Frame L0 o0 b) (m0 : ∀ p ∈ ([.pm, .stop, .job, .parcel, .cores] : List Part), p ∈ L0) :
    Frame L0 o0 (parcelUngate b) := by
  unfold parcelUngate
  repeat' first
    | with_reducible assumption
    | with_reducible exact fun p hp => m0 p (subs_of rfl p hp)
    | with_reducible apply frame_advTo
    | with_reducible apply frame_clearCause
    | with_reducible apply frame_modParcel
    | with_reducible apply frame_ungateAll
    | with_reducible apply frame_modJob
    | with_reducible apply Frame.ite
    | (intro _ _ _)
    | split
    | dsimp only
    | exact Frame.trans h0 (fun p => by cases p <;> first | exact .inr rfl | exact .inl (m0 _ (by decide)))

theorem frame_coolSpace {L0 : List Part} {o0 : Block} (pages : Nat) {b : Block} (h0 : Frame L0 o0 b) (m0 : ∀ p ∈ ([.parcel] : List Part), p ∈ L0) :
    Frame L0 o0 (coolSpace pages b) := by
  unfold coolSpace
  repeat' first
    | with_reducible assumption
    | with_reducible exact fun p hp => m0 p (subs_of rfl p hp)
    | with_reducible apply frame_modParcel
    | with_reducible apply Frame.ite
    | (intro _ _ _)
    | split
    | dsimp only
    | exact Frame.trans h0 (fun p => by cases p <;> first | exact .inr rfl | exact .inl (m0 _ (by decide)))

theorem frame_reservationLapse {L0 : List Part} {o0 : Block} (holdee : Nat) (gen : Nat) {b : Block} (h0 : Frame L0 o0 b) (m0 : ∀ p ∈ ([.pm, .ledger, .parcel] : List Part), p ∈ L0) :
    Frame L0 o0 (reservationLapse holdee gen b) := by
  unfold reservationLapse
  repeat' first
    | with_reducible assumption
    | with_reducible exact fun p hp => m0 p (subs_of rfl p hp)
    | with_reducible apply frame_advTo
    | with_reducible apply frame_coolSpace
    | with_reducible apply frame_modLedger
    | with_reducible apply Frame.ite
    | (intro _ _ _)
    | split
    | dsimp only
    | exact Frame.trans h0 (fun p => by cases p <;> first | exact .inr rfl | exact .inl (m0 _ (by decide)))

theorem frame_teardownQuiesced {L0 : List Part} {o0 : Block} {b : Block} (h0 : Frame L0 o0 b) (m0 : ∀ p ∈ ([.outs, .pm, .svc, .ledger, .stop, .dbg, .mgmt, .mail, .job, .post, .cores, .offices, .couriers] : List Part), p ∈ L0) :
    Frame L0 o0 (teardownQuiesced b) := by
  unfold teardownQuiesced
  repeat' first
    | with_reducible assumption
    | with_reducible exact fun p hp => m0 p (subs_of rfl p hp)
    | with_reducible apply frame_endTeardown
    | with_reducible apply frame_advTo
    | with_reducible apply Frame.ite
    | (intro _ _ _)
    | split
    | dsimp only
    | exact Frame.trans h0 (fun p => by cases p <;> first | exact .inr rfl | exact .inl (m0 _ (by decide)))

theorem frame_teardownForce {L0 : List Part} {o0 : Block} {b : Block} (h0 : Frame L0 o0 b) (m0 : ∀ p ∈ ([.outs, .pm, .svc, .ledger, .stop, .dbg, .mgmt, .mail, .job, .fleet, .post, .cores, .offices, .couriers] : List Part), p ∈ L0) :
    Frame L0 o0 (teardownForce b) := by
  unfold teardownForce
  split
  · exact h0
  · exact frame_endTeardown (frame_modJob _ (frame_modFleet _ (frame_allCouriers _ (frame_advTo _ h0 (fun p hp => m0 p (subs_of rfl p hp))) (fun p hp => m0 p (subs_of rfl p hp))) (fun p hp => m0 p (subs_of rfl p hp))) (fun p hp => m0 p (subs_of rfl p hp))) (fun p hp => m0 p (subs_of rfl p hp))

/-! ### Taps -/

theorem frame_intakeBeat {L0 : List Part} {o0 : Block} (n : Nat) (x : IntakeBeat) {b : Block} (h0 : Frame L0 o0 b) (m0 : ∀ p ∈ ([.dbg, .mgmt, .mail, .couriers] : List Part), p ∈ L0) :
    Frame L0 o0 (intakeBeat n x b) := by
  unfold intakeBeat
  repeat' first
    | with_reducible assumption
    | with_reducible exact fun p hp => m0 p (subs_of rfl p hp)
    | with_reducible apply frame_setCourier
    | with_reducible apply frame_postEvent
    | with_reducible apply Frame.ite
    | (intro _ _ _)
    | split
    | dsimp only
    | exact Frame.trans h0 (fun p => by cases p <;> first | exact .inr rfl | exact .inl (m0 _ (by decide)))

theorem frame_egressTap {L0 : List Part} {o0 : Block} (out : Bool) (n : Nat) (x : EgressBeat) {b : Block} (h0 : Frame L0 o0 b) (m0 : ∀ p ∈ ([.dbg, .mgmt, .mail, .couriers] : List Part), p ∈ L0) :
    Frame L0 o0 (egressTap out n x b) := by
  unfold egressTap
  repeat' first
    | with_reducible assumption
    | with_reducible exact fun p hp => m0 p (subs_of rfl p hp)
    | with_reducible apply frame_setCourier
    | with_reducible apply frame_postEvent
    | with_reducible apply Frame.ite
    | (intro _ _ _)
    | split
    | dsimp only
    | exact Frame.trans h0 (fun p => by cases p <;> first | exact .inr rfl | exact .inl (m0 _ (by decide)))

theorem frame_egressStepEnd {L0 : List Part} {o0 : Block} (n : Nat) (step : Nat) {b : Block} (h0 : Frame L0 o0 b) (m0 : ∀ p ∈ ([.post, .cores, .offices, .routers, .couriers] : List Part), p ∈ L0) :
    Frame L0 o0 (egressStepEnd n step b) := by
  unfold egressStepEnd
  repeat' first
    | with_reducible assumption
    | with_reducible exact fun p hp => m0 p (subs_of rfl p hp)
    | with_reducible apply frame_unicast
    | with_reducible apply frame_setCourier
    | with_reducible apply Frame.ite
    | (intro _ _ _)
    | split
    | dsimp only
    | exact Frame.trans h0 (fun p => by cases p <;> first | exact .inr rfl | exact .inl (m0 _ (by decide)))

theorem frame_frankDue {L0 : List Part} {o0 : Block} (x : Notice) (n : Nat) {b : Block} (h0 : Frame L0 o0 b) (m0 : ∀ p ∈ ([.stop, .dbg, .mgmt, .mail, .job, .couriers] : List Part), p ∈ L0) :
    Frame L0 o0 (frankDue x n b) := by
  unfold frankDue
  repeat' first
    | with_reducible assumption
    | with_reducible exact fun p hp => m0 p (subs_of rfl p hp)
    | with_reducible apply frame_stopJobNext
    | with_reducible apply frame_postEvent
    | with_reducible apply frame_presentHead
    | with_reducible apply frame_modCourier
    | with_reducible apply Frame.ite
    | (intro _ _ _)
    | split
    | dsimp only
    | exact Frame.trans h0 (fun p => by cases p <;> first | exact .inr rfl | exact .inl (m0 _ (by decide)))

theorem frame_frankPresent {L0 : List Part} {o0 : Block} {b : Block} (h0 : Frame L0 o0 b) (m0 : ∀ p ∈ ([.pm, .stop, .dbg, .mgmt, .mail, .job, .couriers] : List Part), p ∈ L0) :
    Frame L0 o0 (frankPresent b) := by
  unfold frankPresent
  repeat' first
    | with_reducible assumption
    | with_reducible exact fun p hp => m0 p (subs_of rfl p hp)
    | with_reducible apply Frame.forEach1
    | with_reducible apply frame_frankDue
    | with_reducible apply frame_advTo
    | with_reducible apply frame_modJob
    | with_reducible apply Frame.ite
    | (intro _ _ _)
    | split
    | dsimp only
    | exact Frame.trans h0 (fun p => by cases p <;> first | exact .inr rfl | exact .inl (m0 _ (by decide)))

theorem frame_frankAccept {L0 : List Part} {o0 : Block} (n : Nat) {b : Block} (h0 : Frame L0 o0 b) (m0 : ∀ p ∈ ([.couriers] : List Part), p ∈ L0) :
    Frame L0 o0 (frankAccept n b) := by
  unfold frankAccept
  repeat' first
    | with_reducible assumption
    | with_reducible exact fun p hp => m0 p (subs_of rfl p hp)
    | with_reducible apply frame_presentHead
    | with_reducible apply frame_modCourier
    | with_reducible apply Frame.ite
    | (intro _ _ _)
    | split
    | dsimp only
    | exact Frame.trans h0 (fun p => by cases p <;> first | exact .inr rfl | exact .inl (m0 _ (by decide)))

/-! ### Couriers -/

theorem frame_crLinkUp {L0 : List Part} {o0 : Block} (n : Nat) {b : Block} (h0 : Frame L0 o0 b) (m0 : ∀ p ∈ ([.dbg, .parcel, .couriers] : List Part), p ∈ L0) :
    Frame L0 o0 (crLinkUp n b) := by
  unfold crLinkUp
  repeat' first
    | with_reducible assumption
    | with_reducible exact fun p hp => m0 p (subs_of rfl p hp)
    | with_reducible apply frame_modCourier
    | with_reducible apply frame_startPort
    | with_reducible apply Frame.ite
    | (intro _ _ _)
    | split
    | dsimp only
    | exact Frame.trans h0 (fun p => by cases p <;> first | exact .inr rfl | exact .inl (m0 _ (by decide)))

theorem frame_crLinkDown {L0 : List Part} {o0 : Block} (n : Nat) {b : Block} (h0 : Frame L0 o0 b) (m0 : ∀ p ∈ ([.ledger, .stop, .dbg, .mgmt, .mail, .fleet, .parcel, .post, .cores, .offices, .routers, .couriers] : List Part), p ∈ L0) :
    Frame L0 o0 (crLinkDown n b) := by
  unfold crLinkDown
  repeat' first
    | with_reducible assumption
    | with_reducible exact fun p hp => m0 p (subs_of rfl p hp)
    | with_reducible apply frame_modCourier
    | with_reducible apply frame_portStop
    | with_reducible apply Frame.ite
    | (intro _ _ _)
    | split
    | dsimp only
    | exact Frame.trans h0 (fun p => by cases p <;> first | exact .inr rfl | exact .inl (m0 _ (by decide)))

theorem frame_crWriteResponse {L0 : List Part} {o0 : Block} (n : Nat) (id : Nat) (resp : Nat) {b : Block} (h0 : Frame L0 o0 b) (m0 : ∀ p ∈ ([.ledger, .stop, .dbg, .mgmt, .mail, .fleet, .parcel, .post, .couriers] : List Part), p ∈ L0) :
    Frame L0 o0 (crWriteResponse n id resp b) := by
  unfold crWriteResponse
  repeat' first
    | with_reducible assumption
    | with_reducible exact fun p hp => m0 p (subs_of rfl p hp)
    | with_reducible apply frame_xferEnd
    | with_reducible apply Frame.ite
    | (intro _ _ _)
    | split
    | dsimp only
    | exact Frame.trans h0 (fun p => by cases p <;> first | exact .inr rfl | exact .inl (m0 _ (by decide)))

theorem frame_crReadBeat {L0 : List Part} {o0 : Block} (n : Nat) (id : Nat) (data : BitVec 2048) (par : Nat) (last : Bool) (resp : Nat) {b : Block} (h0 : Frame L0 o0 b) (m0 : ∀ p ∈ ([.ledger, .stop, .dbg, .mgmt, .mail, .fleet, .parcel, .post, .couriers] : List Part), p ∈ L0) :
    Frame L0 o0 (crReadBeat n id data par last resp b) := by
  unfold crReadBeat
  repeat' first
    | with_reducible assumption
    | with_reducible exact fun p hp => m0 p (subs_of rfl p hp)
    | with_reducible apply frame_postEvent
    | with_reducible apply frame_xferEnd
    | with_reducible apply frame_modCourier
    | with_reducible apply Frame.ite
    | (intro _ _ _)
    | split
    | dsimp only
    | exact Frame.trans h0 (fun p => by cases p <;> first | exact .inr rfl | exact .inl (m0 _ (by decide)))

theorem frame_loadLane {L0 : List Part} {o0 : Block} (n : Nat) (vc : Nat) {b : Block} (h0 : Frame L0 o0 b) (m0 : ∀ p ∈ ([.post, .cores, .offices, .routers, .couriers] : List Part), p ∈ L0) :
    Frame L0 o0 (loadLane n vc b) := by
  unfold loadLane
  repeat' first
    | with_reducible assumption
    | with_reducible exact fun p hp => m0 p (subs_of rfl p hp)
    | with_reducible apply frame_reportTo
    | with_reducible apply frame_modCourier
    | with_reducible apply Frame.ite
    | (intro _ _ _)
    | split
    | dsimp only
    | exact Frame.trans h0 (fun p => by cases p <;> first | exact .inr rfl | exact .inl (m0 _ (by decide)))

theorem frame_crFlitTransmit {L0 : List Part} {o0 : Block} (n : Nat) (vc : Nat) {b : Block} (h0 : Frame L0 o0 b) (m0 : ∀ p ∈ ([.post, .cores, .offices, .routers, .couriers] : List Part), p ∈ L0) :
    Frame L0 o0 (crFlitTransmit n vc b) := by
  unfold crFlitTransmit
  repeat' first
    | with_reducible assumption
    | with_reducible exact fun p hp => m0 p (subs_of rfl p hp)
    | with_reducible apply frame_loadLane
    | with_reducible apply frame_modCourier
    | with_reducible apply Frame.ite
    | (intro _ _ _)
    | split
    | dsimp only
    | exact Frame.trans h0 (fun p => by cases p <;> first | exact .inr rfl | exact .inl (m0 _ (by decide)))

theorem frame_crCreditReturn {L0 : List Part} {o0 : Block} (n : Nat) (vc : Nat) {b : Block} (h0 : Frame L0 o0 b) (m0 : ∀ p ∈ ([.couriers] : List Part), p ∈ L0) :
    Frame L0 o0 (crCreditReturn n vc b) := by
  unfold crCreditReturn
  repeat' first
    | with_reducible assumption
    | with_reducible exact fun p hp => m0 p (subs_of rfl p hp)
    | with_reducible apply frame_modCourier
    | with_reducible apply Frame.ite
    | (intro _ _ _)
    | split
    | dsimp only
    | exact Frame.trans h0 (fun p => by cases p <;> first | exact .inr rfl | exact .inl (m0 _ (by decide)))

theorem frame_crFlitReceive {L0 : List Part} {o0 : Block} (n : Nat) (vc : Nat) (f : CourierFlit) {b : Block} (h0 : Frame L0 o0 b) (m0 : ∀ p ∈ ([.dbg, .mgmt, .mail, .couriers] : List Part), p ∈ L0) :
    Frame L0 o0 (crFlitReceive n vc f b) := by
  unfold crFlitReceive
  repeat' first
    | with_reducible assumption
    | with_reducible exact fun p hp => m0 p (subs_of rfl p hp)
    | with_reducible apply frame_modCourier
    | with_reducible apply frame_postEvent
    | with_reducible apply Frame.ite
    | (intro _ _ _)
    | split
    | dsimp only
    | exact Frame.trans h0 (fun p => by cases p <;> first | exact .inr rfl | exact .inl (m0 _ (by decide)))

theorem frame_drainRx {L0 : List Part} {o0 : Block} (n : Nat) (vc : Nat) (k : Nat) {b : Block} (h0 : Frame L0 o0 b) (m0 : ∀ p ∈ ([.couriers] : List Part), p ∈ L0) :
    Frame L0 o0 (drainRx n vc k b) := by
  unfold drainRx
  repeat' first
    | with_reducible assumption
    | with_reducible exact fun p hp => m0 p (subs_of rfl p hp)
    | with_reducible apply frame_modCourier
    | with_reducible apply Frame.ite
    | (intro _ _ _)
    | split
    | dsimp only
    | exact Frame.trans h0 (fun p => by cases p <;> first | exact .inr rfl | exact .inl (m0 _ (by decide)))

theorem frame_fleetDrop {L0 : List Part} {o0 : Block} (n : Nat) (key : Nat) (code : Nat) {b : Block} (h0 : Frame L0 o0 b) (m0 : ∀ p ∈ ([.dbg, .mgmt, .mail, .fleet] : List Part), p ∈ L0) :
    Frame L0 o0 (fleetDrop n key code b) := by
  unfold fleetDrop
  repeat' first
    | with_reducible assumption
    | with_reducible exact fun p hp => m0 p (subs_of rfl p hp)
    | with_reducible apply frame_postEvent
    | with_reducible apply frame_modFleet
    | with_reducible apply Frame.ite
    | (intro _ _ _)
    | split
    | dsimp only
    | exact Frame.trans h0 (fun p => by cases p <;> first | exact .inr rfl | exact .inl (m0 _ (by decide)))

theorem frame_claimSlot {L0 : List Part} {o0 : Block} (port : Nat) (lane : Nat) (src : Nat) {b : Block} (h0 : Frame L0 o0 b) (m0 : ∀ p ∈ ([.couriers] : List Part), p ∈ L0) :
    Frame L0 o0 (claimSlot port lane src b) := by
  unfold claimSlot
  repeat' first
    | with_reducible assumption
    | with_reducible exact fun p hp => m0 p (subs_of rfl p hp)
    | with_reducible apply frame_modCourier
    | with_reducible apply Frame.ite
    | (intro _ _ _)
    | split
    | dsimp only
    | exact Frame.trans h0 (fun p => by cases p <;> first | exact .inr rfl | exact .inl (m0 _ (by decide)))

theorem frame_modDlv {L0 : List Part} {o0 : Block} (n : Nat) (cls : Nat) (f : Delivery → Delivery) {b : Block} (h0 : Frame L0 o0 b) (m0 : ∀ p ∈ ([.couriers] : List Part), p ∈ L0) :
    Frame L0 o0 (modDlv n cls f b) := by
  unfold modDlv
  repeat' first
    | with_reducible assumption
    | with_reducible exact fun p hp => m0 p (subs_of rfl p hp)
    | with_reducible apply frame_modCourier
    | with_reducible apply Frame.ite
    | (intro _ _ _)
    | split
    | dsimp only
    | exact Frame.trans h0 (fun p => by cases p <;> first | exact .inr rfl | exact .inl (m0 _ (by decide)))

theorem frame_fleetOnward {L0 : List Part} {o0 : Block} (n : Nat) (vc : Nat) (hdr : Flit) (pl : List Flit) (fcrc : BitVec 32) {b : Block} {c : Block} (e : fleetOnward n vc hdr pl fcrc b = some c) (h0 : Frame L0 o0 b) (m0 : ∀ p ∈ ([.dbg, .mgmt, .mail, .fleet, .post, .cores, .offices, .routers, .couriers] : List Part), p ∈ L0) :
    Frame L0 o0 c := by
  unfold fleetOnward at e
  dsimp only at e
  repeat' split at e
  all_goals first
    | (obtain rfl := Option.some.inj e)
    | (exact absurd e (by simp))
  repeat' first
    | with_reducible assumption
    | with_reducible exact fun p hp => m0 p (subs_of rfl p hp)
    | with_reducible apply frame_modCourier
    | with_reducible apply frame_fleetDrop
    | with_reducible apply frame_sendPktL
    | with_reducible apply frame_claimSlot
    | with_reducible apply frame_modDlv
    | with_reducible apply Frame.ite
    | split
    | dsimp only

theorem frame_fleetPacketReceive {L0 : List Part} {o0 : Block} (n : Nat) (vc : Nat) {b : Block} (h0 : Frame L0 o0 b) (m0 : ∀ p ∈ ([.dbg, .mgmt, .mail, .fleet, .post, .cores, .offices, .routers, .couriers] : List Part), p ∈ L0) :
    Frame L0 o0 (fleetPacketReceive n vc b) := by
  unfold fleetPacketReceive
  refine Frame.ite h0 ?_
  split
  · exact h0
  · split
    · exact frame_drainRx _ _ _ (frame_modCourier _ _ h0 (fun p hp => m0 p (subs_of rfl p hp))) (fun p hp => m0 p (subs_of rfl p hp))
    · exact frame_drainRx _ _ _ (frame_fleetDrop _ _ _ h0 (fun p hp => m0 p (subs_of rfl p hp))) (fun p hp => m0 p (subs_of rfl p hp))
    · split
      · exact h0
      · rename_i e
        exact frame_drainRx _ _ _ (frame_fleetOnward _ _ _ _ _ e h0 (fun p hp => m0 p (subs_of rfl p hp))) (fun p hp => m0 p (subs_of rfl p hp))

theorem frame_reportDlv {L0 : List Part} {o0 : Block} (n : Nat) {b : Block} (h0 : Frame L0 o0 b) (m0 : ∀ p ∈ ([.post] : List Part), p ∈ L0) :
    Frame L0 o0 (reportDlv n b) := by
  unfold reportDlv
  repeat' first
    | with_reducible assumption
    | with_reducible exact fun p hp => m0 p (subs_of rfl p hp)
    | with_reducible apply frame_sendPktHo
    | with_reducible apply Frame.ite
    | (intro _ _ _)
    | split
    | dsimp only
    | exact Frame.trans h0 (fun p => by cases p <;> first | exact .inr rfl | exact .inl (m0 _ (by decide)))

theorem frame_takeReport {L0 : List Part} {o0 : Block} (port : Nat) (src : Nat) (f : Nat) {b : Block} (h0 : Frame L0 o0 b) (m0 : ∀ p ∈ ([.couriers] : List Part), p ∈ L0) :
    Frame L0 o0 (takeReport port src f b) := by
  unfold takeReport
  repeat' first
    | with_reducible assumption
    | with_reducible exact fun p hp => m0 p (subs_of rfl p hp)
    | with_reducible apply frame_modCourier
    | with_reducible apply Frame.ite
    | (intro _ _ _)
    | split
    | dsimp only
    | exact Frame.trans h0 (fun p => by cases p <;> first | exact .inr rfl | exact .inl (m0 _ (by decide)))

theorem frame_takeDlv {L0 : List Part} {o0 : Block} (n : Nat) (f : Nat) {b : Block} (h0 : Frame L0 o0 b) (m0 : ∀ p ∈ ([.couriers] : List Part), p ∈ L0) :
    Frame L0 o0 (takeDlv n f b) := by
  unfold takeDlv
  repeat' first
    | with_reducible assumption
    | with_reducible exact fun p hp => m0 p (subs_of rfl p hp)
    | with_reducible apply frame_modDlv
    | with_reducible apply Frame.ite
    | (intro _ _ _)
    | split
    | dsimp only
    | exact Frame.trans h0 (fun p => by cases p <;> first | exact .inr rfl | exact .inl (m0 _ (by decide)))

theorem frame_transitReport {L0 : List Part} {o0 : Block} (n : Nat) {b : Block} (h0 : Frame L0 o0 b) (m0 : ∀ p ∈ ([.post, .cores, .offices, .routers, .couriers] : List Part), p ∈ L0) :
    Frame L0 o0 (transitReport n b) := by
  unfold transitReport
  repeat' first
    | with_reducible assumption
    | with_reducible exact fun p hp => m0 p (subs_of rfl p hp)
    | with_reducible apply Frame.forEach1
    | with_reducible apply frame_reportTo
    | with_reducible apply frame_reportDlv
    | with_reducible apply Frame.ite
    | (intro _ _ _)
    | split
    | dsimp only
    | exact Frame.trans h0 (fun p => by cases p <;> first | exact .inr rfl | exact .inl (m0 _ (by decide)))

theorem frame_dlvLost {L0 : List Part} {o0 : Block} (n : Nat) (cls : Nat) {b : Block} (h0 : Frame L0 o0 b) (m0 : ∀ p ∈ ([.pm, .dbg, .mgmt, .mail, .fleet, .couriers] : List Part), p ∈ L0) :
    Frame L0 o0 (dlvLost n cls b) := by
  unfold dlvLost
  repeat' first
    | with_reducible assumption
    | with_reducible exact fun p hp => m0 p (subs_of rfl p hp)
    | with_reducible apply frame_advTo
    | with_reducible apply frame_modDlv
    | with_reducible apply frame_postEvent
    | with_reducible apply frame_modFleet
    | with_reducible apply Frame.ite
    | (intro _ _ _)
    | split
    | dsimp only
    | exact Frame.trans h0 (fun p => by cases p <;> first | exact .inr rfl | exact .inl (m0 _ (by decide)))

theorem frame_transitLost {L0 : List Part} {o0 : Block} (n : Nat) (vc : Nat) (src : Nat) {b : Block} (h0 : Frame L0 o0 b) (m0 : ∀ p ∈ ([.pm, .dbg, .mgmt, .mail, .fleet, .couriers] : List Part), p ∈ L0) :
    Frame L0 o0 (transitLost n vc src b) := by
  unfold transitLost
  repeat' first
    | with_reducible assumption
    | with_reducible exact fun p hp => m0 p (subs_of rfl p hp)
    | with_reducible apply frame_dlvLost
    | with_reducible apply frame_advTo
    | with_reducible apply frame_modCourier
    | with_reducible apply frame_postEvent
    | with_reducible apply frame_modFleet
    | with_reducible apply Frame.ite
    | (intro _ _ _)
    | split
    | dsimp only
    | exact Frame.trans h0 (fun p => by cases p <;> first | exact .inr rfl | exact .inl (m0 _ (by decide)))

/-! ### Fleet -/

theorem frame_reselect {L0 : List Part} {o0 : Block} {b : Block} (h0 : Frame L0 o0 b) (m0 : ∀ p ∈ ([.dbg, .mgmt, .mail, .parcel] : List Part), p ∈ L0) :
    Frame L0 o0 (reselect b) := by
  unfold reselect
  repeat' first
    | with_reducible assumption
    | with_reducible exact fun p hp => m0 p (subs_of rfl p hp)
    | with_reducible apply frame_selectHolders
    | with_reducible apply Frame.ite
    | (intro _ _ _)
    | split
    | dsimp only
    | exact Frame.trans h0 (fun p => by cases p <;> first | exact .inr rfl | exact .inl (m0 _ (by decide)))

theorem frame_modPartner {L0 : List Part} {o0 : Block} (w : Nat) (f : Partner → Partner) {b : Block} (h0 : Frame L0 o0 b) (m0 : ∀ p ∈ ([.fleet] : List Part), p ∈ L0) :
    Frame L0 o0 (modPartner w f b) := by
  unfold modPartner
  repeat' first
    | with_reducible assumption
    | with_reducible exact fun p hp => m0 p (subs_of rfl p hp)
    | with_reducible apply frame_modFleet
    | with_reducible apply Frame.ite
    | (intro _ _ _)
    | split
    | dsimp only
    | exact Frame.trans h0 (fun p => by cases p <;> first | exact .inr rfl | exact .inl (m0 _ (by decide)))

theorem frame_heardFrom {L0 : List Part} {o0 : Block} (w : Nat) {b : Block} (h0 : Frame L0 o0 b) (m0 : ∀ p ∈ ([.dbg, .mgmt, .mail, .fleet] : List Part), p ∈ L0) :
    Frame L0 o0 (heardFrom w b) := by
  unfold heardFrom
  repeat' first
    | with_reducible assumption
    | with_reducible exact fun p hp => m0 p (subs_of rfl p hp)
    | with_reducible apply frame_modPartner
    | with_reducible apply frame_hoEvent
    | with_reducible apply Frame.ite
    | (intro _ _ _)
    | split
    | dsimp only
    | exact Frame.trans h0 (fun p => by cases p <;> first | exact .inr rfl | exact .inl (m0 _ (by decide)))

theorem frame_partnerStale {L0 : List Part} {o0 : Block} (w : Nat) {b : Block} (h0 : Frame L0 o0 b) (m0 : ∀ p ∈ ([.pm, .ledger, .stop, .dbg, .mgmt, .mail, .fleet, .parcel, .post] : List Part), p ∈ L0) :
    Frame L0 o0 (partnerStale w b) := by
  unfold partnerStale
  repeat' first
    | with_reducible assumption
    | with_reducible exact fun p hp => m0 p (subs_of rfl p hp)
    | with_reducible apply frame_advTo
    | with_reducible apply frame_hoEvent
    | with_reducible apply frame_modPartner
    | with_reducible apply frame_failCopy
    | with_reducible apply frame_failRerep
    | with_reducible apply frame_reselect
    | with_reducible apply Frame.ite
    | (intro _ _ _)
    | split
    | dsimp only
    | exact Frame.trans h0 (fun p => by cases p <;> first | exact .inr rfl | exact .inl (m0 _ (by decide)))

theorem frame_partnerRemove {L0 : List Part} {o0 : Block} (w : Nat) {b : Block} (h0 : Frame L0 o0 b) (m0 : ∀ p ∈ ([.pm, .fleet] : List Part), p ∈ L0) :
    Frame L0 o0 (partnerRemove w b) := by
  unfold partnerRemove
  repeat' first
    | with_reducible assumption
    | with_reducible exact fun p hp => m0 p (subs_of rfl p hp)
    | with_reducible apply frame_advTo
    | with_reducible apply frame_modFleet
    | with_reducible apply Frame.ite
    | (intro _ _ _)
    | split
    | dsimp only
    | exact Frame.trans h0 (fun p => by cases p <;> first | exact .inr rfl | exact .inl (m0 _ (by decide)))

theorem frame_helloPeriodic {L0 : List Part} {o0 : Block} {b : Block} (h0 : Frame L0 o0 b) (m0 : ∀ p ∈ ([.pm, .mail, .fleet, .post] : List Part), p ∈ L0) :
    Frame L0 o0 (helloPeriodic b) := by
  unfold helloPeriodic
  repeat' first
    | with_reducible assumption
    | with_reducible exact fun p hp => m0 p (subs_of rfl p hp)
    | with_reducible apply frame_advTo
    | with_reducible apply frame_modFleet
    | with_reducible apply Frame.forEach1
    | with_reducible apply frame_sendHello
    | with_reducible apply frame_sendLetter
    | with_reducible apply Frame.ite
    | (intro _ _ _)
    | split
    | dsimp only
    | exact Frame.trans h0 (fun p => by cases p <;> first | exact .inr rfl | exact .inl (m0 _ (by decide)))

theorem frame_freeDlv {L0 : List Part} {o0 : Block} (n : Nat) (cls : Nat) (k : Nat) {b : Block} (h0 : Frame L0 o0 b) (m0 : ∀ p ∈ ([.post, .couriers] : List Part), p ∈ L0) :
    Frame L0 o0 (freeDlv n cls k b) := by
  unfold freeDlv
  repeat' first
    | with_reducible assumption
    | with_reducible exact fun p hp => m0 p (subs_of rfl p hp)
    | with_reducible apply frame_reportDlv
    | with_reducible apply frame_modDlv
    | with_reducible apply Frame.ite
    | (intro _ _ _)
    | split
    | dsimp only
    | exact Frame.trans h0 (fun p => by cases p <;> first | exact .inr rfl | exact .inl (m0 _ (by decide)))

theorem frame_giveCredits {L0 : List Part} {o0 : Block} (m : FleetMsg) {b : Block} (h0 : Frame L0 o0 b) (m0 : ∀ p ∈ ([.post, .couriers] : List Part), p ∈ L0) :
    Frame L0 o0 (giveCredits m b) := by
  unfold giveCredits
  repeat' first
    | with_reducible assumption
    | with_reducible exact fun p hp => m0 p (subs_of rfl p hp)
    | with_reducible apply frame_freeDlv
    | with_reducible apply Frame.ite
    | (intro _ _ _)
    | split
    | dsimp only
    | exact Frame.trans h0 (fun p => by cases p <;> first | exact .inr rfl | exact .inl (m0 _ (by decide)))

theorem frame_queueMsg {L0 : List Part} {o0 : Block} (m : FleetMsg) {b : Block} (h0 : Frame L0 o0 b) (m0 : ∀ p ∈ ([.dbg, .mgmt, .mail, .fleet, .post, .couriers] : List Part), p ∈ L0) :
    Frame L0 o0 (queueMsg m b) := by
  unfold queueMsg
  repeat' first
    | with_reducible assumption
    | with_reducible exact fun p hp => m0 p (subs_of rfl p hp)
    | with_reducible apply frame_deadLetter
    | with_reducible apply frame_sendReply
    | with_reducible apply frame_giveCredits
    | with_reducible apply frame_modFleet
    | with_reducible apply frame_hoEvent
    | with_reducible apply Frame.ite
    | (intro _ _ _)
    | split
    | dsimp only
    | exact Frame.trans h0 (fun p => by cases p <;> first | exact .inr rfl | exact .inl (m0 _ (by decide)))

theorem frame_fleetArrive {L0 : List Part} {o0 : Block} (port : Nat) (p : Packet) {b : Block} (h0 : Frame L0 o0 b) (m0 : ∀ p ∈ ([.dbg, .mgmt, .mail, .fleet, .post, .couriers] : List Part), p ∈ L0) :
    Frame L0 o0 (fleetArrive port p b) := by
  unfold fleetArrive
  repeat' first
    | with_reducible assumption
    | with_reducible exact fun p hp => m0 p (subs_of rfl p hp)
    | with_reducible apply frame_modDlv
    | with_reducible apply frame_reportDlv
    | with_reducible apply frame_freeDlv
    | with_reducible apply frame_modFleet
    | with_reducible apply frame_hoEvent
    | with_reducible apply frame_heardFrom
    | with_reducible apply frame_queueMsg
    | with_reducible apply Frame.ite
    | (intro _ _ _)
    | split
    | dsimp only
    | exact Frame.trans h0 (fun p => by cases p <;> first | exact .inr rfl | exact .inl (m0 _ (by decide)))

theorem frame_fragmentTimeout {L0 : List Part} {o0 : Block} (src : Nat) (reqSeq : Nat) {b : Block} (h0 : Frame L0 o0 b) (m0 : ∀ p ∈ ([.pm, .fleet, .post, .couriers] : List Part), p ∈ L0) :
    Frame L0 o0 (fragmentTimeout src reqSeq b) := by
  unfold fragmentTimeout
  repeat' first
    | with_reducible assumption
    | with_reducible exact fun p hp => m0 p (subs_of rfl p hp)
    | with_reducible apply frame_giveCredits
    | with_reducible apply frame_advTo
    | with_reducible apply frame_modFleet
    | with_reducible apply Frame.ite
    | (intro _ _ _)
    | split
    | dsimp only
    | exact Frame.trans h0 (fun p => by cases p <;> first | exact .inr rfl | exact .inl (m0 _ (by decide)))

theorem frame_takeRequest {L0 : List Part} {o0 : Block} (m : FleetMsg) {b : Block} (h0 : Frame L0 o0 b) (m0 : ∀ p ∈ ([.fleet, .post, .couriers] : List Part), p ∈ L0) :
    Frame L0 o0 (takeRequest m b) := by
  unfold takeRequest
  repeat' first
    | with_reducible assumption
    | with_reducible exact fun p hp => m0 p (subs_of rfl p hp)
    | with_reducible apply frame_giveCredits
    | with_reducible apply frame_modFleet
    | with_reducible apply Frame.ite
    | (intro _ _ _)
    | split
    | dsimp only
    | exact Frame.trans h0 (fun p => by cases p <;> first | exact .inr rfl | exact .inl (m0 _ (by decide)))

theorem frame_takeForward {L0 : List Part} {o0 : Block} (m : FleetMsg) {b : Block} (h0 : Frame L0 o0 b) (m0 : ∀ p ∈ ([.fleet, .post, .couriers] : List Part), p ∈ L0) :
    Frame L0 o0 (takeForward m b) := by
  unfold takeForward
  repeat' first
    | with_reducible assumption
    | with_reducible exact fun p hp => m0 p (subs_of rfl p hp)
    | with_reducible apply frame_giveCredits
    | with_reducible apply frame_modFleet
    | with_reducible apply Frame.ite
    | (intro _ _ _)
    | split
    | dsimp only
    | exact Frame.trans h0 (fun p => by cases p <;> first | exact .inr rfl | exact .inl (m0 _ (by decide)))

theorem frame_takeReply {L0 : List Part} {o0 : Block} (m : FleetMsg) {b : Block} (h0 : Frame L0 o0 b) (m0 : ∀ p ∈ ([.fleet] : List Part), p ∈ L0) :
    Frame L0 o0 (takeReply m b) := by
  unfold takeReply
  repeat' first
    | with_reducible assumption
    | with_reducible exact fun p hp => m0 p (subs_of rfl p hp)
    | with_reducible apply frame_modFleet
    | with_reducible apply Frame.ite
    | (intro _ _ _)
    | split
    | dsimp only
    | exact Frame.trans h0 (fun p => by cases p <;> first | exact .inr rfl | exact .inl (m0 _ (by decide)))

theorem frame_refuseMsg {L0 : List Part} {o0 : Block} (m : FleetMsg) (reason : Nat) {b : Block} (h0 : Frame L0 o0 b) (m0 : ∀ p ∈ ([.post] : List Part), p ∈ L0) :
    Frame L0 o0 (refuseMsg m reason b) := by
  unfold refuseMsg
  repeat' first
    | with_reducible assumption
    | with_reducible exact fun p hp => m0 p (subs_of rfl p hp)
    | with_reducible apply frame_sendReply
    | with_reducible apply Frame.ite
    | (intro _ _ _)
    | split
    | dsimp only
    | exact Frame.trans h0 (fun p => by cases p <;> first | exact .inr rfl | exact .inl (m0 _ (by decide)))

theorem frame_freeReply {L0 : List Part} {o0 : Block} (k : Nat) {b : Block} (h0 : Frame L0 o0 b) (m0 : ∀ p ∈ ([.fleet] : List Part), p ∈ L0) :
    Frame L0 o0 (freeReply k b) := by
  unfold freeReply
  repeat' first
    | with_reducible assumption
    | with_reducible exact fun p hp => m0 p (subs_of rfl p hp)
    | with_reducible apply frame_modFleet
    | with_reducible apply Frame.ite
    | (intro _ _ _)
    | split
    | dsimp only
    | exact Frame.trans h0 (fun p => by cases p <;> first | exact .inr rfl | exact .inl (m0 _ (by decide)))

theorem frame_partnerHello {L0 : List Part} {o0 : Block} (src : Nat) (h : Nat) (reason : Nat) {b : Block} (h0 : Frame L0 o0 b) (m0 : ∀ p ∈ ([.dbg, .mgmt, .mail, .fleet, .parcel] : List Part), p ∈ L0) :
    Frame L0 o0 (partnerHello src h reason b) := by
  unfold partnerHello
  repeat' first
    | with_reducible assumption
    | with_reducible exact fun p hp => m0 p (subs_of rfl p hp)
    | with_reducible apply frame_modFleet
    | with_reducible apply frame_hoEvent
    | with_reducible apply frame_reselect
    | with_reducible apply Frame.ite
    | (intro _ _ _)
    | split
    | dsimp only
    | exact Frame.trans h0 (fun p => by cases p <;> first | exact .inr rfl | exact .inl (m0 _ (by decide)))

theorem frame_partnerRefuses {L0 : List Part} {o0 : Block} (w : Nat) (reason : Nat) {b : Block} (h0 : Frame L0 o0 b) (m0 : ∀ p ∈ ([.dbg, .mgmt, .mail, .fleet, .parcel] : List Part), p ∈ L0) :
    Frame L0 o0 (partnerRefuses w reason b) := by
  unfold partnerRefuses
  repeat' first
    | with_reducible assumption
    | with_reducible exact fun p hp => m0 p (subs_of rfl p hp)
    | with_reducible apply frame_modPartner
    | with_reducible apply frame_hoEvent
    | with_reducible apply frame_reselect
    | with_reducible apply Frame.ite
    | (intro _ _ _)
    | split
    | dsimp only
    | exact Frame.trans h0 (fun p => by cases p <;> first | exact .inr rfl | exact .inl (m0 _ (by decide)))

theorem frame_fleetHello {L0 : List Part} {o0 : Block} {b : Block} (h0 : Frame L0 o0 b) (m0 : ∀ p ∈ ([.dbg, .mgmt, .mail, .fleet, .parcel, .post, .couriers] : List Part), p ∈ L0) :
    Frame L0 o0 (fleetHello b) := by
  unfold fleetHello
  repeat' first
    | with_reducible assumption
    | with_reducible exact fun p hp => m0 p (subs_of rfl p hp)
    | with_reducible apply frame_takeRequest
    | with_reducible apply frame_refuseMsg
    | with_reducible apply frame_modFleet
    | with_reducible apply frame_partnerHello
    | with_reducible apply frame_sendReply
    | with_reducible apply frame_takeReply
    | with_reducible apply frame_hoEvent
    | with_reducible apply frame_freeReply
    | with_reducible apply Frame.ite
    | (intro _ _ _)
    | split
    | dsimp only
    | exact Frame.trans h0 (fun p => by cases p <;> first | exact .inr rfl | exact .inl (m0 _ (by decide)))

theorem frame_placeLetter {L0 : List Part} {o0 : Block} (m : FleetMsg) {b : Block} (h0 : Frame L0 o0 b) (m0 : ∀ p ∈ ([.ledger, .mgmt, .mail, .post] : List Part), p ∈ L0) :
    Frame L0 o0 (placeLetter m b).2 := by
  unfold placeLetter
  repeat' first
    | with_reducible assumption
    | with_reducible exact fun p hp => m0 p (subs_of rfl p hp)
    | with_reducible apply frame_pump
    | with_reducible apply frame_modRing
    | with_reducible apply Frame.ite
    | (intro _ _ _)
    | split
    | dsimp only
    | exact Frame.trans h0 (fun p => by cases p <;> first | exact .inr rfl | exact .inl (m0 _ (by decide)))

theorem frame_letterMessage {L0 : List Part} {o0 : Block} {b : Block} (h0 : Frame L0 o0 b) (m0 : ∀ p ∈ ([.ledger, .mgmt, .mail, .fleet, .post, .couriers] : List Part), p ∈ L0) :
    Frame L0 o0 (letterMessage b) := by
  unfold letterMessage
  repeat' first
    | with_reducible assumption
    | with_reducible exact fun p hp => m0 p (subs_of rfl p hp)
    | with_reducible apply frame_refuseMsg
    | with_reducible apply frame_takeRequest
    | with_reducible apply frame_placeLetter
    | with_reducible apply Frame.ite
    | (intro _ _ _)
    | split
    | dsimp only
    | exact Frame.trans h0 (fun p => by cases p <;> first | exact .inr rfl | exact .inl (m0 _ (by decide)))

theorem frame_letterFwd {L0 : List Part} {o0 : Block} {b : Block} (h0 : Frame L0 o0 b) (m0 : ∀ p ∈ ([.ledger, .mgmt, .mail, .fleet, .post, .couriers] : List Part), p ∈ L0) :
    Frame L0 o0 (letterFwd b) := by
  unfold letterFwd
  repeat' first
    | with_reducible assumption
    | with_reducible exact fun p hp => m0 p (subs_of rfl p hp)
    | with_reducible apply frame_refuseMsg
    | with_reducible apply frame_takeForward
    | with_reducible apply frame_placeLetter
    | with_reducible apply frame_takeRequest
    | with_reducible apply frame_sendRequestFrom
    | with_reducible apply Frame.ite
    | (intro _ _ _)
    | split
    | dsimp only
    | exact Frame.trans h0 (fun p => by cases p <;> first | exact .inr rfl | exact .inl (m0 _ (by decide)))

theorem frame_localAnswer {L0 : List Part} {o0 : Block} (r : Nat) (status : Nat) (detail : Nat) {b : Block} (h0 : Frame L0 o0 b) (m0 : ∀ p ∈ ([.ledger, .mgmt, .mail, .post] : List Part), p ∈ L0) :
    Frame L0 o0 (localAnswer r status detail b) := by
  unfold localAnswer
  repeat' first
    | with_reducible assumption
    | with_reducible exact fun p hp => m0 p (subs_of rfl p hp)
    | with_reducible apply frame_pump
    | with_reducible apply frame_advanceHead
    | with_reducible apply frame_putReceipt
    | with_reducible apply Frame.ite
    | (intro _ _ _)
    | split
    | dsimp only
    | exact Frame.trans h0 (fun p => by cases p <;> first | exact .inr rfl | exact .inl (m0 _ (by decide)))

theorem frame_ringLetterRelay {L0 : List Part} {o0 : Block} (r : Nat) {b : Block} (h0 : Frame L0 o0 b) (m0 : ∀ p ∈ ([.ledger, .mgmt, .mail, .fleet, .post] : List Part), p ∈ L0) :
    Frame L0 o0 (ringLetterRelay r b) := by
  unfold ringLetterRelay
  repeat' first
    | with_reducible assumption
    | with_reducible exact fun p hp => m0 p (subs_of rfl p hp)
    | with_reducible apply frame_sendRequest
    | with_reducible apply frame_ensureLive
    | with_reducible apply frame_modRing
    | with_reducible apply frame_localAnswer
    | with_reducible apply Frame.ite
    | (intro _ _ _)
    | split
    | dsimp only
    | exact Frame.trans h0 (fun p => by cases p <;> first | exact .inr rfl | exact .inl (m0 _ (by decide)))

theorem frame_rerepDone {L0 : List Part} {o0 : Block} {b : Block} (h0 : Frame L0 o0 b) (m0 : ∀ p ∈ ([.ledger, .dbg, .mgmt, .mail, .fleet, .parcel, .post] : List Part), p ∈ L0) :
    Frame L0 o0 (rerepDone b) := by
  unfold rerepDone
  repeat' first
    | with_reducible assumption
    | with_reducible exact fun p hp => m0 p (subs_of rfl p hp)
    | with_reducible apply frame_nextRerep
    | with_reducible apply frame_modParcel
    | with_reducible apply frame_releaseOlder
    | with_reducible apply frame_hoEvent
    | with_reducible apply frame_keepGen
    | with_reducible apply Frame.ite
    | (intro _ _ _)
    | split
    | dsimp only
    | exact Frame.trans h0 (fun p => by cases p <;> first | exact .inr rfl | exact .inl (m0 _ (by decide)))

theorem frame_ownReceipt {L0 : List Part} {o0 : Block} (op : Nat) (which : Nat) (ok whole : Bool) (res : List Byte) {b : Block} (h0 : Frame L0 o0 b) (m0 : ∀ p ∈ ([.ledger, .dbg, .mgmt, .mail, .fleet, .parcel, .post, .couriers] : List Part), p ∈ L0) :
    Frame L0 o0 (ownReceipt op which ok whole res b) := by
  unfold ownReceipt
  repeat' first
    | with_reducible assumption
    | with_reducible exact fun p hp => m0 p (subs_of rfl p hp)
    | with_reducible apply frame_pumpRerep
    | with_reducible apply frame_modParcel
    | with_reducible apply frame_failRerep
    | with_reducible apply frame_rerepDone
    | with_reducible apply frame_commitAnswer
    | with_reducible apply Frame.forEach1
    | with_reducible apply frame_startRerep
    | with_reducible apply frame_keepGen
    | with_reducible apply Frame.ite
    | (intro _ _ _)
    | split
    | dsimp only
    | exact Frame.trans h0 (fun p => by cases p <;> first | exact .inr rfl | exact .inl (m0 _ (by decide)))

theorem frame_receiptMessage {L0 : List Part} {o0 : Block} {b : Block} (h0 : Frame L0 o0 b) (m0 : ∀ p ∈ ([.ledger, .dbg, .mgmt, .mail, .fleet, .parcel, .post, .couriers] : List Part), p ∈ L0) :
    Frame L0 o0 (receiptMessage b) := by
  unfold receiptMessage
  repeat' first
    | with_reducible assumption
    | with_reducible exact fun p hp => m0 p (subs_of rfl p hp)
    | with_reducible apply frame_takeReply
    | with_reducible apply frame_hoEvent
    | with_reducible apply frame_modFleet
    | with_reducible apply frame_freeReply
    | with_reducible apply frame_sendReply
    | with_reducible apply frame_pump
    | with_reducible apply frame_advanceHead
    | with_reducible apply frame_putReceipt
    | with_reducible apply frame_localAnswer
    | with_reducible apply frame_ownReceipt
    | with_reducible apply frame_partnerRefuses
    | with_reducible apply frame_modPartner
    | with_reducible apply Frame.ite
    | (intro _ _ _)
    | split
    | dsimp only
    | exact Frame.trans h0 (fun p => by cases p <;> first | exact .inr rfl | exact .inl (m0 _ (by decide)))

theorem frame_replyTimeout {L0 : List Part} {o0 : Block} (k : Nat) {b : Block} (h0 : Frame L0 o0 b) (m0 : ∀ p ∈ ([.pm, .ledger, .mgmt, .mail, .fleet, .parcel, .post] : List Part), p ∈ L0) :
    Frame L0 o0 (replyTimeout k b) := by
  unfold replyTimeout
  repeat' first
    | with_reducible assumption
    | with_reducible exact fun p hp => m0 p (subs_of rfl p hp)
    | with_reducible apply frame_freeReply
    | with_reducible apply frame_advTo
    | with_reducible apply frame_localAnswer
    | with_reducible apply frame_failRerep
    | with_reducible apply Frame.ite
    | (intro _ _ _)
    | split
    | dsimp only
    | exact Frame.trans h0 (fun p => by cases p <;> first | exact .inr rfl | exact .inl (m0 _ (by decide)))

theorem frame_bulkOpen {L0 : List Part} {o0 : Block} {b : Block} (h0 : Frame L0 o0 b) (m0 : ∀ p ∈ ([.fleet, .post, .couriers] : List Part), p ∈ L0) :
    Frame L0 o0 (bulkOpen b) := by
  unfold bulkOpen
  repeat' first
    | with_reducible assumption
    | with_reducible exact fun p hp => m0 p (subs_of rfl p hp)
    | with_reducible apply frame_takeRequest
    | with_reducible apply frame_refuseMsg
    | with_reducible apply frame_sendReply
    | with_reducible apply frame_modFleet
    | with_reducible apply Frame.ite
    | (intro _ _ _)
    | split
    | dsimp only
    | exact Frame.trans h0 (fun p => by cases p <;> first | exact .inr rfl | exact .inl (m0 _ (by decide)))

theorem frame_pumpBulk {L0 : List Part} {o0 : Block} (k : Nat) (z : Nat) {b : Block} (h0 : Frame L0 o0 b)
    (m0 : ∀ p ∈ ([.fleet, .post] : List Part), p ∈ L0) : Frame L0 o0 (pumpBulk k z b) := by
  induction z generalizing b with
  | zero => exact h0
  | succ n ih =>
    unfold pumpBulk
    repeat' first
      | with_reducible assumption
      | with_reducible exact fun p hp => m0 p (subs_of rfl p hp)
      | with_reducible apply ih
      | with_reducible apply frame_modFleet
      | with_reducible apply frame_sendFrags
      | with_reducible apply Frame.ite
      | (intro _ _ _)
      | split
      | dsimp only

theorem frame_bulkGrant {L0 : List Part} {o0 : Block} {b : Block} (h0 : Frame L0 o0 b) (m0 : ∀ p ∈ ([.dbg, .mgmt, .mail, .fleet, .post] : List Part), p ∈ L0) :
    Frame L0 o0 (bulkGrant b) := by
  unfold bulkGrant
  repeat' first
    | with_reducible assumption
    | with_reducible exact fun p hp => m0 p (subs_of rfl p hp)
    | with_reducible apply frame_hoEvent
    | with_reducible apply frame_takeReply
    | with_reducible apply frame_modFleet
    | with_reducible apply frame_freeReply
    | with_reducible apply frame_pumpBulk
    | with_reducible apply Frame.ite
    | (intro _ _ _)
    | split
    | dsimp only
    | exact Frame.trans h0 (fun p => by cases p <;> first | exact .inr rfl | exact .inl (m0 _ (by decide)))

theorem frame_bulkData {L0 : List Part} {o0 : Block} {b : Block} (h0 : Frame L0 o0 b) (m0 : ∀ p ∈ ([.fleet, .post] : List Part), p ∈ L0) :
    Frame L0 o0 (bulkData b) := by
  unfold bulkData
  repeat' first
    | with_reducible assumption
    | with_reducible exact fun p hp => m0 p (subs_of rfl p hp)
    | with_reducible apply frame_modFleet
    | with_reducible apply frame_sendReply
    | with_reducible apply Frame.ite
    | (intro _ _ _)
    | split
    | dsimp only
    | exact Frame.trans h0 (fun p => by cases p <;> first | exact .inr rfl | exact .inl (m0 _ (by decide)))

theorem frame_bulkCredit {L0 : List Part} {o0 : Block} {b : Block} (h0 : Frame L0 o0 b) (m0 : ∀ p ∈ ([.dbg, .mgmt, .mail, .fleet, .post] : List Part), p ∈ L0) :
    Frame L0 o0 (bulkCredit b) := by
  unfold bulkCredit
  repeat' first
    | with_reducible assumption
    | with_reducible exact fun p hp => m0 p (subs_of rfl p hp)
    | with_reducible apply frame_takeReply
    | with_reducible apply frame_hoEvent
    | with_reducible apply frame_modFleet
    | with_reducible apply frame_pumpBulk
    | with_reducible apply Frame.ite
    | (intro _ _ _)
    | split
    | dsimp only
    | exact Frame.trans h0 (fun p => by cases p <;> first | exact .inr rfl | exact .inl (m0 _ (by decide)))

theorem frame_bulkCreditTimeout {L0 : List Part} {o0 : Block} (k : Nat) {b : Block} (h0 : Frame L0 o0 b) (m0 : ∀ p ∈ ([.pm, .fleet] : List Part), p ∈ L0) :
    Frame L0 o0 (bulkCreditTimeout k b) := by
  unfold bulkCreditTimeout
  repeat' first
    | with_reducible assumption
    | with_reducible exact fun p hp => m0 p (subs_of rfl p hp)
    | with_reducible apply frame_advTo
    | with_reducible apply frame_modFleet
    | with_reducible apply Frame.ite
    | (intro _ _ _)
    | split
    | dsimp only
    | exact Frame.trans h0 (fun p => by cases p <;> first | exact .inr rfl | exact .inl (m0 _ (by decide)))

theorem frame_takeColl {L0 : List Part} {o0 : Block} (m : FleetMsg) {b : Block} (h0 : Frame L0 o0 b) (m0 : ∀ p ∈ ([.fleet] : List Part), p ∈ L0) :
    Frame L0 o0 (takeColl m b) := by
  unfold takeColl
  repeat' first
    | with_reducible assumption
    | with_reducible exact fun p hp => m0 p (subs_of rfl p hp)
    | with_reducible apply frame_modFleet
    | with_reducible apply Frame.ite
    | (intro _ _ _)
    | split
    | dsimp only
    | exact Frame.trans h0 (fun p => by cases p <;> first | exact .inr rfl | exact .inl (m0 _ (by decide)))

theorem frame_collUp {L0 : List Part} {o0 : Block} {b : Block} (h0 : Frame L0 o0 b) (m0 : ∀ p ∈ ([.stop, .dbg, .mgmt, .mail, .fleet, .parcel, .post] : List Part), p ∈ L0) :
    Frame L0 o0 (collUp b) := by
  unfold collUp
  repeat' first
    | with_reducible assumption
    | with_reducible exact fun p hp => m0 p (subs_of rfl p hp)
    | with_reducible apply frame_takeColl
    | with_reducible apply frame_collCheck
    | with_reducible apply frame_modFleet
    | with_reducible apply Frame.ite
    | (intro _ _ _)
    | split
    | dsimp only
    | exact Frame.trans h0 (fun p => by cases p <;> first | exact .inr rfl | exact .inl (m0 _ (by decide)))

theorem frame_collDown {L0 : List Part} {o0 : Block} {b : Block} (h0 : Frame L0 o0 b) (m0 : ∀ p ∈ ([.stop, .dbg, .mgmt, .mail, .fleet, .parcel, .post] : List Part), p ∈ L0) :
    Frame L0 o0 (collDown b) := by
  unfold collDown
  repeat' first
    | with_reducible assumption
    | with_reducible exact fun p hp => m0 p (subs_of rfl p hp)
    | with_reducible apply frame_takeColl
    | with_reducible apply frame_collResult
    | with_reducible apply Frame.ite
    | (intro _ _ _)
    | split
    | dsimp only
    | exact Frame.trans h0 (fun p => by cases p <;> first | exact .inr rfl | exact .inl (m0 _ (by decide)))

theorem frame_collTimeout {L0 : List Part} {o0 : Block} (id : Nat) {b : Block} (h0 : Frame L0 o0 b) (m0 : ∀ p ∈ ([.pm, .dbg, .mgmt, .mail, .fleet] : List Part), p ∈ L0) :
    Frame L0 o0 (collTimeout id b) := by
  unfold collTimeout
  repeat' first
    | with_reducible assumption
    | with_reducible exact fun p hp => m0 p (subs_of rfl p hp)
    | with_reducible apply frame_advTo
    | with_reducible apply frame_hoEvent
    | with_reducible apply frame_modFleet
    | with_reducible apply Frame.ite
    | (intro _ _ _)
    | split
    | dsimp only
    | exact Frame.trans h0 (fun p => by cases p <;> first | exact .inr rfl | exact .inl (m0 _ (by decide)))

/-! ### ImageRx -/

theorem frame_modImg {L0 : List Part} {o0 : Block} (i : Nat) (f : CoreImage → CoreImage) {b : Block} (h0 : Frame L0 o0 b) (m0 : ∀ p ∈ ([.cores] : List Part), p ∈ L0) :
    Frame L0 o0 (modImg i f b) := by
  unfold modImg
  repeat' first
    | with_reducible assumption
    | with_reducible exact fun p hp => m0 p (subs_of rfl p hp)
    | with_reducible apply frame_modCore
    | with_reducible apply Frame.ite
    | (intro _ _ _)
    | split
    | dsimp only
    | exact Frame.trans h0 (fun p => by cases p <;> first | exact .inr rfl | exact .inl (m0 _ (by decide)))

theorem frame_imgFail {L0 : List Part} {o0 : Block} (i : Nat) {b : Block} (h0 : Frame L0 o0 b) (m0 : ∀ p ∈ ([.ledger, .bm, .cores] : List Part), p ∈ L0) :
    Frame L0 o0 (imgFail i b) := by
  unfold imgFail
  repeat' first
    | with_reducible assumption
    | with_reducible exact fun p hp => m0 p (subs_of rfl p hp)
    | with_reducible apply frame_modImg
    | with_reducible apply frame_blockCore
    | with_reducible apply Frame.ite
    | (intro _ _ _)
    | split
    | dsimp only
    | exact Frame.trans h0 (fun p => by cases p <;> first | exact .inr rfl | exact .inl (m0 _ (by decide)))

theorem frame_imgSweep {L0 : List Part} {o0 : Block} {b : Block} (h0 : Frame L0 o0 b) (m0 : ∀ p ∈ ([.ledger, .bm, .cores] : List Part), p ∈ L0) :
    Frame L0 o0 (imgSweep b) := by
  unfold imgSweep
  repeat' first
    | with_reducible assumption
    | with_reducible exact fun p hp => m0 p (subs_of rfl p hp)
    | with_reducible apply Frame.forEach1
    | with_reducible apply frame_imgFail
    | with_reducible apply Frame.ite
    | (intro _ _ _)
    | split
    | dsimp only
    | exact Frame.trans h0 (fun p => by cases p <;> first | exact .inr rfl | exact .inl (m0 _ (by decide)))

theorem frame_imgCheck {L0 : List Part} {o0 : Block} {b : Block} (h0 : Frame L0 o0 b) (m0 : ∀ p ∈ ([.ledger, .mgmt, .mail, .image, .post, .bm, .cores] : List Part), p ∈ L0) :
    Frame L0 o0 (imgCheck b) := by
  unfold imgCheck
  repeat' first
    | with_reducible assumption
    | with_reducible exact fun p hp => m0 p (subs_of rfl p hp)
    | with_reducible apply frame_imgSweep
    | with_reducible apply frame_finishOp
    | with_reducible apply frame_modImage
    | with_reducible apply Frame.ite
    | (intro _ _ _)
    | split
    | dsimp only
    | exact Frame.trans h0 (fun p => by cases p <;> first | exact .inr rfl | exact .inl (m0 _ (by decide)))

theorem frame_imagePacket {L0 : List Part} {o0 : Block} (i : Nat) (p : ImagePacket) {b : Block} (h0 : Frame L0 o0 b) (m0 : ∀ p ∈ ([.ledger, .bm, .cores] : List Part), p ∈ L0) :
    Frame L0 o0 (imagePacket i p b) := by
  unfold imagePacket
  repeat' first
    | with_reducible assumption
    | with_reducible exact fun p hp => m0 p (subs_of rfl p hp)
    | with_reducible apply frame_imgSweep
    | with_reducible apply frame_modImg
    | with_reducible apply frame_modCore
    | with_reducible apply Frame.ite
    | (intro _ _ _)
    | split
    | dsimp only
    | exact Frame.trans h0 (fun p => by cases p <;> first | exact .inr rfl | exact .inl (m0 _ (by decide)))

end Sys2Proof.Machine
end

