-- ==== Sys2Proof/Laws/FrameUnits.lean ====
section
/-! SUPPORT. The frame of every operation of routers and Offices on the network, tiles, registers, core control, bring-up and resets: the parts of the block it can change. -/

namespace Sys2Proof.Machine

open Sys2Proof

/-! ### PostNet -/

theorem frame_writeServing {L0 : List Part} {o0 : Block} (r : Nat) (mb : Bool) {b : Block} (h0 : Frame L0 o0 b) (m0 : ∀ p ∈ ([.routers, .nodes] : List Part), p ∈ L0) :
    Frame L0 o0 (writeServing r mb b) := by
  unfold writeServing
  repeat' first
    | with_reducible assumption
    | with_reducible exact fun p hp => m0 p (subs_of rfl p hp)
    | with_reducible apply Frame.forEach1
    | with_reducible apply frame_modRouter
    | with_reducible apply frame_modNode
    | with_reducible apply Frame.ite
    | (intro _ _ _)
    | split
    | dsimp only
    | exact Frame.trans h0 (fun p => by cases p <;> first | exact .inr rfl | exact .inl (m0 _ (by decide)))

theorem frame_officeDead {L0 : List Part} {o0 : Block} (r : Nat) {b : Block} (h0 : Frame L0 o0 b) (m0 : ∀ p ∈ ([.ledger, .bm, .offices] : List Part), p ∈ L0) :
    Frame L0 o0 (officeDead r b) := by
  unfold officeDead
  repeat' first
    | with_reducible assumption
    | with_reducible exact fun p hp => m0 p (subs_of rfl p hp)
    | with_reducible apply Frame.forEach1
    | with_reducible apply frame_unscreen
    | with_reducible apply frame_modOffice
    | with_reducible apply Frame.ite
    | (intro _ _ _)
    | split
    | dsimp only
    | exact Frame.trans h0 (fun p => by cases p <;> first | exact .inr rfl | exact .inl (m0 _ (by decide)))

theorem frame_officeSwitch {L0 : List Part} {o0 : Block} (r : Nat) {b : Block} (h0 : Frame L0 o0 b) (m0 : ∀ p ∈ ([.job, .offices] : List Part), p ∈ L0) :
    Frame L0 o0 (officeSwitch r b) := by
  unfold officeSwitch
  repeat' first
    | with_reducible assumption
    | with_reducible exact fun p hp => m0 p (subs_of rfl p hp)
    | with_reducible apply frame_modJob
    | with_reducible apply frame_addReason
    | with_reducible apply Frame.ite
    | (intro _ _ _)
    | split
    | dsimp only
    | exact Frame.trans h0 (fun p => by cases p <;> first | exact .inr rfl | exact .inl (m0 _ (by decide)))

theorem frame_restartFill {L0 : List Part} {o0 : Block} (r : Nat) (f : Fill) {b : Block} (h0 : Frame L0 o0 b) (m0 : ∀ p ∈ ([.dbg, .mgmt, .mail, .job, .cores, .offices] : List Part), p ∈ L0) :
    Frame L0 o0 (restartFill r f b) := by
  unfold restartFill
  repeat' first
    | with_reducible assumption
    | with_reducible exact fun p hp => m0 p (subs_of rfl p hp)
    | with_reducible apply frame_modJob
    | with_reducible apply frame_queueUnit
    | with_reducible apply frame_modOffice
    | with_reducible apply frame_modCore
    | with_reducible apply Frame.ite
    | (intro _ _ _)
    | split
    | dsimp only
    | exact Frame.trans h0 (fun p => by cases p <;> first | exact .inr rfl | exact .inl (m0 _ (by decide)))

theorem frame_restartFills {L0 : List Part} {o0 : Block} (r : Nat) {b : Block} (h0 : Frame L0 o0 b) (m0 : ∀ p ∈ ([.dbg, .mgmt, .mail, .job, .cores, .offices] : List Part), p ∈ L0) :
    Frame L0 o0 (restartFills r b) := by
  unfold restartFills
  repeat' first
    | with_reducible assumption
    | with_reducible exact fun p hp => m0 p (subs_of rfl p hp)
    | with_reducible apply Frame.forEach1
    | with_reducible apply frame_restartFill
    | with_reducible apply Frame.ite
    | (intro _ _ _)
    | split
    | dsimp only
    | exact Frame.trans h0 (fun p => by cases p <;> first | exact .inr rfl | exact .inl (m0 _ (by decide)))

theorem frame_takeOver {L0 : List Part} {o0 : Block} (r : Nat) {b : Block} (h0 : Frame L0 o0 b) (m0 : ∀ p ∈ ([.ledger, .offices] : List Part), p ∈ L0) :
    Frame L0 o0 (takeOver r b) := by
  unfold takeOver
  repeat' first
    | with_reducible assumption
    | with_reducible exact fun p hp => m0 p (subs_of rfl p hp)
    | with_reducible apply frame_modOffice
    | with_reducible apply frame_modLedger
    | with_reducible apply Frame.ite
    | (intro _ _ _)
    | split
    | dsimp only
    | exact Frame.trans h0 (fun p => by cases p <;> first | exact .inr rfl | exact .inl (m0 _ (by decide)))

theorem frame_failMember {L0 : List Part} {o0 : Block} (r : Nat) (mb : Bool) {b : Block} (h0 : Frame L0 o0 b) (m0 : ∀ p ∈ ([.ledger, .dbg, .mgmt, .mail, .job, .bm, .cores, .offices, .routers, .nodes] : List Part), p ∈ L0) :
    Frame L0 o0 (failMember r mb b) := by
  unfold failMember
  repeat' first
    | with_reducible assumption
    | with_reducible exact fun p hp => m0 p (subs_of rfl p hp)
    | with_reducible apply frame_modOffice
    | with_reducible apply frame_officeSwitch
    | with_reducible apply frame_officeDead
    | with_reducible apply frame_restartFills
    | with_reducible apply frame_writeServing
    | with_reducible apply frame_takeOver
    | with_reducible apply Frame.ite
    | (intro _ _ _)
    | split
    | dsimp only
    | exact Frame.trans h0 (fun p => by cases p <;> first | exact .inr rfl | exact .inl (m0 _ (by decide)))

theorem frame_loseRouter {L0 : List Part} {o0 : Block} (r : Nat) (k : Nat) {b : Block} (h0 : Frame L0 o0 b) (m0 : ∀ p ∈ ([.ledger, .bm, .cores, .offices, .routers] : List Part), p ∈ L0) :
    Frame L0 o0 (loseRouter r k b) := by
  unfold loseRouter
  repeat' first
    | with_reducible assumption
    | with_reducible exact fun p hp => m0 p (subs_of rfl p hp)
    | with_reducible apply frame_modRouter
    | with_reducible apply Frame.forEach1
    | with_reducible apply frame_nameRole
    | with_reducible apply frame_addReason
    | with_reducible apply frame_blockCore
    | with_reducible apply frame_fenceHold
    | with_reducible apply Frame.ite
    | (intro _ _ _)
    | split
    | dsimp only
    | exact Frame.trans h0 (fun p => by cases p <;> first | exact .inr rfl | exact .inl (m0 _ (by decide)))

theorem frame_copyTables {L0 : List Part} {o0 : Block} (ver : Bool) {b : Block} (h0 : Frame L0 o0 b) (m0 : ∀ p ∈ ([.routers, .nodes] : List Part), p ∈ L0) :
    Frame L0 o0 (copyTables ver b) := by
  unfold copyTables
  repeat' first
    | with_reducible assumption
    | with_reducible exact fun p hp => m0 p (subs_of rfl p hp)
    | with_reducible apply frame_allHops
    | with_reducible apply Frame.ite
    | (intro _ _ _)
    | split
    | dsimp only
    | exact Frame.trans h0 (fun p => by cases p <;> first | exact .inr rfl | exact .inl (m0 _ (by decide)))

theorem frame_setAround {L0 : List Part} {o0 : Block} (ver : Bool) (t : Tab (BitVec 128)) (r : Nat) (around : BitVec 128) {b : Block} (h0 : Frame L0 o0 b) (m0 : ∀ p ∈ ([.post, .routers] : List Part), p ∈ L0) :
    Frame L0 o0 (setAround ver t r around b) := by
  unfold setAround
  repeat' first
    | with_reducible assumption
    | with_reducible exact fun p hp => m0 p (subs_of rfl p hp)
    | with_reducible apply frame_writeTables
    | with_reducible apply frame_modPost
    | with_reducible apply Frame.ite
    | (intro _ _ _)
    | split
    | dsimp only
    | exact Frame.trans h0 (fun p => by cases p <;> first | exact .inr rfl | exact .inl (m0 _ (by decide)))

theorem frame_loseFirst {L0 : List Part} {o0 : Block} (r : Nat) (k : Nat) {b : Block} (h0 : Frame L0 o0 b) (m0 : ∀ p ∈ ([.ledger, .post, .bm, .cores, .offices, .routers] : List Part), p ∈ L0) :
    Frame L0 o0 (loseFirst r k b) := by
  unfold loseFirst
  repeat' first
    | with_reducible assumption
    | with_reducible exact fun p hp => m0 p (subs_of rfl p hp)
    | with_reducible apply frame_setAround
    | with_reducible apply frame_loseRouter
    | with_reducible apply Frame.ite
    | (intro _ _ _)
    | split
    | dsimp only
    | exact Frame.trans h0 (fun p => by cases p <;> first | exact .inr rfl | exact .inl (m0 _ (by decide)))

theorem frame_writeAttach {L0 : List Part} {o0 : Block} (ver : Bool) {b : Block} (h0 : Frame L0 o0 b) (m0 : ∀ p ∈ ([.post, .offices, .couriers] : List Part), p ∈ L0) :
    Frame L0 o0 (writeAttach ver b) := by
  unfold writeAttach
  repeat' first
    | with_reducible assumption
    | with_reducible exact fun p hp => m0 p (subs_of rfl p hp)
    | with_reducible apply Frame.forEach1
    | with_reducible apply frame_modOffice
    | with_reducible apply frame_modCourier
    | with_reducible apply frame_modPost
    | with_reducible apply Frame.ite
    | (intro _ _ _)
    | split
    | dsimp only
    | exact Frame.trans h0 (fun p => by cases p <;> first | exact .inr rfl | exact .inl (m0 _ (by decide)))

theorem frame_takeVersion {L0 : List Part} {o0 : Block} (v : Bool) {b : Block} (h0 : Frame L0 o0 b) (m0 : ∀ p ∈ ([.post, .routers, .nodes] : List Part), p ∈ L0) :
    Frame L0 o0 (takeVersion v b) := by
  unfold takeVersion
  repeat' first
    | with_reducible assumption
    | with_reducible exact fun p hp => m0 p (subs_of rfl p hp)
    | with_reducible apply frame_allHops
    | with_reducible apply frame_modPost
    | with_reducible apply Frame.ite
    | (intro _ _ _)
    | split
    | dsimp only
    | exact Frame.trans h0 (fun p => by cases p <;> first | exact .inr rfl | exact .inl (m0 _ (by decide)))

theorem frame_castStage {L0 : List Part} {o0 : Block} (u : Nat) (act : Nat) (id : Nat) (svc : Nat) (content : List Flit) (targets : List Nat) {b : Block} (h0 : Frame L0 o0 b) (m0 : ∀ p ∈ ([.post, .cores, .offices, .routers, .couriers] : List Part), p ∈ L0) :
    Frame L0 o0 (castStage u act id svc content targets b) := by
  unfold castStage
  repeat' first
    | with_reducible assumption
    | with_reducible exact fun p hp => m0 p (subs_of rfl p hp)
    | with_reducible apply frame_modNet
    | with_reducible apply Frame.forEach1
    | with_reducible apply frame_sendPkt
    | with_reducible apply Frame.ite
    | (intro _ _ _)
    | split
    | dsimp only
    | exact Frame.trans h0 (fun p => by cases p <;> first | exact .inr rfl | exact .inl (m0 _ (by decide)))

theorem frame_beginSwap {L0 : List Part} {o0 : Block} (r : Nat) (around : BitVec 128) (away : List Nat) {b : Block} (h0 : Frame L0 o0 b) (m0 : ∀ p ∈ ([.pm, .post, .cores, .offices, .routers, .nodes, .couriers] : List Part), p ∈ L0) :
    Frame L0 o0 (beginSwap r around away b) := by
  unfold beginSwap
  repeat' first
    | with_reducible assumption
    | with_reducible exact fun p hp => m0 p (subs_of rfl p hp)
    | with_reducible apply frame_advTo
    | with_reducible apply frame_writeAttach
    | with_reducible apply frame_setAround
    | with_reducible apply frame_copyTables
    | with_reducible apply Frame.forEach1
    | with_reducible apply frame_modRouter
    | with_reducible apply frame_modNode
    | with_reducible apply frame_castStage
    | with_reducible apply frame_modPost
    | with_reducible apply Frame.ite
    | (intro _ _ _)
    | split
    | dsimp only
    | exact Frame.trans h0 (fun p => by cases p <;> first | exact .inr rfl | exact .inl (m0 _ (by decide)))

theorem frame_tableSwapStart {L0 : List Part} {o0 : Block} (r : Nat) (around : BitVec 128) (away : List Nat) {b : Block} (h0 : Frame L0 o0 b) (m0 : ∀ p ∈ ([.pm, .post, .cores, .offices, .routers, .nodes, .couriers] : List Part), p ∈ L0) :
    Frame L0 o0 (tableSwapStart r around away b) := by
  unfold tableSwapStart
  repeat' first
    | with_reducible assumption
    | with_reducible exact fun p hp => m0 p (subs_of rfl p hp)
    | with_reducible apply frame_modPost
    | with_reducible apply frame_beginSwap
    | with_reducible apply Frame.ite
    | (intro _ _ _)
    | split
    | dsimp only
    | exact Frame.trans h0 (fun p => by cases p <;> first | exact .inr rfl | exact .inl (m0 _ (by decide)))

theorem frame_applyStage {L0 : List Part} {o0 : Block} (u : Nat) (st : Stage) {b : Block} (h0 : Frame L0 o0 b) (m0 : ∀ p ∈ ([.cores, .routers, .nodes, .couriers] : List Part), p ∈ L0) :
    Frame L0 o0 (applyStage u st b) := by
  unfold applyStage
  repeat' first
    | with_reducible assumption
    | with_reducible exact fun p hp => m0 p (subs_of rfl p hp)
    | with_reducible apply frame_modRouter
    | with_reducible apply frame_modNode
    | with_reducible apply frame_modCore
    | with_reducible apply frame_modCourier
    | with_reducible apply Frame.ite
    | (intro _ _ _)
    | split
    | dsimp only
    | exact Frame.trans h0 (fun p => by cases p <;> first | exact .inr rfl | exact .inl (m0 _ (by decide)))

theorem frame_dropStage {L0 : List Part} {o0 : Block} (u : Nat) (id : Nat) {b : Block} (h0 : Frame L0 o0 b) (m0 : ∀ p ∈ ([.post, .cores, .offices, .routers, .nodes, .couriers] : List Part), p ∈ L0) :
    Frame L0 o0 (dropStage u id b) := by
  unfold dropStage
  repeat' first
    | with_reducible assumption
    | with_reducible exact fun p hp => m0 p (subs_of rfl p hp)
    | with_reducible apply frame_modNode
    | with_reducible apply frame_modNet
    | with_reducible apply Frame.ite
    | (intro _ _ _)
    | split
    | dsimp only
    | exact Frame.trans h0 (fun p => by cases p <;> first | exact .inr rfl | exact .inl (m0 _ (by decide)))

theorem frame_stagePartial {L0 : List Part} {o0 : Block} (u : Nat) (x : StageSend) {b : Block} (h0 : Frame L0 o0 b) (m0 : ∀ p ∈ ([.pm, .ledger, .dbg, .mgmt, .mail, .post, .bm, .cores, .offices, .routers, .nodes, .couriers] : List Part), p ∈ L0) :
    Frame L0 o0 (stagePartial u x b) := by
  unfold stagePartial
  repeat' first
    | with_reducible assumption
    | with_reducible exact fun p hp => m0 p (subs_of rfl p hp)
    | with_reducible apply frame_postEvent
    | with_reducible apply Frame.forEach1
    | with_reducible apply frame_failLetterbox
    | with_reducible apply frame_tableSwapStart
    | with_reducible apply Frame.ite
    | (intro _ _ _)
    | split
    | dsimp only
    | exact Frame.trans h0 (fun p => by cases p <;> first | exact .inr rfl | exact .inl (m0 _ (by decide)))

theorem frame_stagedActivation {L0 : List Part} {o0 : Block} (u : Nat) {b : Block} (h0 : Frame L0 o0 b) (m0 : ∀ p ∈ ([.pm, .ledger, .dbg, .mgmt, .mail, .post, .bm, .cores, .offices, .routers, .nodes, .couriers] : List Part), p ∈ L0) :
    Frame L0 o0 (stagedActivation u b) := by
  unfold stagedActivation
  repeat' first
    | with_reducible assumption
    | with_reducible exact fun p hp => m0 p (subs_of rfl p hp)
    | with_reducible apply frame_advTo
    | with_reducible apply frame_applyStage
    | with_reducible apply frame_unitEvent
    | with_reducible apply frame_dropStage
    | with_reducible apply frame_modNet
    | with_reducible apply frame_stagePartial
    | with_reducible apply Frame.ite
    | (intro _ _ _)
    | split
    | dsimp only
    | exact Frame.trans h0 (fun p => by cases p <;> first | exact .inr rfl | exact .inl (m0 _ (by decide)))

theorem frame_tableVersionRetire {L0 : List Part} {o0 : Block} {b : Block} (h0 : Frame L0 o0 b) (m0 : ∀ p ∈ ([.pm, .post, .cores, .offices, .routers, .nodes, .couriers] : List Part), p ∈ L0) :
    Frame L0 o0 (tableVersionRetire b) := by
  unfold tableVersionRetire
  split
  · exact h0
  · rename_i t ht
    have k := fun x => frame_allHops x (frame_advTo (t + 13000) h0 (fun p hp => m0 p (subs_of rfl p hp))) (fun p hp => m0 p (subs_of rfl p hp))
    dsimp only
    split
    · exact frame_modPost _ (k _) (fun p hp => m0 p (subs_of rfl p hp))
    · exact frame_beginSwap _ _ _ (frame_modPost _ (k _) (fun p hp => m0 p (subs_of rfl p hp))) (fun p hp => m0 p (subs_of rfl p hp))

theorem frame_stageAckTimeout {L0 : List Part} {o0 : Block} (u : Nat) (t : Nat) {b : Block} (h0 : Frame L0 o0 b) (m0 : ∀ p ∈ ([.pm, .post, .cores, .offices, .routers, .couriers] : List Part), p ∈ L0) :
    Frame L0 o0 (stageAckTimeout u t b) := by
  unfold stageAckTimeout
  repeat' first
    | with_reducible assumption
    | with_reducible exact fun p hp => m0 p (subs_of rfl p hp)
    | with_reducible apply frame_advTo
    | with_reducible apply frame_modNet
    | with_reducible apply frame_sendPkt
    | with_reducible apply Frame.ite
    | (intro _ _ _)
    | split
    | dsimp only
    | exact Frame.trans h0 (fun p => by cases p <;> first | exact .inr rfl | exact .inl (m0 _ (by decide)))

theorem frame_routerLost {L0 : List Part} {o0 : Block} (r : Nat) (k : Nat) {b : Block} (h0 : Frame L0 o0 b) (m0 : ∀ p ∈ ([.pm, .ledger, .post, .bm, .cores, .offices, .routers, .nodes, .couriers] : List Part), p ∈ L0) :
    Frame L0 o0 (routerLost r k b) := by
  unfold routerLost
  repeat' first
    | with_reducible assumption
    | with_reducible exact fun p hp => m0 p (subs_of rfl p hp)
    | with_reducible apply frame_loseRouter
    | with_reducible apply frame_tableSwapStart
    | with_reducible apply Frame.ite
    | (intro _ _ _)
    | split
    | dsimp only
    | exact Frame.trans h0 (fun p => by cases p <;> first | exact .inr rfl | exact .inl (m0 _ (by decide)))

theorem frame_modHop {L0 : List Part} {o0 : Block} {b : Block} (nd : Bool) (k : Nat) (f : Router → Router) (h0 : Frame L0 o0 b) (m0 : ∀ p ∈ ([.routers, .nodes] : List Part), p ∈ L0) :
    Frame L0 o0 (Block.modHop b nd k f) := by
  unfold Block.modHop
  repeat' first
    | with_reducible assumption
    | with_reducible exact fun p hp => m0 p (subs_of rfl p hp)
    | with_reducible apply frame_modNode
    | with_reducible apply frame_modRouter
    | with_reducible apply Frame.ite
    | (intro _ _ _)
    | split
    | dsimp only
    | exact Frame.trans h0 (fun p => by cases p <;> first | exact .inr rfl | exact .inl (m0 _ (by decide)))

theorem frame_sendOut {L0 : List Part} {o0 : Block} (nd : Bool) (k : Nat) (dir : Nat) (p : Packet) {b : Block} (h0 : Frame L0 o0 b) (m0 : ∀ p ∈ ([.routers, .nodes] : List Part), p ∈ L0) :
    Frame L0 o0 (sendOut nd k dir p b) := by
  unfold sendOut
  repeat' first
    | with_reducible assumption
    | with_reducible exact fun p hp => m0 p (subs_of rfl p hp)
    | with_reducible apply frame_modNode
    | with_reducible apply frame_modRouter
    | with_reducible apply Frame.ite
    | (intro _ _ _)
    | split
    | dsimp only
    | exact Frame.trans h0 (fun p => by cases p <;> first | exact .inr rfl | exact .inl (m0 _ (by decide)))

theorem frame_discard {L0 : List Part} {o0 : Block} (nd : Bool) (k : Nat) (key : Nat) (code : Nat) (h : BitVec 128) {b : Block} (h0 : Frame L0 o0 b) (m0 : ∀ p ∈ ([.offices, .routers, .nodes] : List Part), p ∈ L0) :
    Frame L0 o0 (discard nd k key code h b) := by
  unfold discard
  repeat' first
    | with_reducible assumption
    | with_reducible exact fun p hp => m0 p (subs_of rfl p hp)
    | with_reducible apply frame_modHop
    | with_reducible apply frame_fileEvent
    | with_reducible apply frame_modOffice
    | with_reducible apply Frame.ite
    | (intro _ _ _)
    | split
    | dsimp only
    | exact Frame.trans h0 (fun p => by cases p <;> first | exact .inr rfl | exact .inl (m0 _ (by decide)))

theorem frame_seamDeflect {L0 : List Part} {o0 : Block} (nd : Bool) (k : Nat) (out : Nat) {b : Block} (h0 : Frame L0 o0 b) (m0 : ∀ p ∈ ([.offices, .routers, .nodes] : List Part), p ∈ L0) :
    Frame L0 o0 (seamDeflect nd k out b) := by
  unfold seamDeflect
  repeat' first
    | with_reducible assumption
    | with_reducible exact fun p hp => m0 p (subs_of rfl p hp)
    | with_reducible apply frame_modHop
    | with_reducible apply frame_modOffice
    | with_reducible apply Frame.ite
    | (intro _ _ _)
    | split
    | dsimp only
    | exact Frame.trans h0 (fun p => by cases p <;> first | exact .inr rfl | exact .inl (m0 _ (by decide)))

theorem frame_toTerm {L0 : List Part} {o0 : Block} (via : Nat) (u : Nat) (p : Packet) {b : Block} (h0 : Frame L0 o0 b) (m0 : ∀ p ∈ ([.post, .cores, .offices, .routers, .couriers] : List Part), p ∈ L0) :
    Frame L0 o0 (toTerm via u p b) := by
  unfold toTerm
  repeat' first
    | with_reducible assumption
    | with_reducible exact fun p hp => m0 p (subs_of rfl p hp)
    | with_reducible apply frame_modNet
    | with_reducible apply Frame.ite
    | (intro _ _ _)
    | split
    | dsimp only
    | exact Frame.trans h0 (fun p => by cases p <;> first | exact .inr rfl | exact .inl (m0 _ (by decide)))

theorem frame_arbitrate {L0 : List Part} {o0 : Block} (nd : Bool) (k : Nat) (x : FrameUse × Block) (ip : Packet) (h0 : Frame L0 o0 x.2)
    (m0 : ∀ p ∈ ([.post, .cores, .offices, .routers, .nodes, .couriers] : List Part), p ∈ L0) : Frame L0 o0 (arbitrate nd k x ip).2 := by
  unfold arbitrate
  repeat' first
    | with_reducible assumption
    | with_reducible exact fun p hp => m0 p (subs_of rfl p hp)
    | with_reducible apply frame_discard
    | with_reducible apply frame_toTerm
    | with_reducible apply frame_sendOut
    | with_reducible apply frame_modHop
    | with_reducible apply frame_modOffice
    | with_reducible apply frame_seamDeflect
    | with_reducible apply Frame.ite
    | split
    | dsimp only

theorem frame_arbitrates {L0 : List Part} {o0 : Block} (nd : Bool) (k : Nat) (xs : List Packet) (x : FrameUse × Block) (h0 : Frame L0 o0 x.2)
    (m0 : ∀ p ∈ ([.post, .cores, .offices, .routers, .nodes, .couriers] : List Part), p ∈ L0) : Frame L0 o0 (xs.foldl (arbitrate nd k) x).2 := by
  induction xs generalizing x with
  | nil => exact h0
  | cons y r ih => exact ih _ (frame_arbitrate nd k x y h0 m0)

theorem frame_lookupDiffers {L0 : List Part} {o0 : Block} (u : Nat) (i : Nat) {b : Block} (h0 : Frame L0 o0 b) (m0 : ∀ p ∈ ([.outs, .svc, .ledger, .dbg, .mgmt, .mail, .job, .post, .bm, .cores, .offices, .routers, .nodes, .couriers] : List Part), p ∈ L0) :
    Frame L0 o0 (lookupDiffers u i b) := by
  unfold lookupDiffers
  repeat' first
    | with_reducible assumption
    | with_reducible exact fun p hp => m0 p (subs_of rfl p hp)
    | with_reducible apply frame_modNet
    | with_reducible apply frame_enterSafe
    | with_reducible apply frame_hoEvent
    | with_reducible apply frame_failMember
    | with_reducible apply frame_postEvent
    | with_reducible apply Frame.ite
    | (intro _ _ _)
    | split
    | dsimp only
    | exact Frame.trans h0 (fun p => by cases p <;> first | exact .inr rfl | exact .inl (m0 _ (by decide)))

theorem frame_injectFrom {L0 : List Part} {o0 : Block} (nd : Bool) (k : Nat) (differs : Bool) (u : FrameUse) (src : Nat) {b : Block} (h0 : Frame L0 o0 b) (m0 : ∀ p ∈ ([.outs, .svc, .ledger, .dbg, .mgmt, .mail, .job, .post, .bm, .cores, .offices, .routers, .nodes, .couriers] : List Part), p ∈ L0) :
    Frame L0 o0 (injectFrom nd k differs u src b).2 := by
  unfold injectFrom
  repeat' first
    | with_reducible assumption
    | with_reducible exact fun p hp => m0 p (subs_of rfl p hp)
    | with_reducible apply frame_modNet
    | with_reducible apply frame_claimSlot
    | with_reducible apply frame_lookupDiffers
    | with_reducible apply frame_discard
    | with_reducible apply frame_toTerm
    | with_reducible apply frame_sendOut
    | with_reducible apply Frame.ite
    | (intro _ _ _)
    | split
    | dsimp only
    | exact Frame.trans h0 (fun p => by cases p <;> first | exact .inr rfl | exact .inl (m0 _ (by decide)))

theorem frame_injectRound {L0 : List Part} {o0 : Block} (nd : Bool) (k : Nat) (differs : Bool) (u : FrameUse) (xs : List Nat) {b : Block} (h0 : Frame L0 o0 b)
    (m0 : ∀ p ∈ ([.outs, .svc, .ledger, .dbg, .mgmt, .mail, .job, .post, .bm, .cores, .offices, .routers, .nodes, .couriers] : List Part), p ∈ L0) : Frame L0 o0 (injectRound nd k differs u xs b).2.2 := by
  induction xs generalizing b with
  | nil => exact h0
  | cons y r ih =>
    unfold injectRound
    cases b.placeUnit nd k y with
    | none => exact ih h0
    | some s =>
      have k1 := frame_injectFrom nd k differs u s h0 m0
      dsimp only
      revert k1
      generalize injectFrom nd k differs u s b = z
      intro k1
      split
      · exact ih k1
      · exact k1

theorem frame_injectTurn {L0 : List Part} {o0 : Block} (nd : Bool) (k : Nat) (differs : Bool) (u : FrameUse) {b : Block} (h0 : Frame L0 o0 b) (m0 : ∀ p ∈ ([.outs, .svc, .ledger, .dbg, .mgmt, .mail, .job, .post, .bm, .cores, .offices, .routers, .nodes, .couriers] : List Part), p ∈ L0) :
    Frame L0 o0 (injectTurn nd k differs u b).2.2 := by
  unfold injectTurn
  dsimp only
  repeat' first
    | with_reducible assumption
    | with_reducible exact fun p hp => m0 p (subs_of rfl p hp)
    | with_reducible apply frame_injectRound
    | with_reducible apply frame_injectFrom
    | with_reducible apply frame_modHop
    | with_reducible apply Frame.ite
    | split
    | dsimp only

theorem frame_waitSeams {L0 : List Part} {o0 : Block} (nd : Bool) (k : Nat) {b : Block} (h0 : Frame L0 o0 b) (m0 : ∀ p ∈ ([.cores, .nodes] : List Part), p ∈ L0) :
    Frame L0 o0 (waitSeams nd k b) := by
  unfold waitSeams
  repeat' first
    | with_reducible assumption
    | with_reducible exact fun p hp => m0 p (subs_of rfl p hp)
    | with_reducible apply Frame.forEach1
    | with_reducible apply frame_modNode
    | with_reducible apply frame_modCore
    | with_reducible apply Frame.ite
    | (intro _ _ _)
    | split
    | dsimp only
    | exact Frame.trans h0 (fun p => by cases p <;> first | exact .inr rfl | exact .inl (m0 _ (by decide)))

theorem frame_frameOf {L0 : List Part} {o0 : Block} (nd : Bool) (k : Nat) (differs : Bool) {b : Block} (h0 : Frame L0 o0 b) (m0 : ∀ p ∈ ([.outs, .svc, .ledger, .dbg, .mgmt, .mail, .job, .post, .bm, .cores, .offices, .routers, .nodes, .couriers] : List Part), p ∈ L0) :
    Frame L0 o0 (frameOf nd k differs b) := by
  unfold frameOf
  dsimp only
  repeat' first
    | with_reducible assumption
    | with_reducible exact fun p hp => m0 p (subs_of rfl p hp)
    | with_reducible apply frame_waitSeams
    | with_reducible apply frame_modHop
    | with_reducible apply frame_injectTurn
    | with_reducible apply frame_arbitrates
    | with_reducible apply Frame.ite
    | split
    | dsimp only

theorem frame_routerFrame {L0 : List Part} {o0 : Block} (u : Nat) (differs : Bool) {b : Block} (h0 : Frame L0 o0 b) (m0 : ∀ p ∈ ([.outs, .svc, .ledger, .dbg, .mgmt, .mail, .job, .post, .bm, .cores, .offices, .routers, .nodes, .couriers] : List Part), p ∈ L0) :
    Frame L0 o0 (routerFrame u differs b) := by
  unfold routerFrame
  repeat' first
    | with_reducible assumption
    | with_reducible exact fun p hp => m0 p (subs_of rfl p hp)
    | with_reducible apply frame_frameOf
    | with_reducible apply Frame.ite
    | (intro _ _ _)
    | split
    | dsimp only
    | exact Frame.trans h0 (fun p => by cases p <;> first | exact .inr rfl | exact .inl (m0 _ (by decide)))

theorem frame_seamDeliver {L0 : List Part} {o0 : Block} (u : Nat) (dir : Nat) {b : Block} (h0 : Frame L0 o0 b) (m0 : ∀ p ∈ ([.nodes] : List Part), p ∈ L0) :
    Frame L0 o0 (seamDeliver u dir b) := by
  unfold seamDeliver
  repeat' first
    | with_reducible assumption
    | with_reducible exact fun p hp => m0 p (subs_of rfl p hp)
    | with_reducible apply frame_modNode
    | with_reducible apply Frame.ite
    | (intro _ _ _)
    | split
    | dsimp only
    | exact Frame.trans h0 (fun p => by cases p <;> first | exact .inr rfl | exact .inl (m0 _ (by decide)))

theorem frame_e2eDrop {L0 : List Part} {o0 : Block} (u : Nat) (why : Nat) {b : Block} (h0 : Frame L0 o0 b) (m0 : ∀ p ∈ ([.dbg, .mgmt, .mail, .post, .cores, .offices, .routers, .couriers] : List Part), p ∈ L0) :
    Frame L0 o0 (e2eDrop u why b) := by
  unfold e2eDrop
  repeat' first
    | with_reducible assumption
    | with_reducible exact fun p hp => m0 p (subs_of rfl p hp)
    | with_reducible apply frame_modNet
    | with_reducible apply frame_unitEvent
    | with_reducible apply Frame.ite
    | (intro _ _ _)
    | split
    | dsimp only
    | exact Frame.trans h0 (fun p => by cases p <;> first | exact .inr rfl | exact .inl (m0 _ (by decide)))

theorem frame_returnPkt {L0 : List Part} {o0 : Block} (u : Nat) (p : Packet) (rcode : Nat) (hint : List Flit) {b : Block} (h0 : Frame L0 o0 b) (m0 : ∀ p ∈ ([.post, .cores, .offices, .routers, .couriers] : List Part), p ∈ L0) :
    Frame L0 o0 (returnPkt u p rcode hint b) := by
  unfold returnPkt
  repeat' first
    | with_reducible assumption
    | with_reducible exact fun p hp => m0 p (subs_of rfl p hp)
    | with_reducible apply frame_sendKept
    | with_reducible apply frame_modOffice
    | with_reducible apply Frame.ite
    | (intro _ _ _)
    | split
    | dsimp only
    | exact Frame.trans h0 (fun p => by cases p <;> first | exact .inr rfl | exact .inl (m0 _ (by decide)))

theorem frame_ackPkt {L0 : List Part} {o0 : Block} (u : Nat) (p : Packet) {b : Block} (h0 : Frame L0 o0 b) (m0 : ∀ p ∈ ([.post, .cores, .offices, .routers, .couriers] : List Part), p ∈ L0) :
    Frame L0 o0 (ackPkt u p b) := by
  unfold ackPkt
  repeat' first
    | with_reducible assumption
    | with_reducible exact fun p hp => m0 p (subs_of rfl p hp)
    | with_reducible apply frame_sendKept
    | with_reducible apply Frame.ite
    | (intro _ _ _)
    | split
    | dsimp only
    | exact Frame.trans h0 (fun p => by cases p <;> first | exact .inr rfl | exact .inl (m0 _ (by decide)))

theorem frame_stagePkt {L0 : List Part} {o0 : Block} (u : Nat) (p : Packet) {b : Block} (h0 : Frame L0 o0 b) (m0 : ∀ p ∈ ([.dbg, .mgmt, .mail, .post, .cores, .offices, .routers, .couriers] : List Part), p ∈ L0) :
    Frame L0 o0 (stagePkt u p b) := by
  unfold stagePkt
  repeat' first
    | with_reducible assumption
    | with_reducible exact fun p hp => m0 p (subs_of rfl p hp)
    | with_reducible apply frame_ackPkt
    | with_reducible apply frame_unitEvent
    | with_reducible apply frame_modNet
    | with_reducible apply Frame.ite
    | (intro _ _ _)
    | split
    | dsimp only
    | exact Frame.trans h0 (fun p => by cases p <;> first | exact .inr rfl | exact .inl (m0 _ (by decide)))

theorem frame_ackArrive {L0 : List Part} {o0 : Block} (u : Nat) (p : Packet) {b : Block} (h0 : Frame L0 o0 b) (m0 : ∀ p ∈ ([.ledger, .mgmt, .mail, .job, .post, .cores, .offices, .routers, .couriers] : List Part), p ∈ L0) :
    Frame L0 o0 (ackArrive u p b) := by
  unfold ackArrive
  repeat' first
    | with_reducible assumption
    | with_reducible exact fun p hp => m0 p (subs_of rfl p hp)
    | with_reducible apply frame_modNet
    | with_reducible apply frame_modJob
    | with_reducible apply frame_firstReceipt
    | with_reducible apply Frame.ite
    | (intro _ _ _)
    | split
    | dsimp only
    | exact Frame.trans h0 (fun p => by cases p <;> first | exact .inr rfl | exact .inl (m0 _ (by decide)))

theorem frame_descArrive {L0 : List Part} {o0 : Block} (i : Nat) (pl : List Flit) {b : Block} (h0 : Frame L0 o0 b) (m0 : ∀ p ∈ ([.cores] : List Part), p ∈ L0) :
    Frame L0 o0 (descArrive i pl b) := by
  unfold descArrive
  repeat' first
    | with_reducible assumption
    | with_reducible exact fun p hp => m0 p (subs_of rfl p hp)
    | with_reducible apply frame_modCore
    | with_reducible apply Frame.ite
    | (intro _ _ _)
    | split
    | dsimp only
    | exact Frame.trans h0 (fun p => by cases p <;> first | exact .inr rfl | exact .inl (m0 _ (by decide)))

theorem frame_mapArrive {L0 : List Part} {o0 : Block} (r : Nat) (seq : Nat) (pl : List Flit) {b : Block} (h0 : Frame L0 o0 b) (m0 : ∀ p ∈ ([.post] : List Part), p ∈ L0) :
    Frame L0 o0 (mapArrive r seq pl b) := by
  unfold mapArrive
  repeat' first
    | with_reducible assumption
    | with_reducible exact fun p hp => m0 p (subs_of rfl p hp)
    | with_reducible apply frame_modPost
    | with_reducible apply Frame.ite
    | (intro _ _ _)
    | split
    | dsimp only
    | exact Frame.trans h0 (fun p => by cases p <;> first | exact .inr rfl | exact .inl (m0 _ (by decide)))

theorem frame_deliver {L0 : List Part} {o0 : Block} (u : Nat) (p : Packet) {b : Block} (h0 : Frame L0 o0 b) (m0 : ∀ p ∈ ([.ledger, .stop, .dbg, .mgmt, .mail, .job, .fleet, .parcel, .post, .bm, .cores, .offices, .routers, .couriers] : List Part), p ∈ L0) :
    Frame L0 o0 (deliver u p b) := by
  unfold deliver
  repeat' first
    | with_reducible assumption
    | with_reducible exact fun p hp => m0 p (subs_of rfl p hp)
    | with_reducible apply frame_deadLetter
    | with_reducible apply frame_descArrive
    | with_reducible apply frame_modNet
    | with_reducible apply frame_imagePacket
    | with_reducible apply frame_fleetArrive
    | with_reducible apply frame_takeReport
    | with_reducible apply frame_mapArrive
    | with_reducible apply frame_modJob
    | with_reducible apply frame_fleetDrop
    | with_reducible apply frame_reportTo
    | with_reducible apply frame_modCourier
    | with_reducible apply frame_takeDlv
    | with_reducible apply frame_captureArrive
    | with_reducible apply frame_modOffice
    | with_reducible apply frame_unicast
    | with_reducible apply Frame.ite
    | (intro _ _ _)
    | split
    | dsimp only
    | exact Frame.trans h0 (fun p => by cases p <;> first | exact .inr rfl | exact .inl (m0 _ (by decide)))

theorem frame_terminalReceive {L0 : List Part} {o0 : Block} (u0 : Nat) (full : Bool) {b : Block} (h0 : Frame L0 o0 b) (m0 : ∀ p ∈ ([.ledger, .stop, .dbg, .mgmt, .mail, .job, .fleet, .parcel, .post, .bm, .cores, .offices, .routers, .couriers] : List Part), p ∈ L0) :
    Frame L0 o0 (terminalReceive u0 full b) := by
  unfold terminalReceive
  repeat' first
    | with_reducible assumption
    | with_reducible exact fun p hp => m0 p (subs_of rfl p hp)
    | with_reducible apply frame_modNet
    | with_reducible apply frame_bumpCtr
    | with_reducible apply frame_e2eDrop
    | with_reducible apply frame_returnPkt
    | with_reducible apply frame_ackArrive
    | with_reducible apply frame_stagePkt
    | with_reducible apply frame_deliver
    | with_reducible apply Frame.ite
    | (intro _ _ _)
    | split
    | dsimp only
    | exact Frame.trans h0 (fun p => by cases p <;> first | exact .inr rfl | exact .inl (m0 _ (by decide)))

theorem frame_returnedReceive {L0 : List Part} {o0 : Block} (u0 : Nat) {b : Block} (h0 : Frame L0 o0 b) (m0 : ∀ p ∈ ([.dbg, .mgmt, .mail, .post, .cores, .offices, .routers, .couriers] : List Part), p ∈ L0) :
    Frame L0 o0 (returnedReceive u0 b) := by
  unfold returnedReceive
  repeat' first
    | with_reducible assumption
    | with_reducible exact fun p hp => m0 p (subs_of rfl p hp)
    | with_reducible apply frame_modNet
    | with_reducible apply frame_bumpCtr
    | with_reducible apply frame_unitEvent
    | with_reducible apply frame_held
    | with_reducible apply frame_e2eDrop
    | with_reducible apply frame_enqueue
    | with_reducible apply Frame.ite
    | (intro _ _ _)
    | split
    | dsimp only
    | exact Frame.trans h0 (fun p => by cases p <;> first | exact .inr rfl | exact .inl (m0 _ (by decide)))

theorem frame_resendTimer {L0 : List Part} {o0 : Block} (u0 : Nat) {b : Block} (h0 : Frame L0 o0 b) (m0 : ∀ p ∈ ([.post, .cores, .offices, .routers, .couriers] : List Part), p ∈ L0) :
    Frame L0 o0 (resendTimer u0 b) := by
  unfold resendTimer
  repeat' first
    | with_reducible assumption
    | with_reducible exact fun p hp => m0 p (subs_of rfl p hp)
    | with_reducible apply frame_enqueue
    | with_reducible apply frame_modNet
    | with_reducible apply frame_held
    | with_reducible apply Frame.ite
    | (intro _ _ _)
    | split
    | dsimp only
    | exact Frame.trans h0 (fun p => by cases p <;> first | exact .inr rfl | exact .inl (m0 _ (by decide)))

theorem frame_congestionSample {L0 : List Part} {o0 : Block} (r : Nat) (k : Nat) {b : Block} (h0 : Frame L0 o0 b) (m0 : ∀ p ∈ ([.pm, .post, .cores, .offices, .routers, .couriers] : List Part), p ∈ L0) :
    Frame L0 o0 (congestionSample r k b) := by
  unfold congestionSample
  repeat' first
    | with_reducible assumption
    | with_reducible exact fun p hp => m0 p (subs_of rfl p hp)
    | with_reducible apply frame_advTo
    | with_reducible apply frame_unicast
    | with_reducible apply frame_modRouter
    | with_reducible apply Frame.ite
    | (intro _ _ _)
    | split
    | dsimp only
    | exact Frame.trans h0 (fun p => by cases p <;> first | exact .inr rfl | exact .inl (m0 _ (by decide)))

theorem frame_modServing {L0 : List Part} {o0 : Block} (r : Nat) (f : Member → Member) {b : Block} (h0 : Frame L0 o0 b) (m0 : ∀ p ∈ ([.offices] : List Part), p ∈ L0) :
    Frame L0 o0 (modServing r f b) := by
  unfold modServing
  repeat' first
    | with_reducible assumption
    | with_reducible exact fun p hp => m0 p (subs_of rfl p hp)
    | with_reducible apply frame_modOffice
    | with_reducible apply Frame.ite
    | (intro _ _ _)
    | split
    | dsimp only
    | exact Frame.trans h0 (fun p => by cases p <;> first | exact .inr rfl | exact .inl (m0 _ (by decide)))

theorem frame_regionMapSend {L0 : List Part} {o0 : Block} (r : Nat) {b : Block} (h0 : Frame L0 o0 b) (m0 : ∀ p ∈ ([.pm, .post, .cores, .offices, .routers, .couriers] : List Part), p ∈ L0) :
    Frame L0 o0 (regionMapSend r b) := by
  unfold regionMapSend
  repeat' first
    | with_reducible assumption
    | with_reducible exact fun p hp => m0 p (subs_of rfl p hp)
    | with_reducible apply frame_advTo
    | with_reducible apply frame_modServing
    | with_reducible apply frame_modOffice
    | with_reducible apply Frame.forEach1
    | with_reducible apply frame_modRouter
    | with_reducible apply frame_unicast
    | with_reducible apply Frame.ite
    | (intro _ _ _)
    | split
    | dsimp only
    | exact Frame.trans h0 (fun p => by cases p <;> first | exact .inr rfl | exact .inl (m0 _ (by decide)))

theorem frame_waferMapBroadcast {L0 : List Part} {o0 : Block} {b : Block} (h0 : Frame L0 o0 b) (m0 : ∀ p ∈ ([.pm, .post, .offices] : List Part), p ∈ L0) :
    Frame L0 o0 (waferMapBroadcast b) := by
  unfold waferMapBroadcast
  repeat' first
    | with_reducible assumption
    | with_reducible exact fun p hp => m0 p (subs_of rfl p hp)
    | with_reducible apply frame_advTo
    | with_reducible apply frame_modPost
    | with_reducible apply Frame.forEach1
    | with_reducible apply frame_modOffice
    | with_reducible apply Frame.ite
    | (intro _ _ _)
    | split
    | dsimp only
    | exact Frame.trans h0 (fun p => by cases p <;> first | exact .inr rfl | exact .inl (m0 _ (by decide)))

/-! ### Tiles -/

theorem frame_modScr {L0 : List Part} {o0 : Block} (i : Nat) (f : CoreScreen → CoreScreen) {b : Block} (h0 : Frame L0 o0 b) (m0 : ∀ p ∈ ([.cores] : List Part), p ∈ L0) :
    Frame L0 o0 (modScr i f b) := by
  unfold modScr
  repeat' first
    | with_reducible assumption
    | with_reducible exact fun p hp => m0 p (subs_of rfl p hp)
    | with_reducible apply frame_modCore
    | with_reducible apply Frame.ite
    | (intro _ _ _)
    | split
    | dsimp only
    | exact Frame.trans h0 (fun p => by cases p <;> first | exact .inr rfl | exact .inl (m0 _ (by decide)))

theorem frame_putTile {L0 : List Part} {o0 : Block} (i : Nat) (t : Nat) (x : Tile) {b : Block} (h0 : Frame L0 o0 b) (m0 : ∀ p ∈ ([.cores] : List Part), p ∈ L0) :
    Frame L0 o0 (putTile i t x b) := by
  unfold putTile
  repeat' first
    | with_reducible assumption
    | with_reducible exact fun p hp => m0 p (subs_of rfl p hp)
    | with_reducible apply frame_modScr
    | with_reducible apply Frame.ite
    | (intro _ _ _)
    | split
    | dsimp only
    | exact Frame.trans h0 (fun p => by cases p <;> first | exact .inr rfl | exact .inl (m0 _ (by decide)))

theorem frame_tileEvent {L0 : List Part} {o0 : Block} (i : Nat) (x : Tile) (code : Nat) {b : Block} (h0 : Frame L0 o0 b) (m0 : ∀ p ∈ ([.cores, .offices] : List Part), p ∈ L0) :
    Frame L0 o0 (tileEvent i x code b) := by
  unfold tileEvent
  repeat' first
    | with_reducible assumption
    | with_reducible exact fun p hp => m0 p (subs_of rfl p hp)
    | with_reducible apply frame_lbEvent
    | with_reducible apply Frame.ite
    | (intro _ _ _)
    | split
    | dsimp only
    | exact Frame.trans h0 (fun p => by cases p <;> first | exact .inr rfl | exact .inl (m0 _ (by decide)))

theorem frame_reportLanes {L0 : List Part} {o0 : Block} (i : Nat) (x : Tile) (sp : Bool) (inv : Bool) (misuse : Bool) {b : Block} (h0 : Frame L0 o0 b) (m0 : ∀ p ∈ ([.cores, .offices] : List Part), p ∈ L0) :
    Frame L0 o0 (reportLanes i x sp inv misuse b).2 := by
  unfold reportLanes
  repeat' first
    | with_reducible assumption
    | with_reducible exact fun p hp => m0 p (subs_of rfl p hp)
    | with_reducible apply frame_tileEvent
    | with_reducible apply Frame.ite
    | (intro _ _ _)
    | split
    | dsimp only
    | exact Frame.trans h0 (fun p => by cases p <;> first | exact .inr rfl | exact .inl (m0 _ (by decide)))

theorem frame_openTile {L0 : List Part} {o0 : Block} (i : Nat) (w : WeightBeat) {b : Block} (h0 : Frame L0 o0 b) (m0 : ∀ p ∈ ([.cores, .offices] : List Part), p ∈ L0) :
    Frame L0 o0 (openTile i w b) := by
  unfold openTile
  repeat' first
    | with_reducible assumption
    | with_reducible exact fun p hp => m0 p (subs_of rfl p hp)
    | with_reducible apply frame_modScr
    | with_reducible apply frame_tileEvent
    | with_reducible apply frame_putTile
    | with_reducible apply Frame.ite
    | (intro _ _ _)
    | split
    | dsimp only
    | exact Frame.trans h0 (fun p => by cases p <;> first | exact .inr rfl | exact .inl (m0 _ (by decide)))

theorem frame_weightBeat {L0 : List Part} {o0 : Block} (i : Nat) (w : WeightBeat) {b : Block} (h0 : Frame L0 o0 b) (m0 : ∀ p ∈ ([.cores, .offices] : List Part), p ∈ L0) :
    Frame L0 o0 (weightBeat i w b) := by
  unfold weightBeat
  repeat' first
    | with_reducible assumption
    | with_reducible exact fun p hp => m0 p (subs_of rfl p hp)
    | with_reducible apply frame_bumpCtr
    | with_reducible apply frame_openTile
    | with_reducible apply frame_reportLanes
    | with_reducible apply frame_putTile
    | with_reducible apply Frame.ite
    | (intro _ _ _)
    | split
    | dsimp only
    | exact Frame.trans h0 (fun p => by cases p <;> first | exact .inr rfl | exact .inl (m0 _ (by decide)))

theorem frame_lagTiles {L0 : List Part} {o0 : Block} (i : Nat) (z : Nat) {b : Block} (h0 : Frame L0 o0 b)
    (m0 : ∀ p ∈ ([.cores, .offices] : List Part), p ∈ L0) : Frame L0 o0 (lagTiles i z b) := by
  induction z generalizing b with
  | zero => exact h0
  | succ n ih =>
    unfold lagTiles
    repeat' first
      | with_reducible assumption
      | with_reducible exact fun p hp => m0 p (subs_of rfl p hp)
      | with_reducible apply ih
      | with_reducible apply frame_modScr
      | with_reducible apply frame_putTile
      | with_reducible apply frame_tileEvent
      | with_reducible apply Frame.ite
      | (intro _ _ _)
      | split
      | dsimp only

theorem frame_queueRow {L0 : List Part} {o0 : Block} (i : Nat) (t : Nat) (res : Nat) {b : Block} (h0 : Frame L0 o0 b) (m0 : ∀ p ∈ ([.cores, .offices] : List Part), p ∈ L0) :
    Frame L0 o0 (queueRow i t res b) := by
  unfold queueRow
  repeat' first
    | with_reducible assumption
    | with_reducible exact fun p hp => m0 p (subs_of rfl p hp)
    | with_reducible apply frame_lagTiles
    | with_reducible apply frame_modScr
    | with_reducible apply Frame.ite
    | (intro _ _ _)
    | split
    | dsimp only
    | exact Frame.trans h0 (fun p => by cases p <;> first | exact .inr rfl | exact .inl (m0 _ (by decide)))

theorem frame_activationBeat {L0 : List Part} {o0 : Block} (i : Nat) (a : ActBeat) {b : Block} (h0 : Frame L0 o0 b) (m0 : ∀ p ∈ ([.cores, .offices] : List Part), p ∈ L0) :
    Frame L0 o0 (activationBeat i a b) := by
  unfold activationBeat
  repeat' first
    | with_reducible assumption
    | with_reducible exact fun p hp => m0 p (subs_of rfl p hp)
    | with_reducible apply frame_bumpCtr
    | with_reducible apply frame_lbEvent
    | with_reducible apply frame_putTile
    | with_reducible apply frame_tileEvent
    | with_reducible apply frame_reportLanes
    | with_reducible apply frame_queueRow
    | with_reducible apply Frame.ite
    | (intro _ _ _)
    | split
    | dsimp only
    | exact Frame.trans h0 (fun p => by cases p <;> first | exact .inr rfl | exact .inl (m0 _ (by decide)))

theorem frame_tallyArrives {L0 : List Part} {o0 : Block} (i : Nat) (t : Nat) (res : Nat) (last : Bool) {b : Block} (h0 : Frame L0 o0 b) (m0 : ∀ p ∈ ([.cores, .offices] : List Part), p ∈ L0) :
    Frame L0 o0 (tallyArrives i t res last b) := by
  unfold tallyArrives
  repeat' first
    | with_reducible assumption
    | with_reducible exact fun p hp => m0 p (subs_of rfl p hp)
    | with_reducible apply frame_modScr
    | with_reducible apply frame_putTile
    | with_reducible apply frame_tileEvent
    | with_reducible apply Frame.ite
    | (intro _ _ _)
    | split
    | dsimp only
    | exact Frame.trans h0 (fun p => by cases p <;> first | exact .inr rfl | exact .inl (m0 _ (by decide)))

theorem frame_accumulatorDrain {L0 : List Part} {o0 : Block} (i : Nat) (a : AccBeat) {b : Block} (h0 : Frame L0 o0 b) (m0 : ∀ p ∈ ([.free, .cores, .offices] : List Part), p ∈ L0) :
    Frame L0 o0 (accumulatorDrain i a b) := by
  unfold accumulatorDrain
  repeat' first
    | with_reducible assumption
    | with_reducible exact fun p hp => m0 p (subs_of rfl p hp)
    | with_reducible apply frame_bumpCtr
    | with_reducible apply frame_freshWord
    | with_reducible apply frame_reportLanes
    | with_reducible apply frame_putTile
    | with_reducible apply frame_modScr
    | with_reducible apply frame_modCore
    | with_reducible apply frame_tallyArrives
    | with_reducible apply Frame.ite
    | (intro _ _ _)
    | split
    | dsimp only
    | exact Frame.trans h0 (fun p => by cases p <;> first | exact .inr rfl | exact .inl (m0 _ (by decide)))

theorem frame_rowCompare {L0 : List Part} {o0 : Block} (i : Nat) {b : Block} (h0 : Frame L0 o0 b) (m0 : ∀ p ∈ ([.cores, .offices] : List Part), p ∈ L0) :
    Frame L0 o0 (rowCompare i b) := by
  unfold rowCompare
  repeat' first
    | with_reducible assumption
    | with_reducible exact fun p hp => m0 p (subs_of rfl p hp)
    | with_reducible apply frame_modScr
    | with_reducible apply frame_putTile
    | with_reducible apply frame_bumpCtr
    | with_reducible apply frame_tileEvent
    | with_reducible apply Frame.ite
    | (intro _ _ _)
    | split
    | dsimp only
    | exact Frame.trans h0 (fun p => by cases p <;> first | exact .inr rfl | exact .inl (m0 _ (by decide)))

theorem frame_outputBeat {L0 : List Part} {o0 : Block} (i : Nat) (o : OutBeat) {b : Block} (h0 : Frame L0 o0 b) (m0 : ∀ p ∈ ([.cores, .offices] : List Part), p ∈ L0) :
    Frame L0 o0 (outputBeat i o b) := by
  unfold outputBeat
  repeat' first
    | with_reducible assumption
    | with_reducible exact fun p hp => m0 p (subs_of rfl p hp)
    | with_reducible apply frame_tileEvent
    | with_reducible apply frame_putTile
    | with_reducible apply Frame.ite
    | (intro _ _ _)
    | split
    | dsimp only
    | exact Frame.trans h0 (fun p => by cases p <;> first | exact .inr rfl | exact .inl (m0 _ (by decide)))

theorem frame_saturationPulse {L0 : List Part} {o0 : Block} (i : Nat) {b : Block} (h0 : Frame L0 o0 b) (m0 : ∀ p ∈ ([.cores] : List Part), p ∈ L0) :
    Frame L0 o0 (saturationPulse i b) := by
  unfold saturationPulse
  repeat' first
    | with_reducible assumption
    | with_reducible exact fun p hp => m0 p (subs_of rfl p hp)
    | with_reducible apply frame_bumpCtr
    | with_reducible apply frame_modScr
    | with_reducible apply Frame.ite
    | (intro _ _ _)
    | split
    | dsimp only
    | exact Frame.trans h0 (fun p => by cases p <;> first | exact .inr rfl | exact .inl (m0 _ (by decide)))

theorem frame_flushSticky {L0 : List Part} {o0 : Block} (i : Nat) (level : Bool) {b : Block} (h0 : Frame L0 o0 b) (m0 : ∀ p ∈ ([.cores] : List Part), p ∈ L0) :
    Frame L0 o0 (flushSticky i level b) := by
  unfold flushSticky
  repeat' first
    | with_reducible assumption
    | with_reducible exact fun p hp => m0 p (subs_of rfl p hp)
    | with_reducible apply frame_bumpCtr
    | with_reducible apply frame_modScr
    | with_reducible apply Frame.ite
    | (intro _ _ _)
    | split
    | dsimp only
    | exact Frame.trans h0 (fun p => by cases p <;> first | exact .inr rfl | exact .inl (m0 _ (by decide)))

theorem frame_katTile {L0 : List Part} {o0 : Block} (i : Nat) (x : Tile) {b : Block} (h0 : Frame L0 o0 b) (m0 : ∀ p ∈ ([.cores] : List Part), p ∈ L0) :
    Frame L0 o0 (katTile i x b) := by
  unfold katTile
  repeat' first
    | with_reducible assumption
    | with_reducible exact fun p hp => m0 p (subs_of rfl p hp)
    | with_reducible apply frame_modCore
    | with_reducible apply Frame.ite
    | (intro _ _ _)
    | split
    | dsimp only
    | exact Frame.trans h0 (fun p => by cases p <;> first | exact .inr rfl | exact .inl (m0 _ (by decide)))

theorem frame_tileVerdict {L0 : List Part} {o0 : Block} (i : Nat) (t : Nat) {b : Block} (h0 : Frame L0 o0 b) (m0 : ∀ p ∈ ([.post, .cores, .offices, .routers, .couriers] : List Part), p ∈ L0) :
    Frame L0 o0 (tileVerdict i t b) := by
  unfold tileVerdict
  repeat' first
    | with_reducible assumption
    | with_reducible exact fun p hp => m0 p (subs_of rfl p hp)
    | with_reducible apply frame_modScr
    | with_reducible apply frame_katTile
    | with_reducible apply frame_lbEvent
    | with_reducible apply frame_bumpCtr
    | with_reducible apply frame_modOffice
    | with_reducible apply frame_unicast
    | with_reducible apply Frame.ite
    | (intro _ _ _)
    | split
    | dsimp only
    | exact Frame.trans h0 (fun p => by cases p <;> first | exact .inr rfl | exact .inl (m0 _ (by decide)))

theorem frame_coreSummary {L0 : List Part} {o0 : Block} (i : Nat) {b : Block} (h0 : Frame L0 o0 b) (m0 : ∀ p ∈ ([.post, .cores, .offices, .routers, .couriers] : List Part), p ∈ L0) :
    Frame L0 o0 (coreSummary i b) := by
  unfold coreSummary
  repeat' first
    | with_reducible assumption
    | with_reducible exact fun p hp => m0 p (subs_of rfl p hp)
    | with_reducible apply frame_unicast
    | with_reducible apply frame_modScr
    | with_reducible apply Frame.ite
    | (intro _ _ _)
    | split
    | dsimp only
    | exact Frame.trans h0 (fun p => by cases p <;> first | exact .inr rfl | exact .inl (m0 _ (by decide)))

/-! ### Registers -/

theorem frame_respond {L0 : List Part} {o0 : Block} (data : Nat) (err : Nat) {b : Block} (h0 : Frame L0 o0 b) (m0 : ∀ p ∈ ([.outs] : List Part), p ∈ L0) :
    Frame L0 o0 (respond data err b) := by
  unfold respond
  repeat' first
    | with_reducible assumption
    | with_reducible exact fun p hp => m0 p (subs_of rfl p hp)
    | with_reducible apply frame_modOuts
    | with_reducible apply Frame.ite
    | (intro _ _ _)
    | split
    | dsimp only
    | exact Frame.trans h0 (fun p => by cases p <;> first | exact .inr rfl | exact .inl (m0 _ (by decide)))

theorem frame_recordErrs {L0 : List Part} {o0 : Block} (offset : Nat) (causes : List Nat) {b : Block} (h0 : Frame L0 o0 b) (m0 : ∀ p ∈ ([.mgmt] : List Part), p ∈ L0) :
    Frame L0 o0 (recordErrs offset causes b) := by
  unfold recordErrs
  repeat' first
    | with_reducible assumption
    | with_reducible exact fun p hp => m0 p (subs_of rfl p hp)
    | with_reducible apply frame_recordErr
    | with_reducible apply frame_modMgmt
    | with_reducible apply Frame.ite
    | (intro _ _ _)
    | split
    | dsimp only
    | exact Frame.trans h0 (fun p => by cases p <;> first | exact .inr rfl | exact .inl (m0 _ (by decide)))

theorem frame_ringBell {L0 : List Part} {o0 : Block} (r : Nat) (v : Nat) {b : Block} (h0 : Frame L0 o0 b) (m0 : ∀ p ∈ ([.ledger, .dbg, .mgmt, .mail, .post] : List Part), p ∈ L0) :
    Frame L0 o0 (ringBell r v b) := by
  unfold ringBell
  repeat' first
    | with_reducible assumption
    | with_reducible exact fun p hp => m0 p (subs_of rfl p hp)
    | with_reducible apply frame_hoEvent
    | with_reducible apply frame_recordErr
    | with_reducible apply frame_pump
    | with_reducible apply frame_modRing
    | with_reducible apply Frame.ite
    | (intro _ _ _)
    | split
    | dsimp only
    | exact Frame.trans h0 (fun p => by cases p <;> first | exact .inr rfl | exact .inl (m0 _ (by decide)))

theorem frame_popRing {L0 : List Part} {o0 : Block} (r : Nat) (v : Nat) {b : Block} (h0 : Frame L0 o0 b) (m0 : ∀ p ∈ ([.ledger, .mgmt, .mail, .post] : List Part), p ∈ L0) :
    Frame L0 o0 (popRing r v b) := by
  unfold popRing
  repeat' first
    | with_reducible assumption
    | with_reducible exact fun p hp => m0 p (subs_of rfl p hp)
    | with_reducible apply frame_recordErr
    | with_reducible apply frame_modRing
    | with_reducible apply frame_drainHeld
    | with_reducible apply Frame.ite
    | (intro _ _ _)
    | split
    | dsimp only
    | exact Frame.trans h0 (fun p => by cases p <;> first | exact .inr rfl | exact .inl (m0 _ (by decide)))

theorem frame_syncKeys {L0 : List Part} {o0 : Block} {b : Block} (h0 : Frame L0 o0 b) (m0 : ∀ p ∈ ([.outs] : List Part), p ∈ L0) :
    Frame L0 o0 (syncKeys b) := by
  unfold syncKeys
  repeat' first
    | with_reducible assumption
    | with_reducible exact fun p hp => m0 p (subs_of rfl p hp)
    | with_reducible apply frame_modOuts
    | with_reducible apply Frame.ite
    | (intro _ _ _)
    | split
    | dsimp only
    | exact Frame.trans h0 (fun p => by cases p <;> first | exact .inr rfl | exact .inl (m0 _ (by decide)))

theorem frame_setKey {L0 : List Part} {o0 : Block} (s : Nat) (k : BitVec 384) {b : Block} (h0 : Frame L0 o0 b) (m0 : ∀ p ∈ ([.outs, .keys] : List Part), p ∈ L0) :
    Frame L0 o0 (setKey s k b) := by
  unfold setKey
  repeat' first
    | with_reducible assumption
    | with_reducible exact fun p hp => m0 p (subs_of rfl p hp)
    | with_reducible apply frame_syncKeys
    | with_reducible apply frame_modKeys
    | with_reducible apply Frame.ite
    | (intro _ _ _)
    | split
    | dsimp only
    | exact Frame.trans h0 (fun p => by cases p <;> first | exact .inr rfl | exact .inl (m0 _ (by decide)))

theorem frame_rejectKey {L0 : List Part} {o0 : Block} (s : Nat) {b : Block} (h0 : Frame L0 o0 b) (m0 : ∀ p ∈ ([.outs, .keys, .dbg, .mgmt, .mail] : List Part), p ∈ L0) :
    Frame L0 o0 (rejectKey s b) := by
  unfold rejectKey
  repeat' first
    | with_reducible assumption
    | with_reducible exact fun p hp => m0 p (subs_of rfl p hp)
    | with_reducible apply frame_hoEvent
    | with_reducible apply frame_setIrqMisc
    | with_reducible apply frame_setKey
    | with_reducible apply Frame.ite
    | (intro _ _ _)
    | split
    | dsimp only
    | exact Frame.trans h0 (fun p => by cases p <;> first | exact .inr rfl | exact .inl (m0 _ (by decide)))

theorem frame_rejectWin {L0 : List Part} {o0 : Block} {b : Block} (h0 : Frame L0 o0 b) (m0 : ∀ p ∈ ([.outs, .keys, .dbg, .mgmt, .mail] : List Part), p ∈ L0) :
    Frame L0 o0 (rejectWin b) := by
  unfold rejectWin
  repeat' first
    | with_reducible assumption
    | with_reducible exact fun p hp => m0 p (subs_of rfl p hp)
    | with_reducible apply frame_rejectKey
    | with_reducible apply frame_modKeys
    | with_reducible apply Frame.ite
    | (intro _ _ _)
    | split
    | dsimp only
    | exact Frame.trans h0 (fun p => by cases p <;> first | exact .inr rfl | exact .inl (m0 _ (by decide)))

theorem frame_acceptKey {L0 : List Part} {o0 : Block} (s : Nat) (ws : List (BitVec 32)) {b : Block} (h0 : Frame L0 o0 b) (m0 : ∀ p ∈ ([.outs, .keys, .dbg, .mgmt, .mail] : List Part), p ∈ L0) :
    Frame L0 o0 (acceptKey s ws b) := by
  unfold acceptKey
  repeat' first
    | with_reducible assumption
    | with_reducible exact fun p hp => m0 p (subs_of rfl p hp)
    | with_reducible apply frame_hoEvent
    | with_reducible apply frame_setIrqMisc
    | with_reducible apply frame_setKey
    | with_reducible apply Frame.ite
    | (intro _ _ _)
    | split
    | dsimp only
    | exact Frame.trans h0 (fun p => by cases p <;> first | exact .inr rfl | exact .inl (m0 _ (by decide)))

theorem frame_zeroize {L0 : List Part} {o0 : Block} {b : Block} (h0 : Frame L0 o0 b) (m0 : ∀ p ∈ ([.outs, .keys, .ledger, .dbg, .mgmt, .mail] : List Part), p ∈ L0) :
    Frame L0 o0 (zeroize b) := by
  unfold zeroize
  repeat' first
    | with_reducible assumption
    | with_reducible exact fun p hp => m0 p (subs_of rfl p hp)
    | with_reducible apply frame_modKeys
    | with_reducible apply frame_modOuts
    | with_reducible apply frame_modLedger
    | with_reducible apply frame_modMail
    | with_reducible apply frame_hoEvent
    | with_reducible apply frame_setIrqMisc
    | with_reducible apply Frame.ite
    | (intro _ _ _)
    | split
    | dsimp only
    | exact Frame.trans h0 (fun p => by cases p <;> first | exact .inr rfl | exact .inl (m0 _ (by decide)))

theorem frame_keyClash {L0 : List Part} {o0 : Block} (s : Nat) {b : Block} (h0 : Frame L0 o0 b) (m0 : ∀ p ∈ ([.outs, .keys, .dbg, .mgmt, .mail] : List Part), p ∈ L0) :
    Frame L0 o0 (keyClash s b) := by
  unfold keyClash
  repeat' first
    | with_reducible assumption
    | with_reducible exact fun p hp => m0 p (subs_of rfl p hp)
    | with_reducible apply frame_rejectWin
    | with_reducible apply frame_rejectKey
    | with_reducible apply frame_modKeys
    | with_reducible apply frame_modOuts
    | with_reducible apply Frame.ite
    | (intro _ _ _)
    | split
    | dsimp only
    | exact Frame.trans h0 (fun p => by cases p <;> first | exact .inr rfl | exact .inl (m0 _ (by decide)))

theorem frame_rejectPort {L0 : List Part} {o0 : Block} {b : Block} (h0 : Frame L0 o0 b) (m0 : ∀ p ∈ ([.outs, .keys, .dbg, .mgmt, .mail] : List Part), p ∈ L0) :
    Frame L0 o0 (rejectPort b) := by
  unfold rejectPort
  repeat' first
    | with_reducible assumption
    | with_reducible exact fun p hp => m0 p (subs_of rfl p hp)
    | with_reducible apply frame_modKeys
    | with_reducible apply frame_rejectKey
    | with_reducible apply frame_modOuts
    | with_reducible apply Frame.ite
    | (intro _ _ _)
    | split
    | dsimp only
    | exact Frame.trans h0 (fun p => by cases p <;> first | exact .inr rfl | exact .inl (m0 _ (by decide)))

theorem frame_keyPort {L0 : List Part} {o0 : Block} (s : Nat) (w : BitVec 32) (last : Bool) {b : Block} (h0 : Frame L0 o0 b) (m0 : ∀ p ∈ ([.outs, .keys, .dbg, .mgmt, .mail] : List Part), p ∈ L0) :
    Frame L0 o0 (keyPort s w last b) := by
  unfold keyPort
  repeat' first
    | with_reducible assumption
    | with_reducible exact fun p hp => m0 p (subs_of rfl p hp)
    | with_reducible apply frame_rejectPort
    | with_reducible apply frame_modKeys
    | with_reducible apply frame_keyClash
    | with_reducible apply frame_acceptKey
    | with_reducible apply Frame.ite
    | (intro _ _ _)
    | split
    | dsimp only
    | exact Frame.trans h0 (fun p => by cases p <;> first | exact .inr rfl | exact .inl (m0 _ (by decide)))

theorem frame_keyCtrl {L0 : List Part} {o0 : Block} (v : Nat) {b : Block} (h0 : Frame L0 o0 b) (m0 : ∀ p ∈ ([.outs, .keys, .ledger, .dbg, .mgmt, .mail] : List Part), p ∈ L0) :
    Frame L0 o0 (keyCtrl v b).2 := by
  unfold keyCtrl
  repeat' first
    | with_reducible assumption
    | with_reducible exact fun p hp => m0 p (subs_of rfl p hp)
    | with_reducible apply frame_zeroize
    | with_reducible apply frame_recordErrs
    | with_reducible apply frame_recordErr
    | with_reducible apply frame_rejectWin
    | with_reducible apply frame_modKeys
    | with_reducible apply frame_keyClash
    | with_reducible apply Frame.ite
    | (intro _ _ _)
    | split
    | dsimp only
    | exact Frame.trans h0 (fun p => by cases p <;> first | exact .inr rfl | exact .inl (m0 _ (by decide)))

theorem frame_keyData {L0 : List Part} {o0 : Block} (w : BitVec 32) {b : Block} (h0 : Frame L0 o0 b) (m0 : ∀ p ∈ ([.outs, .keys, .dbg, .mgmt, .mail] : List Part), p ∈ L0) :
    Frame L0 o0 (keyData w b).2 := by
  unfold keyData
  repeat' first
    | with_reducible assumption
    | with_reducible exact fun p hp => m0 p (subs_of rfl p hp)
    | with_reducible apply frame_recordErr
    | with_reducible apply frame_acceptKey
    | with_reducible apply frame_modKeys
    | with_reducible apply Frame.ite
    | (intro _ _ _)
    | split
    | dsimp only
    | exact Frame.trans h0 (fun p => by cases p <;> first | exact .inr rfl | exact .inl (m0 _ (by decide)))

theorem frame_crEnable {L0 : List Part} {o0 : Block} (v : Nat) {b : Block} (h0 : Frame L0 o0 b) (m0 : ∀ p ∈ ([.ledger, .stop, .dbg, .mgmt, .mail, .fleet, .parcel, .post, .cores, .offices, .routers, .couriers] : List Part), p ∈ L0) :
    Frame L0 o0 (crEnable v b) := by
  unfold crEnable
  repeat' first
    | with_reducible assumption
    | with_reducible exact fun p hp => m0 p (subs_of rfl p hp)
    | with_reducible apply frame_recordErrs
    | with_reducible apply frame_recordErr
    | with_reducible apply Frame.forEach1
    | with_reducible apply frame_enablePort
    | with_reducible apply frame_disablePort
    | with_reducible apply Frame.ite
    | (intro _ _ _)
    | split
    | dsimp only
    | exact Frame.trans h0 (fun p => by cases p <;> first | exact .inr rfl | exact .inl (m0 _ (by decide)))

theorem frame_stopCtrl {L0 : List Part} {o0 : Block} (v : Nat) {b : Block} (h0 : Frame L0 o0 b) (m0 : ∀ p ∈ ([.outs, .pm, .ledger, .stop, .mgmt, .mail, .job, .parcel, .post, .cores] : List Part), p ∈ L0) :
    Frame L0 o0 (stopCtrl v b) := by
  unfold stopCtrl
  repeat' first
    | with_reducible assumption
    | with_reducible exact fun p hp => m0 p (subs_of rfl p hp)
    | with_reducible apply frame_recordErrs
    | with_reducible apply frame_originate
    | with_reducible apply Frame.ite
    | (intro _ _ _)
    | split
    | dsimp only
    | exact Frame.trans h0 (fun p => by cases p <;> first | exact .inr rfl | exact .inl (m0 _ (by decide)))

theorem frame_hoCount {L0 : List Part} {o0 : Block} {b : Block} (h0 : Frame L0 o0 b) (m0 : ∀ p ∈ ([.free] : List Part), p ∈ L0) :
    Frame L0 o0 (Block.hoCount b).2 := by
  unfold Block.hoCount
  repeat' first
    | with_reducible assumption
    | with_reducible exact fun p hp => m0 p (subs_of rfl p hp)
    | with_reducible apply frame_freshBit
    | with_reducible apply Frame.ite
    | (intro _ _ _)
    | split
    | dsimp only
    | exact Frame.trans h0 (fun p => by cases p <;> first | exact .inr rfl | exact .inl (m0 _ (by decide)))

theorem frame_pmLatch {L0 : List Part} {o0 : Block} (v : Nat) {b : Block} (h0 : Frame L0 o0 b) (m0 : ∀ p ∈ ([.pm, .free, .mgmt] : List Part), p ∈ L0) :
    Frame L0 o0 (pmLatch v b) := by
  unfold pmLatch
  repeat' first
    | with_reducible assumption
    | with_reducible exact fun p hp => m0 p (subs_of rfl p hp)
    | with_reducible apply frame_recordErrs
    | with_reducible apply frame_hoCount
    | with_reducible apply frame_modPm
    | with_reducible apply Frame.ite
    | (intro _ _ _)
    | split
    | dsimp only
    | exact Frame.trans h0 (fun p => by cases p <;> first | exact .inr rfl | exact .inl (m0 _ (by decide)))

theorem frame_errClear {L0 : List Part} {o0 : Block} (v : Nat) {b : Block} (h0 : Frame L0 o0 b) (m0 : ∀ p ∈ ([.mgmt] : List Part), p ∈ L0) :
    Frame L0 o0 (errClear v b) := by
  unfold errClear
  repeat' first
    | with_reducible assumption
    | with_reducible exact fun p hp => m0 p (subs_of rfl p hp)
    | with_reducible apply frame_modMgmt
    | with_reducible apply Frame.ite
    | (intro _ _ _)
    | split
    | dsimp only
    | exact Frame.trans h0 (fun p => by cases p <;> first | exact .inr rfl | exact .inl (m0 _ (by decide)))

theorem frame_plainWrite {L0 : List Part} {o0 : Block} (o : Nat) (v : Nat) {b : Block} (h0 : Frame L0 o0 b) (m0 : ∀ p ∈ ([.pm, .svc, .mgmt] : List Part), p ∈ L0) :
    Frame L0 o0 (plainWrite o v b) := by
  unfold plainWrite
  repeat' first
    | with_reducible assumption
    | with_reducible exact fun p hp => m0 p (subs_of rfl p hp)
    | with_reducible apply frame_modMgmt
    | with_reducible apply frame_modPm
    | with_reducible apply frame_slip
    | with_reducible apply frame_modSvc
    | with_reducible apply Frame.ite
    | (intro _ _ _)
    | split
    | dsimp only
    | exact Frame.trans h0 (fun p => by cases p <;> first | exact .inr rfl | exact .inl (m0 _ (by decide)))

theorem frame_writeReg {L0 : List Part} {o0 : Block} (o : Nat) (v : Nat) {b : Block} (h0 : Frame L0 o0 b) (m0 : ∀ p ∈ ([.outs, .pm, .svc, .keys, .ledger, .stop, .dbg, .free, .mgmt, .mail, .job, .fleet, .parcel, .post, .cores, .offices, .routers, .couriers] : List Part), p ∈ L0) :
    Frame L0 o0 (writeReg o v b).2 := by
  unfold writeReg
  repeat' first
    | with_reducible assumption
    | with_reducible exact fun p hp => m0 p (subs_of rfl p hp)
    | with_reducible apply frame_pmLatch
    | with_reducible apply frame_stopCtrl
    | with_reducible apply frame_crEnable
    | with_reducible apply frame_errClear
    | with_reducible apply frame_keyCtrl
    | with_reducible apply frame_keyData
    | with_reducible apply frame_recordErrs
    | with_reducible apply frame_plainWrite
    | with_reducible apply frame_ringBell
    | with_reducible apply frame_popRing
    | with_reducible apply frame_modRing
    | with_reducible apply Frame.ite
    | (intro _ _ _)
    | split
    | dsimp only
    | exact Frame.trans h0 (fun p => by cases p <;> first | exact .inr rfl | exact .inl (m0 _ (by decide)))

theorem frame_winWrite {L0 : List Part} {o0 : Block} (o : Nat) (v : Nat) {b : Block} (h0 : Frame L0 o0 b) (m0 : ∀ p ∈ ([.outs, .pm, .svc, .keys, .ledger, .stop, .dbg, .free, .mgmt, .mail, .job, .fleet, .parcel, .post, .cores, .offices, .routers, .couriers] : List Part), p ∈ L0) :
    Frame L0 o0 (winWrite o v b) := by
  unfold winWrite
  repeat' first
    | with_reducible assumption
    | with_reducible exact fun p hp => m0 p (subs_of rfl p hp)
    | with_reducible apply frame_respond
    | with_reducible apply frame_recordErr
    | with_reducible apply frame_writeReg
    | with_reducible apply Frame.ite
    | (intro _ _ _)
    | split
    | dsimp only
    | exact Frame.trans h0 (fun p => by cases p <;> first | exact .inr rfl | exact .inl (m0 _ (by decide)))

/-! ### CoreCtl -/

theorem frame_modTime {L0 : List Part} {o0 : Block} (i : Nat) (f : CoreTime → CoreTime) {b : Block} (h0 : Frame L0 o0 b) (m0 : ∀ p ∈ ([.cores] : List Part), p ∈ L0) :
    Frame L0 o0 (modTime i f b) := by
  unfold modTime
  repeat' first
    | with_reducible assumption
    | with_reducible exact fun p hp => m0 p (subs_of rfl p hp)
    | with_reducible apply frame_modCore
    | with_reducible apply Frame.ite
    | (intro _ _ _)
    | split
    | dsimp only
    | exact Frame.trans h0 (fun p => by cases p <;> first | exact .inr rfl | exact .inl (m0 _ (by decide)))

theorem frame_modCtl {L0 : List Part} {o0 : Block} (i : Nat) (f : CoreCtl → CoreCtl) {b : Block} (h0 : Frame L0 o0 b) (m0 : ∀ p ∈ ([.cores] : List Part), p ∈ L0) :
    Frame L0 o0 (modCtl i f b) := by
  unfold modCtl
  repeat' first
    | with_reducible assumption
    | with_reducible exact fun p hp => m0 p (subs_of rfl p hp)
    | with_reducible apply frame_modCore
    | with_reducible apply Frame.ite
    | (intro _ _ _)
    | split
    | dsimp only
    | exact Frame.trans h0 (fun p => by cases p <;> first | exact .inr rfl | exact .inl (m0 _ (by decide)))

theorem frame_modPins {L0 : List Part} {o0 : Block} (i : Nat) (f : CorePins → CorePins) {b : Block} (h0 : Frame L0 o0 b) (m0 : ∀ p ∈ ([.cores] : List Part), p ∈ L0) :
    Frame L0 o0 (modPins i f b) := by
  unfold modPins
  repeat' first
    | with_reducible assumption
    | with_reducible exact fun p hp => m0 p (subs_of rfl p hp)
    | with_reducible apply frame_modCore
    | with_reducible apply Frame.ite
    | (intro _ _ _)
    | split
    | dsimp only
    | exact Frame.trans h0 (fun p => by cases p <;> first | exact .inr rfl | exact .inl (m0 _ (by decide)))

theorem frame_reportTest {L0 : List Part} {o0 : Block} (i : Nat) (mode : Nat) (unit : Nat) (res : Nat) (trig : Nat) (sig : Nat) (exp : Nat) {b : Block} (h0 : Frame L0 o0 b) (m0 : ∀ p ∈ ([.dbg, .mgmt, .mail] : List Part), p ∈ L0) :
    Frame L0 o0 (reportTest i mode unit res trig sig exp b) := by
  unfold reportTest
  repeat' first
    | with_reducible assumption
    | with_reducible exact fun p hp => m0 p (subs_of rfl p hp)
    | with_reducible apply frame_postEvent
    | with_reducible apply Frame.ite
    | (intro _ _ _)
    | split
    | dsimp only
    | exact Frame.trans h0 (fun p => by cases p <;> first | exact .inr rfl | exact .inl (m0 _ (by decide)))

theorem frame_orderBurst {L0 : List Part} {o0 : Block} (i : Nat) {b : Block} (h0 : Frame L0 o0 b) (m0 : ∀ p ∈ ([.cores, .offices] : List Part), p ∈ L0) :
    Frame L0 o0 (orderBurst i b) := by
  unfold orderBurst
  repeat' first
    | with_reducible assumption
    | with_reducible exact fun p hp => m0 p (subs_of rfl p hp)
    | with_reducible apply frame_modScr
    | with_reducible apply frame_modOffice
    | with_reducible apply Frame.ite
    | (intro _ _ _)
    | split
    | dsimp only
    | exact Frame.trans h0 (fun p => by cases p <;> first | exact .inr rfl | exact .inl (m0 _ (by decide)))

theorem frame_applyTested {L0 : List Part} {o0 : Block} (i : Nat) (failed : Bool) {b : Block} (h0 : Frame L0 o0 b) (m0 : ∀ p ∈ ([.ledger, .stop, .dbg, .mgmt, .mail, .job, .bm, .cores, .offices] : List Part), p ∈ L0) :
    Frame L0 o0 (applyTested i failed b) := by
  unfold applyTested
  repeat' first
    | with_reducible assumption
    | with_reducible exact fun p hp => m0 p (subs_of rfl p hp)
    | with_reducible apply frame_failTest
    | with_reducible apply frame_bmChanged
    | with_reducible apply frame_modHist
    | with_reducible apply Frame.ite
    | (intro _ _ _)
    | split
    | dsimp only
    | exact Frame.trans h0 (fun p => by cases p <;> first | exact .inr rfl | exact .inl (m0 _ (by decide)))

theorem frame_coreTested {L0 : List Part} {o0 : Block} (i : Nat) (failed : Bool) {b : Block} (h0 : Frame L0 o0 b) (m0 : ∀ p ∈ ([.ledger, .stop, .dbg, .mgmt, .mail, .job, .bm, .cores, .offices] : List Part), p ∈ L0) :
    Frame L0 o0 (coreTested i failed b) := by
  unfold coreTested
  repeat' first
    | with_reducible assumption
    | with_reducible exact fun p hp => m0 p (subs_of rfl p hp)
    | with_reducible apply frame_applyTested
    | with_reducible apply frame_modOffice
    | with_reducible apply Frame.ite
    | (intro _ _ _)
    | split
    | dsimp only
    | exact Frame.trans h0 (fun p => by cases p <;> first | exact .inr rfl | exact .inl (m0 _ (by decide)))

theorem frame_dropUnits {L0 : List Part} {o0 : Block} (i : Nat) (t : Trigger) {b : Block} (h0 : Frame L0 o0 b) (m0 : ∀ p ∈ ([.offices] : List Part), p ∈ L0) :
    Frame L0 o0 (dropUnits i t b) := by
  unfold dropUnits
  repeat' first
    | with_reducible assumption
    | with_reducible exact fun p hp => m0 p (subs_of rfl p hp)
    | with_reducible apply frame_modOffice
    | with_reducible apply Frame.ite
    | (intro _ _ _)
    | split
    | dsimp only
    | exact Frame.trans h0 (fun p => by cases p <;> first | exact .inr rfl | exact .inl (m0 _ (by decide)))

theorem frame_restoreUnit {L0 : List Part} {o0 : Block} (i : Nat) (failed : Bool) (rc : Nat) {b : Block} (h0 : Frame L0 o0 b) (m0 : ∀ p ∈ ([.ledger, .dbg, .mgmt, .mail, .post, .bm, .offices] : List Part), p ∈ L0) :
    Frame L0 o0 (restoreUnit i failed rc b) := by
  unfold restoreUnit
  repeat' first
    | with_reducible assumption
    | with_reducible exact fun p hp => m0 p (subs_of rfl p hp)
    | with_reducible apply frame_modOutst
    | with_reducible apply frame_dropUnits
    | with_reducible apply frame_bmChanged
    | with_reducible apply frame_setHist
    | with_reducible apply frame_finishOp
    | with_reducible apply frame_queueSuspicion
    | with_reducible apply frame_modHist
    | with_reducible apply Frame.ite
    | (intro _ _ _)
    | split
    | dsimp only
    | exact Frame.trans h0 (fun p => by cases p <;> first | exact .inr rfl | exact .inl (m0 _ (by decide)))

theorem frame_sweepNextCore {L0 : List Part} {o0 : Block} (r : Nat) (xs : List Nat) {b : Block} (h0 : Frame L0 o0 b)
    (m0 : ∀ p ∈ ([.dbg, .mgmt, .mail, .offices] : List Part), p ∈ L0) : Frame L0 o0 (sweepNextCore r xs b) := by
  induction xs generalizing b with
  | nil => exact frame_modOffice _ _ h0 (fun p hp => m0 p (subs_of rfl p hp))
  | cons i xs ih =>
    unfold sweepNextCore
    refine Frame.ite (Frame.forEach1 (frame_modOffice _ _ h0 (fun p hp => m0 p (subs_of rfl p hp))) fun x c hc => frame_queueUnit _ _ hc (fun p hp => m0 p (subs_of rfl p hp))) (ih h0)

theorem frame_sweepCheck {L0 : List Part} {o0 : Block} {b : Block} (h0 : Frame L0 o0 b) (m0 : ∀ p ∈ ([.ledger, .mgmt, .mail, .post] : List Part), p ∈ L0) :
    Frame L0 o0 (sweepCheck b) := by
  unfold sweepCheck
  repeat' first
    | with_reducible assumption
    | with_reducible exact fun p hp => m0 p (subs_of rfl p hp)
    | with_reducible apply frame_finishOp
    | with_reducible apply Frame.ite
    | (intro _ _ _)
    | split
    | dsimp only
    | exact Frame.trans h0 (fun p => by cases p <;> first | exact .inr rfl | exact .inl (m0 _ (by decide)))

theorem frame_sweepUnit {L0 : List Part} {o0 : Block} (i : Nat) (failed : Bool) {b : Block} (h0 : Frame L0 o0 b) (m0 : ∀ p ∈ ([.ledger, .dbg, .mgmt, .mail, .post, .offices] : List Part), p ∈ L0) :
    Frame L0 o0 (sweepUnit i failed b) := by
  unfold sweepUnit
  repeat' first
    | with_reducible assumption
    | with_reducible exact fun p hp => m0 p (subs_of rfl p hp)
    | with_reducible apply frame_dropUnits
    | with_reducible apply frame_sweepNextCore
    | with_reducible apply frame_sweepCheck
    | with_reducible apply frame_modOutst
    | with_reducible apply Frame.ite
    | (intro _ _ _)
    | split
    | dsimp only
    | exact Frame.trans h0 (fun p => by cases p <;> first | exact .inr rfl | exact .inl (m0 _ (by decide)))

theorem frame_endSweep {L0 : List Part} {o0 : Block} {b : Block} (h0 : Frame L0 o0 b) (m0 : ∀ p ∈ ([.ledger, .mgmt, .mail, .post, .offices] : List Part), p ∈ L0) :
    Frame L0 o0 (endSweep b) := by
  unfold endSweep
  repeat' first
    | with_reducible assumption
    | with_reducible exact fun p hp => m0 p (subs_of rfl p hp)
    | with_reducible apply Frame.forEach1
    | with_reducible apply frame_modOffice
    | with_reducible apply frame_sweepCheck
    | with_reducible apply frame_modOutst
    | with_reducible apply Frame.ite
    | (intro _ _ _)
    | split
    | dsimp only
    | exact Frame.trans h0 (fun p => by cases p <;> first | exact .inr rfl | exact .inl (m0 _ (by decide)))

theorem frame_rollingUnit {L0 : List Part} {o0 : Block} (i : Nat) {b : Block} (h0 : Frame L0 o0 b) (m0 : ∀ p ∈ ([.ledger, .dbg, .mgmt, .mail, .bm, .offices] : List Part), p ∈ L0) :
    Frame L0 o0 (rollingUnit i b) := by
  unfold rollingUnit
  repeat' first
    | with_reducible assumption
    | with_reducible exact fun p hp => m0 p (subs_of rfl p hp)
    | with_reducible apply frame_modOffice
    | with_reducible apply frame_modHist
    | with_reducible apply frame_publishDue
    | with_reducible apply frame_boundaryState
    | with_reducible apply Frame.ite
    | (intro _ _ _)
    | split
    | dsimp only
    | exact Frame.trans h0 (fun p => by cases p <;> first | exact .inr rfl | exact .inl (m0 _ (by decide)))

theorem frame_endHandshake {L0 : List Part} {o0 : Block} (i : Nat) (hold : Bool) (reinit : Bool) {b : Block} (h0 : Frame L0 o0 b) (m0 : ∀ p ∈ ([.cores] : List Part), p ∈ L0) :
    Frame L0 o0 (endHandshake i hold reinit b) := by
  unfold endHandshake
  repeat' first
    | with_reducible assumption
    | with_reducible exact fun p hp => m0 p (subs_of rfl p hp)
    | with_reducible apply frame_modCore
    | with_reducible apply Frame.ite
    | (intro _ _ _)
    | split
    | dsimp only
    | exact Frame.trans h0 (fun p => by cases p <;> first | exact .inr rfl | exact .inl (m0 _ (by decide)))

theorem frame_finishTest {L0 : List Part} {o0 : Block} (i : Nat) (u : TestRun) (res : TestResult) (sig : Nat) {b : Block} (h0 : Frame L0 o0 b) (m0 : ∀ p ∈ ([.ledger, .stop, .dbg, .mgmt, .mail, .job, .post, .bm, .cores, .offices] : List Part), p ∈ L0) :
    Frame L0 o0 (finishTest i u res sig b) := by
  unfold finishTest
  repeat' first
    | with_reducible assumption
    | with_reducible exact fun p hp => m0 p (subs_of rfl p hp)
    | with_reducible apply frame_endHandshake
    | with_reducible apply frame_bumpCtr
    | with_reducible apply frame_reportTest
    | with_reducible apply frame_modOffice
    | with_reducible apply frame_modCtl
    | with_reducible apply frame_orderBurst
    | with_reducible apply frame_queueUnit
    | with_reducible apply frame_coreTested
    | with_reducible apply frame_restoreUnit
    | with_reducible apply frame_sweepUnit
    | with_reducible apply frame_failTest
    | with_reducible apply frame_rollingUnit
    | with_reducible apply Frame.ite
    | (intro _ _ _)
    | split
    | dsimp only
    | exact Frame.trans h0 (fun p => by cases p <;> first | exact .inr rfl | exact .inl (m0 _ (by decide)))

theorem frame_corePorAssert {L0 : List Part} {o0 : Block} (i : Nat) {b : Block} (h0 : Frame L0 o0 b) (m0 : ∀ p ∈ ([.cores] : List Part), p ∈ L0) :
    Frame L0 o0 (corePorAssert i b) := by
  unfold corePorAssert
  repeat' first
    | with_reducible assumption
    | with_reducible exact fun p hp => m0 p (subs_of rfl p hp)
    | with_reducible apply frame_setCore
    | with_reducible apply Frame.ite
    | (intro _ _ _)
    | split
    | dsimp only
    | exact Frame.trans h0 (fun p => by cases p <;> first | exact .inr rfl | exact .inl (m0 _ (by decide)))

theorem frame_corePorRelease {L0 : List Part} {o0 : Block} (i : Nat) (ctrlPass : Bool) (checkPass : Bool) {b : Block} (h0 : Frame L0 o0 b) (m0 : ∀ p ∈ ([.ledger, .dbg, .mgmt, .mail, .bm, .cores, .offices] : List Part), p ∈ L0) :
    Frame L0 o0 (corePorRelease i ctrlPass checkPass b) := by
  unfold corePorRelease
  repeat' first
    | with_reducible assumption
    | with_reducible exact fun p hp => m0 p (subs_of rfl p hp)
    | with_reducible apply frame_setCore
    | with_reducible apply frame_reportTest
    | with_reducible apply frame_blockCore
    | with_reducible apply frame_unscreen
    | with_reducible apply Frame.ite
    | (intro _ _ _)
    | split
    | dsimp only
    | exact Frame.trans h0 (fun p => by cases p <;> first | exact .inr rfl | exact .inl (m0 _ (by decide)))

theorem frame_alignAttempt {L0 : List Part} {o0 : Block} (i : Nat) (cycles : Nat) {b : Block} (h0 : Frame L0 o0 b) (m0 : ∀ p ∈ ([.pm, .ledger, .bm, .cores, .offices] : List Part), p ∈ L0) :
    Frame L0 o0 (alignAttempt i cycles b) := by
  unfold alignAttempt
  repeat' first
    | with_reducible assumption
    | with_reducible exact fun p hp => m0 p (subs_of rfl p hp)
    | with_reducible apply frame_advTo
    | with_reducible apply frame_modTime
    | with_reducible apply frame_unscreen
    | with_reducible apply frame_lbEvent
    | with_reducible apply Frame.ite
    | (intro _ _ _)
    | split
    | dsimp only
    | exact Frame.trans h0 (fun p => by cases p <;> first | exact .inr rfl | exact .inl (m0 _ (by decide)))

theorem frame_alignCheck {L0 : List Part} {o0 : Block} (i : Nat) (cycles : Nat) {b : Block} (h0 : Frame L0 o0 b) (m0 : ∀ p ∈ ([.pm, .cores, .offices] : List Part), p ∈ L0) :
    Frame L0 o0 (alignCheck i cycles b) := by
  unfold alignCheck
  repeat' first
    | with_reducible assumption
    | with_reducible exact fun p hp => m0 p (subs_of rfl p hp)
    | with_reducible apply frame_advTo
    | with_reducible apply frame_lbEvent
    | with_reducible apply frame_modTime
    | with_reducible apply frame_addReason
    | with_reducible apply Frame.ite
    | (intro _ _ _)
    | split
    | dsimp only
    | exact Frame.trans h0 (fun p => by cases p <;> first | exact .inr rfl | exact .inl (m0 _ (by decide)))

theorem frame_alignmentEpochCheck {L0 : List Part} {o0 : Block} (i : Nat) (cycles : Nat) {b : Block} (h0 : Frame L0 o0 b) (m0 : ∀ p ∈ ([.pm, .ledger, .bm, .cores, .offices] : List Part), p ∈ L0) :
    Frame L0 o0 (alignmentEpochCheck i cycles b) := by
  unfold alignmentEpochCheck
  repeat' first
    | with_reducible assumption
    | with_reducible exact fun p hp => m0 p (subs_of rfl p hp)
    | with_reducible apply frame_alignCheck
    | with_reducible apply frame_alignAttempt
    | with_reducible apply Frame.ite
    | (intro _ _ _)
    | split
    | dsimp only
    | exact Frame.trans h0 (fun p => by cases p <;> first | exact .inr rfl | exact .inl (m0 _ (by decide)))

theorem frame_clockDeclared {L0 : List Part} {o0 : Block} (i : Nat) {b : Block} (h0 : Frame L0 o0 b) (m0 : ∀ p ∈ ([.cores] : List Part), p ∈ L0) :
    Frame L0 o0 (clockDeclared i b) := by
  unfold clockDeclared
  repeat' first
    | with_reducible assumption
    | with_reducible exact fun p hp => m0 p (subs_of rfl p hp)
    | with_reducible apply frame_modTime
    | with_reducible apply Frame.ite
    | (intro _ _ _)
    | split
    | dsimp only
    | exact Frame.trans h0 (fun p => by cases p <;> first | exact .inr rfl | exact .inl (m0 _ (by decide)))

theorem frame_clockEnded {L0 : List Part} {o0 : Block} (i : Nat) {b : Block} (h0 : Frame L0 o0 b) (m0 : ∀ p ∈ ([.cores] : List Part), p ∈ L0) :
    Frame L0 o0 (clockEnded i b) := by
  unfold clockEnded
  repeat' first
    | with_reducible assumption
    | with_reducible exact fun p hp => m0 p (subs_of rfl p hp)
    | with_reducible apply frame_modTime
    | with_reducible apply Frame.ite
    | (intro _ _ _)
    | split
    | dsimp only
    | exact Frame.trans h0 (fun p => by cases p <;> first | exact .inr rfl | exact .inl (m0 _ (by decide)))

theorem frame_slip {L0 : List Part} {o0 : Block} (i : Nat) (entry : Nat) (exp : Nat) (cyc : Nat) (pm : Nat) {b : Block} (h0 : Frame L0 o0 b) (m0 : ∀ p ∈ ([.ledger, .stop, .dbg, .mgmt, .mail, .job, .bm, .cores, .offices] : List Part), p ∈ L0) :
    Frame L0 o0 (slip i entry exp cyc pm b) := by
  unfold slip
  repeat' first
    | with_reducible assumption
    | with_reducible exact fun p hp => m0 p (subs_of rfl p hp)
    | with_reducible apply frame_lbEvent
    | with_reducible apply frame_modTime
    | with_reducible apply frame_nameRole
    | with_reducible apply frame_addReason
    | with_reducible apply frame_charge
    | with_reducible apply Frame.ite
    | (intro _ _ _)
    | split
    | dsimp only
    | exact Frame.trans h0 (fun p => by cases p <;> first | exact .inr rfl | exact .inl (m0 _ (by decide)))

theorem frame_sendStall {L0 : List Part} {o0 : Block} (i : Nat) (update : Bool) {b : Block} (h0 : Frame L0 o0 b) (m0 : ∀ p ∈ ([.post, .cores, .offices, .routers, .couriers] : List Part), p ∈ L0) :
    Frame L0 o0 (sendStall i update b) := by
  unfold sendStall
  repeat' first
    | with_reducible assumption
    | with_reducible exact fun p hp => m0 p (subs_of rfl p hp)
    | with_reducible apply frame_unicast
    | with_reducible apply Frame.ite
    | (intro _ _ _)
    | split
    | dsimp only
    | exact Frame.trans h0 (fun p => by cases p <;> first | exact .inr rfl | exact .inl (m0 _ (by decide)))

theorem frame_doStall {L0 : List Part} {o0 : Block} (i : Nat) (entry : Nat) (exp : Nat) (cyc : Nat) {b : Block} (h0 : Frame L0 o0 b) (m0 : ∀ p ∈ ([.post, .cores, .offices, .routers, .couriers] : List Part), p ∈ L0) :
    Frame L0 o0 (doStall i entry exp cyc b) := by
  unfold doStall
  repeat' first
    | with_reducible assumption
    | with_reducible exact fun p hp => m0 p (subs_of rfl p hp)
    | with_reducible apply frame_modTime
    | with_reducible apply frame_sendStall
    | with_reducible apply frame_lbEvent
    | with_reducible apply frame_addReason
    | with_reducible apply Frame.ite
    | (intro _ _ _)
    | split
    | dsimp only
    | exact Frame.trans h0 (fun p => by cases p <;> first | exact .inr rfl | exact .inl (m0 _ (by decide)))

theorem frame_judgeMilestone {L0 : List Part} {o0 : Block} (i : Nat) (e : TtEntry) (cyc : Nat) (stamp : Nat) {b : Block} (h0 : Frame L0 o0 b) (m0 : ∀ p ∈ ([.ledger, .stop, .dbg, .mgmt, .mail, .job, .post, .bm, .cores, .offices, .routers, .couriers] : List Part), p ∈ L0) :
    Frame L0 o0 (judgeMilestone i e cyc stamp b) := by
  unfold judgeMilestone
  repeat' first
    | with_reducible assumption
    | with_reducible exact fun p hp => m0 p (subs_of rfl p hp)
    | with_reducible apply frame_doStall
    | with_reducible apply frame_slip
    | with_reducible apply frame_modTime
    | with_reducible apply Frame.ite
    | (intro _ _ _)
    | split
    | dsimp only
    | exact Frame.trans h0 (fun p => by cases p <;> first | exact .inr rfl | exact .inl (m0 _ (by decide)))

theorem frame_milestone {L0 : List Part} {o0 : Block} (i : Nat) (id : Nat) (cyc : Nat) {b : Block} (h0 : Frame L0 o0 b) (m0 : ∀ p ∈ ([.pm, .ledger, .stop, .dbg, .mgmt, .mail, .job, .post, .bm, .cores, .offices, .routers, .couriers] : List Part), p ∈ L0) :
    Frame L0 o0 (milestone i id cyc b) := by
  unfold milestone
  repeat' first
    | with_reducible assumption
    | with_reducible exact fun p hp => m0 p (subs_of rfl p hp)
    | with_reducible apply frame_advTo
    | with_reducible apply frame_bumpCtr
    | with_reducible apply frame_modTime
    | with_reducible apply frame_judgeMilestone
    | with_reducible apply frame_slip
    | with_reducible apply Frame.ite
    | (intro _ _ _)
    | split
    | dsimp only
    | exact Frame.trans h0 (fun p => by cases p <;> first | exact .inr rfl | exact .inl (m0 _ (by decide)))

theorem frame_stall {L0 : List Part} {o0 : Block} (i : Nat) {b : Block} (h0 : Frame L0 o0 b) (m0 : ∀ p ∈ ([.pm, .post, .cores, .offices, .routers, .couriers] : List Part), p ∈ L0) :
    Frame L0 o0 (stall i b) := by
  unfold stall
  repeat' first
    | with_reducible assumption
    | with_reducible exact fun p hp => m0 p (subs_of rfl p hp)
    | with_reducible apply frame_advTo
    | with_reducible apply frame_doStall
    | with_reducible apply frame_modTime
    | with_reducible apply Frame.ite
    | (intro _ _ _)
    | split
    | dsimp only
    | exact Frame.trans h0 (fun p => by cases p <;> first | exact .inr rfl | exact .inl (m0 _ (by decide)))

theorem frame_waitUpdate {L0 : List Part} {o0 : Block} (i : Nat) {b : Block} (h0 : Frame L0 o0 b) (m0 : ∀ p ∈ ([.post, .cores, .offices, .routers, .couriers] : List Part), p ∈ L0) :
    Frame L0 o0 (waitUpdate i b) := by
  unfold waitUpdate
  repeat' first
    | with_reducible assumption
    | with_reducible exact fun p hp => m0 p (subs_of rfl p hp)
    | with_reducible apply frame_sendStall
    | with_reducible apply Frame.ite
    | (intro _ _ _)
    | split
    | dsimp only
    | exact Frame.trans h0 (fun p => by cases p <;> first | exact .inr rfl | exact .inl (m0 _ (by decide)))

theorem frame_waitBegin {L0 : List Part} {o0 : Block} (i : Nat) (chan : Nat) (peer : Nat) {b : Block} (h0 : Frame L0 o0 b) (m0 : ∀ p ∈ ([.post, .cores, .offices, .routers, .couriers] : List Part), p ∈ L0) :
    Frame L0 o0 (waitBegin i chan peer b) := by
  unfold waitBegin
  repeat' first
    | with_reducible assumption
    | with_reducible exact fun p hp => m0 p (subs_of rfl p hp)
    | with_reducible apply frame_waitUpdate
    | with_reducible apply frame_modTime
    | with_reducible apply Frame.ite
    | (intro _ _ _)
    | split
    | dsimp only
    | exact Frame.trans h0 (fun p => by cases p <;> first | exact .inr rfl | exact .inl (m0 _ (by decide)))

theorem frame_waitClear {L0 : List Part} {o0 : Block} (i : Nat) {b : Block} (h0 : Frame L0 o0 b) (m0 : ∀ p ∈ ([.post, .cores, .offices, .routers, .couriers] : List Part), p ∈ L0) :
    Frame L0 o0 (waitClear i b) := by
  unfold waitClear
  repeat' first
    | with_reducible assumption
    | with_reducible exact fun p hp => m0 p (subs_of rfl p hp)
    | with_reducible apply frame_waitUpdate
    | with_reducible apply frame_modTime
    | with_reducible apply Frame.ite
    | (intro _ _ _)
    | split
    | dsimp only
    | exact Frame.trans h0 (fun p => by cases p <;> first | exact .inr rfl | exact .inl (m0 _ (by decide)))

theorem frame_fenceOrder {L0 : List Part} {o0 : Block} (i : Nat) (toHold : Bool) {b : Block} (h0 : Frame L0 o0 b) (m0 : ∀ p ∈ ([.cores] : List Part), p ∈ L0) :
    Frame L0 o0 (fenceOrder i toHold b) := by
  unfold fenceOrder
  repeat' first
    | with_reducible assumption
    | with_reducible exact fun p hp => m0 p (subs_of rfl p hp)
    | with_reducible apply frame_fenceHold
    | with_reducible apply frame_modCtl
    | with_reducible apply frame_modCore
    | with_reducible apply Frame.ite
    | (intro _ _ _)
    | split
    | dsimp only
    | exact Frame.trans h0 (fun p => by cases p <;> first | exact .inr rfl | exact .inl (m0 _ (by decide)))

theorem frame_fenceAck {L0 : List Part} {o0 : Block} (i : Nat) {b : Block} (h0 : Frame L0 o0 b) (m0 : ∀ p ∈ ([.cores] : List Part), p ∈ L0) :
    Frame L0 o0 (fenceAck i b) := by
  unfold fenceAck
  repeat' first
    | with_reducible assumption
    | with_reducible exact fun p hp => m0 p (subs_of rfl p hp)
    | with_reducible apply frame_modCore
    | with_reducible apply Frame.ite
    | (intro _ _ _)
    | split
    | dsimp only
    | exact Frame.trans h0 (fun p => by cases p <;> first | exact .inr rfl | exact .inl (m0 _ (by decide)))

theorem frame_fenceTimeout {L0 : List Part} {o0 : Block} (i : Nat) {b : Block} (h0 : Frame L0 o0 b) (m0 : ∀ p ∈ ([.cores, .offices] : List Part), p ∈ L0) :
    Frame L0 o0 (fenceTimeout i b) := by
  unfold fenceTimeout
  repeat' first
    | with_reducible assumption
    | with_reducible exact fun p hp => m0 p (subs_of rfl p hp)
    | with_reducible apply frame_lbEvent
    | with_reducible apply frame_modCore
    | with_reducible apply Frame.ite
    | (intro _ _ _)
    | split
    | dsimp only
    | exact Frame.trans h0 (fun p => by cases p <;> first | exact .inr rfl | exact .inl (m0 _ (by decide)))

theorem frame_releaseCore {L0 : List Part} {o0 : Block} (i : Nat) {b : Block} (h0 : Frame L0 o0 b) (m0 : ∀ p ∈ ([.cores] : List Part), p ∈ L0) :
    Frame L0 o0 (releaseCore i b) := by
  unfold releaseCore
  repeat' first
    | with_reducible assumption
    | with_reducible exact fun p hp => m0 p (subs_of rfl p hp)
    | with_reducible apply frame_modCore
    | with_reducible apply frame_fenceAck
    | with_reducible apply Frame.ite
    | (intro _ _ _)
    | split
    | dsimp only
    | exact Frame.trans h0 (fun p => by cases p <;> first | exact .inr rfl | exact .inl (m0 _ (by decide)))

theorem frame_coreRelease {L0 : List Part} {o0 : Block} (i : Nat) {b : Block} (h0 : Frame L0 o0 b) (m0 : ∀ p ∈ ([.cores] : List Part), p ∈ L0) :
    Frame L0 o0 (coreRelease i b) := by
  unfold coreRelease
  repeat' first
    | with_reducible assumption
    | with_reducible exact fun p hp => m0 p (subs_of rfl p hp)
    | with_reducible apply frame_releaseCore
    | with_reducible apply Frame.ite
    | (intro _ _ _)
    | split
    | dsimp only
    | exact Frame.trans h0 (fun p => by cases p <;> first | exact .inr rfl | exact .inl (m0 _ (by decide)))

theorem frame_driveTest {L0 : List Part} {o0 : Block} (i : Nat) (u : TestRun) {b : Block} (h0 : Frame L0 o0 b) (m0 : ∀ p ∈ ([.cores] : List Part), p ∈ L0) :
    Frame L0 o0 (driveTest i u b) := by
  unfold driveTest
  repeat' first
    | with_reducible assumption
    | with_reducible exact fun p hp => m0 p (subs_of rfl p hp)
    | with_reducible apply frame_modCore
    | with_reducible apply Frame.ite
    | (intro _ _ _)
    | split
    | dsimp only
    | exact Frame.trans h0 (fun p => by cases p <;> first | exact .inr rfl | exact .inl (m0 _ (by decide)))

theorem frame_testRequest {L0 : List Part} {o0 : Block} (i : Nat) (engine : Option (BitVec 2 × BitVec 16)) {b : Block} (h0 : Frame L0 o0 b) (m0 : ∀ p ∈ ([.ledger, .stop, .dbg, .mgmt, .mail, .job, .post, .bm, .cores, .offices] : List Part), p ∈ L0) :
    Frame L0 o0 (testRequest i engine b) := by
  unfold testRequest
  repeat' first
    | with_reducible assumption
    | with_reducible exact fun p hp => m0 p (subs_of rfl p hp)
    | with_reducible apply frame_finishTest
    | with_reducible apply frame_lbEvent
    | with_reducible apply frame_driveTest
    | with_reducible apply Frame.ite
    | (intro _ _ _)
    | split
    | dsimp only
    | exact Frame.trans h0 (fun p => by cases p <;> first | exact .inr rfl | exact .inl (m0 _ (by decide)))

theorem frame_testAck {L0 : List Part} {o0 : Block} (i : Nat) {b : Block} (h0 : Frame L0 o0 b) (m0 : ∀ p ∈ ([.cores] : List Part), p ∈ L0) :
    Frame L0 o0 (testAck i b) := by
  unfold testAck
  repeat' first
    | with_reducible assumption
    | with_reducible exact fun p hp => m0 p (subs_of rfl p hp)
    | with_reducible apply frame_modCtl
    | with_reducible apply Frame.ite
    | (intro _ _ _)
    | split
    | dsimp only
    | exact Frame.trans h0 (fun p => by cases p <;> first | exact .inr rfl | exact .inl (m0 _ (by decide)))

theorem frame_testDone {L0 : List Part} {o0 : Block} (i : Nat) (pass : Bool) (sig : Nat) {b : Block} (h0 : Frame L0 o0 b) (m0 : ∀ p ∈ ([.ledger, .stop, .dbg, .mgmt, .mail, .job, .post, .bm, .cores, .offices] : List Part), p ∈ L0) :
    Frame L0 o0 (testDone i pass sig b) := by
  unfold testDone
  repeat' first
    | with_reducible assumption
    | with_reducible exact fun p hp => m0 p (subs_of rfl p hp)
    | with_reducible apply frame_finishTest
    | with_reducible apply Frame.ite
    | (intro _ _ _)
    | split
    | dsimp only
    | exact Frame.trans h0 (fun p => by cases p <;> first | exact .inr rfl | exact .inl (m0 _ (by decide)))

theorem frame_testTimeout {L0 : List Part} {o0 : Block} (i : Nat) {b : Block} (h0 : Frame L0 o0 b) (m0 : ∀ p ∈ ([.ledger, .stop, .dbg, .mgmt, .mail, .job, .post, .bm, .cores, .offices] : List Part), p ∈ L0) :
    Frame L0 o0 (testTimeout i b) := by
  unfold testTimeout
  repeat' first
    | with_reducible assumption
    | with_reducible exact fun p hp => m0 p (subs_of rfl p hp)
    | with_reducible apply frame_finishTest
    | with_reducible apply frame_lbEvent
    | with_reducible apply Frame.ite
    | (intro _ _ _)
    | split
    | dsimp only
    | exact Frame.trans h0 (fun p => by cases p <;> first | exact .inr rfl | exact .inl (m0 _ (by decide)))

theorem frame_captureRequest {L0 : List Part} {o0 : Block} (i : Nat) (load : Bool) (_beats : Nat) {b : Block} (h0 : Frame L0 o0 b) (m0 : ∀ p ∈ ([.cores] : List Part), p ∈ L0) :
    Frame L0 o0 (captureRequest i load _beats b) := by
  unfold captureRequest
  repeat' first
    | with_reducible assumption
    | with_reducible exact fun p hp => m0 p (subs_of rfl p hp)
    | with_reducible apply frame_modCore
    | with_reducible apply Frame.ite
    | (intro _ _ _)
    | split
    | dsimp only
    | exact Frame.trans h0 (fun p => by cases p <;> first | exact .inr rfl | exact .inl (m0 _ (by decide)))

theorem frame_captureAck {L0 : List Part} {o0 : Block} (i : Nat) {b : Block} (h0 : Frame L0 o0 b) (m0 : ∀ p ∈ ([.cores] : List Part), p ∈ L0) :
    Frame L0 o0 (captureAck i b) := by
  unfold captureAck
  repeat' first
    | with_reducible assumption
    | with_reducible exact fun p hp => m0 p (subs_of rfl p hp)
    | with_reducible apply frame_modCore
    | with_reducible apply Frame.ite
    | (intro _ _ _)
    | split
    | dsimp only
    | exact Frame.trans h0 (fun p => by cases p <;> first | exact .inr rfl | exact .inl (m0 _ (by decide)))

theorem frame_endCapture {L0 : List Part} {o0 : Block} (i : Nat) (k : Capture) {b : Block} (h0 : Frame L0 o0 b) (m0 : ∀ p ∈ ([.cores] : List Part), p ∈ L0) :
    Frame L0 o0 (endCapture i k b) := by
  unfold endCapture
  repeat' first
    | with_reducible assumption
    | with_reducible exact fun p hp => m0 p (subs_of rfl p hp)
    | with_reducible apply frame_modCore
    | with_reducible apply Frame.ite
    | (intro _ _ _)
    | split
    | dsimp only
    | exact Frame.trans h0 (fun p => by cases p <;> first | exact .inr rfl | exact .inl (m0 _ (by decide)))

theorem frame_captureBeat {L0 : List Part} {o0 : Block} (i : Nat) (data : Flit) (last : Bool) {b : Block} (h0 : Frame L0 o0 b) (m0 : ∀ p ∈ ([.cores, .offices] : List Part), p ∈ L0) :
    Frame L0 o0 (captureBeat i data last b) := by
  unfold captureBeat
  repeat' first
    | with_reducible assumption
    | with_reducible exact fun p hp => m0 p (subs_of rfl p hp)
    | with_reducible apply frame_modCore
    | with_reducible apply frame_endCapture
    | with_reducible apply frame_lbEvent
    | with_reducible apply Frame.ite
    | (intro _ _ _)
    | split
    | dsimp only
    | exact Frame.trans h0 (fun p => by cases p <;> first | exact .inr rfl | exact .inl (m0 _ (by decide)))

theorem frame_captureTimeout {L0 : List Part} {o0 : Block} (i : Nat) {b : Block} (h0 : Frame L0 o0 b) (m0 : ∀ p ∈ ([.cores, .offices] : List Part), p ∈ L0) :
    Frame L0 o0 (captureTimeout i b) := by
  unfold captureTimeout
  repeat' first
    | with_reducible assumption
    | with_reducible exact fun p hp => m0 p (subs_of rfl p hp)
    | with_reducible apply frame_endCapture
    | with_reducible apply frame_lbEvent
    | with_reducible apply Frame.ite
    | (intro _ _ _)
    | split
    | dsimp only
    | exact Frame.trans h0 (fun p => by cases p <;> first | exact .inr rfl | exact .inl (m0 _ (by decide)))

theorem frame_deliverCapture {L0 : List Part} {o0 : Block} (i : Nat) (k : Capture) {b : Block} (h0 : Frame L0 o0 b) (m0 : ∀ p ∈ ([.ledger, .stop, .dbg, .mgmt, .mail, .job, .parcel, .post, .cores, .offices, .routers, .couriers] : List Part), p ∈ L0) :
    Frame L0 o0 (deliverCapture i k b) := by
  unfold deliverCapture
  repeat' first
    | with_reducible assumption
    | with_reducible exact fun p hp => m0 p (subs_of rfl p hp)
    | with_reducible apply frame_failFill
    | with_reducible apply frame_modJob
    | with_reducible apply frame_failParcel
    | with_reducible apply Frame.forEach1
    | with_reducible apply frame_unicast
    | with_reducible apply Frame.ite
    | (intro _ _ _)
    | split
    | dsimp only
    | exact Frame.trans h0 (fun p => by cases p <;> first | exact .inr rfl | exact .inl (m0 _ (by decide)))

theorem frame_captureClose {L0 : List Part} {o0 : Block} (i : Nat) {b : Block} (h0 : Frame L0 o0 b) (m0 : ∀ p ∈ ([.ledger, .stop, .dbg, .mgmt, .mail, .job, .parcel, .post, .cores, .offices, .routers, .couriers] : List Part), p ∈ L0) :
    Frame L0 o0 (captureClose i b) := by
  unfold captureClose
  repeat' first
    | with_reducible assumption
    | with_reducible exact fun p hp => m0 p (subs_of rfl p hp)
    | with_reducible apply frame_modCore
    | with_reducible apply frame_deliverCapture
    | with_reducible apply frame_fenceHold
    | with_reducible apply Frame.ite
    | (intro _ _ _)
    | split
    | dsimp only
    | exact Frame.trans h0 (fun p => by cases p <;> first | exact .inr rfl | exact .inl (m0 _ (by decide)))

/-! ### BringUp -/

theorem frame_measureLeg {L0 : List Part} {o0 : Block} (l : LegSample) {b : Block} (h0 : Frame L0 o0 b) (m0 : ∀ p ∈ ([.free] : List Part), p ∈ L0) :
    Frame L0 o0 (measureLeg l b).2 := by
  unfold measureLeg
  repeat' first
    | with_reducible assumption
    | with_reducible exact fun p hp => m0 p (subs_of rfl p hp)
    | with_reducible apply frame_freshBit
    | with_reducible apply Frame.ite
    | (intro _ _ _)
    | split
    | dsimp only
    | exact Frame.trans h0 (fun p => by cases p <;> first | exact .inr rfl | exact .inl (m0 _ (by decide)))

theorem frame_setLeg {L0 : List Part} {o0 : Block} (l : LegSample) {b : Block} (h0 : Frame L0 o0 b) (m0 : ∀ p ∈ ([.pm, .free] : List Part), p ∈ L0) :
    Frame L0 o0 (setLeg l b) := by
  unfold setLeg
  repeat' first
    | with_reducible assumption
    | with_reducible exact fun p hp => m0 p (subs_of rfl p hp)
    | with_reducible apply frame_measureLeg
    | with_reducible apply frame_modPm
    | with_reducible apply Frame.ite
    | (intro _ _ _)
    | split
    | dsimp only
    | exact Frame.trans h0 (fun p => by cases p <;> first | exact .inr rfl | exact .inl (m0 _ (by decide)))

theorem frame_calibrate {L0 : List Part} {o0 : Block} (l : LegSample) {b : Block} (h0 : Frame L0 o0 b) (m0 : ∀ p ∈ ([.pm, .ledger, .free, .post, .bm, .cores, .offices, .routers, .couriers] : List Part), p ∈ L0) :
    Frame L0 o0 (calibrate l b) := by
  unfold calibrate
  repeat' first
    | with_reducible assumption
    | with_reducible exact fun p hp => m0 p (subs_of rfl p hp)
    | with_reducible apply frame_setLeg
    | with_reducible apply frame_modCourier
    | with_reducible apply frame_modOffice
    | with_reducible apply frame_loseFirst
    | with_reducible apply Frame.ite
    | (intro _ _ _)
    | split
    | dsimp only
    | exact Frame.trans h0 (fun p => by cases p <;> first | exact .inr rfl | exact .inl (m0 _ (by decide)))

theorem frame_postmarkTestDone {L0 : List Part} {o0 : Block} (pass : Bool) (legs : List LegSample) {b : Block} (h0 : Frame L0 o0 b) (m0 : ∀ p ∈ ([.outs, .pm, .svc, .ledger, .dbg, .free, .mgmt, .mail, .job, .post, .bm, .cores, .offices, .routers, .couriers] : List Part), p ∈ L0) :
    Frame L0 o0 (postmarkTestDone pass legs b) := by
  unfold postmarkTestDone
  repeat' first
    | with_reducible assumption
    | with_reducible exact fun p hp => m0 p (subs_of rfl p hp)
    | with_reducible apply frame_enterSafe
    | with_reducible apply Frame.forEach1
    | with_reducible apply frame_calibrate
    | with_reducible apply frame_modSvc
    | with_reducible apply Frame.ite
    | (intro _ _ _)
    | split
    | dsimp only
    | exact Frame.trans h0 (fun p => by cases p <;> first | exact .inr rfl | exact .inl (m0 _ (by decide)))

theorem frame_noImage {L0 : List Part} {o0 : Block} {b : Block} (h0 : Frame L0 o0 b) (m0 : ∀ p ∈ ([.outs, .svc, .dbg, .mgmt, .mail] : List Part), p ∈ L0) :
    Frame L0 o0 (noImage b) := by
  unfold noImage
  repeat' first
    | with_reducible assumption
    | with_reducible exact fun p hp => m0 p (subs_of rfl p hp)
    | with_reducible apply frame_raiseAlarm
    | with_reducible apply frame_setSvc
    | with_reducible apply frame_modSvc
    | with_reducible apply Frame.ite
    | (intro _ _ _)
    | split
    | dsimp only
    | exact Frame.trans h0 (fun p => by cases p <;> first | exact .inr rfl | exact .inl (m0 _ (by decide)))

theorem frame_loadImage {L0 : List Part} {o0 : Block} (bootSel : Nat) (s0 : Option (List Byte)) (s1 : Option (List Byte)) {b : Block} (h0 : Frame L0 o0 b) (m0 : ∀ p ∈ ([.outs, .svc, .dbg, .mgmt, .mail] : List Part), p ∈ L0) :
    Frame L0 o0 (loadImage bootSel s0 s1 b) := by
  unfold loadImage
  repeat' first
    | with_reducible assumption
    | with_reducible exact fun p hp => m0 p (subs_of rfl p hp)
    | with_reducible apply frame_noImage
    | with_reducible apply frame_setSvc
    | with_reducible apply frame_modMgmt
    | with_reducible apply frame_modSvc
    | with_reducible apply Frame.ite
    | (intro _ _ _)
    | split
    | dsimp only
    | exact Frame.trans h0 (fun p => by cases p <;> first | exact .inr rfl | exact .inl (m0 _ (by decide)))

theorem frame_headOfficeTestDone {L0 : List Part} {o0 : Block} (pass : Bool) (dbgPass : Bool) (bootSel : Nat) (s0 : Option (List Byte)) (s1 : Option (List Byte)) {b : Block} (h0 : Frame L0 o0 b) (m0 : ∀ p ∈ ([.outs, .svc, .ledger, .dbg, .mgmt, .mail, .job, .post, .cores] : List Part), p ∈ L0) :
    Frame L0 o0 (headOfficeTestDone pass dbgPass bootSel s0 s1 b) := by
  unfold headOfficeTestDone
  repeat' first
    | with_reducible assumption
    | with_reducible exact fun p hp => m0 p (subs_of rfl p hp)
    | with_reducible apply frame_modSvc
    | with_reducible apply frame_enterSafe
    | with_reducible apply frame_setIrqMisc
    | with_reducible apply frame_modOuts
    | with_reducible apply frame_pumpAll
    | with_reducible apply frame_loadImage
    | with_reducible apply Frame.ite
    | (intro _ _ _)
    | split
    | dsimp only
    | exact Frame.trans h0 (fun p => by cases p <;> first | exact .inr rfl | exact .inl (m0 _ (by decide)))

theorem frame_configurationCheck {L0 : List Part} {o0 : Block} (image : List Host.Cell) (present : List (Nat × Nat)) {b : Block} (h0 : Frame L0 o0 b) (m0 : ∀ p ∈ ([.outs, .svc, .cfg, .dbg, .mgmt, .mail] : List Part), p ∈ L0) :
    Frame L0 o0 (configurationCheck image present b) := by
  unfold configurationCheck
  exact Frame.ite h0 (Frame.ite (frame_with_cfg h0 _ (fun p hp => m0 p (subs_of rfl p hp))) (frame_noImage h0 (fun p hp => m0 p (subs_of rfl p hp))))

theorem frame_loseHolds {L0 : List Part} {o0 : Block} {b : Block} (h0 : Frame L0 o0 b) (m0 : ∀ p ∈ ([.ledger] : List Part), p ∈ L0) :
    Frame L0 o0 (loseHolds b) := by
  unfold loseHolds
  repeat' first
    | with_reducible assumption
    | with_reducible exact fun p hp => m0 p (subs_of rfl p hp)
    | with_reducible apply frame_modLedger
    | with_reducible apply Frame.ite
    | (intro _ _ _)
    | split
    | dsimp only
    | exact Frame.trans h0 (fun p => by cases p <;> first | exact .inr rfl | exact .inl (m0 _ (by decide)))

theorem frame_ledgerReloadDone {L0 : List Part} {o0 : Block} (sa : Option LedgerImage) (sb : Option LedgerImage) {b : Block} (h0 : Frame L0 o0 b) (m0 : ∀ p ∈ ([.svc, .ledger, .arch, .bm, .offices] : List Part), p ∈ L0) :
    Frame L0 o0 (ledgerReloadDone sa sb b) := by
  unfold ledgerReloadDone
  refine Frame.ite h0 (Frame.forEach1 (frame_modSvc _ (frame_modBm _ (Frame.ite (frame_withLedgerArch h0 _ _ (fun p hp => m0 p (subs_of rfl p hp))) (frame_loseHolds (frame_withLedgerArch h0 _ _ (fun p hp => m0 p (subs_of rfl p hp))) (fun p hp => m0 p (subs_of rfl p hp)))) (fun p hp => m0 p (subs_of rfl p hp))) (fun p hp => m0 p (subs_of rfl p hp))) fun x c hc => frame_modOffice _ _ hc (fun p hp => m0 p (subs_of rfl p hp)))

theorem frame_officeMemberTestDone {L0 : List Part} {o0 : Block} (r : Nat) (mb : Bool) (pass : Bool) (legs : List LegSample) {b : Block} (h0 : Frame L0 o0 b) (m0 : ∀ p ∈ ([.pm, .ledger, .dbg, .free, .mgmt, .mail, .post, .bm, .cores, .offices, .routers, .nodes, .couriers] : List Part), p ∈ L0) :
    Frame L0 o0 (officeMemberTestDone r mb pass legs b) := by
  unfold officeMemberTestDone
  repeat' first
    | with_reducible assumption
    | with_reducible exact fun p hp => m0 p (subs_of rfl p hp)
    | with_reducible apply Frame.forEach1
    | with_reducible apply frame_calibrate
    | with_reducible apply frame_modOffice
    | with_reducible apply frame_writeServing
    | with_reducible apply frame_blockCore
    | with_reducible apply frame_postEvent
    | with_reducible apply Frame.ite
    | (intro _ _ _)
    | split
    | dsimp only
    | exact Frame.trans h0 (fun p => by cases p <;> first | exact .inr rfl | exact .inl (m0 _ (by decide)))

theorem frame_routerLoopbackDone {L0 : List Part} {o0 : Block} (r : Nat) (k : Nat) (pass : Bool) {b : Block} (h0 : Frame L0 o0 b) (m0 : ∀ p ∈ ([.ledger, .post, .bm, .cores, .offices, .routers] : List Part), p ∈ L0) :
    Frame L0 o0 (routerLoopbackDone r k pass b) := by
  unfold routerLoopbackDone
  repeat' first
    | with_reducible assumption
    | with_reducible exact fun p hp => m0 p (subs_of rfl p hp)
    | with_reducible apply frame_modOffice
    | with_reducible apply frame_loseFirst
    | with_reducible apply Frame.ite
    | (intro _ _ _)
    | split
    | dsimp only
    | exact Frame.trans h0 (fun p => by cases p <;> first | exact .inr rfl | exact .inl (m0 _ (by decide)))

theorem frame_courierTested {L0 : List Part} {o0 : Block} (n : Nat) (portPass : Bool) (tapPass : Bool) {b : Block} (h0 : Frame L0 o0 b) (m0 : ∀ p ∈ ([.ledger, .stop, .dbg, .mgmt, .mail, .fleet, .parcel, .post, .cores, .offices, .routers, .couriers] : List Part), p ∈ L0) :
    Frame L0 o0 (courierTested n portPass tapPass b) := by
  unfold courierTested
  repeat' first
    | with_reducible assumption
    | with_reducible exact fun p hp => m0 p (subs_of rfl p hp)
    | with_reducible apply frame_modCourier
    | with_reducible apply frame_disableDomain
    | with_reducible apply frame_enablePort
    | with_reducible apply Frame.ite
    | (intro _ _ _)
    | split
    | dsimp only
    | exact Frame.trans h0 (fun p => by cases p <;> first | exact .inr rfl | exact .inl (m0 _ (by decide)))

theorem frame_courierDomainTestDone {L0 : List Part} {o0 : Block} (n : Nat) (portPass : Bool) (tapPass : Bool) {b : Block} (h0 : Frame L0 o0 b) (m0 : ∀ p ∈ ([.ledger, .stop, .dbg, .mgmt, .mail, .fleet, .parcel, .post, .cores, .offices, .routers, .couriers] : List Part), p ∈ L0) :
    Frame L0 o0 (courierDomainTestDone n portPass tapPass b) := by
  unfold courierDomainTestDone
  repeat' first
    | with_reducible assumption
    | with_reducible exact fun p hp => m0 p (subs_of rfl p hp)
    | with_reducible apply frame_courierTested
    | with_reducible apply Frame.ite
    | (intro _ _ _)
    | split
    | dsimp only
    | exact Frame.trans h0 (fun p => by cases p <;> first | exact .inr rfl | exact .inl (m0 _ (by decide)))

theorem frame_officeLedgerDelivered {L0 : List Part} {o0 : Block} (r : Nat) {b : Block} (h0 : Frame L0 o0 b) (m0 : ∀ p ∈ ([.ledger, .stop, .dbg, .mgmt, .mail, .job, .bm, .cores, .offices] : List Part), p ∈ L0) :
    Frame L0 o0 (officeLedgerDelivered r b) := by
  unfold officeLedgerDelivered
  repeat' first
    | with_reducible assumption
    | with_reducible exact fun p hp => m0 p (subs_of rfl p hp)
    | with_reducible apply frame_modOffice
    | with_reducible apply Frame.forEach1
    | with_reducible apply frame_applyTested
    | with_reducible apply frame_unscreen
    | with_reducible apply Frame.ite
    | (intro _ _ _)
    | split
    | dsimp only
    | exact Frame.trans h0 (fun p => by cases p <;> first | exact .inr rfl | exact .inl (m0 _ (by decide)))

theorem frame_endJob {L0 : List Part} {o0 : Block} {b : Block} (h0 : Frame L0 o0 b) (m0 : ∀ p ∈ ([.outs, .pm, .ledger, .stop, .dbg, .mgmt, .mail, .job, .fleet, .parcel, .post, .bm, .cores, .offices] : List Part), p ∈ L0) :
    Frame L0 o0 (endJob b) := by
  unfold endJob
  repeat' first
    | with_reducible assumption
    | with_reducible exact fun p hp => m0 p (subs_of rfl p hp)
    | with_reducible apply frame_beginTeardown
    | with_reducible apply Frame.ite
    | (intro _ _ _)
    | split
    | dsimp only
    | exact Frame.trans h0 (fun p => by cases p <;> first | exact .inr rfl | exact .inl (m0 _ (by decide)))

theorem frame_enterOOS {L0 : List Part} {o0 : Block} {b : Block} (h0 : Frame L0 o0 b) (m0 : ∀ p ∈ ([.outs, .pm, .svc, .ledger, .stop, .dbg, .mgmt, .mail, .job, .fleet, .parcel, .post, .bm, .cores, .offices] : List Part), p ∈ L0) :
    Frame L0 o0 (enterOOS b) := by
  unfold enterOOS
  repeat' first
    | with_reducible assumption
    | with_reducible exact fun p hp => m0 p (subs_of rfl p hp)
    | with_reducible apply frame_endJob
    | with_reducible apply Frame.forEach1
    | with_reducible apply frame_fenceHold
    | with_reducible apply frame_setSvc
    | with_reducible apply frame_raiseAlarm
    | with_reducible apply Frame.ite
    | (intro _ _ _)
    | split
    | dsimp only
    | exact Frame.trans h0 (fun p => by cases p <;> first | exact .inr rfl | exact .inl (m0 _ (by decide)))

theorem frame_startWarm {L0 : List Part} {o0 : Block} (cause : Nat) {b : Block} (h0 : Frame L0 o0 b) (m0 : ∀ p ∈ ([.outs, .pm, .svc, .ledger, .stop, .dbg, .mgmt, .mail, .job, .resets, .fleet, .parcel, .image, .post, .bm, .cores, .offices] : List Part), p ∈ L0) :
    Frame L0 o0 (startWarm cause b) := by
  unfold startWarm
  repeat' first
    | with_reducible assumption
    | with_reducible exact fun p hp => m0 p (subs_of rfl p hp)
    | with_reducible apply frame_enterOOS
    | with_reducible apply frame_modResets
    | with_reducible apply frame_setSvc
    | with_reducible apply frame_modSvc
    | with_reducible apply frame_hostDone
    | with_reducible apply frame_endJob
    | with_reducible apply Frame.forEach1
    | with_reducible apply frame_modOffice
    | with_reducible apply frame_modHist
    | with_reducible apply frame_modBm
    | with_reducible apply frame_modImage
    | with_reducible apply frame_modDebug
    | with_reducible apply frame_loseHolds
    | with_reducible apply frame_raiseWarm
    | with_reducible apply Frame.ite
    | (intro _ _ _)
    | split
    | dsimp only
    | exact Frame.trans h0 (fun p => by cases p <;> first | exact .inr rfl | exact .inl (m0 _ (by decide)))

theorem frame_coldOff {L0 : List Part} {o0 : Block} {b : Block} (h0 : Frame L0 o0 b) (m0 : ∀ p ∈ ([.outs, .pm, .svc, .keys, .cfg, .ledger, .stop, .dbg, .mgmt, .mail, .job, .policy, .resets, .fleet, .parcel, .image, .post, .bm, .cores, .offices, .routers, .nodes, .couriers] : List Part), p ∈ L0) :
    Frame L0 o0 (coldOff b) := by
  unfold coldOff
  repeat' first
    | with_reducible assumption
    | with_reducible exact fun p hp => m0 p (subs_of rfl p hp)
    | with_reducible apply Frame.ite
    | with_reducible refine frame_with_stop ?_ _ ?_
    | with_reducible refine frame_with_pm ?_ _ ?_
    | with_reducible refine frame_with_keys ?_ _ ?_
    | with_reducible refine frame_with_dbg ?_ _ ?_
    | with_reducible refine frame_with_outs ?_ _ ?_
    | with_reducible refine frame_with_cfg ?_ _ ?_
    | with_reducible refine frame_with_svc ?_ _ ?_
    | with_reducible refine frame_with_ledger ?_ _ ?_
    | (intro _ _ _)
    | split
    | dsimp only
    | exact Frame.trans h0 (fun p => by cases p <;> first | exact .inr rfl | exact .inl (m0 _ (by decide)))

theorem frame_coldProgress {L0 : List Part} {o0 : Block} {b : Block} (h0 : Frame L0 o0 b) (m0 : ∀ p ∈ ([.outs, .pm, .svc, .keys, .cfg, .ledger, .stop, .dbg, .mgmt, .mail, .job, .policy, .resets, .fleet, .parcel, .image, .post, .bm, .cores, .offices, .routers, .nodes, .couriers] : List Part), p ∈ L0) :
    Frame L0 o0 (coldProgress b) := by
  unfold coldProgress
  repeat' first
    | with_reducible assumption
    | with_reducible exact fun p hp => m0 p (subs_of rfl p hp)
    | with_reducible apply frame_coldOff
    | with_reducible apply Frame.ite
    | (intro _ _ _)
    | split
    | dsimp only
    | exact Frame.trans h0 (fun p => by cases p <;> first | exact .inr rfl | exact .inl (m0 _ (by decide)))

theorem frame_beginCold {L0 : List Part} {o0 : Block} (cause : Nat) {b : Block} (h0 : Frame L0 o0 b) (m0 : ∀ p ∈ ([.outs, .pm, .svc, .keys, .cfg, .ledger, .arch, .stop, .dbg, .mgmt, .mail, .job, .policy, .resets, .fleet, .parcel, .image, .post, .bm, .cores, .offices, .routers, .nodes, .couriers] : List Part), p ∈ L0) :
    Frame L0 o0 (beginCold cause b) := by
  unfold beginCold
  repeat' first
    | with_reducible assumption
    | with_reducible exact fun p hp => m0 p (subs_of rfl p hp)
    | with_reducible apply frame_advTo
    | with_reducible apply frame_modOuts
    | with_reducible apply frame_endJob
    | with_reducible apply frame_endTeardown
    | with_reducible apply frame_abandonCapture
    | with_reducible apply frame_modPm
    | with_reducible apply frame_modResets
    | with_reducible apply frame_setSvc
    | with_reducible apply frame_modSvc
    | with_reducible apply frame_hostDone
    | with_reducible apply frame_coldOff
    | with_reducible apply frame_coldProgress
    | with_reducible apply frame_startPersist
    | with_reducible apply Frame.ite
    | (intro _ _ _)
    | split
    | dsimp only
    | exact Frame.trans h0 (fun p => by cases p <;> first | exact .inr rfl | exact .inl (m0 _ (by decide)))

theorem frame_startCold {L0 : List Part} {o0 : Block} (cause : Nat) {b : Block} (h0 : Frame L0 o0 b) (m0 : ∀ p ∈ ([.outs, .pm, .svc, .keys, .cfg, .ledger, .arch, .stop, .dbg, .mgmt, .mail, .job, .policy, .resets, .fleet, .parcel, .image, .post, .bm, .cores, .offices, .routers, .nodes, .couriers] : List Part), p ∈ L0) :
    Frame L0 o0 (startCold cause b) := by
  unfold startCold
  repeat' first
    | with_reducible assumption
    | with_reducible exact fun p hp => m0 p (subs_of rfl p hp)
    | with_reducible apply frame_modSvc
    | with_reducible apply frame_beginCold
    | with_reducible apply Frame.ite
    | (intro _ _ _)
    | split
    | dsimp only
    | exact Frame.trans h0 (fun p => by cases p <;> first | exact .inr rfl | exact .inl (m0 _ (by decide)))

theorem frame_driveWave {L0 : List Part} {o0 : Block} (on : Bool) (w : Nat) {b : Block} (h0 : Frame L0 o0 b) (m0 : ∀ p ∈ ([.outs, .pm, .svc] : List Part), p ∈ L0) :
    Frame L0 o0 (driveWave on w b) := by
  unfold driveWave
  repeat' first
    | with_reducible assumption
    | with_reducible exact fun p hp => m0 p (subs_of rfl p hp)
    | with_reducible apply frame_advTo
    | with_reducible apply frame_modOuts
    | with_reducible apply frame_modSvc
    | with_reducible apply Frame.ite
    | (intro _ _ _)
    | split
    | dsimp only
    | exact Frame.trans h0 (fun p => by cases p <;> first | exact .inr rfl | exact .inl (m0 _ (by decide)))

theorem frame_waveRequest {L0 : List Part} {o0 : Block} {b : Block} (h0 : Frame L0 o0 b) (m0 : ∀ p ∈ ([.outs, .pm, .svc] : List Part), p ∈ L0) :
    Frame L0 o0 (waveRequest b) := by
  unfold waveRequest
  repeat' first
    | with_reducible assumption
    | with_reducible exact fun p hp => m0 p (subs_of rfl p hp)
    | with_reducible apply frame_driveWave
    | with_reducible apply frame_modSvc
    | with_reducible apply Frame.ite
    | (intro _ _ _)
    | split
    | dsimp only
    | exact Frame.trans h0 (fun p => by cases p <;> first | exact .inr rfl | exact .inl (m0 _ (by decide)))

theorem frame_afterWave {L0 : List Part} {o0 : Block} {b : Block} (h0 : Frame L0 o0 b) (m0 : ∀ p ∈ ([.outs, .pm, .svc, .keys, .cfg, .ledger, .arch, .stop, .dbg, .mgmt, .mail, .job, .policy, .resets, .fleet, .parcel, .image, .post, .bm, .cores, .offices, .routers, .nodes, .couriers] : List Part), p ∈ L0) :
    Frame L0 o0 (afterWave b) := by
  unfold afterWave
  repeat' first
    | with_reducible assumption
    | with_reducible exact fun p hp => m0 p (subs_of rfl p hp)
    | with_reducible apply frame_hoEvent
    | with_reducible apply frame_modSvc
    | with_reducible apply frame_beginCold
    | with_reducible apply frame_coldProgress
    | with_reducible apply Frame.ite
    | (intro _ _ _)
    | split
    | dsimp only
    | exact Frame.trans h0 (fun p => by cases p <;> first | exact .inr rfl | exact .inl (m0 _ (by decide)))

theorem frame_waveOff {L0 : List Part} {o0 : Block} (w : Nat) {b : Block} (h0 : Frame L0 o0 b) (m0 : ∀ p ∈ ([.svc, .cores] : List Part), p ∈ L0) :
    Frame L0 o0 (waveOff w b) := by
  unfold waveOff
  repeat' first
    | with_reducible assumption
    | with_reducible exact fun p hp => m0 p (subs_of rfl p hp)
    | with_reducible apply Frame.forEach1
    | with_reducible apply frame_setCore
    | with_reducible apply frame_modSvc
    | with_reducible apply Frame.ite
    | (intro _ _ _)
    | split
    | dsimp only
    | exact Frame.trans h0 (fun p => by cases p <;> first | exact .inr rfl | exact .inl (m0 _ (by decide)))

theorem frame_waveAck {L0 : List Part} {o0 : Block} {b : Block} (h0 : Frame L0 o0 b) (m0 : ∀ p ∈ ([.outs, .pm, .svc, .keys, .cfg, .ledger, .arch, .stop, .dbg, .mgmt, .mail, .job, .policy, .resets, .fleet, .parcel, .image, .post, .bm, .cores, .offices, .routers, .nodes, .couriers] : List Part), p ∈ L0) :
    Frame L0 o0 (waveAck b) := by
  unfold waveAck
  repeat' first
    | with_reducible assumption
    | with_reducible exact fun p hp => m0 p (subs_of rfl p hp)
    | with_reducible apply frame_modOuts
    | with_reducible apply frame_modSvc
    | with_reducible apply frame_waveOff
    | with_reducible apply frame_afterWave
    | with_reducible apply Frame.ite
    | (intro _ _ _)
    | split
    | dsimp only
    | exact Frame.trans h0 (fun p => by cases p <;> first | exact .inr rfl | exact .inl (m0 _ (by decide)))

theorem frame_waveFailed {L0 : List Part} {o0 : Block} {b : Block} (h0 : Frame L0 o0 b) (m0 : ∀ p ∈ ([.outs, .pm, .svc, .keys, .cfg, .ledger, .arch, .stop, .dbg, .mgmt, .mail, .job, .policy, .resets, .fleet, .parcel, .image, .post, .bm, .cores, .offices, .routers, .nodes, .couriers] : List Part), p ∈ L0) :
    Frame L0 o0 (waveFailed b) := by
  unfold waveFailed
  repeat' first
    | with_reducible assumption
    | with_reducible exact fun p hp => m0 p (subs_of rfl p hp)
    | with_reducible apply frame_modOuts
    | with_reducible apply frame_modSvc
    | with_reducible apply Frame.forEach1
    | with_reducible apply frame_blockCore
    | with_reducible apply frame_afterWave
    | with_reducible apply frame_waveOff
    | with_reducible apply Frame.ite
    | (intro _ _ _)
    | split
    | dsimp only
    | exact Frame.trans h0 (fun p => by cases p <;> first | exact .inr rfl | exact .inl (m0 _ (by decide)))

theorem frame_boardMapPublication {L0 : List Part} {o0 : Block} {b : Block} (h0 : Frame L0 o0 b) (m0 : ∀ p ∈ ([.svc, .ledger, .stop, .dbg, .mgmt, .mail, .post, .bm, .offices] : List Part), p ∈ L0) :
    Frame L0 o0 (boardMapPublication b) := by
  unfold boardMapPublication
  repeat' first
    | with_reducible assumption
    | with_reducible exact fun p hp => m0 p (subs_of rfl p hp)
    | with_reducible apply Frame.forEach1
    | with_reducible apply frame_unscreen
    | with_reducible apply frame_queueSuspicion
    | with_reducible apply frame_publish
    | with_reducible apply frame_hoEvent
    | with_reducible apply frame_setSvc
    | with_reducible apply frame_modSvc
    | with_reducible apply frame_clearCause
    | with_reducible apply frame_abortLong
    | with_reducible apply frame_finishOp
    | with_reducible apply frame_pumpAll
    | with_reducible apply Frame.ite
    | (intro _ _ _)
    | split
    | dsimp only
    | exact Frame.trans h0 (fun p => by cases p <;> first | exact .inr rfl | exact .inl (m0 _ (by decide)))

/-! ### Resets -/

theorem frame_persistDone {L0 : List Part} {o0 : Block} {b : Block} (h0 : Frame L0 o0 b) (m0 : ∀ p ∈ ([.outs, .pm, .svc, .keys, .cfg, .ledger, .arch, .stop, .dbg, .mgmt, .mail, .job, .policy, .resets, .fleet, .parcel, .image, .post, .bm, .cores, .offices, .routers, .nodes, .couriers] : List Part), p ∈ L0) :
    Frame L0 o0 (persistDone b) := by
  unfold persistDone
  repeat' first
    | with_reducible assumption
    | with_reducible exact fun p hp => m0 p (subs_of rfl p hp)
    | with_reducible apply frame_coldProgress
    | with_reducible refine frame_with_outs ?_ _ ?_
    | with_reducible refine frame_with_arch ?_ _ ?_
    | with_reducible apply Frame.ite
    | (intro _ _ _)
    | split
    | dsimp only
    | exact Frame.trans h0 (fun p => by cases p <;> first | exact .inr rfl | exact .inl (m0 _ (by decide)))

theorem frame_persistNext {L0 : List Part} {o0 : Block} (step : Nat) (page : Nat) {b : Block} (h0 : Frame L0 o0 b) (m0 : ∀ p ∈ ([.outs, .arch] : List Part), p ∈ L0) :
    Frame L0 o0 (persistNext step page b) := by
  unfold persistNext
  repeat' first
    | with_reducible assumption
    | with_reducible exact fun p hp => m0 p (subs_of rfl p hp)
    | with_reducible apply Frame.ite
    | with_reducible refine frame_with_outs ?_ _ ?_
    | with_reducible refine frame_with_arch ?_ _ ?_
    | (intro _ _ _)
    | split
    | dsimp only
    | exact Frame.trans h0 (fun p => by cases p <;> first | exact .inr rfl | exact .inl (m0 _ (by decide)))

theorem frame_archiveDone {L0 : List Part} {o0 : Block} (status : Nat) {b : Block} (h0 : Frame L0 o0 b) (m0 : ∀ p ∈ ([.outs, .pm, .svc, .keys, .cfg, .ledger, .arch, .stop, .dbg, .mgmt, .mail, .job, .policy, .resets, .fleet, .parcel, .image, .post, .bm, .cores, .offices, .routers, .nodes, .couriers] : List Part), p ∈ L0) :
    Frame L0 o0 (archiveDone status b) := by
  unfold archiveDone
  split
  · exact h0
  · refine Frame.ite (frame_coldProgress (frame_withArchOuts h0 _ _ (fun p hp => m0 p (subs_of rfl p hp))) (fun p hp => m0 p (subs_of rfl p hp))) ?_
    refine Frame.ite (Frame.ite (frame_persistNext _ _ h0 (fun p hp => m0 p (subs_of rfl p hp))) (frame_persistNext _ _ h0 (fun p hp => m0 p (subs_of rfl p hp)))) ?_
    refine Frame.ite (frame_persistNext _ _ h0 (fun p hp => m0 p (subs_of rfl p hp))) ?_
    exact Frame.ite (frame_persistNext _ _ h0 (fun p hp => m0 p (subs_of rfl p hp))) (frame_persistDone h0 (fun p hp => m0 p (subs_of rfl p hp)))

theorem frame_shutdownRequest {L0 : List Part} {o0 : Block} {b : Block} (h0 : Frame L0 o0 b) (m0 : ∀ p ∈ ([.env, .outs, .pm, .svc, .ledger, .arch, .stop, .dbg, .mgmt, .mail, .job, .parcel, .post, .cores] : List Part), p ∈ L0) :
    Frame L0 o0 (shutdownRequest b) := by
  unfold shutdownRequest
  repeat' first
    | with_reducible assumption
    | with_reducible exact fun p hp => m0 p (subs_of rfl p hp)
    | with_reducible apply frame_setIrqMisc
    | with_reducible apply frame_modEnv
    | with_reducible apply frame_hoEvent
    | with_reducible apply frame_modSvc
    | with_reducible apply frame_originate
    | with_reducible apply frame_startPersist
    | with_reducible apply frame_abandonCapture
    | with_reducible apply Frame.ite
    | (intro _ _ _)
    | split
    | dsimp only
    | exact Frame.trans h0 (fun p => by cases p <;> first | exact .inr rfl | exact .inl (m0 _ (by decide)))

theorem frame_dropTrace {L0 : List Part} {o0 : Block} {b : Block} (h0 : Frame L0 o0 b) (m0 : ∀ p ∈ ([.dbg, .free] : List Part), p ∈ L0) :
    Frame L0 o0 (dropTrace b) := by
  unfold dropTrace
  repeat' first
    | with_reducible assumption
    | with_reducible exact fun p hp => m0 p (subs_of rfl p hp)
    | with_reducible apply frame_freshWord
    | with_reducible apply frame_modDebug
    | with_reducible apply Frame.ite
    | (intro _ _ _)
    | split
    | dsimp only
    | exact Frame.trans h0 (fun p => by cases p <;> first | exact .inr rfl | exact .inl (m0 _ (by decide)))

theorem frame_sramUncorrectable {L0 : List Part} {o0 : Block} (m : SramUnit) {b : Block} (h0 : Frame L0 o0 b) (m0 : ∀ p ∈ ([.outs, .svc, .ledger, .stop, .dbg, .free, .mgmt, .mail, .job, .fleet, .parcel, .post, .bm, .cores, .offices, .routers, .nodes, .couriers] : List Part), p ∈ L0) :
    Frame L0 o0 (sramUncorrectable m b) := by
  unfold sramUncorrectable
  repeat' first
    | with_reducible assumption
    | with_reducible exact fun p hp => m0 p (subs_of rfl p hp)
    | with_reducible apply frame_failLetterbox
    | with_reducible apply frame_failMember
    | with_reducible apply frame_enterSafe
    | with_reducible apply frame_xferEnd
    | with_reducible apply frame_dropTrace
    | with_reducible apply Frame.ite
    | (intro _ _ _)
    | split
    | dsimp only
    | exact Frame.trans h0 (fun p => by cases p <;> first | exact .inr rfl | exact .inl (m0 _ (by decide)))

theorem frame_hostDone {L0 : List Part} {o0 : Block} {b : Block} (h0 : Frame L0 o0 b) (m0 : ∀ p ∈ ([.outs, .svc, .dbg, .mgmt, .mail] : List Part), p ∈ L0) :
    Frame L0 o0 (hostDone b) := by
  unfold hostDone
  repeat' first
    | with_reducible assumption
    | with_reducible exact fun p hp => m0 p (subs_of rfl p hp)
    | with_reducible apply frame_modOuts
    | with_reducible apply frame_modSvc
    | with_reducible apply frame_hoEvent
    | with_reducible apply frame_modDebug
    | with_reducible apply Frame.ite
    | (intro _ _ _)
    | split
    | dsimp only
    | exact Frame.trans h0 (fun p => by cases p <;> first | exact .inr rfl | exact .inl (m0 _ (by decide)))

theorem frame_hostWarmTimeout {L0 : List Part} {o0 : Block} {b : Block} (h0 : Frame L0 o0 b) (m0 : ∀ p ∈ ([.outs, .pm, .svc, .keys, .cfg, .ledger, .arch, .stop, .dbg, .mgmt, .mail, .job, .policy, .resets, .fleet, .parcel, .image, .post, .bm, .cores, .offices, .routers, .nodes, .couriers] : List Part), p ∈ L0) :
    Frame L0 o0 (hostWarmTimeout b) := by
  unfold hostWarmTimeout
  repeat' first
    | with_reducible assumption
    | with_reducible exact fun p hp => m0 p (subs_of rfl p hp)
    | with_reducible apply frame_startCold
    | with_reducible apply frame_hoEvent
    | with_reducible apply frame_advTo
    | with_reducible apply Frame.ite
    | (intro _ _ _)
    | split
    | dsimp only
    | exact Frame.trans h0 (fun p => by cases p <;> first | exact .inr rfl | exact .inl (m0 _ (by decide)))

theorem frame_hostColdTimeout {L0 : List Part} {o0 : Block} {b : Block} (h0 : Frame L0 o0 b) (m0 : ∀ p ∈ ([.outs, .pm, .svc, .ledger, .stop, .dbg, .mgmt, .mail, .job, .fleet, .parcel, .post, .bm, .cores, .offices] : List Part), p ∈ L0) :
    Frame L0 o0 (hostColdTimeout b) := by
  unfold hostColdTimeout
  repeat' first
    | with_reducible assumption
    | with_reducible exact fun p hp => m0 p (subs_of rfl p hp)
    | with_reducible apply frame_hoEvent
    | with_reducible apply frame_advTo
    | with_reducible apply frame_modOuts
    | with_reducible apply frame_enterOOS
    | with_reducible apply frame_modSvc
    | with_reducible apply Frame.ite
    | (intro _ _ _)
    | split
    | dsimp only
    | exact Frame.trans h0 (fun p => by cases p <;> first | exact .inr rfl | exact .inl (m0 _ (by decide)))

theorem frame_resetWindowExpiry {L0 : List Part} {o0 : Block} {b : Block} (h0 : Frame L0 o0 b) (m0 : ∀ p ∈ ([.pm, .resets] : List Part), p ∈ L0) :
    Frame L0 o0 (resetWindowExpiry b) := by
  unfold resetWindowExpiry
  repeat' first
    | with_reducible assumption
    | with_reducible exact fun p hp => m0 p (subs_of rfl p hp)
    | with_reducible apply frame_advTo
    | with_reducible apply frame_modResets
    | with_reducible apply Frame.ite
    | (intro _ _ _)
    | split
    | dsimp only
    | exact Frame.trans h0 (fun p => by cases p <;> first | exact .inr rfl | exact .inl (m0 _ (by decide)))

theorem frame_remeasure {L0 : List Part} {o0 : Block} (l : LegSample) {b : Block} (h0 : Frame L0 o0 b) (m0 : ∀ p ∈ ([.pm, .dbg, .free, .mgmt, .mail] : List Part), p ∈ L0) :
    Frame L0 o0 (remeasure l b) := by
  unfold remeasure
  repeat' first
    | with_reducible assumption
    | with_reducible exact fun p hp => m0 p (subs_of rfl p hp)
    | with_reducible apply frame_measureLeg
    | with_reducible apply frame_modPm
    | with_reducible apply frame_postEvent
    | with_reducible apply Frame.ite
    | (intro _ _ _)
    | split
    | dsimp only
    | exact Frame.trans h0 (fun p => by cases p <;> first | exact .inr rfl | exact .inl (m0 _ (by decide)))

theorem frame_legRemeasure {L0 : List Part} {o0 : Block} (legs : List LegSample) {b : Block} (h0 : Frame L0 o0 b) (m0 : ∀ p ∈ ([.pm, .dbg, .free, .mgmt, .mail] : List Part), p ∈ L0) :
    Frame L0 o0 (legRemeasure legs b) := by
  unfold legRemeasure
  repeat' first
    | with_reducible assumption
    | with_reducible exact fun p hp => m0 p (subs_of rfl p hp)
    | with_reducible apply frame_applyLegs
    | with_reducible apply Frame.forEach1
    | with_reducible apply frame_remeasure
    | with_reducible apply Frame.ite
    | (intro _ _ _)
    | split
    | dsimp only
    | exact Frame.trans h0 (fun p => by cases p <;> first | exact .inr rfl | exact .inl (m0 _ (by decide)))

theorem frame_powerIdValid {L0 : List Part} {o0 : Block} (vld : Bool) (feed : BitVec 16) (loop : BitVec 16) (rack : BitVec 24) {b : Block} (h0 : Frame L0 o0 b) (m0 : ∀ p ∈ ([.env, .svc, .dbg, .mgmt, .mail, .fleet, .parcel, .post] : List Part), p ∈ L0) :
    Frame L0 o0 (powerIdValid vld feed loop rack b) := by
  unfold powerIdValid
  repeat' first
    | with_reducible assumption
    | with_reducible exact fun p hp => m0 p (subs_of rfl p hp)
    | with_reducible apply frame_modEnv
    | with_reducible apply frame_modSvc
    | with_reducible apply frame_hoEvent
    | with_reducible apply frame_reselect
    | with_reducible apply Frame.forEach1
    | with_reducible apply frame_sendHello
    | with_reducible apply Frame.ite
    | (intro _ _ _)
    | split
    | dsimp only
    | exact Frame.trans h0 (fun p => by cases p <;> first | exact .inr rfl | exact .inl (m0 _ (by decide)))

theorem frame_missWindow {L0 : List Part} {o0 : Block} (i : Nat) {b : Block} (h0 : Frame L0 o0 b) (m0 : ∀ p ∈ ([.ledger, .dbg, .mgmt, .mail, .post, .bm, .cores, .offices] : List Part), p ∈ L0) :
    Frame L0 o0 (missWindow i b) := by
  unfold missWindow
  repeat' first
    | with_reducible assumption
    | with_reducible exact fun p hp => m0 p (subs_of rfl p hp)
    | with_reducible apply frame_blockCore
    | with_reducible apply frame_modCtl
    | with_reducible apply frame_postEvent
    | with_reducible apply frame_finishOp
    | with_reducible apply frame_dropUnits
    | with_reducible apply Frame.ite
    | (intro _ _ _)
    | split
    | dsimp only
    | exact Frame.trans h0 (fun p => by cases p <;> first | exact .inr rfl | exact .inl (m0 _ (by decide)))

theorem frame_loseVok {L0 : List Part} {o0 : Block} (i : Nat) {b : Block} (h0 : Frame L0 o0 b) (m0 : ∀ p ∈ ([.ledger, .dbg, .mgmt, .mail, .post, .bm, .cores, .offices] : List Part), p ∈ L0) :
    Frame L0 o0 (loseVok i b) := by
  unfold loseVok
  repeat' first
    | with_reducible assumption
    | with_reducible exact fun p hp => m0 p (subs_of rfl p hp)
    | with_reducible apply frame_modCtl
    | with_reducible apply frame_missWindow
    | with_reducible apply Frame.ite
    | (intro _ _ _)
    | split
    | dsimp only
    | exact Frame.trans h0 (fun p => by cases p <;> first | exact .inr rfl | exact .inl (m0 _ (by decide)))

theorem frame_regionVokFall {L0 : List Part} {o0 : Block} (r : Nat) (restored : Bool) {b : Block} (h0 : Frame L0 o0 b) (m0 : ∀ p ∈ ([.env, .ledger, .dbg, .mgmt, .mail, .post, .bm, .cores, .offices] : List Part), p ∈ L0) :
    Frame L0 o0 (regionVokFall r restored b) := by
  unfold regionVokFall
  repeat' first
    | with_reducible assumption
    | with_reducible exact fun p hp => m0 p (subs_of rfl p hp)
    | with_reducible apply frame_modEnv
    | with_reducible apply Frame.forEach1
    | with_reducible apply frame_loseVok
    | with_reducible apply Frame.ite
    | (intro _ _ _)
    | split
    | dsimp only
    | exact Frame.trans h0 (fun p => by cases p <;> first | exact .inr rfl | exact .inl (m0 _ (by decide)))

theorem frame_testWindow {L0 : List Part} {o0 : Block} (i : Nat) {b : Block} (h0 : Frame L0 o0 b) (m0 : ∀ p ∈ ([.ledger, .dbg, .mgmt, .mail, .post, .bm, .cores, .offices] : List Part), p ∈ L0) :
    Frame L0 o0 (testWindow i b) := by
  unfold testWindow
  repeat' first
    | with_reducible assumption
    | with_reducible exact fun p hp => m0 p (subs_of rfl p hp)
    | with_reducible apply frame_missWindow
    | with_reducible apply frame_modCtl
    | with_reducible apply frame_modOffice
    | with_reducible apply Frame.ite
    | (intro _ _ _)
    | split
    | dsimp only
    | exact Frame.trans h0 (fun p => by cases p <;> first | exact .inr rfl | exact .inl (m0 _ (by decide)))

end Sys2Proof.Machine
end

