-- ==== Sys2Proof/Laws/FrameStep.lean ====
section
/-! SUPPORT. The frame of every operation of the Arbiter, verdicts, fills, the test scheduler, stops and images: the parts of the block it can change. -/

namespace Sys2Proof.Machine

open Sys2Proof

/-! ### Arbiter -/

theorem frame_modSt {L0 : List Part} {o0 : Block} (r : Nat) (f : OfficeStep → OfficeStep) {b : Block} (h0 : Frame L0 o0 b) (m0 : ∀ p ∈ ([.offices] : List Part), p ∈ L0) :
    Frame L0 o0 (modSt r f b) := by
  unfold modSt
  repeat' first
    | with_reducible assumption
    | with_reducible exact fun p hp => m0 p (subs_of rfl p hp)
    | with_reducible apply frame_modOffice
    | with_reducible apply Frame.ite
    | (intro _ _ _)
    | split
    | dsimp only
    | exact Frame.trans h0 (fun p => by cases p <;> first | exact .inr rfl | exact .inl (m0 _ (by decide)))

theorem frame_modDice {L0 : List Part} {o0 : Block} (r : Nat) (f : DiceSt → DiceSt) {b : Block} (h0 : Frame L0 o0 b) (m0 : ∀ p ∈ ([.offices] : List Part), p ∈ L0) :
    Frame L0 o0 (modDice r f b) := by
  unfold modDice
  repeat' first
    | with_reducible assumption
    | with_reducible exact fun p hp => m0 p (subs_of rfl p hp)
    | with_reducible apply frame_modOffice
    | with_reducible apply Frame.ite
    | (intro _ _ _)
    | split
    | dsimp only
    | exact Frame.trans h0 (fun p => by cases p <;> first | exact .inr rfl | exact .inl (m0 _ (by decide)))

theorem frame_takeEvq {L0 : List Part} {o0 : Block} (r c : Nat) (f : Packet → Bool) {b d : Block} {p : Packet} (e : takeEvq r c f b = some (p, d))
    (h0 : Frame L0 o0 b) (m0 : ∀ p ∈ ([.offices] : List Part), p ∈ L0) : Frame L0 o0 d := by
  unfold takeEvq at e
  cases hx : takeRx f ((tget (b.office r).evq c).getD []) with
  | none => rw [hx] at e; exact absurd e (by simp)
  | some x =>
    rw [hx] at e
    obtain ⟨-, rfl⟩ := Prod.mk.inj (Option.some.inj e)
    exact frame_modOffice _ _ h0 m0

theorem frame_diceDrop {L0 : List Part} {o0 : Block} (r : Nat) {b : Block} (h0 : Frame L0 o0 b) (m0 : ∀ p ∈ ([.dbg, .mgmt, .mail, .offices] : List Part), p ∈ L0) :
    Frame L0 o0 (diceDrop r b) := by
  unfold diceDrop
  repeat' first
    | with_reducible assumption
    | with_reducible exact fun p hp => m0 p (subs_of rfl p hp)
    | with_reducible apply frame_postEvent
    | with_reducible apply frame_modDice
    | with_reducible apply Frame.ite
    | (intro _ _ _)
    | split
    | dsimp only
    | exact Frame.trans h0 (fun p => by cases p <;> first | exact .inr rfl | exact .inl (m0 _ (by decide)))

theorem frame_promote {L0 : List Part} {o0 : Block} (r : Nat) (role : Nat) (tid : Nat) {b : Block} (h0 : Frame L0 o0 b) (m0 : ∀ p ∈ ([.dbg, .mgmt, .mail, .offices] : List Part), p ∈ L0) :
    Frame L0 o0 (promote r role tid b) := by
  unfold promote
  repeat' first
    | with_reducible assumption
    | with_reducible exact fun p hp => m0 p (subs_of rfl p hp)
    | with_reducible apply frame_modDice
    | with_reducible apply frame_diceDrop
    | with_reducible apply Frame.ite
    | (intro _ _ _)
    | split
    | dsimp only
    | exact Frame.trans h0 (fun p => by cases p <;> first | exact .inr rfl | exact .inl (m0 _ (by decide)))

theorem frame_canary {L0 : List Part} {o0 : Block} (r : Nat) (i : Nat) (which : Nat) {b : Block} (h0 : Frame L0 o0 b) (m0 : ∀ p ∈ ([.dbg, .mgmt, .mail, .offices] : List Part), p ∈ L0) :
    Frame L0 o0 (canary r i which b) := by
  unfold canary
  repeat' first
    | with_reducible assumption
    | with_reducible exact fun p hp => m0 p (subs_of rfl p hp)
    | with_reducible apply frame_postEvent
    | with_reducible apply frame_modSt
    | with_reducible apply frame_nameRole
    | with_reducible apply frame_addReason
    | with_reducible apply Frame.ite
    | (intro _ _ _)
    | split
    | dsimp only
    | exact Frame.trans h0 (fun p => by cases p <;> first | exact .inr rfl | exact .inl (m0 _ (by decide)))

theorem frame_plausible {L0 : List Part} {o0 : Block} (r : Nat) (i : Nat) (tid : Nat) (plaus : Nat) {b : Block} (h0 : Frame L0 o0 b) (m0 : ∀ p ∈ ([.dbg, .mgmt, .mail, .offices] : List Part), p ∈ L0) :
    Frame L0 o0 (plausible r i tid plaus b) := by
  unfold plausible
  repeat' first
    | with_reducible assumption
    | with_reducible exact fun p hp => m0 p (subs_of rfl p hp)
    | with_reducible apply frame_modOffice
    | with_reducible apply frame_modSt
    | with_reducible apply frame_canary
    | with_reducible apply Frame.forEach1
    | with_reducible apply Frame.ite
    | (intro _ _ _)
    | split
    | dsimp only
    | exact Frame.trans h0 (fun p => by cases p <;> first | exact .inr rfl | exact .inl (m0 _ (by decide)))

theorem frame_endBurst {L0 : List Part} {o0 : Block} (r : Nat) (i : Nat) {b : Block} (h0 : Frame L0 o0 b) (m0 : ∀ p ∈ ([.offices] : List Part), p ∈ L0) :
    Frame L0 o0 (endBurst r i b) := by
  unfold endBurst
  repeat' first
    | with_reducible assumption
    | with_reducible exact fun p hp => m0 p (subs_of rfl p hp)
    | with_reducible apply frame_modOffice
    | with_reducible apply Frame.ite
    | (intro _ _ _)
    | split
    | dsimp only
    | exact Frame.trans h0 (fun p => by cases p <;> first | exact .inr rfl | exact .inl (m0 _ (by decide)))

theorem frame_burstResult {L0 : List Part} {o0 : Block} (r : Nat) (i : Nat) (caught : Bool) {b : Block} (h0 : Frame L0 o0 b) (m0 : ∀ p ∈ ([.ledger, .dbg, .mgmt, .mail, .bm, .cores, .offices] : List Part), p ∈ L0) :
    Frame L0 o0 (burstResult r i caught b) := by
  unfold burstResult
  repeat' first
    | with_reducible assumption
    | with_reducible exact fun p hp => m0 p (subs_of rfl p hp)
    | with_reducible apply frame_failLetterbox
    | with_reducible apply frame_endBurst
    | with_reducible apply frame_modOffice
    | with_reducible apply frame_postEvent
    | with_reducible apply Frame.ite
    | (intro _ _ _)
    | split
    | dsimp only
    | exact Frame.trans h0 (fun p => by cases p <;> first | exact .inr rfl | exact .inl (m0 _ (by decide)))

theorem frame_judgePlanting {L0 : List Part} {o0 : Block} (r : Nat) (i : Nat) (step : Nat) (f : Nat) {b : Block} (h0 : Frame L0 o0 b) (m0 : ∀ p ∈ ([.ledger, .dbg, .mgmt, .mail, .bm, .cores, .offices] : List Part), p ∈ L0) :
    Frame L0 o0 (judgePlanting r i step f b) := by
  unfold judgePlanting
  repeat' first
    | with_reducible assumption
    | with_reducible exact fun p hp => m0 p (subs_of rfl p hp)
    | with_reducible apply frame_orderBurst
    | with_reducible apply frame_burstResult
    | with_reducible apply Frame.ite
    | (intro _ _ _)
    | split
    | dsimp only
    | exact Frame.trans h0 (fun p => by cases p <;> first | exact .inr rfl | exact .inl (m0 _ (by decide)))

theorem frame_modPlace {L0 : List Part} {o0 : Block} (r : Nat) (f : Placement → Bool) (g : Placement → Placement) {b : Block} (h0 : Frame L0 o0 b) (m0 : ∀ p ∈ ([.offices] : List Part), p ∈ L0) :
    Frame L0 o0 (modPlace r f g b) := by
  unfold modPlace
  repeat' first
    | with_reducible assumption
    | with_reducible exact fun p hp => m0 p (subs_of rfl p hp)
    | with_reducible apply frame_modSt
    | with_reducible apply Frame.ite
    | (intro _ _ _)
    | split
    | dsimp only
    | exact Frame.trans h0 (fun p => by cases p <;> first | exact .inr rfl | exact .inl (m0 _ (by decide)))

theorem frame_closePlace {L0 : List Part} {o0 : Block} (r : Nat) (role : Nat) (tid : Nat) (code : Nat) {b : Block} (h0 : Frame L0 o0 b) (m0 : ∀ p ∈ ([.offices] : List Part), p ∈ L0) :
    Frame L0 o0 (closePlace r role tid code b) := by
  unfold closePlace
  repeat' first
    | with_reducible assumption
    | with_reducible exact fun p hp => m0 p (subs_of rfl p hp)
    | with_reducible apply frame_modDice
    | with_reducible apply frame_modPlace
    | with_reducible apply Frame.ite
    | (intro _ _ _)
    | split
    | dsimp only
    | exact Frame.trans h0 (fun p => by cases p <;> first | exact .inr rfl | exact .inl (m0 _ (by decide)))

theorem frame_amend {L0 : List Part} {o0 : Block} (r : Nat) (role : Nat) (tid : Nat) (v : Verdict) {b : Block} (h0 : Frame L0 o0 b) (m0 : ∀ p ∈ ([.offices] : List Part), p ∈ L0) :
    Frame L0 o0 (amend r role tid v b) := by
  unfold amend
  repeat' first
    | with_reducible assumption
    | with_reducible exact fun p hp => m0 p (subs_of rfl p hp)
    | with_reducible apply frame_modSt
    | with_reducible apply Frame.ite
    | (intro _ _ _)
    | split
    | dsimp only
    | exact Frame.trans h0 (fun p => by cases p <;> first | exact .inr rfl | exact .inl (m0 _ (by decide)))

theorem frame_ownCharge {L0 : List Part} {o0 : Block} (x : TileRec) {b : Block} (h0 : Frame L0 o0 b) (m0 : ∀ p ∈ ([.ledger, .stop, .dbg, .mgmt, .mail, .job, .bm, .cores, .offices] : List Part), p ∈ L0) :
    Frame L0 o0 (ownCharge x b) := by
  unfold ownCharge
  repeat' first
    | with_reducible assumption
    | with_reducible exact fun p hp => m0 p (subs_of rfl p hp)
    | with_reducible apply frame_charge
    | with_reducible apply Frame.ite
    | (intro _ _ _)
    | split
    | dsimp only
    | exact Frame.trans h0 (fun p => by cases p <;> first | exact .inr rfl | exact .inl (m0 _ (by decide)))

theorem frame_convict {L0 : List Part} {o0 : Block} (r : Nat) (i : Nat) (tid : Nat) {b : Block} (h0 : Frame L0 o0 b) (m0 : ∀ p ∈ ([.dbg, .mgmt, .mail, .offices] : List Part), p ∈ L0) :
    Frame L0 o0 (convict r i tid b) := by
  unfold convict
  repeat' first
    | with_reducible assumption
    | with_reducible exact fun p hp => m0 p (subs_of rfl p hp)
    | with_reducible apply Frame.forEach1
    | with_reducible apply frame_queueUnit
    | with_reducible apply Frame.ite
    | (intro _ _ _)
    | split
    | dsimp only
    | exact Frame.trans h0 (fun p => by cases p <;> first | exact .inr rfl | exact .inl (m0 _ (by decide)))

theorem frame_operandsSuspect {L0 : List Part} {o0 : Block} (r : Nat) (src : Nat) {b : Block} (h0 : Frame L0 o0 b) (m0 : ∀ p ∈ ([.dbg, .free, .mgmt, .mail, .offices] : List Part), p ∈ L0) :
    Frame L0 o0 (operandsSuspect r src b) := by
  unfold operandsSuspect
  repeat' first
    | with_reducible assumption
    | with_reducible exact fun p hp => m0 p (subs_of rfl p hp)
    | with_reducible apply frame_postEvent
    | with_reducible apply frame_freshWord
    | with_reducible apply frame_queueUnit
    | with_reducible apply Frame.ite
    | (intro _ _ _)
    | split
    | dsimp only
    | exact Frame.trans h0 (fun p => by cases p <;> first | exact .inr rfl | exact .inl (m0 _ (by decide)))

theorem frame_unresolved {L0 : List Part} {o0 : Block} (r : Nat) (p : Placement) {b : Block} (h0 : Frame L0 o0 b) (m0 : ∀ p ∈ ([.offices] : List Part), p ∈ L0) :
    Frame L0 o0 (unresolved r p b) := by
  unfold unresolved
  repeat' first
    | with_reducible assumption
    | with_reducible exact fun p hp => m0 p (subs_of rfl p hp)
    | with_reducible apply frame_closePlace
    | with_reducible apply frame_amend
    | with_reducible apply Frame.ite
    | (intro _ _ _)
    | split
    | dsimp only
    | exact Frame.trans h0 (fun p => by cases p <;> first | exact .inr rfl | exact .inl (m0 _ (by decide)))

theorem frame_throwRef {L0 : List Part} {o0 : Block} (r : Nat) (p : Placement) {b : Block} (h0 : Frame L0 o0 b) (m0 : ∀ p ∈ ([.post, .cores, .offices, .routers, .couriers] : List Part), p ∈ L0) :
    Frame L0 o0 (throwRef r p b) := by
  unfold throwRef
  repeat' first
    | with_reducible assumption
    | with_reducible exact fun p hp => m0 p (subs_of rfl p hp)
    | with_reducible apply frame_unresolved
    | with_reducible apply frame_modPlace
    | with_reducible apply frame_modSt
    | with_reducible apply frame_sendPkt
    | with_reducible apply Frame.ite
    | (intro _ _ _)
    | split
    | dsimp only
    | exact Frame.trans h0 (fun p => by cases p <;> first | exact .inr rfl | exact .inl (m0 _ (by decide)))

theorem frame_thirdThrow {L0 : List Part} {o0 : Block} (r : Nat) (src : Nat) (twoWay : Bool) (p : Placement) {b : Block} (h0 : Frame L0 o0 b) (m0 : ∀ p ∈ ([.post, .cores, .offices, .routers, .couriers] : List Part), p ∈ L0) :
    Frame L0 o0 (thirdThrow r src twoWay p b) := by
  unfold thirdThrow
  repeat' first
    | with_reducible assumption
    | with_reducible exact fun p hp => m0 p (subs_of rfl p hp)
    | with_reducible apply frame_modPlace
    | with_reducible apply frame_held
    | with_reducible apply Frame.forEach1
    | with_reducible apply frame_throwRef
    | with_reducible apply frame_modSt
    | with_reducible apply Frame.ite
    | (intro _ _ _)
    | split
    | dsimp only
    | exact Frame.trans h0 (fun p => by cases p <;> first | exact .inr rfl | exact .inl (m0 _ (by decide)))

theorem frame_missedReferee {L0 : List Part} {o0 : Block} (r : Nat) (role : Nat) (slot : Nat) {b : Block} (h0 : Frame L0 o0 b) (m0 : ∀ p ∈ ([.post, .cores, .offices, .routers, .couriers] : List Part), p ∈ L0) :
    Frame L0 o0 (missedReferee r role slot b) := by
  unfold missedReferee
  repeat' first
    | with_reducible assumption
    | with_reducible exact fun p hp => m0 p (subs_of rfl p hp)
    | with_reducible apply frame_throwRef
    | with_reducible apply Frame.ite
    | (intro _ _ _)
    | split
    | dsimp only
    | exact Frame.trans h0 (fun p => by cases p <;> first | exact .inr rfl | exact .inl (m0 _ (by decide)))

theorem frame_shadowRead {L0 : List Part} {o0 : Block} (i : Nat) (slot : Nat) (clash : Bool) {b : Block} (h0 : Frame L0 o0 b) (m0 : ∀ p ∈ ([.post, .cores, .offices, .routers, .couriers] : List Part), p ∈ L0) :
    Frame L0 o0 (shadowRead i slot clash b) := by
  unfold shadowRead
  repeat' first
    | with_reducible assumption
    | with_reducible exact fun p hp => m0 p (subs_of rfl p hp)
    | with_reducible apply frame_missedReferee
    | with_reducible apply frame_modPins
    | with_reducible apply frame_bumpCtr
    | with_reducible apply frame_modScr
    | with_reducible apply Frame.ite
    | (intro _ _ _)
    | split
    | dsimp only
    | exact Frame.trans h0 (fun p => by cases p <;> first | exact .inr rfl | exact .inl (m0 _ (by decide)))

theorem frame_decidePair {L0 : List Part} {o0 : Block} (r : Nat) (p : Placement) (o : TileRec) (s : TileRec) {b : Block} (h0 : Frame L0 o0 b) (m0 : ∀ p ∈ ([.ledger, .stop, .dbg, .mgmt, .mail, .job, .post, .bm, .cores, .offices, .routers, .couriers] : List Part), p ∈ L0) :
    Frame L0 o0 (decidePair r p o s b) := by
  unfold decidePair
  repeat' first
    | with_reducible assumption
    | with_reducible exact fun p hp => m0 p (subs_of rfl p hp)
    | with_reducible apply frame_closePlace
    | with_reducible apply frame_charge
    | with_reducible apply frame_thirdThrow
    | with_reducible apply frame_postEvent
    | with_reducible apply frame_modSt
    | with_reducible apply frame_convict
    | with_reducible apply frame_orderBurst
    | with_reducible apply frame_amend
    | with_reducible apply Frame.ite
    | (intro _ _ _)
    | split
    | dsimp only
    | exact Frame.trans h0 (fun p => by cases p <;> first | exact .inr rfl | exact .inl (m0 _ (by decide)))

theorem frame_decideReferee {L0 : List Part} {o0 : Block} (r : Nat) (p : Placement) (o : TileRec) (s : TileRec) (x : TileRec) {b : Block} (h0 : Frame L0 o0 b) (m0 : ∀ p ∈ ([.ledger, .stop, .dbg, .free, .mgmt, .mail, .job, .bm, .cores, .offices] : List Part), p ∈ L0) :
    Frame L0 o0 (decideReferee r p o s x b) := by
  unfold decideReferee
  repeat' first
    | with_reducible assumption
    | with_reducible exact fun p hp => m0 p (subs_of rfl p hp)
    | with_reducible apply frame_closePlace
    | with_reducible apply frame_amend
    | with_reducible apply frame_orderBurst
    | with_reducible apply frame_charge
    | with_reducible apply frame_unresolved
    | with_reducible apply frame_convict
    | with_reducible apply frame_operandsSuspect
    | with_reducible apply Frame.ite
    | (intro _ _ _)
    | split
    | dsimp only
    | exact Frame.trans h0 (fun p => by cases p <;> first | exact .inr rfl | exact .inl (m0 _ (by decide)))

theorem frame_diceShort {L0 : List Part} {o0 : Block} (r : Nat) (n : Nat) {b : Block} (h0 : Frame L0 o0 b) (m0 : ∀ p ∈ ([.dbg, .mgmt, .mail, .offices] : List Part), p ∈ L0) :
    Frame L0 o0 (diceShort r n b) := by
  unfold diceShort
  repeat' first
    | with_reducible assumption
    | with_reducible exact fun p hp => m0 p (subs_of rfl p hp)
    | with_reducible apply frame_postEventN
    | with_reducible apply frame_modDice
    | with_reducible apply Frame.ite
    | (intro _ _ _)
    | split
    | dsimp only
    | exact Frame.trans h0 (fun p => by cases p <;> first | exact .inr rfl | exact .inl (m0 _ (by decide)))

theorem frame_pairArrives {L0 : List Part} {o0 : Block} (r : Nat) (p : Placement) {b : Block} (h0 : Frame L0 o0 b) (m0 : ∀ p ∈ ([.ledger, .stop, .dbg, .mgmt, .mail, .job, .post, .bm, .cores, .offices, .routers, .couriers] : List Part), p ∈ L0) :
    Frame L0 o0 (pairArrives r p b) := by
  unfold pairArrives
  repeat' first
    | with_reducible assumption
    | with_reducible exact fun p hp => m0 p (subs_of rfl p hp)
    | with_reducible apply frame_decidePair
    | with_reducible apply frame_diceShort
    | with_reducible apply frame_modPlace
    | with_reducible apply frame_ownCharge
    | with_reducible apply Frame.ite
    | (intro _ _ _)
    | split
    | dsimp only
    | exact Frame.trans h0 (fun p => by cases p <;> first | exact .inr rfl | exact .inl (m0 _ (by decide)))

theorem frame_fileOwn {L0 : List Part} {o0 : Block} (r : Nat) (x : TileRec) {b : Block} (h0 : Frame L0 o0 b) (m0 : ∀ p ∈ ([.ledger, .stop, .dbg, .mgmt, .mail, .job, .post, .bm, .cores, .offices, .routers, .couriers] : List Part), p ∈ L0) :
    Frame L0 o0 (fileOwn r x b) := by
  unfold fileOwn
  repeat' first
    | with_reducible assumption
    | with_reducible exact fun p hp => m0 p (subs_of rfl p hp)
    | with_reducible apply frame_modSt
    | with_reducible apply frame_promote
    | with_reducible apply frame_ownCharge
    | with_reducible apply frame_modPlace
    | with_reducible apply frame_pairArrives
    | with_reducible apply Frame.ite
    | (intro _ _ _)
    | split
    | dsimp only
    | exact Frame.trans h0 (fun p => by cases p <;> first | exact .inr rfl | exact .inl (m0 _ (by decide)))

theorem frame_fileShadow {L0 : List Part} {o0 : Block} (r : Nat) (x : TileRec) {b : Block} (h0 : Frame L0 o0 b) (m0 : ∀ p ∈ ([.ledger, .stop, .dbg, .mgmt, .mail, .job, .post, .bm, .cores, .offices, .routers, .couriers] : List Part), p ∈ L0) :
    Frame L0 o0 (fileShadow r x b) := by
  unfold fileShadow
  repeat' first
    | with_reducible assumption
    | with_reducible exact fun p hp => m0 p (subs_of rfl p hp)
    | with_reducible apply frame_modPlace
    | with_reducible apply frame_pairArrives
    | with_reducible apply Frame.ite
    | (intro _ _ _)
    | split
    | dsimp only
    | exact Frame.trans h0 (fun p => by cases p <;> first | exact .inr rfl | exact .inl (m0 _ (by decide)))

theorem frame_fileReferee {L0 : List Part} {o0 : Block} (r : Nat) (x : TileRec) {b : Block} (h0 : Frame L0 o0 b) (m0 : ∀ p ∈ ([.ledger, .stop, .dbg, .free, .mgmt, .mail, .job, .bm, .cores, .offices] : List Part), p ∈ L0) :
    Frame L0 o0 (fileReferee r x b) := by
  unfold fileReferee
  repeat' first
    | with_reducible assumption
    | with_reducible exact fun p hp => m0 p (subs_of rfl p hp)
    | with_reducible apply frame_decideReferee
    | with_reducible apply Frame.ite
    | (intro _ _ _)
    | split
    | dsimp only
    | exact Frame.trans h0 (fun p => by cases p <;> first | exact .inr rfl | exact .inl (m0 _ (by decide)))

theorem frame_fileStep {L0 : List Part} {o0 : Block} (r : Nat) (i : Nat) (f : Nat) {b : Block} (h0 : Frame L0 o0 b) (m0 : ∀ p ∈ ([.ledger, .stop, .dbg, .free, .mgmt, .mail, .job, .post, .bm, .cores, .offices, .routers, .couriers] : List Part), p ∈ L0) :
    Frame L0 o0 (fileStep r i f b) := by
  unfold fileStep
  repeat' first
    | with_reducible assumption
    | with_reducible exact fun p hp => m0 p (subs_of rfl p hp)
    | with_reducible apply frame_modSt
    | with_reducible apply frame_fileOwn
    | with_reducible apply frame_fileShadow
    | with_reducible apply frame_fileReferee
    | with_reducible apply Frame.ite
    | (intro _ _ _)
    | split
    | dsimp only
    | exact Frame.trans h0 (fun p => by cases p <;> first | exact .inr rfl | exact .inl (m0 _ (by decide)))

theorem frame_fileVerdict {L0 : List Part} {o0 : Block} (r : Nat) (i : Nat) (f : Nat) {b : Block} (h0 : Frame L0 o0 b) (m0 : ∀ p ∈ ([.ledger, .stop, .dbg, .free, .mgmt, .mail, .job, .post, .bm, .cores, .offices, .routers, .couriers] : List Part), p ∈ L0) :
    Frame L0 o0 (fileVerdict r i f b) := by
  unfold fileVerdict
  repeat' first
    | with_reducible assumption
    | with_reducible exact fun p hp => m0 p (subs_of rfl p hp)
    | with_reducible apply frame_plausible
    | with_reducible apply frame_judgePlanting
    | with_reducible apply frame_fileStep
    | with_reducible apply Frame.ite
    | (intro _ _ _)
    | split
    | dsimp only
    | exact Frame.trans h0 (fun p => by cases p <;> first | exact .inr rfl | exact .inl (m0 _ (by decide)))

theorem frame_officeVerdict {L0 : List Part} {o0 : Block} (r : Nat) (c : Nat) {b : Block} (h0 : Frame L0 o0 b) (m0 : ∀ p ∈ ([.ledger, .stop, .dbg, .free, .mgmt, .mail, .job, .fleet, .post, .bm, .cores, .offices, .routers, .couriers] : List Part), p ∈ L0) :
    Frame L0 o0 (officeVerdict r c b) := by
  unfold officeVerdict
  dsimp only
  split
  · exact h0
  · split
    · exact h0
    · rename_i e
      have k := frame_takeEvq _ _ _ e h0 (fun p hp => m0 p (subs_of rfl p hp))
      repeat' first
        | with_reducible assumption
        | with_reducible exact fun p hp => m0 p (subs_of rfl p hp)
        | with_reducible apply frame_deadLetter
        | with_reducible apply frame_fileVerdict
        | with_reducible apply Frame.ite
        | split
        | dsimp only

theorem frame_summaryReceive {L0 : List Part} {o0 : Block} (r : Nat) (c : Nat) {b : Block} (h0 : Frame L0 o0 b) (m0 : ∀ p ∈ ([.offices] : List Part), p ∈ L0) :
    Frame L0 o0 (summaryReceive r c b) := by
  unfold summaryReceive
  dsimp only
  split
  · exact h0
  · split
    · exact h0
    · rename_i e
      have k := frame_takeEvq _ _ _ e h0 (fun p hp => m0 p (subs_of rfl p hp))
      repeat' first
        | with_reducible assumption
        | with_reducible exact fun p hp => m0 p (subs_of rfl p hp)
        | with_reducible apply frame_deadLetter
        | with_reducible apply frame_addReason
        | with_reducible apply frame_modSt
        | with_reducible apply Frame.ite
        | split
        | dsimp only

/-! ### Verdicts -/

theorem frame_stallReceive {L0 : List Part} {o0 : Block} (r : Nat) (c : Nat) {b : Block} (h0 : Frame L0 o0 b) (m0 : ∀ p ∈ ([.post, .cores, .offices, .routers, .couriers] : List Part), p ∈ L0) :
    Frame L0 o0 (stallReceive r c b) := by
  unfold stallReceive
  split
  · exact h0
  · split
    · exact h0
    · rename_i e
      have k := frame_takeEvq _ _ _ e h0 (fun p hp => m0 p (subs_of rfl p hp))
      repeat' first
        | with_reducible assumption
        | with_reducible exact fun p hp => m0 p (subs_of rfl p hp)
        | with_reducible apply frame_modJob
        | with_reducible apply frame_unicast
        | with_reducible apply Frame.ite
        | split
        | dsimp only

theorem frame_externalStall {L0 : List Part} {o0 : Block} (port : Nat) {b : Block} (h0 : Frame L0 o0 b) (m0 : ∀ p ∈ ([.dbg, .free, .mgmt, .mail] : List Part), p ∈ L0) :
    Frame L0 o0 (externalStall port b) := by
  unfold externalStall
  repeat' first
    | with_reducible assumption
    | with_reducible exact fun p hp => m0 p (subs_of rfl p hp)
    | with_reducible apply frame_freshWord
    | with_reducible apply frame_hoEvent
    | with_reducible apply Frame.ite
    | (intro _ _ _)
    | split
    | dsimp only
    | exact Frame.trans h0 (fun p => by cases p <;> first | exact .inr rfl | exact .inl (m0 _ (by decide)))

theorem frame_sendRoot {L0 : List Part} {o0 : Block} (role : Nat) {b : Block} (h0 : Frame L0 o0 b) (m0 : ∀ p ∈ ([.ledger, .stop, .dbg, .mgmt, .mail, .job, .bm, .cores, .offices] : List Part), p ∈ L0) :
    Frame L0 o0 (sendRoot role b) := by
  unfold sendRoot
  repeat' first
    | with_reducible assumption
    | with_reducible exact fun p hp => m0 p (subs_of rfl p hp)
    | with_reducible apply frame_charge
    | with_reducible apply frame_modSt
    | with_reducible apply Frame.ite
    | (intro _ _ _)
    | split
    | dsimp only
    | exact Frame.trans h0 (fun p => by cases p <;> first | exact .inr rfl | exact .inl (m0 _ (by decide)))

theorem frame_hangTest {L0 : List Part} {o0 : Block} (stalled : Nat) (ends : List ChainEnd) {b : Block} (h0 : Frame L0 o0 b) (m0 : ∀ p ∈ ([.outs, .pm, .svc, .ledger, .stop, .dbg, .mgmt, .mail, .job, .resets, .fleet, .parcel, .image, .post, .bm, .cores, .offices] : List Part), p ∈ L0) :
    Frame L0 o0 (hangTest stalled ends b) := by
  unfold hangTest
  repeat' first
    | with_reducible assumption
    | with_reducible exact fun p hp => m0 p (subs_of rfl p hp)
    | with_reducible apply frame_modJob
    | with_reducible apply frame_hoEvent
    | with_reducible apply frame_startWarm
    | with_reducible apply Frame.ite
    | (intro _ _ _)
    | split
    | dsimp only
    | exact Frame.trans h0 (fun p => by cases p <;> first | exact .inr rfl | exact .inl (m0 _ (by decide)))

theorem frame_waitGraph {L0 : List Part} {o0 : Block} {b : Block} (h0 : Frame L0 o0 b) (m0 : ∀ p ∈ ([.outs, .pm, .svc, .ledger, .stop, .dbg, .free, .mgmt, .mail, .job, .resets, .fleet, .parcel, .image, .post, .bm, .cores, .offices] : List Part), p ∈ L0) :
    Frame L0 o0 (waitGraph b) := by
  unfold waitGraph
  repeat' first
    | with_reducible assumption
    | with_reducible exact fun p hp => m0 p (subs_of rfl p hp)
    | with_reducible apply frame_advTo
    | with_reducible apply frame_modJob
    | with_reducible apply Frame.forEach1
    | with_reducible apply frame_externalStall
    | with_reducible apply frame_sendRoot
    | with_reducible apply frame_modSt
    | with_reducible apply frame_hangTest
    | with_reducible apply Frame.ite
    | (intro _ _ _)
    | split
    | dsimp only
    | exact Frame.trans h0 (fun p => by cases p <;> first | exact .inr rfl | exact .inl (m0 _ (by decide)))

theorem frame_lateRole {L0 : List Part} {o0 : Block} (r : Nat) (role : Nat) {b : Block} (h0 : Frame L0 o0 b) (m0 : ∀ p ∈ ([.offices] : List Part), p ∈ L0) :
    Frame L0 o0 (lateRole r role b) := by
  unfold lateRole
  repeat' first
    | with_reducible assumption
    | with_reducible exact fun p hp => m0 p (subs_of rfl p hp)
    | with_reducible apply frame_addReason
    | with_reducible apply frame_nameRole
    | with_reducible apply Frame.ite
    | (intro _ _ _)
    | split
    | dsimp only
    | exact Frame.trans h0 (fun p => by cases p <;> first | exact .inr rfl | exact .inl (m0 _ (by decide)))

theorem frame_settlePlace {L0 : List Part} {o0 : Block} (r : Nat) (p : Placement) {b : Block} (h0 : Frame L0 o0 b) (m0 : ∀ p ∈ ([.ledger, .stop, .dbg, .mgmt, .mail, .job, .bm, .cores, .offices] : List Part), p ∈ L0) :
    Frame L0 o0 (settlePlace r p b) := by
  unfold settlePlace
  repeat' first
    | with_reducible assumption
    | with_reducible exact fun p hp => m0 p (subs_of rfl p hp)
    | with_reducible apply frame_unresolved
    | with_reducible apply frame_ownCharge
    | with_reducible apply frame_closePlace
    | with_reducible apply frame_postEvent
    | with_reducible apply frame_modPlace
    | with_reducible apply frame_lateRole
    | with_reducible apply Frame.ite
    | (intro _ _ _)
    | split
    | dsimp only
    | exact Frame.trans h0 (fun p => by cases p <;> first | exact .inr rfl | exact .inl (m0 _ (by decide)))

theorem frame_lateCheck {L0 : List Part} {o0 : Block} (r : Nat) (role : Nat) {b : Block} (h0 : Frame L0 o0 b) (m0 : ∀ p ∈ ([.offices] : List Part), p ∈ L0) :
    Frame L0 o0 (lateCheck r role b) := by
  unfold lateCheck
  repeat' first
    | with_reducible assumption
    | with_reducible exact fun p hp => m0 p (subs_of rfl p hp)
    | with_reducible apply frame_lateRole
    | with_reducible apply Frame.ite
    | (intro _ _ _)
    | split
    | dsimp only
    | exact Frame.trans h0 (fun p => by cases p <;> first | exact .inr rfl | exact .inl (m0 _ (by decide)))

theorem frame_foldTile {L0 : List Part} {o0 : Block} (r : Nat) (x : TileRec) {b : Block} (h0 : Frame L0 o0 b) (m0 : ∀ p ∈ ([.offices] : List Part), p ∈ L0) :
    Frame L0 o0 (foldTile r x b) := by
  unfold foldTile
  repeat' first
    | with_reducible assumption
    | with_reducible exact fun p hp => m0 p (subs_of rfl p hp)
    | with_reducible apply frame_nameRole
    | with_reducible apply frame_addReason
    | with_reducible apply frame_lateRole
    | with_reducible apply Frame.ite
    | (intro _ _ _)
    | split
    | dsimp only
    | exact Frame.trans h0 (fun p => by cases p <;> first | exact .inr rfl | exact .inl (m0 _ (by decide)))

theorem frame_formRecord {L0 : List Part} {o0 : Block} (r : Nat) {b : Block} (h0 : Frame L0 o0 b) (m0 : ∀ p ∈ ([.pm, .ledger, .stop, .dbg, .mgmt, .mail, .job, .post, .bm, .cores, .offices, .routers, .couriers] : List Part), p ∈ L0) :
    Frame L0 o0 (formRecord r b) := by
  unfold formRecord
  repeat' first
    | with_reducible assumption
    | with_reducible exact fun p hp => m0 p (subs_of rfl p hp)
    | with_reducible apply frame_advTo
    | with_reducible apply Frame.forEach1
    | with_reducible apply frame_settlePlace
    | with_reducible apply frame_lateCheck
    | with_reducible apply frame_foldTile
    | with_reducible apply frame_modSt
    | with_reducible apply frame_nameRole
    | with_reducible apply frame_unicast
    | with_reducible apply Frame.ite
    | (intro _ _ _)
    | split
    | dsimp only
    | exact Frame.trans h0 (fun p => by cases p <;> first | exact .inr rfl | exact .inl (m0 _ (by decide)))

theorem frame_regionVerdict {L0 : List Part} {o0 : Block} (r : Nat) {b : Block} (h0 : Frame L0 o0 b) (m0 : ∀ p ∈ ([.outs, .pm, .svc, .ledger, .stop, .dbg, .free, .mgmt, .mail, .job, .resets, .fleet, .parcel, .image, .post, .bm, .cores, .offices, .routers, .couriers] : List Part), p ∈ L0) :
    Frame L0 o0 (regionVerdict r b) := by
  unfold regionVerdict
  repeat' first
    | with_reducible assumption
    | with_reducible exact fun p hp => m0 p (subs_of rfl p hp)
    | with_reducible apply frame_waitGraph
    | with_reducible apply frame_formRecord
    | with_reducible apply Frame.ite
    | (intro _ _ _)
    | split
    | dsimp only
    | exact Frame.trans h0 (fun p => by cases p <;> first | exact .inr rfl | exact .inl (m0 _ (by decide)))

theorem frame_takeHo {L0 : List Part} {o0 : Block} (svc : Nat) {b d : Block} {p : Packet} (e : takeHo svc b = some (p, d))
    (h0 : Frame L0 o0 b) (m0 : ∀ p ∈ ([.post] : List Part), p ∈ L0) : Frame L0 o0 d := by
  unfold takeHo at e
  split at e
  · exact absurd e (by simp)
  · obtain ⟨-, rfl⟩ := Prod.mk.inj (Option.some.inj e)
    exact frame_modPost _ h0 m0

theorem frame_regionRecord {L0 : List Part} {o0 : Block} {b : Block} (h0 : Frame L0 o0 b) (m0 : ∀ p ∈ ([.dbg, .mgmt, .mail, .job, .fleet, .post, .cores, .offices, .routers, .couriers] : List Part), p ∈ L0) :
    Frame L0 o0 (regionRecord b) := by
  unfold regionRecord
  dsimp only
  split
  · exact h0
  · split
    · exact h0
    · rename_i e
      have k := frame_takeHo _ e h0 (fun p hp => m0 p (subs_of rfl p hp))
      repeat' first
        | with_reducible assumption
        | with_reducible exact fun p hp => m0 p (subs_of rfl p hp)
        | with_reducible apply frame_e2eDrop
        | with_reducible apply frame_deadLetter
        | with_reducible apply frame_modJob
        | with_reducible apply Frame.ite
        | split
        | dsimp only

theorem frame_egressReceive {L0 : List Part} {o0 : Block} {b : Block} (h0 : Frame L0 o0 b) (m0 : ∀ p ∈ ([.dbg, .mgmt, .mail, .job, .fleet, .post, .cores, .offices, .routers, .couriers] : List Part), p ∈ L0) :
    Frame L0 o0 (egressReceive b) := by
  unfold egressReceive
  dsimp only
  split
  · exact h0
  · split
    · exact h0
    · rename_i e
      have k := frame_takeHo _ e h0 (fun p hp => m0 p (subs_of rfl p hp))
      repeat' first
        | with_reducible assumption
        | with_reducible exact fun p hp => m0 p (subs_of rfl p hp)
        | with_reducible apply frame_e2eDrop
        | with_reducible apply frame_deadLetter
        | with_reducible apply frame_modJob
        | with_reducible apply Frame.ite
        | split
        | dsimp only

theorem frame_stepDigest {L0 : List Part} {o0 : Block} {b : Block} (h0 : Frame L0 o0 b) (m0 : ∀ p ∈ ([.free] : List Part), p ∈ L0) :
    Frame L0 o0 (stepDigest b).2 := by
  unfold stepDigest
  repeat' first
    | with_reducible assumption
    | with_reducible exact fun p hp => m0 p (subs_of rfl p hp)
    | with_reducible apply frame_freshWord
    | with_reducible apply Frame.ite
    | (intro _ _ _)
    | split
    | dsimp only
    | exact Frame.trans h0 (fun p => by cases p <;> first | exact .inr rfl | exact .inl (m0 _ (by decide)))

theorem frame_parcelVote {L0 : List Part} {o0 : Block} (frank : Bool) {b : Block} (h0 : Frame L0 o0 b) (m0 : ∀ p ∈ ([.stop, .dbg, .mgmt, .mail, .fleet, .parcel, .post] : List Part), p ∈ L0) :
    Frame L0 o0 (parcelVote frank b) := by
  unfold parcelVote
  repeat' first
    | with_reducible assumption
    | with_reducible exact fun p hp => m0 p (subs_of rfl p hp)
    | with_reducible apply frame_skipDue
    | with_reducible apply frame_modParcel
    | with_reducible apply Frame.forEach1
    | with_reducible apply frame_hoEvent
    | with_reducible apply frame_contribute
    | with_reducible apply Frame.ite
    | (intro _ _ _)
    | split
    | dsimp only
    | exact Frame.trans h0 (fun p => by cases p <;> first | exact .inr rfl | exact .inl (m0 _ (by decide)))

theorem frame_frankCores {L0 : List Part} {o0 : Block} {b : Block} (h0 : Frame L0 o0 b) (m0 : ∀ p ∈ ([.ledger] : List Part), p ∈ L0) :
    Frame L0 o0 (frankCores b) := by
  unfold frankCores
  repeat' first
    | with_reducible assumption
    | with_reducible exact fun p hp => m0 p (subs_of rfl p hp)
    | with_reducible apply Frame.forEach1
    | with_reducible apply frame_modHist
    | with_reducible apply Frame.ite
    | (intro _ _ _)
    | split
    | dsimp only
    | exact Frame.trans h0 (fun p => by cases p <;> first | exact .inr rfl | exact .inl (m0 _ (by decide)))

theorem frame_orderReplay {L0 : List Part} {o0 : Block} {b : Block} (h0 : Frame L0 o0 b) (m0 : ∀ p ∈ ([.stop, .dbg, .mgmt, .mail, .job] : List Part), p ∈ L0) :
    Frame L0 o0 (orderReplay b) := by
  unfold orderReplay
  repeat' first
    | with_reducible assumption
    | with_reducible exact fun p hp => m0 p (subs_of rfl p hp)
    | with_reducible apply frame_modJob
    | with_reducible apply frame_stopJobNext
    | with_reducible apply frame_hoEvent
    | with_reducible apply Frame.ite
    | (intro _ _ _)
    | split
    | dsimp only
    | exact Frame.trans h0 (fun p => by cases p <;> first | exact .inr rfl | exact .inl (m0 _ (by decide)))

theorem frame_stepDecision {L0 : List Part} {o0 : Block} {b : Block} (h0 : Frame L0 o0 b) (m0 : ∀ p ∈ ([.outs, .pm, .svc, .ledger, .stop, .dbg, .free, .mgmt, .mail, .job, .resets, .fleet, .parcel, .image, .post, .bm, .cores, .offices, .routers, .couriers] : List Part), p ∈ L0) :
    Frame L0 o0 (stepDecision b) := by
  unfold stepDecision
  repeat' first
    | with_reducible assumption
    | with_reducible exact fun p hp => m0 p (subs_of rfl p hp)
    | with_reducible apply Frame.forEach1
    | with_reducible apply frame_regionVerdict
    | with_reducible apply frame_advTo
    | with_reducible apply frame_stepDigest
    | with_reducible apply frame_modJob
    | with_reducible apply frame_modLedger
    | with_reducible apply frame_hoEvent
    | with_reducible apply frame_frankCores
    | with_reducible apply frame_orderReplay
    | with_reducible apply frame_stopJobNext
    | with_reducible apply frame_parcelVote
    | with_reducible apply Frame.ite
    | (intro _ _ _)
    | split
    | dsimp only
    | exact Frame.trans h0 (fun p => by cases p <;> first | exact .inr rfl | exact .inl (m0 _ (by decide)))

/-! ### Fills -/

theorem frame_noSpare {L0 : List Part} {o0 : Block} (r : Nat) {b : Block} (h0 : Frame L0 o0 b) (m0 : ∀ p ∈ ([.ledger, .stop, .dbg, .mgmt, .mail, .job] : List Part), p ∈ L0) :
    Frame L0 o0 (noSpare r b) := by
  unfold noSpare
  repeat' first
    | with_reducible assumption
    | with_reducible exact fun p hp => m0 p (subs_of rfl p hp)
    | with_reducible apply frame_stopJobNext
    | with_reducible apply frame_postEvent
    | with_reducible apply frame_fillTo
    | with_reducible apply Frame.ite
    | (intro _ _ _)
    | split
    | dsimp only
    | exact Frame.trans h0 (fun p => by cases p <;> first | exact .inr rfl | exact .inl (m0 _ (by decide)))

theorem frame_putReloc {L0 : List Part} {o0 : Block} (r : Nat) (x : Reloc) {b : Block} (h0 : Frame L0 o0 b) (m0 : ∀ p ∈ ([.job, .offices] : List Part), p ∈ L0) :
    Frame L0 o0 (putReloc r x b) := by
  unfold putReloc
  repeat' first
    | with_reducible assumption
    | with_reducible exact fun p hp => m0 p (subs_of rfl p hp)
    | with_reducible apply frame_modRelocs
    | with_reducible apply Frame.ite
    | (intro _ _ _)
    | split
    | dsimp only
    | exact Frame.trans h0 (fun p => by cases p <;> first | exact .inr rfl | exact .inl (m0 _ (by decide)))

theorem frame_allocate {L0 : List Part} {o0 : Block} (r : Nat) (role : Nat) (reason : Nat) {b : Block} (h0 : Frame L0 o0 b) (m0 : ∀ p ∈ ([.ledger, .stop, .dbg, .mgmt, .mail, .job, .offices] : List Part), p ∈ L0) :
    Frame L0 o0 (allocate r role reason b) := by
  unfold allocate
  repeat' first
    | with_reducible assumption
    | with_reducible exact fun p hp => m0 p (subs_of rfl p hp)
    | with_reducible apply frame_noSpare
    | with_reducible apply frame_modJob
    | with_reducible apply frame_fillTo
    | with_reducible apply frame_putReloc
    | with_reducible apply frame_queueUnit
    | with_reducible apply Frame.ite
    | (intro _ _ _)
    | split
    | dsimp only
    | exact Frame.trans h0 (fun p => by cases p <;> first | exact .inr rfl | exact .inl (m0 _ (by decide)))

theorem frame_decisionReceive {L0 : List Part} {o0 : Block} (r : Nat) {b : Block} (h0 : Frame L0 o0 b) (m0 : ∀ p ∈ ([.pm, .ledger, .stop, .dbg, .mgmt, .mail, .job, .offices] : List Part), p ∈ L0) :
    Frame L0 o0 (decisionReceive r b) := by
  unfold decisionReceive
  repeat' first
    | with_reducible assumption
    | with_reducible exact fun p hp => m0 p (subs_of rfl p hp)
    | with_reducible apply frame_advTo
    | with_reducible apply frame_modSt
    | with_reducible apply Frame.forEach1
    | with_reducible apply frame_allocate
    | with_reducible apply Frame.ite
    | (intro _ _ _)
    | split
    | dsimp only
    | exact Frame.trans h0 (fun p => by cases p <;> first | exact .inr rfl | exact .inl (m0 _ (by decide)))

theorem frame_setPhase {L0 : List Part} {o0 : Block} (role : Nat) (ph : Nat) {b : Block} (h0 : Frame L0 o0 b) (m0 : ∀ p ∈ ([.ledger, .job] : List Part), p ∈ L0) :
    Frame L0 o0 (setPhase role ph b) := by
  unfold setPhase
  repeat' first
    | with_reducible assumption
    | with_reducible exact fun p hp => m0 p (subs_of rfl p hp)
    | with_reducible apply frame_fillTo
    | with_reducible apply Frame.ite
    | (intro _ _ _)
    | split
    | dsimp only
    | exact Frame.trans h0 (fun p => by cases p <;> first | exact .inr rfl | exact .inl (m0 _ (by decide)))

theorem frame_vacate {L0 : List Part} {o0 : Block} (i : Nat) {b : Block} (h0 : Frame L0 o0 b) (m0 : ∀ p ∈ ([.ledger, .dbg, .mgmt, .mail, .offices] : List Part), p ∈ L0) :
    Frame L0 o0 (vacate i b) := by
  unfold vacate
  repeat' first
    | with_reducible assumption
    | with_reducible exact fun p hp => m0 p (subs_of rfl p hp)
    | with_reducible apply frame_queueSuspicion
    | with_reducible apply frame_modHist
    | with_reducible apply Frame.ite
    | (intro _ _ _)
    | split
    | dsimp only
    | exact Frame.trans h0 (fun p => by cases p <;> first | exact .inr rfl | exact .inl (m0 _ (by decide)))

theorem frame_writeContext {L0 : List Part} {o0 : Block} (f : Fill) {b : Block} (h0 : Frame L0 o0 b) (m0 : ∀ p ∈ ([.cores] : List Part), p ∈ L0) :
    Frame L0 o0 (writeContext f b) := by
  unfold writeContext
  repeat' first
    | with_reducible assumption
    | with_reducible exact fun p hp => m0 p (subs_of rfl p hp)
    | with_reducible apply frame_modCore
    | with_reducible apply Frame.ite
    | (intro _ _ _)
    | split
    | dsimp only
    | exact Frame.trans h0 (fun p => by cases p <;> first | exact .inr rfl | exact .inl (m0 _ (by decide)))

theorem frame_armFill {L0 : List Part} {o0 : Block} (r : Nat) (f : Fill) {b : Block} (h0 : Frame L0 o0 b) (m0 : ∀ p ∈ ([.ledger, .dbg, .mgmt, .mail, .job, .bm, .cores, .offices] : List Part), p ∈ L0) :
    Frame L0 o0 (armFill r f b) := by
  unfold armFill
  repeat' first
    | with_reducible assumption
    | with_reducible exact fun p hp => m0 p (subs_of rfl p hp)
    | with_reducible apply frame_setPhase
    | with_reducible apply frame_modRelocs
    | with_reducible apply frame_modBm
    | with_reducible apply frame_modCore
    | with_reducible apply frame_bmChanged
    | with_reducible apply frame_vacate
    | with_reducible apply Frame.ite
    | (intro _ _ _)
    | split
    | dsimp only
    | exact Frame.trans h0 (fun p => by cases p <;> first | exact .inr rfl | exact .inl (m0 _ (by decide)))

theorem frame_fillPhase {L0 : List Part} {o0 : Block} (r : Nat) (role : Nat) (ok : Bool) {b : Block} (h0 : Frame L0 o0 b) (m0 : ∀ p ∈ ([.ledger, .stop, .dbg, .mgmt, .mail, .job, .bm, .cores, .offices] : List Part), p ∈ L0) :
    Frame L0 o0 (fillPhase r role ok b) := by
  unfold fillPhase
  repeat' first
    | with_reducible assumption
    | with_reducible exact fun p hp => m0 p (subs_of rfl p hp)
    | with_reducible apply frame_failFill
    | with_reducible apply frame_setPhase
    | with_reducible apply frame_modCore
    | with_reducible apply frame_writeContext
    | with_reducible apply frame_armFill
    | with_reducible apply Frame.ite
    | (intro _ _ _)
    | split
    | dsimp only
    | exact Frame.trans h0 (fun p => by cases p <;> first | exact .inr rfl | exact .inl (m0 _ (by decide)))

theorem frame_fillTimeout {L0 : List Part} {o0 : Block} (r : Nat) (role : Nat) {b : Block} (h0 : Frame L0 o0 b) (m0 : ∀ p ∈ ([.pm, .ledger, .stop, .dbg, .mgmt, .mail, .job, .offices] : List Part), p ∈ L0) :
    Frame L0 o0 (fillTimeout r role b) := by
  unfold fillTimeout
  repeat' first
    | with_reducible assumption
    | with_reducible exact fun p hp => m0 p (subs_of rfl p hp)
    | with_reducible apply frame_failFill
    | with_reducible apply frame_advTo
    | with_reducible apply Frame.ite
    | (intro _ _ _)
    | split
    | dsimp only
    | exact Frame.trans h0 (fun p => by cases p <;> first | exact .inr rfl | exact .inl (m0 _ (by decide)))

theorem frame_sendDescs {L0 : List Part} {o0 : Block} (r : Nat) (l : List (Nat × Flit)) {b : Block} (h0 : Frame L0 o0 b) (m0 : ∀ p ∈ ([.post, .cores, .offices, .routers, .couriers] : List Part), p ∈ L0) :
    Frame L0 o0 (sendDescs r l b) := by
  unfold sendDescs
  repeat' first
    | with_reducible assumption
    | with_reducible exact fun p hp => m0 p (subs_of rfl p hp)
    | with_reducible apply Frame.forEach1
    | with_reducible apply frame_sendPkt
    | with_reducible apply Frame.ite
    | (intro _ _ _)
    | split
    | dsimp only
    | exact Frame.trans h0 (fun p => by cases p <;> first | exact .inr rfl | exact .inl (m0 _ (by decide)))

theorem frame_diceFill {L0 : List Part} {o0 : Block} (r : Nat) (tiles : List (Nat × Nat)) (late : List (Nat × Nat)) {b : Block} (h0 : Frame L0 o0 b) (m0 : ∀ p ∈ ([.dbg, .mgmt, .mail, .post, .cores, .offices, .routers, .couriers] : List Part), p ∈ L0) :
    Frame L0 o0 (diceFill r tiles late b) := by
  unfold diceFill
  repeat' first
    | with_reducible assumption
    | with_reducible exact fun p hp => m0 p (subs_of rfl p hp)
    | with_reducible apply Frame.forEach1
    | with_reducible apply frame_promote
    | with_reducible apply frame_diceDrop
    | with_reducible apply frame_modScr
    | with_reducible apply frame_sendDescs
    | with_reducible apply frame_modDice
    | with_reducible apply frame_modSt
    | with_reducible apply frame_diceShort
    | with_reducible apply Frame.ite
    | (intro _ _ _)
    | split
    | dsimp only
    | exact Frame.trans h0 (fun p => by cases p <;> first | exact .inr rfl | exact .inl (m0 _ (by decide)))

/-! ### Scheduler -/

theorem frame_startUnit {L0 : List Part} {o0 : Block} (r : Nat) (u : TestUnit) {b : Block} (h0 : Frame L0 o0 b) (m0 : ∀ p ∈ ([.cores, .offices] : List Part), p ∈ L0) :
    Frame L0 o0 (startUnit r u b) := by
  unfold startUnit
  repeat' first
    | with_reducible assumption
    | with_reducible exact fun p hp => m0 p (subs_of rfl p hp)
    | with_reducible apply frame_modOffice
    | with_reducible apply frame_modCore
    | with_reducible apply Frame.ite
    | (intro _ _ _)
    | split
    | dsimp only
    | exact Frame.trans h0 (fun p => by cases p <;> first | exact .inr rfl | exact .inl (m0 _ (by decide)))

theorem frame_testUnitPlace {L0 : List Part} {o0 : Block} (r : Nat) {b : Block} (h0 : Frame L0 o0 b) (m0 : ∀ p ∈ ([.pm, .ledger, .dbg, .mgmt, .mail, .post, .cores, .offices] : List Part), p ∈ L0) :
    Frame L0 o0 (testUnitPlace r b) := by
  unfold testUnitPlace
  repeat' first
    | with_reducible assumption
    | with_reducible exact fun p hp => m0 p (subs_of rfl p hp)
    | with_reducible apply frame_advTo
    | with_reducible apply frame_modOffice
    | with_reducible apply frame_startUnit
    | with_reducible apply frame_sweepUnit
    | with_reducible apply Frame.ite
    | (intro _ _ _)
    | split
    | dsimp only
    | exact Frame.trans h0 (fun p => by cases p <;> first | exact .inr rfl | exact .inl (m0 _ (by decide)))

theorem frame_standbyPeriod {L0 : List Part} {o0 : Block} (r : Nat) {b : Block} (h0 : Frame L0 o0 b) (m0 : ∀ p ∈ ([.pm, .offices] : List Part), p ∈ L0) :
    Frame L0 o0 (standbyPeriod r b) := by
  unfold standbyPeriod
  repeat' first
    | with_reducible assumption
    | with_reducible exact fun p hp => m0 p (subs_of rfl p hp)
    | with_reducible apply frame_advTo
    | with_reducible apply frame_modOffice
    | with_reducible apply Frame.ite
    | (intro _ _ _)
    | split
    | dsimp only
    | exact Frame.trans h0 (fun p => by cases p <;> first | exact .inr rfl | exact .inl (m0 _ (by decide)))

theorem frame_standbyTestDone {L0 : List Part} {o0 : Block} (r : Nat) (pass : Bool) {b : Block} (h0 : Frame L0 o0 b) (m0 : ∀ p ∈ ([.dbg, .mgmt, .mail, .offices] : List Part), p ∈ L0) :
    Frame L0 o0 (standbyTestDone r pass b) := by
  unfold standbyTestDone
  repeat' first
    | with_reducible assumption
    | with_reducible exact fun p hp => m0 p (subs_of rfl p hp)
    | with_reducible apply frame_modOffice
    | with_reducible apply frame_postEvent
    | with_reducible apply Frame.ite
    | (intro _ _ _)
    | split
    | dsimp only
    | exact Frame.trans h0 (fun p => by cases p <;> first | exact .inr rfl | exact .inl (m0 _ (by decide)))

theorem frame_standbyCopyDone {L0 : List Part} {o0 : Block} (r : Nat) {b : Block} (h0 : Frame L0 o0 b) (m0 : ∀ p ∈ ([.offices] : List Part), p ∈ L0) :
    Frame L0 o0 (standbyCopyDone r b) := by
  unfold standbyCopyDone
  repeat' first
    | with_reducible assumption
    | with_reducible exact fun p hp => m0 p (subs_of rfl p hp)
    | with_reducible apply frame_modOffice
    | with_reducible apply Frame.ite
    | (intro _ _ _)
    | split
    | dsimp only
    | exact Frame.trans h0 (fun p => by cases p <;> first | exact .inr rfl | exact .inl (m0 _ (by decide)))

theorem frame_plannedSwap {L0 : List Part} {o0 : Block} (r : Nat) {b : Block} (h0 : Frame L0 o0 b) (m0 : ∀ p ∈ ([.pm, .ledger, .mgmt, .mail, .post, .offices, .routers, .nodes] : List Part), p ∈ L0) :
    Frame L0 o0 (plannedSwap r b) := by
  unfold plannedSwap
  repeat' first
    | with_reducible assumption
    | with_reducible exact fun p hp => m0 p (subs_of rfl p hp)
    | with_reducible apply frame_advTo
    | with_reducible apply frame_writeServing
    | with_reducible apply frame_modOffice
    | with_reducible apply frame_finishOp
    | with_reducible apply Frame.ite
    | (intro _ _ _)
    | split
    | dsimp only
    | exact Frame.trans h0 (fun p => by cases p <;> first | exact .inr rfl | exact .inl (m0 _ (by decide)))

theorem frame_routerRound {L0 : List Part} {o0 : Block} (r : Nat) (pass : Bool) {b : Block} (h0 : Frame L0 o0 b) (m0 : ∀ p ∈ ([.pm, .ledger, .post, .bm, .cores, .offices, .routers, .nodes, .couriers] : List Part), p ∈ L0) :
    Frame L0 o0 (routerRound r pass b) := by
  unfold routerRound
  repeat' first
    | with_reducible assumption
    | with_reducible exact fun p hp => m0 p (subs_of rfl p hp)
    | with_reducible apply frame_advTo
    | with_reducible apply frame_modOffice
    | with_reducible apply frame_routerLost
    | with_reducible apply frame_setAround
    | with_reducible apply frame_copyTables
    | with_reducible apply frame_loseRouter
    | with_reducible apply frame_takeVersion
    | with_reducible apply Frame.ite
    | (intro _ _ _)
    | split
    | dsimp only
    | exact Frame.trans h0 (fun p => by cases p <;> first | exact .inr rfl | exact .inl (m0 _ (by decide)))

theorem frame_forwardOne {L0 : List Part} {o0 : Block} (r : Nat) (e : EvHold) {b : Block} (h0 : Frame L0 o0 b) (m0 : ∀ p ∈ ([.dbg, .mgmt, .mail, .offices] : List Part), p ∈ L0) :
    Frame L0 o0 (forwardOne r e b) := by
  unfold forwardOne
  repeat' first
    | with_reducible assumption
    | with_reducible exact fun p hp => m0 p (subs_of rfl p hp)
    | with_reducible apply frame_postEventN
    | with_reducible apply frame_modOffice
    | with_reducible apply Frame.ite
    | (intro _ _ _)
    | split
    | dsimp only
    | exact Frame.trans h0 (fun p => by cases p <;> first | exact .inr rfl | exact .inl (m0 _ (by decide)))

theorem frame_eventForward {L0 : List Part} {o0 : Block} (r : Nat) {b : Block} (h0 : Frame L0 o0 b) (m0 : ∀ p ∈ ([.pm, .dbg, .mgmt, .mail, .offices] : List Part), p ∈ L0) :
    Frame L0 o0 (eventForward r b) := by
  unfold eventForward
  repeat' first
    | with_reducible assumption
    | with_reducible exact fun p hp => m0 p (subs_of rfl p hp)
    | with_reducible apply frame_advTo
    | with_reducible apply Frame.forEach1
    | with_reducible apply frame_forwardOne
    | with_reducible apply Frame.ite
    | (intro _ _ _)
    | split
    | dsimp only
    | exact Frame.trans h0 (fun p => by cases p <;> first | exact .inr rfl | exact .inl (m0 _ (by decide)))

theorem frame_cleanHour {L0 : List Part} {o0 : Block} {b : Block} (h0 : Frame L0 o0 b) (m0 : ∀ p ∈ ([.pm, .ledger, .dbg, .mgmt, .mail, .job, .bm, .offices] : List Part), p ∈ L0) :
    Frame L0 o0 (cleanHour b) := by
  unfold cleanHour
  repeat' first
    | with_reducible assumption
    | with_reducible exact fun p hp => m0 p (subs_of rfl p hp)
    | with_reducible apply frame_advTo
    | with_reducible apply frame_modPm
    | with_reducible apply frame_modLedger
    | with_reducible apply frame_modJob
    | with_reducible apply frame_publishDue
    | with_reducible apply Frame.forEach1
    | with_reducible apply frame_boundaryState
    | with_reducible apply frame_cleanPip
    | with_reducible apply Frame.ite
    | (intro _ _ _)
    | split
    | dsimp only
    | exact Frame.trans h0 (fun p => by cases p <;> first | exact .inr rfl | exact .inl (m0 _ (by decide)))

/-! ### StopRows -/

theorem frame_applyLoad {L0 : List Part} {o0 : Block} {b : Block} (h0 : Frame L0 o0 b) (m0 : ∀ p ∈ ([.pm, .mgmt] : List Part), p ∈ L0) :
    Frame L0 o0 (applyLoad b) := by
  unfold applyLoad
  repeat' first
    | with_reducible assumption
    | with_reducible exact fun p hp => m0 p (subs_of rfl p hp)
    | with_reducible apply frame_setPmState
    | with_reducible apply frame_modPm
    | with_reducible apply Frame.ite
    | (intro _ _ _)
    | split
    | dsimp only
    | exact Frame.trans h0 (fun p => by cases p <;> first | exact .inr rfl | exact .inl (m0 _ (by decide)))

theorem frame_checkPulse {L0 : List Part} {o0 : Block} {b : Block} (h0 : Frame L0 o0 b) (m0 : ∀ p ∈ ([.outs, .pm, .ledger, .stop, .dbg, .mgmt, .mail, .job, .parcel, .post, .bm, .cores, .offices] : List Part), p ∈ L0) :
    Frame L0 o0 (checkPulse b) := by
  unfold checkPulse
  repeat' first
    | with_reducible assumption
    | with_reducible exact fun p hp => m0 p (subs_of rfl p hp)
    | with_reducible apply frame_modPm
    | with_reducible apply frame_hoEvent
    | with_reducible apply frame_setPmState
    | with_reducible apply frame_slip
    | with_reducible apply frame_originate
    | with_reducible apply Frame.ite
    | (intro _ _ _)
    | split
    | dsimp only
    | exact Frame.trans h0 (fun p => by cases p <;> first | exact .inr rfl | exact .inl (m0 _ (by decide)))

theorem frame_syncWidth {L0 : List Part} {o0 : Block} {b : Block} (h0 : Frame L0 o0 b) (m0 : ∀ p ∈ ([.pm, .dbg, .mgmt, .mail] : List Part), p ∈ L0) :
    Frame L0 o0 (syncWidth b) := by
  unfold syncWidth
  repeat' first
    | with_reducible assumption
    | with_reducible exact fun p hp => m0 p (subs_of rfl p hp)
    | with_reducible apply frame_hoEvent
    | with_reducible apply frame_modPm
    | with_reducible apply Frame.ite
    | (intro _ _ _)
    | split
    | dsimp only
    | exact Frame.trans h0 (fun p => by cases p <;> first | exact .inr rfl | exact .inl (m0 _ (by decide)))

theorem frame_syncPulse {L0 : List Part} {o0 : Block} (long : Bool) {b : Block} (h0 : Frame L0 o0 b) (m0 : ∀ p ∈ ([.outs, .pm, .ledger, .stop, .dbg, .mgmt, .mail, .job, .parcel, .post, .bm, .cores, .offices] : List Part), p ∈ L0) :
    Frame L0 o0 (syncPulse long b) := by
  unfold syncPulse
  repeat' first
    | with_reducible assumption
    | with_reducible exact fun p hp => m0 p (subs_of rfl p hp)
    | with_reducible apply frame_advTo
    | with_reducible apply frame_syncWidth
    | with_reducible apply frame_modPm
    | with_reducible apply frame_applyLoad
    | with_reducible apply frame_checkPulse
    | with_reducible apply Frame.ite
    | (intro _ _ _)
    | split
    | dsimp only
    | exact Frame.trans h0 (fun p => by cases p <;> first | exact .inr rfl | exact .inl (m0 _ (by decide)))

theorem frame_syncMissing {L0 : List Part} {o0 : Block} {b : Block} (h0 : Frame L0 o0 b) (m0 : ∀ p ∈ ([.pm, .dbg, .mgmt, .mail] : List Part), p ∈ L0) :
    Frame L0 o0 (syncMissing b) := by
  unfold syncMissing
  repeat' first
    | with_reducible assumption
    | with_reducible exact fun p hp => m0 p (subs_of rfl p hp)
    | with_reducible apply frame_hoEvent
    | with_reducible apply frame_advTo
    | with_reducible apply frame_modPm
    | with_reducible apply Frame.ite
    | (intro _ _ _)
    | split
    | dsimp only
    | exact Frame.trans h0 (fun p => by cases p <;> first | exact .inr rfl | exact .inl (m0 _ (by decide)))

theorem frame_stopInput {L0 : List Part} {o0 : Block} (level : Bool) {b : Block} (h0 : Frame L0 o0 b) (m0 : ∀ p ∈ ([.env, .pm, .ledger, .stop, .mgmt, .mail, .job, .parcel, .post, .cores] : List Part), p ∈ L0) :
    Frame L0 o0 (stopInput level b) := by
  unfold stopInput
  repeat' first
    | with_reducible assumption
    | with_reducible exact fun p hp => m0 p (subs_of rfl p hp)
    | with_reducible apply frame_modEnv
    | with_reducible apply frame_receiveStop
    | with_reducible apply Frame.ite
    | (intro _ _ _)
    | split
    | dsimp only
    | exact Frame.trans h0 (fun p => by cases p <;> first | exact .inr rfl | exact .inl (m0 _ (by decide)))

theorem frame_stopPulseEnd {L0 : List Part} {o0 : Block} {b : Block} (h0 : Frame L0 o0 b) (m0 : ∀ p ∈ ([.outs, .pm, .stop] : List Part), p ∈ L0) :
    Frame L0 o0 (stopPulseEnd b) := by
  unfold stopPulseEnd
  repeat' first
    | with_reducible assumption
    | with_reducible exact fun p hp => m0 p (subs_of rfl p hp)
    | with_reducible apply frame_advTo
    | with_reducible apply frame_modOuts
    | with_reducible apply frame_modStop
    | with_reducible apply Frame.ite
    | (intro _ _ _)
    | split
    | dsimp only
    | exact Frame.trans h0 (fun p => by cases p <;> first | exact .inr rfl | exact .inl (m0 _ (by decide)))

theorem frame_scheduledStop {L0 : List Part} {o0 : Block} (t : Nat) {b : Block} (h0 : Frame L0 o0 b) (m0 : ∀ p ∈ ([.outs, .pm, .ledger, .stop, .dbg, .free, .mgmt, .mail, .job, .parcel, .post, .cores] : List Part), p ∈ L0) :
    Frame L0 o0 (scheduledStop t b) := by
  unfold scheduledStop
  repeat' first
    | with_reducible assumption
    | with_reducible exact fun p hp => m0 p (subs_of rfl p hp)
    | with_reducible apply frame_pulseStop
    | with_reducible apply frame_addCause
    | with_reducible apply frame_advTo
    | with_reducible apply frame_modStop
    | with_reducible apply frame_modParcel
    | with_reducible apply frame_takeStop
    | with_reducible apply frame_abortLaunch
    | with_reducible apply Frame.ite
    | (intro _ _ _)
    | split
    | dsimp only
    | exact Frame.trans h0 (fun p => by cases p <;> first | exact .inr rfl | exact .inl (m0 _ (by decide)))

theorem frame_stopCountReached {L0 : List Part} {o0 : Block} {b : Block} (h0 : Frame L0 o0 b) (m0 : ∀ p ∈ ([.outs, .pm, .ledger, .stop, .dbg, .free, .mgmt, .mail, .job, .parcel, .post, .cores] : List Part), p ∈ L0) :
    Frame L0 o0 (stopCountReached b) := by
  unfold stopCountReached
  repeat' first
    | with_reducible assumption
    | with_reducible exact fun p hp => m0 p (subs_of rfl p hp)
    | with_reducible apply frame_takeStop
    | with_reducible apply frame_advTo
    | with_reducible apply frame_originate
    | with_reducible apply frame_modStop
    | with_reducible apply frame_scheduledStop
    | with_reducible apply Frame.ite
    | (intro _ _ _)
    | split
    | dsimp only
    | exact Frame.trans h0 (fun p => by cases p <;> first | exact .inr rfl | exact .inl (m0 _ (by decide)))

theorem frame_resumeReached {L0 : List Part} {o0 : Block} {b : Block} (h0 : Frame L0 o0 b) (m0 : ∀ p ∈ ([.pm, .stop, .dbg, .mgmt, .mail, .job, .cores] : List Part), p ∈ L0) :
    Frame L0 o0 (resumeReached b) := by
  unfold resumeReached
  repeat' first
    | with_reducible assumption
    | with_reducible exact fun p hp => m0 p (subs_of rfl p hp)
    | with_reducible apply frame_advTo
    | with_reducible apply frame_ungateAll
    | with_reducible apply frame_modJob
    | with_reducible apply frame_hoEvent
    | with_reducible apply Frame.ite
    | (intro _ _ _)
    | split
    | dsimp only
    | exact Frame.trans h0 (fun p => by cases p <;> first | exact .inr rfl | exact .inl (m0 _ (by decide)))

theorem frame_resumeLate {L0 : List Part} {o0 : Block} {b : Block} (h0 : Frame L0 o0 b) (m0 : ∀ p ∈ ([.outs, .pm, .ledger, .stop, .dbg, .mgmt, .mail, .job, .parcel, .post, .cores] : List Part), p ∈ L0) :
    Frame L0 o0 (resumeLate b) := by
  unfold resumeLate
  repeat' first
    | with_reducible assumption
    | with_reducible exact fun p hp => m0 p (subs_of rfl p hp)
    | with_reducible apply frame_originate
    | with_reducible apply frame_hoEvent
    | with_reducible apply frame_advTo
    | with_reducible apply Frame.ite
    | (intro _ _ _)
    | split
    | dsimp only
    | exact Frame.trans h0 (fun p => by cases p <;> first | exact .inr rfl | exact .inl (m0 _ (by decide)))

theorem frame_finishFill {L0 : List Part} {o0 : Block} (f : Fill) {b : Block} (h0 : Frame L0 o0 b) (m0 : ∀ p ∈ ([.ledger, .job, .bm, .cores] : List Part), p ∈ L0) :
    Frame L0 o0 (finishFill f b) := by
  unfold finishFill
  repeat' first
    | with_reducible assumption
    | with_reducible exact fun p hp => m0 p (subs_of rfl p hp)
    | with_reducible apply frame_bmChanged
    | with_reducible apply frame_modHist
    | with_reducible apply frame_fillTo
    | with_reducible apply frame_fenceHold
    | with_reducible apply Frame.ite
    | (intro _ _ _)
    | split
    | dsimp only
    | exact Frame.trans h0 (fun p => by cases p <;> first | exact .inr rfl | exact .inl (m0 _ (by decide)))

theorem frame_realign {L0 : List Part} {o0 : Block} (i : Nat) {b : Block} (h0 : Frame L0 o0 b) (m0 : ∀ p ∈ ([.cores] : List Part), p ∈ L0) :
    Frame L0 o0 (realign i b) := by
  unfold realign
  repeat' first
    | with_reducible assumption
    | with_reducible exact fun p hp => m0 p (subs_of rfl p hp)
    | with_reducible apply frame_modTime
    | with_reducible apply Frame.ite
    | (intro _ _ _)
    | split
    | dsimp only
    | exact Frame.trans h0 (fun p => by cases p <;> first | exact .inr rfl | exact .inl (m0 _ (by decide)))

theorem frame_bankWait {L0 : List Part} {o0 : Block} (r : Nat) {b : Block} (h0 : Frame L0 o0 b) (m0 : ∀ p ∈ ([.dbg, .mgmt, .mail] : List Part), p ∈ L0) :
    Frame L0 o0 (bankWait r b) := by
  unfold bankWait
  repeat' first
    | with_reducible assumption
    | with_reducible exact fun p hp => m0 p (subs_of rfl p hp)
    | with_reducible apply Frame.forEach1
    | with_reducible apply frame_postEvent
    | with_reducible apply Frame.ite
    | (intro _ _ _)
    | split
    | dsimp only
    | exact Frame.trans h0 (fun p => by cases p <;> first | exact .inr rfl | exact .inl (m0 _ (by decide)))

theorem frame_dropLate {L0 : List Part} {o0 : Block} (r : Nat) {b : Block} (h0 : Frame L0 o0 b) (m0 : ∀ p ∈ ([.dbg, .mgmt, .mail, .offices] : List Part), p ∈ L0) :
    Frame L0 o0 (dropLate r b) := by
  unfold dropLate
  repeat' first
    | with_reducible assumption
    | with_reducible exact fun p hp => m0 p (subs_of rfl p hp)
    | with_reducible apply frame_postEventN
    | with_reducible apply Frame.forEach1
    | with_reducible apply frame_diceDrop
    | with_reducible apply frame_modSt
    | with_reducible apply frame_diceShort
    | with_reducible apply frame_modDice
    | with_reducible apply Frame.ite
    | (intro _ _ _)
    | split
    | dsimp only
    | exact Frame.trans h0 (fun p => by cases p <;> first | exact .inr rfl | exact .inl (m0 _ (by decide)))

theorem frame_slotOffice {L0 : List Part} {o0 : Block} (r : Nat) (step : Nat) {b : Block} (h0 : Frame L0 o0 b) (m0 : ∀ p ∈ ([.dbg, .mgmt, .mail, .offices] : List Part), p ∈ L0) :
    Frame L0 o0 (slotOffice r step b) := by
  unfold slotOffice
  repeat' first
    | with_reducible assumption
    | with_reducible exact fun p hp => m0 p (subs_of rfl p hp)
    | with_reducible apply frame_dropLate
    | with_reducible apply frame_modDice
    | with_reducible apply frame_modOffice
    | with_reducible apply frame_bankWait
    | with_reducible apply Frame.forEach1
    | with_reducible apply frame_queueUnit
    | with_reducible apply Frame.ite
    | (intro _ _ _)
    | split
    | dsimp only
    | exact Frame.trans h0 (fun p => by cases p <;> first | exact .inr rfl | exact .inl (m0 _ (by decide)))

theorem frame_releaseWorkers {L0 : List Part} {o0 : Block} {b : Block} (h0 : Frame L0 o0 b) (m0 : ∀ p ∈ ([.cores] : List Part), p ∈ L0) :
    Frame L0 o0 (releaseWorkers b) := by
  unfold releaseWorkers
  repeat' first
    | with_reducible assumption
    | with_reducible exact fun p hp => m0 p (subs_of rfl p hp)
    | with_reducible apply Frame.forEach1
    | with_reducible apply frame_releaseCore
    | with_reducible apply Frame.ite
    | (intro _ _ _)
    | split
    | dsimp only
    | exact Frame.trans h0 (fun p => by cases p <;> first | exact .inr rfl | exact .inl (m0 _ (by decide)))

theorem frame_boundaryCores {L0 : List Part} {o0 : Block} {b : Block} (h0 : Frame L0 o0 b) (m0 : ∀ p ∈ ([.ledger, .dbg, .mgmt, .mail, .job, .bm, .cores, .offices] : List Part), p ∈ L0) :
    Frame L0 o0 (boundaryCores b) := by
  unfold boundaryCores
  repeat' first
    | with_reducible assumption
    | with_reducible exact fun p hp => m0 p (subs_of rfl p hp)
    | with_reducible apply frame_boundaryAll
    | with_reducible apply Frame.forEach1
    | with_reducible apply frame_finishFill
    | with_reducible apply frame_publish
    | with_reducible apply frame_releaseWorkers
    | with_reducible apply Frame.ite
    | (intro _ _ _)
    | split
    | dsimp only
    | exact Frame.trans h0 (fun p => by cases p <;> first | exact .inr rfl | exact .inl (m0 _ (by decide)))

theorem frame_openSlot {L0 : List Part} {o0 : Block} (t : Nat) (step : Nat) (replay : Nat) (ix : Nat) {b : Block} (h0 : Frame L0 o0 b) (m0 : ∀ p ∈ ([.ledger, .dbg, .mgmt, .mail, .job, .bm, .cores, .offices] : List Part), p ∈ L0) :
    Frame L0 o0 (openSlot t step replay ix b) := by
  unfold openSlot
  repeat' first
    | with_reducible assumption
    | with_reducible exact fun p hp => m0 p (subs_of rfl p hp)
    | with_reducible apply frame_boundaryCores
    | with_reducible apply Frame.forEach1
    | with_reducible apply frame_realign
    | with_reducible apply frame_modCore
    | with_reducible apply frame_modJob
    | with_reducible apply frame_slotOffice
    | with_reducible apply Frame.ite
    | (intro _ _ _)
    | split
    | dsimp only
    | exact Frame.trans h0 (fun p => by cases p <;> first | exact .inr rfl | exact .inl (m0 _ (by decide)))

theorem frame_armDeadline {L0 : List Part} {o0 : Block} {b : Block} (h0 : Frame L0 o0 b) (m0 : ∀ p ∈ ([.outs, .pm, .ledger, .stop, .mgmt, .mail, .job, .parcel, .post, .cores] : List Part), p ∈ L0) :
    Frame L0 o0 (armDeadline b) := by
  unfold armDeadline
  repeat' first
    | with_reducible assumption
    | with_reducible exact fun p hp => m0 p (subs_of rfl p hp)
    | with_reducible apply frame_clearCause
    | with_reducible apply frame_originate
    | with_reducible apply frame_advTo
    | with_reducible apply Frame.ite
    | (intro _ _ _)
    | split
    | dsimp only
    | exact Frame.trans h0 (fun p => by cases p <;> first | exact .inr rfl | exact .inl (m0 _ (by decide)))

theorem frame_startProbation {L0 : List Part} {o0 : Block} (t : Nat) {b : Block} (h0 : Frame L0 o0 b) (m0 : ∀ p ∈ ([.ledger] : List Part), p ∈ L0) :
    Frame L0 o0 (startProbation t b) := by
  unfold startProbation
  repeat' first
    | with_reducible assumption
    | with_reducible exact fun p hp => m0 p (subs_of rfl p hp)
    | with_reducible apply Frame.forEach1
    | with_reducible apply frame_modHist
    | with_reducible apply Frame.ite
    | (intro _ _ _)
    | split
    | dsimp only
    | exact Frame.trans h0 (fun p => by cases p <;> first | exact .inr rfl | exact .inl (m0 _ (by decide)))

theorem frame_doLaunch {L0 : List Part} {o0 : Block} {b : Block} (h0 : Frame L0 o0 b) (m0 : ∀ p ∈ ([.pm, .ledger, .dbg, .mgmt, .mail, .job, .fleet, .parcel, .post, .bm, .cores, .offices] : List Part), p ∈ L0) :
    Frame L0 o0 (doLaunch b) := by
  unfold doLaunch
  repeat' first
    | with_reducible assumption
    | with_reducible exact fun p hp => m0 p (subs_of rfl p hp)
    | with_reducible apply frame_advTo
    | with_reducible apply frame_modJob
    | with_reducible apply frame_startProbation
    | with_reducible apply Frame.forEach1
    | with_reducible apply frame_modOffice
    | with_reducible apply frame_openSlot
    | with_reducible apply frame_modCore
    | with_reducible apply frame_finishOp
    | with_reducible apply frame_modParcel
    | with_reducible apply frame_prepareParcel
    | with_reducible apply Frame.ite
    | (intro _ _ _)
    | split
    | dsimp only
    | exact Frame.trans h0 (fun p => by cases p <;> first | exact .inr rfl | exact .inl (m0 _ (by decide)))

theorem frame_launchReached {L0 : List Part} {o0 : Block} {b : Block} (h0 : Frame L0 o0 b) (m0 : ∀ p ∈ ([.outs, .pm, .ledger, .stop, .dbg, .free, .mgmt, .mail, .job, .fleet, .parcel, .post, .bm, .cores, .offices] : List Part), p ∈ L0) :
    Frame L0 o0 (launchReached b) := by
  unfold launchReached
  repeat' first
    | with_reducible assumption
    | with_reducible exact fun p hp => m0 p (subs_of rfl p hp)
    | with_reducible apply frame_abortLaunch
    | with_reducible apply frame_advTo
    | with_reducible apply frame_armDeadline
    | with_reducible apply frame_stopCountReached
    | with_reducible apply frame_doLaunch
    | with_reducible apply Frame.ite
    | (intro _ _ _)
    | split
    | dsimp only
    | exact Frame.trans h0 (fun p => by cases p <;> first | exact .inr rfl | exact .inl (m0 _ (by decide)))

theorem frame_expireFills {L0 : List Part} {o0 : Block} {b : Block} (h0 : Frame L0 o0 b) (m0 : ∀ p ∈ ([.pm, .ledger, .stop, .dbg, .mgmt, .mail, .job, .offices] : List Part), p ∈ L0) :
    Frame L0 o0 (expireFills b) := by
  unfold expireFills
  repeat' first
    | with_reducible assumption
    | with_reducible exact fun p hp => m0 p (subs_of rfl p hp)
    | with_reducible apply Frame.forEach1
    | with_reducible apply frame_fillTimeout
    | with_reducible apply Frame.ite
    | (intro _ _ _)
    | split
    | dsimp only
    | exact Frame.trans h0 (fun p => by cases p <;> first | exact .inr rfl | exact .inl (m0 _ (by decide)))

theorem frame_stepBoundary {L0 : List Part} {o0 : Block} {b : Block} (h0 : Frame L0 o0 b) (m0 : ∀ p ∈ ([.outs, .pm, .svc, .ledger, .stop, .dbg, .free, .mgmt, .mail, .job, .resets, .fleet, .parcel, .image, .post, .bm, .cores, .offices, .routers, .couriers] : List Part), p ∈ L0) :
    Frame L0 o0 (stepBoundary b) := by
  unfold stepBoundary
  repeat' first
    | with_reducible assumption
    | with_reducible exact fun p hp => m0 p (subs_of rfl p hp)
    | with_reducible apply frame_stepDecision
    | with_reducible apply frame_expireFills
    | with_reducible apply frame_parcelVoteLate
    | with_reducible apply frame_stopCountReached
    | with_reducible apply frame_scheduledStop
    | with_reducible apply frame_parcelStop
    | with_reducible apply frame_openSlot
    | with_reducible apply frame_advTo
    | with_reducible apply Frame.ite
    | (intro _ _ _)
    | split
    | dsimp only
    | exact Frame.trans h0 (fun p => by cases p <;> first | exact .inr rfl | exact .inl (m0 _ (by decide)))

/-! ### Images -/

theorem frame_imgRoundTarget {L0 : List Part} {o0 : Block} (i : Nat) {b : Block} (h0 : Frame L0 o0 b) (m0 : ∀ p ∈ ([.ledger, .bm, .cores] : List Part), p ∈ L0) :
    Frame L0 o0 (imgRoundTarget i b) := by
  unfold imgRoundTarget
  repeat' first
    | with_reducible assumption
    | with_reducible exact fun p hp => m0 p (subs_of rfl p hp)
    | with_reducible apply frame_modImg
    | with_reducible apply frame_imgFail
    | with_reducible apply Frame.ite
    | (intro _ _ _)
    | split
    | dsimp only
    | exact Frame.trans h0 (fun p => by cases p <;> first | exact .inr rfl | exact .inl (m0 _ (by decide)))

theorem frame_imageRoundEnd {L0 : List Part} {o0 : Block} (r : Nat) {b : Block} (h0 : Frame L0 o0 b) (m0 : ∀ p ∈ ([.ledger, .mgmt, .mail, .image, .post, .bm, .cores] : List Part), p ∈ L0) :
    Frame L0 o0 (imageRoundEnd r b) := by
  unfold imageRoundEnd
  repeat' first
    | with_reducible assumption
    | with_reducible exact fun p hp => m0 p (subs_of rfl p hp)
    | with_reducible apply frame_imgSweep
    | with_reducible apply Frame.forEach1
    | with_reducible apply frame_imgRoundTarget
    | with_reducible apply frame_modImage
    | with_reducible apply frame_imgCheck
    | with_reducible apply Frame.ite
    | (intro _ _ _)
    | split
    | dsimp only
    | exact Frame.trans h0 (fun p => by cases p <;> first | exact .inr rfl | exact .inl (m0 _ (by decide)))

theorem frame_imageReadback {L0 : List Part} {o0 : Block} (i : Nat) (data : List Byte) {b : Block} (h0 : Frame L0 o0 b) (m0 : ∀ p ∈ ([.ledger, .mgmt, .mail, .image, .post, .bm, .cores] : List Part), p ∈ L0) :
    Frame L0 o0 (imageReadback i data b) := by
  unfold imageReadback
  repeat' first
    | with_reducible assumption
    | with_reducible exact fun p hp => m0 p (subs_of rfl p hp)
    | with_reducible apply frame_imgSweep
    | with_reducible apply frame_imgCheck
    | with_reducible apply frame_modImg
    | with_reducible apply frame_releaseCore
    | with_reducible apply frame_imgFail
    | with_reducible apply Frame.ite
    | (intro _ _ _)
    | split
    | dsimp only
    | exact Frame.trans h0 (fun p => by cases p <;> first | exact .inr rfl | exact .inl (m0 _ (by decide)))

end Sys2Proof.Machine
end

