-- ==== Sys2Proof/Laws/FrameLetters.lean ====
section
/-! SUPPORT. The frame of every operation of the letters: the parts of the block it can change. -/

namespace Sys2Proof.Machine

open Sys2Proof

/-! ### LetterIdent -/

theorem reply_helloL {L0 : List Part} {o0 : Block} (l : Letter) {b : Block} (h0 : Frame L0 o0 b) (m0 : ∀ p ∈ ([.mail] : List Part), p ∈ L0) :
    Reply.within L0 o0 (helloL l b) := by
  unfold helloL
  repeat' first
    | with_reducible assumption
    | with_reducible exact fun p hp => m0 p (subs_of rfl p hp)
    | with_reducible apply frame_modMail
    | with_reducible apply within_done
    | with_reducible apply within_later
    | with_reducible apply within_interim
    | with_reducible apply within_whole
    | with_reducible apply within_parts
    | exact trivial
    | with_reducible apply Frame.ite
    | (intro _ _ _)
    | split
    | dsimp only
    | exact Frame.trans h0 (fun p => by cases p <;> first | exact .inr rfl | exact .inl (m0 _ (by decide)))

theorem reply_identifyL {L0 : List Part} {o0 : Block} (u0 : Letter) {b : Block} (h0 : Frame L0 o0 b) (m0 : ∀ p ∈ ([] : List Part), p ∈ L0) :
    Reply.within L0 o0 (identifyL u0 b) := by
  unfold identifyL
  repeat' first
    | with_reducible assumption
    | with_reducible exact fun p hp => m0 p (subs_of rfl p hp)
    | with_reducible apply Frame.ite
    | with_reducible apply within_done
    | with_reducible apply within_later
    | with_reducible apply within_interim
    | with_reducible apply within_whole
    | with_reducible apply within_parts
    | exact trivial
    | (intro _ _ _)
    | split
    | dsimp only
    | exact Frame.trans h0 (fun p => by cases p <;> first | exact .inr rfl | exact .inl (m0 _ (by decide)))

theorem reply_inventoryL {L0 : List Part} {o0 : Block} (u0 : Letter) {b : Block} (h0 : Frame L0 o0 b) (m0 : ∀ p ∈ ([] : List Part), p ∈ L0) :
    Reply.within L0 o0 (inventoryL u0 b) := by
  unfold inventoryL
  repeat' first
    | with_reducible assumption
    | with_reducible exact fun p hp => m0 p (subs_of rfl p hp)
    | with_reducible apply Frame.ite
    | with_reducible apply within_done
    | with_reducible apply within_later
    | with_reducible apply within_interim
    | with_reducible apply within_whole
    | with_reducible apply within_parts
    | exact trivial
    | (intro _ _ _)
    | split
    | dsimp only
    | exact Frame.trans h0 (fun p => by cases p <;> first | exact .inr rfl | exact .inl (m0 _ (by decide)))

theorem reply_measureL {L0 : List Part} {o0 : Block} (u0 : Letter) {b : Block} (h0 : Frame L0 o0 b) (m0 : ∀ p ∈ ([] : List Part), p ∈ L0) :
    Reply.within L0 o0 (measureL u0 b) := by
  unfold measureL
  repeat' first
    | with_reducible assumption
    | with_reducible exact fun p hp => m0 p (subs_of rfl p hp)
    | with_reducible apply Frame.ite
    | with_reducible apply within_done
    | with_reducible apply within_later
    | with_reducible apply within_interim
    | with_reducible apply within_whole
    | with_reducible apply within_parts
    | exact trivial
    | (intro _ _ _)
    | split
    | dsimp only
    | exact Frame.trans h0 (fun p => by cases p <;> first | exact .inr rfl | exact .inl (m0 _ (by decide)))

/-! ### Manifests -/

theorem frame_declareSpare {L0 : List Part} {o0 : Block} (i : Nat) {b : Block} (h0 : Frame L0 o0 b) (m0 : ∀ p ∈ ([.ledger] : List Part), p ∈ L0) :
    Frame L0 o0 (declareSpare i b) := by
  unfold declareSpare
  repeat' first
    | with_reducible assumption
    | with_reducible exact fun p hp => m0 p (subs_of rfl p hp)
    | with_reducible apply frame_setHist
    | with_reducible apply Frame.ite
    | (intro _ _ _)
    | split
    | dsimp only
    | exact Frame.trans h0 (fun p => by cases p <;> first | exact .inr rfl | exact .inl (m0 _ (by decide)))

theorem frame_loadManifest {L0 : List Part} {o0 : Block} (m : Manifest) {b : Block} (h0 : Frame L0 o0 b) (m0 : ∀ p ∈ ([.svc, .ledger, .dbg, .mgmt, .mail, .job, .parcel, .bm, .cores, .offices] : List Part), p ∈ L0) :
    Frame L0 o0 (loadManifest m b) := by
  unfold loadManifest
  repeat' first
    | with_reducible assumption
    | with_reducible exact fun p hp => m0 p (subs_of rfl p hp)
    | with_reducible apply frame_modLedger
    | with_reducible apply frame_modJob
    | with_reducible apply Frame.forEach1
    | with_reducible apply frame_queueSuspicion
    | with_reducible apply frame_modBm
    | with_reducible apply frame_declareSpare
    | with_reducible apply frame_modOffice
    | with_reducible apply frame_modCore
    | with_reducible apply frame_setSvc
    | with_reducible apply frame_bmChanged
    | with_reducible apply frame_selectHolders
    | with_reducible apply Frame.ite
    | (intro _ _ _)
    | split
    | dsimp only
    | exact Frame.trans h0 (fun p => by cases p <;> first | exact .inr rfl | exact .inl (m0 _ (by decide)))

/-! ### LetterJob -/

theorem reply_outside {L0 : List Part} {o0 : Block} (f : Letter → Block → Reply) (l : Letter) {b : Block} (h : Reply.within L0 o0 (f l b)) :
    Reply.within L0 o0 (outside f l b) := by
  unfold outside
  split
  · exact trivial
  · exact h

theorem reply_jobLoadL {L0 : List Part} {o0 : Block} (data : Option (List Byte)) (l : Letter) {b : Block} (h0 : Frame L0 o0 b) (m0 : ∀ p ∈ ([.svc, .ledger, .dbg, .free, .mgmt, .mail, .job, .parcel, .bm, .cores, .offices] : List Part), p ∈ L0) :
    Reply.within L0 o0 (jobLoadL data l b) := by
  unfold jobLoadL
  repeat' first
    | with_reducible assumption
    | with_reducible exact fun p hp => m0 p (subs_of rfl p hp)
    | with_reducible apply frame_freshBit
    | with_reducible apply within_done
    | with_reducible apply within_later
    | with_reducible apply within_interim
    | with_reducible apply within_whole
    | with_reducible apply within_parts
    | exact trivial
    | with_reducible apply frame_loadManifest
    | with_reducible apply frame_freshWord
    | with_reducible apply Frame.ite
    | (intro _ _ _)
    | split
    | dsimp only
    | exact Frame.trans h0 (fun p => by cases p <;> first | exact .inr rfl | exact .inl (m0 _ (by decide)))

theorem reply_launchL {L0 : List Part} {o0 : Block} (missing : List Nat) (l : Letter) {b : Block} (h0 : Frame L0 o0 b) (m0 : ∀ p ∈ ([.ledger, .mgmt, .mail, .job, .post, .cores, .offices, .routers, .couriers] : List Part), p ∈ L0) :
    Reply.within L0 o0 (launchL missing l b) := by
  unfold launchL
  repeat' first
    | with_reducible assumption
    | with_reducible exact fun p hp => m0 p (subs_of rfl p hp)
    | with_reducible apply frame_endSweep
    | with_reducible apply within_done
    | with_reducible apply within_later
    | with_reducible apply within_interim
    | with_reducible apply within_whole
    | with_reducible apply within_parts
    | exact trivial
    | with_reducible apply frame_modJob
    | with_reducible apply Frame.forEach1
    | with_reducible apply frame_modCore
    | with_reducible apply frame_castStage
    | with_reducible apply frame_modPost
    | with_reducible apply Frame.ite
    | (intro _ _ _)
    | split
    | dsimp only
    | exact Frame.trans h0 (fun p => by cases p <;> first | exact .inr rfl | exact .inl (m0 _ (by decide)))

theorem reply_stopAtL {L0 : List Part} {o0 : Block} (l : Letter) {b : Block} (h0 : Frame L0 o0 b) (m0 : ∀ p ∈ ([.stop] : List Part), p ∈ L0) :
    Reply.within L0 o0 (stopAtL l b) := by
  unfold stopAtL
  repeat' first
    | with_reducible assumption
    | with_reducible exact fun p hp => m0 p (subs_of rfl p hp)
    | with_reducible apply frame_modStop
    | with_reducible apply within_done
    | with_reducible apply within_later
    | with_reducible apply within_interim
    | with_reducible apply within_whole
    | with_reducible apply within_parts
    | exact trivial
    | with_reducible apply Frame.ite
    | (intro _ _ _)
    | split
    | dsimp only
    | exact Frame.trans h0 (fun p => by cases p <;> first | exact .inr rfl | exact .inl (m0 _ (by decide)))

theorem reply_urgentStopL {L0 : List Part} {o0 : Block} (u0 : Letter) {b : Block} (h0 : Frame L0 o0 b) (m0 : ∀ p ∈ ([.outs, .pm, .ledger, .stop, .mgmt, .mail, .job, .parcel, .post, .cores] : List Part), p ∈ L0) :
    Reply.within L0 o0 (urgentStopL u0 b) := by
  unfold urgentStopL
  repeat' first
    | with_reducible assumption
    | with_reducible exact fun p hp => m0 p (subs_of rfl p hp)
    | with_reducible apply frame_originate
    | with_reducible apply within_done
    | with_reducible apply within_later
    | with_reducible apply within_interim
    | with_reducible apply within_whole
    | with_reducible apply within_parts
    | exact trivial
    | with_reducible apply Frame.ite
    | (intro _ _ _)
    | split
    | dsimp only
    | exact Frame.trans h0 (fun p => by cases p <;> first | exact .inr rfl | exact .inl (m0 _ (by decide)))

theorem reply_stopReleaseL {L0 : List Part} {o0 : Block} (u0 : Letter) {b : Block} (h0 : Frame L0 o0 b) (m0 : ∀ p ∈ ([.stop] : List Part), p ∈ L0) :
    Reply.within L0 o0 (stopReleaseL u0 b) := by
  unfold stopReleaseL
  repeat' first
    | with_reducible assumption
    | with_reducible exact fun p hp => m0 p (subs_of rfl p hp)
    | with_reducible apply frame_modStop
    | with_reducible apply within_done
    | with_reducible apply within_later
    | with_reducible apply within_interim
    | with_reducible apply within_whole
    | with_reducible apply within_parts
    | exact trivial
    | with_reducible apply Frame.ite
    | (intro _ _ _)
    | split
    | dsimp only
    | exact Frame.trans h0 (fun p => by cases p <;> first | exact .inr rfl | exact .inl (m0 _ (by decide)))

theorem reply_jobTeardownL {L0 : List Part} {o0 : Block} (u0 : Letter) {b : Block} (h0 : Frame L0 o0 b) (m0 : ∀ p ∈ ([.outs, .pm, .ledger, .stop, .dbg, .mgmt, .mail, .job, .fleet, .parcel, .post, .bm, .cores, .offices] : List Part), p ∈ L0) :
    Reply.within L0 o0 (jobTeardownL u0 b) := by
  unfold jobTeardownL
  repeat' first
    | with_reducible assumption
    | with_reducible exact fun p hp => m0 p (subs_of rfl p hp)
    | with_reducible apply frame_beginTeardown
    | with_reducible apply within_done
    | with_reducible apply within_later
    | with_reducible apply within_interim
    | with_reducible apply within_whole
    | with_reducible apply within_parts
    | exact trivial
    | with_reducible apply Frame.ite
    | (intro _ _ _)
    | split
    | dsimp only
    | exact Frame.trans h0 (fun p => by cases p <;> first | exact .inr rfl | exact .inl (m0 _ (by decide)))

theorem reply_postmarkLoadL {L0 : List Part} {o0 : Block} (l : Letter) {b : Block} (h0 : Frame L0 o0 b) (m0 : ∀ p ∈ ([.pm, .mgmt] : List Part), p ∈ L0) :
    Reply.within L0 o0 (postmarkLoadL l b) := by
  unfold postmarkLoadL
  repeat' first
    | with_reducible assumption
    | with_reducible exact fun p hp => m0 p (subs_of rfl p hp)
    | with_reducible apply reply_badParam
    | with_reducible apply within_done
    | with_reducible apply within_later
    | with_reducible apply within_interim
    | with_reducible apply within_whole
    | with_reducible apply within_parts
    | exact trivial
    | with_reducible apply frame_setPmState
    | with_reducible apply frame_modPm
    | with_reducible apply Frame.ite
    | (intro _ _ _)
    | split
    | dsimp only
    | exact Frame.trans h0 (fun p => by cases p <;> first | exact .inr rfl | exact .inl (m0 _ (by decide)))

/-! ### LetterPolicy -/

theorem reply_formatLoadL {L0 : List Part} {o0 : Block} (missedCores : List Nat) (missedTaps : List Nat) (l : Letter) {b : Block} (h0 : Frame L0 o0 b) (m0 : ∀ p ∈ ([.ledger, .stop, .dbg, .mgmt, .mail, .policy, .fleet, .parcel, .post, .bm, .cores, .offices, .routers, .couriers] : List Part), p ∈ L0) :
    Reply.within L0 o0 (formatLoadL missedCores missedTaps l b) := by
  unfold formatLoadL
  repeat' first
    | with_reducible assumption
    | with_reducible exact fun p hp => m0 p (subs_of rfl p hp)
    | with_reducible apply reply_badParam
    | with_reducible apply within_done
    | with_reducible apply within_later
    | with_reducible apply within_interim
    | with_reducible apply within_whole
    | with_reducible apply within_parts
    | exact trivial
    | with_reducible apply frame_modPolicy
    | with_reducible apply Frame.forEach1
    | with_reducible apply frame_modCore
    | with_reducible apply frame_modCourier
    | with_reducible apply frame_disableDomain
    | with_reducible apply frame_failLetterbox
    | with_reducible apply Frame.ite
    | (intro _ _ _)
    | split
    | dsimp only
    | exact Frame.trans h0 (fun p => by cases p <;> first | exact .inr rfl | exact .inl (m0 _ (by decide)))

theorem reply_diceRatesL {L0 : List Part} {o0 : Block} (l : Letter) {b : Block} (h0 : Frame L0 o0 b) (m0 : ∀ p ∈ ([.policy] : List Part), p ∈ L0) :
    Reply.within L0 o0 (diceRatesL l b) := by
  unfold diceRatesL
  repeat' first
    | with_reducible assumption
    | with_reducible exact fun p hp => m0 p (subs_of rfl p hp)
    | with_reducible apply reply_badParam
    | with_reducible apply within_done
    | with_reducible apply within_later
    | with_reducible apply within_interim
    | with_reducible apply within_whole
    | with_reducible apply within_parts
    | exact trivial
    | with_reducible apply frame_modPolicy
    | with_reducible apply Frame.ite
    | (intro _ _ _)
    | split
    | dsimp only
    | exact Frame.trans h0 (fun p => by cases p <;> first | exact .inr rfl | exact .inl (m0 _ (by decide)))

theorem reply_canaryBandsL {L0 : List Part} {o0 : Block} (l : Letter) {b : Block} (h0 : Frame L0 o0 b) (m0 : ∀ p ∈ ([.dbg, .mgmt, .mail, .policy, .offices] : List Part), p ∈ L0) :
    Reply.within L0 o0 (canaryBandsL l b) := by
  unfold canaryBandsL
  repeat' first
    | with_reducible assumption
    | with_reducible exact fun p hp => m0 p (subs_of rfl p hp)
    | with_reducible apply reply_badParam
    | with_reducible apply within_done
    | with_reducible apply within_later
    | with_reducible apply within_interim
    | with_reducible apply within_whole
    | with_reducible apply within_parts
    | exact trivial
    | with_reducible apply frame_modPolicy
    | with_reducible apply frame_canary
    | with_reducible apply Frame.ite
    | (intro _ _ _)
    | split
    | dsimp only
    | exact Frame.trans h0 (fun p => by cases p <;> first | exact .inr rfl | exact .inl (m0 _ (by decide)))

theorem reply_verdictPolicyL {L0 : List Part} {o0 : Block} (l : Letter) {b : Block} (h0 : Frame L0 o0 b) (m0 : ∀ p ∈ ([.policy] : List Part), p ∈ L0) :
    Reply.within L0 o0 (verdictPolicyL l b) := by
  unfold verdictPolicyL
  repeat' first
    | with_reducible assumption
    | with_reducible exact fun p hp => m0 p (subs_of rfl p hp)
    | with_reducible apply reply_badParam
    | with_reducible apply within_done
    | with_reducible apply within_later
    | with_reducible apply within_interim
    | with_reducible apply within_whole
    | with_reducible apply within_parts
    | exact trivial
    | with_reducible apply frame_modPolicy
    | with_reducible apply Frame.ite
    | (intro _ _ _)
    | split
    | dsimp only
    | exact Frame.trans h0 (fun p => by cases p <;> first | exact .inr rfl | exact .inl (m0 _ (by decide)))

theorem reply_stepQueryL {L0 : List Part} {o0 : Block} (l : Letter) {b : Block} (h0 : Frame L0 o0 b) (m0 : ∀ p ∈ ([] : List Part), p ∈ L0) :
    Reply.within L0 o0 (stepQueryL l b) := by
  unfold stepQueryL
  repeat' first
    | with_reducible assumption
    | with_reducible exact fun p hp => m0 p (subs_of rfl p hp)
    | with_reducible apply reply_badParam
    | with_reducible apply within_done
    | with_reducible apply within_later
    | with_reducible apply within_interim
    | with_reducible apply within_whole
    | with_reducible apply within_parts
    | exact trivial
    | with_reducible apply Frame.ite
    | (intro _ _ _)
    | split
    | dsimp only
    | exact Frame.trans h0 (fun p => by cases p <;> first | exact .inr rfl | exact .inl (m0 _ (by decide)))

theorem reply_coreQueryL {L0 : List Part} {o0 : Block} (l : Letter) {b : Block} (h0 : Frame L0 o0 b) (m0 : ∀ p ∈ ([] : List Part), p ∈ L0) :
    Reply.within L0 o0 (coreQueryL l b) := by
  unfold coreQueryL
  repeat' first
    | with_reducible assumption
    | with_reducible exact fun p hp => m0 p (subs_of rfl p hp)
    | with_reducible apply Frame.ite
    | with_reducible apply within_done
    | with_reducible apply within_later
    | with_reducible apply within_interim
    | with_reducible apply within_whole
    | with_reducible apply within_parts
    | exact trivial
    | (intro _ _ _)
    | split
    | dsimp only
    | exact Frame.trans h0 (fun p => by cases p <;> first | exact .inr rfl | exact .inl (m0 _ (by decide)))

/-! ### LetterTest -/

theorem reply_testPolicyL {L0 : List Part} {o0 : Block} (l : Letter) {b : Block} (h0 : Frame L0 o0 b) (m0 : ∀ p ∈ ([.pm, .ledger, .policy, .post, .bm, .cores, .offices, .routers, .nodes, .couriers] : List Part), p ∈ L0) :
    Reply.within L0 o0 (testPolicyL l b) := by
  unfold testPolicyL
  repeat' first
    | with_reducible assumption
    | with_reducible exact fun p hp => m0 p (subs_of rfl p hp)
    | with_reducible apply reply_badParam
    | with_reducible apply within_done
    | with_reducible apply within_later
    | with_reducible apply within_interim
    | with_reducible apply within_whole
    | with_reducible apply within_parts
    | exact trivial
    | with_reducible apply frame_modPolicy
    | with_reducible apply frame_routerRound
    | with_reducible apply Frame.ite
    | (intro _ _ _)
    | split
    | dsimp only
    | exact Frame.trans h0 (fun p => by cases p <;> first | exact .inr rfl | exact .inl (m0 _ (by decide)))

theorem reply_testSweepL {L0 : List Part} {o0 : Block} (l : Letter) {b : Block} (h0 : Frame L0 o0 b) (m0 : ∀ p ∈ ([.offices] : List Part), p ∈ L0) :
    Reply.within L0 o0 (testSweepL l b) := by
  unfold testSweepL
  repeat' first
    | with_reducible assumption
    | with_reducible exact fun p hp => m0 p (subs_of rfl p hp)
    | with_reducible apply reply_badParam
    | with_reducible apply within_done
    | with_reducible apply within_later
    | with_reducible apply within_interim
    | with_reducible apply within_whole
    | with_reducible apply within_parts
    | exact trivial
    | with_reducible apply Frame.forEach1
    | with_reducible apply frame_modOffice
    | with_reducible apply Frame.ite
    | (intro _ _ _)
    | split
    | dsimp only
    | exact Frame.trans h0 (fun p => by cases p <;> first | exact .inr rfl | exact .inl (m0 _ (by decide)))

theorem frame_startSweep {L0 : List Part} {o0 : Block} {b : Block} (h0 : Frame L0 o0 b) (m0 : ∀ p ∈ ([.ledger, .dbg, .mgmt, .mail, .post, .offices] : List Part), p ∈ L0) :
    Frame L0 o0 (startSweep b) := by
  unfold startSweep
  repeat' first
    | with_reducible assumption
    | with_reducible exact fun p hp => m0 p (subs_of rfl p hp)
    | with_reducible apply frame_sweepCheck
    | with_reducible apply Frame.forEach1
    | with_reducible apply frame_sweepNextCore
    | with_reducible apply Frame.ite
    | (intro _ _ _)
    | split
    | dsimp only
    | exact Frame.trans h0 (fun p => by cases p <;> first | exact .inr rfl | exact .inl (m0 _ (by decide)))

theorem frame_testSweep {L0 : List Part} {o0 : Block} (r : Nat) {b : Block} (h0 : Frame L0 o0 b) (m0 : ∀ p ∈ ([.ledger, .dbg, .mgmt, .mail, .fleet, .post, .offices] : List Part), p ∈ L0) :
    Frame L0 o0 (testSweep r b) := by
  unfold testSweep
  repeat' first
    | with_reducible assumption
    | with_reducible exact fun p hp => m0 p (subs_of rfl p hp)
    | with_reducible apply frame_letterRow
    | with_reducible apply reply_outside
    | with_reducible apply reply_testSweepL
    | with_reducible apply frame_startSweep
    | with_reducible apply Frame.ite
    | (intro _ _ _)
    | split
    | dsimp only
    | exact Frame.trans h0 (fun p => by cases p <;> first | exact .inr rfl | exact .inl (m0 _ (by decide)))

theorem reply_coreRestoreL {L0 : List Part} {o0 : Block} (l : Letter) {b : Block} (h0 : Frame L0 o0 b) (m0 : ∀ p ∈ ([.dbg, .mgmt, .mail, .cores, .offices] : List Part), p ∈ L0) :
    Reply.within L0 o0 (coreRestoreL l b) := by
  unfold coreRestoreL
  repeat' first
    | with_reducible assumption
    | with_reducible exact fun p hp => m0 p (subs_of rfl p hp)
    | with_reducible apply frame_modCore
    | with_reducible apply within_done
    | with_reducible apply within_later
    | with_reducible apply within_interim
    | with_reducible apply within_whole
    | with_reducible apply within_parts
    | exact trivial
    | with_reducible apply frame_queueUnit
    | with_reducible apply Frame.ite
    | (intro _ _ _)
    | split
    | dsimp only
    | exact Frame.trans h0 (fun p => by cases p <;> first | exact .inr rfl | exact .inl (m0 _ (by decide)))

theorem reply_testCourierL {L0 : List Part} {o0 : Block} (pass : Bool) (l : Letter) {b : Block} (h0 : Frame L0 o0 b) (m0 : ∀ p ∈ ([.pm, .ledger, .stop, .dbg, .mgmt, .mail, .fleet, .parcel, .post, .cores, .offices, .routers, .couriers] : List Part), p ∈ L0) :
    Reply.within L0 o0 (testCourierL pass l b) := by
  unfold testCourierL
  repeat' first
    | with_reducible assumption
    | with_reducible exact fun p hp => m0 p (subs_of rfl p hp)
    | with_reducible apply reply_badParam
    | with_reducible apply within_done
    | with_reducible apply within_later
    | with_reducible apply within_interim
    | with_reducible apply within_whole
    | with_reducible apply within_parts
    | exact trivial
    | with_reducible apply frame_advTo
    | with_reducible apply frame_disablePort
    | with_reducible apply frame_enablePort
    | with_reducible apply frame_modCourier
    | with_reducible apply Frame.ite
    | (intro _ _ _)
    | split
    | dsimp only
    | exact Frame.trans h0 (fun p => by cases p <;> first | exact .inr rfl | exact .inl (m0 _ (by decide)))

theorem reply_officeSwapL {L0 : List Part} {o0 : Block} (l : Letter) {b : Block} (h0 : Frame L0 o0 b) (m0 : ∀ p ∈ ([.offices] : List Part), p ∈ L0) :
    Reply.within L0 o0 (officeSwapL l b) := by
  unfold officeSwapL
  repeat' first
    | with_reducible assumption
    | with_reducible exact fun p hp => m0 p (subs_of rfl p hp)
    | with_reducible apply reply_badParam
    | with_reducible apply within_done
    | with_reducible apply within_later
    | with_reducible apply within_interim
    | with_reducible apply within_whole
    | with_reducible apply within_parts
    | exact trivial
    | with_reducible apply frame_modOffice
    | with_reducible apply Frame.ite
    | (intro _ _ _)
    | split
    | dsimp only
    | exact Frame.trans h0 (fun p => by cases p <;> first | exact .inr rfl | exact .inl (m0 _ (by decide)))

theorem reply_courierPowerL {L0 : List Part} {o0 : Block} (portPass : Bool) (tapPass : Bool) (l : Letter) {b : Block} (h0 : Frame L0 o0 b) (m0 : ∀ p ∈ ([.ledger, .stop, .dbg, .mgmt, .mail, .fleet, .parcel, .post, .cores, .offices, .routers, .couriers] : List Part), p ∈ L0) :
    Reply.within L0 o0 (courierPowerL portPass tapPass l b) := by
  unfold courierPowerL
  repeat' first
    | with_reducible assumption
    | with_reducible exact fun p hp => m0 p (subs_of rfl p hp)
    | with_reducible apply reply_badParam
    | with_reducible apply within_done
    | with_reducible apply within_later
    | with_reducible apply within_interim
    | with_reducible apply within_whole
    | with_reducible apply within_parts
    | exact trivial
    | with_reducible apply frame_portStop
    | with_reducible apply frame_courierTested
    | with_reducible apply frame_setCourier
    | with_reducible apply Frame.ite
    | (intro _ _ _)
    | split
    | dsimp only
    | exact Frame.trans h0 (fun p => by cases p <;> first | exact .inr rfl | exact .inl (m0 _ (by decide)))

/-! ### LetterFleet -/

theorem reply_fleetRingsL {L0 : List Part} {o0 : Block} (l : Letter) {b : Block} (h0 : Frame L0 o0 b) (m0 : ∀ p ∈ ([.mgmt, .fleet] : List Part), p ∈ L0) :
    Reply.within L0 o0 (fleetRingsL l b) := by
  unfold fleetRingsL
  repeat' first
    | with_reducible assumption
    | with_reducible exact fun p hp => m0 p (subs_of rfl p hp)
    | with_reducible apply reply_badParam
    | with_reducible apply within_done
    | with_reducible apply within_later
    | with_reducible apply within_interim
    | with_reducible apply within_whole
    | with_reducible apply within_parts
    | exact trivial
    | with_reducible apply frame_modFleet
    | with_reducible apply frame_modMgmt
    | with_reducible apply Frame.ite
    | (intro _ _ _)
    | split
    | dsimp only
    | exact Frame.trans h0 (fun p => by cases p <;> first | exact .inr rfl | exact .inl (m0 _ (by decide)))

theorem reply_courierEnableL {L0 : List Part} {o0 : Block} (l : Letter) {b : Block} (h0 : Frame L0 o0 b) (m0 : ∀ p ∈ ([.ledger, .stop, .dbg, .mgmt, .mail, .fleet, .parcel, .post, .cores, .offices, .routers, .couriers] : List Part), p ∈ L0) :
    Reply.within L0 o0 (courierEnableL l b) := by
  unfold courierEnableL
  repeat' first
    | with_reducible assumption
    | with_reducible exact fun p hp => m0 p (subs_of rfl p hp)
    | with_reducible apply frame_crEnable
    | with_reducible apply within_done
    | with_reducible apply within_later
    | with_reducible apply within_interim
    | with_reducible apply within_whole
    | with_reducible apply within_parts
    | exact trivial
    | with_reducible apply Frame.ite
    | (intro _ _ _)
    | split
    | dsimp only
    | exact Frame.trans h0 (fun p => by cases p <;> first | exact .inr rfl | exact .inl (m0 _ (by decide)))

theorem reply_partnerQueryL {L0 : List Part} {o0 : Block} (l : Letter) {b : Block} (h0 : Frame L0 o0 b) (m0 : ∀ p ∈ ([] : List Part), p ∈ L0) :
    Reply.within L0 o0 (partnerQueryL l b) := by
  unfold partnerQueryL
  repeat' first
    | with_reducible assumption
    | with_reducible exact fun p hp => m0 p (subs_of rfl p hp)
    | with_reducible apply reply_badParam
    | with_reducible apply within_done
    | with_reducible apply within_later
    | with_reducible apply within_interim
    | with_reducible apply within_whole
    | with_reducible apply within_parts
    | exact trivial
    | with_reducible apply Frame.ite
    | (intro _ _ _)
    | split
    | dsimp only
    | exact Frame.trans h0 (fun p => by cases p <;> first | exact .inr rfl | exact .inl (m0 _ (by decide)))

theorem reply_parcelPolicyL {L0 : List Part} {o0 : Block} (l : Letter) {b : Block} (h0 : Frame L0 o0 b) (m0 : ∀ p ∈ ([.policy] : List Part), p ∈ L0) :
    Reply.within L0 o0 (parcelPolicyL l b) := by
  unfold parcelPolicyL
  repeat' first
    | with_reducible assumption
    | with_reducible exact fun p hp => m0 p (subs_of rfl p hp)
    | with_reducible apply reply_badParam
    | with_reducible apply within_done
    | with_reducible apply within_later
    | with_reducible apply within_interim
    | with_reducible apply within_whole
    | with_reducible apply within_parts
    | exact trivial
    | with_reducible apply frame_modPolicy
    | with_reducible apply Frame.ite
    | (intro _ _ _)
    | split
    | dsimp only
    | exact Frame.trans h0 (fun p => by cases p <;> first | exact .inr rfl | exact .inl (m0 _ (by decide)))

theorem reply_holderCapL {L0 : List Part} {o0 : Block} (l : Letter) {b : Block} (h0 : Frame L0 o0 b) (m0 : ∀ p ∈ ([.policy] : List Part), p ∈ L0) :
    Reply.within L0 o0 (holderCapL l b) := by
  unfold holderCapL
  repeat' first
    | with_reducible assumption
    | with_reducible exact fun p hp => m0 p (subs_of rfl p hp)
    | with_reducible apply frame_modPolicy
    | with_reducible apply within_done
    | with_reducible apply within_later
    | with_reducible apply within_interim
    | with_reducible apply within_whole
    | with_reducible apply within_parts
    | exact trivial
    | with_reducible apply Frame.ite
    | (intro _ _ _)
    | split
    | dsimp only
    | exact Frame.trans h0 (fun p => by cases p <;> first | exact .inr rfl | exact .inl (m0 _ (by decide)))

theorem reply_parcelReserveL {L0 : List Part} {o0 : Block} (l : Letter) {b : Block} (h0 : Frame L0 o0 b) (m0 : ∀ p ∈ ([.ledger, .free] : List Part), p ∈ L0) :
    Reply.within L0 o0 (parcelReserveL l b) := by
  unfold parcelReserveL
  repeat' first
    | with_reducible assumption
    | with_reducible exact fun p hp => m0 p (subs_of rfl p hp)
    | with_reducible apply frame_modLedger
    | with_reducible apply within_done
    | with_reducible apply within_later
    | with_reducible apply within_interim
    | with_reducible apply within_whole
    | with_reducible apply within_parts
    | exact trivial
    | with_reducible apply frame_freshWord
    | with_reducible apply Frame.ite
    | (intro _ _ _)
    | split
    | dsimp only
    | exact Frame.trans h0 (fun p => by cases p <;> first | exact .inr rfl | exact .inl (m0 _ (by decide)))

theorem reply_parcelCommitL {L0 : List Part} {o0 : Block} (l : Letter) {b : Block} (h0 : Frame L0 o0 b) (m0 : ∀ p ∈ ([.ledger] : List Part), p ∈ L0) :
    Reply.within L0 o0 (parcelCommitL l b) := by
  unfold parcelCommitL
  repeat' first
    | with_reducible assumption
    | with_reducible exact fun p hp => m0 p (subs_of rfl p hp)
    | with_reducible apply reply_badParam
    | with_reducible apply within_done
    | with_reducible apply within_later
    | with_reducible apply within_interim
    | with_reducible apply within_whole
    | with_reducible apply within_parts
    | exact trivial
    | with_reducible apply frame_modLedger
    | with_reducible apply Frame.ite
    | (intro _ _ _)
    | split
    | dsimp only
    | exact Frame.trans h0 (fun p => by cases p <;> first | exact .inr rfl | exact .inl (m0 _ (by decide)))

theorem frame_parcelCommit {L0 : List Part} {o0 : Block} (r : Nat) {b : Block} (h0 : Frame L0 o0 b) (m0 : ∀ p ∈ ([.ledger, .dbg, .mgmt, .mail, .fleet, .post] : List Part), p ∈ L0) :
    Frame L0 o0 (parcelCommit r b) := by
  unfold parcelCommit
  repeat' first
    | with_reducible assumption
    | with_reducible exact fun p hp => m0 p (subs_of rfl p hp)
    | with_reducible apply frame_letterRow
    | with_reducible apply reply_parcelCommitL
    | with_reducible apply frame_deadLetter
    | with_reducible apply Frame.ite
    | (intro _ _ _)
    | split
    | dsimp only
    | exact Frame.trans h0 (fun p => by cases p <;> first | exact .inr rfl | exact .inl (m0 _ (by decide)))

theorem reply_parcelQueryL {L0 : List Part} {o0 : Block} (l : Letter) {b : Block} (h0 : Frame L0 o0 b) (m0 : ∀ p ∈ ([] : List Part), p ∈ L0) :
    Reply.within L0 o0 (parcelQueryL l b) := by
  unfold parcelQueryL
  repeat' first
    | with_reducible assumption
    | with_reducible exact fun p hp => m0 p (subs_of rfl p hp)
    | with_reducible apply Frame.ite
    | with_reducible apply within_done
    | with_reducible apply within_later
    | with_reducible apply within_interim
    | with_reducible apply within_whole
    | with_reducible apply within_parts
    | exact trivial
    | (intro _ _ _)
    | split
    | dsimp only
    | exact Frame.trans h0 (fun p => by cases p <;> first | exact .inr rfl | exact .inl (m0 _ (by decide)))

theorem reply_parcelReleaseL {L0 : List Part} {o0 : Block} (l : Letter) {b : Block} (h0 : Frame L0 o0 b) (m0 : ∀ p ∈ ([.ledger, .parcel] : List Part), p ∈ L0) :
    Reply.within L0 o0 (parcelReleaseL l b) := by
  unfold parcelReleaseL
  repeat' first
    | with_reducible assumption
    | with_reducible exact fun p hp => m0 p (subs_of rfl p hp)
    | with_reducible apply Frame.forEach1
    | with_reducible apply within_done
    | with_reducible apply within_later
    | with_reducible apply within_interim
    | with_reducible apply within_whole
    | with_reducible apply within_parts
    | exact trivial
    | with_reducible apply frame_coolSpace
    | with_reducible apply frame_modLedger
    | with_reducible apply Frame.ite
    | (intro _ _ _)
    | split
    | dsimp only
    | exact Frame.trans h0 (fun p => by cases p <;> first | exact .inr rfl | exact .inl (m0 _ (by decide)))

theorem frame_applyRestore {L0 : List Part} {o0 : Block} (a : RestoreAnswers) (step : Nat) {b : Block} (h0 : Frame L0 o0 b) (m0 : ∀ p ∈ ([.job, .policy, .cores, .offices] : List Part), p ∈ L0) :
    Frame L0 o0 (applyRestore a step b) := by
  unfold applyRestore
  repeat' first
    | with_reducible assumption
    | with_reducible exact fun p hp => m0 p (subs_of rfl p hp)
    | with_reducible apply Frame.forEach1
    | with_reducible apply frame_modCore
    | with_reducible apply frame_modPolicy
    | with_reducible apply frame_modOffice
    | with_reducible apply frame_modJob
    | with_reducible apply Frame.ite
    | (intro _ _ _)
    | split
    | dsimp only
    | exact Frame.trans h0 (fun p => by cases p <;> first | exact .inr rfl | exact .inl (m0 _ (by decide)))

theorem reply_parcelRestoreL {L0 : List Part} {o0 : Block} (a : RestoreAnswers) (l : Letter) {b : Block} (h0 : Frame L0 o0 b) (m0 : ∀ p ∈ ([.dbg, .mgmt, .mail, .job, .policy, .cores, .offices] : List Part), p ∈ L0) :
    Reply.within L0 o0 (parcelRestoreL a l b) := by
  unfold parcelRestoreL
  repeat' first
    | with_reducible assumption
    | with_reducible exact fun p hp => m0 p (subs_of rfl p hp)
    | with_reducible apply frame_hoEvent
    | with_reducible apply within_done
    | with_reducible apply within_later
    | with_reducible apply within_interim
    | with_reducible apply within_whole
    | with_reducible apply within_parts
    | exact trivial
    | with_reducible apply frame_applyRestore
    | with_reducible apply Frame.ite
    | (intro _ _ _)
    | split
    | dsimp only
    | exact Frame.trans h0 (fun p => by cases p <;> first | exact .inr rfl | exact .inl (m0 _ (by decide)))

/-! ### LetterReset -/

theorem reply_warmResetL {L0 : List Part} {o0 : Block} (u0 : Letter) {b : Block} (h0 : Frame L0 o0 b) (m0 : ∀ p ∈ ([.outs, .pm, .svc, .ledger, .stop, .dbg, .mgmt, .mail, .job, .resets, .fleet, .parcel, .image, .post, .bm, .cores, .offices] : List Part), p ∈ L0) :
    Reply.within L0 o0 (warmResetL u0 b) := by
  unfold warmResetL
  repeat' first
    | with_reducible assumption
    | with_reducible exact fun p hp => m0 p (subs_of rfl p hp)
    | with_reducible apply frame_startWarm
    | with_reducible apply within_done
    | with_reducible apply within_later
    | with_reducible apply within_interim
    | with_reducible apply within_whole
    | with_reducible apply within_parts
    | exact trivial
    | with_reducible apply Frame.ite
    | (intro _ _ _)
    | split
    | dsimp only
    | exact Frame.trans h0 (fun p => by cases p <;> first | exact .inr rfl | exact .inl (m0 _ (by decide)))

theorem frame_coldReset {L0 : List Part} {o0 : Block} (r : Nat) {b : Block} (h0 : Frame L0 o0 b) (m0 : ∀ p ∈ ([.outs, .pm, .svc, .keys, .cfg, .ledger, .arch, .stop, .dbg, .mgmt, .mail, .job, .policy, .resets, .fleet, .parcel, .image, .post, .bm, .cores, .offices, .routers, .nodes, .couriers] : List Part), p ∈ L0) :
    Frame L0 o0 (coldReset r b) := by
  unfold coldReset
  refine Frame.ite (frame_startCold _ (frame_letterRow _ _ _ h0 (fun x c hc => hc) (fun p hp => m0 p (subs_of rfl p hp))) (fun p hp => m0 p (subs_of rfl p hp))) h0

theorem reply_resetPolicyL {L0 : List Part} {o0 : Block} (l : Letter) {b : Block} (h0 : Frame L0 o0 b) (m0 : ∀ p ∈ ([.policy, .resets] : List Part), p ∈ L0) :
    Reply.within L0 o0 (resetPolicyL l b) := by
  unfold resetPolicyL
  repeat' first
    | with_reducible assumption
    | with_reducible exact fun p hp => m0 p (subs_of rfl p hp)
    | with_reducible apply reply_badParam
    | with_reducible apply within_done
    | with_reducible apply within_later
    | with_reducible apply within_interim
    | with_reducible apply within_whole
    | with_reducible apply within_parts
    | exact trivial
    | with_reducible apply frame_modPolicy
    | with_reducible apply frame_modResets
    | with_reducible apply Frame.ite
    | (intro _ _ _)
    | split
    | dsimp only
    | exact Frame.trans h0 (fun p => by cases p <;> first | exact .inr rfl | exact .inl (m0 _ (by decide)))

theorem frame_clearImages {L0 : List Part} {o0 : Block} {b : Block} (h0 : Frame L0 o0 b) (m0 : ∀ p ∈ ([.ledger, .bm, .cores] : List Part), p ∈ L0) :
    Frame L0 o0 (clearImages b) := by
  unfold clearImages
  repeat' first
    | with_reducible assumption
    | with_reducible exact fun p hp => m0 p (subs_of rfl p hp)
    | with_reducible apply frame_allCores
    | with_reducible apply frame_bmChanged
    | with_reducible apply frame_modBm
    | with_reducible apply Frame.ite
    | (intro _ _ _)
    | split
    | dsimp only
    | exact Frame.trans h0 (fun p => by cases p <;> first | exact .inr rfl | exact .inl (m0 _ (by decide)))

theorem reply_imageLoadL {L0 : List Part} {o0 : Block} (data : Option (List Byte)) (l : Letter) {b : Block} (h0 : Frame L0 o0 b) (m0 : ∀ p ∈ ([.ledger, .image, .bm, .cores] : List Part), p ∈ L0) :
    Reply.within L0 o0 (imageLoadL data l b) := by
  unfold imageLoadL
  repeat' first
    | with_reducible assumption
    | with_reducible exact fun p hp => m0 p (subs_of rfl p hp)
    | with_reducible apply reply_badParam
    | with_reducible apply within_done
    | with_reducible apply within_later
    | with_reducible apply within_interim
    | with_reducible apply within_whole
    | with_reducible apply within_parts
    | exact trivial
    | with_reducible apply frame_clearImages
    | with_reducible apply frame_modImage
    | with_reducible apply Frame.ite
    | (intro _ _ _)
    | split
    | dsimp only
    | exact Frame.trans h0 (fun p => by cases p <;> first | exact .inr rfl | exact .inl (m0 _ (by decide)))

theorem frame_imageLoad {L0 : List Part} {o0 : Block} (r : Nat) (data : Option (List Byte)) {b : Block} (h0 : Frame L0 o0 b) (m0 : ∀ p ∈ ([.ledger, .dbg, .mgmt, .mail, .fleet, .image, .post, .bm, .cores] : List Part), p ∈ L0) :
    Frame L0 o0 (imageLoad r data b) := by
  unfold imageLoad
  repeat' first
    | with_reducible assumption
    | with_reducible exact fun p hp => m0 p (subs_of rfl p hp)
    | with_reducible apply frame_letterRow
    | with_reducible apply reply_outside
    | with_reducible apply reply_imageLoadL
    | with_reducible apply frame_imgCheck
    | with_reducible apply Frame.ite
    | (intro _ _ _)
    | split
    | dsimp only
    | exact Frame.trans h0 (fun p => by cases p <;> first | exact .inr rfl | exact .inl (m0 _ (by decide)))

theorem reply_imageStatusL {L0 : List Part} {o0 : Block} (u0 : Letter) {b : Block} (h0 : Frame L0 o0 b) (m0 : ∀ p ∈ ([] : List Part), p ∈ L0) :
    Reply.within L0 o0 (imageStatusL u0 b) := by
  unfold imageStatusL
  repeat' first
    | with_reducible assumption
    | with_reducible exact fun p hp => m0 p (subs_of rfl p hp)
    | with_reducible apply Frame.ite
    | with_reducible apply within_done
    | with_reducible apply within_later
    | with_reducible apply within_interim
    | with_reducible apply within_whole
    | with_reducible apply within_parts
    | exact trivial
    | (intro _ _ _)
    | split
    | dsimp only
    | exact Frame.trans h0 (fun p => by cases p <;> first | exact .inr rfl | exact .inl (m0 _ (by decide)))

theorem reply_imageAbortL {L0 : List Part} {o0 : Block} (u0 : Letter) {b : Block} (h0 : Frame L0 o0 b) (m0 : ∀ p ∈ ([.ledger, .mgmt, .mail, .image, .post] : List Part), p ∈ L0) :
    Reply.within L0 o0 (imageAbortL u0 b) := by
  unfold imageAbortL
  repeat' first
    | with_reducible assumption
    | with_reducible exact fun p hp => m0 p (subs_of rfl p hp)
    | with_reducible apply frame_finishOp
    | with_reducible apply within_done
    | with_reducible apply within_later
    | with_reducible apply within_interim
    | with_reducible apply within_whole
    | with_reducible apply within_parts
    | exact trivial
    | with_reducible apply frame_modImage
    | with_reducible apply Frame.ite
    | (intro _ _ _)
    | split
    | dsimp only
    | exact Frame.trans h0 (fun p => by cases p <;> first | exact .inr rfl | exact .inl (m0 _ (by decide)))

/-! ### DebugRows -/

theorem frame_selectCounter {L0 : List Part} {o0 : Block} (n : Nat) (code : Nat) (i : Nat) {b : Block} (h0 : Frame L0 o0 b) (m0 : ∀ p ∈ ([.cores] : List Part), p ∈ L0) :
    Frame L0 o0 (selectCounter n code i b) := by
  unfold selectCounter
  repeat' first
    | with_reducible assumption
    | with_reducible exact fun p hp => m0 p (subs_of rfl p hp)
    | with_reducible apply frame_modCore
    | with_reducible apply Frame.ite
    | (intro _ _ _)
    | split
    | dsimp only
    | exact Frame.trans h0 (fun p => by cases p <;> first | exact .inr rfl | exact .inl (m0 _ (by decide)))

theorem reply_counterSelectL {L0 : List Part} {o0 : Block} (l : Letter) {b : Block} (h0 : Frame L0 o0 b) (m0 : ∀ p ∈ ([.cores] : List Part), p ∈ L0) :
    Reply.within L0 o0 (counterSelectL l b) := by
  unfold counterSelectL
  repeat' first
    | with_reducible assumption
    | with_reducible exact fun p hp => m0 p (subs_of rfl p hp)
    | with_reducible apply reply_badParam
    | with_reducible apply within_done
    | with_reducible apply within_later
    | with_reducible apply within_interim
    | with_reducible apply within_whole
    | with_reducible apply within_parts
    | exact trivial
    | with_reducible apply Frame.forEach1
    | with_reducible apply frame_selectCounter
    | with_reducible apply Frame.ite
    | (intro _ _ _)
    | split
    | dsimp only
    | exact Frame.trans h0 (fun p => by cases p <;> first | exact .inr rfl | exact .inl (m0 _ (by decide)))

theorem reply_counterReadL {L0 : List Part} {o0 : Block} (l : Letter) {b : Block} (h0 : Frame L0 o0 b) (m0 : ∀ p ∈ ([] : List Part), p ∈ L0) :
    Reply.within L0 o0 (counterReadL l b) := by
  unfold counterReadL
  repeat' first
    | with_reducible assumption
    | with_reducible exact fun p hp => m0 p (subs_of rfl p hp)
    | with_reducible apply Frame.ite
    | with_reducible apply within_done
    | with_reducible apply within_later
    | with_reducible apply within_interim
    | with_reducible apply within_whole
    | with_reducible apply within_parts
    | exact trivial
    | (intro _ _ _)
    | split
    | dsimp only
    | exact Frame.trans h0 (fun p => by cases p <;> first | exact .inr rfl | exact .inl (m0 _ (by decide)))

theorem reply_traceControlL {L0 : List Part} {o0 : Block} (l : Letter) {b : Block} (h0 : Frame L0 o0 b) (m0 : ∀ p ∈ ([.dbg] : List Part), p ∈ L0) :
    Reply.within L0 o0 (traceControlL l b) := by
  unfold traceControlL
  repeat' first
    | with_reducible assumption
    | with_reducible exact fun p hp => m0 p (subs_of rfl p hp)
    | with_reducible apply reply_badParam
    | with_reducible apply within_done
    | with_reducible apply within_later
    | with_reducible apply within_interim
    | with_reducible apply within_whole
    | with_reducible apply within_parts
    | exact trivial
    | with_reducible apply frame_modDebug
    | with_reducible apply Frame.ite
    | (intro _ _ _)
    | split
    | dsimp only
    | exact Frame.trans h0 (fun p => by cases p <;> first | exact .inr rfl | exact .inl (m0 _ (by decide)))

theorem frame_traceTrigger {L0 : List Part} {o0 : Block} {b : Block} (h0 : Frame L0 o0 b) (m0 : ∀ p ∈ ([.outs, .pm, .ledger, .stop, .dbg, .mgmt, .mail, .job, .parcel, .post, .cores] : List Part), p ∈ L0) :
    Frame L0 o0 (traceTrigger b) := by
  unfold traceTrigger
  repeat' first
    | with_reducible assumption
    | with_reducible exact fun p hp => m0 p (subs_of rfl p hp)
    | with_reducible apply frame_hoEvent
    | with_reducible apply frame_modDebug
    | with_reducible apply frame_originate
    | with_reducible apply Frame.ite
    | (intro _ _ _)
    | split
    | dsimp only
    | exact Frame.trans h0 (fun p => by cases p <;> first | exact .inr rfl | exact .inl (m0 _ (by decide)))

theorem reply_exportL {L0 : List Part} {o0 : Block} (l : Letter) {b : Block} (h0 : Frame L0 o0 b) (m0 : ∀ p ∈ ([.dbg] : List Part), p ∈ L0) :
    Reply.within L0 o0 (exportL l b) := by
  unfold exportL
  repeat' first
    | with_reducible assumption
    | with_reducible exact fun p hp => m0 p (subs_of rfl p hp)
    | with_reducible apply reply_badParam
    | with_reducible apply within_done
    | with_reducible apply within_later
    | with_reducible apply within_interim
    | with_reducible apply within_whole
    | with_reducible apply within_parts
    | exact trivial
    | with_reducible apply frame_modDebug
    | with_reducible apply Frame.ite
    | (intro _ _ _)
    | split
    | dsimp only
    | exact Frame.trans h0 (fun p => by cases p <;> first | exact .inr rfl | exact .inl (m0 _ (by decide)))

theorem frame_exportRow {L0 : List Part} {o0 : Block} (r : Nat) {b : Block} (h0 : Frame L0 o0 b) (m0 : ∀ p ∈ ([.ledger, .dbg, .mgmt, .mail, .fleet, .post, .couriers] : List Part), p ∈ L0) :
    Frame L0 o0 (exportRow r b) := by
  unfold exportRow
  repeat' first
    | with_reducible assumption
    | with_reducible exact fun p hp => m0 p (subs_of rfl p hp)
    | with_reducible apply frame_letterRow
    | with_reducible apply reply_exportL
    | with_reducible apply frame_finishOp
    | with_reducible apply frame_hoEvent
    | with_reducible apply frame_modDebug
    | with_reducible apply frame_pumpExport
    | with_reducible apply Frame.ite
    | (intro _ _ _)
    | split
    | dsimp only
    | exact Frame.trans h0 (fun p => by cases p <;> first | exact .inr rfl | exact .inl (m0 _ (by decide)))

theorem frame_tapSelect {L0 : List Part} {o0 : Block} (code : Nat) {b : Block} (h0 : Frame L0 o0 b) (m0 : ∀ p ∈ ([.outs, .keys, .ledger, .dbg, .mgmt, .mail] : List Part), p ∈ L0) :
    Frame L0 o0 (tapSelect code b) := by
  unfold tapSelect
  repeat' first
    | with_reducible assumption
    | with_reducible exact fun p hp => m0 p (subs_of rfl p hp)
    | with_reducible apply frame_modDebug
    | with_reducible apply frame_zeroize
    | with_reducible apply Frame.ite
    | (intro _ _ _)
    | split
    | dsimp only
    | exact Frame.trans h0 (fun p => by cases p <;> first | exact .inr rfl | exact .inl (m0 _ (by decide)))

theorem frame_tapIdle {L0 : List Part} {o0 : Block} {b : Block} (h0 : Frame L0 o0 b) (m0 : ∀ p ∈ ([.ledger, .dbg, .mgmt, .mail] : List Part), p ∈ L0) :
    Frame L0 o0 (tapIdle b) := by
  unfold tapIdle
  repeat' first
    | with_reducible assumption
    | with_reducible exact fun p hp => m0 p (subs_of rfl p hp)
    | with_reducible apply frame_modDebug
    | with_reducible apply frame_hoEvent
    | with_reducible apply frame_modLedger
    | with_reducible apply Frame.ite
    | (intro _ _ _)
    | split
    | dsimp only
    | exact Frame.trans h0 (fun p => by cases p <;> first | exact .inr rfl | exact .inl (m0 _ (by decide)))

theorem frame_tapMove {L0 : List Part} {o0 : Block} (tdi : Bool) {b : Block} (h0 : Frame L0 o0 b) (m0 : ∀ p ∈ ([.dbg] : List Part), p ∈ L0) :
    Frame L0 o0 (tapMove tdi b) := by
  unfold tapMove
  repeat' first
    | with_reducible assumption
    | with_reducible exact fun p hp => m0 p (subs_of rfl p hp)
    | with_reducible apply frame_modDebug
    | with_reducible apply Frame.ite
    | (intro _ _ _)
    | split
    | dsimp only
    | exact Frame.trans h0 (fun p => by cases p <;> first | exact .inr rfl | exact .inl (m0 _ (by decide)))

theorem frame_tapEnter {L0 : List Part} {o0 : Block} (st : TapSt) {b : Block} (h0 : Frame L0 o0 b) (m0 : ∀ p ∈ ([.outs, .keys, .ledger, .dbg, .mgmt, .mail] : List Part), p ∈ L0) :
    Frame L0 o0 (tapEnter st b) := by
  unfold tapEnter
  repeat' first
    | with_reducible assumption
    | with_reducible exact fun p hp => m0 p (subs_of rfl p hp)
    | with_reducible apply frame_modDebug
    | with_reducible apply frame_tapSelect
    | with_reducible apply frame_tapIdle
    | with_reducible apply Frame.ite
    | (intro _ _ _)
    | split
    | dsimp only
    | exact Frame.trans h0 (fun p => by cases p <;> first | exact .inr rfl | exact .inl (m0 _ (by decide)))

theorem frame_tapClock {L0 : List Part} {o0 : Block} (tms : Bool) (tdi : Bool) {b : Block} (h0 : Frame L0 o0 b) (m0 : ∀ p ∈ ([.outs, .keys, .ledger, .dbg, .mgmt, .mail] : List Part), p ∈ L0) :
    Frame L0 o0 (tapClock tms tdi b) := by
  unfold tapClock
  repeat' first
    | with_reducible assumption
    | with_reducible exact fun p hp => m0 p (subs_of rfl p hp)
    | with_reducible apply frame_tapEnter
    | with_reducible apply frame_tapMove
    | with_reducible apply Frame.ite
    | (intro _ _ _)
    | split
    | dsimp only
    | exact Frame.trans h0 (fun p => by cases p <;> first | exact .inr rfl | exact .inl (m0 _ (by decide)))

theorem frame_tapScan {L0 : List Part} {o0 : Block} (l : List (Bool × Bool)) {b : Block} (h0 : Frame L0 o0 b) (m0 : ∀ p ∈ ([.outs, .keys, .ledger, .dbg, .mgmt, .mail] : List Part), p ∈ L0) :
    Frame L0 o0 (tapScan l b) := by
  unfold tapScan
  repeat' first
    | with_reducible assumption
    | with_reducible exact fun p hp => m0 p (subs_of rfl p hp)
    | with_reducible apply Frame.forEach1
    | with_reducible apply frame_tapClock
    | with_reducible apply Frame.ite
    | (intro _ _ _)
    | split
    | dsimp only
    | exact Frame.trans h0 (fun p => by cases p <;> first | exact .inr rfl | exact .inl (m0 _ (by decide)))

theorem frame_tapReset {L0 : List Part} {o0 : Block} {b : Block} (h0 : Frame L0 o0 b) (m0 : ∀ p ∈ ([.outs, .keys, .ledger, .dbg, .mgmt, .mail] : List Part), p ∈ L0) :
    Frame L0 o0 (tapReset b) := by
  unfold tapReset
  repeat' first
    | with_reducible assumption
    | with_reducible exact fun p hp => m0 p (subs_of rfl p hp)
    | with_reducible apply frame_tapEnter
    | with_reducible apply Frame.ite
    | (intro _ _ _)
    | split
    | dsimp only
    | exact Frame.trans h0 (fun p => by cases p <;> first | exact .inr rfl | exact .inl (m0 _ (by decide)))

theorem frame_ijtagSelect {L0 : List Part} {o0 : Block} {b : Block} (h0 : Frame L0 o0 b) (m0 : ∀ p ∈ ([.outs, .keys, .ledger, .dbg, .mgmt, .mail] : List Part), p ∈ L0) :
    Frame L0 o0 (ijtagSelect b) := by
  unfold ijtagSelect
  repeat' first
    | with_reducible assumption
    | with_reducible exact fun p hp => m0 p (subs_of rfl p hp)
    | with_reducible apply frame_tapScan
    | with_reducible apply Frame.ite
    | (intro _ _ _)
    | split
    | dsimp only
    | exact Frame.trans h0 (fun p => by cases p <;> first | exact .inr rfl | exact .inl (m0 _ (by decide)))

theorem frame_sibFail {L0 : List Part} {o0 : Block} (x : Sib) {b : Block} (h0 : Frame L0 o0 b) (m0 : ∀ p ∈ ([.outs, .pm, .svc, .ledger, .stop, .dbg, .mgmt, .mail, .job, .fleet, .parcel, .post, .bm, .cores, .offices, .routers, .nodes, .couriers] : List Part), p ∈ L0) :
    Frame L0 o0 (sibFail x b) := by
  unfold sibFail
  repeat' first
    | with_reducible assumption
    | with_reducible exact fun p hp => m0 p (subs_of rfl p hp)
    | with_reducible apply frame_enterSafe
    | with_reducible apply frame_disableDomain
    | with_reducible apply frame_failMember
    | with_reducible apply frame_routerLost
    | with_reducible apply frame_failLetterbox
    | with_reducible apply Frame.ite
    | (intro _ _ _)
    | split
    | dsimp only
    | exact Frame.trans h0 (fun p => by cases p <;> first | exact .inr rfl | exact .inl (m0 _ (by decide)))

theorem frame_sibOpen {L0 : List Part} {o0 : Block} (x : Sib) {b : Block} (h0 : Frame L0 o0 b) (m0 : ∀ p ∈ ([.outs, .pm, .svc, .ledger, .stop, .dbg, .mgmt, .mail, .job, .fleet, .parcel, .post, .bm, .cores, .offices, .routers, .nodes, .couriers] : List Part), p ∈ L0) :
    Frame L0 o0 (sibOpen x b) := by
  unfold sibOpen
  repeat' first
    | with_reducible assumption
    | with_reducible exact fun p hp => m0 p (subs_of rfl p hp)
    | with_reducible apply frame_sibFail
    | with_reducible apply frame_modDebug
    | with_reducible apply Frame.ite
    | (intro _ _ _)
    | split
    | dsimp only
    | exact Frame.trans h0 (fun p => by cases p <;> first | exact .inr rfl | exact .inl (m0 _ (by decide)))

theorem frame_coreCapUpdate {L0 : List Part} {o0 : Block} (i : CoreIdx) (load : Bool) (beat : BitVec 128) (last : Bool) {b : Block} (h0 : Frame L0 o0 b) (m0 : ∀ p ∈ ([.cores] : List Part), p ∈ L0) :
    Frame L0 o0 (coreCapUpdate i load beat last b) := by
  unfold coreCapUpdate
  repeat' first
    | with_reducible assumption
    | with_reducible exact fun p hp => m0 p (subs_of rfl p hp)
    | with_reducible apply frame_modCore
    | with_reducible apply Frame.ite
    | (intro _ _ _)
    | split
    | dsimp only
    | exact Frame.trans h0 (fun p => by cases p <;> first | exact .inr rfl | exact .inl (m0 _ (by decide)))

end Sys2Proof.Machine
end

