-- ==== Sys2Proof/Laws/Keep.lean ====
section
/-! SUPPORT. The parts that the shared operations keep, as rewriting lemmas. -/

namespace Sys2Proof.Machine

open Sys2Proof

theorem forEach_keeps_env {α : Type} (xs : List α) (f : α → Block → Block) (b : Block) (h : ∀ a c, (f a c).env = c.env) : (forEach xs f b).env = b.env := by
  induction xs generalizing b with
  | nil => rfl
  | cons x r ih => exact (ih (f x b)).trans (h x b)
theorem forEach_keeps_outs {α : Type} (xs : List α) (f : α → Block → Block) (b : Block) (h : ∀ a c, (f a c).outs = c.outs) : (forEach xs f b).outs = b.outs := by
  induction xs generalizing b with
  | nil => rfl
  | cons x r ih => exact (ih (f x b)).trans (h x b)
theorem forEach_keeps_pm {α : Type} (xs : List α) (f : α → Block → Block) (b : Block) (h : ∀ a c, (f a c).pm = c.pm) : (forEach xs f b).pm = b.pm := by
  induction xs generalizing b with
  | nil => rfl
  | cons x r ih => exact (ih (f x b)).trans (h x b)
theorem forEach_keeps_svc {α : Type} (xs : List α) (f : α → Block → Block) (b : Block) (h : ∀ a c, (f a c).svc = c.svc) : (forEach xs f b).svc = b.svc := by
  induction xs generalizing b with
  | nil => rfl
  | cons x r ih => exact (ih (f x b)).trans (h x b)
theorem forEach_keeps_keys {α : Type} (xs : List α) (f : α → Block → Block) (b : Block) (h : ∀ a c, (f a c).keys = c.keys) : (forEach xs f b).keys = b.keys := by
  induction xs generalizing b with
  | nil => rfl
  | cons x r ih => exact (ih (f x b)).trans (h x b)
theorem forEach_keeps_cfg {α : Type} (xs : List α) (f : α → Block → Block) (b : Block) (h : ∀ a c, (f a c).cfg = c.cfg) : (forEach xs f b).cfg = b.cfg := by
  induction xs generalizing b with
  | nil => rfl
  | cons x r ih => exact (ih (f x b)).trans (h x b)
theorem forEach_keeps_ledger {α : Type} (xs : List α) (f : α → Block → Block) (b : Block) (h : ∀ a c, (f a c).ledger = c.ledger) : (forEach xs f b).ledger = b.ledger := by
  induction xs generalizing b with
  | nil => rfl
  | cons x r ih => exact (ih (f x b)).trans (h x b)
theorem forEach_keeps_arch {α : Type} (xs : List α) (f : α → Block → Block) (b : Block) (h : ∀ a c, (f a c).arch = c.arch) : (forEach xs f b).arch = b.arch := by
  induction xs generalizing b with
  | nil => rfl
  | cons x r ih => exact (ih (f x b)).trans (h x b)
theorem forEach_keeps_stop {α : Type} (xs : List α) (f : α → Block → Block) (b : Block) (h : ∀ a c, (f a c).stop = c.stop) : (forEach xs f b).stop = b.stop := by
  induction xs generalizing b with
  | nil => rfl
  | cons x r ih => exact (ih (f x b)).trans (h x b)
theorem forEach_keeps_dbg {α : Type} (xs : List α) (f : α → Block → Block) (b : Block) (h : ∀ a c, (f a c).dbg = c.dbg) : (forEach xs f b).dbg = b.dbg := by
  induction xs generalizing b with
  | nil => rfl
  | cons x r ih => exact (ih (f x b)).trans (h x b)
theorem forEach_keeps_letters {α : Type} (xs : List α) (f : α → Block → Block) (b : Block) (h : ∀ a c, (f a c).letters = c.letters) : (forEach xs f b).letters = b.letters := by
  induction xs generalizing b with
  | nil => rfl
  | cons x r ih => exact (ih (f x b)).trans (h x b)
theorem forEach_keeps_free {α : Type} (xs : List α) (f : α → Block → Block) (b : Block) (h : ∀ a c, (f a c).free = c.free) : (forEach xs f b).free = b.free := by
  induction xs generalizing b with
  | nil => rfl
  | cons x r ih => exact (ih (f x b)).trans (h x b)
theorem forEach_keeps_mgmt {α : Type} (xs : List α) (f : α → Block → Block) (b : Block) (h : ∀ a c, (f a c).ho.mgmt = c.ho.mgmt) : (forEach xs f b).ho.mgmt = b.ho.mgmt := by
  induction xs generalizing b with
  | nil => rfl
  | cons x r ih => exact (ih (f x b)).trans (h x b)
theorem forEach_keeps_mail {α : Type} (xs : List α) (f : α → Block → Block) (b : Block) (h : ∀ a c, (f a c).ho.mail = c.ho.mail) : (forEach xs f b).ho.mail = b.ho.mail := by
  induction xs generalizing b with
  | nil => rfl
  | cons x r ih => exact (ih (f x b)).trans (h x b)
theorem forEach_keeps_job {α : Type} (xs : List α) (f : α → Block → Block) (b : Block) (h : ∀ a c, (f a c).ho.job = c.ho.job) : (forEach xs f b).ho.job = b.ho.job := by
  induction xs generalizing b with
  | nil => rfl
  | cons x r ih => exact (ih (f x b)).trans (h x b)
theorem forEach_keeps_policy {α : Type} (xs : List α) (f : α → Block → Block) (b : Block) (h : ∀ a c, (f a c).ho.policy = c.ho.policy) : (forEach xs f b).ho.policy = b.ho.policy := by
  induction xs generalizing b with
  | nil => rfl
  | cons x r ih => exact (ih (f x b)).trans (h x b)
theorem forEach_keeps_resets {α : Type} (xs : List α) (f : α → Block → Block) (b : Block) (h : ∀ a c, (f a c).ho.resets = c.ho.resets) : (forEach xs f b).ho.resets = b.ho.resets := by
  induction xs generalizing b with
  | nil => rfl
  | cons x r ih => exact (ih (f x b)).trans (h x b)
theorem forEach_keeps_fleet {α : Type} (xs : List α) (f : α → Block → Block) (b : Block) (h : ∀ a c, (f a c).ho.fleet = c.ho.fleet) : (forEach xs f b).ho.fleet = b.ho.fleet := by
  induction xs generalizing b with
  | nil => rfl
  | cons x r ih => exact (ih (f x b)).trans (h x b)
theorem forEach_keeps_parcel {α : Type} (xs : List α) (f : α → Block → Block) (b : Block) (h : ∀ a c, (f a c).ho.parcel = c.ho.parcel) : (forEach xs f b).ho.parcel = b.ho.parcel := by
  induction xs generalizing b with
  | nil => rfl
  | cons x r ih => exact (ih (f x b)).trans (h x b)
theorem forEach_keeps_image {α : Type} (xs : List α) (f : α → Block → Block) (b : Block) (h : ∀ a c, (f a c).ho.image = c.ho.image) : (forEach xs f b).ho.image = b.ho.image := by
  induction xs generalizing b with
  | nil => rfl
  | cons x r ih => exact (ih (f x b)).trans (h x b)
theorem forEach_keeps_post {α : Type} (xs : List α) (f : α → Block → Block) (b : Block) (h : ∀ a c, (f a c).ho.post = c.ho.post) : (forEach xs f b).ho.post = b.ho.post := by
  induction xs generalizing b with
  | nil => rfl
  | cons x r ih => exact (ih (f x b)).trans (h x b)
theorem forEach_keeps_bm {α : Type} (xs : List α) (f : α → Block → Block) (b : Block) (h : ∀ a c, (f a c).ho.bm = c.ho.bm) : (forEach xs f b).ho.bm = b.ho.bm := by
  induction xs generalizing b with
  | nil => rfl
  | cons x r ih => exact (ih (f x b)).trans (h x b)
theorem forEach_keeps_cores {α : Type} (xs : List α) (f : α → Block → Block) (b : Block) (h : ∀ a c, (f a c).units.cores = c.units.cores) : (forEach xs f b).units.cores = b.units.cores := by
  induction xs generalizing b with
  | nil => rfl
  | cons x r ih => exact (ih (f x b)).trans (h x b)
theorem forEach_keeps_offices {α : Type} (xs : List α) (f : α → Block → Block) (b : Block) (h : ∀ a c, (f a c).units.offices = c.units.offices) : (forEach xs f b).units.offices = b.units.offices := by
  induction xs generalizing b with
  | nil => rfl
  | cons x r ih => exact (ih (f x b)).trans (h x b)
theorem forEach_keeps_routers {α : Type} (xs : List α) (f : α → Block → Block) (b : Block) (h : ∀ a c, (f a c).units.routers = c.units.routers) : (forEach xs f b).units.routers = b.units.routers := by
  induction xs generalizing b with
  | nil => rfl
  | cons x r ih => exact (ih (f x b)).trans (h x b)
theorem forEach_keeps_nodes {α : Type} (xs : List α) (f : α → Block → Block) (b : Block) (h : ∀ a c, (f a c).units.nodes = c.units.nodes) : (forEach xs f b).units.nodes = b.units.nodes := by
  induction xs generalizing b with
  | nil => rfl
  | cons x r ih => exact (ih (f x b)).trans (h x b)
theorem forEach_keeps_couriers {α : Type} (xs : List α) (f : α → Block → Block) (b : Block) (h : ∀ a c, (f a c).units.couriers = c.units.couriers) : (forEach xs f b).units.couriers = b.units.couriers := by
  induction xs generalizing b with
  | nil => rfl
  | cons x r ih => exact (ih (f x b)).trans (h x b)
@[simp] theorem setIrqRing_keeps_env (r : Nat) (b : Block) : (setIrqRing r b).env = b.env := (frame_setIrqRing r (Frame.refl _ b) (fun _ h => h)).get .env (by decide)
@[simp] theorem setIrqRing_keeps_outs (r : Nat) (b : Block) : (setIrqRing r b).outs = b.outs := (frame_setIrqRing r (Frame.refl _ b) (fun _ h => h)).get .outs (by decide)
@[simp] theorem setIrqRing_keeps_pm (r : Nat) (b : Block) : (setIrqRing r b).pm = b.pm := (frame_setIrqRing r (Frame.refl _ b) (fun _ h => h)).get .pm (by decide)
@[simp] theorem setIrqRing_keeps_svc (r : Nat) (b : Block) : (setIrqRing r b).svc = b.svc := (frame_setIrqRing r (Frame.refl _ b) (fun _ h => h)).get .svc (by decide)
@[simp] theorem setIrqRing_keeps_keys (r : Nat) (b : Block) : (setIrqRing r b).keys = b.keys := (frame_setIrqRing r (Frame.refl _ b) (fun _ h => h)).get .keys (by decide)
@[simp] theorem setIrqRing_keeps_cfg (r : Nat) (b : Block) : (setIrqRing r b).cfg = b.cfg := (frame_setIrqRing r (Frame.refl _ b) (fun _ h => h)).get .cfg (by decide)
@[simp] theorem setIrqRing_keeps_ledger (r : Nat) (b : Block) : (setIrqRing r b).ledger = b.ledger := (frame_setIrqRing r (Frame.refl _ b) (fun _ h => h)).get .ledger (by decide)
@[simp] theorem setIrqRing_keeps_arch (r : Nat) (b : Block) : (setIrqRing r b).arch = b.arch := (frame_setIrqRing r (Frame.refl _ b) (fun _ h => h)).get .arch (by decide)
@[simp] theorem setIrqRing_keeps_stop (r : Nat) (b : Block) : (setIrqRing r b).stop = b.stop := (frame_setIrqRing r (Frame.refl _ b) (fun _ h => h)).get .stop (by decide)
@[simp] theorem setIrqRing_keeps_dbg (r : Nat) (b : Block) : (setIrqRing r b).dbg = b.dbg := (frame_setIrqRing r (Frame.refl _ b) (fun _ h => h)).get .dbg (by decide)
@[simp] theorem setIrqRing_keeps_letters (r : Nat) (b : Block) : (setIrqRing r b).letters = b.letters := (frame_setIrqRing r (Frame.refl _ b) (fun _ h => h)).get .letters (by decide)
@[simp] theorem setIrqRing_keeps_free (r : Nat) (b : Block) : (setIrqRing r b).free = b.free := (frame_setIrqRing r (Frame.refl _ b) (fun _ h => h)).get .free (by decide)
@[simp] theorem setIrqRing_keeps_mail (r : Nat) (b : Block) : (setIrqRing r b).ho.mail = b.ho.mail := (frame_setIrqRing r (Frame.refl _ b) (fun _ h => h)).get .mail (by decide)
@[simp] theorem setIrqRing_keeps_job (r : Nat) (b : Block) : (setIrqRing r b).ho.job = b.ho.job := (frame_setIrqRing r (Frame.refl _ b) (fun _ h => h)).get .job (by decide)
@[simp] theorem setIrqRing_keeps_policy (r : Nat) (b : Block) : (setIrqRing r b).ho.policy = b.ho.policy := (frame_setIrqRing r (Frame.refl _ b) (fun _ h => h)).get .policy (by decide)
@[simp] theorem setIrqRing_keeps_resets (r : Nat) (b : Block) : (setIrqRing r b).ho.resets = b.ho.resets := (frame_setIrqRing r (Frame.refl _ b) (fun _ h => h)).get .resets (by decide)
@[simp] theorem setIrqRing_keeps_fleet (r : Nat) (b : Block) : (setIrqRing r b).ho.fleet = b.ho.fleet := (frame_setIrqRing r (Frame.refl _ b) (fun _ h => h)).get .fleet (by decide)
@[simp] theorem setIrqRing_keeps_parcel (r : Nat) (b : Block) : (setIrqRing r b).ho.parcel = b.ho.parcel := (frame_setIrqRing r (Frame.refl _ b) (fun _ h => h)).get .parcel (by decide)
@[simp] theorem setIrqRing_keeps_image (r : Nat) (b : Block) : (setIrqRing r b).ho.image = b.ho.image := (frame_setIrqRing r (Frame.refl _ b) (fun _ h => h)).get .image (by decide)
@[simp] theorem setIrqRing_keeps_post (r : Nat) (b : Block) : (setIrqRing r b).ho.post = b.ho.post := (frame_setIrqRing r (Frame.refl _ b) (fun _ h => h)).get .post (by decide)
@[simp] theorem setIrqRing_keeps_bm (r : Nat) (b : Block) : (setIrqRing r b).ho.bm = b.ho.bm := (frame_setIrqRing r (Frame.refl _ b) (fun _ h => h)).get .bm (by decide)
@[simp] theorem setIrqRing_keeps_cores (r : Nat) (b : Block) : (setIrqRing r b).units.cores = b.units.cores := (frame_setIrqRing r (Frame.refl _ b) (fun _ h => h)).get .cores (by decide)
@[simp] theorem setIrqRing_keeps_offices (r : Nat) (b : Block) : (setIrqRing r b).units.offices = b.units.offices := (frame_setIrqRing r (Frame.refl _ b) (fun _ h => h)).get .offices (by decide)
@[simp] theorem setIrqRing_keeps_routers (r : Nat) (b : Block) : (setIrqRing r b).units.routers = b.units.routers := (frame_setIrqRing r (Frame.refl _ b) (fun _ h => h)).get .routers (by decide)
@[simp] theorem setIrqRing_keeps_nodes (r : Nat) (b : Block) : (setIrqRing r b).units.nodes = b.units.nodes := (frame_setIrqRing r (Frame.refl _ b) (fun _ h => h)).get .nodes (by decide)
@[simp] theorem setIrqRing_keeps_couriers (r : Nat) (b : Block) : (setIrqRing r b).units.couriers = b.units.couriers := (frame_setIrqRing r (Frame.refl _ b) (fun _ h => h)).get .couriers (by decide)
@[simp] theorem setIrqMisc_keeps_env (i : Nat) (b : Block) : (setIrqMisc i b).env = b.env := (frame_setIrqMisc i (Frame.refl _ b) (fun _ h => h)).get .env (by decide)
@[simp] theorem setIrqMisc_keeps_outs (i : Nat) (b : Block) : (setIrqMisc i b).outs = b.outs := (frame_setIrqMisc i (Frame.refl _ b) (fun _ h => h)).get .outs (by decide)
@[simp] theorem setIrqMisc_keeps_pm (i : Nat) (b : Block) : (setIrqMisc i b).pm = b.pm := (frame_setIrqMisc i (Frame.refl _ b) (fun _ h => h)).get .pm (by decide)
@[simp] theorem setIrqMisc_keeps_svc (i : Nat) (b : Block) : (setIrqMisc i b).svc = b.svc := (frame_setIrqMisc i (Frame.refl _ b) (fun _ h => h)).get .svc (by decide)
@[simp] theorem setIrqMisc_keeps_keys (i : Nat) (b : Block) : (setIrqMisc i b).keys = b.keys := (frame_setIrqMisc i (Frame.refl _ b) (fun _ h => h)).get .keys (by decide)
@[simp] theorem setIrqMisc_keeps_cfg (i : Nat) (b : Block) : (setIrqMisc i b).cfg = b.cfg := (frame_setIrqMisc i (Frame.refl _ b) (fun _ h => h)).get .cfg (by decide)
@[simp] theorem setIrqMisc_keeps_ledger (i : Nat) (b : Block) : (setIrqMisc i b).ledger = b.ledger := (frame_setIrqMisc i (Frame.refl _ b) (fun _ h => h)).get .ledger (by decide)
@[simp] theorem setIrqMisc_keeps_arch (i : Nat) (b : Block) : (setIrqMisc i b).arch = b.arch := (frame_setIrqMisc i (Frame.refl _ b) (fun _ h => h)).get .arch (by decide)
@[simp] theorem setIrqMisc_keeps_stop (i : Nat) (b : Block) : (setIrqMisc i b).stop = b.stop := (frame_setIrqMisc i (Frame.refl _ b) (fun _ h => h)).get .stop (by decide)
@[simp] theorem setIrqMisc_keeps_dbg (i : Nat) (b : Block) : (setIrqMisc i b).dbg = b.dbg := (frame_setIrqMisc i (Frame.refl _ b) (fun _ h => h)).get .dbg (by decide)
@[simp] theorem setIrqMisc_keeps_letters (i : Nat) (b : Block) : (setIrqMisc i b).letters = b.letters := (frame_setIrqMisc i (Frame.refl _ b) (fun _ h => h)).get .letters (by decide)
@[simp] theorem setIrqMisc_keeps_free (i : Nat) (b : Block) : (setIrqMisc i b).free = b.free := (frame_setIrqMisc i (Frame.refl _ b) (fun _ h => h)).get .free (by decide)
@[simp] theorem setIrqMisc_keeps_mail (i : Nat) (b : Block) : (setIrqMisc i b).ho.mail = b.ho.mail := (frame_setIrqMisc i (Frame.refl _ b) (fun _ h => h)).get .mail (by decide)
@[simp] theorem setIrqMisc_keeps_job (i : Nat) (b : Block) : (setIrqMisc i b).ho.job = b.ho.job := (frame_setIrqMisc i (Frame.refl _ b) (fun _ h => h)).get .job (by decide)
@[simp] theorem setIrqMisc_keeps_policy (i : Nat) (b : Block) : (setIrqMisc i b).ho.policy = b.ho.policy := (frame_setIrqMisc i (Frame.refl _ b) (fun _ h => h)).get .policy (by decide)
@[simp] theorem setIrqMisc_keeps_resets (i : Nat) (b : Block) : (setIrqMisc i b).ho.resets = b.ho.resets := (frame_setIrqMisc i (Frame.refl _ b) (fun _ h => h)).get .resets (by decide)
@[simp] theorem setIrqMisc_keeps_fleet (i : Nat) (b : Block) : (setIrqMisc i b).ho.fleet = b.ho.fleet := (frame_setIrqMisc i (Frame.refl _ b) (fun _ h => h)).get .fleet (by decide)
@[simp] theorem setIrqMisc_keeps_parcel (i : Nat) (b : Block) : (setIrqMisc i b).ho.parcel = b.ho.parcel := (frame_setIrqMisc i (Frame.refl _ b) (fun _ h => h)).get .parcel (by decide)
@[simp] theorem setIrqMisc_keeps_image (i : Nat) (b : Block) : (setIrqMisc i b).ho.image = b.ho.image := (frame_setIrqMisc i (Frame.refl _ b) (fun _ h => h)).get .image (by decide)
@[simp] theorem setIrqMisc_keeps_post (i : Nat) (b : Block) : (setIrqMisc i b).ho.post = b.ho.post := (frame_setIrqMisc i (Frame.refl _ b) (fun _ h => h)).get .post (by decide)
@[simp] theorem setIrqMisc_keeps_bm (i : Nat) (b : Block) : (setIrqMisc i b).ho.bm = b.ho.bm := (frame_setIrqMisc i (Frame.refl _ b) (fun _ h => h)).get .bm (by decide)
@[simp] theorem setIrqMisc_keeps_cores (i : Nat) (b : Block) : (setIrqMisc i b).units.cores = b.units.cores := (frame_setIrqMisc i (Frame.refl _ b) (fun _ h => h)).get .cores (by decide)
@[simp] theorem setIrqMisc_keeps_offices (i : Nat) (b : Block) : (setIrqMisc i b).units.offices = b.units.offices := (frame_setIrqMisc i (Frame.refl _ b) (fun _ h => h)).get .offices (by decide)
@[simp] theorem setIrqMisc_keeps_routers (i : Nat) (b : Block) : (setIrqMisc i b).units.routers = b.units.routers := (frame_setIrqMisc i (Frame.refl _ b) (fun _ h => h)).get .routers (by decide)
@[simp] theorem setIrqMisc_keeps_nodes (i : Nat) (b : Block) : (setIrqMisc i b).units.nodes = b.units.nodes := (frame_setIrqMisc i (Frame.refl _ b) (fun _ h => h)).get .nodes (by decide)
@[simp] theorem setIrqMisc_keeps_couriers (i : Nat) (b : Block) : (setIrqMisc i b).units.couriers = b.units.couriers := (frame_setIrqMisc i (Frame.refl _ b) (fun _ h => h)).get .couriers (by decide)
@[simp] theorem recordErr_keeps_env (offset : Nat) (cause : Nat) (b : Block) : (recordErr offset cause b).env = b.env := (frame_recordErr offset cause (Frame.refl _ b) (fun _ h => h)).get .env (by decide)
@[simp] theorem recordErr_keeps_outs (offset : Nat) (cause : Nat) (b : Block) : (recordErr offset cause b).outs = b.outs := (frame_recordErr offset cause (Frame.refl _ b) (fun _ h => h)).get .outs (by decide)
@[simp] theorem recordErr_keeps_pm (offset : Nat) (cause : Nat) (b : Block) : (recordErr offset cause b).pm = b.pm := (frame_recordErr offset cause (Frame.refl _ b) (fun _ h => h)).get .pm (by decide)
@[simp] theorem recordErr_keeps_svc (offset : Nat) (cause : Nat) (b : Block) : (recordErr offset cause b).svc = b.svc := (frame_recordErr offset cause (Frame.refl _ b) (fun _ h => h)).get .svc (by decide)
@[simp] theorem recordErr_keeps_keys (offset : Nat) (cause : Nat) (b : Block) : (recordErr offset cause b).keys = b.keys := (frame_recordErr offset cause (Frame.refl _ b) (fun _ h => h)).get .keys (by decide)
@[simp] theorem recordErr_keeps_cfg (offset : Nat) (cause : Nat) (b : Block) : (recordErr offset cause b).cfg = b.cfg := (frame_recordErr offset cause (Frame.refl _ b) (fun _ h => h)).get .cfg (by decide)
@[simp] theorem recordErr_keeps_ledger (offset : Nat) (cause : Nat) (b : Block) : (recordErr offset cause b).ledger = b.ledger := (frame_recordErr offset cause (Frame.refl _ b) (fun _ h => h)).get .ledger (by decide)
@[simp] theorem recordErr_keeps_arch (offset : Nat) (cause : Nat) (b : Block) : (recordErr offset cause b).arch = b.arch := (frame_recordErr offset cause (Frame.refl _ b) (fun _ h => h)).get .arch (by decide)
@[simp] theorem recordErr_keeps_stop (offset : Nat) (cause : Nat) (b : Block) : (recordErr offset cause b).stop = b.stop := (frame_recordErr offset cause (Frame.refl _ b) (fun _ h => h)).get .stop (by decide)
@[simp] theorem recordErr_keeps_dbg (offset : Nat) (cause : Nat) (b : Block) : (recordErr offset cause b).dbg = b.dbg := (frame_recordErr offset cause (Frame.refl _ b) (fun _ h => h)).get .dbg (by decide)
@[simp] theorem recordErr_keeps_letters (offset : Nat) (cause : Nat) (b : Block) : (recordErr offset cause b).letters = b.letters := (frame_recordErr offset cause (Frame.refl _ b) (fun _ h => h)).get .letters (by decide)
@[simp] theorem recordErr_keeps_free (offset : Nat) (cause : Nat) (b : Block) : (recordErr offset cause b).free = b.free := (frame_recordErr offset cause (Frame.refl _ b) (fun _ h => h)).get .free (by decide)
@[simp] theorem recordErr_keeps_mail (offset : Nat) (cause : Nat) (b : Block) : (recordErr offset cause b).ho.mail = b.ho.mail := (frame_recordErr offset cause (Frame.refl _ b) (fun _ h => h)).get .mail (by decide)
@[simp] theorem recordErr_keeps_job (offset : Nat) (cause : Nat) (b : Block) : (recordErr offset cause b).ho.job = b.ho.job := (frame_recordErr offset cause (Frame.refl _ b) (fun _ h => h)).get .job (by decide)
@[simp] theorem recordErr_keeps_policy (offset : Nat) (cause : Nat) (b : Block) : (recordErr offset cause b).ho.policy = b.ho.policy := (frame_recordErr offset cause (Frame.refl _ b) (fun _ h => h)).get .policy (by decide)
@[simp] theorem recordErr_keeps_resets (offset : Nat) (cause : Nat) (b : Block) : (recordErr offset cause b).ho.resets = b.ho.resets := (frame_recordErr offset cause (Frame.refl _ b) (fun _ h => h)).get .resets (by decide)
@[simp] theorem recordErr_keeps_fleet (offset : Nat) (cause : Nat) (b : Block) : (recordErr offset cause b).ho.fleet = b.ho.fleet := (frame_recordErr offset cause (Frame.refl _ b) (fun _ h => h)).get .fleet (by decide)
@[simp] theorem recordErr_keeps_parcel (offset : Nat) (cause : Nat) (b : Block) : (recordErr offset cause b).ho.parcel = b.ho.parcel := (frame_recordErr offset cause (Frame.refl _ b) (fun _ h => h)).get .parcel (by decide)
@[simp] theorem recordErr_keeps_image (offset : Nat) (cause : Nat) (b : Block) : (recordErr offset cause b).ho.image = b.ho.image := (frame_recordErr offset cause (Frame.refl _ b) (fun _ h => h)).get .image (by decide)
@[simp] theorem recordErr_keeps_post (offset : Nat) (cause : Nat) (b : Block) : (recordErr offset cause b).ho.post = b.ho.post := (frame_recordErr offset cause (Frame.refl _ b) (fun _ h => h)).get .post (by decide)
@[simp] theorem recordErr_keeps_bm (offset : Nat) (cause : Nat) (b : Block) : (recordErr offset cause b).ho.bm = b.ho.bm := (frame_recordErr offset cause (Frame.refl _ b) (fun _ h => h)).get .bm (by decide)
@[simp] theorem recordErr_keeps_cores (offset : Nat) (cause : Nat) (b : Block) : (recordErr offset cause b).units.cores = b.units.cores := (frame_recordErr offset cause (Frame.refl _ b) (fun _ h => h)).get .cores (by decide)
@[simp] theorem recordErr_keeps_offices (offset : Nat) (cause : Nat) (b : Block) : (recordErr offset cause b).units.offices = b.units.offices := (frame_recordErr offset cause (Frame.refl _ b) (fun _ h => h)).get .offices (by decide)
@[simp] theorem recordErr_keeps_routers (offset : Nat) (cause : Nat) (b : Block) : (recordErr offset cause b).units.routers = b.units.routers := (frame_recordErr offset cause (Frame.refl _ b) (fun _ h => h)).get .routers (by decide)
@[simp] theorem recordErr_keeps_nodes (offset : Nat) (cause : Nat) (b : Block) : (recordErr offset cause b).units.nodes = b.units.nodes := (frame_recordErr offset cause (Frame.refl _ b) (fun _ h => h)).get .nodes (by decide)
@[simp] theorem recordErr_keeps_couriers (offset : Nat) (cause : Nat) (b : Block) : (recordErr offset cause b).units.couriers = b.units.couriers := (frame_recordErr offset cause (Frame.refl _ b) (fun _ h => h)).get .couriers (by decide)
@[simp] theorem placeRecord_keeps_env (r : Nat) (rc : List Byte) (b : Block) : (placeRecord r rc b).env = b.env := (frame_placeRecord r rc (Frame.refl _ b) (fun _ h => h)).get .env (by decide)
@[simp] theorem placeRecord_keeps_outs (r : Nat) (rc : List Byte) (b : Block) : (placeRecord r rc b).outs = b.outs := (frame_placeRecord r rc (Frame.refl _ b) (fun _ h => h)).get .outs (by decide)
@[simp] theorem placeRecord_keeps_pm (r : Nat) (rc : List Byte) (b : Block) : (placeRecord r rc b).pm = b.pm := (frame_placeRecord r rc (Frame.refl _ b) (fun _ h => h)).get .pm (by decide)
@[simp] theorem placeRecord_keeps_svc (r : Nat) (rc : List Byte) (b : Block) : (placeRecord r rc b).svc = b.svc := (frame_placeRecord r rc (Frame.refl _ b) (fun _ h => h)).get .svc (by decide)
@[simp] theorem placeRecord_keeps_keys (r : Nat) (rc : List Byte) (b : Block) : (placeRecord r rc b).keys = b.keys := (frame_placeRecord r rc (Frame.refl _ b) (fun _ h => h)).get .keys (by decide)
@[simp] theorem placeRecord_keeps_cfg (r : Nat) (rc : List Byte) (b : Block) : (placeRecord r rc b).cfg = b.cfg := (frame_placeRecord r rc (Frame.refl _ b) (fun _ h => h)).get .cfg (by decide)
@[simp] theorem placeRecord_keeps_ledger (r : Nat) (rc : List Byte) (b : Block) : (placeRecord r rc b).ledger = b.ledger := (frame_placeRecord r rc (Frame.refl _ b) (fun _ h => h)).get .ledger (by decide)
@[simp] theorem placeRecord_keeps_arch (r : Nat) (rc : List Byte) (b : Block) : (placeRecord r rc b).arch = b.arch := (frame_placeRecord r rc (Frame.refl _ b) (fun _ h => h)).get .arch (by decide)
@[simp] theorem placeRecord_keeps_stop (r : Nat) (rc : List Byte) (b : Block) : (placeRecord r rc b).stop = b.stop := (frame_placeRecord r rc (Frame.refl _ b) (fun _ h => h)).get .stop (by decide)
@[simp] theorem placeRecord_keeps_dbg (r : Nat) (rc : List Byte) (b : Block) : (placeRecord r rc b).dbg = b.dbg := (frame_placeRecord r rc (Frame.refl _ b) (fun _ h => h)).get .dbg (by decide)
@[simp] theorem placeRecord_keeps_letters (r : Nat) (rc : List Byte) (b : Block) : (placeRecord r rc b).letters = b.letters := (frame_placeRecord r rc (Frame.refl _ b) (fun _ h => h)).get .letters (by decide)
@[simp] theorem placeRecord_keeps_free (r : Nat) (rc : List Byte) (b : Block) : (placeRecord r rc b).free = b.free := (frame_placeRecord r rc (Frame.refl _ b) (fun _ h => h)).get .free (by decide)
@[simp] theorem placeRecord_keeps_job (r : Nat) (rc : List Byte) (b : Block) : (placeRecord r rc b).ho.job = b.ho.job := (frame_placeRecord r rc (Frame.refl _ b) (fun _ h => h)).get .job (by decide)
@[simp] theorem placeRecord_keeps_policy (r : Nat) (rc : List Byte) (b : Block) : (placeRecord r rc b).ho.policy = b.ho.policy := (frame_placeRecord r rc (Frame.refl _ b) (fun _ h => h)).get .policy (by decide)
@[simp] theorem placeRecord_keeps_resets (r : Nat) (rc : List Byte) (b : Block) : (placeRecord r rc b).ho.resets = b.ho.resets := (frame_placeRecord r rc (Frame.refl _ b) (fun _ h => h)).get .resets (by decide)
@[simp] theorem placeRecord_keeps_fleet (r : Nat) (rc : List Byte) (b : Block) : (placeRecord r rc b).ho.fleet = b.ho.fleet := (frame_placeRecord r rc (Frame.refl _ b) (fun _ h => h)).get .fleet (by decide)
@[simp] theorem placeRecord_keeps_parcel (r : Nat) (rc : List Byte) (b : Block) : (placeRecord r rc b).ho.parcel = b.ho.parcel := (frame_placeRecord r rc (Frame.refl _ b) (fun _ h => h)).get .parcel (by decide)
@[simp] theorem placeRecord_keeps_image (r : Nat) (rc : List Byte) (b : Block) : (placeRecord r rc b).ho.image = b.ho.image := (frame_placeRecord r rc (Frame.refl _ b) (fun _ h => h)).get .image (by decide)
@[simp] theorem placeRecord_keeps_post (r : Nat) (rc : List Byte) (b : Block) : (placeRecord r rc b).ho.post = b.ho.post := (frame_placeRecord r rc (Frame.refl _ b) (fun _ h => h)).get .post (by decide)
@[simp] theorem placeRecord_keeps_bm (r : Nat) (rc : List Byte) (b : Block) : (placeRecord r rc b).ho.bm = b.ho.bm := (frame_placeRecord r rc (Frame.refl _ b) (fun _ h => h)).get .bm (by decide)
@[simp] theorem placeRecord_keeps_cores (r : Nat) (rc : List Byte) (b : Block) : (placeRecord r rc b).units.cores = b.units.cores := (frame_placeRecord r rc (Frame.refl _ b) (fun _ h => h)).get .cores (by decide)
@[simp] theorem placeRecord_keeps_offices (r : Nat) (rc : List Byte) (b : Block) : (placeRecord r rc b).units.offices = b.units.offices := (frame_placeRecord r rc (Frame.refl _ b) (fun _ h => h)).get .offices (by decide)
@[simp] theorem placeRecord_keeps_routers (r : Nat) (rc : List Byte) (b : Block) : (placeRecord r rc b).units.routers = b.units.routers := (frame_placeRecord r rc (Frame.refl _ b) (fun _ h => h)).get .routers (by decide)
@[simp] theorem placeRecord_keeps_nodes (r : Nat) (rc : List Byte) (b : Block) : (placeRecord r rc b).units.nodes = b.units.nodes := (frame_placeRecord r rc (Frame.refl _ b) (fun _ h => h)).get .nodes (by decide)
@[simp] theorem placeRecord_keeps_couriers (r : Nat) (rc : List Byte) (b : Block) : (placeRecord r rc b).units.couriers = b.units.couriers := (frame_placeRecord r rc (Frame.refl _ b) (fun _ h => h)).get .couriers (by decide)
@[simp] theorem hoEvent_keeps_env (code : Nat) (body : List Byte) (b : Block) : (hoEvent code body b).env = b.env := (frame_hoEvent code body (Frame.refl _ b) (fun _ h => h)).get .env (by decide)
@[simp] theorem hoEvent_keeps_outs (code : Nat) (body : List Byte) (b : Block) : (hoEvent code body b).outs = b.outs := (frame_hoEvent code body (Frame.refl _ b) (fun _ h => h)).get .outs (by decide)
@[simp] theorem hoEvent_keeps_pm (code : Nat) (body : List Byte) (b : Block) : (hoEvent code body b).pm = b.pm := (frame_hoEvent code body (Frame.refl _ b) (fun _ h => h)).get .pm (by decide)
@[simp] theorem hoEvent_keeps_svc (code : Nat) (body : List Byte) (b : Block) : (hoEvent code body b).svc = b.svc := (frame_hoEvent code body (Frame.refl _ b) (fun _ h => h)).get .svc (by decide)
@[simp] theorem hoEvent_keeps_keys (code : Nat) (body : List Byte) (b : Block) : (hoEvent code body b).keys = b.keys := (frame_hoEvent code body (Frame.refl _ b) (fun _ h => h)).get .keys (by decide)
@[simp] theorem hoEvent_keeps_cfg (code : Nat) (body : List Byte) (b : Block) : (hoEvent code body b).cfg = b.cfg := (frame_hoEvent code body (Frame.refl _ b) (fun _ h => h)).get .cfg (by decide)
@[simp] theorem hoEvent_keeps_ledger (code : Nat) (body : List Byte) (b : Block) : (hoEvent code body b).ledger = b.ledger := (frame_hoEvent code body (Frame.refl _ b) (fun _ h => h)).get .ledger (by decide)
@[simp] theorem hoEvent_keeps_arch (code : Nat) (body : List Byte) (b : Block) : (hoEvent code body b).arch = b.arch := (frame_hoEvent code body (Frame.refl _ b) (fun _ h => h)).get .arch (by decide)
@[simp] theorem hoEvent_keeps_stop (code : Nat) (body : List Byte) (b : Block) : (hoEvent code body b).stop = b.stop := (frame_hoEvent code body (Frame.refl _ b) (fun _ h => h)).get .stop (by decide)
@[simp] theorem hoEvent_keeps_letters (code : Nat) (body : List Byte) (b : Block) : (hoEvent code body b).letters = b.letters := (frame_hoEvent code body (Frame.refl _ b) (fun _ h => h)).get .letters (by decide)
@[simp] theorem hoEvent_keeps_free (code : Nat) (body : List Byte) (b : Block) : (hoEvent code body b).free = b.free := (frame_hoEvent code body (Frame.refl _ b) (fun _ h => h)).get .free (by decide)
@[simp] theorem hoEvent_keeps_job (code : Nat) (body : List Byte) (b : Block) : (hoEvent code body b).ho.job = b.ho.job := (frame_hoEvent code body (Frame.refl _ b) (fun _ h => h)).get .job (by decide)
@[simp] theorem hoEvent_keeps_policy (code : Nat) (body : List Byte) (b : Block) : (hoEvent code body b).ho.policy = b.ho.policy := (frame_hoEvent code body (Frame.refl _ b) (fun _ h => h)).get .policy (by decide)
@[simp] theorem hoEvent_keeps_resets (code : Nat) (body : List Byte) (b : Block) : (hoEvent code body b).ho.resets = b.ho.resets := (frame_hoEvent code body (Frame.refl _ b) (fun _ h => h)).get .resets (by decide)
@[simp] theorem hoEvent_keeps_fleet (code : Nat) (body : List Byte) (b : Block) : (hoEvent code body b).ho.fleet = b.ho.fleet := (frame_hoEvent code body (Frame.refl _ b) (fun _ h => h)).get .fleet (by decide)
@[simp] theorem hoEvent_keeps_parcel (code : Nat) (body : List Byte) (b : Block) : (hoEvent code body b).ho.parcel = b.ho.parcel := (frame_hoEvent code body (Frame.refl _ b) (fun _ h => h)).get .parcel (by decide)
@[simp] theorem hoEvent_keeps_image (code : Nat) (body : List Byte) (b : Block) : (hoEvent code body b).ho.image = b.ho.image := (frame_hoEvent code body (Frame.refl _ b) (fun _ h => h)).get .image (by decide)
@[simp] theorem hoEvent_keeps_post (code : Nat) (body : List Byte) (b : Block) : (hoEvent code body b).ho.post = b.ho.post := (frame_hoEvent code body (Frame.refl _ b) (fun _ h => h)).get .post (by decide)
@[simp] theorem hoEvent_keeps_bm (code : Nat) (body : List Byte) (b : Block) : (hoEvent code body b).ho.bm = b.ho.bm := (frame_hoEvent code body (Frame.refl _ b) (fun _ h => h)).get .bm (by decide)
@[simp] theorem hoEvent_keeps_cores (code : Nat) (body : List Byte) (b : Block) : (hoEvent code body b).units.cores = b.units.cores := (frame_hoEvent code body (Frame.refl _ b) (fun _ h => h)).get .cores (by decide)
@[simp] theorem hoEvent_keeps_offices (code : Nat) (body : List Byte) (b : Block) : (hoEvent code body b).units.offices = b.units.offices := (frame_hoEvent code body (Frame.refl _ b) (fun _ h => h)).get .offices (by decide)
@[simp] theorem hoEvent_keeps_routers (code : Nat) (body : List Byte) (b : Block) : (hoEvent code body b).units.routers = b.units.routers := (frame_hoEvent code body (Frame.refl _ b) (fun _ h => h)).get .routers (by decide)
@[simp] theorem hoEvent_keeps_nodes (code : Nat) (body : List Byte) (b : Block) : (hoEvent code body b).units.nodes = b.units.nodes := (frame_hoEvent code body (Frame.refl _ b) (fun _ h => h)).get .nodes (by decide)
@[simp] theorem hoEvent_keeps_couriers (code : Nat) (body : List Byte) (b : Block) : (hoEvent code body b).units.couriers = b.units.couriers := (frame_hoEvent code body (Frame.refl _ b) (fun _ h => h)).get .couriers (by decide)
@[simp] theorem postEvent_keeps_env (code : Nat) (unit : Nat) (body : List Byte) (b : Block) : (postEvent code unit body b).env = b.env := (frame_postEvent code unit body (Frame.refl _ b) (fun _ h => h)).get .env (by decide)
@[simp] theorem postEvent_keeps_outs (code : Nat) (unit : Nat) (body : List Byte) (b : Block) : (postEvent code unit body b).outs = b.outs := (frame_postEvent code unit body (Frame.refl _ b) (fun _ h => h)).get .outs (by decide)
@[simp] theorem postEvent_keeps_pm (code : Nat) (unit : Nat) (body : List Byte) (b : Block) : (postEvent code unit body b).pm = b.pm := (frame_postEvent code unit body (Frame.refl _ b) (fun _ h => h)).get .pm (by decide)
@[simp] theorem postEvent_keeps_svc (code : Nat) (unit : Nat) (body : List Byte) (b : Block) : (postEvent code unit body b).svc = b.svc := (frame_postEvent code unit body (Frame.refl _ b) (fun _ h => h)).get .svc (by decide)
@[simp] theorem postEvent_keeps_keys (code : Nat) (unit : Nat) (body : List Byte) (b : Block) : (postEvent code unit body b).keys = b.keys := (frame_postEvent code unit body (Frame.refl _ b) (fun _ h => h)).get .keys (by decide)
@[simp] theorem postEvent_keeps_cfg (code : Nat) (unit : Nat) (body : List Byte) (b : Block) : (postEvent code unit body b).cfg = b.cfg := (frame_postEvent code unit body (Frame.refl _ b) (fun _ h => h)).get .cfg (by decide)
@[simp] theorem postEvent_keeps_ledger (code : Nat) (unit : Nat) (body : List Byte) (b : Block) : (postEvent code unit body b).ledger = b.ledger := (frame_postEvent code unit body (Frame.refl _ b) (fun _ h => h)).get .ledger (by decide)
@[simp] theorem postEvent_keeps_arch (code : Nat) (unit : Nat) (body : List Byte) (b : Block) : (postEvent code unit body b).arch = b.arch := (frame_postEvent code unit body (Frame.refl _ b) (fun _ h => h)).get .arch (by decide)
@[simp] theorem postEvent_keeps_stop (code : Nat) (unit : Nat) (body : List Byte) (b : Block) : (postEvent code unit body b).stop = b.stop := (frame_postEvent code unit body (Frame.refl _ b) (fun _ h => h)).get .stop (by decide)
@[simp] theorem postEvent_keeps_letters (code : Nat) (unit : Nat) (body : List Byte) (b : Block) : (postEvent code unit body b).letters = b.letters := (frame_postEvent code unit body (Frame.refl _ b) (fun _ h => h)).get .letters (by decide)
@[simp] theorem postEvent_keeps_free (code : Nat) (unit : Nat) (body : List Byte) (b : Block) : (postEvent code unit body b).free = b.free := (frame_postEvent code unit body (Frame.refl _ b) (fun _ h => h)).get .free (by decide)
@[simp] theorem postEvent_keeps_job (code : Nat) (unit : Nat) (body : List Byte) (b : Block) : (postEvent code unit body b).ho.job = b.ho.job := (frame_postEvent code unit body (Frame.refl _ b) (fun _ h => h)).get .job (by decide)
@[simp] theorem postEvent_keeps_policy (code : Nat) (unit : Nat) (body : List Byte) (b : Block) : (postEvent code unit body b).ho.policy = b.ho.policy := (frame_postEvent code unit body (Frame.refl _ b) (fun _ h => h)).get .policy (by decide)
@[simp] theorem postEvent_keeps_resets (code : Nat) (unit : Nat) (body : List Byte) (b : Block) : (postEvent code unit body b).ho.resets = b.ho.resets := (frame_postEvent code unit body (Frame.refl _ b) (fun _ h => h)).get .resets (by decide)
@[simp] theorem postEvent_keeps_fleet (code : Nat) (unit : Nat) (body : List Byte) (b : Block) : (postEvent code unit body b).ho.fleet = b.ho.fleet := (frame_postEvent code unit body (Frame.refl _ b) (fun _ h => h)).get .fleet (by decide)
@[simp] theorem postEvent_keeps_parcel (code : Nat) (unit : Nat) (body : List Byte) (b : Block) : (postEvent code unit body b).ho.parcel = b.ho.parcel := (frame_postEvent code unit body (Frame.refl _ b) (fun _ h => h)).get .parcel (by decide)
@[simp] theorem postEvent_keeps_image (code : Nat) (unit : Nat) (body : List Byte) (b : Block) : (postEvent code unit body b).ho.image = b.ho.image := (frame_postEvent code unit body (Frame.refl _ b) (fun _ h => h)).get .image (by decide)
@[simp] theorem postEvent_keeps_post (code : Nat) (unit : Nat) (body : List Byte) (b : Block) : (postEvent code unit body b).ho.post = b.ho.post := (frame_postEvent code unit body (Frame.refl _ b) (fun _ h => h)).get .post (by decide)
@[simp] theorem postEvent_keeps_bm (code : Nat) (unit : Nat) (body : List Byte) (b : Block) : (postEvent code unit body b).ho.bm = b.ho.bm := (frame_postEvent code unit body (Frame.refl _ b) (fun _ h => h)).get .bm (by decide)
@[simp] theorem postEvent_keeps_cores (code : Nat) (unit : Nat) (body : List Byte) (b : Block) : (postEvent code unit body b).units.cores = b.units.cores := (frame_postEvent code unit body (Frame.refl _ b) (fun _ h => h)).get .cores (by decide)
@[simp] theorem postEvent_keeps_offices (code : Nat) (unit : Nat) (body : List Byte) (b : Block) : (postEvent code unit body b).units.offices = b.units.offices := (frame_postEvent code unit body (Frame.refl _ b) (fun _ h => h)).get .offices (by decide)
@[simp] theorem postEvent_keeps_routers (code : Nat) (unit : Nat) (body : List Byte) (b : Block) : (postEvent code unit body b).units.routers = b.units.routers := (frame_postEvent code unit body (Frame.refl _ b) (fun _ h => h)).get .routers (by decide)
@[simp] theorem postEvent_keeps_nodes (code : Nat) (unit : Nat) (body : List Byte) (b : Block) : (postEvent code unit body b).units.nodes = b.units.nodes := (frame_postEvent code unit body (Frame.refl _ b) (fun _ h => h)).get .nodes (by decide)
@[simp] theorem postEvent_keeps_couriers (code : Nat) (unit : Nat) (body : List Byte) (b : Block) : (postEvent code unit body b).units.couriers = b.units.couriers := (frame_postEvent code unit body (Frame.refl _ b) (fun _ h => h)).get .couriers (by decide)
@[simp] theorem postEventN_keeps_env (code : Nat) (pm : Nat) (unit : Nat) (occ : Nat) (body : List Byte) (b : Block) : (postEventN code pm unit occ body b).env = b.env := (frame_postEventN code pm unit occ body (Frame.refl _ b) (fun _ h => h)).get .env (by decide)
@[simp] theorem postEventN_keeps_outs (code : Nat) (pm : Nat) (unit : Nat) (occ : Nat) (body : List Byte) (b : Block) : (postEventN code pm unit occ body b).outs = b.outs := (frame_postEventN code pm unit occ body (Frame.refl _ b) (fun _ h => h)).get .outs (by decide)
@[simp] theorem postEventN_keeps_pm (code : Nat) (pm : Nat) (unit : Nat) (occ : Nat) (body : List Byte) (b : Block) : (postEventN code pm unit occ body b).pm = b.pm := (frame_postEventN code pm unit occ body (Frame.refl _ b) (fun _ h => h)).get .pm (by decide)
@[simp] theorem postEventN_keeps_svc (code : Nat) (pm : Nat) (unit : Nat) (occ : Nat) (body : List Byte) (b : Block) : (postEventN code pm unit occ body b).svc = b.svc := (frame_postEventN code pm unit occ body (Frame.refl _ b) (fun _ h => h)).get .svc (by decide)
@[simp] theorem postEventN_keeps_keys (code : Nat) (pm : Nat) (unit : Nat) (occ : Nat) (body : List Byte) (b : Block) : (postEventN code pm unit occ body b).keys = b.keys := (frame_postEventN code pm unit occ body (Frame.refl _ b) (fun _ h => h)).get .keys (by decide)
@[simp] theorem postEventN_keeps_cfg (code : Nat) (pm : Nat) (unit : Nat) (occ : Nat) (body : List Byte) (b : Block) : (postEventN code pm unit occ body b).cfg = b.cfg := (frame_postEventN code pm unit occ body (Frame.refl _ b) (fun _ h => h)).get .cfg (by decide)
@[simp] theorem postEventN_keeps_ledger (code : Nat) (pm : Nat) (unit : Nat) (occ : Nat) (body : List Byte) (b : Block) : (postEventN code pm unit occ body b).ledger = b.ledger := (frame_postEventN code pm unit occ body (Frame.refl _ b) (fun _ h => h)).get .ledger (by decide)
@[simp] theorem postEventN_keeps_arch (code : Nat) (pm : Nat) (unit : Nat) (occ : Nat) (body : List Byte) (b : Block) : (postEventN code pm unit occ body b).arch = b.arch := (frame_postEventN code pm unit occ body (Frame.refl _ b) (fun _ h => h)).get .arch (by decide)
@[simp] theorem postEventN_keeps_stop (code : Nat) (pm : Nat) (unit : Nat) (occ : Nat) (body : List Byte) (b : Block) : (postEventN code pm unit occ body b).stop = b.stop := (frame_postEventN code pm unit occ body (Frame.refl _ b) (fun _ h => h)).get .stop (by decide)
@[simp] theorem postEventN_keeps_letters (code : Nat) (pm : Nat) (unit : Nat) (occ : Nat) (body : List Byte) (b : Block) : (postEventN code pm unit occ body b).letters = b.letters := (frame_postEventN code pm unit occ body (Frame.refl _ b) (fun _ h => h)).get .letters (by decide)
@[simp] theorem postEventN_keeps_free (code : Nat) (pm : Nat) (unit : Nat) (occ : Nat) (body : List Byte) (b : Block) : (postEventN code pm unit occ body b).free = b.free := (frame_postEventN code pm unit occ body (Frame.refl _ b) (fun _ h => h)).get .free (by decide)
@[simp] theorem postEventN_keeps_job (code : Nat) (pm : Nat) (unit : Nat) (occ : Nat) (body : List Byte) (b : Block) : (postEventN code pm unit occ body b).ho.job = b.ho.job := (frame_postEventN code pm unit occ body (Frame.refl _ b) (fun _ h => h)).get .job (by decide)
@[simp] theorem postEventN_keeps_policy (code : Nat) (pm : Nat) (unit : Nat) (occ : Nat) (body : List Byte) (b : Block) : (postEventN code pm unit occ body b).ho.policy = b.ho.policy := (frame_postEventN code pm unit occ body (Frame.refl _ b) (fun _ h => h)).get .policy (by decide)
@[simp] theorem postEventN_keeps_resets (code : Nat) (pm : Nat) (unit : Nat) (occ : Nat) (body : List Byte) (b : Block) : (postEventN code pm unit occ body b).ho.resets = b.ho.resets := (frame_postEventN code pm unit occ body (Frame.refl _ b) (fun _ h => h)).get .resets (by decide)
@[simp] theorem postEventN_keeps_fleet (code : Nat) (pm : Nat) (unit : Nat) (occ : Nat) (body : List Byte) (b : Block) : (postEventN code pm unit occ body b).ho.fleet = b.ho.fleet := (frame_postEventN code pm unit occ body (Frame.refl _ b) (fun _ h => h)).get .fleet (by decide)
@[simp] theorem postEventN_keeps_parcel (code : Nat) (pm : Nat) (unit : Nat) (occ : Nat) (body : List Byte) (b : Block) : (postEventN code pm unit occ body b).ho.parcel = b.ho.parcel := (frame_postEventN code pm unit occ body (Frame.refl _ b) (fun _ h => h)).get .parcel (by decide)
@[simp] theorem postEventN_keeps_image (code : Nat) (pm : Nat) (unit : Nat) (occ : Nat) (body : List Byte) (b : Block) : (postEventN code pm unit occ body b).ho.image = b.ho.image := (frame_postEventN code pm unit occ body (Frame.refl _ b) (fun _ h => h)).get .image (by decide)
@[simp] theorem postEventN_keeps_post (code : Nat) (pm : Nat) (unit : Nat) (occ : Nat) (body : List Byte) (b : Block) : (postEventN code pm unit occ body b).ho.post = b.ho.post := (frame_postEventN code pm unit occ body (Frame.refl _ b) (fun _ h => h)).get .post (by decide)
@[simp] theorem postEventN_keeps_bm (code : Nat) (pm : Nat) (unit : Nat) (occ : Nat) (body : List Byte) (b : Block) : (postEventN code pm unit occ body b).ho.bm = b.ho.bm := (frame_postEventN code pm unit occ body (Frame.refl _ b) (fun _ h => h)).get .bm (by decide)
@[simp] theorem postEventN_keeps_cores (code : Nat) (pm : Nat) (unit : Nat) (occ : Nat) (body : List Byte) (b : Block) : (postEventN code pm unit occ body b).units.cores = b.units.cores := (frame_postEventN code pm unit occ body (Frame.refl _ b) (fun _ h => h)).get .cores (by decide)
@[simp] theorem postEventN_keeps_offices (code : Nat) (pm : Nat) (unit : Nat) (occ : Nat) (body : List Byte) (b : Block) : (postEventN code pm unit occ body b).units.offices = b.units.offices := (frame_postEventN code pm unit occ body (Frame.refl _ b) (fun _ h => h)).get .offices (by decide)
@[simp] theorem postEventN_keeps_routers (code : Nat) (pm : Nat) (unit : Nat) (occ : Nat) (body : List Byte) (b : Block) : (postEventN code pm unit occ body b).units.routers = b.units.routers := (frame_postEventN code pm unit occ body (Frame.refl _ b) (fun _ h => h)).get .routers (by decide)
@[simp] theorem postEventN_keeps_nodes (code : Nat) (pm : Nat) (unit : Nat) (occ : Nat) (body : List Byte) (b : Block) : (postEventN code pm unit occ body b).units.nodes = b.units.nodes := (frame_postEventN code pm unit occ body (Frame.refl _ b) (fun _ h => h)).get .nodes (by decide)
@[simp] theorem postEventN_keeps_couriers (code : Nat) (pm : Nat) (unit : Nat) (occ : Nat) (body : List Byte) (b : Block) : (postEventN code pm unit occ body b).units.couriers = b.units.couriers := (frame_postEventN code pm unit occ body (Frame.refl _ b) (fun _ h => h)).get .couriers (by decide)
@[simp] theorem fileEvent_keeps_env (r : Nat) (code : Nat) (unit : Nat) (body : List Byte) (b : Block) : (fileEvent r code unit body b).env = b.env := (frame_fileEvent r code unit body (Frame.refl _ b) (fun _ h => h)).get .env (by decide)
@[simp] theorem fileEvent_keeps_outs (r : Nat) (code : Nat) (unit : Nat) (body : List Byte) (b : Block) : (fileEvent r code unit body b).outs = b.outs := (frame_fileEvent r code unit body (Frame.refl _ b) (fun _ h => h)).get .outs (by decide)
@[simp] theorem fileEvent_keeps_pm (r : Nat) (code : Nat) (unit : Nat) (body : List Byte) (b : Block) : (fileEvent r code unit body b).pm = b.pm := (frame_fileEvent r code unit body (Frame.refl _ b) (fun _ h => h)).get .pm (by decide)
@[simp] theorem fileEvent_keeps_svc (r : Nat) (code : Nat) (unit : Nat) (body : List Byte) (b : Block) : (fileEvent r code unit body b).svc = b.svc := (frame_fileEvent r code unit body (Frame.refl _ b) (fun _ h => h)).get .svc (by decide)
@[simp] theorem fileEvent_keeps_keys (r : Nat) (code : Nat) (unit : Nat) (body : List Byte) (b : Block) : (fileEvent r code unit body b).keys = b.keys := (frame_fileEvent r code unit body (Frame.refl _ b) (fun _ h => h)).get .keys (by decide)
@[simp] theorem fileEvent_keeps_cfg (r : Nat) (code : Nat) (unit : Nat) (body : List Byte) (b : Block) : (fileEvent r code unit body b).cfg = b.cfg := (frame_fileEvent r code unit body (Frame.refl _ b) (fun _ h => h)).get .cfg (by decide)
@[simp] theorem fileEvent_keeps_ledger (r : Nat) (code : Nat) (unit : Nat) (body : List Byte) (b : Block) : (fileEvent r code unit body b).ledger = b.ledger := (frame_fileEvent r code unit body (Frame.refl _ b) (fun _ h => h)).get .ledger (by decide)
@[simp] theorem fileEvent_keeps_arch (r : Nat) (code : Nat) (unit : Nat) (body : List Byte) (b : Block) : (fileEvent r code unit body b).arch = b.arch := (frame_fileEvent r code unit body (Frame.refl _ b) (fun _ h => h)).get .arch (by decide)
@[simp] theorem fileEvent_keeps_stop (r : Nat) (code : Nat) (unit : Nat) (body : List Byte) (b : Block) : (fileEvent r code unit body b).stop = b.stop := (frame_fileEvent r code unit body (Frame.refl _ b) (fun _ h => h)).get .stop (by decide)
@[simp] theorem fileEvent_keeps_dbg (r : Nat) (code : Nat) (unit : Nat) (body : List Byte) (b : Block) : (fileEvent r code unit body b).dbg = b.dbg := (frame_fileEvent r code unit body (Frame.refl _ b) (fun _ h => h)).get .dbg (by decide)
@[simp] theorem fileEvent_keeps_letters (r : Nat) (code : Nat) (unit : Nat) (body : List Byte) (b : Block) : (fileEvent r code unit body b).letters = b.letters := (frame_fileEvent r code unit body (Frame.refl _ b) (fun _ h => h)).get .letters (by decide)
@[simp] theorem fileEvent_keeps_free (r : Nat) (code : Nat) (unit : Nat) (body : List Byte) (b : Block) : (fileEvent r code unit body b).free = b.free := (frame_fileEvent r code unit body (Frame.refl _ b) (fun _ h => h)).get .free (by decide)
@[simp] theorem fileEvent_keeps_mgmt (r : Nat) (code : Nat) (unit : Nat) (body : List Byte) (b : Block) : (fileEvent r code unit body b).ho.mgmt = b.ho.mgmt := (frame_fileEvent r code unit body (Frame.refl _ b) (fun _ h => h)).get .mgmt (by decide)
@[simp] theorem fileEvent_keeps_mail (r : Nat) (code : Nat) (unit : Nat) (body : List Byte) (b : Block) : (fileEvent r code unit body b).ho.mail = b.ho.mail := (frame_fileEvent r code unit body (Frame.refl _ b) (fun _ h => h)).get .mail (by decide)
@[simp] theorem fileEvent_keeps_job (r : Nat) (code : Nat) (unit : Nat) (body : List Byte) (b : Block) : (fileEvent r code unit body b).ho.job = b.ho.job := (frame_fileEvent r code unit body (Frame.refl _ b) (fun _ h => h)).get .job (by decide)
@[simp] theorem fileEvent_keeps_policy (r : Nat) (code : Nat) (unit : Nat) (body : List Byte) (b : Block) : (fileEvent r code unit body b).ho.policy = b.ho.policy := (frame_fileEvent r code unit body (Frame.refl _ b) (fun _ h => h)).get .policy (by decide)
@[simp] theorem fileEvent_keeps_resets (r : Nat) (code : Nat) (unit : Nat) (body : List Byte) (b : Block) : (fileEvent r code unit body b).ho.resets = b.ho.resets := (frame_fileEvent r code unit body (Frame.refl _ b) (fun _ h => h)).get .resets (by decide)
@[simp] theorem fileEvent_keeps_fleet (r : Nat) (code : Nat) (unit : Nat) (body : List Byte) (b : Block) : (fileEvent r code unit body b).ho.fleet = b.ho.fleet := (frame_fileEvent r code unit body (Frame.refl _ b) (fun _ h => h)).get .fleet (by decide)
@[simp] theorem fileEvent_keeps_parcel (r : Nat) (code : Nat) (unit : Nat) (body : List Byte) (b : Block) : (fileEvent r code unit body b).ho.parcel = b.ho.parcel := (frame_fileEvent r code unit body (Frame.refl _ b) (fun _ h => h)).get .parcel (by decide)
@[simp] theorem fileEvent_keeps_image (r : Nat) (code : Nat) (unit : Nat) (body : List Byte) (b : Block) : (fileEvent r code unit body b).ho.image = b.ho.image := (frame_fileEvent r code unit body (Frame.refl _ b) (fun _ h => h)).get .image (by decide)
@[simp] theorem fileEvent_keeps_post (r : Nat) (code : Nat) (unit : Nat) (body : List Byte) (b : Block) : (fileEvent r code unit body b).ho.post = b.ho.post := (frame_fileEvent r code unit body (Frame.refl _ b) (fun _ h => h)).get .post (by decide)
@[simp] theorem fileEvent_keeps_bm (r : Nat) (code : Nat) (unit : Nat) (body : List Byte) (b : Block) : (fileEvent r code unit body b).ho.bm = b.ho.bm := (frame_fileEvent r code unit body (Frame.refl _ b) (fun _ h => h)).get .bm (by decide)
@[simp] theorem fileEvent_keeps_cores (r : Nat) (code : Nat) (unit : Nat) (body : List Byte) (b : Block) : (fileEvent r code unit body b).units.cores = b.units.cores := (frame_fileEvent r code unit body (Frame.refl _ b) (fun _ h => h)).get .cores (by decide)
@[simp] theorem fileEvent_keeps_routers (r : Nat) (code : Nat) (unit : Nat) (body : List Byte) (b : Block) : (fileEvent r code unit body b).units.routers = b.units.routers := (frame_fileEvent r code unit body (Frame.refl _ b) (fun _ h => h)).get .routers (by decide)
@[simp] theorem fileEvent_keeps_nodes (r : Nat) (code : Nat) (unit : Nat) (body : List Byte) (b : Block) : (fileEvent r code unit body b).units.nodes = b.units.nodes := (frame_fileEvent r code unit body (Frame.refl _ b) (fun _ h => h)).get .nodes (by decide)
@[simp] theorem fileEvent_keeps_couriers (r : Nat) (code : Nat) (unit : Nat) (body : List Byte) (b : Block) : (fileEvent r code unit body b).units.couriers = b.units.couriers := (frame_fileEvent r code unit body (Frame.refl _ b) (fun _ h => h)).get .couriers (by decide)
@[simp] theorem bumpCtr_keeps_env (i : Nat) (code : Nat) (n : Nat) (b : Block) : (bumpCtr i code n b).env = b.env := (frame_bumpCtr i code n (Frame.refl _ b) (fun _ h => h)).get .env (by decide)
@[simp] theorem bumpCtr_keeps_outs (i : Nat) (code : Nat) (n : Nat) (b : Block) : (bumpCtr i code n b).outs = b.outs := (frame_bumpCtr i code n (Frame.refl _ b) (fun _ h => h)).get .outs (by decide)
@[simp] theorem bumpCtr_keeps_pm (i : Nat) (code : Nat) (n : Nat) (b : Block) : (bumpCtr i code n b).pm = b.pm := (frame_bumpCtr i code n (Frame.refl _ b) (fun _ h => h)).get .pm (by decide)
@[simp] theorem bumpCtr_keeps_svc (i : Nat) (code : Nat) (n : Nat) (b : Block) : (bumpCtr i code n b).svc = b.svc := (frame_bumpCtr i code n (Frame.refl _ b) (fun _ h => h)).get .svc (by decide)
@[simp] theorem bumpCtr_keeps_keys (i : Nat) (code : Nat) (n : Nat) (b : Block) : (bumpCtr i code n b).keys = b.keys := (frame_bumpCtr i code n (Frame.refl _ b) (fun _ h => h)).get .keys (by decide)
@[simp] theorem bumpCtr_keeps_cfg (i : Nat) (code : Nat) (n : Nat) (b : Block) : (bumpCtr i code n b).cfg = b.cfg := (frame_bumpCtr i code n (Frame.refl _ b) (fun _ h => h)).get .cfg (by decide)
@[simp] theorem bumpCtr_keeps_ledger (i : Nat) (code : Nat) (n : Nat) (b : Block) : (bumpCtr i code n b).ledger = b.ledger := (frame_bumpCtr i code n (Frame.refl _ b) (fun _ h => h)).get .ledger (by decide)
@[simp] theorem bumpCtr_keeps_arch (i : Nat) (code : Nat) (n : Nat) (b : Block) : (bumpCtr i code n b).arch = b.arch := (frame_bumpCtr i code n (Frame.refl _ b) (fun _ h => h)).get .arch (by decide)
@[simp] theorem bumpCtr_keeps_stop (i : Nat) (code : Nat) (n : Nat) (b : Block) : (bumpCtr i code n b).stop = b.stop := (frame_bumpCtr i code n (Frame.refl _ b) (fun _ h => h)).get .stop (by decide)
@[simp] theorem bumpCtr_keeps_dbg (i : Nat) (code : Nat) (n : Nat) (b : Block) : (bumpCtr i code n b).dbg = b.dbg := (frame_bumpCtr i code n (Frame.refl _ b) (fun _ h => h)).get .dbg (by decide)
@[simp] theorem bumpCtr_keeps_letters (i : Nat) (code : Nat) (n : Nat) (b : Block) : (bumpCtr i code n b).letters = b.letters := (frame_bumpCtr i code n (Frame.refl _ b) (fun _ h => h)).get .letters (by decide)
@[simp] theorem bumpCtr_keeps_free (i : Nat) (code : Nat) (n : Nat) (b : Block) : (bumpCtr i code n b).free = b.free := (frame_bumpCtr i code n (Frame.refl _ b) (fun _ h => h)).get .free (by decide)
@[simp] theorem bumpCtr_keeps_mgmt (i : Nat) (code : Nat) (n : Nat) (b : Block) : (bumpCtr i code n b).ho.mgmt = b.ho.mgmt := (frame_bumpCtr i code n (Frame.refl _ b) (fun _ h => h)).get .mgmt (by decide)
@[simp] theorem bumpCtr_keeps_mail (i : Nat) (code : Nat) (n : Nat) (b : Block) : (bumpCtr i code n b).ho.mail = b.ho.mail := (frame_bumpCtr i code n (Frame.refl _ b) (fun _ h => h)).get .mail (by decide)
@[simp] theorem bumpCtr_keeps_job (i : Nat) (code : Nat) (n : Nat) (b : Block) : (bumpCtr i code n b).ho.job = b.ho.job := (frame_bumpCtr i code n (Frame.refl _ b) (fun _ h => h)).get .job (by decide)
@[simp] theorem bumpCtr_keeps_policy (i : Nat) (code : Nat) (n : Nat) (b : Block) : (bumpCtr i code n b).ho.policy = b.ho.policy := (frame_bumpCtr i code n (Frame.refl _ b) (fun _ h => h)).get .policy (by decide)
@[simp] theorem bumpCtr_keeps_resets (i : Nat) (code : Nat) (n : Nat) (b : Block) : (bumpCtr i code n b).ho.resets = b.ho.resets := (frame_bumpCtr i code n (Frame.refl _ b) (fun _ h => h)).get .resets (by decide)
@[simp] theorem bumpCtr_keeps_fleet (i : Nat) (code : Nat) (n : Nat) (b : Block) : (bumpCtr i code n b).ho.fleet = b.ho.fleet := (frame_bumpCtr i code n (Frame.refl _ b) (fun _ h => h)).get .fleet (by decide)
@[simp] theorem bumpCtr_keeps_parcel (i : Nat) (code : Nat) (n : Nat) (b : Block) : (bumpCtr i code n b).ho.parcel = b.ho.parcel := (frame_bumpCtr i code n (Frame.refl _ b) (fun _ h => h)).get .parcel (by decide)
@[simp] theorem bumpCtr_keeps_image (i : Nat) (code : Nat) (n : Nat) (b : Block) : (bumpCtr i code n b).ho.image = b.ho.image := (frame_bumpCtr i code n (Frame.refl _ b) (fun _ h => h)).get .image (by decide)
@[simp] theorem bumpCtr_keeps_post (i : Nat) (code : Nat) (n : Nat) (b : Block) : (bumpCtr i code n b).ho.post = b.ho.post := (frame_bumpCtr i code n (Frame.refl _ b) (fun _ h => h)).get .post (by decide)
@[simp] theorem bumpCtr_keeps_bm (i : Nat) (code : Nat) (n : Nat) (b : Block) : (bumpCtr i code n b).ho.bm = b.ho.bm := (frame_bumpCtr i code n (Frame.refl _ b) (fun _ h => h)).get .bm (by decide)
@[simp] theorem bumpCtr_keeps_offices (i : Nat) (code : Nat) (n : Nat) (b : Block) : (bumpCtr i code n b).units.offices = b.units.offices := (frame_bumpCtr i code n (Frame.refl _ b) (fun _ h => h)).get .offices (by decide)
@[simp] theorem bumpCtr_keeps_routers (i : Nat) (code : Nat) (n : Nat) (b : Block) : (bumpCtr i code n b).units.routers = b.units.routers := (frame_bumpCtr i code n (Frame.refl _ b) (fun _ h => h)).get .routers (by decide)
@[simp] theorem bumpCtr_keeps_nodes (i : Nat) (code : Nat) (n : Nat) (b : Block) : (bumpCtr i code n b).units.nodes = b.units.nodes := (frame_bumpCtr i code n (Frame.refl _ b) (fun _ h => h)).get .nodes (by decide)
@[simp] theorem bumpCtr_keeps_couriers (i : Nat) (code : Nat) (n : Nat) (b : Block) : (bumpCtr i code n b).units.couriers = b.units.couriers := (frame_bumpCtr i code n (Frame.refl _ b) (fun _ h => h)).get .couriers (by decide)
@[simp] theorem lbEvent_keeps_env (i : Nat) (code : Nat) (body : List Byte) (b : Block) : (lbEvent i code body b).env = b.env := (frame_lbEvent i code body (Frame.refl _ b) (fun _ h => h)).get .env (by decide)
@[simp] theorem lbEvent_keeps_outs (i : Nat) (code : Nat) (body : List Byte) (b : Block) : (lbEvent i code body b).outs = b.outs := (frame_lbEvent i code body (Frame.refl _ b) (fun _ h => h)).get .outs (by decide)
@[simp] theorem lbEvent_keeps_pm (i : Nat) (code : Nat) (body : List Byte) (b : Block) : (lbEvent i code body b).pm = b.pm := (frame_lbEvent i code body (Frame.refl _ b) (fun _ h => h)).get .pm (by decide)
@[simp] theorem lbEvent_keeps_svc (i : Nat) (code : Nat) (body : List Byte) (b : Block) : (lbEvent i code body b).svc = b.svc := (frame_lbEvent i code body (Frame.refl _ b) (fun _ h => h)).get .svc (by decide)
@[simp] theorem lbEvent_keeps_keys (i : Nat) (code : Nat) (body : List Byte) (b : Block) : (lbEvent i code body b).keys = b.keys := (frame_lbEvent i code body (Frame.refl _ b) (fun _ h => h)).get .keys (by decide)
@[simp] theorem lbEvent_keeps_cfg (i : Nat) (code : Nat) (body : List Byte) (b : Block) : (lbEvent i code body b).cfg = b.cfg := (frame_lbEvent i code body (Frame.refl _ b) (fun _ h => h)).get .cfg (by decide)
@[simp] theorem lbEvent_keeps_ledger (i : Nat) (code : Nat) (body : List Byte) (b : Block) : (lbEvent i code body b).ledger = b.ledger := (frame_lbEvent i code body (Frame.refl _ b) (fun _ h => h)).get .ledger (by decide)
@[simp] theorem lbEvent_keeps_arch (i : Nat) (code : Nat) (body : List Byte) (b : Block) : (lbEvent i code body b).arch = b.arch := (frame_lbEvent i code body (Frame.refl _ b) (fun _ h => h)).get .arch (by decide)
@[simp] theorem lbEvent_keeps_stop (i : Nat) (code : Nat) (body : List Byte) (b : Block) : (lbEvent i code body b).stop = b.stop := (frame_lbEvent i code body (Frame.refl _ b) (fun _ h => h)).get .stop (by decide)
@[simp] theorem lbEvent_keeps_dbg (i : Nat) (code : Nat) (body : List Byte) (b : Block) : (lbEvent i code body b).dbg = b.dbg := (frame_lbEvent i code body (Frame.refl _ b) (fun _ h => h)).get .dbg (by decide)
@[simp] theorem lbEvent_keeps_letters (i : Nat) (code : Nat) (body : List Byte) (b : Block) : (lbEvent i code body b).letters = b.letters := (frame_lbEvent i code body (Frame.refl _ b) (fun _ h => h)).get .letters (by decide)
@[simp] theorem lbEvent_keeps_free (i : Nat) (code : Nat) (body : List Byte) (b : Block) : (lbEvent i code body b).free = b.free := (frame_lbEvent i code body (Frame.refl _ b) (fun _ h => h)).get .free (by decide)
@[simp] theorem lbEvent_keeps_mgmt (i : Nat) (code : Nat) (body : List Byte) (b : Block) : (lbEvent i code body b).ho.mgmt = b.ho.mgmt := (frame_lbEvent i code body (Frame.refl _ b) (fun _ h => h)).get .mgmt (by decide)
@[simp] theorem lbEvent_keeps_mail (i : Nat) (code : Nat) (body : List Byte) (b : Block) : (lbEvent i code body b).ho.mail = b.ho.mail := (frame_lbEvent i code body (Frame.refl _ b) (fun _ h => h)).get .mail (by decide)
@[simp] theorem lbEvent_keeps_job (i : Nat) (code : Nat) (body : List Byte) (b : Block) : (lbEvent i code body b).ho.job = b.ho.job := (frame_lbEvent i code body (Frame.refl _ b) (fun _ h => h)).get .job (by decide)
@[simp] theorem lbEvent_keeps_policy (i : Nat) (code : Nat) (body : List Byte) (b : Block) : (lbEvent i code body b).ho.policy = b.ho.policy := (frame_lbEvent i code body (Frame.refl _ b) (fun _ h => h)).get .policy (by decide)
@[simp] theorem lbEvent_keeps_resets (i : Nat) (code : Nat) (body : List Byte) (b : Block) : (lbEvent i code body b).ho.resets = b.ho.resets := (frame_lbEvent i code body (Frame.refl _ b) (fun _ h => h)).get .resets (by decide)
@[simp] theorem lbEvent_keeps_fleet (i : Nat) (code : Nat) (body : List Byte) (b : Block) : (lbEvent i code body b).ho.fleet = b.ho.fleet := (frame_lbEvent i code body (Frame.refl _ b) (fun _ h => h)).get .fleet (by decide)
@[simp] theorem lbEvent_keeps_parcel (i : Nat) (code : Nat) (body : List Byte) (b : Block) : (lbEvent i code body b).ho.parcel = b.ho.parcel := (frame_lbEvent i code body (Frame.refl _ b) (fun _ h => h)).get .parcel (by decide)
@[simp] theorem lbEvent_keeps_image (i : Nat) (code : Nat) (body : List Byte) (b : Block) : (lbEvent i code body b).ho.image = b.ho.image := (frame_lbEvent i code body (Frame.refl _ b) (fun _ h => h)).get .image (by decide)
@[simp] theorem lbEvent_keeps_post (i : Nat) (code : Nat) (body : List Byte) (b : Block) : (lbEvent i code body b).ho.post = b.ho.post := (frame_lbEvent i code body (Frame.refl _ b) (fun _ h => h)).get .post (by decide)
@[simp] theorem lbEvent_keeps_bm (i : Nat) (code : Nat) (body : List Byte) (b : Block) : (lbEvent i code body b).ho.bm = b.ho.bm := (frame_lbEvent i code body (Frame.refl _ b) (fun _ h => h)).get .bm (by decide)
@[simp] theorem lbEvent_keeps_routers (i : Nat) (code : Nat) (body : List Byte) (b : Block) : (lbEvent i code body b).units.routers = b.units.routers := (frame_lbEvent i code body (Frame.refl _ b) (fun _ h => h)).get .routers (by decide)
@[simp] theorem lbEvent_keeps_nodes (i : Nat) (code : Nat) (body : List Byte) (b : Block) : (lbEvent i code body b).units.nodes = b.units.nodes := (frame_lbEvent i code body (Frame.refl _ b) (fun _ h => h)).get .nodes (by decide)
@[simp] theorem lbEvent_keeps_couriers (i : Nat) (code : Nat) (body : List Byte) (b : Block) : (lbEvent i code body b).units.couriers = b.units.couriers := (frame_lbEvent i code body (Frame.refl _ b) (fun _ h => h)).get .couriers (by decide)
@[simp] theorem raiseAlarm_keeps_env (code : Nat) (b : Block) : (raiseAlarm code b).env = b.env := (frame_raiseAlarm code (Frame.refl _ b) (fun _ h => h)).get .env (by decide)
@[simp] theorem raiseAlarm_keeps_pm (code : Nat) (b : Block) : (raiseAlarm code b).pm = b.pm := (frame_raiseAlarm code (Frame.refl _ b) (fun _ h => h)).get .pm (by decide)
@[simp] theorem raiseAlarm_keeps_svc (code : Nat) (b : Block) : (raiseAlarm code b).svc = b.svc := (frame_raiseAlarm code (Frame.refl _ b) (fun _ h => h)).get .svc (by decide)
@[simp] theorem raiseAlarm_keeps_keys (code : Nat) (b : Block) : (raiseAlarm code b).keys = b.keys := (frame_raiseAlarm code (Frame.refl _ b) (fun _ h => h)).get .keys (by decide)
@[simp] theorem raiseAlarm_keeps_cfg (code : Nat) (b : Block) : (raiseAlarm code b).cfg = b.cfg := (frame_raiseAlarm code (Frame.refl _ b) (fun _ h => h)).get .cfg (by decide)
@[simp] theorem raiseAlarm_keeps_ledger (code : Nat) (b : Block) : (raiseAlarm code b).ledger = b.ledger := (frame_raiseAlarm code (Frame.refl _ b) (fun _ h => h)).get .ledger (by decide)
@[simp] theorem raiseAlarm_keeps_arch (code : Nat) (b : Block) : (raiseAlarm code b).arch = b.arch := (frame_raiseAlarm code (Frame.refl _ b) (fun _ h => h)).get .arch (by decide)
@[simp] theorem raiseAlarm_keeps_stop (code : Nat) (b : Block) : (raiseAlarm code b).stop = b.stop := (frame_raiseAlarm code (Frame.refl _ b) (fun _ h => h)).get .stop (by decide)
@[simp] theorem raiseAlarm_keeps_dbg (code : Nat) (b : Block) : (raiseAlarm code b).dbg = b.dbg := (frame_raiseAlarm code (Frame.refl _ b) (fun _ h => h)).get .dbg (by decide)
@[simp] theorem raiseAlarm_keeps_letters (code : Nat) (b : Block) : (raiseAlarm code b).letters = b.letters := (frame_raiseAlarm code (Frame.refl _ b) (fun _ h => h)).get .letters (by decide)
@[simp] theorem raiseAlarm_keeps_free (code : Nat) (b : Block) : (raiseAlarm code b).free = b.free := (frame_raiseAlarm code (Frame.refl _ b) (fun _ h => h)).get .free (by decide)
@[simp] theorem raiseAlarm_keeps_mail (code : Nat) (b : Block) : (raiseAlarm code b).ho.mail = b.ho.mail := (frame_raiseAlarm code (Frame.refl _ b) (fun _ h => h)).get .mail (by decide)
@[simp] theorem raiseAlarm_keeps_job (code : Nat) (b : Block) : (raiseAlarm code b).ho.job = b.ho.job := (frame_raiseAlarm code (Frame.refl _ b) (fun _ h => h)).get .job (by decide)
@[simp] theorem raiseAlarm_keeps_policy (code : Nat) (b : Block) : (raiseAlarm code b).ho.policy = b.ho.policy := (frame_raiseAlarm code (Frame.refl _ b) (fun _ h => h)).get .policy (by decide)
@[simp] theorem raiseAlarm_keeps_resets (code : Nat) (b : Block) : (raiseAlarm code b).ho.resets = b.ho.resets := (frame_raiseAlarm code (Frame.refl _ b) (fun _ h => h)).get .resets (by decide)
@[simp] theorem raiseAlarm_keeps_fleet (code : Nat) (b : Block) : (raiseAlarm code b).ho.fleet = b.ho.fleet := (frame_raiseAlarm code (Frame.refl _ b) (fun _ h => h)).get .fleet (by decide)
@[simp] theorem raiseAlarm_keeps_parcel (code : Nat) (b : Block) : (raiseAlarm code b).ho.parcel = b.ho.parcel := (frame_raiseAlarm code (Frame.refl _ b) (fun _ h => h)).get .parcel (by decide)
@[simp] theorem raiseAlarm_keeps_image (code : Nat) (b : Block) : (raiseAlarm code b).ho.image = b.ho.image := (frame_raiseAlarm code (Frame.refl _ b) (fun _ h => h)).get .image (by decide)
@[simp] theorem raiseAlarm_keeps_post (code : Nat) (b : Block) : (raiseAlarm code b).ho.post = b.ho.post := (frame_raiseAlarm code (Frame.refl _ b) (fun _ h => h)).get .post (by decide)
@[simp] theorem raiseAlarm_keeps_bm (code : Nat) (b : Block) : (raiseAlarm code b).ho.bm = b.ho.bm := (frame_raiseAlarm code (Frame.refl _ b) (fun _ h => h)).get .bm (by decide)
@[simp] theorem raiseAlarm_keeps_cores (code : Nat) (b : Block) : (raiseAlarm code b).units.cores = b.units.cores := (frame_raiseAlarm code (Frame.refl _ b) (fun _ h => h)).get .cores (by decide)
@[simp] theorem raiseAlarm_keeps_offices (code : Nat) (b : Block) : (raiseAlarm code b).units.offices = b.units.offices := (frame_raiseAlarm code (Frame.refl _ b) (fun _ h => h)).get .offices (by decide)
@[simp] theorem raiseAlarm_keeps_routers (code : Nat) (b : Block) : (raiseAlarm code b).units.routers = b.units.routers := (frame_raiseAlarm code (Frame.refl _ b) (fun _ h => h)).get .routers (by decide)
@[simp] theorem raiseAlarm_keeps_nodes (code : Nat) (b : Block) : (raiseAlarm code b).units.nodes = b.units.nodes := (frame_raiseAlarm code (Frame.refl _ b) (fun _ h => h)).get .nodes (by decide)
@[simp] theorem raiseAlarm_keeps_couriers (code : Nat) (b : Block) : (raiseAlarm code b).units.couriers = b.units.couriers := (frame_raiseAlarm code (Frame.refl _ b) (fun _ h => h)).get .couriers (by decide)
@[simp] theorem setSvc_keeps_env (st : SvcState) (b : Block) : (setSvc st b).env = b.env := (frame_setSvc st (Frame.refl _ b) (fun _ h => h)).get .env (by decide)
@[simp] theorem setSvc_keeps_outs (st : SvcState) (b : Block) : (setSvc st b).outs = b.outs := (frame_setSvc st (Frame.refl _ b) (fun _ h => h)).get .outs (by decide)
@[simp] theorem setSvc_keeps_pm (st : SvcState) (b : Block) : (setSvc st b).pm = b.pm := (frame_setSvc st (Frame.refl _ b) (fun _ h => h)).get .pm (by decide)
@[simp] theorem setSvc_keeps_keys (st : SvcState) (b : Block) : (setSvc st b).keys = b.keys := (frame_setSvc st (Frame.refl _ b) (fun _ h => h)).get .keys (by decide)
@[simp] theorem setSvc_keeps_cfg (st : SvcState) (b : Block) : (setSvc st b).cfg = b.cfg := (frame_setSvc st (Frame.refl _ b) (fun _ h => h)).get .cfg (by decide)
@[simp] theorem setSvc_keeps_ledger (st : SvcState) (b : Block) : (setSvc st b).ledger = b.ledger := (frame_setSvc st (Frame.refl _ b) (fun _ h => h)).get .ledger (by decide)
@[simp] theorem setSvc_keeps_arch (st : SvcState) (b : Block) : (setSvc st b).arch = b.arch := (frame_setSvc st (Frame.refl _ b) (fun _ h => h)).get .arch (by decide)
@[simp] theorem setSvc_keeps_stop (st : SvcState) (b : Block) : (setSvc st b).stop = b.stop := (frame_setSvc st (Frame.refl _ b) (fun _ h => h)).get .stop (by decide)
@[simp] theorem setSvc_keeps_letters (st : SvcState) (b : Block) : (setSvc st b).letters = b.letters := (frame_setSvc st (Frame.refl _ b) (fun _ h => h)).get .letters (by decide)
@[simp] theorem setSvc_keeps_free (st : SvcState) (b : Block) : (setSvc st b).free = b.free := (frame_setSvc st (Frame.refl _ b) (fun _ h => h)).get .free (by decide)
@[simp] theorem setSvc_keeps_job (st : SvcState) (b : Block) : (setSvc st b).ho.job = b.ho.job := (frame_setSvc st (Frame.refl _ b) (fun _ h => h)).get .job (by decide)
@[simp] theorem setSvc_keeps_policy (st : SvcState) (b : Block) : (setSvc st b).ho.policy = b.ho.policy := (frame_setSvc st (Frame.refl _ b) (fun _ h => h)).get .policy (by decide)
@[simp] theorem setSvc_keeps_resets (st : SvcState) (b : Block) : (setSvc st b).ho.resets = b.ho.resets := (frame_setSvc st (Frame.refl _ b) (fun _ h => h)).get .resets (by decide)
@[simp] theorem setSvc_keeps_fleet (st : SvcState) (b : Block) : (setSvc st b).ho.fleet = b.ho.fleet := (frame_setSvc st (Frame.refl _ b) (fun _ h => h)).get .fleet (by decide)
@[simp] theorem setSvc_keeps_parcel (st : SvcState) (b : Block) : (setSvc st b).ho.parcel = b.ho.parcel := (frame_setSvc st (Frame.refl _ b) (fun _ h => h)).get .parcel (by decide)
@[simp] theorem setSvc_keeps_image (st : SvcState) (b : Block) : (setSvc st b).ho.image = b.ho.image := (frame_setSvc st (Frame.refl _ b) (fun _ h => h)).get .image (by decide)
@[simp] theorem setSvc_keeps_post (st : SvcState) (b : Block) : (setSvc st b).ho.post = b.ho.post := (frame_setSvc st (Frame.refl _ b) (fun _ h => h)).get .post (by decide)
@[simp] theorem setSvc_keeps_bm (st : SvcState) (b : Block) : (setSvc st b).ho.bm = b.ho.bm := (frame_setSvc st (Frame.refl _ b) (fun _ h => h)).get .bm (by decide)
@[simp] theorem setSvc_keeps_cores (st : SvcState) (b : Block) : (setSvc st b).units.cores = b.units.cores := (frame_setSvc st (Frame.refl _ b) (fun _ h => h)).get .cores (by decide)
@[simp] theorem setSvc_keeps_offices (st : SvcState) (b : Block) : (setSvc st b).units.offices = b.units.offices := (frame_setSvc st (Frame.refl _ b) (fun _ h => h)).get .offices (by decide)
@[simp] theorem setSvc_keeps_routers (st : SvcState) (b : Block) : (setSvc st b).units.routers = b.units.routers := (frame_setSvc st (Frame.refl _ b) (fun _ h => h)).get .routers (by decide)
@[simp] theorem setSvc_keeps_nodes (st : SvcState) (b : Block) : (setSvc st b).units.nodes = b.units.nodes := (frame_setSvc st (Frame.refl _ b) (fun _ h => h)).get .nodes (by decide)
@[simp] theorem setSvc_keeps_couriers (st : SvcState) (b : Block) : (setSvc st b).units.couriers = b.units.couriers := (frame_setSvc st (Frame.refl _ b) (fun _ h => h)).get .couriers (by decide)
@[simp] theorem setPmState_keeps_env (st : PmState) (b : Block) : (setPmState st b).env = b.env := (frame_setPmState st (Frame.refl _ b) (fun _ h => h)).get .env (by decide)
@[simp] theorem setPmState_keeps_outs (st : PmState) (b : Block) : (setPmState st b).outs = b.outs := (frame_setPmState st (Frame.refl _ b) (fun _ h => h)).get .outs (by decide)
@[simp] theorem setPmState_keeps_svc (st : PmState) (b : Block) : (setPmState st b).svc = b.svc := (frame_setPmState st (Frame.refl _ b) (fun _ h => h)).get .svc (by decide)
@[simp] theorem setPmState_keeps_keys (st : PmState) (b : Block) : (setPmState st b).keys = b.keys := (frame_setPmState st (Frame.refl _ b) (fun _ h => h)).get .keys (by decide)
@[simp] theorem setPmState_keeps_cfg (st : PmState) (b : Block) : (setPmState st b).cfg = b.cfg := (frame_setPmState st (Frame.refl _ b) (fun _ h => h)).get .cfg (by decide)
@[simp] theorem setPmState_keeps_ledger (st : PmState) (b : Block) : (setPmState st b).ledger = b.ledger := (frame_setPmState st (Frame.refl _ b) (fun _ h => h)).get .ledger (by decide)
@[simp] theorem setPmState_keeps_arch (st : PmState) (b : Block) : (setPmState st b).arch = b.arch := (frame_setPmState st (Frame.refl _ b) (fun _ h => h)).get .arch (by decide)
@[simp] theorem setPmState_keeps_stop (st : PmState) (b : Block) : (setPmState st b).stop = b.stop := (frame_setPmState st (Frame.refl _ b) (fun _ h => h)).get .stop (by decide)
@[simp] theorem setPmState_keeps_dbg (st : PmState) (b : Block) : (setPmState st b).dbg = b.dbg := (frame_setPmState st (Frame.refl _ b) (fun _ h => h)).get .dbg (by decide)
@[simp] theorem setPmState_keeps_letters (st : PmState) (b : Block) : (setPmState st b).letters = b.letters := (frame_setPmState st (Frame.refl _ b) (fun _ h => h)).get .letters (by decide)
@[simp] theorem setPmState_keeps_free (st : PmState) (b : Block) : (setPmState st b).free = b.free := (frame_setPmState st (Frame.refl _ b) (fun _ h => h)).get .free (by decide)
@[simp] theorem setPmState_keeps_mail (st : PmState) (b : Block) : (setPmState st b).ho.mail = b.ho.mail := (frame_setPmState st (Frame.refl _ b) (fun _ h => h)).get .mail (by decide)
@[simp] theorem setPmState_keeps_job (st : PmState) (b : Block) : (setPmState st b).ho.job = b.ho.job := (frame_setPmState st (Frame.refl _ b) (fun _ h => h)).get .job (by decide)
@[simp] theorem setPmState_keeps_policy (st : PmState) (b : Block) : (setPmState st b).ho.policy = b.ho.policy := (frame_setPmState st (Frame.refl _ b) (fun _ h => h)).get .policy (by decide)
@[simp] theorem setPmState_keeps_resets (st : PmState) (b : Block) : (setPmState st b).ho.resets = b.ho.resets := (frame_setPmState st (Frame.refl _ b) (fun _ h => h)).get .resets (by decide)
@[simp] theorem setPmState_keeps_fleet (st : PmState) (b : Block) : (setPmState st b).ho.fleet = b.ho.fleet := (frame_setPmState st (Frame.refl _ b) (fun _ h => h)).get .fleet (by decide)
@[simp] theorem setPmState_keeps_parcel (st : PmState) (b : Block) : (setPmState st b).ho.parcel = b.ho.parcel := (frame_setPmState st (Frame.refl _ b) (fun _ h => h)).get .parcel (by decide)
@[simp] theorem setPmState_keeps_image (st : PmState) (b : Block) : (setPmState st b).ho.image = b.ho.image := (frame_setPmState st (Frame.refl _ b) (fun _ h => h)).get .image (by decide)
@[simp] theorem setPmState_keeps_post (st : PmState) (b : Block) : (setPmState st b).ho.post = b.ho.post := (frame_setPmState st (Frame.refl _ b) (fun _ h => h)).get .post (by decide)
@[simp] theorem setPmState_keeps_bm (st : PmState) (b : Block) : (setPmState st b).ho.bm = b.ho.bm := (frame_setPmState st (Frame.refl _ b) (fun _ h => h)).get .bm (by decide)
@[simp] theorem setPmState_keeps_cores (st : PmState) (b : Block) : (setPmState st b).units.cores = b.units.cores := (frame_setPmState st (Frame.refl _ b) (fun _ h => h)).get .cores (by decide)
@[simp] theorem setPmState_keeps_offices (st : PmState) (b : Block) : (setPmState st b).units.offices = b.units.offices := (frame_setPmState st (Frame.refl _ b) (fun _ h => h)).get .offices (by decide)
@[simp] theorem setPmState_keeps_routers (st : PmState) (b : Block) : (setPmState st b).units.routers = b.units.routers := (frame_setPmState st (Frame.refl _ b) (fun _ h => h)).get .routers (by decide)
@[simp] theorem setPmState_keeps_nodes (st : PmState) (b : Block) : (setPmState st b).units.nodes = b.units.nodes := (frame_setPmState st (Frame.refl _ b) (fun _ h => h)).get .nodes (by decide)
@[simp] theorem setPmState_keeps_couriers (st : PmState) (b : Block) : (setPmState st b).units.couriers = b.units.couriers := (frame_setPmState st (Frame.refl _ b) (fun _ h => h)).get .couriers (by decide)
@[simp] theorem advTo_keeps_env (n : Nat) (b : Block) : (advTo n b).env = b.env := (frame_advTo n (Frame.refl _ b) (fun _ h => h)).get .env (by decide)
@[simp] theorem advTo_keeps_outs (n : Nat) (b : Block) : (advTo n b).outs = b.outs := (frame_advTo n (Frame.refl _ b) (fun _ h => h)).get .outs (by decide)
@[simp] theorem advTo_keeps_svc (n : Nat) (b : Block) : (advTo n b).svc = b.svc := (frame_advTo n (Frame.refl _ b) (fun _ h => h)).get .svc (by decide)
@[simp] theorem advTo_keeps_keys (n : Nat) (b : Block) : (advTo n b).keys = b.keys := (frame_advTo n (Frame.refl _ b) (fun _ h => h)).get .keys (by decide)
@[simp] theorem advTo_keeps_cfg (n : Nat) (b : Block) : (advTo n b).cfg = b.cfg := (frame_advTo n (Frame.refl _ b) (fun _ h => h)).get .cfg (by decide)
@[simp] theorem advTo_keeps_ledger (n : Nat) (b : Block) : (advTo n b).ledger = b.ledger := (frame_advTo n (Frame.refl _ b) (fun _ h => h)).get .ledger (by decide)
@[simp] theorem advTo_keeps_arch (n : Nat) (b : Block) : (advTo n b).arch = b.arch := (frame_advTo n (Frame.refl _ b) (fun _ h => h)).get .arch (by decide)
@[simp] theorem advTo_keeps_stop (n : Nat) (b : Block) : (advTo n b).stop = b.stop := (frame_advTo n (Frame.refl _ b) (fun _ h => h)).get .stop (by decide)
@[simp] theorem advTo_keeps_dbg (n : Nat) (b : Block) : (advTo n b).dbg = b.dbg := (frame_advTo n (Frame.refl _ b) (fun _ h => h)).get .dbg (by decide)
@[simp] theorem advTo_keeps_letters (n : Nat) (b : Block) : (advTo n b).letters = b.letters := (frame_advTo n (Frame.refl _ b) (fun _ h => h)).get .letters (by decide)
@[simp] theorem advTo_keeps_free (n : Nat) (b : Block) : (advTo n b).free = b.free := (frame_advTo n (Frame.refl _ b) (fun _ h => h)).get .free (by decide)
@[simp] theorem advTo_keeps_mgmt (n : Nat) (b : Block) : (advTo n b).ho.mgmt = b.ho.mgmt := (frame_advTo n (Frame.refl _ b) (fun _ h => h)).get .mgmt (by decide)
@[simp] theorem advTo_keeps_mail (n : Nat) (b : Block) : (advTo n b).ho.mail = b.ho.mail := (frame_advTo n (Frame.refl _ b) (fun _ h => h)).get .mail (by decide)
@[simp] theorem advTo_keeps_job (n : Nat) (b : Block) : (advTo n b).ho.job = b.ho.job := (frame_advTo n (Frame.refl _ b) (fun _ h => h)).get .job (by decide)
@[simp] theorem advTo_keeps_policy (n : Nat) (b : Block) : (advTo n b).ho.policy = b.ho.policy := (frame_advTo n (Frame.refl _ b) (fun _ h => h)).get .policy (by decide)
@[simp] theorem advTo_keeps_resets (n : Nat) (b : Block) : (advTo n b).ho.resets = b.ho.resets := (frame_advTo n (Frame.refl _ b) (fun _ h => h)).get .resets (by decide)
@[simp] theorem advTo_keeps_fleet (n : Nat) (b : Block) : (advTo n b).ho.fleet = b.ho.fleet := (frame_advTo n (Frame.refl _ b) (fun _ h => h)).get .fleet (by decide)
@[simp] theorem advTo_keeps_parcel (n : Nat) (b : Block) : (advTo n b).ho.parcel = b.ho.parcel := (frame_advTo n (Frame.refl _ b) (fun _ h => h)).get .parcel (by decide)
@[simp] theorem advTo_keeps_image (n : Nat) (b : Block) : (advTo n b).ho.image = b.ho.image := (frame_advTo n (Frame.refl _ b) (fun _ h => h)).get .image (by decide)
@[simp] theorem advTo_keeps_post (n : Nat) (b : Block) : (advTo n b).ho.post = b.ho.post := (frame_advTo n (Frame.refl _ b) (fun _ h => h)).get .post (by decide)
@[simp] theorem advTo_keeps_bm (n : Nat) (b : Block) : (advTo n b).ho.bm = b.ho.bm := (frame_advTo n (Frame.refl _ b) (fun _ h => h)).get .bm (by decide)
@[simp] theorem advTo_keeps_cores (n : Nat) (b : Block) : (advTo n b).units.cores = b.units.cores := (frame_advTo n (Frame.refl _ b) (fun _ h => h)).get .cores (by decide)
@[simp] theorem advTo_keeps_offices (n : Nat) (b : Block) : (advTo n b).units.offices = b.units.offices := (frame_advTo n (Frame.refl _ b) (fun _ h => h)).get .offices (by decide)
@[simp] theorem advTo_keeps_routers (n : Nat) (b : Block) : (advTo n b).units.routers = b.units.routers := (frame_advTo n (Frame.refl _ b) (fun _ h => h)).get .routers (by decide)
@[simp] theorem advTo_keeps_nodes (n : Nat) (b : Block) : (advTo n b).units.nodes = b.units.nodes := (frame_advTo n (Frame.refl _ b) (fun _ h => h)).get .nodes (by decide)
@[simp] theorem advTo_keeps_couriers (n : Nat) (b : Block) : (advTo n b).units.couriers = b.units.couriers := (frame_advTo n (Frame.refl _ b) (fun _ h => h)).get .couriers (by decide)
@[simp] theorem bmChanged_keeps_env (b : Block) : (bmChanged b).env = b.env := (frame_bmChanged  (Frame.refl _ b) (fun _ h => h)).get .env (by decide)
@[simp] theorem bmChanged_keeps_outs (b : Block) : (bmChanged b).outs = b.outs := (frame_bmChanged  (Frame.refl _ b) (fun _ h => h)).get .outs (by decide)
@[simp] theorem bmChanged_keeps_pm (b : Block) : (bmChanged b).pm = b.pm := (frame_bmChanged  (Frame.refl _ b) (fun _ h => h)).get .pm (by decide)
@[simp] theorem bmChanged_keeps_svc (b : Block) : (bmChanged b).svc = b.svc := (frame_bmChanged  (Frame.refl _ b) (fun _ h => h)).get .svc (by decide)
@[simp] theorem bmChanged_keeps_keys (b : Block) : (bmChanged b).keys = b.keys := (frame_bmChanged  (Frame.refl _ b) (fun _ h => h)).get .keys (by decide)
@[simp] theorem bmChanged_keeps_cfg (b : Block) : (bmChanged b).cfg = b.cfg := (frame_bmChanged  (Frame.refl _ b) (fun _ h => h)).get .cfg (by decide)
@[simp] theorem bmChanged_keeps_arch (b : Block) : (bmChanged b).arch = b.arch := (frame_bmChanged  (Frame.refl _ b) (fun _ h => h)).get .arch (by decide)
@[simp] theorem bmChanged_keeps_stop (b : Block) : (bmChanged b).stop = b.stop := (frame_bmChanged  (Frame.refl _ b) (fun _ h => h)).get .stop (by decide)
@[simp] theorem bmChanged_keeps_dbg (b : Block) : (bmChanged b).dbg = b.dbg := (frame_bmChanged  (Frame.refl _ b) (fun _ h => h)).get .dbg (by decide)
@[simp] theorem bmChanged_keeps_letters (b : Block) : (bmChanged b).letters = b.letters := (frame_bmChanged  (Frame.refl _ b) (fun _ h => h)).get .letters (by decide)
@[simp] theorem bmChanged_keeps_free (b : Block) : (bmChanged b).free = b.free := (frame_bmChanged  (Frame.refl _ b) (fun _ h => h)).get .free (by decide)
@[simp] theorem bmChanged_keeps_mgmt (b : Block) : (bmChanged b).ho.mgmt = b.ho.mgmt := (frame_bmChanged  (Frame.refl _ b) (fun _ h => h)).get .mgmt (by decide)
@[simp] theorem bmChanged_keeps_mail (b : Block) : (bmChanged b).ho.mail = b.ho.mail := (frame_bmChanged  (Frame.refl _ b) (fun _ h => h)).get .mail (by decide)
@[simp] theorem bmChanged_keeps_job (b : Block) : (bmChanged b).ho.job = b.ho.job := (frame_bmChanged  (Frame.refl _ b) (fun _ h => h)).get .job (by decide)
@[simp] theorem bmChanged_keeps_policy (b : Block) : (bmChanged b).ho.policy = b.ho.policy := (frame_bmChanged  (Frame.refl _ b) (fun _ h => h)).get .policy (by decide)
@[simp] theorem bmChanged_keeps_resets (b : Block) : (bmChanged b).ho.resets = b.ho.resets := (frame_bmChanged  (Frame.refl _ b) (fun _ h => h)).get .resets (by decide)
@[simp] theorem bmChanged_keeps_fleet (b : Block) : (bmChanged b).ho.fleet = b.ho.fleet := (frame_bmChanged  (Frame.refl _ b) (fun _ h => h)).get .fleet (by decide)
@[simp] theorem bmChanged_keeps_parcel (b : Block) : (bmChanged b).ho.parcel = b.ho.parcel := (frame_bmChanged  (Frame.refl _ b) (fun _ h => h)).get .parcel (by decide)
@[simp] theorem bmChanged_keeps_image (b : Block) : (bmChanged b).ho.image = b.ho.image := (frame_bmChanged  (Frame.refl _ b) (fun _ h => h)).get .image (by decide)
@[simp] theorem bmChanged_keeps_post (b : Block) : (bmChanged b).ho.post = b.ho.post := (frame_bmChanged  (Frame.refl _ b) (fun _ h => h)).get .post (by decide)
@[simp] theorem bmChanged_keeps_cores (b : Block) : (bmChanged b).units.cores = b.units.cores := (frame_bmChanged  (Frame.refl _ b) (fun _ h => h)).get .cores (by decide)
@[simp] theorem bmChanged_keeps_offices (b : Block) : (bmChanged b).units.offices = b.units.offices := (frame_bmChanged  (Frame.refl _ b) (fun _ h => h)).get .offices (by decide)
@[simp] theorem bmChanged_keeps_routers (b : Block) : (bmChanged b).units.routers = b.units.routers := (frame_bmChanged  (Frame.refl _ b) (fun _ h => h)).get .routers (by decide)
@[simp] theorem bmChanged_keeps_nodes (b : Block) : (bmChanged b).units.nodes = b.units.nodes := (frame_bmChanged  (Frame.refl _ b) (fun _ h => h)).get .nodes (by decide)
@[simp] theorem bmChanged_keeps_couriers (b : Block) : (bmChanged b).units.couriers = b.units.couriers := (frame_bmChanged  (Frame.refl _ b) (fun _ h => h)).get .couriers (by decide)
@[simp] theorem addReason_keeps_env (r : Nat) (bitno : Nat) (b : Block) : (addReason r bitno b).env = b.env := (frame_addReason r bitno (Frame.refl _ b) (fun _ h => h)).get .env (by decide)
@[simp] theorem addReason_keeps_outs (r : Nat) (bitno : Nat) (b : Block) : (addReason r bitno b).outs = b.outs := (frame_addReason r bitno (Frame.refl _ b) (fun _ h => h)).get .outs (by decide)
@[simp] theorem addReason_keeps_pm (r : Nat) (bitno : Nat) (b : Block) : (addReason r bitno b).pm = b.pm := (frame_addReason r bitno (Frame.refl _ b) (fun _ h => h)).get .pm (by decide)
@[simp] theorem addReason_keeps_svc (r : Nat) (bitno : Nat) (b : Block) : (addReason r bitno b).svc = b.svc := (frame_addReason r bitno (Frame.refl _ b) (fun _ h => h)).get .svc (by decide)
@[simp] theorem addReason_keeps_keys (r : Nat) (bitno : Nat) (b : Block) : (addReason r bitno b).keys = b.keys := (frame_addReason r bitno (Frame.refl _ b) (fun _ h => h)).get .keys (by decide)
@[simp] theorem addReason_keeps_cfg (r : Nat) (bitno : Nat) (b : Block) : (addReason r bitno b).cfg = b.cfg := (frame_addReason r bitno (Frame.refl _ b) (fun _ h => h)).get .cfg (by decide)
@[simp] theorem addReason_keeps_ledger (r : Nat) (bitno : Nat) (b : Block) : (addReason r bitno b).ledger = b.ledger := (frame_addReason r bitno (Frame.refl _ b) (fun _ h => h)).get .ledger (by decide)
@[simp] theorem addReason_keeps_arch (r : Nat) (bitno : Nat) (b : Block) : (addReason r bitno b).arch = b.arch := (frame_addReason r bitno (Frame.refl _ b) (fun _ h => h)).get .arch (by decide)
@[simp] theorem addReason_keeps_stop (r : Nat) (bitno : Nat) (b : Block) : (addReason r bitno b).stop = b.stop := (frame_addReason r bitno (Frame.refl _ b) (fun _ h => h)).get .stop (by decide)
@[simp] theorem addReason_keeps_dbg (r : Nat) (bitno : Nat) (b : Block) : (addReason r bitno b).dbg = b.dbg := (frame_addReason r bitno (Frame.refl _ b) (fun _ h => h)).get .dbg (by decide)
@[simp] theorem addReason_keeps_letters (r : Nat) (bitno : Nat) (b : Block) : (addReason r bitno b).letters = b.letters := (frame_addReason r bitno (Frame.refl _ b) (fun _ h => h)).get .letters (by decide)
@[simp] theorem addReason_keeps_free (r : Nat) (bitno : Nat) (b : Block) : (addReason r bitno b).free = b.free := (frame_addReason r bitno (Frame.refl _ b) (fun _ h => h)).get .free (by decide)
@[simp] theorem addReason_keeps_mgmt (r : Nat) (bitno : Nat) (b : Block) : (addReason r bitno b).ho.mgmt = b.ho.mgmt := (frame_addReason r bitno (Frame.refl _ b) (fun _ h => h)).get .mgmt (by decide)
@[simp] theorem addReason_keeps_mail (r : Nat) (bitno : Nat) (b : Block) : (addReason r bitno b).ho.mail = b.ho.mail := (frame_addReason r bitno (Frame.refl _ b) (fun _ h => h)).get .mail (by decide)
@[simp] theorem addReason_keeps_job (r : Nat) (bitno : Nat) (b : Block) : (addReason r bitno b).ho.job = b.ho.job := (frame_addReason r bitno (Frame.refl _ b) (fun _ h => h)).get .job (by decide)
@[simp] theorem addReason_keeps_policy (r : Nat) (bitno : Nat) (b : Block) : (addReason r bitno b).ho.policy = b.ho.policy := (frame_addReason r bitno (Frame.refl _ b) (fun _ h => h)).get .policy (by decide)
@[simp] theorem addReason_keeps_resets (r : Nat) (bitno : Nat) (b : Block) : (addReason r bitno b).ho.resets = b.ho.resets := (frame_addReason r bitno (Frame.refl _ b) (fun _ h => h)).get .resets (by decide)
@[simp] theorem addReason_keeps_fleet (r : Nat) (bitno : Nat) (b : Block) : (addReason r bitno b).ho.fleet = b.ho.fleet := (frame_addReason r bitno (Frame.refl _ b) (fun _ h => h)).get .fleet (by decide)
@[simp] theorem addReason_keeps_parcel (r : Nat) (bitno : Nat) (b : Block) : (addReason r bitno b).ho.parcel = b.ho.parcel := (frame_addReason r bitno (Frame.refl _ b) (fun _ h => h)).get .parcel (by decide)
@[simp] theorem addReason_keeps_image (r : Nat) (bitno : Nat) (b : Block) : (addReason r bitno b).ho.image = b.ho.image := (frame_addReason r bitno (Frame.refl _ b) (fun _ h => h)).get .image (by decide)
@[simp] theorem addReason_keeps_post (r : Nat) (bitno : Nat) (b : Block) : (addReason r bitno b).ho.post = b.ho.post := (frame_addReason r bitno (Frame.refl _ b) (fun _ h => h)).get .post (by decide)
@[simp] theorem addReason_keeps_bm (r : Nat) (bitno : Nat) (b : Block) : (addReason r bitno b).ho.bm = b.ho.bm := (frame_addReason r bitno (Frame.refl _ b) (fun _ h => h)).get .bm (by decide)
@[simp] theorem addReason_keeps_cores (r : Nat) (bitno : Nat) (b : Block) : (addReason r bitno b).units.cores = b.units.cores := (frame_addReason r bitno (Frame.refl _ b) (fun _ h => h)).get .cores (by decide)
@[simp] theorem addReason_keeps_routers (r : Nat) (bitno : Nat) (b : Block) : (addReason r bitno b).units.routers = b.units.routers := (frame_addReason r bitno (Frame.refl _ b) (fun _ h => h)).get .routers (by decide)
@[simp] theorem addReason_keeps_nodes (r : Nat) (bitno : Nat) (b : Block) : (addReason r bitno b).units.nodes = b.units.nodes := (frame_addReason r bitno (Frame.refl _ b) (fun _ h => h)).get .nodes (by decide)
@[simp] theorem addReason_keeps_couriers (r : Nat) (bitno : Nat) (b : Block) : (addReason r bitno b).units.couriers = b.units.couriers := (frame_addReason r bitno (Frame.refl _ b) (fun _ h => h)).get .couriers (by decide)
@[simp] theorem nameRole_keeps_env (r : Nat) (role : Nat) (code : Nat) (b : Block) : (nameRole r role code b).env = b.env := (frame_nameRole r role code (Frame.refl _ b) (fun _ h => h)).get .env (by decide)
@[simp] theorem nameRole_keeps_outs (r : Nat) (role : Nat) (code : Nat) (b : Block) : (nameRole r role code b).outs = b.outs := (frame_nameRole r role code (Frame.refl _ b) (fun _ h => h)).get .outs (by decide)
@[simp] theorem nameRole_keeps_pm (r : Nat) (role : Nat) (code : Nat) (b : Block) : (nameRole r role code b).pm = b.pm := (frame_nameRole r role code (Frame.refl _ b) (fun _ h => h)).get .pm (by decide)
@[simp] theorem nameRole_keeps_svc (r : Nat) (role : Nat) (code : Nat) (b : Block) : (nameRole r role code b).svc = b.svc := (frame_nameRole r role code (Frame.refl _ b) (fun _ h => h)).get .svc (by decide)
@[simp] theorem nameRole_keeps_keys (r : Nat) (role : Nat) (code : Nat) (b : Block) : (nameRole r role code b).keys = b.keys := (frame_nameRole r role code (Frame.refl _ b) (fun _ h => h)).get .keys (by decide)
@[simp] theorem nameRole_keeps_cfg (r : Nat) (role : Nat) (code : Nat) (b : Block) : (nameRole r role code b).cfg = b.cfg := (frame_nameRole r role code (Frame.refl _ b) (fun _ h => h)).get .cfg (by decide)
@[simp] theorem nameRole_keeps_ledger (r : Nat) (role : Nat) (code : Nat) (b : Block) : (nameRole r role code b).ledger = b.ledger := (frame_nameRole r role code (Frame.refl _ b) (fun _ h => h)).get .ledger (by decide)
@[simp] theorem nameRole_keeps_arch (r : Nat) (role : Nat) (code : Nat) (b : Block) : (nameRole r role code b).arch = b.arch := (frame_nameRole r role code (Frame.refl _ b) (fun _ h => h)).get .arch (by decide)
@[simp] theorem nameRole_keeps_stop (r : Nat) (role : Nat) (code : Nat) (b : Block) : (nameRole r role code b).stop = b.stop := (frame_nameRole r role code (Frame.refl _ b) (fun _ h => h)).get .stop (by decide)
@[simp] theorem nameRole_keeps_dbg (r : Nat) (role : Nat) (code : Nat) (b : Block) : (nameRole r role code b).dbg = b.dbg := (frame_nameRole r role code (Frame.refl _ b) (fun _ h => h)).get .dbg (by decide)
@[simp] theorem nameRole_keeps_letters (r : Nat) (role : Nat) (code : Nat) (b : Block) : (nameRole r role code b).letters = b.letters := (frame_nameRole r role code (Frame.refl _ b) (fun _ h => h)).get .letters (by decide)
@[simp] theorem nameRole_keeps_free (r : Nat) (role : Nat) (code : Nat) (b : Block) : (nameRole r role code b).free = b.free := (frame_nameRole r role code (Frame.refl _ b) (fun _ h => h)).get .free (by decide)
@[simp] theorem nameRole_keeps_mgmt (r : Nat) (role : Nat) (code : Nat) (b : Block) : (nameRole r role code b).ho.mgmt = b.ho.mgmt := (frame_nameRole r role code (Frame.refl _ b) (fun _ h => h)).get .mgmt (by decide)
@[simp] theorem nameRole_keeps_mail (r : Nat) (role : Nat) (code : Nat) (b : Block) : (nameRole r role code b).ho.mail = b.ho.mail := (frame_nameRole r role code (Frame.refl _ b) (fun _ h => h)).get .mail (by decide)
@[simp] theorem nameRole_keeps_job (r : Nat) (role : Nat) (code : Nat) (b : Block) : (nameRole r role code b).ho.job = b.ho.job := (frame_nameRole r role code (Frame.refl _ b) (fun _ h => h)).get .job (by decide)
@[simp] theorem nameRole_keeps_policy (r : Nat) (role : Nat) (code : Nat) (b : Block) : (nameRole r role code b).ho.policy = b.ho.policy := (frame_nameRole r role code (Frame.refl _ b) (fun _ h => h)).get .policy (by decide)
@[simp] theorem nameRole_keeps_resets (r : Nat) (role : Nat) (code : Nat) (b : Block) : (nameRole r role code b).ho.resets = b.ho.resets := (frame_nameRole r role code (Frame.refl _ b) (fun _ h => h)).get .resets (by decide)
@[simp] theorem nameRole_keeps_fleet (r : Nat) (role : Nat) (code : Nat) (b : Block) : (nameRole r role code b).ho.fleet = b.ho.fleet := (frame_nameRole r role code (Frame.refl _ b) (fun _ h => h)).get .fleet (by decide)
@[simp] theorem nameRole_keeps_parcel (r : Nat) (role : Nat) (code : Nat) (b : Block) : (nameRole r role code b).ho.parcel = b.ho.parcel := (frame_nameRole r role code (Frame.refl _ b) (fun _ h => h)).get .parcel (by decide)
@[simp] theorem nameRole_keeps_image (r : Nat) (role : Nat) (code : Nat) (b : Block) : (nameRole r role code b).ho.image = b.ho.image := (frame_nameRole r role code (Frame.refl _ b) (fun _ h => h)).get .image (by decide)
@[simp] theorem nameRole_keeps_post (r : Nat) (role : Nat) (code : Nat) (b : Block) : (nameRole r role code b).ho.post = b.ho.post := (frame_nameRole r role code (Frame.refl _ b) (fun _ h => h)).get .post (by decide)
@[simp] theorem nameRole_keeps_bm (r : Nat) (role : Nat) (code : Nat) (b : Block) : (nameRole r role code b).ho.bm = b.ho.bm := (frame_nameRole r role code (Frame.refl _ b) (fun _ h => h)).get .bm (by decide)
@[simp] theorem nameRole_keeps_cores (r : Nat) (role : Nat) (code : Nat) (b : Block) : (nameRole r role code b).units.cores = b.units.cores := (frame_nameRole r role code (Frame.refl _ b) (fun _ h => h)).get .cores (by decide)
@[simp] theorem nameRole_keeps_routers (r : Nat) (role : Nat) (code : Nat) (b : Block) : (nameRole r role code b).units.routers = b.units.routers := (frame_nameRole r role code (Frame.refl _ b) (fun _ h => h)).get .routers (by decide)
@[simp] theorem nameRole_keeps_nodes (r : Nat) (role : Nat) (code : Nat) (b : Block) : (nameRole r role code b).units.nodes = b.units.nodes := (frame_nameRole r role code (Frame.refl _ b) (fun _ h => h)).get .nodes (by decide)
@[simp] theorem nameRole_keeps_couriers (r : Nat) (role : Nat) (code : Nat) (b : Block) : (nameRole r role code b).units.couriers = b.units.couriers := (frame_nameRole r role code (Frame.refl _ b) (fun _ h => h)).get .couriers (by decide)
@[simp] theorem fenceState_keeps_env (i : Nat) (byTest : Bool) (b : Block) : (fenceState i byTest b).env = b.env := (frame_fenceState i byTest (Frame.refl _ b) (fun _ h => h)).get .env (by decide)
@[simp] theorem fenceState_keeps_outs (i : Nat) (byTest : Bool) (b : Block) : (fenceState i byTest b).outs = b.outs := (frame_fenceState i byTest (Frame.refl _ b) (fun _ h => h)).get .outs (by decide)
@[simp] theorem fenceState_keeps_pm (i : Nat) (byTest : Bool) (b : Block) : (fenceState i byTest b).pm = b.pm := (frame_fenceState i byTest (Frame.refl _ b) (fun _ h => h)).get .pm (by decide)
@[simp] theorem fenceState_keeps_svc (i : Nat) (byTest : Bool) (b : Block) : (fenceState i byTest b).svc = b.svc := (frame_fenceState i byTest (Frame.refl _ b) (fun _ h => h)).get .svc (by decide)
@[simp] theorem fenceState_keeps_keys (i : Nat) (byTest : Bool) (b : Block) : (fenceState i byTest b).keys = b.keys := (frame_fenceState i byTest (Frame.refl _ b) (fun _ h => h)).get .keys (by decide)
@[simp] theorem fenceState_keeps_cfg (i : Nat) (byTest : Bool) (b : Block) : (fenceState i byTest b).cfg = b.cfg := (frame_fenceState i byTest (Frame.refl _ b) (fun _ h => h)).get .cfg (by decide)
@[simp] theorem fenceState_keeps_arch (i : Nat) (byTest : Bool) (b : Block) : (fenceState i byTest b).arch = b.arch := (frame_fenceState i byTest (Frame.refl _ b) (fun _ h => h)).get .arch (by decide)
@[simp] theorem fenceState_keeps_letters (i : Nat) (byTest : Bool) (b : Block) : (fenceState i byTest b).letters = b.letters := (frame_fenceState i byTest (Frame.refl _ b) (fun _ h => h)).get .letters (by decide)
@[simp] theorem fenceState_keeps_free (i : Nat) (byTest : Bool) (b : Block) : (fenceState i byTest b).free = b.free := (frame_fenceState i byTest (Frame.refl _ b) (fun _ h => h)).get .free (by decide)
@[simp] theorem fenceState_keeps_policy (i : Nat) (byTest : Bool) (b : Block) : (fenceState i byTest b).ho.policy = b.ho.policy := (frame_fenceState i byTest (Frame.refl _ b) (fun _ h => h)).get .policy (by decide)
@[simp] theorem fenceState_keeps_resets (i : Nat) (byTest : Bool) (b : Block) : (fenceState i byTest b).ho.resets = b.ho.resets := (frame_fenceState i byTest (Frame.refl _ b) (fun _ h => h)).get .resets (by decide)
@[simp] theorem fenceState_keeps_fleet (i : Nat) (byTest : Bool) (b : Block) : (fenceState i byTest b).ho.fleet = b.ho.fleet := (frame_fenceState i byTest (Frame.refl _ b) (fun _ h => h)).get .fleet (by decide)
@[simp] theorem fenceState_keeps_parcel (i : Nat) (byTest : Bool) (b : Block) : (fenceState i byTest b).ho.parcel = b.ho.parcel := (frame_fenceState i byTest (Frame.refl _ b) (fun _ h => h)).get .parcel (by decide)
@[simp] theorem fenceState_keeps_image (i : Nat) (byTest : Bool) (b : Block) : (fenceState i byTest b).ho.image = b.ho.image := (frame_fenceState i byTest (Frame.refl _ b) (fun _ h => h)).get .image (by decide)
@[simp] theorem fenceState_keeps_post (i : Nat) (byTest : Bool) (b : Block) : (fenceState i byTest b).ho.post = b.ho.post := (frame_fenceState i byTest (Frame.refl _ b) (fun _ h => h)).get .post (by decide)
@[simp] theorem fenceState_keeps_routers (i : Nat) (byTest : Bool) (b : Block) : (fenceState i byTest b).units.routers = b.units.routers := (frame_fenceState i byTest (Frame.refl _ b) (fun _ h => h)).get .routers (by decide)
@[simp] theorem fenceState_keeps_nodes (i : Nat) (byTest : Bool) (b : Block) : (fenceState i byTest b).units.nodes = b.units.nodes := (frame_fenceState i byTest (Frame.refl _ b) (fun _ h => h)).get .nodes (by decide)
@[simp] theorem fenceState_keeps_couriers (i : Nat) (byTest : Bool) (b : Block) : (fenceState i byTest b).units.couriers = b.units.couriers := (frame_fenceState i byTest (Frame.refl _ b) (fun _ h => h)).get .couriers (by decide)
@[simp] theorem unscreen_keeps_env (i : Nat) (b : Block) : (unscreen i b).env = b.env := (frame_unscreen i (Frame.refl _ b) (fun _ h => h)).get .env (by decide)
@[simp] theorem unscreen_keeps_outs (i : Nat) (b : Block) : (unscreen i b).outs = b.outs := (frame_unscreen i (Frame.refl _ b) (fun _ h => h)).get .outs (by decide)
@[simp] theorem unscreen_keeps_pm (i : Nat) (b : Block) : (unscreen i b).pm = b.pm := (frame_unscreen i (Frame.refl _ b) (fun _ h => h)).get .pm (by decide)
@[simp] theorem unscreen_keeps_svc (i : Nat) (b : Block) : (unscreen i b).svc = b.svc := (frame_unscreen i (Frame.refl _ b) (fun _ h => h)).get .svc (by decide)
@[simp] theorem unscreen_keeps_keys (i : Nat) (b : Block) : (unscreen i b).keys = b.keys := (frame_unscreen i (Frame.refl _ b) (fun _ h => h)).get .keys (by decide)
@[simp] theorem unscreen_keeps_cfg (i : Nat) (b : Block) : (unscreen i b).cfg = b.cfg := (frame_unscreen i (Frame.refl _ b) (fun _ h => h)).get .cfg (by decide)
@[simp] theorem unscreen_keeps_arch (i : Nat) (b : Block) : (unscreen i b).arch = b.arch := (frame_unscreen i (Frame.refl _ b) (fun _ h => h)).get .arch (by decide)
@[simp] theorem unscreen_keeps_stop (i : Nat) (b : Block) : (unscreen i b).stop = b.stop := (frame_unscreen i (Frame.refl _ b) (fun _ h => h)).get .stop (by decide)
@[simp] theorem unscreen_keeps_dbg (i : Nat) (b : Block) : (unscreen i b).dbg = b.dbg := (frame_unscreen i (Frame.refl _ b) (fun _ h => h)).get .dbg (by decide)
@[simp] theorem unscreen_keeps_letters (i : Nat) (b : Block) : (unscreen i b).letters = b.letters := (frame_unscreen i (Frame.refl _ b) (fun _ h => h)).get .letters (by decide)
@[simp] theorem unscreen_keeps_free (i : Nat) (b : Block) : (unscreen i b).free = b.free := (frame_unscreen i (Frame.refl _ b) (fun _ h => h)).get .free (by decide)
@[simp] theorem unscreen_keeps_mgmt (i : Nat) (b : Block) : (unscreen i b).ho.mgmt = b.ho.mgmt := (frame_unscreen i (Frame.refl _ b) (fun _ h => h)).get .mgmt (by decide)
@[simp] theorem unscreen_keeps_mail (i : Nat) (b : Block) : (unscreen i b).ho.mail = b.ho.mail := (frame_unscreen i (Frame.refl _ b) (fun _ h => h)).get .mail (by decide)
@[simp] theorem unscreen_keeps_job (i : Nat) (b : Block) : (unscreen i b).ho.job = b.ho.job := (frame_unscreen i (Frame.refl _ b) (fun _ h => h)).get .job (by decide)
@[simp] theorem unscreen_keeps_policy (i : Nat) (b : Block) : (unscreen i b).ho.policy = b.ho.policy := (frame_unscreen i (Frame.refl _ b) (fun _ h => h)).get .policy (by decide)
@[simp] theorem unscreen_keeps_resets (i : Nat) (b : Block) : (unscreen i b).ho.resets = b.ho.resets := (frame_unscreen i (Frame.refl _ b) (fun _ h => h)).get .resets (by decide)
@[simp] theorem unscreen_keeps_fleet (i : Nat) (b : Block) : (unscreen i b).ho.fleet = b.ho.fleet := (frame_unscreen i (Frame.refl _ b) (fun _ h => h)).get .fleet (by decide)
@[simp] theorem unscreen_keeps_parcel (i : Nat) (b : Block) : (unscreen i b).ho.parcel = b.ho.parcel := (frame_unscreen i (Frame.refl _ b) (fun _ h => h)).get .parcel (by decide)
@[simp] theorem unscreen_keeps_image (i : Nat) (b : Block) : (unscreen i b).ho.image = b.ho.image := (frame_unscreen i (Frame.refl _ b) (fun _ h => h)).get .image (by decide)
@[simp] theorem unscreen_keeps_post (i : Nat) (b : Block) : (unscreen i b).ho.post = b.ho.post := (frame_unscreen i (Frame.refl _ b) (fun _ h => h)).get .post (by decide)
@[simp] theorem unscreen_keeps_cores (i : Nat) (b : Block) : (unscreen i b).units.cores = b.units.cores := (frame_unscreen i (Frame.refl _ b) (fun _ h => h)).get .cores (by decide)
@[simp] theorem unscreen_keeps_routers (i : Nat) (b : Block) : (unscreen i b).units.routers = b.units.routers := (frame_unscreen i (Frame.refl _ b) (fun _ h => h)).get .routers (by decide)
@[simp] theorem unscreen_keeps_nodes (i : Nat) (b : Block) : (unscreen i b).units.nodes = b.units.nodes := (frame_unscreen i (Frame.refl _ b) (fun _ h => h)).get .nodes (by decide)
@[simp] theorem unscreen_keeps_couriers (i : Nat) (b : Block) : (unscreen i b).units.couriers = b.units.couriers := (frame_unscreen i (Frame.refl _ b) (fun _ h => h)).get .couriers (by decide)
@[simp] theorem charge_keeps_env (i : Nat) (n : Nat) (b : Block) : (charge i n b).env = b.env := (frame_charge i n (Frame.refl _ b) (fun _ h => h)).get .env (by decide)
@[simp] theorem charge_keeps_outs (i : Nat) (n : Nat) (b : Block) : (charge i n b).outs = b.outs := (frame_charge i n (Frame.refl _ b) (fun _ h => h)).get .outs (by decide)
@[simp] theorem charge_keeps_pm (i : Nat) (n : Nat) (b : Block) : (charge i n b).pm = b.pm := (frame_charge i n (Frame.refl _ b) (fun _ h => h)).get .pm (by decide)
@[simp] theorem charge_keeps_svc (i : Nat) (n : Nat) (b : Block) : (charge i n b).svc = b.svc := (frame_charge i n (Frame.refl _ b) (fun _ h => h)).get .svc (by decide)
@[simp] theorem charge_keeps_keys (i : Nat) (n : Nat) (b : Block) : (charge i n b).keys = b.keys := (frame_charge i n (Frame.refl _ b) (fun _ h => h)).get .keys (by decide)
@[simp] theorem charge_keeps_cfg (i : Nat) (n : Nat) (b : Block) : (charge i n b).cfg = b.cfg := (frame_charge i n (Frame.refl _ b) (fun _ h => h)).get .cfg (by decide)
@[simp] theorem charge_keeps_arch (i : Nat) (n : Nat) (b : Block) : (charge i n b).arch = b.arch := (frame_charge i n (Frame.refl _ b) (fun _ h => h)).get .arch (by decide)
@[simp] theorem charge_keeps_letters (i : Nat) (n : Nat) (b : Block) : (charge i n b).letters = b.letters := (frame_charge i n (Frame.refl _ b) (fun _ h => h)).get .letters (by decide)
@[simp] theorem charge_keeps_free (i : Nat) (n : Nat) (b : Block) : (charge i n b).free = b.free := (frame_charge i n (Frame.refl _ b) (fun _ h => h)).get .free (by decide)
@[simp] theorem charge_keeps_policy (i : Nat) (n : Nat) (b : Block) : (charge i n b).ho.policy = b.ho.policy := (frame_charge i n (Frame.refl _ b) (fun _ h => h)).get .policy (by decide)
@[simp] theorem charge_keeps_resets (i : Nat) (n : Nat) (b : Block) : (charge i n b).ho.resets = b.ho.resets := (frame_charge i n (Frame.refl _ b) (fun _ h => h)).get .resets (by decide)
@[simp] theorem charge_keeps_fleet (i : Nat) (n : Nat) (b : Block) : (charge i n b).ho.fleet = b.ho.fleet := (frame_charge i n (Frame.refl _ b) (fun _ h => h)).get .fleet (by decide)
@[simp] theorem charge_keeps_parcel (i : Nat) (n : Nat) (b : Block) : (charge i n b).ho.parcel = b.ho.parcel := (frame_charge i n (Frame.refl _ b) (fun _ h => h)).get .parcel (by decide)
@[simp] theorem charge_keeps_image (i : Nat) (n : Nat) (b : Block) : (charge i n b).ho.image = b.ho.image := (frame_charge i n (Frame.refl _ b) (fun _ h => h)).get .image (by decide)
@[simp] theorem charge_keeps_post (i : Nat) (n : Nat) (b : Block) : (charge i n b).ho.post = b.ho.post := (frame_charge i n (Frame.refl _ b) (fun _ h => h)).get .post (by decide)
@[simp] theorem charge_keeps_routers (i : Nat) (n : Nat) (b : Block) : (charge i n b).units.routers = b.units.routers := (frame_charge i n (Frame.refl _ b) (fun _ h => h)).get .routers (by decide)
@[simp] theorem charge_keeps_nodes (i : Nat) (n : Nat) (b : Block) : (charge i n b).units.nodes = b.units.nodes := (frame_charge i n (Frame.refl _ b) (fun _ h => h)).get .nodes (by decide)
@[simp] theorem charge_keeps_couriers (i : Nat) (n : Nat) (b : Block) : (charge i n b).units.couriers = b.units.couriers := (frame_charge i n (Frame.refl _ b) (fun _ h => h)).get .couriers (by decide)
@[simp] theorem blockCore_keeps_env (i : Nat) (why : Nat) (b : Block) : (blockCore i why b).env = b.env := (frame_blockCore i why (Frame.refl _ b) (fun _ h => h)).get .env (by decide)
@[simp] theorem blockCore_keeps_outs (i : Nat) (why : Nat) (b : Block) : (blockCore i why b).outs = b.outs := (frame_blockCore i why (Frame.refl _ b) (fun _ h => h)).get .outs (by decide)
@[simp] theorem blockCore_keeps_pm (i : Nat) (why : Nat) (b : Block) : (blockCore i why b).pm = b.pm := (frame_blockCore i why (Frame.refl _ b) (fun _ h => h)).get .pm (by decide)
@[simp] theorem blockCore_keeps_svc (i : Nat) (why : Nat) (b : Block) : (blockCore i why b).svc = b.svc := (frame_blockCore i why (Frame.refl _ b) (fun _ h => h)).get .svc (by decide)
@[simp] theorem blockCore_keeps_keys (i : Nat) (why : Nat) (b : Block) : (blockCore i why b).keys = b.keys := (frame_blockCore i why (Frame.refl _ b) (fun _ h => h)).get .keys (by decide)
@[simp] theorem blockCore_keeps_cfg (i : Nat) (why : Nat) (b : Block) : (blockCore i why b).cfg = b.cfg := (frame_blockCore i why (Frame.refl _ b) (fun _ h => h)).get .cfg (by decide)
@[simp] theorem blockCore_keeps_arch (i : Nat) (why : Nat) (b : Block) : (blockCore i why b).arch = b.arch := (frame_blockCore i why (Frame.refl _ b) (fun _ h => h)).get .arch (by decide)
@[simp] theorem blockCore_keeps_stop (i : Nat) (why : Nat) (b : Block) : (blockCore i why b).stop = b.stop := (frame_blockCore i why (Frame.refl _ b) (fun _ h => h)).get .stop (by decide)
@[simp] theorem blockCore_keeps_dbg (i : Nat) (why : Nat) (b : Block) : (blockCore i why b).dbg = b.dbg := (frame_blockCore i why (Frame.refl _ b) (fun _ h => h)).get .dbg (by decide)
@[simp] theorem blockCore_keeps_letters (i : Nat) (why : Nat) (b : Block) : (blockCore i why b).letters = b.letters := (frame_blockCore i why (Frame.refl _ b) (fun _ h => h)).get .letters (by decide)
@[simp] theorem blockCore_keeps_free (i : Nat) (why : Nat) (b : Block) : (blockCore i why b).free = b.free := (frame_blockCore i why (Frame.refl _ b) (fun _ h => h)).get .free (by decide)
@[simp] theorem blockCore_keeps_mgmt (i : Nat) (why : Nat) (b : Block) : (blockCore i why b).ho.mgmt = b.ho.mgmt := (frame_blockCore i why (Frame.refl _ b) (fun _ h => h)).get .mgmt (by decide)
@[simp] theorem blockCore_keeps_mail (i : Nat) (why : Nat) (b : Block) : (blockCore i why b).ho.mail = b.ho.mail := (frame_blockCore i why (Frame.refl _ b) (fun _ h => h)).get .mail (by decide)
@[simp] theorem blockCore_keeps_job (i : Nat) (why : Nat) (b : Block) : (blockCore i why b).ho.job = b.ho.job := (frame_blockCore i why (Frame.refl _ b) (fun _ h => h)).get .job (by decide)
@[simp] theorem blockCore_keeps_policy (i : Nat) (why : Nat) (b : Block) : (blockCore i why b).ho.policy = b.ho.policy := (frame_blockCore i why (Frame.refl _ b) (fun _ h => h)).get .policy (by decide)
@[simp] theorem blockCore_keeps_resets (i : Nat) (why : Nat) (b : Block) : (blockCore i why b).ho.resets = b.ho.resets := (frame_blockCore i why (Frame.refl _ b) (fun _ h => h)).get .resets (by decide)
@[simp] theorem blockCore_keeps_fleet (i : Nat) (why : Nat) (b : Block) : (blockCore i why b).ho.fleet = b.ho.fleet := (frame_blockCore i why (Frame.refl _ b) (fun _ h => h)).get .fleet (by decide)
@[simp] theorem blockCore_keeps_parcel (i : Nat) (why : Nat) (b : Block) : (blockCore i why b).ho.parcel = b.ho.parcel := (frame_blockCore i why (Frame.refl _ b) (fun _ h => h)).get .parcel (by decide)
@[simp] theorem blockCore_keeps_image (i : Nat) (why : Nat) (b : Block) : (blockCore i why b).ho.image = b.ho.image := (frame_blockCore i why (Frame.refl _ b) (fun _ h => h)).get .image (by decide)
@[simp] theorem blockCore_keeps_post (i : Nat) (why : Nat) (b : Block) : (blockCore i why b).ho.post = b.ho.post := (frame_blockCore i why (Frame.refl _ b) (fun _ h => h)).get .post (by decide)
@[simp] theorem blockCore_keeps_cores (i : Nat) (why : Nat) (b : Block) : (blockCore i why b).units.cores = b.units.cores := (frame_blockCore i why (Frame.refl _ b) (fun _ h => h)).get .cores (by decide)
@[simp] theorem blockCore_keeps_offices (i : Nat) (why : Nat) (b : Block) : (blockCore i why b).units.offices = b.units.offices := (frame_blockCore i why (Frame.refl _ b) (fun _ h => h)).get .offices (by decide)
@[simp] theorem blockCore_keeps_routers (i : Nat) (why : Nat) (b : Block) : (blockCore i why b).units.routers = b.units.routers := (frame_blockCore i why (Frame.refl _ b) (fun _ h => h)).get .routers (by decide)
@[simp] theorem blockCore_keeps_nodes (i : Nat) (why : Nat) (b : Block) : (blockCore i why b).units.nodes = b.units.nodes := (frame_blockCore i why (Frame.refl _ b) (fun _ h => h)).get .nodes (by decide)
@[simp] theorem blockCore_keeps_couriers (i : Nat) (why : Nat) (b : Block) : (blockCore i why b).units.couriers = b.units.couriers := (frame_blockCore i why (Frame.refl _ b) (fun _ h => h)).get .couriers (by decide)
@[simp] theorem failLetterbox_keeps_env (i : Nat) (b : Block) : (failLetterbox i b).env = b.env := (frame_failLetterbox i (Frame.refl _ b) (fun _ h => h)).get .env (by decide)
@[simp] theorem failLetterbox_keeps_outs (i : Nat) (b : Block) : (failLetterbox i b).outs = b.outs := (frame_failLetterbox i (Frame.refl _ b) (fun _ h => h)).get .outs (by decide)
@[simp] theorem failLetterbox_keeps_pm (i : Nat) (b : Block) : (failLetterbox i b).pm = b.pm := (frame_failLetterbox i (Frame.refl _ b) (fun _ h => h)).get .pm (by decide)
@[simp] theorem failLetterbox_keeps_svc (i : Nat) (b : Block) : (failLetterbox i b).svc = b.svc := (frame_failLetterbox i (Frame.refl _ b) (fun _ h => h)).get .svc (by decide)
@[simp] theorem failLetterbox_keeps_keys (i : Nat) (b : Block) : (failLetterbox i b).keys = b.keys := (frame_failLetterbox i (Frame.refl _ b) (fun _ h => h)).get .keys (by decide)
@[simp] theorem failLetterbox_keeps_cfg (i : Nat) (b : Block) : (failLetterbox i b).cfg = b.cfg := (frame_failLetterbox i (Frame.refl _ b) (fun _ h => h)).get .cfg (by decide)
@[simp] theorem failLetterbox_keeps_arch (i : Nat) (b : Block) : (failLetterbox i b).arch = b.arch := (frame_failLetterbox i (Frame.refl _ b) (fun _ h => h)).get .arch (by decide)
@[simp] theorem failLetterbox_keeps_stop (i : Nat) (b : Block) : (failLetterbox i b).stop = b.stop := (frame_failLetterbox i (Frame.refl _ b) (fun _ h => h)).get .stop (by decide)
@[simp] theorem failLetterbox_keeps_dbg (i : Nat) (b : Block) : (failLetterbox i b).dbg = b.dbg := (frame_failLetterbox i (Frame.refl _ b) (fun _ h => h)).get .dbg (by decide)
@[simp] theorem failLetterbox_keeps_letters (i : Nat) (b : Block) : (failLetterbox i b).letters = b.letters := (frame_failLetterbox i (Frame.refl _ b) (fun _ h => h)).get .letters (by decide)
@[simp] theorem failLetterbox_keeps_free (i : Nat) (b : Block) : (failLetterbox i b).free = b.free := (frame_failLetterbox i (Frame.refl _ b) (fun _ h => h)).get .free (by decide)
@[simp] theorem failLetterbox_keeps_mgmt (i : Nat) (b : Block) : (failLetterbox i b).ho.mgmt = b.ho.mgmt := (frame_failLetterbox i (Frame.refl _ b) (fun _ h => h)).get .mgmt (by decide)
@[simp] theorem failLetterbox_keeps_mail (i : Nat) (b : Block) : (failLetterbox i b).ho.mail = b.ho.mail := (frame_failLetterbox i (Frame.refl _ b) (fun _ h => h)).get .mail (by decide)
@[simp] theorem failLetterbox_keeps_job (i : Nat) (b : Block) : (failLetterbox i b).ho.job = b.ho.job := (frame_failLetterbox i (Frame.refl _ b) (fun _ h => h)).get .job (by decide)
@[simp] theorem failLetterbox_keeps_policy (i : Nat) (b : Block) : (failLetterbox i b).ho.policy = b.ho.policy := (frame_failLetterbox i (Frame.refl _ b) (fun _ h => h)).get .policy (by decide)
@[simp] theorem failLetterbox_keeps_resets (i : Nat) (b : Block) : (failLetterbox i b).ho.resets = b.ho.resets := (frame_failLetterbox i (Frame.refl _ b) (fun _ h => h)).get .resets (by decide)
@[simp] theorem failLetterbox_keeps_fleet (i : Nat) (b : Block) : (failLetterbox i b).ho.fleet = b.ho.fleet := (frame_failLetterbox i (Frame.refl _ b) (fun _ h => h)).get .fleet (by decide)
@[simp] theorem failLetterbox_keeps_parcel (i : Nat) (b : Block) : (failLetterbox i b).ho.parcel = b.ho.parcel := (frame_failLetterbox i (Frame.refl _ b) (fun _ h => h)).get .parcel (by decide)
@[simp] theorem failLetterbox_keeps_image (i : Nat) (b : Block) : (failLetterbox i b).ho.image = b.ho.image := (frame_failLetterbox i (Frame.refl _ b) (fun _ h => h)).get .image (by decide)
@[simp] theorem failLetterbox_keeps_post (i : Nat) (b : Block) : (failLetterbox i b).ho.post = b.ho.post := (frame_failLetterbox i (Frame.refl _ b) (fun _ h => h)).get .post (by decide)
@[simp] theorem failLetterbox_keeps_routers (i : Nat) (b : Block) : (failLetterbox i b).units.routers = b.units.routers := (frame_failLetterbox i (Frame.refl _ b) (fun _ h => h)).get .routers (by decide)
@[simp] theorem failLetterbox_keeps_nodes (i : Nat) (b : Block) : (failLetterbox i b).units.nodes = b.units.nodes := (frame_failLetterbox i (Frame.refl _ b) (fun _ h => h)).get .nodes (by decide)
@[simp] theorem failLetterbox_keeps_couriers (i : Nat) (b : Block) : (failLetterbox i b).units.couriers = b.units.couriers := (frame_failLetterbox i (Frame.refl _ b) (fun _ h => h)).get .couriers (by decide)
@[simp] theorem issue_keeps_env (o : Outst) (zeroTag : Bool) (final : Bool) (more : Bool) (status : Nat) (part : Nat) (parts : Nat) (detail : Nat) (res : List Byte) (b : Block) : (issue o zeroTag final more status part parts detail res b).env = b.env := (frame_issue o zeroTag final more status part parts detail res (Frame.refl _ b) (fun _ h => h)).get .env (by decide)
@[simp] theorem issue_keeps_outs (o : Outst) (zeroTag : Bool) (final : Bool) (more : Bool) (status : Nat) (part : Nat) (parts : Nat) (detail : Nat) (res : List Byte) (b : Block) : (issue o zeroTag final more status part parts detail res b).outs = b.outs := (frame_issue o zeroTag final more status part parts detail res (Frame.refl _ b) (fun _ h => h)).get .outs (by decide)
@[simp] theorem issue_keeps_pm (o : Outst) (zeroTag : Bool) (final : Bool) (more : Bool) (status : Nat) (part : Nat) (parts : Nat) (detail : Nat) (res : List Byte) (b : Block) : (issue o zeroTag final more status part parts detail res b).pm = b.pm := (frame_issue o zeroTag final more status part parts detail res (Frame.refl _ b) (fun _ h => h)).get .pm (by decide)
@[simp] theorem issue_keeps_svc (o : Outst) (zeroTag : Bool) (final : Bool) (more : Bool) (status : Nat) (part : Nat) (parts : Nat) (detail : Nat) (res : List Byte) (b : Block) : (issue o zeroTag final more status part parts detail res b).svc = b.svc := (frame_issue o zeroTag final more status part parts detail res (Frame.refl _ b) (fun _ h => h)).get .svc (by decide)
@[simp] theorem issue_keeps_keys (o : Outst) (zeroTag : Bool) (final : Bool) (more : Bool) (status : Nat) (part : Nat) (parts : Nat) (detail : Nat) (res : List Byte) (b : Block) : (issue o zeroTag final more status part parts detail res b).keys = b.keys := (frame_issue o zeroTag final more status part parts detail res (Frame.refl _ b) (fun _ h => h)).get .keys (by decide)
@[simp] theorem issue_keeps_cfg (o : Outst) (zeroTag : Bool) (final : Bool) (more : Bool) (status : Nat) (part : Nat) (parts : Nat) (detail : Nat) (res : List Byte) (b : Block) : (issue o zeroTag final more status part parts detail res b).cfg = b.cfg := (frame_issue o zeroTag final more status part parts detail res (Frame.refl _ b) (fun _ h => h)).get .cfg (by decide)
@[simp] theorem issue_keeps_ledger (o : Outst) (zeroTag : Bool) (final : Bool) (more : Bool) (status : Nat) (part : Nat) (parts : Nat) (detail : Nat) (res : List Byte) (b : Block) : (issue o zeroTag final more status part parts detail res b).ledger = b.ledger := (frame_issue o zeroTag final more status part parts detail res (Frame.refl _ b) (fun _ h => h)).get .ledger (by decide)
@[simp] theorem issue_keeps_arch (o : Outst) (zeroTag : Bool) (final : Bool) (more : Bool) (status : Nat) (part : Nat) (parts : Nat) (detail : Nat) (res : List Byte) (b : Block) : (issue o zeroTag final more status part parts detail res b).arch = b.arch := (frame_issue o zeroTag final more status part parts detail res (Frame.refl _ b) (fun _ h => h)).get .arch (by decide)
@[simp] theorem issue_keeps_stop (o : Outst) (zeroTag : Bool) (final : Bool) (more : Bool) (status : Nat) (part : Nat) (parts : Nat) (detail : Nat) (res : List Byte) (b : Block) : (issue o zeroTag final more status part parts detail res b).stop = b.stop := (frame_issue o zeroTag final more status part parts detail res (Frame.refl _ b) (fun _ h => h)).get .stop (by decide)
@[simp] theorem issue_keeps_dbg (o : Outst) (zeroTag : Bool) (final : Bool) (more : Bool) (status : Nat) (part : Nat) (parts : Nat) (detail : Nat) (res : List Byte) (b : Block) : (issue o zeroTag final more status part parts detail res b).dbg = b.dbg := (frame_issue o zeroTag final more status part parts detail res (Frame.refl _ b) (fun _ h => h)).get .dbg (by decide)
@[simp] theorem issue_keeps_letters (o : Outst) (zeroTag : Bool) (final : Bool) (more : Bool) (status : Nat) (part : Nat) (parts : Nat) (detail : Nat) (res : List Byte) (b : Block) : (issue o zeroTag final more status part parts detail res b).letters = b.letters := (frame_issue o zeroTag final more status part parts detail res (Frame.refl _ b) (fun _ h => h)).get .letters (by decide)
@[simp] theorem issue_keeps_free (o : Outst) (zeroTag : Bool) (final : Bool) (more : Bool) (status : Nat) (part : Nat) (parts : Nat) (detail : Nat) (res : List Byte) (b : Block) : (issue o zeroTag final more status part parts detail res b).free = b.free := (frame_issue o zeroTag final more status part parts detail res (Frame.refl _ b) (fun _ h => h)).get .free (by decide)
@[simp] theorem issue_keeps_job (o : Outst) (zeroTag : Bool) (final : Bool) (more : Bool) (status : Nat) (part : Nat) (parts : Nat) (detail : Nat) (res : List Byte) (b : Block) : (issue o zeroTag final more status part parts detail res b).ho.job = b.ho.job := (frame_issue o zeroTag final more status part parts detail res (Frame.refl _ b) (fun _ h => h)).get .job (by decide)
@[simp] theorem issue_keeps_policy (o : Outst) (zeroTag : Bool) (final : Bool) (more : Bool) (status : Nat) (part : Nat) (parts : Nat) (detail : Nat) (res : List Byte) (b : Block) : (issue o zeroTag final more status part parts detail res b).ho.policy = b.ho.policy := (frame_issue o zeroTag final more status part parts detail res (Frame.refl _ b) (fun _ h => h)).get .policy (by decide)
@[simp] theorem issue_keeps_resets (o : Outst) (zeroTag : Bool) (final : Bool) (more : Bool) (status : Nat) (part : Nat) (parts : Nat) (detail : Nat) (res : List Byte) (b : Block) : (issue o zeroTag final more status part parts detail res b).ho.resets = b.ho.resets := (frame_issue o zeroTag final more status part parts detail res (Frame.refl _ b) (fun _ h => h)).get .resets (by decide)
@[simp] theorem issue_keeps_fleet (o : Outst) (zeroTag : Bool) (final : Bool) (more : Bool) (status : Nat) (part : Nat) (parts : Nat) (detail : Nat) (res : List Byte) (b : Block) : (issue o zeroTag final more status part parts detail res b).ho.fleet = b.ho.fleet := (frame_issue o zeroTag final more status part parts detail res (Frame.refl _ b) (fun _ h => h)).get .fleet (by decide)
@[simp] theorem issue_keeps_parcel (o : Outst) (zeroTag : Bool) (final : Bool) (more : Bool) (status : Nat) (part : Nat) (parts : Nat) (detail : Nat) (res : List Byte) (b : Block) : (issue o zeroTag final more status part parts detail res b).ho.parcel = b.ho.parcel := (frame_issue o zeroTag final more status part parts detail res (Frame.refl _ b) (fun _ h => h)).get .parcel (by decide)
@[simp] theorem issue_keeps_image (o : Outst) (zeroTag : Bool) (final : Bool) (more : Bool) (status : Nat) (part : Nat) (parts : Nat) (detail : Nat) (res : List Byte) (b : Block) : (issue o zeroTag final more status part parts detail res b).ho.image = b.ho.image := (frame_issue o zeroTag final more status part parts detail res (Frame.refl _ b) (fun _ h => h)).get .image (by decide)
@[simp] theorem issue_keeps_bm (o : Outst) (zeroTag : Bool) (final : Bool) (more : Bool) (status : Nat) (part : Nat) (parts : Nat) (detail : Nat) (res : List Byte) (b : Block) : (issue o zeroTag final more status part parts detail res b).ho.bm = b.ho.bm := (frame_issue o zeroTag final more status part parts detail res (Frame.refl _ b) (fun _ h => h)).get .bm (by decide)
@[simp] theorem issue_keeps_cores (o : Outst) (zeroTag : Bool) (final : Bool) (more : Bool) (status : Nat) (part : Nat) (parts : Nat) (detail : Nat) (res : List Byte) (b : Block) : (issue o zeroTag final more status part parts detail res b).units.cores = b.units.cores := (frame_issue o zeroTag final more status part parts detail res (Frame.refl _ b) (fun _ h => h)).get .cores (by decide)
@[simp] theorem issue_keeps_offices (o : Outst) (zeroTag : Bool) (final : Bool) (more : Bool) (status : Nat) (part : Nat) (parts : Nat) (detail : Nat) (res : List Byte) (b : Block) : (issue o zeroTag final more status part parts detail res b).units.offices = b.units.offices := (frame_issue o zeroTag final more status part parts detail res (Frame.refl _ b) (fun _ h => h)).get .offices (by decide)
@[simp] theorem issue_keeps_routers (o : Outst) (zeroTag : Bool) (final : Bool) (more : Bool) (status : Nat) (part : Nat) (parts : Nat) (detail : Nat) (res : List Byte) (b : Block) : (issue o zeroTag final more status part parts detail res b).units.routers = b.units.routers := (frame_issue o zeroTag final more status part parts detail res (Frame.refl _ b) (fun _ h => h)).get .routers (by decide)
@[simp] theorem issue_keeps_nodes (o : Outst) (zeroTag : Bool) (final : Bool) (more : Bool) (status : Nat) (part : Nat) (parts : Nat) (detail : Nat) (res : List Byte) (b : Block) : (issue o zeroTag final more status part parts detail res b).units.nodes = b.units.nodes := (frame_issue o zeroTag final more status part parts detail res (Frame.refl _ b) (fun _ h => h)).get .nodes (by decide)
@[simp] theorem issue_keeps_couriers (o : Outst) (zeroTag : Bool) (final : Bool) (more : Bool) (status : Nat) (part : Nat) (parts : Nat) (detail : Nat) (res : List Byte) (b : Block) : (issue o zeroTag final more status part parts detail res b).units.couriers = b.units.couriers := (frame_issue o zeroTag final more status part parts detail res (Frame.refl _ b) (fun _ h => h)).get .couriers (by decide)
@[simp] theorem putReceipt_keeps_env (r : Nat) (reply : Option (Nat × Nat × Nat)) (rc : List Byte) (b : Block) : (putReceipt r reply rc b).env = b.env := (frame_putReceipt r reply rc (Frame.refl _ b) (fun _ h => h)).get .env (by decide)
@[simp] theorem putReceipt_keeps_outs (r : Nat) (reply : Option (Nat × Nat × Nat)) (rc : List Byte) (b : Block) : (putReceipt r reply rc b).outs = b.outs := (frame_putReceipt r reply rc (Frame.refl _ b) (fun _ h => h)).get .outs (by decide)
@[simp] theorem putReceipt_keeps_pm (r : Nat) (reply : Option (Nat × Nat × Nat)) (rc : List Byte) (b : Block) : (putReceipt r reply rc b).pm = b.pm := (frame_putReceipt r reply rc (Frame.refl _ b) (fun _ h => h)).get .pm (by decide)
@[simp] theorem putReceipt_keeps_svc (r : Nat) (reply : Option (Nat × Nat × Nat)) (rc : List Byte) (b : Block) : (putReceipt r reply rc b).svc = b.svc := (frame_putReceipt r reply rc (Frame.refl _ b) (fun _ h => h)).get .svc (by decide)
@[simp] theorem putReceipt_keeps_keys (r : Nat) (reply : Option (Nat × Nat × Nat)) (rc : List Byte) (b : Block) : (putReceipt r reply rc b).keys = b.keys := (frame_putReceipt r reply rc (Frame.refl _ b) (fun _ h => h)).get .keys (by decide)
@[simp] theorem putReceipt_keeps_cfg (r : Nat) (reply : Option (Nat × Nat × Nat)) (rc : List Byte) (b : Block) : (putReceipt r reply rc b).cfg = b.cfg := (frame_putReceipt r reply rc (Frame.refl _ b) (fun _ h => h)).get .cfg (by decide)
@[simp] theorem putReceipt_keeps_ledger (r : Nat) (reply : Option (Nat × Nat × Nat)) (rc : List Byte) (b : Block) : (putReceipt r reply rc b).ledger = b.ledger := (frame_putReceipt r reply rc (Frame.refl _ b) (fun _ h => h)).get .ledger (by decide)
@[simp] theorem putReceipt_keeps_arch (r : Nat) (reply : Option (Nat × Nat × Nat)) (rc : List Byte) (b : Block) : (putReceipt r reply rc b).arch = b.arch := (frame_putReceipt r reply rc (Frame.refl _ b) (fun _ h => h)).get .arch (by decide)
@[simp] theorem putReceipt_keeps_stop (r : Nat) (reply : Option (Nat × Nat × Nat)) (rc : List Byte) (b : Block) : (putReceipt r reply rc b).stop = b.stop := (frame_putReceipt r reply rc (Frame.refl _ b) (fun _ h => h)).get .stop (by decide)
@[simp] theorem putReceipt_keeps_dbg (r : Nat) (reply : Option (Nat × Nat × Nat)) (rc : List Byte) (b : Block) : (putReceipt r reply rc b).dbg = b.dbg := (frame_putReceipt r reply rc (Frame.refl _ b) (fun _ h => h)).get .dbg (by decide)
@[simp] theorem putReceipt_keeps_letters (r : Nat) (reply : Option (Nat × Nat × Nat)) (rc : List Byte) (b : Block) : (putReceipt r reply rc b).letters = b.letters := (frame_putReceipt r reply rc (Frame.refl _ b) (fun _ h => h)).get .letters (by decide)
@[simp] theorem putReceipt_keeps_free (r : Nat) (reply : Option (Nat × Nat × Nat)) (rc : List Byte) (b : Block) : (putReceipt r reply rc b).free = b.free := (frame_putReceipt r reply rc (Frame.refl _ b) (fun _ h => h)).get .free (by decide)
@[simp] theorem putReceipt_keeps_job (r : Nat) (reply : Option (Nat × Nat × Nat)) (rc : List Byte) (b : Block) : (putReceipt r reply rc b).ho.job = b.ho.job := (frame_putReceipt r reply rc (Frame.refl _ b) (fun _ h => h)).get .job (by decide)
@[simp] theorem putReceipt_keeps_policy (r : Nat) (reply : Option (Nat × Nat × Nat)) (rc : List Byte) (b : Block) : (putReceipt r reply rc b).ho.policy = b.ho.policy := (frame_putReceipt r reply rc (Frame.refl _ b) (fun _ h => h)).get .policy (by decide)
@[simp] theorem putReceipt_keeps_resets (r : Nat) (reply : Option (Nat × Nat × Nat)) (rc : List Byte) (b : Block) : (putReceipt r reply rc b).ho.resets = b.ho.resets := (frame_putReceipt r reply rc (Frame.refl _ b) (fun _ h => h)).get .resets (by decide)
@[simp] theorem putReceipt_keeps_fleet (r : Nat) (reply : Option (Nat × Nat × Nat)) (rc : List Byte) (b : Block) : (putReceipt r reply rc b).ho.fleet = b.ho.fleet := (frame_putReceipt r reply rc (Frame.refl _ b) (fun _ h => h)).get .fleet (by decide)
@[simp] theorem putReceipt_keeps_parcel (r : Nat) (reply : Option (Nat × Nat × Nat)) (rc : List Byte) (b : Block) : (putReceipt r reply rc b).ho.parcel = b.ho.parcel := (frame_putReceipt r reply rc (Frame.refl _ b) (fun _ h => h)).get .parcel (by decide)
@[simp] theorem putReceipt_keeps_image (r : Nat) (reply : Option (Nat × Nat × Nat)) (rc : List Byte) (b : Block) : (putReceipt r reply rc b).ho.image = b.ho.image := (frame_putReceipt r reply rc (Frame.refl _ b) (fun _ h => h)).get .image (by decide)
@[simp] theorem putReceipt_keeps_bm (r : Nat) (reply : Option (Nat × Nat × Nat)) (rc : List Byte) (b : Block) : (putReceipt r reply rc b).ho.bm = b.ho.bm := (frame_putReceipt r reply rc (Frame.refl _ b) (fun _ h => h)).get .bm (by decide)
@[simp] theorem putReceipt_keeps_cores (r : Nat) (reply : Option (Nat × Nat × Nat)) (rc : List Byte) (b : Block) : (putReceipt r reply rc b).units.cores = b.units.cores := (frame_putReceipt r reply rc (Frame.refl _ b) (fun _ h => h)).get .cores (by decide)
@[simp] theorem putReceipt_keeps_offices (r : Nat) (reply : Option (Nat × Nat × Nat)) (rc : List Byte) (b : Block) : (putReceipt r reply rc b).units.offices = b.units.offices := (frame_putReceipt r reply rc (Frame.refl _ b) (fun _ h => h)).get .offices (by decide)
@[simp] theorem putReceipt_keeps_routers (r : Nat) (reply : Option (Nat × Nat × Nat)) (rc : List Byte) (b : Block) : (putReceipt r reply rc b).units.routers = b.units.routers := (frame_putReceipt r reply rc (Frame.refl _ b) (fun _ h => h)).get .routers (by decide)
@[simp] theorem putReceipt_keeps_nodes (r : Nat) (reply : Option (Nat × Nat × Nat)) (rc : List Byte) (b : Block) : (putReceipt r reply rc b).units.nodes = b.units.nodes := (frame_putReceipt r reply rc (Frame.refl _ b) (fun _ h => h)).get .nodes (by decide)
@[simp] theorem putReceipt_keeps_couriers (r : Nat) (reply : Option (Nat × Nat × Nat)) (rc : List Byte) (b : Block) : (putReceipt r reply rc b).units.couriers = b.units.couriers := (frame_putReceipt r reply rc (Frame.refl _ b) (fun _ h => h)).get .couriers (by decide)
@[simp] theorem advanceHead_keeps_env (r : Nat) (b : Block) : (advanceHead r b).env = b.env := (frame_advanceHead r (Frame.refl _ b) (fun _ h => h)).get .env (by decide)
@[simp] theorem advanceHead_keeps_outs (r : Nat) (b : Block) : (advanceHead r b).outs = b.outs := (frame_advanceHead r (Frame.refl _ b) (fun _ h => h)).get .outs (by decide)
@[simp] theorem advanceHead_keeps_pm (r : Nat) (b : Block) : (advanceHead r b).pm = b.pm := (frame_advanceHead r (Frame.refl _ b) (fun _ h => h)).get .pm (by decide)
@[simp] theorem advanceHead_keeps_svc (r : Nat) (b : Block) : (advanceHead r b).svc = b.svc := (frame_advanceHead r (Frame.refl _ b) (fun _ h => h)).get .svc (by decide)
@[simp] theorem advanceHead_keeps_keys (r : Nat) (b : Block) : (advanceHead r b).keys = b.keys := (frame_advanceHead r (Frame.refl _ b) (fun _ h => h)).get .keys (by decide)
@[simp] theorem advanceHead_keeps_cfg (r : Nat) (b : Block) : (advanceHead r b).cfg = b.cfg := (frame_advanceHead r (Frame.refl _ b) (fun _ h => h)).get .cfg (by decide)
@[simp] theorem advanceHead_keeps_ledger (r : Nat) (b : Block) : (advanceHead r b).ledger = b.ledger := (frame_advanceHead r (Frame.refl _ b) (fun _ h => h)).get .ledger (by decide)
@[simp] theorem advanceHead_keeps_arch (r : Nat) (b : Block) : (advanceHead r b).arch = b.arch := (frame_advanceHead r (Frame.refl _ b) (fun _ h => h)).get .arch (by decide)
@[simp] theorem advanceHead_keeps_stop (r : Nat) (b : Block) : (advanceHead r b).stop = b.stop := (frame_advanceHead r (Frame.refl _ b) (fun _ h => h)).get .stop (by decide)
@[simp] theorem advanceHead_keeps_dbg (r : Nat) (b : Block) : (advanceHead r b).dbg = b.dbg := (frame_advanceHead r (Frame.refl _ b) (fun _ h => h)).get .dbg (by decide)
@[simp] theorem advanceHead_keeps_letters (r : Nat) (b : Block) : (advanceHead r b).letters = b.letters := (frame_advanceHead r (Frame.refl _ b) (fun _ h => h)).get .letters (by decide)
@[simp] theorem advanceHead_keeps_free (r : Nat) (b : Block) : (advanceHead r b).free = b.free := (frame_advanceHead r (Frame.refl _ b) (fun _ h => h)).get .free (by decide)
@[simp] theorem advanceHead_keeps_mgmt (r : Nat) (b : Block) : (advanceHead r b).ho.mgmt = b.ho.mgmt := (frame_advanceHead r (Frame.refl _ b) (fun _ h => h)).get .mgmt (by decide)
@[simp] theorem advanceHead_keeps_job (r : Nat) (b : Block) : (advanceHead r b).ho.job = b.ho.job := (frame_advanceHead r (Frame.refl _ b) (fun _ h => h)).get .job (by decide)
@[simp] theorem advanceHead_keeps_policy (r : Nat) (b : Block) : (advanceHead r b).ho.policy = b.ho.policy := (frame_advanceHead r (Frame.refl _ b) (fun _ h => h)).get .policy (by decide)
@[simp] theorem advanceHead_keeps_resets (r : Nat) (b : Block) : (advanceHead r b).ho.resets = b.ho.resets := (frame_advanceHead r (Frame.refl _ b) (fun _ h => h)).get .resets (by decide)
@[simp] theorem advanceHead_keeps_fleet (r : Nat) (b : Block) : (advanceHead r b).ho.fleet = b.ho.fleet := (frame_advanceHead r (Frame.refl _ b) (fun _ h => h)).get .fleet (by decide)
@[simp] theorem advanceHead_keeps_parcel (r : Nat) (b : Block) : (advanceHead r b).ho.parcel = b.ho.parcel := (frame_advanceHead r (Frame.refl _ b) (fun _ h => h)).get .parcel (by decide)
@[simp] theorem advanceHead_keeps_image (r : Nat) (b : Block) : (advanceHead r b).ho.image = b.ho.image := (frame_advanceHead r (Frame.refl _ b) (fun _ h => h)).get .image (by decide)
@[simp] theorem advanceHead_keeps_post (r : Nat) (b : Block) : (advanceHead r b).ho.post = b.ho.post := (frame_advanceHead r (Frame.refl _ b) (fun _ h => h)).get .post (by decide)
@[simp] theorem advanceHead_keeps_bm (r : Nat) (b : Block) : (advanceHead r b).ho.bm = b.ho.bm := (frame_advanceHead r (Frame.refl _ b) (fun _ h => h)).get .bm (by decide)
@[simp] theorem advanceHead_keeps_cores (r : Nat) (b : Block) : (advanceHead r b).units.cores = b.units.cores := (frame_advanceHead r (Frame.refl _ b) (fun _ h => h)).get .cores (by decide)
@[simp] theorem advanceHead_keeps_offices (r : Nat) (b : Block) : (advanceHead r b).units.offices = b.units.offices := (frame_advanceHead r (Frame.refl _ b) (fun _ h => h)).get .offices (by decide)
@[simp] theorem advanceHead_keeps_routers (r : Nat) (b : Block) : (advanceHead r b).units.routers = b.units.routers := (frame_advanceHead r (Frame.refl _ b) (fun _ h => h)).get .routers (by decide)
@[simp] theorem advanceHead_keeps_nodes (r : Nat) (b : Block) : (advanceHead r b).units.nodes = b.units.nodes := (frame_advanceHead r (Frame.refl _ b) (fun _ h => h)).get .nodes (by decide)
@[simp] theorem advanceHead_keeps_couriers (r : Nat) (b : Block) : (advanceHead r b).units.couriers = b.units.couriers := (frame_advanceHead r (Frame.refl _ b) (fun _ h => h)).get .couriers (by decide)
@[simp] theorem pump_keeps_env (r : Nat) (fuel : Nat) (b : Block) : (pump r fuel b).env = b.env := (frame_pump r fuel (Frame.refl _ b) (fun _ h => h)).get .env (by decide)
@[simp] theorem pump_keeps_outs (r : Nat) (fuel : Nat) (b : Block) : (pump r fuel b).outs = b.outs := (frame_pump r fuel (Frame.refl _ b) (fun _ h => h)).get .outs (by decide)
@[simp] theorem pump_keeps_pm (r : Nat) (fuel : Nat) (b : Block) : (pump r fuel b).pm = b.pm := (frame_pump r fuel (Frame.refl _ b) (fun _ h => h)).get .pm (by decide)
@[simp] theorem pump_keeps_svc (r : Nat) (fuel : Nat) (b : Block) : (pump r fuel b).svc = b.svc := (frame_pump r fuel (Frame.refl _ b) (fun _ h => h)).get .svc (by decide)
@[simp] theorem pump_keeps_keys (r : Nat) (fuel : Nat) (b : Block) : (pump r fuel b).keys = b.keys := (frame_pump r fuel (Frame.refl _ b) (fun _ h => h)).get .keys (by decide)
@[simp] theorem pump_keeps_cfg (r : Nat) (fuel : Nat) (b : Block) : (pump r fuel b).cfg = b.cfg := (frame_pump r fuel (Frame.refl _ b) (fun _ h => h)).get .cfg (by decide)
@[simp] theorem pump_keeps_arch (r : Nat) (fuel : Nat) (b : Block) : (pump r fuel b).arch = b.arch := (frame_pump r fuel (Frame.refl _ b) (fun _ h => h)).get .arch (by decide)
@[simp] theorem pump_keeps_stop (r : Nat) (fuel : Nat) (b : Block) : (pump r fuel b).stop = b.stop := (frame_pump r fuel (Frame.refl _ b) (fun _ h => h)).get .stop (by decide)
@[simp] theorem pump_keeps_dbg (r : Nat) (fuel : Nat) (b : Block) : (pump r fuel b).dbg = b.dbg := (frame_pump r fuel (Frame.refl _ b) (fun _ h => h)).get .dbg (by decide)
@[simp] theorem pump_keeps_letters (r : Nat) (fuel : Nat) (b : Block) : (pump r fuel b).letters = b.letters := (frame_pump r fuel (Frame.refl _ b) (fun _ h => h)).get .letters (by decide)
@[simp] theorem pump_keeps_free (r : Nat) (fuel : Nat) (b : Block) : (pump r fuel b).free = b.free := (frame_pump r fuel (Frame.refl _ b) (fun _ h => h)).get .free (by decide)
@[simp] theorem pump_keeps_job (r : Nat) (fuel : Nat) (b : Block) : (pump r fuel b).ho.job = b.ho.job := (frame_pump r fuel (Frame.refl _ b) (fun _ h => h)).get .job (by decide)
@[simp] theorem pump_keeps_policy (r : Nat) (fuel : Nat) (b : Block) : (pump r fuel b).ho.policy = b.ho.policy := (frame_pump r fuel (Frame.refl _ b) (fun _ h => h)).get .policy (by decide)
@[simp] theorem pump_keeps_resets (r : Nat) (fuel : Nat) (b : Block) : (pump r fuel b).ho.resets = b.ho.resets := (frame_pump r fuel (Frame.refl _ b) (fun _ h => h)).get .resets (by decide)
@[simp] theorem pump_keeps_fleet (r : Nat) (fuel : Nat) (b : Block) : (pump r fuel b).ho.fleet = b.ho.fleet := (frame_pump r fuel (Frame.refl _ b) (fun _ h => h)).get .fleet (by decide)
@[simp] theorem pump_keeps_parcel (r : Nat) (fuel : Nat) (b : Block) : (pump r fuel b).ho.parcel = b.ho.parcel := (frame_pump r fuel (Frame.refl _ b) (fun _ h => h)).get .parcel (by decide)
@[simp] theorem pump_keeps_image (r : Nat) (fuel : Nat) (b : Block) : (pump r fuel b).ho.image = b.ho.image := (frame_pump r fuel (Frame.refl _ b) (fun _ h => h)).get .image (by decide)
@[simp] theorem pump_keeps_bm (r : Nat) (fuel : Nat) (b : Block) : (pump r fuel b).ho.bm = b.ho.bm := (frame_pump r fuel (Frame.refl _ b) (fun _ h => h)).get .bm (by decide)
@[simp] theorem pump_keeps_cores (r : Nat) (fuel : Nat) (b : Block) : (pump r fuel b).units.cores = b.units.cores := (frame_pump r fuel (Frame.refl _ b) (fun _ h => h)).get .cores (by decide)
@[simp] theorem pump_keeps_offices (r : Nat) (fuel : Nat) (b : Block) : (pump r fuel b).units.offices = b.units.offices := (frame_pump r fuel (Frame.refl _ b) (fun _ h => h)).get .offices (by decide)
@[simp] theorem pump_keeps_routers (r : Nat) (fuel : Nat) (b : Block) : (pump r fuel b).units.routers = b.units.routers := (frame_pump r fuel (Frame.refl _ b) (fun _ h => h)).get .routers (by decide)
@[simp] theorem pump_keeps_nodes (r : Nat) (fuel : Nat) (b : Block) : (pump r fuel b).units.nodes = b.units.nodes := (frame_pump r fuel (Frame.refl _ b) (fun _ h => h)).get .nodes (by decide)
@[simp] theorem pump_keeps_couriers (r : Nat) (fuel : Nat) (b : Block) : (pump r fuel b).units.couriers = b.units.couriers := (frame_pump r fuel (Frame.refl _ b) (fun _ h => h)).get .couriers (by decide)
@[simp] theorem nextLetter_keeps_env (r : Nat) (b : Block) : (nextLetter r b).env = b.env := (frame_nextLetter r (Frame.refl _ b) (fun _ h => h)).get .env (by decide)
@[simp] theorem nextLetter_keeps_outs (r : Nat) (b : Block) : (nextLetter r b).outs = b.outs := (frame_nextLetter r (Frame.refl _ b) (fun _ h => h)).get .outs (by decide)
@[simp] theorem nextLetter_keeps_pm (r : Nat) (b : Block) : (nextLetter r b).pm = b.pm := (frame_nextLetter r (Frame.refl _ b) (fun _ h => h)).get .pm (by decide)
@[simp] theorem nextLetter_keeps_svc (r : Nat) (b : Block) : (nextLetter r b).svc = b.svc := (frame_nextLetter r (Frame.refl _ b) (fun _ h => h)).get .svc (by decide)
@[simp] theorem nextLetter_keeps_keys (r : Nat) (b : Block) : (nextLetter r b).keys = b.keys := (frame_nextLetter r (Frame.refl _ b) (fun _ h => h)).get .keys (by decide)
@[simp] theorem nextLetter_keeps_cfg (r : Nat) (b : Block) : (nextLetter r b).cfg = b.cfg := (frame_nextLetter r (Frame.refl _ b) (fun _ h => h)).get .cfg (by decide)
@[simp] theorem nextLetter_keeps_arch (r : Nat) (b : Block) : (nextLetter r b).arch = b.arch := (frame_nextLetter r (Frame.refl _ b) (fun _ h => h)).get .arch (by decide)
@[simp] theorem nextLetter_keeps_stop (r : Nat) (b : Block) : (nextLetter r b).stop = b.stop := (frame_nextLetter r (Frame.refl _ b) (fun _ h => h)).get .stop (by decide)
@[simp] theorem nextLetter_keeps_dbg (r : Nat) (b : Block) : (nextLetter r b).dbg = b.dbg := (frame_nextLetter r (Frame.refl _ b) (fun _ h => h)).get .dbg (by decide)
@[simp] theorem nextLetter_keeps_letters (r : Nat) (b : Block) : (nextLetter r b).letters = b.letters := (frame_nextLetter r (Frame.refl _ b) (fun _ h => h)).get .letters (by decide)
@[simp] theorem nextLetter_keeps_free (r : Nat) (b : Block) : (nextLetter r b).free = b.free := (frame_nextLetter r (Frame.refl _ b) (fun _ h => h)).get .free (by decide)
@[simp] theorem nextLetter_keeps_job (r : Nat) (b : Block) : (nextLetter r b).ho.job = b.ho.job := (frame_nextLetter r (Frame.refl _ b) (fun _ h => h)).get .job (by decide)
@[simp] theorem nextLetter_keeps_policy (r : Nat) (b : Block) : (nextLetter r b).ho.policy = b.ho.policy := (frame_nextLetter r (Frame.refl _ b) (fun _ h => h)).get .policy (by decide)
@[simp] theorem nextLetter_keeps_resets (r : Nat) (b : Block) : (nextLetter r b).ho.resets = b.ho.resets := (frame_nextLetter r (Frame.refl _ b) (fun _ h => h)).get .resets (by decide)
@[simp] theorem nextLetter_keeps_fleet (r : Nat) (b : Block) : (nextLetter r b).ho.fleet = b.ho.fleet := (frame_nextLetter r (Frame.refl _ b) (fun _ h => h)).get .fleet (by decide)
@[simp] theorem nextLetter_keeps_parcel (r : Nat) (b : Block) : (nextLetter r b).ho.parcel = b.ho.parcel := (frame_nextLetter r (Frame.refl _ b) (fun _ h => h)).get .parcel (by decide)
@[simp] theorem nextLetter_keeps_image (r : Nat) (b : Block) : (nextLetter r b).ho.image = b.ho.image := (frame_nextLetter r (Frame.refl _ b) (fun _ h => h)).get .image (by decide)
@[simp] theorem nextLetter_keeps_bm (r : Nat) (b : Block) : (nextLetter r b).ho.bm = b.ho.bm := (frame_nextLetter r (Frame.refl _ b) (fun _ h => h)).get .bm (by decide)
@[simp] theorem nextLetter_keeps_cores (r : Nat) (b : Block) : (nextLetter r b).units.cores = b.units.cores := (frame_nextLetter r (Frame.refl _ b) (fun _ h => h)).get .cores (by decide)
@[simp] theorem nextLetter_keeps_offices (r : Nat) (b : Block) : (nextLetter r b).units.offices = b.units.offices := (frame_nextLetter r (Frame.refl _ b) (fun _ h => h)).get .offices (by decide)
@[simp] theorem nextLetter_keeps_routers (r : Nat) (b : Block) : (nextLetter r b).units.routers = b.units.routers := (frame_nextLetter r (Frame.refl _ b) (fun _ h => h)).get .routers (by decide)
@[simp] theorem nextLetter_keeps_nodes (r : Nat) (b : Block) : (nextLetter r b).units.nodes = b.units.nodes := (frame_nextLetter r (Frame.refl _ b) (fun _ h => h)).get .nodes (by decide)
@[simp] theorem nextLetter_keeps_couriers (r : Nat) (b : Block) : (nextLetter r b).units.couriers = b.units.couriers := (frame_nextLetter r (Frame.refl _ b) (fun _ h => h)).get .couriers (by decide)
@[simp] theorem answerRefuse_keeps_env (r : Nat) (l : Letter) (st : Nat) (d : Nat) (b : Block) : (answerRefuse r l st d b).env = b.env := (frame_answerRefuse r l st d (Frame.refl _ b) (fun _ h => h)).get .env (by decide)
@[simp] theorem answerRefuse_keeps_outs (r : Nat) (l : Letter) (st : Nat) (d : Nat) (b : Block) : (answerRefuse r l st d b).outs = b.outs := (frame_answerRefuse r l st d (Frame.refl _ b) (fun _ h => h)).get .outs (by decide)
@[simp] theorem answerRefuse_keeps_pm (r : Nat) (l : Letter) (st : Nat) (d : Nat) (b : Block) : (answerRefuse r l st d b).pm = b.pm := (frame_answerRefuse r l st d (Frame.refl _ b) (fun _ h => h)).get .pm (by decide)
@[simp] theorem answerRefuse_keeps_svc (r : Nat) (l : Letter) (st : Nat) (d : Nat) (b : Block) : (answerRefuse r l st d b).svc = b.svc := (frame_answerRefuse r l st d (Frame.refl _ b) (fun _ h => h)).get .svc (by decide)
@[simp] theorem answerRefuse_keeps_keys (r : Nat) (l : Letter) (st : Nat) (d : Nat) (b : Block) : (answerRefuse r l st d b).keys = b.keys := (frame_answerRefuse r l st d (Frame.refl _ b) (fun _ h => h)).get .keys (by decide)
@[simp] theorem answerRefuse_keeps_cfg (r : Nat) (l : Letter) (st : Nat) (d : Nat) (b : Block) : (answerRefuse r l st d b).cfg = b.cfg := (frame_answerRefuse r l st d (Frame.refl _ b) (fun _ h => h)).get .cfg (by decide)
@[simp] theorem answerRefuse_keeps_arch (r : Nat) (l : Letter) (st : Nat) (d : Nat) (b : Block) : (answerRefuse r l st d b).arch = b.arch := (frame_answerRefuse r l st d (Frame.refl _ b) (fun _ h => h)).get .arch (by decide)
@[simp] theorem answerRefuse_keeps_stop (r : Nat) (l : Letter) (st : Nat) (d : Nat) (b : Block) : (answerRefuse r l st d b).stop = b.stop := (frame_answerRefuse r l st d (Frame.refl _ b) (fun _ h => h)).get .stop (by decide)
@[simp] theorem answerRefuse_keeps_dbg (r : Nat) (l : Letter) (st : Nat) (d : Nat) (b : Block) : (answerRefuse r l st d b).dbg = b.dbg := (frame_answerRefuse r l st d (Frame.refl _ b) (fun _ h => h)).get .dbg (by decide)
@[simp] theorem answerRefuse_keeps_letters (r : Nat) (l : Letter) (st : Nat) (d : Nat) (b : Block) : (answerRefuse r l st d b).letters = b.letters := (frame_answerRefuse r l st d (Frame.refl _ b) (fun _ h => h)).get .letters (by decide)
@[simp] theorem answerRefuse_keeps_free (r : Nat) (l : Letter) (st : Nat) (d : Nat) (b : Block) : (answerRefuse r l st d b).free = b.free := (frame_answerRefuse r l st d (Frame.refl _ b) (fun _ h => h)).get .free (by decide)
@[simp] theorem answerRefuse_keeps_job (r : Nat) (l : Letter) (st : Nat) (d : Nat) (b : Block) : (answerRefuse r l st d b).ho.job = b.ho.job := (frame_answerRefuse r l st d (Frame.refl _ b) (fun _ h => h)).get .job (by decide)
@[simp] theorem answerRefuse_keeps_policy (r : Nat) (l : Letter) (st : Nat) (d : Nat) (b : Block) : (answerRefuse r l st d b).ho.policy = b.ho.policy := (frame_answerRefuse r l st d (Frame.refl _ b) (fun _ h => h)).get .policy (by decide)
@[simp] theorem answerRefuse_keeps_resets (r : Nat) (l : Letter) (st : Nat) (d : Nat) (b : Block) : (answerRefuse r l st d b).ho.resets = b.ho.resets := (frame_answerRefuse r l st d (Frame.refl _ b) (fun _ h => h)).get .resets (by decide)
@[simp] theorem answerRefuse_keeps_fleet (r : Nat) (l : Letter) (st : Nat) (d : Nat) (b : Block) : (answerRefuse r l st d b).ho.fleet = b.ho.fleet := (frame_answerRefuse r l st d (Frame.refl _ b) (fun _ h => h)).get .fleet (by decide)
@[simp] theorem answerRefuse_keeps_parcel (r : Nat) (l : Letter) (st : Nat) (d : Nat) (b : Block) : (answerRefuse r l st d b).ho.parcel = b.ho.parcel := (frame_answerRefuse r l st d (Frame.refl _ b) (fun _ h => h)).get .parcel (by decide)
@[simp] theorem answerRefuse_keeps_image (r : Nat) (l : Letter) (st : Nat) (d : Nat) (b : Block) : (answerRefuse r l st d b).ho.image = b.ho.image := (frame_answerRefuse r l st d (Frame.refl _ b) (fun _ h => h)).get .image (by decide)
@[simp] theorem answerRefuse_keeps_bm (r : Nat) (l : Letter) (st : Nat) (d : Nat) (b : Block) : (answerRefuse r l st d b).ho.bm = b.ho.bm := (frame_answerRefuse r l st d (Frame.refl _ b) (fun _ h => h)).get .bm (by decide)
@[simp] theorem answerRefuse_keeps_cores (r : Nat) (l : Letter) (st : Nat) (d : Nat) (b : Block) : (answerRefuse r l st d b).units.cores = b.units.cores := (frame_answerRefuse r l st d (Frame.refl _ b) (fun _ h => h)).get .cores (by decide)
@[simp] theorem answerRefuse_keeps_offices (r : Nat) (l : Letter) (st : Nat) (d : Nat) (b : Block) : (answerRefuse r l st d b).units.offices = b.units.offices := (frame_answerRefuse r l st d (Frame.refl _ b) (fun _ h => h)).get .offices (by decide)
@[simp] theorem answerRefuse_keeps_routers (r : Nat) (l : Letter) (st : Nat) (d : Nat) (b : Block) : (answerRefuse r l st d b).units.routers = b.units.routers := (frame_answerRefuse r l st d (Frame.refl _ b) (fun _ h => h)).get .routers (by decide)
@[simp] theorem answerRefuse_keeps_nodes (r : Nat) (l : Letter) (st : Nat) (d : Nat) (b : Block) : (answerRefuse r l st d b).units.nodes = b.units.nodes := (frame_answerRefuse r l st d (Frame.refl _ b) (fun _ h => h)).get .nodes (by decide)
@[simp] theorem answerRefuse_keeps_couriers (r : Nat) (l : Letter) (st : Nat) (d : Nat) (b : Block) : (answerRefuse r l st d b).units.couriers = b.units.couriers := (frame_answerRefuse r l st d (Frame.refl _ b) (fun _ h => h)).get .couriers (by decide)
@[simp] theorem answerOk_keeps_env (r : Nat) (l : Letter) (res : List Byte) (b : Block) : (answerOk r l res b).env = b.env := (frame_answerOk r l res (Frame.refl _ b) (fun _ h => h)).get .env (by decide)
@[simp] theorem answerOk_keeps_outs (r : Nat) (l : Letter) (res : List Byte) (b : Block) : (answerOk r l res b).outs = b.outs := (frame_answerOk r l res (Frame.refl _ b) (fun _ h => h)).get .outs (by decide)
@[simp] theorem answerOk_keeps_pm (r : Nat) (l : Letter) (res : List Byte) (b : Block) : (answerOk r l res b).pm = b.pm := (frame_answerOk r l res (Frame.refl _ b) (fun _ h => h)).get .pm (by decide)
@[simp] theorem answerOk_keeps_svc (r : Nat) (l : Letter) (res : List Byte) (b : Block) : (answerOk r l res b).svc = b.svc := (frame_answerOk r l res (Frame.refl _ b) (fun _ h => h)).get .svc (by decide)
@[simp] theorem answerOk_keeps_keys (r : Nat) (l : Letter) (res : List Byte) (b : Block) : (answerOk r l res b).keys = b.keys := (frame_answerOk r l res (Frame.refl _ b) (fun _ h => h)).get .keys (by decide)
@[simp] theorem answerOk_keeps_cfg (r : Nat) (l : Letter) (res : List Byte) (b : Block) : (answerOk r l res b).cfg = b.cfg := (frame_answerOk r l res (Frame.refl _ b) (fun _ h => h)).get .cfg (by decide)
@[simp] theorem answerOk_keeps_arch (r : Nat) (l : Letter) (res : List Byte) (b : Block) : (answerOk r l res b).arch = b.arch := (frame_answerOk r l res (Frame.refl _ b) (fun _ h => h)).get .arch (by decide)
@[simp] theorem answerOk_keeps_stop (r : Nat) (l : Letter) (res : List Byte) (b : Block) : (answerOk r l res b).stop = b.stop := (frame_answerOk r l res (Frame.refl _ b) (fun _ h => h)).get .stop (by decide)
@[simp] theorem answerOk_keeps_dbg (r : Nat) (l : Letter) (res : List Byte) (b : Block) : (answerOk r l res b).dbg = b.dbg := (frame_answerOk r l res (Frame.refl _ b) (fun _ h => h)).get .dbg (by decide)
@[simp] theorem answerOk_keeps_letters (r : Nat) (l : Letter) (res : List Byte) (b : Block) : (answerOk r l res b).letters = b.letters := (frame_answerOk r l res (Frame.refl _ b) (fun _ h => h)).get .letters (by decide)
@[simp] theorem answerOk_keeps_free (r : Nat) (l : Letter) (res : List Byte) (b : Block) : (answerOk r l res b).free = b.free := (frame_answerOk r l res (Frame.refl _ b) (fun _ h => h)).get .free (by decide)
@[simp] theorem answerOk_keeps_job (r : Nat) (l : Letter) (res : List Byte) (b : Block) : (answerOk r l res b).ho.job = b.ho.job := (frame_answerOk r l res (Frame.refl _ b) (fun _ h => h)).get .job (by decide)
@[simp] theorem answerOk_keeps_policy (r : Nat) (l : Letter) (res : List Byte) (b : Block) : (answerOk r l res b).ho.policy = b.ho.policy := (frame_answerOk r l res (Frame.refl _ b) (fun _ h => h)).get .policy (by decide)
@[simp] theorem answerOk_keeps_resets (r : Nat) (l : Letter) (res : List Byte) (b : Block) : (answerOk r l res b).ho.resets = b.ho.resets := (frame_answerOk r l res (Frame.refl _ b) (fun _ h => h)).get .resets (by decide)
@[simp] theorem answerOk_keeps_fleet (r : Nat) (l : Letter) (res : List Byte) (b : Block) : (answerOk r l res b).ho.fleet = b.ho.fleet := (frame_answerOk r l res (Frame.refl _ b) (fun _ h => h)).get .fleet (by decide)
@[simp] theorem answerOk_keeps_parcel (r : Nat) (l : Letter) (res : List Byte) (b : Block) : (answerOk r l res b).ho.parcel = b.ho.parcel := (frame_answerOk r l res (Frame.refl _ b) (fun _ h => h)).get .parcel (by decide)
@[simp] theorem answerOk_keeps_image (r : Nat) (l : Letter) (res : List Byte) (b : Block) : (answerOk r l res b).ho.image = b.ho.image := (frame_answerOk r l res (Frame.refl _ b) (fun _ h => h)).get .image (by decide)
@[simp] theorem answerOk_keeps_bm (r : Nat) (l : Letter) (res : List Byte) (b : Block) : (answerOk r l res b).ho.bm = b.ho.bm := (frame_answerOk r l res (Frame.refl _ b) (fun _ h => h)).get .bm (by decide)
@[simp] theorem answerOk_keeps_cores (r : Nat) (l : Letter) (res : List Byte) (b : Block) : (answerOk r l res b).units.cores = b.units.cores := (frame_answerOk r l res (Frame.refl _ b) (fun _ h => h)).get .cores (by decide)
@[simp] theorem answerOk_keeps_offices (r : Nat) (l : Letter) (res : List Byte) (b : Block) : (answerOk r l res b).units.offices = b.units.offices := (frame_answerOk r l res (Frame.refl _ b) (fun _ h => h)).get .offices (by decide)
@[simp] theorem answerOk_keeps_routers (r : Nat) (l : Letter) (res : List Byte) (b : Block) : (answerOk r l res b).units.routers = b.units.routers := (frame_answerOk r l res (Frame.refl _ b) (fun _ h => h)).get .routers (by decide)
@[simp] theorem answerOk_keeps_nodes (r : Nat) (l : Letter) (res : List Byte) (b : Block) : (answerOk r l res b).units.nodes = b.units.nodes := (frame_answerOk r l res (Frame.refl _ b) (fun _ h => h)).get .nodes (by decide)
@[simp] theorem answerOk_keeps_couriers (r : Nat) (l : Letter) (res : List Byte) (b : Block) : (answerOk r l res b).units.couriers = b.units.couriers := (frame_answerOk r l res (Frame.refl _ b) (fun _ h => h)).get .couriers (by decide)
@[simp] theorem answerLater_keeps_env (r : Nat) (l : Letter) (acc : List Nat) (b : Block) : (answerLater r l acc b).env = b.env := (frame_answerLater r l acc (Frame.refl _ b) (fun _ h => h)).get .env (by decide)
@[simp] theorem answerLater_keeps_outs (r : Nat) (l : Letter) (acc : List Nat) (b : Block) : (answerLater r l acc b).outs = b.outs := (frame_answerLater r l acc (Frame.refl _ b) (fun _ h => h)).get .outs (by decide)
@[simp] theorem answerLater_keeps_pm (r : Nat) (l : Letter) (acc : List Nat) (b : Block) : (answerLater r l acc b).pm = b.pm := (frame_answerLater r l acc (Frame.refl _ b) (fun _ h => h)).get .pm (by decide)
@[simp] theorem answerLater_keeps_svc (r : Nat) (l : Letter) (acc : List Nat) (b : Block) : (answerLater r l acc b).svc = b.svc := (frame_answerLater r l acc (Frame.refl _ b) (fun _ h => h)).get .svc (by decide)
@[simp] theorem answerLater_keeps_keys (r : Nat) (l : Letter) (acc : List Nat) (b : Block) : (answerLater r l acc b).keys = b.keys := (frame_answerLater r l acc (Frame.refl _ b) (fun _ h => h)).get .keys (by decide)
@[simp] theorem answerLater_keeps_cfg (r : Nat) (l : Letter) (acc : List Nat) (b : Block) : (answerLater r l acc b).cfg = b.cfg := (frame_answerLater r l acc (Frame.refl _ b) (fun _ h => h)).get .cfg (by decide)
@[simp] theorem answerLater_keeps_ledger (r : Nat) (l : Letter) (acc : List Nat) (b : Block) : (answerLater r l acc b).ledger = b.ledger := (frame_answerLater r l acc (Frame.refl _ b) (fun _ h => h)).get .ledger (by decide)
@[simp] theorem answerLater_keeps_arch (r : Nat) (l : Letter) (acc : List Nat) (b : Block) : (answerLater r l acc b).arch = b.arch := (frame_answerLater r l acc (Frame.refl _ b) (fun _ h => h)).get .arch (by decide)
@[simp] theorem answerLater_keeps_stop (r : Nat) (l : Letter) (acc : List Nat) (b : Block) : (answerLater r l acc b).stop = b.stop := (frame_answerLater r l acc (Frame.refl _ b) (fun _ h => h)).get .stop (by decide)
@[simp] theorem answerLater_keeps_dbg (r : Nat) (l : Letter) (acc : List Nat) (b : Block) : (answerLater r l acc b).dbg = b.dbg := (frame_answerLater r l acc (Frame.refl _ b) (fun _ h => h)).get .dbg (by decide)
@[simp] theorem answerLater_keeps_letters (r : Nat) (l : Letter) (acc : List Nat) (b : Block) : (answerLater r l acc b).letters = b.letters := (frame_answerLater r l acc (Frame.refl _ b) (fun _ h => h)).get .letters (by decide)
@[simp] theorem answerLater_keeps_free (r : Nat) (l : Letter) (acc : List Nat) (b : Block) : (answerLater r l acc b).free = b.free := (frame_answerLater r l acc (Frame.refl _ b) (fun _ h => h)).get .free (by decide)
@[simp] theorem answerLater_keeps_mgmt (r : Nat) (l : Letter) (acc : List Nat) (b : Block) : (answerLater r l acc b).ho.mgmt = b.ho.mgmt := (frame_answerLater r l acc (Frame.refl _ b) (fun _ h => h)).get .mgmt (by decide)
@[simp] theorem answerLater_keeps_job (r : Nat) (l : Letter) (acc : List Nat) (b : Block) : (answerLater r l acc b).ho.job = b.ho.job := (frame_answerLater r l acc (Frame.refl _ b) (fun _ h => h)).get .job (by decide)
@[simp] theorem answerLater_keeps_policy (r : Nat) (l : Letter) (acc : List Nat) (b : Block) : (answerLater r l acc b).ho.policy = b.ho.policy := (frame_answerLater r l acc (Frame.refl _ b) (fun _ h => h)).get .policy (by decide)
@[simp] theorem answerLater_keeps_resets (r : Nat) (l : Letter) (acc : List Nat) (b : Block) : (answerLater r l acc b).ho.resets = b.ho.resets := (frame_answerLater r l acc (Frame.refl _ b) (fun _ h => h)).get .resets (by decide)
@[simp] theorem answerLater_keeps_fleet (r : Nat) (l : Letter) (acc : List Nat) (b : Block) : (answerLater r l acc b).ho.fleet = b.ho.fleet := (frame_answerLater r l acc (Frame.refl _ b) (fun _ h => h)).get .fleet (by decide)
@[simp] theorem answerLater_keeps_parcel (r : Nat) (l : Letter) (acc : List Nat) (b : Block) : (answerLater r l acc b).ho.parcel = b.ho.parcel := (frame_answerLater r l acc (Frame.refl _ b) (fun _ h => h)).get .parcel (by decide)
@[simp] theorem answerLater_keeps_image (r : Nat) (l : Letter) (acc : List Nat) (b : Block) : (answerLater r l acc b).ho.image = b.ho.image := (frame_answerLater r l acc (Frame.refl _ b) (fun _ h => h)).get .image (by decide)
@[simp] theorem answerLater_keeps_post (r : Nat) (l : Letter) (acc : List Nat) (b : Block) : (answerLater r l acc b).ho.post = b.ho.post := (frame_answerLater r l acc (Frame.refl _ b) (fun _ h => h)).get .post (by decide)
@[simp] theorem answerLater_keeps_bm (r : Nat) (l : Letter) (acc : List Nat) (b : Block) : (answerLater r l acc b).ho.bm = b.ho.bm := (frame_answerLater r l acc (Frame.refl _ b) (fun _ h => h)).get .bm (by decide)
@[simp] theorem answerLater_keeps_cores (r : Nat) (l : Letter) (acc : List Nat) (b : Block) : (answerLater r l acc b).units.cores = b.units.cores := (frame_answerLater r l acc (Frame.refl _ b) (fun _ h => h)).get .cores (by decide)
@[simp] theorem answerLater_keeps_offices (r : Nat) (l : Letter) (acc : List Nat) (b : Block) : (answerLater r l acc b).units.offices = b.units.offices := (frame_answerLater r l acc (Frame.refl _ b) (fun _ h => h)).get .offices (by decide)
@[simp] theorem answerLater_keeps_routers (r : Nat) (l : Letter) (acc : List Nat) (b : Block) : (answerLater r l acc b).units.routers = b.units.routers := (frame_answerLater r l acc (Frame.refl _ b) (fun _ h => h)).get .routers (by decide)
@[simp] theorem answerLater_keeps_nodes (r : Nat) (l : Letter) (acc : List Nat) (b : Block) : (answerLater r l acc b).units.nodes = b.units.nodes := (frame_answerLater r l acc (Frame.refl _ b) (fun _ h => h)).get .nodes (by decide)
@[simp] theorem answerLater_keeps_couriers (r : Nat) (l : Letter) (acc : List Nat) (b : Block) : (answerLater r l acc b).units.couriers = b.units.couriers := (frame_answerLater r l acc (Frame.refl _ b) (fun _ h => h)).get .couriers (by decide)
@[simp] theorem answerInterim_keeps_env (r : Nat) (l : Letter) (res : List Byte) (acc : List Nat) (b : Block) : (answerInterim r l res acc b).env = b.env := (frame_answerInterim r l res acc (Frame.refl _ b) (fun _ h => h)).get .env (by decide)
@[simp] theorem answerInterim_keeps_outs (r : Nat) (l : Letter) (res : List Byte) (acc : List Nat) (b : Block) : (answerInterim r l res acc b).outs = b.outs := (frame_answerInterim r l res acc (Frame.refl _ b) (fun _ h => h)).get .outs (by decide)
@[simp] theorem answerInterim_keeps_pm (r : Nat) (l : Letter) (res : List Byte) (acc : List Nat) (b : Block) : (answerInterim r l res acc b).pm = b.pm := (frame_answerInterim r l res acc (Frame.refl _ b) (fun _ h => h)).get .pm (by decide)
@[simp] theorem answerInterim_keeps_svc (r : Nat) (l : Letter) (res : List Byte) (acc : List Nat) (b : Block) : (answerInterim r l res acc b).svc = b.svc := (frame_answerInterim r l res acc (Frame.refl _ b) (fun _ h => h)).get .svc (by decide)
@[simp] theorem answerInterim_keeps_keys (r : Nat) (l : Letter) (res : List Byte) (acc : List Nat) (b : Block) : (answerInterim r l res acc b).keys = b.keys := (frame_answerInterim r l res acc (Frame.refl _ b) (fun _ h => h)).get .keys (by decide)
@[simp] theorem answerInterim_keeps_cfg (r : Nat) (l : Letter) (res : List Byte) (acc : List Nat) (b : Block) : (answerInterim r l res acc b).cfg = b.cfg := (frame_answerInterim r l res acc (Frame.refl _ b) (fun _ h => h)).get .cfg (by decide)
@[simp] theorem answerInterim_keeps_arch (r : Nat) (l : Letter) (res : List Byte) (acc : List Nat) (b : Block) : (answerInterim r l res acc b).arch = b.arch := (frame_answerInterim r l res acc (Frame.refl _ b) (fun _ h => h)).get .arch (by decide)
@[simp] theorem answerInterim_keeps_stop (r : Nat) (l : Letter) (res : List Byte) (acc : List Nat) (b : Block) : (answerInterim r l res acc b).stop = b.stop := (frame_answerInterim r l res acc (Frame.refl _ b) (fun _ h => h)).get .stop (by decide)
@[simp] theorem answerInterim_keeps_dbg (r : Nat) (l : Letter) (res : List Byte) (acc : List Nat) (b : Block) : (answerInterim r l res acc b).dbg = b.dbg := (frame_answerInterim r l res acc (Frame.refl _ b) (fun _ h => h)).get .dbg (by decide)
@[simp] theorem answerInterim_keeps_letters (r : Nat) (l : Letter) (res : List Byte) (acc : List Nat) (b : Block) : (answerInterim r l res acc b).letters = b.letters := (frame_answerInterim r l res acc (Frame.refl _ b) (fun _ h => h)).get .letters (by decide)
@[simp] theorem answerInterim_keeps_free (r : Nat) (l : Letter) (res : List Byte) (acc : List Nat) (b : Block) : (answerInterim r l res acc b).free = b.free := (frame_answerInterim r l res acc (Frame.refl _ b) (fun _ h => h)).get .free (by decide)
@[simp] theorem answerInterim_keeps_job (r : Nat) (l : Letter) (res : List Byte) (acc : List Nat) (b : Block) : (answerInterim r l res acc b).ho.job = b.ho.job := (frame_answerInterim r l res acc (Frame.refl _ b) (fun _ h => h)).get .job (by decide)
@[simp] theorem answerInterim_keeps_policy (r : Nat) (l : Letter) (res : List Byte) (acc : List Nat) (b : Block) : (answerInterim r l res acc b).ho.policy = b.ho.policy := (frame_answerInterim r l res acc (Frame.refl _ b) (fun _ h => h)).get .policy (by decide)
@[simp] theorem answerInterim_keeps_resets (r : Nat) (l : Letter) (res : List Byte) (acc : List Nat) (b : Block) : (answerInterim r l res acc b).ho.resets = b.ho.resets := (frame_answerInterim r l res acc (Frame.refl _ b) (fun _ h => h)).get .resets (by decide)
@[simp] theorem answerInterim_keeps_fleet (r : Nat) (l : Letter) (res : List Byte) (acc : List Nat) (b : Block) : (answerInterim r l res acc b).ho.fleet = b.ho.fleet := (frame_answerInterim r l res acc (Frame.refl _ b) (fun _ h => h)).get .fleet (by decide)
@[simp] theorem answerInterim_keeps_parcel (r : Nat) (l : Letter) (res : List Byte) (acc : List Nat) (b : Block) : (answerInterim r l res acc b).ho.parcel = b.ho.parcel := (frame_answerInterim r l res acc (Frame.refl _ b) (fun _ h => h)).get .parcel (by decide)
@[simp] theorem answerInterim_keeps_image (r : Nat) (l : Letter) (res : List Byte) (acc : List Nat) (b : Block) : (answerInterim r l res acc b).ho.image = b.ho.image := (frame_answerInterim r l res acc (Frame.refl _ b) (fun _ h => h)).get .image (by decide)
@[simp] theorem answerInterim_keeps_bm (r : Nat) (l : Letter) (res : List Byte) (acc : List Nat) (b : Block) : (answerInterim r l res acc b).ho.bm = b.ho.bm := (frame_answerInterim r l res acc (Frame.refl _ b) (fun _ h => h)).get .bm (by decide)
@[simp] theorem answerInterim_keeps_cores (r : Nat) (l : Letter) (res : List Byte) (acc : List Nat) (b : Block) : (answerInterim r l res acc b).units.cores = b.units.cores := (frame_answerInterim r l res acc (Frame.refl _ b) (fun _ h => h)).get .cores (by decide)
@[simp] theorem answerInterim_keeps_offices (r : Nat) (l : Letter) (res : List Byte) (acc : List Nat) (b : Block) : (answerInterim r l res acc b).units.offices = b.units.offices := (frame_answerInterim r l res acc (Frame.refl _ b) (fun _ h => h)).get .offices (by decide)
@[simp] theorem answerInterim_keeps_routers (r : Nat) (l : Letter) (res : List Byte) (acc : List Nat) (b : Block) : (answerInterim r l res acc b).units.routers = b.units.routers := (frame_answerInterim r l res acc (Frame.refl _ b) (fun _ h => h)).get .routers (by decide)
@[simp] theorem answerInterim_keeps_nodes (r : Nat) (l : Letter) (res : List Byte) (acc : List Nat) (b : Block) : (answerInterim r l res acc b).units.nodes = b.units.nodes := (frame_answerInterim r l res acc (Frame.refl _ b) (fun _ h => h)).get .nodes (by decide)
@[simp] theorem answerInterim_keeps_couriers (r : Nat) (l : Letter) (res : List Byte) (acc : List Nat) (b : Block) : (answerInterim r l res acc b).units.couriers = b.units.couriers := (frame_answerInterim r l res acc (Frame.refl _ b) (fun _ h => h)).get .couriers (by decide)
@[simp] theorem answerWhole_keeps_env (r : Nat) (l : Letter) (res : List Byte) (st : Nat) (d : Nat) (res2 : List Byte) (b : Block) : (answerWhole r l res st d res2 b).env = b.env := (frame_answerWhole r l res st d res2 (Frame.refl _ b) (fun _ h => h)).get .env (by decide)
@[simp] theorem answerWhole_keeps_outs (r : Nat) (l : Letter) (res : List Byte) (st : Nat) (d : Nat) (res2 : List Byte) (b : Block) : (answerWhole r l res st d res2 b).outs = b.outs := (frame_answerWhole r l res st d res2 (Frame.refl _ b) (fun _ h => h)).get .outs (by decide)
@[simp] theorem answerWhole_keeps_pm (r : Nat) (l : Letter) (res : List Byte) (st : Nat) (d : Nat) (res2 : List Byte) (b : Block) : (answerWhole r l res st d res2 b).pm = b.pm := (frame_answerWhole r l res st d res2 (Frame.refl _ b) (fun _ h => h)).get .pm (by decide)
@[simp] theorem answerWhole_keeps_svc (r : Nat) (l : Letter) (res : List Byte) (st : Nat) (d : Nat) (res2 : List Byte) (b : Block) : (answerWhole r l res st d res2 b).svc = b.svc := (frame_answerWhole r l res st d res2 (Frame.refl _ b) (fun _ h => h)).get .svc (by decide)
@[simp] theorem answerWhole_keeps_keys (r : Nat) (l : Letter) (res : List Byte) (st : Nat) (d : Nat) (res2 : List Byte) (b : Block) : (answerWhole r l res st d res2 b).keys = b.keys := (frame_answerWhole r l res st d res2 (Frame.refl _ b) (fun _ h => h)).get .keys (by decide)
@[simp] theorem answerWhole_keeps_cfg (r : Nat) (l : Letter) (res : List Byte) (st : Nat) (d : Nat) (res2 : List Byte) (b : Block) : (answerWhole r l res st d res2 b).cfg = b.cfg := (frame_answerWhole r l res st d res2 (Frame.refl _ b) (fun _ h => h)).get .cfg (by decide)
@[simp] theorem answerWhole_keeps_arch (r : Nat) (l : Letter) (res : List Byte) (st : Nat) (d : Nat) (res2 : List Byte) (b : Block) : (answerWhole r l res st d res2 b).arch = b.arch := (frame_answerWhole r l res st d res2 (Frame.refl _ b) (fun _ h => h)).get .arch (by decide)
@[simp] theorem answerWhole_keeps_stop (r : Nat) (l : Letter) (res : List Byte) (st : Nat) (d : Nat) (res2 : List Byte) (b : Block) : (answerWhole r l res st d res2 b).stop = b.stop := (frame_answerWhole r l res st d res2 (Frame.refl _ b) (fun _ h => h)).get .stop (by decide)
@[simp] theorem answerWhole_keeps_dbg (r : Nat) (l : Letter) (res : List Byte) (st : Nat) (d : Nat) (res2 : List Byte) (b : Block) : (answerWhole r l res st d res2 b).dbg = b.dbg := (frame_answerWhole r l res st d res2 (Frame.refl _ b) (fun _ h => h)).get .dbg (by decide)
@[simp] theorem answerWhole_keeps_letters (r : Nat) (l : Letter) (res : List Byte) (st : Nat) (d : Nat) (res2 : List Byte) (b : Block) : (answerWhole r l res st d res2 b).letters = b.letters := (frame_answerWhole r l res st d res2 (Frame.refl _ b) (fun _ h => h)).get .letters (by decide)
@[simp] theorem answerWhole_keeps_free (r : Nat) (l : Letter) (res : List Byte) (st : Nat) (d : Nat) (res2 : List Byte) (b : Block) : (answerWhole r l res st d res2 b).free = b.free := (frame_answerWhole r l res st d res2 (Frame.refl _ b) (fun _ h => h)).get .free (by decide)
@[simp] theorem answerWhole_keeps_job (r : Nat) (l : Letter) (res : List Byte) (st : Nat) (d : Nat) (res2 : List Byte) (b : Block) : (answerWhole r l res st d res2 b).ho.job = b.ho.job := (frame_answerWhole r l res st d res2 (Frame.refl _ b) (fun _ h => h)).get .job (by decide)
@[simp] theorem answerWhole_keeps_policy (r : Nat) (l : Letter) (res : List Byte) (st : Nat) (d : Nat) (res2 : List Byte) (b : Block) : (answerWhole r l res st d res2 b).ho.policy = b.ho.policy := (frame_answerWhole r l res st d res2 (Frame.refl _ b) (fun _ h => h)).get .policy (by decide)
@[simp] theorem answerWhole_keeps_resets (r : Nat) (l : Letter) (res : List Byte) (st : Nat) (d : Nat) (res2 : List Byte) (b : Block) : (answerWhole r l res st d res2 b).ho.resets = b.ho.resets := (frame_answerWhole r l res st d res2 (Frame.refl _ b) (fun _ h => h)).get .resets (by decide)
@[simp] theorem answerWhole_keeps_fleet (r : Nat) (l : Letter) (res : List Byte) (st : Nat) (d : Nat) (res2 : List Byte) (b : Block) : (answerWhole r l res st d res2 b).ho.fleet = b.ho.fleet := (frame_answerWhole r l res st d res2 (Frame.refl _ b) (fun _ h => h)).get .fleet (by decide)
@[simp] theorem answerWhole_keeps_parcel (r : Nat) (l : Letter) (res : List Byte) (st : Nat) (d : Nat) (res2 : List Byte) (b : Block) : (answerWhole r l res st d res2 b).ho.parcel = b.ho.parcel := (frame_answerWhole r l res st d res2 (Frame.refl _ b) (fun _ h => h)).get .parcel (by decide)
@[simp] theorem answerWhole_keeps_image (r : Nat) (l : Letter) (res : List Byte) (st : Nat) (d : Nat) (res2 : List Byte) (b : Block) : (answerWhole r l res st d res2 b).ho.image = b.ho.image := (frame_answerWhole r l res st d res2 (Frame.refl _ b) (fun _ h => h)).get .image (by decide)
@[simp] theorem answerWhole_keeps_bm (r : Nat) (l : Letter) (res : List Byte) (st : Nat) (d : Nat) (res2 : List Byte) (b : Block) : (answerWhole r l res st d res2 b).ho.bm = b.ho.bm := (frame_answerWhole r l res st d res2 (Frame.refl _ b) (fun _ h => h)).get .bm (by decide)
@[simp] theorem answerWhole_keeps_cores (r : Nat) (l : Letter) (res : List Byte) (st : Nat) (d : Nat) (res2 : List Byte) (b : Block) : (answerWhole r l res st d res2 b).units.cores = b.units.cores := (frame_answerWhole r l res st d res2 (Frame.refl _ b) (fun _ h => h)).get .cores (by decide)
@[simp] theorem answerWhole_keeps_offices (r : Nat) (l : Letter) (res : List Byte) (st : Nat) (d : Nat) (res2 : List Byte) (b : Block) : (answerWhole r l res st d res2 b).units.offices = b.units.offices := (frame_answerWhole r l res st d res2 (Frame.refl _ b) (fun _ h => h)).get .offices (by decide)
@[simp] theorem answerWhole_keeps_routers (r : Nat) (l : Letter) (res : List Byte) (st : Nat) (d : Nat) (res2 : List Byte) (b : Block) : (answerWhole r l res st d res2 b).units.routers = b.units.routers := (frame_answerWhole r l res st d res2 (Frame.refl _ b) (fun _ h => h)).get .routers (by decide)
@[simp] theorem answerWhole_keeps_nodes (r : Nat) (l : Letter) (res : List Byte) (st : Nat) (d : Nat) (res2 : List Byte) (b : Block) : (answerWhole r l res st d res2 b).units.nodes = b.units.nodes := (frame_answerWhole r l res st d res2 (Frame.refl _ b) (fun _ h => h)).get .nodes (by decide)
@[simp] theorem answerWhole_keeps_couriers (r : Nat) (l : Letter) (res : List Byte) (st : Nat) (d : Nat) (res2 : List Byte) (b : Block) : (answerWhole r l res st d res2 b).units.couriers = b.units.couriers := (frame_answerWhole r l res st d res2 (Frame.refl _ b) (fun _ h => h)).get .couriers (by decide)
@[simp] theorem answerParts_keeps_env (r : Nat) (l : Letter) (ps : List (List Byte)) (b : Block) : (answerParts r l ps b).env = b.env := (frame_answerParts r l ps (Frame.refl _ b) (fun _ h => h)).get .env (by decide)
@[simp] theorem answerParts_keeps_outs (r : Nat) (l : Letter) (ps : List (List Byte)) (b : Block) : (answerParts r l ps b).outs = b.outs := (frame_answerParts r l ps (Frame.refl _ b) (fun _ h => h)).get .outs (by decide)
@[simp] theorem answerParts_keeps_pm (r : Nat) (l : Letter) (ps : List (List Byte)) (b : Block) : (answerParts r l ps b).pm = b.pm := (frame_answerParts r l ps (Frame.refl _ b) (fun _ h => h)).get .pm (by decide)
@[simp] theorem answerParts_keeps_svc (r : Nat) (l : Letter) (ps : List (List Byte)) (b : Block) : (answerParts r l ps b).svc = b.svc := (frame_answerParts r l ps (Frame.refl _ b) (fun _ h => h)).get .svc (by decide)
@[simp] theorem answerParts_keeps_keys (r : Nat) (l : Letter) (ps : List (List Byte)) (b : Block) : (answerParts r l ps b).keys = b.keys := (frame_answerParts r l ps (Frame.refl _ b) (fun _ h => h)).get .keys (by decide)
@[simp] theorem answerParts_keeps_cfg (r : Nat) (l : Letter) (ps : List (List Byte)) (b : Block) : (answerParts r l ps b).cfg = b.cfg := (frame_answerParts r l ps (Frame.refl _ b) (fun _ h => h)).get .cfg (by decide)
@[simp] theorem answerParts_keeps_arch (r : Nat) (l : Letter) (ps : List (List Byte)) (b : Block) : (answerParts r l ps b).arch = b.arch := (frame_answerParts r l ps (Frame.refl _ b) (fun _ h => h)).get .arch (by decide)
@[simp] theorem answerParts_keeps_stop (r : Nat) (l : Letter) (ps : List (List Byte)) (b : Block) : (answerParts r l ps b).stop = b.stop := (frame_answerParts r l ps (Frame.refl _ b) (fun _ h => h)).get .stop (by decide)
@[simp] theorem answerParts_keeps_dbg (r : Nat) (l : Letter) (ps : List (List Byte)) (b : Block) : (answerParts r l ps b).dbg = b.dbg := (frame_answerParts r l ps (Frame.refl _ b) (fun _ h => h)).get .dbg (by decide)
@[simp] theorem answerParts_keeps_letters (r : Nat) (l : Letter) (ps : List (List Byte)) (b : Block) : (answerParts r l ps b).letters = b.letters := (frame_answerParts r l ps (Frame.refl _ b) (fun _ h => h)).get .letters (by decide)
@[simp] theorem answerParts_keeps_free (r : Nat) (l : Letter) (ps : List (List Byte)) (b : Block) : (answerParts r l ps b).free = b.free := (frame_answerParts r l ps (Frame.refl _ b) (fun _ h => h)).get .free (by decide)
@[simp] theorem answerParts_keeps_job (r : Nat) (l : Letter) (ps : List (List Byte)) (b : Block) : (answerParts r l ps b).ho.job = b.ho.job := (frame_answerParts r l ps (Frame.refl _ b) (fun _ h => h)).get .job (by decide)
@[simp] theorem answerParts_keeps_policy (r : Nat) (l : Letter) (ps : List (List Byte)) (b : Block) : (answerParts r l ps b).ho.policy = b.ho.policy := (frame_answerParts r l ps (Frame.refl _ b) (fun _ h => h)).get .policy (by decide)
@[simp] theorem answerParts_keeps_resets (r : Nat) (l : Letter) (ps : List (List Byte)) (b : Block) : (answerParts r l ps b).ho.resets = b.ho.resets := (frame_answerParts r l ps (Frame.refl _ b) (fun _ h => h)).get .resets (by decide)
@[simp] theorem answerParts_keeps_fleet (r : Nat) (l : Letter) (ps : List (List Byte)) (b : Block) : (answerParts r l ps b).ho.fleet = b.ho.fleet := (frame_answerParts r l ps (Frame.refl _ b) (fun _ h => h)).get .fleet (by decide)
@[simp] theorem answerParts_keeps_parcel (r : Nat) (l : Letter) (ps : List (List Byte)) (b : Block) : (answerParts r l ps b).ho.parcel = b.ho.parcel := (frame_answerParts r l ps (Frame.refl _ b) (fun _ h => h)).get .parcel (by decide)
@[simp] theorem answerParts_keeps_image (r : Nat) (l : Letter) (ps : List (List Byte)) (b : Block) : (answerParts r l ps b).ho.image = b.ho.image := (frame_answerParts r l ps (Frame.refl _ b) (fun _ h => h)).get .image (by decide)
@[simp] theorem answerParts_keeps_bm (r : Nat) (l : Letter) (ps : List (List Byte)) (b : Block) : (answerParts r l ps b).ho.bm = b.ho.bm := (frame_answerParts r l ps (Frame.refl _ b) (fun _ h => h)).get .bm (by decide)
@[simp] theorem answerParts_keeps_cores (r : Nat) (l : Letter) (ps : List (List Byte)) (b : Block) : (answerParts r l ps b).units.cores = b.units.cores := (frame_answerParts r l ps (Frame.refl _ b) (fun _ h => h)).get .cores (by decide)
@[simp] theorem answerParts_keeps_offices (r : Nat) (l : Letter) (ps : List (List Byte)) (b : Block) : (answerParts r l ps b).units.offices = b.units.offices := (frame_answerParts r l ps (Frame.refl _ b) (fun _ h => h)).get .offices (by decide)
@[simp] theorem answerParts_keeps_routers (r : Nat) (l : Letter) (ps : List (List Byte)) (b : Block) : (answerParts r l ps b).units.routers = b.units.routers := (frame_answerParts r l ps (Frame.refl _ b) (fun _ h => h)).get .routers (by decide)
@[simp] theorem answerParts_keeps_nodes (r : Nat) (l : Letter) (ps : List (List Byte)) (b : Block) : (answerParts r l ps b).units.nodes = b.units.nodes := (frame_answerParts r l ps (Frame.refl _ b) (fun _ h => h)).get .nodes (by decide)
@[simp] theorem answerParts_keeps_couriers (r : Nat) (l : Letter) (ps : List (List Byte)) (b : Block) : (answerParts r l ps b).units.couriers = b.units.couriers := (frame_answerParts r l ps (Frame.refl _ b) (fun _ h => h)).get .couriers (by decide)
@[simp] theorem deadLetter_keeps_env (kind : Nat) (b : Block) : (deadLetter kind b).env = b.env := (frame_deadLetter kind (Frame.refl _ b) (fun _ h => h)).get .env (by decide)
@[simp] theorem deadLetter_keeps_outs (kind : Nat) (b : Block) : (deadLetter kind b).outs = b.outs := (frame_deadLetter kind (Frame.refl _ b) (fun _ h => h)).get .outs (by decide)
@[simp] theorem deadLetter_keeps_pm (kind : Nat) (b : Block) : (deadLetter kind b).pm = b.pm := (frame_deadLetter kind (Frame.refl _ b) (fun _ h => h)).get .pm (by decide)
@[simp] theorem deadLetter_keeps_svc (kind : Nat) (b : Block) : (deadLetter kind b).svc = b.svc := (frame_deadLetter kind (Frame.refl _ b) (fun _ h => h)).get .svc (by decide)
@[simp] theorem deadLetter_keeps_keys (kind : Nat) (b : Block) : (deadLetter kind b).keys = b.keys := (frame_deadLetter kind (Frame.refl _ b) (fun _ h => h)).get .keys (by decide)
@[simp] theorem deadLetter_keeps_cfg (kind : Nat) (b : Block) : (deadLetter kind b).cfg = b.cfg := (frame_deadLetter kind (Frame.refl _ b) (fun _ h => h)).get .cfg (by decide)
@[simp] theorem deadLetter_keeps_ledger (kind : Nat) (b : Block) : (deadLetter kind b).ledger = b.ledger := (frame_deadLetter kind (Frame.refl _ b) (fun _ h => h)).get .ledger (by decide)
@[simp] theorem deadLetter_keeps_arch (kind : Nat) (b : Block) : (deadLetter kind b).arch = b.arch := (frame_deadLetter kind (Frame.refl _ b) (fun _ h => h)).get .arch (by decide)
@[simp] theorem deadLetter_keeps_stop (kind : Nat) (b : Block) : (deadLetter kind b).stop = b.stop := (frame_deadLetter kind (Frame.refl _ b) (fun _ h => h)).get .stop (by decide)
@[simp] theorem deadLetter_keeps_letters (kind : Nat) (b : Block) : (deadLetter kind b).letters = b.letters := (frame_deadLetter kind (Frame.refl _ b) (fun _ h => h)).get .letters (by decide)
@[simp] theorem deadLetter_keeps_free (kind : Nat) (b : Block) : (deadLetter kind b).free = b.free := (frame_deadLetter kind (Frame.refl _ b) (fun _ h => h)).get .free (by decide)
@[simp] theorem deadLetter_keeps_job (kind : Nat) (b : Block) : (deadLetter kind b).ho.job = b.ho.job := (frame_deadLetter kind (Frame.refl _ b) (fun _ h => h)).get .job (by decide)
@[simp] theorem deadLetter_keeps_policy (kind : Nat) (b : Block) : (deadLetter kind b).ho.policy = b.ho.policy := (frame_deadLetter kind (Frame.refl _ b) (fun _ h => h)).get .policy (by decide)
@[simp] theorem deadLetter_keeps_resets (kind : Nat) (b : Block) : (deadLetter kind b).ho.resets = b.ho.resets := (frame_deadLetter kind (Frame.refl _ b) (fun _ h => h)).get .resets (by decide)
@[simp] theorem deadLetter_keeps_parcel (kind : Nat) (b : Block) : (deadLetter kind b).ho.parcel = b.ho.parcel := (frame_deadLetter kind (Frame.refl _ b) (fun _ h => h)).get .parcel (by decide)
@[simp] theorem deadLetter_keeps_image (kind : Nat) (b : Block) : (deadLetter kind b).ho.image = b.ho.image := (frame_deadLetter kind (Frame.refl _ b) (fun _ h => h)).get .image (by decide)
@[simp] theorem deadLetter_keeps_post (kind : Nat) (b : Block) : (deadLetter kind b).ho.post = b.ho.post := (frame_deadLetter kind (Frame.refl _ b) (fun _ h => h)).get .post (by decide)
@[simp] theorem deadLetter_keeps_bm (kind : Nat) (b : Block) : (deadLetter kind b).ho.bm = b.ho.bm := (frame_deadLetter kind (Frame.refl _ b) (fun _ h => h)).get .bm (by decide)
@[simp] theorem deadLetter_keeps_cores (kind : Nat) (b : Block) : (deadLetter kind b).units.cores = b.units.cores := (frame_deadLetter kind (Frame.refl _ b) (fun _ h => h)).get .cores (by decide)
@[simp] theorem deadLetter_keeps_offices (kind : Nat) (b : Block) : (deadLetter kind b).units.offices = b.units.offices := (frame_deadLetter kind (Frame.refl _ b) (fun _ h => h)).get .offices (by decide)
@[simp] theorem deadLetter_keeps_routers (kind : Nat) (b : Block) : (deadLetter kind b).units.routers = b.units.routers := (frame_deadLetter kind (Frame.refl _ b) (fun _ h => h)).get .routers (by decide)
@[simp] theorem deadLetter_keeps_nodes (kind : Nat) (b : Block) : (deadLetter kind b).units.nodes = b.units.nodes := (frame_deadLetter kind (Frame.refl _ b) (fun _ h => h)).get .nodes (by decide)
@[simp] theorem deadLetter_keeps_couriers (kind : Nat) (b : Block) : (deadLetter kind b).units.couriers = b.units.couriers := (frame_deadLetter kind (Frame.refl _ b) (fun _ h => h)).get .couriers (by decide)
@[simp] theorem enterSafe_keeps_env (code : Nat) (b : Block) : (enterSafe code b).env = b.env := (frame_enterSafe code (Frame.refl _ b) (fun _ h => h)).get .env (by decide)
@[simp] theorem enterSafe_keeps_pm (code : Nat) (b : Block) : (enterSafe code b).pm = b.pm := (frame_enterSafe code (Frame.refl _ b) (fun _ h => h)).get .pm (by decide)
@[simp] theorem enterSafe_keeps_keys (code : Nat) (b : Block) : (enterSafe code b).keys = b.keys := (frame_enterSafe code (Frame.refl _ b) (fun _ h => h)).get .keys (by decide)
@[simp] theorem enterSafe_keeps_cfg (code : Nat) (b : Block) : (enterSafe code b).cfg = b.cfg := (frame_enterSafe code (Frame.refl _ b) (fun _ h => h)).get .cfg (by decide)
@[simp] theorem enterSafe_keeps_arch (code : Nat) (b : Block) : (enterSafe code b).arch = b.arch := (frame_enterSafe code (Frame.refl _ b) (fun _ h => h)).get .arch (by decide)
@[simp] theorem enterSafe_keeps_stop (code : Nat) (b : Block) : (enterSafe code b).stop = b.stop := (frame_enterSafe code (Frame.refl _ b) (fun _ h => h)).get .stop (by decide)
@[simp] theorem enterSafe_keeps_letters (code : Nat) (b : Block) : (enterSafe code b).letters = b.letters := (frame_enterSafe code (Frame.refl _ b) (fun _ h => h)).get .letters (by decide)
@[simp] theorem enterSafe_keeps_free (code : Nat) (b : Block) : (enterSafe code b).free = b.free := (frame_enterSafe code (Frame.refl _ b) (fun _ h => h)).get .free (by decide)
@[simp] theorem enterSafe_keeps_policy (code : Nat) (b : Block) : (enterSafe code b).ho.policy = b.ho.policy := (frame_enterSafe code (Frame.refl _ b) (fun _ h => h)).get .policy (by decide)
@[simp] theorem enterSafe_keeps_resets (code : Nat) (b : Block) : (enterSafe code b).ho.resets = b.ho.resets := (frame_enterSafe code (Frame.refl _ b) (fun _ h => h)).get .resets (by decide)
@[simp] theorem enterSafe_keeps_fleet (code : Nat) (b : Block) : (enterSafe code b).ho.fleet = b.ho.fleet := (frame_enterSafe code (Frame.refl _ b) (fun _ h => h)).get .fleet (by decide)
@[simp] theorem enterSafe_keeps_parcel (code : Nat) (b : Block) : (enterSafe code b).ho.parcel = b.ho.parcel := (frame_enterSafe code (Frame.refl _ b) (fun _ h => h)).get .parcel (by decide)
@[simp] theorem enterSafe_keeps_image (code : Nat) (b : Block) : (enterSafe code b).ho.image = b.ho.image := (frame_enterSafe code (Frame.refl _ b) (fun _ h => h)).get .image (by decide)
@[simp] theorem enterSafe_keeps_post (code : Nat) (b : Block) : (enterSafe code b).ho.post = b.ho.post := (frame_enterSafe code (Frame.refl _ b) (fun _ h => h)).get .post (by decide)
@[simp] theorem enterSafe_keeps_bm (code : Nat) (b : Block) : (enterSafe code b).ho.bm = b.ho.bm := (frame_enterSafe code (Frame.refl _ b) (fun _ h => h)).get .bm (by decide)
@[simp] theorem enterSafe_keeps_offices (code : Nat) (b : Block) : (enterSafe code b).units.offices = b.units.offices := (frame_enterSafe code (Frame.refl _ b) (fun _ h => h)).get .offices (by decide)
@[simp] theorem enterSafe_keeps_routers (code : Nat) (b : Block) : (enterSafe code b).units.routers = b.units.routers := (frame_enterSafe code (Frame.refl _ b) (fun _ h => h)).get .routers (by decide)
@[simp] theorem enterSafe_keeps_nodes (code : Nat) (b : Block) : (enterSafe code b).units.nodes = b.units.nodes := (frame_enterSafe code (Frame.refl _ b) (fun _ h => h)).get .nodes (by decide)
@[simp] theorem enterSafe_keeps_couriers (code : Nat) (b : Block) : (enterSafe code b).units.couriers = b.units.couriers := (frame_enterSafe code (Frame.refl _ b) (fun _ h => h)).get .couriers (by decide)
@[simp] theorem fenceHold_keeps_env (i : Nat) (b : Block) : (fenceHold i b).env = b.env := (frame_fenceHold i (Frame.refl _ b) (fun _ h => h)).get .env (by decide)
@[simp] theorem fenceHold_keeps_outs (i : Nat) (b : Block) : (fenceHold i b).outs = b.outs := (frame_fenceHold i (Frame.refl _ b) (fun _ h => h)).get .outs (by decide)
@[simp] theorem fenceHold_keeps_pm (i : Nat) (b : Block) : (fenceHold i b).pm = b.pm := (frame_fenceHold i (Frame.refl _ b) (fun _ h => h)).get .pm (by decide)
@[simp] theorem fenceHold_keeps_svc (i : Nat) (b : Block) : (fenceHold i b).svc = b.svc := (frame_fenceHold i (Frame.refl _ b) (fun _ h => h)).get .svc (by decide)
@[simp] theorem fenceHold_keeps_keys (i : Nat) (b : Block) : (fenceHold i b).keys = b.keys := (frame_fenceHold i (Frame.refl _ b) (fun _ h => h)).get .keys (by decide)
@[simp] theorem fenceHold_keeps_cfg (i : Nat) (b : Block) : (fenceHold i b).cfg = b.cfg := (frame_fenceHold i (Frame.refl _ b) (fun _ h => h)).get .cfg (by decide)
@[simp] theorem fenceHold_keeps_ledger (i : Nat) (b : Block) : (fenceHold i b).ledger = b.ledger := (frame_fenceHold i (Frame.refl _ b) (fun _ h => h)).get .ledger (by decide)
@[simp] theorem fenceHold_keeps_arch (i : Nat) (b : Block) : (fenceHold i b).arch = b.arch := (frame_fenceHold i (Frame.refl _ b) (fun _ h => h)).get .arch (by decide)
@[simp] theorem fenceHold_keeps_stop (i : Nat) (b : Block) : (fenceHold i b).stop = b.stop := (frame_fenceHold i (Frame.refl _ b) (fun _ h => h)).get .stop (by decide)
@[simp] theorem fenceHold_keeps_dbg (i : Nat) (b : Block) : (fenceHold i b).dbg = b.dbg := (frame_fenceHold i (Frame.refl _ b) (fun _ h => h)).get .dbg (by decide)
@[simp] theorem fenceHold_keeps_letters (i : Nat) (b : Block) : (fenceHold i b).letters = b.letters := (frame_fenceHold i (Frame.refl _ b) (fun _ h => h)).get .letters (by decide)
@[simp] theorem fenceHold_keeps_free (i : Nat) (b : Block) : (fenceHold i b).free = b.free := (frame_fenceHold i (Frame.refl _ b) (fun _ h => h)).get .free (by decide)
@[simp] theorem fenceHold_keeps_mgmt (i : Nat) (b : Block) : (fenceHold i b).ho.mgmt = b.ho.mgmt := (frame_fenceHold i (Frame.refl _ b) (fun _ h => h)).get .mgmt (by decide)
@[simp] theorem fenceHold_keeps_mail (i : Nat) (b : Block) : (fenceHold i b).ho.mail = b.ho.mail := (frame_fenceHold i (Frame.refl _ b) (fun _ h => h)).get .mail (by decide)
@[simp] theorem fenceHold_keeps_job (i : Nat) (b : Block) : (fenceHold i b).ho.job = b.ho.job := (frame_fenceHold i (Frame.refl _ b) (fun _ h => h)).get .job (by decide)
@[simp] theorem fenceHold_keeps_policy (i : Nat) (b : Block) : (fenceHold i b).ho.policy = b.ho.policy := (frame_fenceHold i (Frame.refl _ b) (fun _ h => h)).get .policy (by decide)
@[simp] theorem fenceHold_keeps_resets (i : Nat) (b : Block) : (fenceHold i b).ho.resets = b.ho.resets := (frame_fenceHold i (Frame.refl _ b) (fun _ h => h)).get .resets (by decide)
@[simp] theorem fenceHold_keeps_fleet (i : Nat) (b : Block) : (fenceHold i b).ho.fleet = b.ho.fleet := (frame_fenceHold i (Frame.refl _ b) (fun _ h => h)).get .fleet (by decide)
@[simp] theorem fenceHold_keeps_parcel (i : Nat) (b : Block) : (fenceHold i b).ho.parcel = b.ho.parcel := (frame_fenceHold i (Frame.refl _ b) (fun _ h => h)).get .parcel (by decide)
@[simp] theorem fenceHold_keeps_image (i : Nat) (b : Block) : (fenceHold i b).ho.image = b.ho.image := (frame_fenceHold i (Frame.refl _ b) (fun _ h => h)).get .image (by decide)
@[simp] theorem fenceHold_keeps_post (i : Nat) (b : Block) : (fenceHold i b).ho.post = b.ho.post := (frame_fenceHold i (Frame.refl _ b) (fun _ h => h)).get .post (by decide)
@[simp] theorem fenceHold_keeps_bm (i : Nat) (b : Block) : (fenceHold i b).ho.bm = b.ho.bm := (frame_fenceHold i (Frame.refl _ b) (fun _ h => h)).get .bm (by decide)
@[simp] theorem fenceHold_keeps_offices (i : Nat) (b : Block) : (fenceHold i b).units.offices = b.units.offices := (frame_fenceHold i (Frame.refl _ b) (fun _ h => h)).get .offices (by decide)
@[simp] theorem fenceHold_keeps_routers (i : Nat) (b : Block) : (fenceHold i b).units.routers = b.units.routers := (frame_fenceHold i (Frame.refl _ b) (fun _ h => h)).get .routers (by decide)
@[simp] theorem fenceHold_keeps_nodes (i : Nat) (b : Block) : (fenceHold i b).units.nodes = b.units.nodes := (frame_fenceHold i (Frame.refl _ b) (fun _ h => h)).get .nodes (by decide)
@[simp] theorem fenceHold_keeps_couriers (i : Nat) (b : Block) : (fenceHold i b).units.couriers = b.units.couriers := (frame_fenceHold i (Frame.refl _ b) (fun _ h => h)).get .couriers (by decide)
@[simp] theorem writeServing_keeps_env (r : Nat) (mb : Bool) (b : Block) : (writeServing r mb b).env = b.env := (frame_writeServing r mb (Frame.refl _ b) (fun _ h => h)).get .env (by decide)
@[simp] theorem writeServing_keeps_outs (r : Nat) (mb : Bool) (b : Block) : (writeServing r mb b).outs = b.outs := (frame_writeServing r mb (Frame.refl _ b) (fun _ h => h)).get .outs (by decide)
@[simp] theorem writeServing_keeps_pm (r : Nat) (mb : Bool) (b : Block) : (writeServing r mb b).pm = b.pm := (frame_writeServing r mb (Frame.refl _ b) (fun _ h => h)).get .pm (by decide)
@[simp] theorem writeServing_keeps_svc (r : Nat) (mb : Bool) (b : Block) : (writeServing r mb b).svc = b.svc := (frame_writeServing r mb (Frame.refl _ b) (fun _ h => h)).get .svc (by decide)
@[simp] theorem writeServing_keeps_keys (r : Nat) (mb : Bool) (b : Block) : (writeServing r mb b).keys = b.keys := (frame_writeServing r mb (Frame.refl _ b) (fun _ h => h)).get .keys (by decide)
@[simp] theorem writeServing_keeps_cfg (r : Nat) (mb : Bool) (b : Block) : (writeServing r mb b).cfg = b.cfg := (frame_writeServing r mb (Frame.refl _ b) (fun _ h => h)).get .cfg (by decide)
@[simp] theorem writeServing_keeps_ledger (r : Nat) (mb : Bool) (b : Block) : (writeServing r mb b).ledger = b.ledger := (frame_writeServing r mb (Frame.refl _ b) (fun _ h => h)).get .ledger (by decide)
@[simp] theorem writeServing_keeps_arch (r : Nat) (mb : Bool) (b : Block) : (writeServing r mb b).arch = b.arch := (frame_writeServing r mb (Frame.refl _ b) (fun _ h => h)).get .arch (by decide)
@[simp] theorem writeServing_keeps_stop (r : Nat) (mb : Bool) (b : Block) : (writeServing r mb b).stop = b.stop := (frame_writeServing r mb (Frame.refl _ b) (fun _ h => h)).get .stop (by decide)
@[simp] theorem writeServing_keeps_dbg (r : Nat) (mb : Bool) (b : Block) : (writeServing r mb b).dbg = b.dbg := (frame_writeServing r mb (Frame.refl _ b) (fun _ h => h)).get .dbg (by decide)
@[simp] theorem writeServing_keeps_letters (r : Nat) (mb : Bool) (b : Block) : (writeServing r mb b).letters = b.letters := (frame_writeServing r mb (Frame.refl _ b) (fun _ h => h)).get .letters (by decide)
@[simp] theorem writeServing_keeps_free (r : Nat) (mb : Bool) (b : Block) : (writeServing r mb b).free = b.free := (frame_writeServing r mb (Frame.refl _ b) (fun _ h => h)).get .free (by decide)
@[simp] theorem writeServing_keeps_mgmt (r : Nat) (mb : Bool) (b : Block) : (writeServing r mb b).ho.mgmt = b.ho.mgmt := (frame_writeServing r mb (Frame.refl _ b) (fun _ h => h)).get .mgmt (by decide)
@[simp] theorem writeServing_keeps_mail (r : Nat) (mb : Bool) (b : Block) : (writeServing r mb b).ho.mail = b.ho.mail := (frame_writeServing r mb (Frame.refl _ b) (fun _ h => h)).get .mail (by decide)
@[simp] theorem writeServing_keeps_job (r : Nat) (mb : Bool) (b : Block) : (writeServing r mb b).ho.job = b.ho.job := (frame_writeServing r mb (Frame.refl _ b) (fun _ h => h)).get .job (by decide)
@[simp] theorem writeServing_keeps_policy (r : Nat) (mb : Bool) (b : Block) : (writeServing r mb b).ho.policy = b.ho.policy := (frame_writeServing r mb (Frame.refl _ b) (fun _ h => h)).get .policy (by decide)
@[simp] theorem writeServing_keeps_resets (r : Nat) (mb : Bool) (b : Block) : (writeServing r mb b).ho.resets = b.ho.resets := (frame_writeServing r mb (Frame.refl _ b) (fun _ h => h)).get .resets (by decide)
@[simp] theorem writeServing_keeps_fleet (r : Nat) (mb : Bool) (b : Block) : (writeServing r mb b).ho.fleet = b.ho.fleet := (frame_writeServing r mb (Frame.refl _ b) (fun _ h => h)).get .fleet (by decide)
@[simp] theorem writeServing_keeps_parcel (r : Nat) (mb : Bool) (b : Block) : (writeServing r mb b).ho.parcel = b.ho.parcel := (frame_writeServing r mb (Frame.refl _ b) (fun _ h => h)).get .parcel (by decide)
@[simp] theorem writeServing_keeps_image (r : Nat) (mb : Bool) (b : Block) : (writeServing r mb b).ho.image = b.ho.image := (frame_writeServing r mb (Frame.refl _ b) (fun _ h => h)).get .image (by decide)
@[simp] theorem writeServing_keeps_post (r : Nat) (mb : Bool) (b : Block) : (writeServing r mb b).ho.post = b.ho.post := (frame_writeServing r mb (Frame.refl _ b) (fun _ h => h)).get .post (by decide)
@[simp] theorem writeServing_keeps_bm (r : Nat) (mb : Bool) (b : Block) : (writeServing r mb b).ho.bm = b.ho.bm := (frame_writeServing r mb (Frame.refl _ b) (fun _ h => h)).get .bm (by decide)
@[simp] theorem writeServing_keeps_cores (r : Nat) (mb : Bool) (b : Block) : (writeServing r mb b).units.cores = b.units.cores := (frame_writeServing r mb (Frame.refl _ b) (fun _ h => h)).get .cores (by decide)
@[simp] theorem writeServing_keeps_offices (r : Nat) (mb : Bool) (b : Block) : (writeServing r mb b).units.offices = b.units.offices := (frame_writeServing r mb (Frame.refl _ b) (fun _ h => h)).get .offices (by decide)
@[simp] theorem writeServing_keeps_couriers (r : Nat) (mb : Bool) (b : Block) : (writeServing r mb b).units.couriers = b.units.couriers := (frame_writeServing r mb (Frame.refl _ b) (fun _ h => h)).get .couriers (by decide)
@[simp] theorem modOutst_keeps_env (op : Nat) (f : List Nat → List Nat) (b : Block) : (modOutst op f b).env = b.env := (frame_modOutst op f (Frame.refl _ b) (fun _ h => h)).get .env (by decide)
@[simp] theorem modOutst_keeps_outs (op : Nat) (f : List Nat → List Nat) (b : Block) : (modOutst op f b).outs = b.outs := (frame_modOutst op f (Frame.refl _ b) (fun _ h => h)).get .outs (by decide)
@[simp] theorem modOutst_keeps_pm (op : Nat) (f : List Nat → List Nat) (b : Block) : (modOutst op f b).pm = b.pm := (frame_modOutst op f (Frame.refl _ b) (fun _ h => h)).get .pm (by decide)
@[simp] theorem modOutst_keeps_svc (op : Nat) (f : List Nat → List Nat) (b : Block) : (modOutst op f b).svc = b.svc := (frame_modOutst op f (Frame.refl _ b) (fun _ h => h)).get .svc (by decide)
@[simp] theorem modOutst_keeps_keys (op : Nat) (f : List Nat → List Nat) (b : Block) : (modOutst op f b).keys = b.keys := (frame_modOutst op f (Frame.refl _ b) (fun _ h => h)).get .keys (by decide)
@[simp] theorem modOutst_keeps_cfg (op : Nat) (f : List Nat → List Nat) (b : Block) : (modOutst op f b).cfg = b.cfg := (frame_modOutst op f (Frame.refl _ b) (fun _ h => h)).get .cfg (by decide)
@[simp] theorem modOutst_keeps_ledger (op : Nat) (f : List Nat → List Nat) (b : Block) : (modOutst op f b).ledger = b.ledger := (frame_modOutst op f (Frame.refl _ b) (fun _ h => h)).get .ledger (by decide)
@[simp] theorem modOutst_keeps_arch (op : Nat) (f : List Nat → List Nat) (b : Block) : (modOutst op f b).arch = b.arch := (frame_modOutst op f (Frame.refl _ b) (fun _ h => h)).get .arch (by decide)
@[simp] theorem modOutst_keeps_stop (op : Nat) (f : List Nat → List Nat) (b : Block) : (modOutst op f b).stop = b.stop := (frame_modOutst op f (Frame.refl _ b) (fun _ h => h)).get .stop (by decide)
@[simp] theorem modOutst_keeps_dbg (op : Nat) (f : List Nat → List Nat) (b : Block) : (modOutst op f b).dbg = b.dbg := (frame_modOutst op f (Frame.refl _ b) (fun _ h => h)).get .dbg (by decide)
@[simp] theorem modOutst_keeps_letters (op : Nat) (f : List Nat → List Nat) (b : Block) : (modOutst op f b).letters = b.letters := (frame_modOutst op f (Frame.refl _ b) (fun _ h => h)).get .letters (by decide)
@[simp] theorem modOutst_keeps_free (op : Nat) (f : List Nat → List Nat) (b : Block) : (modOutst op f b).free = b.free := (frame_modOutst op f (Frame.refl _ b) (fun _ h => h)).get .free (by decide)
@[simp] theorem modOutst_keeps_mgmt (op : Nat) (f : List Nat → List Nat) (b : Block) : (modOutst op f b).ho.mgmt = b.ho.mgmt := (frame_modOutst op f (Frame.refl _ b) (fun _ h => h)).get .mgmt (by decide)
@[simp] theorem modOutst_keeps_job (op : Nat) (f : List Nat → List Nat) (b : Block) : (modOutst op f b).ho.job = b.ho.job := (frame_modOutst op f (Frame.refl _ b) (fun _ h => h)).get .job (by decide)
@[simp] theorem modOutst_keeps_policy (op : Nat) (f : List Nat → List Nat) (b : Block) : (modOutst op f b).ho.policy = b.ho.policy := (frame_modOutst op f (Frame.refl _ b) (fun _ h => h)).get .policy (by decide)
@[simp] theorem modOutst_keeps_resets (op : Nat) (f : List Nat → List Nat) (b : Block) : (modOutst op f b).ho.resets = b.ho.resets := (frame_modOutst op f (Frame.refl _ b) (fun _ h => h)).get .resets (by decide)
@[simp] theorem modOutst_keeps_fleet (op : Nat) (f : List Nat → List Nat) (b : Block) : (modOutst op f b).ho.fleet = b.ho.fleet := (frame_modOutst op f (Frame.refl _ b) (fun _ h => h)).get .fleet (by decide)
@[simp] theorem modOutst_keeps_parcel (op : Nat) (f : List Nat → List Nat) (b : Block) : (modOutst op f b).ho.parcel = b.ho.parcel := (frame_modOutst op f (Frame.refl _ b) (fun _ h => h)).get .parcel (by decide)
@[simp] theorem modOutst_keeps_image (op : Nat) (f : List Nat → List Nat) (b : Block) : (modOutst op f b).ho.image = b.ho.image := (frame_modOutst op f (Frame.refl _ b) (fun _ h => h)).get .image (by decide)
@[simp] theorem modOutst_keeps_post (op : Nat) (f : List Nat → List Nat) (b : Block) : (modOutst op f b).ho.post = b.ho.post := (frame_modOutst op f (Frame.refl _ b) (fun _ h => h)).get .post (by decide)
@[simp] theorem modOutst_keeps_bm (op : Nat) (f : List Nat → List Nat) (b : Block) : (modOutst op f b).ho.bm = b.ho.bm := (frame_modOutst op f (Frame.refl _ b) (fun _ h => h)).get .bm (by decide)
@[simp] theorem modOutst_keeps_cores (op : Nat) (f : List Nat → List Nat) (b : Block) : (modOutst op f b).units.cores = b.units.cores := (frame_modOutst op f (Frame.refl _ b) (fun _ h => h)).get .cores (by decide)
@[simp] theorem modOutst_keeps_offices (op : Nat) (f : List Nat → List Nat) (b : Block) : (modOutst op f b).units.offices = b.units.offices := (frame_modOutst op f (Frame.refl _ b) (fun _ h => h)).get .offices (by decide)
@[simp] theorem modOutst_keeps_routers (op : Nat) (f : List Nat → List Nat) (b : Block) : (modOutst op f b).units.routers = b.units.routers := (frame_modOutst op f (Frame.refl _ b) (fun _ h => h)).get .routers (by decide)
@[simp] theorem modOutst_keeps_nodes (op : Nat) (f : List Nat → List Nat) (b : Block) : (modOutst op f b).units.nodes = b.units.nodes := (frame_modOutst op f (Frame.refl _ b) (fun _ h => h)).get .nodes (by decide)
@[simp] theorem modOutst_keeps_couriers (op : Nat) (f : List Nat → List Nat) (b : Block) : (modOutst op f b).units.couriers = b.units.couriers := (frame_modOutst op f (Frame.refl _ b) (fun _ h => h)).get .couriers (by decide)
@[simp] theorem finishOp_keeps_env (op : Nat) (status : Nat) (detail : Nat) (res : List Byte) (b : Block) : (finishOp op status detail res b).env = b.env := (frame_finishOp op status detail res (Frame.refl _ b) (fun _ h => h)).get .env (by decide)
@[simp] theorem finishOp_keeps_outs (op : Nat) (status : Nat) (detail : Nat) (res : List Byte) (b : Block) : (finishOp op status detail res b).outs = b.outs := (frame_finishOp op status detail res (Frame.refl _ b) (fun _ h => h)).get .outs (by decide)
@[simp] theorem finishOp_keeps_pm (op : Nat) (status : Nat) (detail : Nat) (res : List Byte) (b : Block) : (finishOp op status detail res b).pm = b.pm := (frame_finishOp op status detail res (Frame.refl _ b) (fun _ h => h)).get .pm (by decide)
@[simp] theorem finishOp_keeps_svc (op : Nat) (status : Nat) (detail : Nat) (res : List Byte) (b : Block) : (finishOp op status detail res b).svc = b.svc := (frame_finishOp op status detail res (Frame.refl _ b) (fun _ h => h)).get .svc (by decide)
@[simp] theorem finishOp_keeps_keys (op : Nat) (status : Nat) (detail : Nat) (res : List Byte) (b : Block) : (finishOp op status detail res b).keys = b.keys := (frame_finishOp op status detail res (Frame.refl _ b) (fun _ h => h)).get .keys (by decide)
@[simp] theorem finishOp_keeps_cfg (op : Nat) (status : Nat) (detail : Nat) (res : List Byte) (b : Block) : (finishOp op status detail res b).cfg = b.cfg := (frame_finishOp op status detail res (Frame.refl _ b) (fun _ h => h)).get .cfg (by decide)
@[simp] theorem finishOp_keeps_arch (op : Nat) (status : Nat) (detail : Nat) (res : List Byte) (b : Block) : (finishOp op status detail res b).arch = b.arch := (frame_finishOp op status detail res (Frame.refl _ b) (fun _ h => h)).get .arch (by decide)
@[simp] theorem finishOp_keeps_stop (op : Nat) (status : Nat) (detail : Nat) (res : List Byte) (b : Block) : (finishOp op status detail res b).stop = b.stop := (frame_finishOp op status detail res (Frame.refl _ b) (fun _ h => h)).get .stop (by decide)
@[simp] theorem finishOp_keeps_dbg (op : Nat) (status : Nat) (detail : Nat) (res : List Byte) (b : Block) : (finishOp op status detail res b).dbg = b.dbg := (frame_finishOp op status detail res (Frame.refl _ b) (fun _ h => h)).get .dbg (by decide)
@[simp] theorem finishOp_keeps_letters (op : Nat) (status : Nat) (detail : Nat) (res : List Byte) (b : Block) : (finishOp op status detail res b).letters = b.letters := (frame_finishOp op status detail res (Frame.refl _ b) (fun _ h => h)).get .letters (by decide)
@[simp] theorem finishOp_keeps_free (op : Nat) (status : Nat) (detail : Nat) (res : List Byte) (b : Block) : (finishOp op status detail res b).free = b.free := (frame_finishOp op status detail res (Frame.refl _ b) (fun _ h => h)).get .free (by decide)
@[simp] theorem finishOp_keeps_job (op : Nat) (status : Nat) (detail : Nat) (res : List Byte) (b : Block) : (finishOp op status detail res b).ho.job = b.ho.job := (frame_finishOp op status detail res (Frame.refl _ b) (fun _ h => h)).get .job (by decide)
@[simp] theorem finishOp_keeps_policy (op : Nat) (status : Nat) (detail : Nat) (res : List Byte) (b : Block) : (finishOp op status detail res b).ho.policy = b.ho.policy := (frame_finishOp op status detail res (Frame.refl _ b) (fun _ h => h)).get .policy (by decide)
@[simp] theorem finishOp_keeps_resets (op : Nat) (status : Nat) (detail : Nat) (res : List Byte) (b : Block) : (finishOp op status detail res b).ho.resets = b.ho.resets := (frame_finishOp op status detail res (Frame.refl _ b) (fun _ h => h)).get .resets (by decide)
@[simp] theorem finishOp_keeps_fleet (op : Nat) (status : Nat) (detail : Nat) (res : List Byte) (b : Block) : (finishOp op status detail res b).ho.fleet = b.ho.fleet := (frame_finishOp op status detail res (Frame.refl _ b) (fun _ h => h)).get .fleet (by decide)
@[simp] theorem finishOp_keeps_parcel (op : Nat) (status : Nat) (detail : Nat) (res : List Byte) (b : Block) : (finishOp op status detail res b).ho.parcel = b.ho.parcel := (frame_finishOp op status detail res (Frame.refl _ b) (fun _ h => h)).get .parcel (by decide)
@[simp] theorem finishOp_keeps_image (op : Nat) (status : Nat) (detail : Nat) (res : List Byte) (b : Block) : (finishOp op status detail res b).ho.image = b.ho.image := (frame_finishOp op status detail res (Frame.refl _ b) (fun _ h => h)).get .image (by decide)
@[simp] theorem finishOp_keeps_bm (op : Nat) (status : Nat) (detail : Nat) (res : List Byte) (b : Block) : (finishOp op status detail res b).ho.bm = b.ho.bm := (frame_finishOp op status detail res (Frame.refl _ b) (fun _ h => h)).get .bm (by decide)
@[simp] theorem finishOp_keeps_cores (op : Nat) (status : Nat) (detail : Nat) (res : List Byte) (b : Block) : (finishOp op status detail res b).units.cores = b.units.cores := (frame_finishOp op status detail res (Frame.refl _ b) (fun _ h => h)).get .cores (by decide)
@[simp] theorem finishOp_keeps_offices (op : Nat) (status : Nat) (detail : Nat) (res : List Byte) (b : Block) : (finishOp op status detail res b).units.offices = b.units.offices := (frame_finishOp op status detail res (Frame.refl _ b) (fun _ h => h)).get .offices (by decide)
@[simp] theorem finishOp_keeps_routers (op : Nat) (status : Nat) (detail : Nat) (res : List Byte) (b : Block) : (finishOp op status detail res b).units.routers = b.units.routers := (frame_finishOp op status detail res (Frame.refl _ b) (fun _ h => h)).get .routers (by decide)
@[simp] theorem finishOp_keeps_nodes (op : Nat) (status : Nat) (detail : Nat) (res : List Byte) (b : Block) : (finishOp op status detail res b).units.nodes = b.units.nodes := (frame_finishOp op status detail res (Frame.refl _ b) (fun _ h => h)).get .nodes (by decide)
@[simp] theorem finishOp_keeps_couriers (op : Nat) (status : Nat) (detail : Nat) (res : List Byte) (b : Block) : (finishOp op status detail res b).units.couriers = b.units.couriers := (frame_finishOp op status detail res (Frame.refl _ b) (fun _ h => h)).get .couriers (by decide)
@[simp] theorem setGen_keeps_env (g : Option GenRec) (b : Block) : (setGen g b).env = b.env := (frame_setGen g (Frame.refl _ b) (fun _ h => h)).get .env (by decide)
@[simp] theorem setGen_keeps_outs (g : Option GenRec) (b : Block) : (setGen g b).outs = b.outs := (frame_setGen g (Frame.refl _ b) (fun _ h => h)).get .outs (by decide)
@[simp] theorem setGen_keeps_pm (g : Option GenRec) (b : Block) : (setGen g b).pm = b.pm := (frame_setGen g (Frame.refl _ b) (fun _ h => h)).get .pm (by decide)
@[simp] theorem setGen_keeps_svc (g : Option GenRec) (b : Block) : (setGen g b).svc = b.svc := (frame_setGen g (Frame.refl _ b) (fun _ h => h)).get .svc (by decide)
@[simp] theorem setGen_keeps_keys (g : Option GenRec) (b : Block) : (setGen g b).keys = b.keys := (frame_setGen g (Frame.refl _ b) (fun _ h => h)).get .keys (by decide)
@[simp] theorem setGen_keeps_cfg (g : Option GenRec) (b : Block) : (setGen g b).cfg = b.cfg := (frame_setGen g (Frame.refl _ b) (fun _ h => h)).get .cfg (by decide)
@[simp] theorem setGen_keeps_arch (g : Option GenRec) (b : Block) : (setGen g b).arch = b.arch := (frame_setGen g (Frame.refl _ b) (fun _ h => h)).get .arch (by decide)
@[simp] theorem setGen_keeps_stop (g : Option GenRec) (b : Block) : (setGen g b).stop = b.stop := (frame_setGen g (Frame.refl _ b) (fun _ h => h)).get .stop (by decide)
@[simp] theorem setGen_keeps_dbg (g : Option GenRec) (b : Block) : (setGen g b).dbg = b.dbg := (frame_setGen g (Frame.refl _ b) (fun _ h => h)).get .dbg (by decide)
@[simp] theorem setGen_keeps_letters (g : Option GenRec) (b : Block) : (setGen g b).letters = b.letters := (frame_setGen g (Frame.refl _ b) (fun _ h => h)).get .letters (by decide)
@[simp] theorem setGen_keeps_free (g : Option GenRec) (b : Block) : (setGen g b).free = b.free := (frame_setGen g (Frame.refl _ b) (fun _ h => h)).get .free (by decide)
@[simp] theorem setGen_keeps_mgmt (g : Option GenRec) (b : Block) : (setGen g b).ho.mgmt = b.ho.mgmt := (frame_setGen g (Frame.refl _ b) (fun _ h => h)).get .mgmt (by decide)
@[simp] theorem setGen_keeps_mail (g : Option GenRec) (b : Block) : (setGen g b).ho.mail = b.ho.mail := (frame_setGen g (Frame.refl _ b) (fun _ h => h)).get .mail (by decide)
@[simp] theorem setGen_keeps_job (g : Option GenRec) (b : Block) : (setGen g b).ho.job = b.ho.job := (frame_setGen g (Frame.refl _ b) (fun _ h => h)).get .job (by decide)
@[simp] theorem setGen_keeps_policy (g : Option GenRec) (b : Block) : (setGen g b).ho.policy = b.ho.policy := (frame_setGen g (Frame.refl _ b) (fun _ h => h)).get .policy (by decide)
@[simp] theorem setGen_keeps_resets (g : Option GenRec) (b : Block) : (setGen g b).ho.resets = b.ho.resets := (frame_setGen g (Frame.refl _ b) (fun _ h => h)).get .resets (by decide)
@[simp] theorem setGen_keeps_fleet (g : Option GenRec) (b : Block) : (setGen g b).ho.fleet = b.ho.fleet := (frame_setGen g (Frame.refl _ b) (fun _ h => h)).get .fleet (by decide)
@[simp] theorem setGen_keeps_parcel (g : Option GenRec) (b : Block) : (setGen g b).ho.parcel = b.ho.parcel := (frame_setGen g (Frame.refl _ b) (fun _ h => h)).get .parcel (by decide)
@[simp] theorem setGen_keeps_image (g : Option GenRec) (b : Block) : (setGen g b).ho.image = b.ho.image := (frame_setGen g (Frame.refl _ b) (fun _ h => h)).get .image (by decide)
@[simp] theorem setGen_keeps_post (g : Option GenRec) (b : Block) : (setGen g b).ho.post = b.ho.post := (frame_setGen g (Frame.refl _ b) (fun _ h => h)).get .post (by decide)
@[simp] theorem setGen_keeps_bm (g : Option GenRec) (b : Block) : (setGen g b).ho.bm = b.ho.bm := (frame_setGen g (Frame.refl _ b) (fun _ h => h)).get .bm (by decide)
@[simp] theorem setGen_keeps_cores (g : Option GenRec) (b : Block) : (setGen g b).units.cores = b.units.cores := (frame_setGen g (Frame.refl _ b) (fun _ h => h)).get .cores (by decide)
@[simp] theorem setGen_keeps_offices (g : Option GenRec) (b : Block) : (setGen g b).units.offices = b.units.offices := (frame_setGen g (Frame.refl _ b) (fun _ h => h)).get .offices (by decide)
@[simp] theorem setGen_keeps_routers (g : Option GenRec) (b : Block) : (setGen g b).units.routers = b.units.routers := (frame_setGen g (Frame.refl _ b) (fun _ h => h)).get .routers (by decide)
@[simp] theorem setGen_keeps_nodes (g : Option GenRec) (b : Block) : (setGen g b).units.nodes = b.units.nodes := (frame_setGen g (Frame.refl _ b) (fun _ h => h)).get .nodes (by decide)
@[simp] theorem setGen_keeps_couriers (g : Option GenRec) (b : Block) : (setGen g b).units.couriers = b.units.couriers := (frame_setGen g (Frame.refl _ b) (fun _ h => h)).get .couriers (by decide)
@[simp] theorem fillTo_keeps_env (pick : Fill → Bool) (ph : Nat) (b : Block) : (fillTo pick ph b).env = b.env := (frame_fillTo pick ph (Frame.refl _ b) (fun _ h => h)).get .env (by decide)
@[simp] theorem fillTo_keeps_outs (pick : Fill → Bool) (ph : Nat) (b : Block) : (fillTo pick ph b).outs = b.outs := (frame_fillTo pick ph (Frame.refl _ b) (fun _ h => h)).get .outs (by decide)
@[simp] theorem fillTo_keeps_pm (pick : Fill → Bool) (ph : Nat) (b : Block) : (fillTo pick ph b).pm = b.pm := (frame_fillTo pick ph (Frame.refl _ b) (fun _ h => h)).get .pm (by decide)
@[simp] theorem fillTo_keeps_svc (pick : Fill → Bool) (ph : Nat) (b : Block) : (fillTo pick ph b).svc = b.svc := (frame_fillTo pick ph (Frame.refl _ b) (fun _ h => h)).get .svc (by decide)
@[simp] theorem fillTo_keeps_keys (pick : Fill → Bool) (ph : Nat) (b : Block) : (fillTo pick ph b).keys = b.keys := (frame_fillTo pick ph (Frame.refl _ b) (fun _ h => h)).get .keys (by decide)
@[simp] theorem fillTo_keeps_cfg (pick : Fill → Bool) (ph : Nat) (b : Block) : (fillTo pick ph b).cfg = b.cfg := (frame_fillTo pick ph (Frame.refl _ b) (fun _ h => h)).get .cfg (by decide)
@[simp] theorem fillTo_keeps_arch (pick : Fill → Bool) (ph : Nat) (b : Block) : (fillTo pick ph b).arch = b.arch := (frame_fillTo pick ph (Frame.refl _ b) (fun _ h => h)).get .arch (by decide)
@[simp] theorem fillTo_keeps_stop (pick : Fill → Bool) (ph : Nat) (b : Block) : (fillTo pick ph b).stop = b.stop := (frame_fillTo pick ph (Frame.refl _ b) (fun _ h => h)).get .stop (by decide)
@[simp] theorem fillTo_keeps_dbg (pick : Fill → Bool) (ph : Nat) (b : Block) : (fillTo pick ph b).dbg = b.dbg := (frame_fillTo pick ph (Frame.refl _ b) (fun _ h => h)).get .dbg (by decide)
@[simp] theorem fillTo_keeps_letters (pick : Fill → Bool) (ph : Nat) (b : Block) : (fillTo pick ph b).letters = b.letters := (frame_fillTo pick ph (Frame.refl _ b) (fun _ h => h)).get .letters (by decide)
@[simp] theorem fillTo_keeps_free (pick : Fill → Bool) (ph : Nat) (b : Block) : (fillTo pick ph b).free = b.free := (frame_fillTo pick ph (Frame.refl _ b) (fun _ h => h)).get .free (by decide)
@[simp] theorem fillTo_keeps_mgmt (pick : Fill → Bool) (ph : Nat) (b : Block) : (fillTo pick ph b).ho.mgmt = b.ho.mgmt := (frame_fillTo pick ph (Frame.refl _ b) (fun _ h => h)).get .mgmt (by decide)
@[simp] theorem fillTo_keeps_mail (pick : Fill → Bool) (ph : Nat) (b : Block) : (fillTo pick ph b).ho.mail = b.ho.mail := (frame_fillTo pick ph (Frame.refl _ b) (fun _ h => h)).get .mail (by decide)
@[simp] theorem fillTo_keeps_policy (pick : Fill → Bool) (ph : Nat) (b : Block) : (fillTo pick ph b).ho.policy = b.ho.policy := (frame_fillTo pick ph (Frame.refl _ b) (fun _ h => h)).get .policy (by decide)
@[simp] theorem fillTo_keeps_resets (pick : Fill → Bool) (ph : Nat) (b : Block) : (fillTo pick ph b).ho.resets = b.ho.resets := (frame_fillTo pick ph (Frame.refl _ b) (fun _ h => h)).get .resets (by decide)
@[simp] theorem fillTo_keeps_fleet (pick : Fill → Bool) (ph : Nat) (b : Block) : (fillTo pick ph b).ho.fleet = b.ho.fleet := (frame_fillTo pick ph (Frame.refl _ b) (fun _ h => h)).get .fleet (by decide)
@[simp] theorem fillTo_keeps_parcel (pick : Fill → Bool) (ph : Nat) (b : Block) : (fillTo pick ph b).ho.parcel = b.ho.parcel := (frame_fillTo pick ph (Frame.refl _ b) (fun _ h => h)).get .parcel (by decide)
@[simp] theorem fillTo_keeps_image (pick : Fill → Bool) (ph : Nat) (b : Block) : (fillTo pick ph b).ho.image = b.ho.image := (frame_fillTo pick ph (Frame.refl _ b) (fun _ h => h)).get .image (by decide)
@[simp] theorem fillTo_keeps_post (pick : Fill → Bool) (ph : Nat) (b : Block) : (fillTo pick ph b).ho.post = b.ho.post := (frame_fillTo pick ph (Frame.refl _ b) (fun _ h => h)).get .post (by decide)
@[simp] theorem fillTo_keeps_bm (pick : Fill → Bool) (ph : Nat) (b : Block) : (fillTo pick ph b).ho.bm = b.ho.bm := (frame_fillTo pick ph (Frame.refl _ b) (fun _ h => h)).get .bm (by decide)
@[simp] theorem fillTo_keeps_cores (pick : Fill → Bool) (ph : Nat) (b : Block) : (fillTo pick ph b).units.cores = b.units.cores := (frame_fillTo pick ph (Frame.refl _ b) (fun _ h => h)).get .cores (by decide)
@[simp] theorem fillTo_keeps_offices (pick : Fill → Bool) (ph : Nat) (b : Block) : (fillTo pick ph b).units.offices = b.units.offices := (frame_fillTo pick ph (Frame.refl _ b) (fun _ h => h)).get .offices (by decide)
@[simp] theorem fillTo_keeps_routers (pick : Fill → Bool) (ph : Nat) (b : Block) : (fillTo pick ph b).units.routers = b.units.routers := (frame_fillTo pick ph (Frame.refl _ b) (fun _ h => h)).get .routers (by decide)
@[simp] theorem fillTo_keeps_nodes (pick : Fill → Bool) (ph : Nat) (b : Block) : (fillTo pick ph b).units.nodes = b.units.nodes := (frame_fillTo pick ph (Frame.refl _ b) (fun _ h => h)).get .nodes (by decide)
@[simp] theorem fillTo_keeps_couriers (pick : Fill → Bool) (ph : Nat) (b : Block) : (fillTo pick ph b).units.couriers = b.units.couriers := (frame_fillTo pick ph (Frame.refl _ b) (fun _ h => h)).get .couriers (by decide)
@[simp] theorem endFills_keeps_env (b : Block) : (endFills b).env = b.env := (frame_endFills  (Frame.refl _ b) (fun _ h => h)).get .env (by decide)
@[simp] theorem endFills_keeps_outs (b : Block) : (endFills b).outs = b.outs := (frame_endFills  (Frame.refl _ b) (fun _ h => h)).get .outs (by decide)
@[simp] theorem endFills_keeps_pm (b : Block) : (endFills b).pm = b.pm := (frame_endFills  (Frame.refl _ b) (fun _ h => h)).get .pm (by decide)
@[simp] theorem endFills_keeps_svc (b : Block) : (endFills b).svc = b.svc := (frame_endFills  (Frame.refl _ b) (fun _ h => h)).get .svc (by decide)
@[simp] theorem endFills_keeps_keys (b : Block) : (endFills b).keys = b.keys := (frame_endFills  (Frame.refl _ b) (fun _ h => h)).get .keys (by decide)
@[simp] theorem endFills_keeps_cfg (b : Block) : (endFills b).cfg = b.cfg := (frame_endFills  (Frame.refl _ b) (fun _ h => h)).get .cfg (by decide)
@[simp] theorem endFills_keeps_arch (b : Block) : (endFills b).arch = b.arch := (frame_endFills  (Frame.refl _ b) (fun _ h => h)).get .arch (by decide)
@[simp] theorem endFills_keeps_stop (b : Block) : (endFills b).stop = b.stop := (frame_endFills  (Frame.refl _ b) (fun _ h => h)).get .stop (by decide)
@[simp] theorem endFills_keeps_dbg (b : Block) : (endFills b).dbg = b.dbg := (frame_endFills  (Frame.refl _ b) (fun _ h => h)).get .dbg (by decide)
@[simp] theorem endFills_keeps_letters (b : Block) : (endFills b).letters = b.letters := (frame_endFills  (Frame.refl _ b) (fun _ h => h)).get .letters (by decide)
@[simp] theorem endFills_keeps_free (b : Block) : (endFills b).free = b.free := (frame_endFills  (Frame.refl _ b) (fun _ h => h)).get .free (by decide)
@[simp] theorem endFills_keeps_mgmt (b : Block) : (endFills b).ho.mgmt = b.ho.mgmt := (frame_endFills  (Frame.refl _ b) (fun _ h => h)).get .mgmt (by decide)
@[simp] theorem endFills_keeps_mail (b : Block) : (endFills b).ho.mail = b.ho.mail := (frame_endFills  (Frame.refl _ b) (fun _ h => h)).get .mail (by decide)
@[simp] theorem endFills_keeps_policy (b : Block) : (endFills b).ho.policy = b.ho.policy := (frame_endFills  (Frame.refl _ b) (fun _ h => h)).get .policy (by decide)
@[simp] theorem endFills_keeps_resets (b : Block) : (endFills b).ho.resets = b.ho.resets := (frame_endFills  (Frame.refl _ b) (fun _ h => h)).get .resets (by decide)
@[simp] theorem endFills_keeps_fleet (b : Block) : (endFills b).ho.fleet = b.ho.fleet := (frame_endFills  (Frame.refl _ b) (fun _ h => h)).get .fleet (by decide)
@[simp] theorem endFills_keeps_parcel (b : Block) : (endFills b).ho.parcel = b.ho.parcel := (frame_endFills  (Frame.refl _ b) (fun _ h => h)).get .parcel (by decide)
@[simp] theorem endFills_keeps_image (b : Block) : (endFills b).ho.image = b.ho.image := (frame_endFills  (Frame.refl _ b) (fun _ h => h)).get .image (by decide)
@[simp] theorem endFills_keeps_post (b : Block) : (endFills b).ho.post = b.ho.post := (frame_endFills  (Frame.refl _ b) (fun _ h => h)).get .post (by decide)
@[simp] theorem endFills_keeps_bm (b : Block) : (endFills b).ho.bm = b.ho.bm := (frame_endFills  (Frame.refl _ b) (fun _ h => h)).get .bm (by decide)
@[simp] theorem endFills_keeps_cores (b : Block) : (endFills b).units.cores = b.units.cores := (frame_endFills  (Frame.refl _ b) (fun _ h => h)).get .cores (by decide)
@[simp] theorem endFills_keeps_offices (b : Block) : (endFills b).units.offices = b.units.offices := (frame_endFills  (Frame.refl _ b) (fun _ h => h)).get .offices (by decide)
@[simp] theorem endFills_keeps_routers (b : Block) : (endFills b).units.routers = b.units.routers := (frame_endFills  (Frame.refl _ b) (fun _ h => h)).get .routers (by decide)
@[simp] theorem endFills_keeps_nodes (b : Block) : (endFills b).units.nodes = b.units.nodes := (frame_endFills  (Frame.refl _ b) (fun _ h => h)).get .nodes (by decide)
@[simp] theorem endFills_keeps_couriers (b : Block) : (endFills b).units.couriers = b.units.couriers := (frame_endFills  (Frame.refl _ b) (fun _ h => h)).get .couriers (by decide)
@[simp] theorem sendKept_keeps_env (u : Nat) (p : Packet) (b : Block) : (sendKept u p b).env = b.env := (frame_sendKept u p (Frame.refl _ b) (fun _ h => h)).get .env (by decide)
@[simp] theorem sendKept_keeps_outs (u : Nat) (p : Packet) (b : Block) : (sendKept u p b).outs = b.outs := (frame_sendKept u p (Frame.refl _ b) (fun _ h => h)).get .outs (by decide)
@[simp] theorem sendKept_keeps_pm (u : Nat) (p : Packet) (b : Block) : (sendKept u p b).pm = b.pm := (frame_sendKept u p (Frame.refl _ b) (fun _ h => h)).get .pm (by decide)
@[simp] theorem sendKept_keeps_svc (u : Nat) (p : Packet) (b : Block) : (sendKept u p b).svc = b.svc := (frame_sendKept u p (Frame.refl _ b) (fun _ h => h)).get .svc (by decide)
@[simp] theorem sendKept_keeps_keys (u : Nat) (p : Packet) (b : Block) : (sendKept u p b).keys = b.keys := (frame_sendKept u p (Frame.refl _ b) (fun _ h => h)).get .keys (by decide)
@[simp] theorem sendKept_keeps_cfg (u : Nat) (p : Packet) (b : Block) : (sendKept u p b).cfg = b.cfg := (frame_sendKept u p (Frame.refl _ b) (fun _ h => h)).get .cfg (by decide)
@[simp] theorem sendKept_keeps_ledger (u : Nat) (p : Packet) (b : Block) : (sendKept u p b).ledger = b.ledger := (frame_sendKept u p (Frame.refl _ b) (fun _ h => h)).get .ledger (by decide)
@[simp] theorem sendKept_keeps_arch (u : Nat) (p : Packet) (b : Block) : (sendKept u p b).arch = b.arch := (frame_sendKept u p (Frame.refl _ b) (fun _ h => h)).get .arch (by decide)
@[simp] theorem sendKept_keeps_stop (u : Nat) (p : Packet) (b : Block) : (sendKept u p b).stop = b.stop := (frame_sendKept u p (Frame.refl _ b) (fun _ h => h)).get .stop (by decide)
@[simp] theorem sendKept_keeps_dbg (u : Nat) (p : Packet) (b : Block) : (sendKept u p b).dbg = b.dbg := (frame_sendKept u p (Frame.refl _ b) (fun _ h => h)).get .dbg (by decide)
@[simp] theorem sendKept_keeps_letters (u : Nat) (p : Packet) (b : Block) : (sendKept u p b).letters = b.letters := (frame_sendKept u p (Frame.refl _ b) (fun _ h => h)).get .letters (by decide)
@[simp] theorem sendKept_keeps_free (u : Nat) (p : Packet) (b : Block) : (sendKept u p b).free = b.free := (frame_sendKept u p (Frame.refl _ b) (fun _ h => h)).get .free (by decide)
@[simp] theorem sendKept_keeps_mgmt (u : Nat) (p : Packet) (b : Block) : (sendKept u p b).ho.mgmt = b.ho.mgmt := (frame_sendKept u p (Frame.refl _ b) (fun _ h => h)).get .mgmt (by decide)
@[simp] theorem sendKept_keeps_mail (u : Nat) (p : Packet) (b : Block) : (sendKept u p b).ho.mail = b.ho.mail := (frame_sendKept u p (Frame.refl _ b) (fun _ h => h)).get .mail (by decide)
@[simp] theorem sendKept_keeps_job (u : Nat) (p : Packet) (b : Block) : (sendKept u p b).ho.job = b.ho.job := (frame_sendKept u p (Frame.refl _ b) (fun _ h => h)).get .job (by decide)
@[simp] theorem sendKept_keeps_policy (u : Nat) (p : Packet) (b : Block) : (sendKept u p b).ho.policy = b.ho.policy := (frame_sendKept u p (Frame.refl _ b) (fun _ h => h)).get .policy (by decide)
@[simp] theorem sendKept_keeps_resets (u : Nat) (p : Packet) (b : Block) : (sendKept u p b).ho.resets = b.ho.resets := (frame_sendKept u p (Frame.refl _ b) (fun _ h => h)).get .resets (by decide)
@[simp] theorem sendKept_keeps_fleet (u : Nat) (p : Packet) (b : Block) : (sendKept u p b).ho.fleet = b.ho.fleet := (frame_sendKept u p (Frame.refl _ b) (fun _ h => h)).get .fleet (by decide)
@[simp] theorem sendKept_keeps_parcel (u : Nat) (p : Packet) (b : Block) : (sendKept u p b).ho.parcel = b.ho.parcel := (frame_sendKept u p (Frame.refl _ b) (fun _ h => h)).get .parcel (by decide)
@[simp] theorem sendKept_keeps_image (u : Nat) (p : Packet) (b : Block) : (sendKept u p b).ho.image = b.ho.image := (frame_sendKept u p (Frame.refl _ b) (fun _ h => h)).get .image (by decide)
@[simp] theorem sendKept_keeps_bm (u : Nat) (p : Packet) (b : Block) : (sendKept u p b).ho.bm = b.ho.bm := (frame_sendKept u p (Frame.refl _ b) (fun _ h => h)).get .bm (by decide)
@[simp] theorem sendKept_keeps_nodes (u : Nat) (p : Packet) (b : Block) : (sendKept u p b).units.nodes = b.units.nodes := (frame_sendKept u p (Frame.refl _ b) (fun _ h => h)).get .nodes (by decide)
@[simp] theorem disarm_keeps_env (b : Block) : (disarm b).env = b.env := (frame_disarm  (Frame.refl _ b) (fun _ h => h)).get .env (by decide)
@[simp] theorem disarm_keeps_outs (b : Block) : (disarm b).outs = b.outs := (frame_disarm  (Frame.refl _ b) (fun _ h => h)).get .outs (by decide)
@[simp] theorem disarm_keeps_svc (b : Block) : (disarm b).svc = b.svc := (frame_disarm  (Frame.refl _ b) (fun _ h => h)).get .svc (by decide)
@[simp] theorem disarm_keeps_keys (b : Block) : (disarm b).keys = b.keys := (frame_disarm  (Frame.refl _ b) (fun _ h => h)).get .keys (by decide)
@[simp] theorem disarm_keeps_cfg (b : Block) : (disarm b).cfg = b.cfg := (frame_disarm  (Frame.refl _ b) (fun _ h => h)).get .cfg (by decide)
@[simp] theorem disarm_keeps_arch (b : Block) : (disarm b).arch = b.arch := (frame_disarm  (Frame.refl _ b) (fun _ h => h)).get .arch (by decide)
@[simp] theorem disarm_keeps_dbg (b : Block) : (disarm b).dbg = b.dbg := (frame_disarm  (Frame.refl _ b) (fun _ h => h)).get .dbg (by decide)
@[simp] theorem disarm_keeps_letters (b : Block) : (disarm b).letters = b.letters := (frame_disarm  (Frame.refl _ b) (fun _ h => h)).get .letters (by decide)
@[simp] theorem disarm_keeps_free (b : Block) : (disarm b).free = b.free := (frame_disarm  (Frame.refl _ b) (fun _ h => h)).get .free (by decide)
@[simp] theorem disarm_keeps_policy (b : Block) : (disarm b).ho.policy = b.ho.policy := (frame_disarm  (Frame.refl _ b) (fun _ h => h)).get .policy (by decide)
@[simp] theorem disarm_keeps_resets (b : Block) : (disarm b).ho.resets = b.ho.resets := (frame_disarm  (Frame.refl _ b) (fun _ h => h)).get .resets (by decide)
@[simp] theorem disarm_keeps_fleet (b : Block) : (disarm b).ho.fleet = b.ho.fleet := (frame_disarm  (Frame.refl _ b) (fun _ h => h)).get .fleet (by decide)
@[simp] theorem disarm_keeps_image (b : Block) : (disarm b).ho.image = b.ho.image := (frame_disarm  (Frame.refl _ b) (fun _ h => h)).get .image (by decide)
@[simp] theorem disarm_keeps_bm (b : Block) : (disarm b).ho.bm = b.ho.bm := (frame_disarm  (Frame.refl _ b) (fun _ h => h)).get .bm (by decide)
@[simp] theorem disarm_keeps_offices (b : Block) : (disarm b).units.offices = b.units.offices := (frame_disarm  (Frame.refl _ b) (fun _ h => h)).get .offices (by decide)
@[simp] theorem disarm_keeps_routers (b : Block) : (disarm b).units.routers = b.units.routers := (frame_disarm  (Frame.refl _ b) (fun _ h => h)).get .routers (by decide)
@[simp] theorem disarm_keeps_nodes (b : Block) : (disarm b).units.nodes = b.units.nodes := (frame_disarm  (Frame.refl _ b) (fun _ h => h)).get .nodes (by decide)
@[simp] theorem disarm_keeps_couriers (b : Block) : (disarm b).units.couriers = b.units.couriers := (frame_disarm  (Frame.refl _ b) (fun _ h => h)).get .couriers (by decide)
theorem Block.core_same {b c : Block} (h : c.units.cores = b.units.cores) (i : Nat) : c.core i = b.core i := by simp only [Block.core, h]
theorem Block.office_same {b c : Block} (h : c.units.offices = b.units.offices) (i : Nat) : c.office i = b.office i := by simp only [Block.office, h]
theorem Block.router_same {b c : Block} (h : c.units.routers = b.units.routers) (i : Nat) : c.router i = b.router i := by simp only [Block.router, h]
theorem Block.node_same {b c : Block} (h : c.units.nodes = b.units.nodes) (i : Nat) : c.node i = b.node i := by simp only [Block.node, h]
theorem Block.courier_same {b c : Block} (h : c.units.couriers = b.units.couriers) (i : Nat) : c.courier i = b.courier i := by simp only [Block.courier, h]
theorem Block.ring_same {b c : Block} (h : c.ho.mail = b.ho.mail) (i : Nat) : c.ring i = b.ring i := by simp only [Block.ring, h]
theorem Block.hist_same {b c : Block} (h : c.ledger = b.ledger) (i : Nat) : c.hist i = b.hist i := by simp only [Block.hist, h]
theorem Block.now_same {b c : Block} (h : c.pm = b.pm) : c.now = b.now := by simp only [Block.now, h]
theorem Block.present_same {b c : Block} (h : c.cfg = b.cfg) (i : Nat) : c.present i = b.present i := by simp only [Block.present, h]
theorem Block.populated_same {b c : Block} (h : c.cfg = b.cfg) (i : Nat) : c.populated i = b.populated i := by simp only [Block.populated, h]
theorem Block.inJob_same {b c : Block} (h : c.ho.job = b.ho.job) : c.inJob = b.inJob := by simp only [Block.inJob, h]
@[simp] theorem setIrqRing_keep_core (r : Nat) (b : Block) (i1 : Nat) : (setIrqRing r b).core i1 = b.core i1 := Block.core_same (setIrqRing_keeps_cores r b) i1
@[simp] theorem setIrqRing_keep_office (r : Nat) (b : Block) (i1 : Nat) : (setIrqRing r b).office i1 = b.office i1 := Block.office_same (setIrqRing_keeps_offices r b) i1
@[simp] theorem setIrqRing_keep_router (r : Nat) (b : Block) (i1 : Nat) : (setIrqRing r b).router i1 = b.router i1 := Block.router_same (setIrqRing_keeps_routers r b) i1
@[simp] theorem setIrqRing_keep_node (r : Nat) (b : Block) (i1 : Nat) : (setIrqRing r b).node i1 = b.node i1 := Block.node_same (setIrqRing_keeps_nodes r b) i1
@[simp] theorem setIrqRing_keep_courier (r : Nat) (b : Block) (i1 : Nat) : (setIrqRing r b).courier i1 = b.courier i1 := Block.courier_same (setIrqRing_keeps_couriers r b) i1
@[simp] theorem setIrqRing_keep_ring (r : Nat) (b : Block) (i1 : Nat) : (setIrqRing r b).ring i1 = b.ring i1 := Block.ring_same (setIrqRing_keeps_mail r b) i1
@[simp] theorem setIrqRing_keep_hist (r : Nat) (b : Block) (i1 : Nat) : (setIrqRing r b).hist i1 = b.hist i1 := Block.hist_same (setIrqRing_keeps_ledger r b) i1
@[simp] theorem setIrqRing_keep_now (r : Nat) (b : Block) : (setIrqRing r b).now = b.now := Block.now_same (setIrqRing_keeps_pm r b)
@[simp] theorem setIrqRing_keep_present (r : Nat) (b : Block) (i1 : Nat) : (setIrqRing r b).present i1 = b.present i1 := Block.present_same (setIrqRing_keeps_cfg r b) i1
@[simp] theorem setIrqRing_keep_populated (r : Nat) (b : Block) (i1 : Nat) : (setIrqRing r b).populated i1 = b.populated i1 := Block.populated_same (setIrqRing_keeps_cfg r b) i1
@[simp] theorem setIrqRing_keep_inJob (r : Nat) (b : Block) : (setIrqRing r b).inJob = b.inJob := Block.inJob_same (setIrqRing_keeps_job r b)
@[simp] theorem setIrqMisc_keep_core (i : Nat) (b : Block) (i1 : Nat) : (setIrqMisc i b).core i1 = b.core i1 := Block.core_same (setIrqMisc_keeps_cores i b) i1
@[simp] theorem setIrqMisc_keep_office (i : Nat) (b : Block) (i1 : Nat) : (setIrqMisc i b).office i1 = b.office i1 := Block.office_same (setIrqMisc_keeps_offices i b) i1
@[simp] theorem setIrqMisc_keep_router (i : Nat) (b : Block) (i1 : Nat) : (setIrqMisc i b).router i1 = b.router i1 := Block.router_same (setIrqMisc_keeps_routers i b) i1
@[simp] theorem setIrqMisc_keep_node (i : Nat) (b : Block) (i1 : Nat) : (setIrqMisc i b).node i1 = b.node i1 := Block.node_same (setIrqMisc_keeps_nodes i b) i1
@[simp] theorem setIrqMisc_keep_courier (i : Nat) (b : Block) (i1 : Nat) : (setIrqMisc i b).courier i1 = b.courier i1 := Block.courier_same (setIrqMisc_keeps_couriers i b) i1
@[simp] theorem setIrqMisc_keep_ring (i : Nat) (b : Block) (i1 : Nat) : (setIrqMisc i b).ring i1 = b.ring i1 := Block.ring_same (setIrqMisc_keeps_mail i b) i1
@[simp] theorem setIrqMisc_keep_hist (i : Nat) (b : Block) (i1 : Nat) : (setIrqMisc i b).hist i1 = b.hist i1 := Block.hist_same (setIrqMisc_keeps_ledger i b) i1
@[simp] theorem setIrqMisc_keep_now (i : Nat) (b : Block) : (setIrqMisc i b).now = b.now := Block.now_same (setIrqMisc_keeps_pm i b)
@[simp] theorem setIrqMisc_keep_present (i : Nat) (b : Block) (i1 : Nat) : (setIrqMisc i b).present i1 = b.present i1 := Block.present_same (setIrqMisc_keeps_cfg i b) i1
@[simp] theorem setIrqMisc_keep_populated (i : Nat) (b : Block) (i1 : Nat) : (setIrqMisc i b).populated i1 = b.populated i1 := Block.populated_same (setIrqMisc_keeps_cfg i b) i1
@[simp] theorem setIrqMisc_keep_inJob (i : Nat) (b : Block) : (setIrqMisc i b).inJob = b.inJob := Block.inJob_same (setIrqMisc_keeps_job i b)
@[simp] theorem recordErr_keep_core (offset : Nat) (cause : Nat) (b : Block) (i1 : Nat) : (recordErr offset cause b).core i1 = b.core i1 := Block.core_same (recordErr_keeps_cores offset cause b) i1
@[simp] theorem recordErr_keep_office (offset : Nat) (cause : Nat) (b : Block) (i1 : Nat) : (recordErr offset cause b).office i1 = b.office i1 := Block.office_same (recordErr_keeps_offices offset cause b) i1
@[simp] theorem recordErr_keep_router (offset : Nat) (cause : Nat) (b : Block) (i1 : Nat) : (recordErr offset cause b).router i1 = b.router i1 := Block.router_same (recordErr_keeps_routers offset cause b) i1
@[simp] theorem recordErr_keep_node (offset : Nat) (cause : Nat) (b : Block) (i1 : Nat) : (recordErr offset cause b).node i1 = b.node i1 := Block.node_same (recordErr_keeps_nodes offset cause b) i1
@[simp] theorem recordErr_keep_courier (offset : Nat) (cause : Nat) (b : Block) (i1 : Nat) : (recordErr offset cause b).courier i1 = b.courier i1 := Block.courier_same (recordErr_keeps_couriers offset cause b) i1
@[simp] theorem recordErr_keep_ring (offset : Nat) (cause : Nat) (b : Block) (i1 : Nat) : (recordErr offset cause b).ring i1 = b.ring i1 := Block.ring_same (recordErr_keeps_mail offset cause b) i1
@[simp] theorem recordErr_keep_hist (offset : Nat) (cause : Nat) (b : Block) (i1 : Nat) : (recordErr offset cause b).hist i1 = b.hist i1 := Block.hist_same (recordErr_keeps_ledger offset cause b) i1
@[simp] theorem recordErr_keep_now (offset : Nat) (cause : Nat) (b : Block) : (recordErr offset cause b).now = b.now := Block.now_same (recordErr_keeps_pm offset cause b)
@[simp] theorem recordErr_keep_present (offset : Nat) (cause : Nat) (b : Block) (i1 : Nat) : (recordErr offset cause b).present i1 = b.present i1 := Block.present_same (recordErr_keeps_cfg offset cause b) i1
@[simp] theorem recordErr_keep_populated (offset : Nat) (cause : Nat) (b : Block) (i1 : Nat) : (recordErr offset cause b).populated i1 = b.populated i1 := Block.populated_same (recordErr_keeps_cfg offset cause b) i1
@[simp] theorem recordErr_keep_inJob (offset : Nat) (cause : Nat) (b : Block) : (recordErr offset cause b).inJob = b.inJob := Block.inJob_same (recordErr_keeps_job offset cause b)
@[simp] theorem placeRecord_keep_core (r : Nat) (rc : List Byte) (b : Block) (i1 : Nat) : (placeRecord r rc b).core i1 = b.core i1 := Block.core_same (placeRecord_keeps_cores r rc b) i1
@[simp] theorem placeRecord_keep_office (r : Nat) (rc : List Byte) (b : Block) (i1 : Nat) : (placeRecord r rc b).office i1 = b.office i1 := Block.office_same (placeRecord_keeps_offices r rc b) i1
@[simp] theorem placeRecord_keep_router (r : Nat) (rc : List Byte) (b : Block) (i1 : Nat) : (placeRecord r rc b).router i1 = b.router i1 := Block.router_same (placeRecord_keeps_routers r rc b) i1
@[simp] theorem placeRecord_keep_node (r : Nat) (rc : List Byte) (b : Block) (i1 : Nat) : (placeRecord r rc b).node i1 = b.node i1 := Block.node_same (placeRecord_keeps_nodes r rc b) i1
@[simp] theorem placeRecord_keep_courier (r : Nat) (rc : List Byte) (b : Block) (i1 : Nat) : (placeRecord r rc b).courier i1 = b.courier i1 := Block.courier_same (placeRecord_keeps_couriers r rc b) i1
@[simp] theorem placeRecord_keep_hist (r : Nat) (rc : List Byte) (b : Block) (i1 : Nat) : (placeRecord r rc b).hist i1 = b.hist i1 := Block.hist_same (placeRecord_keeps_ledger r rc b) i1
@[simp] theorem placeRecord_keep_now (r : Nat) (rc : List Byte) (b : Block) : (placeRecord r rc b).now = b.now := Block.now_same (placeRecord_keeps_pm r rc b)
@[simp] theorem placeRecord_keep_present (r : Nat) (rc : List Byte) (b : Block) (i1 : Nat) : (placeRecord r rc b).present i1 = b.present i1 := Block.present_same (placeRecord_keeps_cfg r rc b) i1
@[simp] theorem placeRecord_keep_populated (r : Nat) (rc : List Byte) (b : Block) (i1 : Nat) : (placeRecord r rc b).populated i1 = b.populated i1 := Block.populated_same (placeRecord_keeps_cfg r rc b) i1
@[simp] theorem placeRecord_keep_inJob (r : Nat) (rc : List Byte) (b : Block) : (placeRecord r rc b).inJob = b.inJob := Block.inJob_same (placeRecord_keeps_job r rc b)
@[simp] theorem hoEvent_keep_core (code : Nat) (body : List Byte) (b : Block) (i1 : Nat) : (hoEvent code body b).core i1 = b.core i1 := Block.core_same (hoEvent_keeps_cores code body b) i1
@[simp] theorem hoEvent_keep_office (code : Nat) (body : List Byte) (b : Block) (i1 : Nat) : (hoEvent code body b).office i1 = b.office i1 := Block.office_same (hoEvent_keeps_offices code body b) i1
@[simp] theorem hoEvent_keep_router (code : Nat) (body : List Byte) (b : Block) (i1 : Nat) : (hoEvent code body b).router i1 = b.router i1 := Block.router_same (hoEvent_keeps_routers code body b) i1
@[simp] theorem hoEvent_keep_node (code : Nat) (body : List Byte) (b : Block) (i1 : Nat) : (hoEvent code body b).node i1 = b.node i1 := Block.node_same (hoEvent_keeps_nodes code body b) i1
@[simp] theorem hoEvent_keep_courier (code : Nat) (body : List Byte) (b : Block) (i1 : Nat) : (hoEvent code body b).courier i1 = b.courier i1 := Block.courier_same (hoEvent_keeps_couriers code body b) i1
@[simp] theorem hoEvent_keep_hist (code : Nat) (body : List Byte) (b : Block) (i1 : Nat) : (hoEvent code body b).hist i1 = b.hist i1 := Block.hist_same (hoEvent_keeps_ledger code body b) i1
@[simp] theorem hoEvent_keep_now (code : Nat) (body : List Byte) (b : Block) : (hoEvent code body b).now = b.now := Block.now_same (hoEvent_keeps_pm code body b)
@[simp] theorem hoEvent_keep_present (code : Nat) (body : List Byte) (b : Block) (i1 : Nat) : (hoEvent code body b).present i1 = b.present i1 := Block.present_same (hoEvent_keeps_cfg code body b) i1
@[simp] theorem hoEvent_keep_populated (code : Nat) (body : List Byte) (b : Block) (i1 : Nat) : (hoEvent code body b).populated i1 = b.populated i1 := Block.populated_same (hoEvent_keeps_cfg code body b) i1
@[simp] theorem hoEvent_keep_inJob (code : Nat) (body : List Byte) (b : Block) : (hoEvent code body b).inJob = b.inJob := Block.inJob_same (hoEvent_keeps_job code body b)
@[simp] theorem postEvent_keep_core (code : Nat) (unit : Nat) (body : List Byte) (b : Block) (i1 : Nat) : (postEvent code unit body b).core i1 = b.core i1 := Block.core_same (postEvent_keeps_cores code unit body b) i1
@[simp] theorem postEvent_keep_office (code : Nat) (unit : Nat) (body : List Byte) (b : Block) (i1 : Nat) : (postEvent code unit body b).office i1 = b.office i1 := Block.office_same (postEvent_keeps_offices code unit body b) i1
@[simp] theorem postEvent_keep_router (code : Nat) (unit : Nat) (body : List Byte) (b : Block) (i1 : Nat) : (postEvent code unit body b).router i1 = b.router i1 := Block.router_same (postEvent_keeps_routers code unit body b) i1
@[simp] theorem postEvent_keep_node (code : Nat) (unit : Nat) (body : List Byte) (b : Block) (i1 : Nat) : (postEvent code unit body b).node i1 = b.node i1 := Block.node_same (postEvent_keeps_nodes code unit body b) i1
@[simp] theorem postEvent_keep_courier (code : Nat) (unit : Nat) (body : List Byte) (b : Block) (i1 : Nat) : (postEvent code unit body b).courier i1 = b.courier i1 := Block.courier_same (postEvent_keeps_couriers code unit body b) i1
@[simp] theorem postEvent_keep_hist (code : Nat) (unit : Nat) (body : List Byte) (b : Block) (i1 : Nat) : (postEvent code unit body b).hist i1 = b.hist i1 := Block.hist_same (postEvent_keeps_ledger code unit body b) i1
@[simp] theorem postEvent_keep_now (code : Nat) (unit : Nat) (body : List Byte) (b : Block) : (postEvent code unit body b).now = b.now := Block.now_same (postEvent_keeps_pm code unit body b)
@[simp] theorem postEvent_keep_present (code : Nat) (unit : Nat) (body : List Byte) (b : Block) (i1 : Nat) : (postEvent code unit body b).present i1 = b.present i1 := Block.present_same (postEvent_keeps_cfg code unit body b) i1
@[simp] theorem postEvent_keep_populated (code : Nat) (unit : Nat) (body : List Byte) (b : Block) (i1 : Nat) : (postEvent code unit body b).populated i1 = b.populated i1 := Block.populated_same (postEvent_keeps_cfg code unit body b) i1
@[simp] theorem postEvent_keep_inJob (code : Nat) (unit : Nat) (body : List Byte) (b : Block) : (postEvent code unit body b).inJob = b.inJob := Block.inJob_same (postEvent_keeps_job code unit body b)
@[simp] theorem postEventN_keep_core (code : Nat) (pm : Nat) (unit : Nat) (occ : Nat) (body : List Byte) (b : Block) (i1 : Nat) : (postEventN code pm unit occ body b).core i1 = b.core i1 := Block.core_same (postEventN_keeps_cores code pm unit occ body b) i1
@[simp] theorem postEventN_keep_office (code : Nat) (pm : Nat) (unit : Nat) (occ : Nat) (body : List Byte) (b : Block) (i1 : Nat) : (postEventN code pm unit occ body b).office i1 = b.office i1 := Block.office_same (postEventN_keeps_offices code pm unit occ body b) i1
@[simp] theorem postEventN_keep_router (code : Nat) (pm : Nat) (unit : Nat) (occ : Nat) (body : List Byte) (b : Block) (i1 : Nat) : (postEventN code pm unit occ body b).router i1 = b.router i1 := Block.router_same (postEventN_keeps_routers code pm unit occ body b) i1
@[simp] theorem postEventN_keep_node (code : Nat) (pm : Nat) (unit : Nat) (occ : Nat) (body : List Byte) (b : Block) (i1 : Nat) : (postEventN code pm unit occ body b).node i1 = b.node i1 := Block.node_same (postEventN_keeps_nodes code pm unit occ body b) i1
@[simp] theorem postEventN_keep_courier (code : Nat) (pm : Nat) (unit : Nat) (occ : Nat) (body : List Byte) (b : Block) (i1 : Nat) : (postEventN code pm unit occ body b).courier i1 = b.courier i1 := Block.courier_same (postEventN_keeps_couriers code pm unit occ body b) i1
@[simp] theorem postEventN_keep_hist (code : Nat) (pm : Nat) (unit : Nat) (occ : Nat) (body : List Byte) (b : Block) (i1 : Nat) : (postEventN code pm unit occ body b).hist i1 = b.hist i1 := Block.hist_same (postEventN_keeps_ledger code pm unit occ body b) i1
@[simp] theorem postEventN_keep_now (code : Nat) (pm : Nat) (unit : Nat) (occ : Nat) (body : List Byte) (b : Block) : (postEventN code pm unit occ body b).now = b.now := Block.now_same (postEventN_keeps_pm code pm unit occ body b)
@[simp] theorem postEventN_keep_present (code : Nat) (pm : Nat) (unit : Nat) (occ : Nat) (body : List Byte) (b : Block) (i1 : Nat) : (postEventN code pm unit occ body b).present i1 = b.present i1 := Block.present_same (postEventN_keeps_cfg code pm unit occ body b) i1
@[simp] theorem postEventN_keep_populated (code : Nat) (pm : Nat) (unit : Nat) (occ : Nat) (body : List Byte) (b : Block) (i1 : Nat) : (postEventN code pm unit occ body b).populated i1 = b.populated i1 := Block.populated_same (postEventN_keeps_cfg code pm unit occ body b) i1
@[simp] theorem postEventN_keep_inJob (code : Nat) (pm : Nat) (unit : Nat) (occ : Nat) (body : List Byte) (b : Block) : (postEventN code pm unit occ body b).inJob = b.inJob := Block.inJob_same (postEventN_keeps_job code pm unit occ body b)
@[simp] theorem fileEvent_keep_core (r : Nat) (code : Nat) (unit : Nat) (body : List Byte) (b : Block) (i1 : Nat) : (fileEvent r code unit body b).core i1 = b.core i1 := Block.core_same (fileEvent_keeps_cores r code unit body b) i1
@[simp] theorem fileEvent_keep_router (r : Nat) (code : Nat) (unit : Nat) (body : List Byte) (b : Block) (i1 : Nat) : (fileEvent r code unit body b).router i1 = b.router i1 := Block.router_same (fileEvent_keeps_routers r code unit body b) i1
@[simp] theorem fileEvent_keep_node (r : Nat) (code : Nat) (unit : Nat) (body : List Byte) (b : Block) (i1 : Nat) : (fileEvent r code unit body b).node i1 = b.node i1 := Block.node_same (fileEvent_keeps_nodes r code unit body b) i1
@[simp] theorem fileEvent_keep_courier (r : Nat) (code : Nat) (unit : Nat) (body : List Byte) (b : Block) (i1 : Nat) : (fileEvent r code unit body b).courier i1 = b.courier i1 := Block.courier_same (fileEvent_keeps_couriers r code unit body b) i1
@[simp] theorem fileEvent_keep_ring (r : Nat) (code : Nat) (unit : Nat) (body : List Byte) (b : Block) (i1 : Nat) : (fileEvent r code unit body b).ring i1 = b.ring i1 := Block.ring_same (fileEvent_keeps_mail r code unit body b) i1
@[simp] theorem fileEvent_keep_hist (r : Nat) (code : Nat) (unit : Nat) (body : List Byte) (b : Block) (i1 : Nat) : (fileEvent r code unit body b).hist i1 = b.hist i1 := Block.hist_same (fileEvent_keeps_ledger r code unit body b) i1
@[simp] theorem fileEvent_keep_now (r : Nat) (code : Nat) (unit : Nat) (body : List Byte) (b : Block) : (fileEvent r code unit body b).now = b.now := Block.now_same (fileEvent_keeps_pm r code unit body b)
@[simp] theorem fileEvent_keep_present (r : Nat) (code : Nat) (unit : Nat) (body : List Byte) (b : Block) (i1 : Nat) : (fileEvent r code unit body b).present i1 = b.present i1 := Block.present_same (fileEvent_keeps_cfg r code unit body b) i1
@[simp] theorem fileEvent_keep_populated (r : Nat) (code : Nat) (unit : Nat) (body : List Byte) (b : Block) (i1 : Nat) : (fileEvent r code unit body b).populated i1 = b.populated i1 := Block.populated_same (fileEvent_keeps_cfg r code unit body b) i1
@[simp] theorem fileEvent_keep_inJob (r : Nat) (code : Nat) (unit : Nat) (body : List Byte) (b : Block) : (fileEvent r code unit body b).inJob = b.inJob := Block.inJob_same (fileEvent_keeps_job r code unit body b)
@[simp] theorem bumpCtr_keep_office (i : Nat) (code : Nat) (n : Nat) (b : Block) (i1 : Nat) : (bumpCtr i code n b).office i1 = b.office i1 := Block.office_same (bumpCtr_keeps_offices i code n b) i1
@[simp] theorem bumpCtr_keep_router (i : Nat) (code : Nat) (n : Nat) (b : Block) (i1 : Nat) : (bumpCtr i code n b).router i1 = b.router i1 := Block.router_same (bumpCtr_keeps_routers i code n b) i1
@[simp] theorem bumpCtr_keep_node (i : Nat) (code : Nat) (n : Nat) (b : Block) (i1 : Nat) : (bumpCtr i code n b).node i1 = b.node i1 := Block.node_same (bumpCtr_keeps_nodes i code n b) i1
@[simp] theorem bumpCtr_keep_courier (i : Nat) (code : Nat) (n : Nat) (b : Block) (i1 : Nat) : (bumpCtr i code n b).courier i1 = b.courier i1 := Block.courier_same (bumpCtr_keeps_couriers i code n b) i1
@[simp] theorem bumpCtr_keep_ring (i : Nat) (code : Nat) (n : Nat) (b : Block) (i1 : Nat) : (bumpCtr i code n b).ring i1 = b.ring i1 := Block.ring_same (bumpCtr_keeps_mail i code n b) i1
@[simp] theorem bumpCtr_keep_hist (i : Nat) (code : Nat) (n : Nat) (b : Block) (i1 : Nat) : (bumpCtr i code n b).hist i1 = b.hist i1 := Block.hist_same (bumpCtr_keeps_ledger i code n b) i1
@[simp] theorem bumpCtr_keep_now (i : Nat) (code : Nat) (n : Nat) (b : Block) : (bumpCtr i code n b).now = b.now := Block.now_same (bumpCtr_keeps_pm i code n b)
@[simp] theorem bumpCtr_keep_present (i : Nat) (code : Nat) (n : Nat) (b : Block) (i1 : Nat) : (bumpCtr i code n b).present i1 = b.present i1 := Block.present_same (bumpCtr_keeps_cfg i code n b) i1
@[simp] theorem bumpCtr_keep_populated (i : Nat) (code : Nat) (n : Nat) (b : Block) (i1 : Nat) : (bumpCtr i code n b).populated i1 = b.populated i1 := Block.populated_same (bumpCtr_keeps_cfg i code n b) i1
@[simp] theorem bumpCtr_keep_inJob (i : Nat) (code : Nat) (n : Nat) (b : Block) : (bumpCtr i code n b).inJob = b.inJob := Block.inJob_same (bumpCtr_keeps_job i code n b)
@[simp] theorem lbEvent_keep_router (i : Nat) (code : Nat) (body : List Byte) (b : Block) (i1 : Nat) : (lbEvent i code body b).router i1 = b.router i1 := Block.router_same (lbEvent_keeps_routers i code body b) i1
@[simp] theorem lbEvent_keep_node (i : Nat) (code : Nat) (body : List Byte) (b : Block) (i1 : Nat) : (lbEvent i code body b).node i1 = b.node i1 := Block.node_same (lbEvent_keeps_nodes i code body b) i1
@[simp] theorem lbEvent_keep_courier (i : Nat) (code : Nat) (body : List Byte) (b : Block) (i1 : Nat) : (lbEvent i code body b).courier i1 = b.courier i1 := Block.courier_same (lbEvent_keeps_couriers i code body b) i1
@[simp] theorem lbEvent_keep_ring (i : Nat) (code : Nat) (body : List Byte) (b : Block) (i1 : Nat) : (lbEvent i code body b).ring i1 = b.ring i1 := Block.ring_same (lbEvent_keeps_mail i code body b) i1
@[simp] theorem lbEvent_keep_hist (i : Nat) (code : Nat) (body : List Byte) (b : Block) (i1 : Nat) : (lbEvent i code body b).hist i1 = b.hist i1 := Block.hist_same (lbEvent_keeps_ledger i code body b) i1
@[simp] theorem lbEvent_keep_now (i : Nat) (code : Nat) (body : List Byte) (b : Block) : (lbEvent i code body b).now = b.now := Block.now_same (lbEvent_keeps_pm i code body b)
@[simp] theorem lbEvent_keep_present (i : Nat) (code : Nat) (body : List Byte) (b : Block) (i1 : Nat) : (lbEvent i code body b).present i1 = b.present i1 := Block.present_same (lbEvent_keeps_cfg i code body b) i1
@[simp] theorem lbEvent_keep_populated (i : Nat) (code : Nat) (body : List Byte) (b : Block) (i1 : Nat) : (lbEvent i code body b).populated i1 = b.populated i1 := Block.populated_same (lbEvent_keeps_cfg i code body b) i1
@[simp] theorem lbEvent_keep_inJob (i : Nat) (code : Nat) (body : List Byte) (b : Block) : (lbEvent i code body b).inJob = b.inJob := Block.inJob_same (lbEvent_keeps_job i code body b)
@[simp] theorem raiseAlarm_keep_core (code : Nat) (b : Block) (i1 : Nat) : (raiseAlarm code b).core i1 = b.core i1 := Block.core_same (raiseAlarm_keeps_cores code b) i1
@[simp] theorem raiseAlarm_keep_office (code : Nat) (b : Block) (i1 : Nat) : (raiseAlarm code b).office i1 = b.office i1 := Block.office_same (raiseAlarm_keeps_offices code b) i1
@[simp] theorem raiseAlarm_keep_router (code : Nat) (b : Block) (i1 : Nat) : (raiseAlarm code b).router i1 = b.router i1 := Block.router_same (raiseAlarm_keeps_routers code b) i1
@[simp] theorem raiseAlarm_keep_node (code : Nat) (b : Block) (i1 : Nat) : (raiseAlarm code b).node i1 = b.node i1 := Block.node_same (raiseAlarm_keeps_nodes code b) i1
@[simp] theorem raiseAlarm_keep_courier (code : Nat) (b : Block) (i1 : Nat) : (raiseAlarm code b).courier i1 = b.courier i1 := Block.courier_same (raiseAlarm_keeps_couriers code b) i1
@[simp] theorem raiseAlarm_keep_ring (code : Nat) (b : Block) (i1 : Nat) : (raiseAlarm code b).ring i1 = b.ring i1 := Block.ring_same (raiseAlarm_keeps_mail code b) i1
@[simp] theorem raiseAlarm_keep_hist (code : Nat) (b : Block) (i1 : Nat) : (raiseAlarm code b).hist i1 = b.hist i1 := Block.hist_same (raiseAlarm_keeps_ledger code b) i1
@[simp] theorem raiseAlarm_keep_now (code : Nat) (b : Block) : (raiseAlarm code b).now = b.now := Block.now_same (raiseAlarm_keeps_pm code b)
@[simp] theorem raiseAlarm_keep_present (code : Nat) (b : Block) (i1 : Nat) : (raiseAlarm code b).present i1 = b.present i1 := Block.present_same (raiseAlarm_keeps_cfg code b) i1
@[simp] theorem raiseAlarm_keep_populated (code : Nat) (b : Block) (i1 : Nat) : (raiseAlarm code b).populated i1 = b.populated i1 := Block.populated_same (raiseAlarm_keeps_cfg code b) i1
@[simp] theorem raiseAlarm_keep_inJob (code : Nat) (b : Block) : (raiseAlarm code b).inJob = b.inJob := Block.inJob_same (raiseAlarm_keeps_job code b)
@[simp] theorem setSvc_keep_core (st : SvcState) (b : Block) (i1 : Nat) : (setSvc st b).core i1 = b.core i1 := Block.core_same (setSvc_keeps_cores st b) i1
@[simp] theorem setSvc_keep_office (st : SvcState) (b : Block) (i1 : Nat) : (setSvc st b).office i1 = b.office i1 := Block.office_same (setSvc_keeps_offices st b) i1
@[simp] theorem setSvc_keep_router (st : SvcState) (b : Block) (i1 : Nat) : (setSvc st b).router i1 = b.router i1 := Block.router_same (setSvc_keeps_routers st b) i1
@[simp] theorem setSvc_keep_node (st : SvcState) (b : Block) (i1 : Nat) : (setSvc st b).node i1 = b.node i1 := Block.node_same (setSvc_keeps_nodes st b) i1
@[simp] theorem setSvc_keep_courier (st : SvcState) (b : Block) (i1 : Nat) : (setSvc st b).courier i1 = b.courier i1 := Block.courier_same (setSvc_keeps_couriers st b) i1
@[simp] theorem setSvc_keep_hist (st : SvcState) (b : Block) (i1 : Nat) : (setSvc st b).hist i1 = b.hist i1 := Block.hist_same (setSvc_keeps_ledger st b) i1
@[simp] theorem setSvc_keep_now (st : SvcState) (b : Block) : (setSvc st b).now = b.now := Block.now_same (setSvc_keeps_pm st b)
@[simp] theorem setSvc_keep_present (st : SvcState) (b : Block) (i1 : Nat) : (setSvc st b).present i1 = b.present i1 := Block.present_same (setSvc_keeps_cfg st b) i1
@[simp] theorem setSvc_keep_populated (st : SvcState) (b : Block) (i1 : Nat) : (setSvc st b).populated i1 = b.populated i1 := Block.populated_same (setSvc_keeps_cfg st b) i1
@[simp] theorem setSvc_keep_inJob (st : SvcState) (b : Block) : (setSvc st b).inJob = b.inJob := Block.inJob_same (setSvc_keeps_job st b)
@[simp] theorem setPmState_keep_core (st : PmState) (b : Block) (i1 : Nat) : (setPmState st b).core i1 = b.core i1 := Block.core_same (setPmState_keeps_cores st b) i1
@[simp] theorem setPmState_keep_office (st : PmState) (b : Block) (i1 : Nat) : (setPmState st b).office i1 = b.office i1 := Block.office_same (setPmState_keeps_offices st b) i1
@[simp] theorem setPmState_keep_router (st : PmState) (b : Block) (i1 : Nat) : (setPmState st b).router i1 = b.router i1 := Block.router_same (setPmState_keeps_routers st b) i1
@[simp] theorem setPmState_keep_node (st : PmState) (b : Block) (i1 : Nat) : (setPmState st b).node i1 = b.node i1 := Block.node_same (setPmState_keeps_nodes st b) i1
@[simp] theorem setPmState_keep_courier (st : PmState) (b : Block) (i1 : Nat) : (setPmState st b).courier i1 = b.courier i1 := Block.courier_same (setPmState_keeps_couriers st b) i1
@[simp] theorem setPmState_keep_ring (st : PmState) (b : Block) (i1 : Nat) : (setPmState st b).ring i1 = b.ring i1 := Block.ring_same (setPmState_keeps_mail st b) i1
@[simp] theorem setPmState_keep_hist (st : PmState) (b : Block) (i1 : Nat) : (setPmState st b).hist i1 = b.hist i1 := Block.hist_same (setPmState_keeps_ledger st b) i1
@[simp] theorem setPmState_keep_present (st : PmState) (b : Block) (i1 : Nat) : (setPmState st b).present i1 = b.present i1 := Block.present_same (setPmState_keeps_cfg st b) i1
@[simp] theorem setPmState_keep_populated (st : PmState) (b : Block) (i1 : Nat) : (setPmState st b).populated i1 = b.populated i1 := Block.populated_same (setPmState_keeps_cfg st b) i1
@[simp] theorem setPmState_keep_inJob (st : PmState) (b : Block) : (setPmState st b).inJob = b.inJob := Block.inJob_same (setPmState_keeps_job st b)
@[simp] theorem advTo_keep_core (n : Nat) (b : Block) (i1 : Nat) : (advTo n b).core i1 = b.core i1 := Block.core_same (advTo_keeps_cores n b) i1
@[simp] theorem advTo_keep_office (n : Nat) (b : Block) (i1 : Nat) : (advTo n b).office i1 = b.office i1 := Block.office_same (advTo_keeps_offices n b) i1
@[simp] theorem advTo_keep_router (n : Nat) (b : Block) (i1 : Nat) : (advTo n b).router i1 = b.router i1 := Block.router_same (advTo_keeps_routers n b) i1
@[simp] theorem advTo_keep_node (n : Nat) (b : Block) (i1 : Nat) : (advTo n b).node i1 = b.node i1 := Block.node_same (advTo_keeps_nodes n b) i1
@[simp] theorem advTo_keep_courier (n : Nat) (b : Block) (i1 : Nat) : (advTo n b).courier i1 = b.courier i1 := Block.courier_same (advTo_keeps_couriers n b) i1
@[simp] theorem advTo_keep_ring (n : Nat) (b : Block) (i1 : Nat) : (advTo n b).ring i1 = b.ring i1 := Block.ring_same (advTo_keeps_mail n b) i1
@[simp] theorem advTo_keep_hist (n : Nat) (b : Block) (i1 : Nat) : (advTo n b).hist i1 = b.hist i1 := Block.hist_same (advTo_keeps_ledger n b) i1
@[simp] theorem advTo_keep_present (n : Nat) (b : Block) (i1 : Nat) : (advTo n b).present i1 = b.present i1 := Block.present_same (advTo_keeps_cfg n b) i1
@[simp] theorem advTo_keep_populated (n : Nat) (b : Block) (i1 : Nat) : (advTo n b).populated i1 = b.populated i1 := Block.populated_same (advTo_keeps_cfg n b) i1
@[simp] theorem advTo_keep_inJob (n : Nat) (b : Block) : (advTo n b).inJob = b.inJob := Block.inJob_same (advTo_keeps_job n b)
@[simp] theorem bmChanged_keep_core (b : Block) (i1 : Nat) : (bmChanged b).core i1 = b.core i1 := Block.core_same (bmChanged_keeps_cores b) i1
@[simp] theorem bmChanged_keep_office (b : Block) (i1 : Nat) : (bmChanged b).office i1 = b.office i1 := Block.office_same (bmChanged_keeps_offices b) i1
@[simp] theorem bmChanged_keep_router (b : Block) (i1 : Nat) : (bmChanged b).router i1 = b.router i1 := Block.router_same (bmChanged_keeps_routers b) i1
@[simp] theorem bmChanged_keep_node (b : Block) (i1 : Nat) : (bmChanged b).node i1 = b.node i1 := Block.node_same (bmChanged_keeps_nodes b) i1
@[simp] theorem bmChanged_keep_courier (b : Block) (i1 : Nat) : (bmChanged b).courier i1 = b.courier i1 := Block.courier_same (bmChanged_keeps_couriers b) i1
@[simp] theorem bmChanged_keep_ring (b : Block) (i1 : Nat) : (bmChanged b).ring i1 = b.ring i1 := Block.ring_same (bmChanged_keeps_mail b) i1
@[simp] theorem bmChanged_keep_now (b : Block) : (bmChanged b).now = b.now := Block.now_same (bmChanged_keeps_pm b)
@[simp] theorem bmChanged_keep_present (b : Block) (i1 : Nat) : (bmChanged b).present i1 = b.present i1 := Block.present_same (bmChanged_keeps_cfg b) i1
@[simp] theorem bmChanged_keep_populated (b : Block) (i1 : Nat) : (bmChanged b).populated i1 = b.populated i1 := Block.populated_same (bmChanged_keeps_cfg b) i1
@[simp] theorem bmChanged_keep_inJob (b : Block) : (bmChanged b).inJob = b.inJob := Block.inJob_same (bmChanged_keeps_job b)
@[simp] theorem addReason_keep_core (r : Nat) (bitno : Nat) (b : Block) (i1 : Nat) : (addReason r bitno b).core i1 = b.core i1 := Block.core_same (addReason_keeps_cores r bitno b) i1
@[simp] theorem addReason_keep_router (r : Nat) (bitno : Nat) (b : Block) (i1 : Nat) : (addReason r bitno b).router i1 = b.router i1 := Block.router_same (addReason_keeps_routers r bitno b) i1
@[simp] theorem addReason_keep_node (r : Nat) (bitno : Nat) (b : Block) (i1 : Nat) : (addReason r bitno b).node i1 = b.node i1 := Block.node_same (addReason_keeps_nodes r bitno b) i1
@[simp] theorem addReason_keep_courier (r : Nat) (bitno : Nat) (b : Block) (i1 : Nat) : (addReason r bitno b).courier i1 = b.courier i1 := Block.courier_same (addReason_keeps_couriers r bitno b) i1
@[simp] theorem addReason_keep_ring (r : Nat) (bitno : Nat) (b : Block) (i1 : Nat) : (addReason r bitno b).ring i1 = b.ring i1 := Block.ring_same (addReason_keeps_mail r bitno b) i1
@[simp] theorem addReason_keep_hist (r : Nat) (bitno : Nat) (b : Block) (i1 : Nat) : (addReason r bitno b).hist i1 = b.hist i1 := Block.hist_same (addReason_keeps_ledger r bitno b) i1
@[simp] theorem addReason_keep_now (r : Nat) (bitno : Nat) (b : Block) : (addReason r bitno b).now = b.now := Block.now_same (addReason_keeps_pm r bitno b)
@[simp] theorem addReason_keep_present (r : Nat) (bitno : Nat) (b : Block) (i1 : Nat) : (addReason r bitno b).present i1 = b.present i1 := Block.present_same (addReason_keeps_cfg r bitno b) i1
@[simp] theorem addReason_keep_populated (r : Nat) (bitno : Nat) (b : Block) (i1 : Nat) : (addReason r bitno b).populated i1 = b.populated i1 := Block.populated_same (addReason_keeps_cfg r bitno b) i1
@[simp] theorem addReason_keep_inJob (r : Nat) (bitno : Nat) (b : Block) : (addReason r bitno b).inJob = b.inJob := Block.inJob_same (addReason_keeps_job r bitno b)
@[simp] theorem nameRole_keep_core (r : Nat) (role : Nat) (code : Nat) (b : Block) (i1 : Nat) : (nameRole r role code b).core i1 = b.core i1 := Block.core_same (nameRole_keeps_cores r role code b) i1
@[simp] theorem nameRole_keep_router (r : Nat) (role : Nat) (code : Nat) (b : Block) (i1 : Nat) : (nameRole r role code b).router i1 = b.router i1 := Block.router_same (nameRole_keeps_routers r role code b) i1
@[simp] theorem nameRole_keep_node (r : Nat) (role : Nat) (code : Nat) (b : Block) (i1 : Nat) : (nameRole r role code b).node i1 = b.node i1 := Block.node_same (nameRole_keeps_nodes r role code b) i1
@[simp] theorem nameRole_keep_courier (r : Nat) (role : Nat) (code : Nat) (b : Block) (i1 : Nat) : (nameRole r role code b).courier i1 = b.courier i1 := Block.courier_same (nameRole_keeps_couriers r role code b) i1
@[simp] theorem nameRole_keep_ring (r : Nat) (role : Nat) (code : Nat) (b : Block) (i1 : Nat) : (nameRole r role code b).ring i1 = b.ring i1 := Block.ring_same (nameRole_keeps_mail r role code b) i1
@[simp] theorem nameRole_keep_hist (r : Nat) (role : Nat) (code : Nat) (b : Block) (i1 : Nat) : (nameRole r role code b).hist i1 = b.hist i1 := Block.hist_same (nameRole_keeps_ledger r role code b) i1
@[simp] theorem nameRole_keep_now (r : Nat) (role : Nat) (code : Nat) (b : Block) : (nameRole r role code b).now = b.now := Block.now_same (nameRole_keeps_pm r role code b)
@[simp] theorem nameRole_keep_present (r : Nat) (role : Nat) (code : Nat) (b : Block) (i1 : Nat) : (nameRole r role code b).present i1 = b.present i1 := Block.present_same (nameRole_keeps_cfg r role code b) i1
@[simp] theorem nameRole_keep_populated (r : Nat) (role : Nat) (code : Nat) (b : Block) (i1 : Nat) : (nameRole r role code b).populated i1 = b.populated i1 := Block.populated_same (nameRole_keeps_cfg r role code b) i1
@[simp] theorem nameRole_keep_inJob (r : Nat) (role : Nat) (code : Nat) (b : Block) : (nameRole r role code b).inJob = b.inJob := Block.inJob_same (nameRole_keeps_job r role code b)
@[simp] theorem fenceState_keep_router (i : Nat) (byTest : Bool) (b : Block) (i1 : Nat) : (fenceState i byTest b).router i1 = b.router i1 := Block.router_same (fenceState_keeps_routers i byTest b) i1
@[simp] theorem fenceState_keep_node (i : Nat) (byTest : Bool) (b : Block) (i1 : Nat) : (fenceState i byTest b).node i1 = b.node i1 := Block.node_same (fenceState_keeps_nodes i byTest b) i1
@[simp] theorem fenceState_keep_courier (i : Nat) (byTest : Bool) (b : Block) (i1 : Nat) : (fenceState i byTest b).courier i1 = b.courier i1 := Block.courier_same (fenceState_keeps_couriers i byTest b) i1
@[simp] theorem fenceState_keep_now (i : Nat) (byTest : Bool) (b : Block) : (fenceState i byTest b).now = b.now := Block.now_same (fenceState_keeps_pm i byTest b)
@[simp] theorem fenceState_keep_present (i : Nat) (byTest : Bool) (b : Block) (i1 : Nat) : (fenceState i byTest b).present i1 = b.present i1 := Block.present_same (fenceState_keeps_cfg i byTest b) i1
@[simp] theorem fenceState_keep_populated (i : Nat) (byTest : Bool) (b : Block) (i1 : Nat) : (fenceState i byTest b).populated i1 = b.populated i1 := Block.populated_same (fenceState_keeps_cfg i byTest b) i1
@[simp] theorem unscreen_keep_core (i : Nat) (b : Block) (i1 : Nat) : (unscreen i b).core i1 = b.core i1 := Block.core_same (unscreen_keeps_cores i b) i1
@[simp] theorem unscreen_keep_router (i : Nat) (b : Block) (i1 : Nat) : (unscreen i b).router i1 = b.router i1 := Block.router_same (unscreen_keeps_routers i b) i1
@[simp] theorem unscreen_keep_node (i : Nat) (b : Block) (i1 : Nat) : (unscreen i b).node i1 = b.node i1 := Block.node_same (unscreen_keeps_nodes i b) i1
@[simp] theorem unscreen_keep_courier (i : Nat) (b : Block) (i1 : Nat) : (unscreen i b).courier i1 = b.courier i1 := Block.courier_same (unscreen_keeps_couriers i b) i1
@[simp] theorem unscreen_keep_ring (i : Nat) (b : Block) (i1 : Nat) : (unscreen i b).ring i1 = b.ring i1 := Block.ring_same (unscreen_keeps_mail i b) i1
@[simp] theorem unscreen_keep_now (i : Nat) (b : Block) : (unscreen i b).now = b.now := Block.now_same (unscreen_keeps_pm i b)
@[simp] theorem unscreen_keep_present (i : Nat) (b : Block) (i1 : Nat) : (unscreen i b).present i1 = b.present i1 := Block.present_same (unscreen_keeps_cfg i b) i1
@[simp] theorem unscreen_keep_populated (i : Nat) (b : Block) (i1 : Nat) : (unscreen i b).populated i1 = b.populated i1 := Block.populated_same (unscreen_keeps_cfg i b) i1
@[simp] theorem unscreen_keep_inJob (i : Nat) (b : Block) : (unscreen i b).inJob = b.inJob := Block.inJob_same (unscreen_keeps_job i b)
@[simp] theorem charge_keep_router (i : Nat) (n : Nat) (b : Block) (i1 : Nat) : (charge i n b).router i1 = b.router i1 := Block.router_same (charge_keeps_routers i n b) i1
@[simp] theorem charge_keep_node (i : Nat) (n : Nat) (b : Block) (i1 : Nat) : (charge i n b).node i1 = b.node i1 := Block.node_same (charge_keeps_nodes i n b) i1
@[simp] theorem charge_keep_courier (i : Nat) (n : Nat) (b : Block) (i1 : Nat) : (charge i n b).courier i1 = b.courier i1 := Block.courier_same (charge_keeps_couriers i n b) i1
@[simp] theorem charge_keep_now (i : Nat) (n : Nat) (b : Block) : (charge i n b).now = b.now := Block.now_same (charge_keeps_pm i n b)
@[simp] theorem charge_keep_present (i : Nat) (n : Nat) (b : Block) (i1 : Nat) : (charge i n b).present i1 = b.present i1 := Block.present_same (charge_keeps_cfg i n b) i1
@[simp] theorem charge_keep_populated (i : Nat) (n : Nat) (b : Block) (i1 : Nat) : (charge i n b).populated i1 = b.populated i1 := Block.populated_same (charge_keeps_cfg i n b) i1
@[simp] theorem blockCore_keep_core (i : Nat) (why : Nat) (b : Block) (i1 : Nat) : (blockCore i why b).core i1 = b.core i1 := Block.core_same (blockCore_keeps_cores i why b) i1
@[simp] theorem blockCore_keep_office (i : Nat) (why : Nat) (b : Block) (i1 : Nat) : (blockCore i why b).office i1 = b.office i1 := Block.office_same (blockCore_keeps_offices i why b) i1
@[simp] theorem blockCore_keep_router (i : Nat) (why : Nat) (b : Block) (i1 : Nat) : (blockCore i why b).router i1 = b.router i1 := Block.router_same (blockCore_keeps_routers i why b) i1
@[simp] theorem blockCore_keep_node (i : Nat) (why : Nat) (b : Block) (i1 : Nat) : (blockCore i why b).node i1 = b.node i1 := Block.node_same (blockCore_keeps_nodes i why b) i1
@[simp] theorem blockCore_keep_courier (i : Nat) (why : Nat) (b : Block) (i1 : Nat) : (blockCore i why b).courier i1 = b.courier i1 := Block.courier_same (blockCore_keeps_couriers i why b) i1
@[simp] theorem blockCore_keep_ring (i : Nat) (why : Nat) (b : Block) (i1 : Nat) : (blockCore i why b).ring i1 = b.ring i1 := Block.ring_same (blockCore_keeps_mail i why b) i1
@[simp] theorem blockCore_keep_now (i : Nat) (why : Nat) (b : Block) : (blockCore i why b).now = b.now := Block.now_same (blockCore_keeps_pm i why b)
@[simp] theorem blockCore_keep_present (i : Nat) (why : Nat) (b : Block) (i1 : Nat) : (blockCore i why b).present i1 = b.present i1 := Block.present_same (blockCore_keeps_cfg i why b) i1
@[simp] theorem blockCore_keep_populated (i : Nat) (why : Nat) (b : Block) (i1 : Nat) : (blockCore i why b).populated i1 = b.populated i1 := Block.populated_same (blockCore_keeps_cfg i why b) i1
@[simp] theorem blockCore_keep_inJob (i : Nat) (why : Nat) (b : Block) : (blockCore i why b).inJob = b.inJob := Block.inJob_same (blockCore_keeps_job i why b)
@[simp] theorem failLetterbox_keep_router (i : Nat) (b : Block) (i1 : Nat) : (failLetterbox i b).router i1 = b.router i1 := Block.router_same (failLetterbox_keeps_routers i b) i1
@[simp] theorem failLetterbox_keep_node (i : Nat) (b : Block) (i1 : Nat) : (failLetterbox i b).node i1 = b.node i1 := Block.node_same (failLetterbox_keeps_nodes i b) i1
@[simp] theorem failLetterbox_keep_courier (i : Nat) (b : Block) (i1 : Nat) : (failLetterbox i b).courier i1 = b.courier i1 := Block.courier_same (failLetterbox_keeps_couriers i b) i1
@[simp] theorem failLetterbox_keep_ring (i : Nat) (b : Block) (i1 : Nat) : (failLetterbox i b).ring i1 = b.ring i1 := Block.ring_same (failLetterbox_keeps_mail i b) i1
@[simp] theorem failLetterbox_keep_now (i : Nat) (b : Block) : (failLetterbox i b).now = b.now := Block.now_same (failLetterbox_keeps_pm i b)
@[simp] theorem failLetterbox_keep_present (i : Nat) (b : Block) (i1 : Nat) : (failLetterbox i b).present i1 = b.present i1 := Block.present_same (failLetterbox_keeps_cfg i b) i1
@[simp] theorem failLetterbox_keep_populated (i : Nat) (b : Block) (i1 : Nat) : (failLetterbox i b).populated i1 = b.populated i1 := Block.populated_same (failLetterbox_keeps_cfg i b) i1
@[simp] theorem failLetterbox_keep_inJob (i : Nat) (b : Block) : (failLetterbox i b).inJob = b.inJob := Block.inJob_same (failLetterbox_keeps_job i b)
@[simp] theorem issue_keep_core (o : Outst) (zeroTag : Bool) (final : Bool) (more : Bool) (status : Nat) (part : Nat) (parts : Nat) (detail : Nat) (res : List Byte) (b : Block) (i1 : Nat) : (issue o zeroTag final more status part parts detail res b).core i1 = b.core i1 := Block.core_same (issue_keeps_cores o zeroTag final more status part parts detail res b) i1
@[simp] theorem issue_keep_office (o : Outst) (zeroTag : Bool) (final : Bool) (more : Bool) (status : Nat) (part : Nat) (parts : Nat) (detail : Nat) (res : List Byte) (b : Block) (i1 : Nat) : (issue o zeroTag final more status part parts detail res b).office i1 = b.office i1 := Block.office_same (issue_keeps_offices o zeroTag final more status part parts detail res b) i1
@[simp] theorem issue_keep_router (o : Outst) (zeroTag : Bool) (final : Bool) (more : Bool) (status : Nat) (part : Nat) (parts : Nat) (detail : Nat) (res : List Byte) (b : Block) (i1 : Nat) : (issue o zeroTag final more status part parts detail res b).router i1 = b.router i1 := Block.router_same (issue_keeps_routers o zeroTag final more status part parts detail res b) i1
@[simp] theorem issue_keep_node (o : Outst) (zeroTag : Bool) (final : Bool) (more : Bool) (status : Nat) (part : Nat) (parts : Nat) (detail : Nat) (res : List Byte) (b : Block) (i1 : Nat) : (issue o zeroTag final more status part parts detail res b).node i1 = b.node i1 := Block.node_same (issue_keeps_nodes o zeroTag final more status part parts detail res b) i1
@[simp] theorem issue_keep_courier (o : Outst) (zeroTag : Bool) (final : Bool) (more : Bool) (status : Nat) (part : Nat) (parts : Nat) (detail : Nat) (res : List Byte) (b : Block) (i1 : Nat) : (issue o zeroTag final more status part parts detail res b).courier i1 = b.courier i1 := Block.courier_same (issue_keeps_couriers o zeroTag final more status part parts detail res b) i1
@[simp] theorem issue_keep_hist (o : Outst) (zeroTag : Bool) (final : Bool) (more : Bool) (status : Nat) (part : Nat) (parts : Nat) (detail : Nat) (res : List Byte) (b : Block) (i1 : Nat) : (issue o zeroTag final more status part parts detail res b).hist i1 = b.hist i1 := Block.hist_same (issue_keeps_ledger o zeroTag final more status part parts detail res b) i1
@[simp] theorem issue_keep_now (o : Outst) (zeroTag : Bool) (final : Bool) (more : Bool) (status : Nat) (part : Nat) (parts : Nat) (detail : Nat) (res : List Byte) (b : Block) : (issue o zeroTag final more status part parts detail res b).now = b.now := Block.now_same (issue_keeps_pm o zeroTag final more status part parts detail res b)
@[simp] theorem issue_keep_present (o : Outst) (zeroTag : Bool) (final : Bool) (more : Bool) (status : Nat) (part : Nat) (parts : Nat) (detail : Nat) (res : List Byte) (b : Block) (i1 : Nat) : (issue o zeroTag final more status part parts detail res b).present i1 = b.present i1 := Block.present_same (issue_keeps_cfg o zeroTag final more status part parts detail res b) i1
@[simp] theorem issue_keep_populated (o : Outst) (zeroTag : Bool) (final : Bool) (more : Bool) (status : Nat) (part : Nat) (parts : Nat) (detail : Nat) (res : List Byte) (b : Block) (i1 : Nat) : (issue o zeroTag final more status part parts detail res b).populated i1 = b.populated i1 := Block.populated_same (issue_keeps_cfg o zeroTag final more status part parts detail res b) i1
@[simp] theorem issue_keep_inJob (o : Outst) (zeroTag : Bool) (final : Bool) (more : Bool) (status : Nat) (part : Nat) (parts : Nat) (detail : Nat) (res : List Byte) (b : Block) : (issue o zeroTag final more status part parts detail res b).inJob = b.inJob := Block.inJob_same (issue_keeps_job o zeroTag final more status part parts detail res b)
@[simp] theorem putReceipt_keep_core (r : Nat) (reply : Option (Nat × Nat × Nat)) (rc : List Byte) (b : Block) (i1 : Nat) : (putReceipt r reply rc b).core i1 = b.core i1 := Block.core_same (putReceipt_keeps_cores r reply rc b) i1
@[simp] theorem putReceipt_keep_office (r : Nat) (reply : Option (Nat × Nat × Nat)) (rc : List Byte) (b : Block) (i1 : Nat) : (putReceipt r reply rc b).office i1 = b.office i1 := Block.office_same (putReceipt_keeps_offices r reply rc b) i1
@[simp] theorem putReceipt_keep_router (r : Nat) (reply : Option (Nat × Nat × Nat)) (rc : List Byte) (b : Block) (i1 : Nat) : (putReceipt r reply rc b).router i1 = b.router i1 := Block.router_same (putReceipt_keeps_routers r reply rc b) i1
@[simp] theorem putReceipt_keep_node (r : Nat) (reply : Option (Nat × Nat × Nat)) (rc : List Byte) (b : Block) (i1 : Nat) : (putReceipt r reply rc b).node i1 = b.node i1 := Block.node_same (putReceipt_keeps_nodes r reply rc b) i1
@[simp] theorem putReceipt_keep_courier (r : Nat) (reply : Option (Nat × Nat × Nat)) (rc : List Byte) (b : Block) (i1 : Nat) : (putReceipt r reply rc b).courier i1 = b.courier i1 := Block.courier_same (putReceipt_keeps_couriers r reply rc b) i1
@[simp] theorem putReceipt_keep_hist (r : Nat) (reply : Option (Nat × Nat × Nat)) (rc : List Byte) (b : Block) (i1 : Nat) : (putReceipt r reply rc b).hist i1 = b.hist i1 := Block.hist_same (putReceipt_keeps_ledger r reply rc b) i1
@[simp] theorem putReceipt_keep_now (r : Nat) (reply : Option (Nat × Nat × Nat)) (rc : List Byte) (b : Block) : (putReceipt r reply rc b).now = b.now := Block.now_same (putReceipt_keeps_pm r reply rc b)
@[simp] theorem putReceipt_keep_present (r : Nat) (reply : Option (Nat × Nat × Nat)) (rc : List Byte) (b : Block) (i1 : Nat) : (putReceipt r reply rc b).present i1 = b.present i1 := Block.present_same (putReceipt_keeps_cfg r reply rc b) i1
@[simp] theorem putReceipt_keep_populated (r : Nat) (reply : Option (Nat × Nat × Nat)) (rc : List Byte) (b : Block) (i1 : Nat) : (putReceipt r reply rc b).populated i1 = b.populated i1 := Block.populated_same (putReceipt_keeps_cfg r reply rc b) i1
@[simp] theorem putReceipt_keep_inJob (r : Nat) (reply : Option (Nat × Nat × Nat)) (rc : List Byte) (b : Block) : (putReceipt r reply rc b).inJob = b.inJob := Block.inJob_same (putReceipt_keeps_job r reply rc b)
@[simp] theorem advanceHead_keep_core (r : Nat) (b : Block) (i1 : Nat) : (advanceHead r b).core i1 = b.core i1 := Block.core_same (advanceHead_keeps_cores r b) i1
@[simp] theorem advanceHead_keep_office (r : Nat) (b : Block) (i1 : Nat) : (advanceHead r b).office i1 = b.office i1 := Block.office_same (advanceHead_keeps_offices r b) i1
@[simp] theorem advanceHead_keep_router (r : Nat) (b : Block) (i1 : Nat) : (advanceHead r b).router i1 = b.router i1 := Block.router_same (advanceHead_keeps_routers r b) i1
@[simp] theorem advanceHead_keep_node (r : Nat) (b : Block) (i1 : Nat) : (advanceHead r b).node i1 = b.node i1 := Block.node_same (advanceHead_keeps_nodes r b) i1
@[simp] theorem advanceHead_keep_courier (r : Nat) (b : Block) (i1 : Nat) : (advanceHead r b).courier i1 = b.courier i1 := Block.courier_same (advanceHead_keeps_couriers r b) i1
@[simp] theorem advanceHead_keep_hist (r : Nat) (b : Block) (i1 : Nat) : (advanceHead r b).hist i1 = b.hist i1 := Block.hist_same (advanceHead_keeps_ledger r b) i1
@[simp] theorem advanceHead_keep_now (r : Nat) (b : Block) : (advanceHead r b).now = b.now := Block.now_same (advanceHead_keeps_pm r b)
@[simp] theorem advanceHead_keep_present (r : Nat) (b : Block) (i1 : Nat) : (advanceHead r b).present i1 = b.present i1 := Block.present_same (advanceHead_keeps_cfg r b) i1
@[simp] theorem advanceHead_keep_populated (r : Nat) (b : Block) (i1 : Nat) : (advanceHead r b).populated i1 = b.populated i1 := Block.populated_same (advanceHead_keeps_cfg r b) i1
@[simp] theorem advanceHead_keep_inJob (r : Nat) (b : Block) : (advanceHead r b).inJob = b.inJob := Block.inJob_same (advanceHead_keeps_job r b)
@[simp] theorem pump_keep_core (r : Nat) (fuel : Nat) (b : Block) (i1 : Nat) : (pump r fuel b).core i1 = b.core i1 := Block.core_same (pump_keeps_cores r fuel b) i1
@[simp] theorem pump_keep_office (r : Nat) (fuel : Nat) (b : Block) (i1 : Nat) : (pump r fuel b).office i1 = b.office i1 := Block.office_same (pump_keeps_offices r fuel b) i1
@[simp] theorem pump_keep_router (r : Nat) (fuel : Nat) (b : Block) (i1 : Nat) : (pump r fuel b).router i1 = b.router i1 := Block.router_same (pump_keeps_routers r fuel b) i1
@[simp] theorem pump_keep_node (r : Nat) (fuel : Nat) (b : Block) (i1 : Nat) : (pump r fuel b).node i1 = b.node i1 := Block.node_same (pump_keeps_nodes r fuel b) i1
@[simp] theorem pump_keep_courier (r : Nat) (fuel : Nat) (b : Block) (i1 : Nat) : (pump r fuel b).courier i1 = b.courier i1 := Block.courier_same (pump_keeps_couriers r fuel b) i1
@[simp] theorem pump_keep_now (r : Nat) (fuel : Nat) (b : Block) : (pump r fuel b).now = b.now := Block.now_same (pump_keeps_pm r fuel b)
@[simp] theorem pump_keep_present (r : Nat) (fuel : Nat) (b : Block) (i1 : Nat) : (pump r fuel b).present i1 = b.present i1 := Block.present_same (pump_keeps_cfg r fuel b) i1
@[simp] theorem pump_keep_populated (r : Nat) (fuel : Nat) (b : Block) (i1 : Nat) : (pump r fuel b).populated i1 = b.populated i1 := Block.populated_same (pump_keeps_cfg r fuel b) i1
@[simp] theorem pump_keep_inJob (r : Nat) (fuel : Nat) (b : Block) : (pump r fuel b).inJob = b.inJob := Block.inJob_same (pump_keeps_job r fuel b)
@[simp] theorem nextLetter_keep_core (r : Nat) (b : Block) (i1 : Nat) : (nextLetter r b).core i1 = b.core i1 := Block.core_same (nextLetter_keeps_cores r b) i1
@[simp] theorem nextLetter_keep_office (r : Nat) (b : Block) (i1 : Nat) : (nextLetter r b).office i1 = b.office i1 := Block.office_same (nextLetter_keeps_offices r b) i1
@[simp] theorem nextLetter_keep_router (r : Nat) (b : Block) (i1 : Nat) : (nextLetter r b).router i1 = b.router i1 := Block.router_same (nextLetter_keeps_routers r b) i1
@[simp] theorem nextLetter_keep_node (r : Nat) (b : Block) (i1 : Nat) : (nextLetter r b).node i1 = b.node i1 := Block.node_same (nextLetter_keeps_nodes r b) i1
@[simp] theorem nextLetter_keep_courier (r : Nat) (b : Block) (i1 : Nat) : (nextLetter r b).courier i1 = b.courier i1 := Block.courier_same (nextLetter_keeps_couriers r b) i1
@[simp] theorem nextLetter_keep_now (r : Nat) (b : Block) : (nextLetter r b).now = b.now := Block.now_same (nextLetter_keeps_pm r b)
@[simp] theorem nextLetter_keep_present (r : Nat) (b : Block) (i1 : Nat) : (nextLetter r b).present i1 = b.present i1 := Block.present_same (nextLetter_keeps_cfg r b) i1
@[simp] theorem nextLetter_keep_populated (r : Nat) (b : Block) (i1 : Nat) : (nextLetter r b).populated i1 = b.populated i1 := Block.populated_same (nextLetter_keeps_cfg r b) i1
@[simp] theorem nextLetter_keep_inJob (r : Nat) (b : Block) : (nextLetter r b).inJob = b.inJob := Block.inJob_same (nextLetter_keeps_job r b)
@[simp] theorem answerRefuse_keep_core (r : Nat) (l : Letter) (st : Nat) (d : Nat) (b : Block) (i1 : Nat) : (answerRefuse r l st d b).core i1 = b.core i1 := Block.core_same (answerRefuse_keeps_cores r l st d b) i1
@[simp] theorem answerRefuse_keep_office (r : Nat) (l : Letter) (st : Nat) (d : Nat) (b : Block) (i1 : Nat) : (answerRefuse r l st d b).office i1 = b.office i1 := Block.office_same (answerRefuse_keeps_offices r l st d b) i1
@[simp] theorem answerRefuse_keep_router (r : Nat) (l : Letter) (st : Nat) (d : Nat) (b : Block) (i1 : Nat) : (answerRefuse r l st d b).router i1 = b.router i1 := Block.router_same (answerRefuse_keeps_routers r l st d b) i1
@[simp] theorem answerRefuse_keep_node (r : Nat) (l : Letter) (st : Nat) (d : Nat) (b : Block) (i1 : Nat) : (answerRefuse r l st d b).node i1 = b.node i1 := Block.node_same (answerRefuse_keeps_nodes r l st d b) i1
@[simp] theorem answerRefuse_keep_courier (r : Nat) (l : Letter) (st : Nat) (d : Nat) (b : Block) (i1 : Nat) : (answerRefuse r l st d b).courier i1 = b.courier i1 := Block.courier_same (answerRefuse_keeps_couriers r l st d b) i1
@[simp] theorem answerRefuse_keep_now (r : Nat) (l : Letter) (st : Nat) (d : Nat) (b : Block) : (answerRefuse r l st d b).now = b.now := Block.now_same (answerRefuse_keeps_pm r l st d b)
@[simp] theorem answerRefuse_keep_present (r : Nat) (l : Letter) (st : Nat) (d : Nat) (b : Block) (i1 : Nat) : (answerRefuse r l st d b).present i1 = b.present i1 := Block.present_same (answerRefuse_keeps_cfg r l st d b) i1
@[simp] theorem answerRefuse_keep_populated (r : Nat) (l : Letter) (st : Nat) (d : Nat) (b : Block) (i1 : Nat) : (answerRefuse r l st d b).populated i1 = b.populated i1 := Block.populated_same (answerRefuse_keeps_cfg r l st d b) i1
@[simp] theorem answerRefuse_keep_inJob (r : Nat) (l : Letter) (st : Nat) (d : Nat) (b : Block) : (answerRefuse r l st d b).inJob = b.inJob := Block.inJob_same (answerRefuse_keeps_job r l st d b)
@[simp] theorem answerOk_keep_core (r : Nat) (l : Letter) (res : List Byte) (b : Block) (i1 : Nat) : (answerOk r l res b).core i1 = b.core i1 := Block.core_same (answerOk_keeps_cores r l res b) i1
@[simp] theorem answerOk_keep_office (r : Nat) (l : Letter) (res : List Byte) (b : Block) (i1 : Nat) : (answerOk r l res b).office i1 = b.office i1 := Block.office_same (answerOk_keeps_offices r l res b) i1
@[simp] theorem answerOk_keep_router (r : Nat) (l : Letter) (res : List Byte) (b : Block) (i1 : Nat) : (answerOk r l res b).router i1 = b.router i1 := Block.router_same (answerOk_keeps_routers r l res b) i1
@[simp] theorem answerOk_keep_node (r : Nat) (l : Letter) (res : List Byte) (b : Block) (i1 : Nat) : (answerOk r l res b).node i1 = b.node i1 := Block.node_same (answerOk_keeps_nodes r l res b) i1
@[simp] theorem answerOk_keep_courier (r : Nat) (l : Letter) (res : List Byte) (b : Block) (i1 : Nat) : (answerOk r l res b).courier i1 = b.courier i1 := Block.courier_same (answerOk_keeps_couriers r l res b) i1
@[simp] theorem answerOk_keep_now (r : Nat) (l : Letter) (res : List Byte) (b : Block) : (answerOk r l res b).now = b.now := Block.now_same (answerOk_keeps_pm r l res b)
@[simp] theorem answerOk_keep_present (r : Nat) (l : Letter) (res : List Byte) (b : Block) (i1 : Nat) : (answerOk r l res b).present i1 = b.present i1 := Block.present_same (answerOk_keeps_cfg r l res b) i1
@[simp] theorem answerOk_keep_populated (r : Nat) (l : Letter) (res : List Byte) (b : Block) (i1 : Nat) : (answerOk r l res b).populated i1 = b.populated i1 := Block.populated_same (answerOk_keeps_cfg r l res b) i1
@[simp] theorem answerOk_keep_inJob (r : Nat) (l : Letter) (res : List Byte) (b : Block) : (answerOk r l res b).inJob = b.inJob := Block.inJob_same (answerOk_keeps_job r l res b)
@[simp] theorem answerLater_keep_core (r : Nat) (l : Letter) (acc : List Nat) (b : Block) (i1 : Nat) : (answerLater r l acc b).core i1 = b.core i1 := Block.core_same (answerLater_keeps_cores r l acc b) i1
@[simp] theorem answerLater_keep_office (r : Nat) (l : Letter) (acc : List Nat) (b : Block) (i1 : Nat) : (answerLater r l acc b).office i1 = b.office i1 := Block.office_same (answerLater_keeps_offices r l acc b) i1
@[simp] theorem answerLater_keep_router (r : Nat) (l : Letter) (acc : List Nat) (b : Block) (i1 : Nat) : (answerLater r l acc b).router i1 = b.router i1 := Block.router_same (answerLater_keeps_routers r l acc b) i1
@[simp] theorem answerLater_keep_node (r : Nat) (l : Letter) (acc : List Nat) (b : Block) (i1 : Nat) : (answerLater r l acc b).node i1 = b.node i1 := Block.node_same (answerLater_keeps_nodes r l acc b) i1
@[simp] theorem answerLater_keep_courier (r : Nat) (l : Letter) (acc : List Nat) (b : Block) (i1 : Nat) : (answerLater r l acc b).courier i1 = b.courier i1 := Block.courier_same (answerLater_keeps_couriers r l acc b) i1
@[simp] theorem answerLater_keep_hist (r : Nat) (l : Letter) (acc : List Nat) (b : Block) (i1 : Nat) : (answerLater r l acc b).hist i1 = b.hist i1 := Block.hist_same (answerLater_keeps_ledger r l acc b) i1
@[simp] theorem answerLater_keep_now (r : Nat) (l : Letter) (acc : List Nat) (b : Block) : (answerLater r l acc b).now = b.now := Block.now_same (answerLater_keeps_pm r l acc b)
@[simp] theorem answerLater_keep_present (r : Nat) (l : Letter) (acc : List Nat) (b : Block) (i1 : Nat) : (answerLater r l acc b).present i1 = b.present i1 := Block.present_same (answerLater_keeps_cfg r l acc b) i1
@[simp] theorem answerLater_keep_populated (r : Nat) (l : Letter) (acc : List Nat) (b : Block) (i1 : Nat) : (answerLater r l acc b).populated i1 = b.populated i1 := Block.populated_same (answerLater_keeps_cfg r l acc b) i1
@[simp] theorem answerLater_keep_inJob (r : Nat) (l : Letter) (acc : List Nat) (b : Block) : (answerLater r l acc b).inJob = b.inJob := Block.inJob_same (answerLater_keeps_job r l acc b)
@[simp] theorem answerInterim_keep_core (r : Nat) (l : Letter) (res : List Byte) (acc : List Nat) (b : Block) (i1 : Nat) : (answerInterim r l res acc b).core i1 = b.core i1 := Block.core_same (answerInterim_keeps_cores r l res acc b) i1
@[simp] theorem answerInterim_keep_office (r : Nat) (l : Letter) (res : List Byte) (acc : List Nat) (b : Block) (i1 : Nat) : (answerInterim r l res acc b).office i1 = b.office i1 := Block.office_same (answerInterim_keeps_offices r l res acc b) i1
@[simp] theorem answerInterim_keep_router (r : Nat) (l : Letter) (res : List Byte) (acc : List Nat) (b : Block) (i1 : Nat) : (answerInterim r l res acc b).router i1 = b.router i1 := Block.router_same (answerInterim_keeps_routers r l res acc b) i1
@[simp] theorem answerInterim_keep_node (r : Nat) (l : Letter) (res : List Byte) (acc : List Nat) (b : Block) (i1 : Nat) : (answerInterim r l res acc b).node i1 = b.node i1 := Block.node_same (answerInterim_keeps_nodes r l res acc b) i1
@[simp] theorem answerInterim_keep_courier (r : Nat) (l : Letter) (res : List Byte) (acc : List Nat) (b : Block) (i1 : Nat) : (answerInterim r l res acc b).courier i1 = b.courier i1 := Block.courier_same (answerInterim_keeps_couriers r l res acc b) i1
@[simp] theorem answerInterim_keep_now (r : Nat) (l : Letter) (res : List Byte) (acc : List Nat) (b : Block) : (answerInterim r l res acc b).now = b.now := Block.now_same (answerInterim_keeps_pm r l res acc b)
@[simp] theorem answerInterim_keep_present (r : Nat) (l : Letter) (res : List Byte) (acc : List Nat) (b : Block) (i1 : Nat) : (answerInterim r l res acc b).present i1 = b.present i1 := Block.present_same (answerInterim_keeps_cfg r l res acc b) i1
@[simp] theorem answerInterim_keep_populated (r : Nat) (l : Letter) (res : List Byte) (acc : List Nat) (b : Block) (i1 : Nat) : (answerInterim r l res acc b).populated i1 = b.populated i1 := Block.populated_same (answerInterim_keeps_cfg r l res acc b) i1
@[simp] theorem answerInterim_keep_inJob (r : Nat) (l : Letter) (res : List Byte) (acc : List Nat) (b : Block) : (answerInterim r l res acc b).inJob = b.inJob := Block.inJob_same (answerInterim_keeps_job r l res acc b)
@[simp] theorem answerWhole_keep_core (r : Nat) (l : Letter) (res : List Byte) (st : Nat) (d : Nat) (res2 : List Byte) (b : Block) (i1 : Nat) : (answerWhole r l res st d res2 b).core i1 = b.core i1 := Block.core_same (answerWhole_keeps_cores r l res st d res2 b) i1
@[simp] theorem answerWhole_keep_office (r : Nat) (l : Letter) (res : List Byte) (st : Nat) (d : Nat) (res2 : List Byte) (b : Block) (i1 : Nat) : (answerWhole r l res st d res2 b).office i1 = b.office i1 := Block.office_same (answerWhole_keeps_offices r l res st d res2 b) i1
@[simp] theorem answerWhole_keep_router (r : Nat) (l : Letter) (res : List Byte) (st : Nat) (d : Nat) (res2 : List Byte) (b : Block) (i1 : Nat) : (answerWhole r l res st d res2 b).router i1 = b.router i1 := Block.router_same (answerWhole_keeps_routers r l res st d res2 b) i1
@[simp] theorem answerWhole_keep_node (r : Nat) (l : Letter) (res : List Byte) (st : Nat) (d : Nat) (res2 : List Byte) (b : Block) (i1 : Nat) : (answerWhole r l res st d res2 b).node i1 = b.node i1 := Block.node_same (answerWhole_keeps_nodes r l res st d res2 b) i1
@[simp] theorem answerWhole_keep_courier (r : Nat) (l : Letter) (res : List Byte) (st : Nat) (d : Nat) (res2 : List Byte) (b : Block) (i1 : Nat) : (answerWhole r l res st d res2 b).courier i1 = b.courier i1 := Block.courier_same (answerWhole_keeps_couriers r l res st d res2 b) i1
@[simp] theorem answerWhole_keep_now (r : Nat) (l : Letter) (res : List Byte) (st : Nat) (d : Nat) (res2 : List Byte) (b : Block) : (answerWhole r l res st d res2 b).now = b.now := Block.now_same (answerWhole_keeps_pm r l res st d res2 b)
@[simp] theorem answerWhole_keep_present (r : Nat) (l : Letter) (res : List Byte) (st : Nat) (d : Nat) (res2 : List Byte) (b : Block) (i1 : Nat) : (answerWhole r l res st d res2 b).present i1 = b.present i1 := Block.present_same (answerWhole_keeps_cfg r l res st d res2 b) i1
@[simp] theorem answerWhole_keep_populated (r : Nat) (l : Letter) (res : List Byte) (st : Nat) (d : Nat) (res2 : List Byte) (b : Block) (i1 : Nat) : (answerWhole r l res st d res2 b).populated i1 = b.populated i1 := Block.populated_same (answerWhole_keeps_cfg r l res st d res2 b) i1
@[simp] theorem answerWhole_keep_inJob (r : Nat) (l : Letter) (res : List Byte) (st : Nat) (d : Nat) (res2 : List Byte) (b : Block) : (answerWhole r l res st d res2 b).inJob = b.inJob := Block.inJob_same (answerWhole_keeps_job r l res st d res2 b)
@[simp] theorem answerParts_keep_core (r : Nat) (l : Letter) (ps : List (List Byte)) (b : Block) (i1 : Nat) : (answerParts r l ps b).core i1 = b.core i1 := Block.core_same (answerParts_keeps_cores r l ps b) i1
@[simp] theorem answerParts_keep_office (r : Nat) (l : Letter) (ps : List (List Byte)) (b : Block) (i1 : Nat) : (answerParts r l ps b).office i1 = b.office i1 := Block.office_same (answerParts_keeps_offices r l ps b) i1
@[simp] theorem answerParts_keep_router (r : Nat) (l : Letter) (ps : List (List Byte)) (b : Block) (i1 : Nat) : (answerParts r l ps b).router i1 = b.router i1 := Block.router_same (answerParts_keeps_routers r l ps b) i1
@[simp] theorem answerParts_keep_node (r : Nat) (l : Letter) (ps : List (List Byte)) (b : Block) (i1 : Nat) : (answerParts r l ps b).node i1 = b.node i1 := Block.node_same (answerParts_keeps_nodes r l ps b) i1
@[simp] theorem answerParts_keep_courier (r : Nat) (l : Letter) (ps : List (List Byte)) (b : Block) (i1 : Nat) : (answerParts r l ps b).courier i1 = b.courier i1 := Block.courier_same (answerParts_keeps_couriers r l ps b) i1
@[simp] theorem answerParts_keep_now (r : Nat) (l : Letter) (ps : List (List Byte)) (b : Block) : (answerParts r l ps b).now = b.now := Block.now_same (answerParts_keeps_pm r l ps b)
@[simp] theorem answerParts_keep_present (r : Nat) (l : Letter) (ps : List (List Byte)) (b : Block) (i1 : Nat) : (answerParts r l ps b).present i1 = b.present i1 := Block.present_same (answerParts_keeps_cfg r l ps b) i1
@[simp] theorem answerParts_keep_populated (r : Nat) (l : Letter) (ps : List (List Byte)) (b : Block) (i1 : Nat) : (answerParts r l ps b).populated i1 = b.populated i1 := Block.populated_same (answerParts_keeps_cfg r l ps b) i1
@[simp] theorem answerParts_keep_inJob (r : Nat) (l : Letter) (ps : List (List Byte)) (b : Block) : (answerParts r l ps b).inJob = b.inJob := Block.inJob_same (answerParts_keeps_job r l ps b)
@[simp] theorem deadLetter_keep_core (kind : Nat) (b : Block) (i1 : Nat) : (deadLetter kind b).core i1 = b.core i1 := Block.core_same (deadLetter_keeps_cores kind b) i1
@[simp] theorem deadLetter_keep_office (kind : Nat) (b : Block) (i1 : Nat) : (deadLetter kind b).office i1 = b.office i1 := Block.office_same (deadLetter_keeps_offices kind b) i1
@[simp] theorem deadLetter_keep_router (kind : Nat) (b : Block) (i1 : Nat) : (deadLetter kind b).router i1 = b.router i1 := Block.router_same (deadLetter_keeps_routers kind b) i1
@[simp] theorem deadLetter_keep_node (kind : Nat) (b : Block) (i1 : Nat) : (deadLetter kind b).node i1 = b.node i1 := Block.node_same (deadLetter_keeps_nodes kind b) i1
@[simp] theorem deadLetter_keep_courier (kind : Nat) (b : Block) (i1 : Nat) : (deadLetter kind b).courier i1 = b.courier i1 := Block.courier_same (deadLetter_keeps_couriers kind b) i1
@[simp] theorem deadLetter_keep_hist (kind : Nat) (b : Block) (i1 : Nat) : (deadLetter kind b).hist i1 = b.hist i1 := Block.hist_same (deadLetter_keeps_ledger kind b) i1
@[simp] theorem deadLetter_keep_now (kind : Nat) (b : Block) : (deadLetter kind b).now = b.now := Block.now_same (deadLetter_keeps_pm kind b)
@[simp] theorem deadLetter_keep_present (kind : Nat) (b : Block) (i1 : Nat) : (deadLetter kind b).present i1 = b.present i1 := Block.present_same (deadLetter_keeps_cfg kind b) i1
@[simp] theorem deadLetter_keep_populated (kind : Nat) (b : Block) (i1 : Nat) : (deadLetter kind b).populated i1 = b.populated i1 := Block.populated_same (deadLetter_keeps_cfg kind b) i1
@[simp] theorem deadLetter_keep_inJob (kind : Nat) (b : Block) : (deadLetter kind b).inJob = b.inJob := Block.inJob_same (deadLetter_keeps_job kind b)
@[simp] theorem enterSafe_keep_office (code : Nat) (b : Block) (i1 : Nat) : (enterSafe code b).office i1 = b.office i1 := Block.office_same (enterSafe_keeps_offices code b) i1
@[simp] theorem enterSafe_keep_router (code : Nat) (b : Block) (i1 : Nat) : (enterSafe code b).router i1 = b.router i1 := Block.router_same (enterSafe_keeps_routers code b) i1
@[simp] theorem enterSafe_keep_node (code : Nat) (b : Block) (i1 : Nat) : (enterSafe code b).node i1 = b.node i1 := Block.node_same (enterSafe_keeps_nodes code b) i1
@[simp] theorem enterSafe_keep_courier (code : Nat) (b : Block) (i1 : Nat) : (enterSafe code b).courier i1 = b.courier i1 := Block.courier_same (enterSafe_keeps_couriers code b) i1
@[simp] theorem enterSafe_keep_now (code : Nat) (b : Block) : (enterSafe code b).now = b.now := Block.now_same (enterSafe_keeps_pm code b)
@[simp] theorem enterSafe_keep_present (code : Nat) (b : Block) (i1 : Nat) : (enterSafe code b).present i1 = b.present i1 := Block.present_same (enterSafe_keeps_cfg code b) i1
@[simp] theorem enterSafe_keep_populated (code : Nat) (b : Block) (i1 : Nat) : (enterSafe code b).populated i1 = b.populated i1 := Block.populated_same (enterSafe_keeps_cfg code b) i1
@[simp] theorem fenceHold_keep_office (i : Nat) (b : Block) (i1 : Nat) : (fenceHold i b).office i1 = b.office i1 := Block.office_same (fenceHold_keeps_offices i b) i1
@[simp] theorem fenceHold_keep_router (i : Nat) (b : Block) (i1 : Nat) : (fenceHold i b).router i1 = b.router i1 := Block.router_same (fenceHold_keeps_routers i b) i1
@[simp] theorem fenceHold_keep_node (i : Nat) (b : Block) (i1 : Nat) : (fenceHold i b).node i1 = b.node i1 := Block.node_same (fenceHold_keeps_nodes i b) i1
@[simp] theorem fenceHold_keep_courier (i : Nat) (b : Block) (i1 : Nat) : (fenceHold i b).courier i1 = b.courier i1 := Block.courier_same (fenceHold_keeps_couriers i b) i1
@[simp] theorem fenceHold_keep_ring (i : Nat) (b : Block) (i1 : Nat) : (fenceHold i b).ring i1 = b.ring i1 := Block.ring_same (fenceHold_keeps_mail i b) i1
@[simp] theorem fenceHold_keep_hist (i : Nat) (b : Block) (i1 : Nat) : (fenceHold i b).hist i1 = b.hist i1 := Block.hist_same (fenceHold_keeps_ledger i b) i1
@[simp] theorem fenceHold_keep_now (i : Nat) (b : Block) : (fenceHold i b).now = b.now := Block.now_same (fenceHold_keeps_pm i b)
@[simp] theorem fenceHold_keep_present (i : Nat) (b : Block) (i1 : Nat) : (fenceHold i b).present i1 = b.present i1 := Block.present_same (fenceHold_keeps_cfg i b) i1
@[simp] theorem fenceHold_keep_populated (i : Nat) (b : Block) (i1 : Nat) : (fenceHold i b).populated i1 = b.populated i1 := Block.populated_same (fenceHold_keeps_cfg i b) i1
@[simp] theorem fenceHold_keep_inJob (i : Nat) (b : Block) : (fenceHold i b).inJob = b.inJob := Block.inJob_same (fenceHold_keeps_job i b)
@[simp] theorem writeServing_keep_core (r : Nat) (mb : Bool) (b : Block) (i1 : Nat) : (writeServing r mb b).core i1 = b.core i1 := Block.core_same (writeServing_keeps_cores r mb b) i1
@[simp] theorem writeServing_keep_office (r : Nat) (mb : Bool) (b : Block) (i1 : Nat) : (writeServing r mb b).office i1 = b.office i1 := Block.office_same (writeServing_keeps_offices r mb b) i1
@[simp] theorem writeServing_keep_courier (r : Nat) (mb : Bool) (b : Block) (i1 : Nat) : (writeServing r mb b).courier i1 = b.courier i1 := Block.courier_same (writeServing_keeps_couriers r mb b) i1
@[simp] theorem writeServing_keep_ring (r : Nat) (mb : Bool) (b : Block) (i1 : Nat) : (writeServing r mb b).ring i1 = b.ring i1 := Block.ring_same (writeServing_keeps_mail r mb b) i1
@[simp] theorem writeServing_keep_hist (r : Nat) (mb : Bool) (b : Block) (i1 : Nat) : (writeServing r mb b).hist i1 = b.hist i1 := Block.hist_same (writeServing_keeps_ledger r mb b) i1
@[simp] theorem writeServing_keep_now (r : Nat) (mb : Bool) (b : Block) : (writeServing r mb b).now = b.now := Block.now_same (writeServing_keeps_pm r mb b)
@[simp] theorem writeServing_keep_present (r : Nat) (mb : Bool) (b : Block) (i1 : Nat) : (writeServing r mb b).present i1 = b.present i1 := Block.present_same (writeServing_keeps_cfg r mb b) i1
@[simp] theorem writeServing_keep_populated (r : Nat) (mb : Bool) (b : Block) (i1 : Nat) : (writeServing r mb b).populated i1 = b.populated i1 := Block.populated_same (writeServing_keeps_cfg r mb b) i1
@[simp] theorem writeServing_keep_inJob (r : Nat) (mb : Bool) (b : Block) : (writeServing r mb b).inJob = b.inJob := Block.inJob_same (writeServing_keeps_job r mb b)
@[simp] theorem modOutst_keep_core (op : Nat) (f : List Nat → List Nat) (b : Block) (i1 : Nat) : (modOutst op f b).core i1 = b.core i1 := Block.core_same (modOutst_keeps_cores op f b) i1
@[simp] theorem modOutst_keep_office (op : Nat) (f : List Nat → List Nat) (b : Block) (i1 : Nat) : (modOutst op f b).office i1 = b.office i1 := Block.office_same (modOutst_keeps_offices op f b) i1
@[simp] theorem modOutst_keep_router (op : Nat) (f : List Nat → List Nat) (b : Block) (i1 : Nat) : (modOutst op f b).router i1 = b.router i1 := Block.router_same (modOutst_keeps_routers op f b) i1
@[simp] theorem modOutst_keep_node (op : Nat) (f : List Nat → List Nat) (b : Block) (i1 : Nat) : (modOutst op f b).node i1 = b.node i1 := Block.node_same (modOutst_keeps_nodes op f b) i1
@[simp] theorem modOutst_keep_courier (op : Nat) (f : List Nat → List Nat) (b : Block) (i1 : Nat) : (modOutst op f b).courier i1 = b.courier i1 := Block.courier_same (modOutst_keeps_couriers op f b) i1
@[simp] theorem modOutst_keep_hist (op : Nat) (f : List Nat → List Nat) (b : Block) (i1 : Nat) : (modOutst op f b).hist i1 = b.hist i1 := Block.hist_same (modOutst_keeps_ledger op f b) i1
@[simp] theorem modOutst_keep_now (op : Nat) (f : List Nat → List Nat) (b : Block) : (modOutst op f b).now = b.now := Block.now_same (modOutst_keeps_pm op f b)
@[simp] theorem modOutst_keep_present (op : Nat) (f : List Nat → List Nat) (b : Block) (i1 : Nat) : (modOutst op f b).present i1 = b.present i1 := Block.present_same (modOutst_keeps_cfg op f b) i1
@[simp] theorem modOutst_keep_populated (op : Nat) (f : List Nat → List Nat) (b : Block) (i1 : Nat) : (modOutst op f b).populated i1 = b.populated i1 := Block.populated_same (modOutst_keeps_cfg op f b) i1
@[simp] theorem modOutst_keep_inJob (op : Nat) (f : List Nat → List Nat) (b : Block) : (modOutst op f b).inJob = b.inJob := Block.inJob_same (modOutst_keeps_job op f b)
@[simp] theorem finishOp_keep_core (op : Nat) (status : Nat) (detail : Nat) (res : List Byte) (b : Block) (i1 : Nat) : (finishOp op status detail res b).core i1 = b.core i1 := Block.core_same (finishOp_keeps_cores op status detail res b) i1
@[simp] theorem finishOp_keep_office (op : Nat) (status : Nat) (detail : Nat) (res : List Byte) (b : Block) (i1 : Nat) : (finishOp op status detail res b).office i1 = b.office i1 := Block.office_same (finishOp_keeps_offices op status detail res b) i1
@[simp] theorem finishOp_keep_router (op : Nat) (status : Nat) (detail : Nat) (res : List Byte) (b : Block) (i1 : Nat) : (finishOp op status detail res b).router i1 = b.router i1 := Block.router_same (finishOp_keeps_routers op status detail res b) i1
@[simp] theorem finishOp_keep_node (op : Nat) (status : Nat) (detail : Nat) (res : List Byte) (b : Block) (i1 : Nat) : (finishOp op status detail res b).node i1 = b.node i1 := Block.node_same (finishOp_keeps_nodes op status detail res b) i1
@[simp] theorem finishOp_keep_courier (op : Nat) (status : Nat) (detail : Nat) (res : List Byte) (b : Block) (i1 : Nat) : (finishOp op status detail res b).courier i1 = b.courier i1 := Block.courier_same (finishOp_keeps_couriers op status detail res b) i1
@[simp] theorem finishOp_keep_now (op : Nat) (status : Nat) (detail : Nat) (res : List Byte) (b : Block) : (finishOp op status detail res b).now = b.now := Block.now_same (finishOp_keeps_pm op status detail res b)
@[simp] theorem finishOp_keep_present (op : Nat) (status : Nat) (detail : Nat) (res : List Byte) (b : Block) (i1 : Nat) : (finishOp op status detail res b).present i1 = b.present i1 := Block.present_same (finishOp_keeps_cfg op status detail res b) i1
@[simp] theorem finishOp_keep_populated (op : Nat) (status : Nat) (detail : Nat) (res : List Byte) (b : Block) (i1 : Nat) : (finishOp op status detail res b).populated i1 = b.populated i1 := Block.populated_same (finishOp_keeps_cfg op status detail res b) i1
@[simp] theorem finishOp_keep_inJob (op : Nat) (status : Nat) (detail : Nat) (res : List Byte) (b : Block) : (finishOp op status detail res b).inJob = b.inJob := Block.inJob_same (finishOp_keeps_job op status detail res b)
@[simp] theorem setGen_keep_core (g : Option GenRec) (b : Block) (i1 : Nat) : (setGen g b).core i1 = b.core i1 := Block.core_same (setGen_keeps_cores g b) i1
@[simp] theorem setGen_keep_office (g : Option GenRec) (b : Block) (i1 : Nat) : (setGen g b).office i1 = b.office i1 := Block.office_same (setGen_keeps_offices g b) i1
@[simp] theorem setGen_keep_router (g : Option GenRec) (b : Block) (i1 : Nat) : (setGen g b).router i1 = b.router i1 := Block.router_same (setGen_keeps_routers g b) i1
@[simp] theorem setGen_keep_node (g : Option GenRec) (b : Block) (i1 : Nat) : (setGen g b).node i1 = b.node i1 := Block.node_same (setGen_keeps_nodes g b) i1
@[simp] theorem setGen_keep_courier (g : Option GenRec) (b : Block) (i1 : Nat) : (setGen g b).courier i1 = b.courier i1 := Block.courier_same (setGen_keeps_couriers g b) i1
@[simp] theorem setGen_keep_ring (g : Option GenRec) (b : Block) (i1 : Nat) : (setGen g b).ring i1 = b.ring i1 := Block.ring_same (setGen_keeps_mail g b) i1
@[simp] theorem setGen_keep_now (g : Option GenRec) (b : Block) : (setGen g b).now = b.now := Block.now_same (setGen_keeps_pm g b)
@[simp] theorem setGen_keep_present (g : Option GenRec) (b : Block) (i1 : Nat) : (setGen g b).present i1 = b.present i1 := Block.present_same (setGen_keeps_cfg g b) i1
@[simp] theorem setGen_keep_populated (g : Option GenRec) (b : Block) (i1 : Nat) : (setGen g b).populated i1 = b.populated i1 := Block.populated_same (setGen_keeps_cfg g b) i1
@[simp] theorem setGen_keep_inJob (g : Option GenRec) (b : Block) : (setGen g b).inJob = b.inJob := Block.inJob_same (setGen_keeps_job g b)
@[simp] theorem fillTo_keep_core (pick : Fill → Bool) (ph : Nat) (b : Block) (i1 : Nat) : (fillTo pick ph b).core i1 = b.core i1 := Block.core_same (fillTo_keeps_cores pick ph b) i1
@[simp] theorem fillTo_keep_office (pick : Fill → Bool) (ph : Nat) (b : Block) (i1 : Nat) : (fillTo pick ph b).office i1 = b.office i1 := Block.office_same (fillTo_keeps_offices pick ph b) i1
@[simp] theorem fillTo_keep_router (pick : Fill → Bool) (ph : Nat) (b : Block) (i1 : Nat) : (fillTo pick ph b).router i1 = b.router i1 := Block.router_same (fillTo_keeps_routers pick ph b) i1
@[simp] theorem fillTo_keep_node (pick : Fill → Bool) (ph : Nat) (b : Block) (i1 : Nat) : (fillTo pick ph b).node i1 = b.node i1 := Block.node_same (fillTo_keeps_nodes pick ph b) i1
@[simp] theorem fillTo_keep_courier (pick : Fill → Bool) (ph : Nat) (b : Block) (i1 : Nat) : (fillTo pick ph b).courier i1 = b.courier i1 := Block.courier_same (fillTo_keeps_couriers pick ph b) i1
@[simp] theorem fillTo_keep_ring (pick : Fill → Bool) (ph : Nat) (b : Block) (i1 : Nat) : (fillTo pick ph b).ring i1 = b.ring i1 := Block.ring_same (fillTo_keeps_mail pick ph b) i1
@[simp] theorem fillTo_keep_now (pick : Fill → Bool) (ph : Nat) (b : Block) : (fillTo pick ph b).now = b.now := Block.now_same (fillTo_keeps_pm pick ph b)
@[simp] theorem fillTo_keep_present (pick : Fill → Bool) (ph : Nat) (b : Block) (i1 : Nat) : (fillTo pick ph b).present i1 = b.present i1 := Block.present_same (fillTo_keeps_cfg pick ph b) i1
@[simp] theorem fillTo_keep_populated (pick : Fill → Bool) (ph : Nat) (b : Block) (i1 : Nat) : (fillTo pick ph b).populated i1 = b.populated i1 := Block.populated_same (fillTo_keeps_cfg pick ph b) i1
@[simp] theorem endFills_keep_core (b : Block) (i1 : Nat) : (endFills b).core i1 = b.core i1 := Block.core_same (endFills_keeps_cores b) i1
@[simp] theorem endFills_keep_office (b : Block) (i1 : Nat) : (endFills b).office i1 = b.office i1 := Block.office_same (endFills_keeps_offices b) i1
@[simp] theorem endFills_keep_router (b : Block) (i1 : Nat) : (endFills b).router i1 = b.router i1 := Block.router_same (endFills_keeps_routers b) i1
@[simp] theorem endFills_keep_node (b : Block) (i1 : Nat) : (endFills b).node i1 = b.node i1 := Block.node_same (endFills_keeps_nodes b) i1
@[simp] theorem endFills_keep_courier (b : Block) (i1 : Nat) : (endFills b).courier i1 = b.courier i1 := Block.courier_same (endFills_keeps_couriers b) i1
@[simp] theorem endFills_keep_ring (b : Block) (i1 : Nat) : (endFills b).ring i1 = b.ring i1 := Block.ring_same (endFills_keeps_mail b) i1
@[simp] theorem endFills_keep_now (b : Block) : (endFills b).now = b.now := Block.now_same (endFills_keeps_pm b)
@[simp] theorem endFills_keep_present (b : Block) (i1 : Nat) : (endFills b).present i1 = b.present i1 := Block.present_same (endFills_keeps_cfg b) i1
@[simp] theorem endFills_keep_populated (b : Block) (i1 : Nat) : (endFills b).populated i1 = b.populated i1 := Block.populated_same (endFills_keeps_cfg b) i1
@[simp] theorem sendKept_keep_node (u : Nat) (p : Packet) (b : Block) (i1 : Nat) : (sendKept u p b).node i1 = b.node i1 := Block.node_same (sendKept_keeps_nodes u p b) i1
@[simp] theorem sendKept_keep_ring (u : Nat) (p : Packet) (b : Block) (i1 : Nat) : (sendKept u p b).ring i1 = b.ring i1 := Block.ring_same (sendKept_keeps_mail u p b) i1
@[simp] theorem sendKept_keep_hist (u : Nat) (p : Packet) (b : Block) (i1 : Nat) : (sendKept u p b).hist i1 = b.hist i1 := Block.hist_same (sendKept_keeps_ledger u p b) i1
@[simp] theorem sendKept_keep_now (u : Nat) (p : Packet) (b : Block) : (sendKept u p b).now = b.now := Block.now_same (sendKept_keeps_pm u p b)
@[simp] theorem sendKept_keep_present (u : Nat) (p : Packet) (b : Block) (i1 : Nat) : (sendKept u p b).present i1 = b.present i1 := Block.present_same (sendKept_keeps_cfg u p b) i1
@[simp] theorem sendKept_keep_populated (u : Nat) (p : Packet) (b : Block) (i1 : Nat) : (sendKept u p b).populated i1 = b.populated i1 := Block.populated_same (sendKept_keeps_cfg u p b) i1
@[simp] theorem sendKept_keep_inJob (u : Nat) (p : Packet) (b : Block) : (sendKept u p b).inJob = b.inJob := Block.inJob_same (sendKept_keeps_job u p b)
@[simp] theorem disarm_keep_office (b : Block) (i1 : Nat) : (disarm b).office i1 = b.office i1 := Block.office_same (disarm_keeps_offices b) i1
@[simp] theorem disarm_keep_router (b : Block) (i1 : Nat) : (disarm b).router i1 = b.router i1 := Block.router_same (disarm_keeps_routers b) i1
@[simp] theorem disarm_keep_node (b : Block) (i1 : Nat) : (disarm b).node i1 = b.node i1 := Block.node_same (disarm_keeps_nodes b) i1
@[simp] theorem disarm_keep_courier (b : Block) (i1 : Nat) : (disarm b).courier i1 = b.courier i1 := Block.courier_same (disarm_keeps_couriers b) i1
@[simp] theorem disarm_keep_present (b : Block) (i1 : Nat) : (disarm b).present i1 = b.present i1 := Block.present_same (disarm_keeps_cfg b) i1
@[simp] theorem disarm_keep_populated (b : Block) (i1 : Nat) : (disarm b).populated i1 = b.populated i1 := Block.populated_same (disarm_keeps_cfg b) i1

end Sys2Proof.Machine
end

