-- ==== Sys2Proof/Laws/Memory.lean ====
section
/-! SUPPORT. The byte memory of the letter windows: every write keeps the canonical form, a read after a write gives
the value written, and a write leaves every other byte alone. -/

namespace Sys2Proof.Machine

open Sys2Proof

theorem memWfFrom_mono {m : List Host.Cell} {lo hi : Nat} (h : lo ≤ hi) (w : memWfFrom hi m = true) : memWfFrom lo m = true := by
  cases m with
  | nil => rfl
  | cons p r =>
    simp only [memWfFrom, Bool.and_eq_true, decide_eq_true_eq] at w ⊢
    exact ⟨⟨Nat.le_trans h w.1.1, w.1.2⟩, w.2⟩

/-- One byte written keeps the form from any lower bound at or below both the address and the old bound. -/
theorem memWrite_wfFrom {m : List Host.Cell} {a : Nat} {x : Byte} {lo : Nat} (hl : lo ≤ a) (w : memWfFrom lo m = true) :
    memWfFrom lo (memWrite m a x) = true := by
  induction m generalizing lo with
  | nil =>
    unfold memWrite
    split
    · rfl
    · simpa [memWfFrom, hl] using ‹¬x = 0›
  | cons p r ih =>
    obtain ⟨j, y⟩ := p
    simp only [memWfFrom, Bool.and_eq_true, decide_eq_true_eq] at w
    obtain ⟨⟨hj, hy⟩, hr⟩ := w
    unfold memWrite
    split
    · split
      · simpa [memWfFrom, hj, hr] using hy
      · simp only [memWfFrom, Bool.and_eq_true, decide_eq_true_eq]
        exact ⟨⟨hl, ‹_›⟩, ⟨by omega, hy⟩, hr⟩
    · split
      · split
        · exact memWfFrom_mono (by omega) hr
        · simp only [memWfFrom, Bool.and_eq_true, decide_eq_true_eq]
          subst_vars
          exact ⟨⟨hl, ‹_›⟩, hr⟩
      · simp only [memWfFrom, Bool.and_eq_true, decide_eq_true_eq]
        exact ⟨⟨hj, hy⟩, ih (by omega) hr⟩

theorem memWrite_wf {m : List Host.Cell} (a : Nat) (x : Byte) (w : Memory.wf m = true) : Memory.wf (memWrite m a x) = true :=
  memWrite_wfFrom (Nat.zero_le a) w

theorem memWrites_wf {m : List Host.Cell} (a : Nat) (l : List Byte) (w : Memory.wf m = true) : Memory.wf (memWrites m a l) = true := by
  induction l generalizing m a with
  | nil => exact w
  | cons x r ih => exact ih (a + 1) (memWrite_wf a x w)

theorem memRead_of_low {m : List Host.Cell} {lo a : Nat} (w : memWfFrom lo m = true) (h : a < lo) : memRead m a = 0 := by
  induction m generalizing lo with
  | nil => rfl
  | cons p r ih =>
    obtain ⟨j, y⟩ := p
    simp only [memWfFrom, Bool.and_eq_true, decide_eq_true_eq] at w
    simp only [memRead]
    rw [if_neg (by omega)]
    exact ih w.2 (by omega)

theorem memRead_write_self {m : List Host.Cell} {lo : Nat} (a : Nat) (x : Byte) (w : memWfFrom lo m = true) :
    memRead (memWrite m a x) a = x := by
  induction m generalizing lo with
  | nil =>
    unfold memWrite
    split <;> simp [memRead, *]
  | cons p r ih =>
    obtain ⟨j, y⟩ := p
    simp only [memWfFrom, Bool.and_eq_true, decide_eq_true_eq] at w
    unfold memWrite
    split
    · split
      · subst_vars
        simp only [memRead]
        rw [if_neg (by omega)]
        exact memRead_of_low w.2 (by omega)
      · simp [memRead]
    · split
      · split
        · subst_vars
          exact memRead_of_low w.2 (by omega)
        · simp [memRead]
      · simp only [memRead]
        rw [if_neg (by omega)]
        exact ih w.2

theorem memRead_write_ne {m : List Host.Cell} {a c : Nat} (x : Byte) (h : c ≠ a) : memRead (memWrite m a x) c = memRead m c := by
  induction m with
  | nil =>
    unfold memWrite
    split
    · rfl
    · simp [memRead, Ne.symm h]
  | cons p r ih =>
    obtain ⟨j, y⟩ := p
    unfold memWrite
    split
    · split
      · rfl
      · simp [memRead, Ne.symm h]
    · split
      · split
        · simp only [memRead]
          rw [if_neg (by omega)]
        · simp only [memRead]
          rw [if_neg (by omega), if_neg (by omega)]
      · simp only [memRead, ih]

/-- A write of several bytes leaves every byte outside them. -/
theorem memRead_writes_out {m : List Host.Cell} {a c : Nat} (l : List Byte) (h : c < a ∨ a + l.length ≤ c) :
    memRead (memWrites m a l) c = memRead m c := by
  induction l generalizing m a with
  | nil => rfl
  | cons x r ih =>
    simp only [List.length_cons] at h
    show memRead (memWrites (memWrite m a x) (a + 1) r) c = _
    rw [ih (by omega), memRead_write_ne x (by omega)]

/-- Byte i of those written reads as written. -/
theorem memRead_writes_in {m : List Host.Cell} (a i : Nat) (l : List Byte) (w : Memory.wf m = true) (h : i < l.length) :
    memRead (memWrites m a l) (a + i) = l[i] := by
  induction l generalizing m a i with
  | nil => simp at h
  | cons x r ih =>
    show memRead (memWrites (memWrite m a x) (a + 1) r) (a + i) = _
    cases i with
    | zero => rw [memRead_writes_out r (by omega)]; exact memRead_write_self a x w
    | succ k =>
      rw [show a + (k + 1) = a + 1 + k by omega]
      rw [ih (a + 1) k (memWrite_wf a x w) (by simpa using h)]
      rfl

end Sys2Proof.Machine
end

