-- ==== Sys2Proof/Laws/PerInstr.lean ====
section
/-! SUPPORT. Statements made per command: spec/opcode_table.json gives no row any bits, so no word spells the command. -/

namespace Sys2Proof.Laws.NoWord

/-- No word spells the command. -/
def Statement (i : Instr) : Prop := ∀ nbits w : Nat, decodeTableWord nbits w ≠ some i

theorem blockPowerOnReset : Statement .blockPowerOnReset := nofun
theorem blockResetRelease (lc lcInv : BitVec 3) (arPresent idVld : Bool) (feed loop : BitVec 16) (rack : BitVec 24) (mfgId : BitVec 11) (rgnVok : BitVec 128) : Statement (.blockResetRelease lc lcInv arPresent idVld feed loop rack mfgId rgnVok) := nofun
theorem postmarkDomainTestDone (pass : Bool) (legs : List LegSample) : Statement (.postmarkDomainTestDone pass legs) := nofun
theorem headOfficeTestDone (pass : DomainTests) (bootSel : BitVec 1) (slot0 slot1 : Option (List Byte)) : Statement (.headOfficeTestDone pass bootSel slot0 slot1) := nofun
theorem configurationCheck (image : List Host.Cell) (present : List (Nat × Nat)) : Statement (.configurationCheck image present) := nofun
theorem ledgerReloadDone (slotA slotB : Option LedgerImage) : Statement (.ledgerReloadDone slotA slotB) := nofun
theorem officeMemberTestDone (region : RegionIdx) (member : BitVec 1) (pass : Bool) (legs : List LegSample) : Statement (.officeMemberTestDone region member pass legs) := nofun
theorem routerLoopbackDone (region : RegionIdx) (router : BitVec 7) (pass : Bool) : Statement (.routerLoopbackDone region router pass) := nofun
theorem courierDomainTestDone (n : BitVec 4) (portPass tapPass : Bool) : Statement (.courierDomainTestDone n portPass tapPass) := nofun
theorem officeLedgerDelivered (region : RegionIdx) : Statement (.officeLedgerDelivered region) := nofun
theorem waveRequest : Statement .waveRequest := nofun
theorem waveAck : Statement .waveAck := nofun
theorem waveFail : Statement .waveFail := nofun
theorem waveTimeout : Statement .waveTimeout := nofun
theorem boardMapPublication : Statement .boardMapPublication := nofun
theorem corePorAssert (core : CoreIdx) : Statement (.corePorAssert core) := nofun
theorem corePorRelease (core : CoreIdx) (ctrlPass checkPass : Bool) : Statement (.corePorRelease core ctrlPass checkPass) := nofun
theorem alignmentEpochCheck (core : CoreIdx) (cycles : BitVec 16) : Statement (.alignmentEpochCheck core cycles) := nofun
theorem clockChangeDeclared (core : CoreIdx) : Statement (.clockChangeDeclared core) := nofun
theorem clockChangeEnded (core : CoreIdx) : Statement (.clockChangeEnded core) := nofun
theorem weightBeat (core : CoreIdx) (b : WeightBeat) : Statement (.weightBeat core b) := nofun
theorem activationBeat (core : CoreIdx) (b : ActBeat) : Statement (.activationBeat core b) := nofun
theorem accumulatorDrain (core : CoreIdx) (b : AccBeat) : Statement (.accumulatorDrain core b) := nofun
theorem rowCompare (core : CoreIdx) : Statement (.rowCompare core) := nofun
theorem outputBeat (core : CoreIdx) (b : OutBeat) : Statement (.outputBeat core b) := nofun
theorem saturationPulse (core : CoreIdx) : Statement (.saturationPulse core) := nofun
theorem flushSticky (core : CoreIdx) (level : Bool) : Statement (.flushSticky core level) := nofun
theorem tileVerdict (core : CoreIdx) (tag : BitVec 2) : Statement (.tileVerdict core tag) := nofun
theorem coreSummary (core : CoreIdx) : Statement (.coreSummary core) := nofun
theorem milestone (core : CoreIdx) (id : BitVec 6) (cyc : BitVec 48) : Statement (.milestone core id cyc) := nofun
theorem stall (core : CoreIdx) : Statement (.stall core) := nofun
theorem waitBegin (core : CoreIdx) (chan : BitVec 8) (peer : BitVec 20) : Statement (.waitBegin core chan peer) := nofun
theorem waitClear (core : CoreIdx) : Statement (.waitClear core) := nofun
theorem shadowDescriptorRead (core : CoreIdx) (slot : DescRead) : Statement (.shadowDescriptorRead core slot) := nofun
theorem fenceOrder (core : CoreIdx) (toHold : Bool) : Statement (.fenceOrder core toHold) := nofun
theorem fenceAck (core : CoreIdx) : Statement (.fenceAck core) := nofun
theorem fenceTimeout (core : CoreIdx) : Statement (.fenceTimeout core) := nofun
theorem coreRelease (core : CoreIdx) : Statement (.coreRelease core) := nofun
theorem testRequest (core : TestDrive) : Statement (.testRequest core) := nofun
theorem testAck (core : CoreIdx) : Statement (.testAck core) := nofun
theorem testDone (core : CoreIdx) (pass : Bool) (sig : BitVec 32) : Statement (.testDone core pass sig) := nofun
theorem testTimeout (core : CoreIdx) : Statement (.testTimeout core) := nofun
theorem captureRequest (core : CoreIdx) (load : Bool) (beats : BitVec 13) : Statement (.captureRequest core load beats) := nofun
theorem captureAck (core : CoreIdx) : Statement (.captureAck core) := nofun
theorem captureBeat (core : CoreIdx) (data : BitVec 128) (last : Bool) : Statement (.captureBeat core data last) := nofun
theorem captureTimeout (core : CoreIdx) : Statement (.captureTimeout core) := nofun
theorem captureClose (core : CoreIdx) : Statement (.captureClose core) := nofun
theorem intakeBeat (n : BitVec 4) (b : IntakeBeat) : Statement (.intakeBeat n b) := nofun
theorem egressInputBeat (n : BitVec 4) (b : EgressBeat) : Statement (.egressInputBeat n b) := nofun
theorem egressOutputBeat (n : BitVec 4) (b : EgressBeat) : Statement (.egressOutputBeat n b) := nofun
theorem egressStepEnd (n : BitVec 4) (step : BitVec 32) : Statement (.egressStepEnd n step) := nofun
theorem frankPresent : Statement .frankPresent := nofun
theorem frankAccept (n : BitVec 4) : Statement (.frankAccept n) := nofun
theorem crLinkUp (n : BitVec 4) : Statement (.crLinkUp n) := nofun
theorem crLinkDown (n : BitVec 4) : Statement (.crLinkDown n) := nofun
theorem crWriteResponse (n : BitVec 4) (id : BitVec 10) (resp : BitVec 2) : Statement (.crWriteResponse n id resp) := nofun
theorem crReadBeat (n : BitVec 4) (id : BitVec 10) (data : BitVec 2048) (par : BitVec 64) (last : Bool) (resp : BitVec 2) : Statement (.crReadBeat n id data par last resp) := nofun
theorem crFlitTransmit (n : BitVec 4) (vc : BitVec 4) : Statement (.crFlitTransmit n vc) := nofun
theorem crCreditReturn (n : BitVec 4) (vc : BitVec 4) : Statement (.crCreditReturn n vc) := nofun
theorem crFlitReceive (n : BitVec 4) (vc : BitVec 4) (f : CourierFlit) : Statement (.crFlitReceive n vc f) := nofun
theorem fleetPacketReceive (n : BitVec 4) (vc : BitVec 4) : Statement (.fleetPacketReceive n vc) := nofun
theorem transitSlotReport (n : BitVec 4) : Statement (.transitSlotReport n) := nofun
theorem transitLost (n : BitVec 4) (vc : BitVec 4) (source : BitVec 5) : Statement (.transitLost n vc source) := nofun
theorem hostDone : Statement .hostDone := nofun
theorem externalResetRequest : Statement .externalResetRequest := nofun
theorem syncPulse (long : Bool) : Statement (.syncPulse long) := nofun
theorem syncMissing : Statement .syncMissing := nofun
theorem refLost : Statement .refLost := nofun
theorem legRemeasure (legs : List LegSample) : Statement (.legRemeasure legs) := nofun
theorem powerIdValid (vld : Bool) (feed loop : BitVec 16) (rack : BitVec 24) : Statement (.powerIdValid vld feed loop rack) := nofun
theorem regionVokFall (region : RegionIdx) (restored : Bool) : Statement (.regionVokFall region restored) := nofun
theorem testWindow (core : CoreIdx) : Statement (.testWindow core) := nofun
theorem shutdownRequest : Statement .shutdownRequest := nofun
theorem archiveDone (status : BitVec 2) : Statement (.archiveDone status) := nofun
theorem keyPortWord (slot : BitVec 2) (data : BitVec 32) (last : Bool) : Statement (.keyPortWord slot data last) := nofun
theorem zeroizeRequest : Statement .zeroizeRequest := nofun
theorem stopInput (level : Bool) : Statement (.stopInput level) := nofun
theorem stopOutputPulseEnd : Statement .stopOutputPulseEnd := nofun
theorem stopCountReached : Statement .stopCountReached := nofun
theorem stopReleased : Statement .stopReleased := nofun
theorem resumeCountReached : Statement .resumeCountReached := nofun
theorem resumeLate : Statement .resumeLate := nofun
theorem launchArmDeadline : Statement .launchArmDeadline := nofun
theorem launchCountReached : Statement .launchCountReached := nofun
theorem stepBoundary : Statement .stepBoundary := nofun
theorem diceFill (region : RegionIdx) (tiles : List (BitVec 20 × BitVec 32)) (late : List (BitVec 20 × BitVec 8)) : Statement (.diceFill region tiles late) := nofun
theorem officeVerdictReceive (region : RegionIdx) (cluster : BitVec 7) : Statement (.officeVerdictReceive region cluster) := nofun
theorem coreSummaryReceive (region : RegionIdx) (cluster : BitVec 7) : Statement (.coreSummaryReceive region cluster) := nofun
theorem regionVerdictDeadline (region : RegionIdx) : Statement (.regionVerdictDeadline region) := nofun
theorem regionRecordReceive : Statement .regionRecordReceive := nofun
theorem egressSummaryReceive : Statement .egressSummaryReceive := nofun
theorem stepDecision : Statement .stepDecision := nofun
theorem decisionReceive (region : RegionIdx) : Statement (.decisionReceive region) := nofun
theorem fillPhaseComplete (region : RegionIdx) (role : BitVec 20) (ok : Bool) : Statement (.fillPhaseComplete region role ok) := nofun
theorem fillTimeout (region : RegionIdx) (role : BitVec 20) : Statement (.fillTimeout region role) := nofun
theorem cleanHour : Statement .cleanHour := nofun
theorem waitGraphBuild : Statement .waitGraphBuild := nofun
theorem stallEventReceive (region : RegionIdx) (cluster : BitVec 7) : Statement (.stallEventReceive region cluster) := nofun
theorem eventForward (region : RegionIdx) : Statement (.eventForward region) := nofun
theorem testUnitPlace (region : RegionIdx) : Statement (.testUnitPlace region) := nofun
theorem standbyPeriod (region : RegionIdx) : Statement (.standbyPeriod region) := nofun
theorem standbyCopyDone (region : RegionIdx) : Statement (.standbyCopyDone region) := nofun
theorem plannedSwap (region : RegionIdx) : Statement (.plannedSwap region) := nofun
theorem routerRound (region : RegionIdx) (pass : Bool) : Statement (.routerRound region pass) := nofun
theorem officePrimaryFail (region : RegionIdx) : Statement (.officePrimaryFail region) := nofun
theorem lockstepDisagree : Statement .lockstepDisagree := nofun
theorem sramUncorrectable (mem : SramUnit) : Statement (.sramUncorrectable mem) := nofun
theorem routerFrame (unit : FrameTurn) : Statement (.routerFrame unit) := nofun
theorem seamDeliver (unit : BitVec 24) (dir : BitVec 2) : Statement (.seamDeliver unit dir) := nofun
theorem terminalReceive (unit : BitVec 24) (full : Bool) : Statement (.terminalReceive unit full) := nofun
theorem returnedReceive (unit : BitVec 24) : Statement (.returnedReceive unit) := nofun
theorem resendTimer (unit : BitVec 24) : Statement (.resendTimer unit) := nofun
theorem congestionSample (region : RegionIdx) (router : BitVec 7) : Statement (.congestionSample region router) := nofun
theorem regionMapSend (region : RegionIdx) : Statement (.regionMapSend region) := nofun
theorem waferMapBroadcast : Statement .waferMapBroadcast := nofun
theorem tableSwapStart (region : RegionIdx) (around : SwapPlan) : Statement (.tableSwapStart region around) := nofun
theorem tableVersionRetire : Statement .tableVersionRetire := nofun
theorem stagedActivation (unit : BitVec 24) : Statement (.stagedActivation unit) := nofun
theorem stageAckTimeout (unit target : BitVec 24) : Statement (.stageAckTimeout unit target) := nofun
theorem fleetHello : Statement .fleetHello := nofun
theorem helloPeriodic : Statement .helloPeriodic := nofun
theorem partnerStale (wafer : BitVec 16) : Statement (.partnerStale wafer) := nofun
theorem partnerRemove (wafer : BitVec 16) : Statement (.partnerRemove wafer) := nofun
theorem letterMessage : Statement .letterMessage := nofun
theorem letterFwd : Statement .letterFwd := nofun
theorem receiptMessage : Statement .receiptMessage := nofun
theorem replyTimeout (slot : BitVec 10) : Statement (.replyTimeout slot) := nofun
theorem fragmentTimeout (source : BitVec 16) (reqSeq : BitVec 16) : Statement (.fragmentTimeout source reqSeq) := nofun
theorem ringLetterRelay (ring : BitVec 6) : Statement (.ringLetterRelay ring) := nofun
theorem bulkOpen : Statement .bulkOpen := nofun
theorem bulkGrant : Statement .bulkGrant := nofun
theorem bulkData : Statement .bulkData := nofun
theorem bulkCredit : Statement .bulkCredit := nofun
theorem bulkCreditTimeout (stream : BitVec 6) : Statement (.bulkCreditTimeout stream) := nofun
theorem collUp : Statement .collUp := nofun
theorem collDown : Statement .collDown := nofun
theorem collTimeout (id : BitVec 4) : Statement (.collTimeout id) := nofun
theorem hostWarmTimeout : Statement .hostWarmTimeout := nofun
theorem hostColdTimeout : Statement .hostColdTimeout := nofun
theorem parcelPrepare : Statement .parcelPrepare := nofun
theorem parcelReserveRenew : Statement .parcelReserveRenew := nofun
theorem parcelVoteLate : Statement .parcelVoteLate := nofun
theorem parcelStop : Statement .parcelStop := nofun
theorem parcelRootBuild : Statement .parcelRootBuild := nofun
theorem parcelCommitSend : Statement .parcelCommitSend := nofun
theorem parcelOverrun : Statement .parcelOverrun := nofun
theorem parcelUngate : Statement .parcelUngate := nofun
theorem parcelCommitAnswer (second ok : Bool) : Statement (.parcelCommitAnswer second ok) := nofun
theorem parcelCommitTimeout (second : Bool) : Statement (.parcelCommitTimeout second) := nofun
theorem reservationLapse (holdee : BitVec 16) (gen : BitVec 32) : Statement (.reservationLapse holdee gen) := nofun
theorem teardownQuiesced : Statement .teardownQuiesced := nofun
theorem teardownForce : Statement .teardownForce := nofun
theorem imagePacket (core : CoreIdx) (p : ImagePacket) : Statement (.imagePacket core p) := nofun
theorem imageRoundEnd (region : RegionIdx) : Statement (.imageRoundEnd region) := nofun
theorem imageReadbackDone (core : CoreIdx) (data : List Byte) : Statement (.imageReadbackDone core data) := nofun
theorem hello (ring : BitVec 6) : Statement (.hello ring) := nofun
theorem identify (ring : BitVec 6) : Statement (.identify ring) := nofun
theorem inventory (ring : BitVec 6) : Statement (.inventory ring) := nofun
theorem measure (ring : BitVec 6) : Statement (.measure ring) := nofun
theorem jobLoad (ring : BitVec 6) (data : Option (List Byte)) : Statement (.jobLoad ring data) := nofun
theorem launch (ring : BitVec 6) (unarmed : List CoreIdx) : Statement (.launch ring unarmed) := nofun
theorem stopAt (ring : BitVec 6) : Statement (.stopAt ring) := nofun
theorem urgentStop (ring : BitVec 6) : Statement (.urgentStop ring) := nofun
theorem stopRelease (ring : BitVec 6) : Statement (.stopRelease ring) := nofun
theorem jobTeardown (ring : BitVec 6) : Statement (.jobTeardown ring) := nofun
theorem postmarkLoad (ring : BitVec 6) : Statement (.postmarkLoad ring) := nofun
theorem formatLoad (ring : BitVec 6) (missedCores : List CoreIdx) (missedTaps : BitVec 16) : Statement (.formatLoad ring missedCores missedTaps) := nofun
theorem diceRates (ring : BitVec 6) : Statement (.diceRates ring) := nofun
theorem canaryBands (ring : BitVec 6) : Statement (.canaryBands ring) := nofun
theorem verdictPolicy (ring : BitVec 6) : Statement (.verdictPolicy ring) := nofun
theorem stepQuery (ring : BitVec 6) : Statement (.stepQuery ring) := nofun
theorem coreQuery (ring : BitVec 6) : Statement (.coreQuery ring) := nofun
theorem testPolicy (ring : BitVec 6) : Statement (.testPolicy ring) := nofun
theorem testSweep (ring : BitVec 6) : Statement (.testSweep ring) := nofun
theorem coreRestore (ring : BitVec 6) : Statement (.coreRestore ring) := nofun
theorem testCourier (ring : BitVec 6) (pass : Bool) : Statement (.testCourier ring pass) := nofun
theorem officeSwap (ring : BitVec 6) : Statement (.officeSwap ring) := nofun
theorem courierPower (ring : BitVec 6) (portPass tapPass : Bool) : Statement (.courierPower ring portPass tapPass) := nofun
theorem fleetRings (ring : BitVec 6) : Statement (.fleetRings ring) := nofun
theorem courierEnable (ring : BitVec 6) : Statement (.courierEnable ring) := nofun
theorem partnerQuery (ring : BitVec 6) : Statement (.partnerQuery ring) := nofun
theorem parcelPolicy (ring : BitVec 6) : Statement (.parcelPolicy ring) := nofun
theorem holderCap (ring : BitVec 6) : Statement (.holderCap ring) := nofun
theorem parcelReserve (ring : BitVec 6) : Statement (.parcelReserve ring) := nofun
theorem parcelCommit (ring : BitVec 6) : Statement (.parcelCommit ring) := nofun
theorem parcelQuery (ring : BitVec 6) : Statement (.parcelQuery ring) := nofun
theorem parcelRelease (ring : BitVec 6) : Statement (.parcelRelease ring) := nofun
theorem parcelRestore (ring : BitVec 6) (answers : RestoreAnswers) : Statement (.parcelRestore ring answers) := nofun
theorem warmReset (ring : BitVec 6) : Statement (.warmReset ring) := nofun
theorem coldReset (ring : BitVec 6) : Statement (.coldReset ring) := nofun
theorem resetPolicy (ring : BitVec 6) : Statement (.resetPolicy ring) := nofun
theorem counterSelect (ring : BitVec 6) : Statement (.counterSelect ring) := nofun
theorem counterRead (ring : BitVec 6) : Statement (.counterRead ring) := nofun
theorem traceControl (ring : BitVec 6) : Statement (.traceControl ring) := nofun
theorem traceTrigger : Statement .traceTrigger := nofun
theorem exportData (ring : BitVec 6) : Statement (.exportData ring) := nofun
theorem imageLoad (ring : BitVec 6) (data : Option (List Byte)) : Statement (.imageLoad ring data) := nofun
theorem imageStatus (ring : BitVec 6) : Statement (.imageStatus ring) := nofun
theorem imageAbort (ring : BitVec 6) : Statement (.imageAbort ring) := nofun
theorem registerWrite (offset : BitVec 16) (value : BitVec 32) : Statement (.registerWrite offset value) := nofun
theorem managementPortReset : Statement .managementPortReset := nofun
theorem ringDoorbell (ring : BitVec 6) (value : BitVec 32) : Statement (.ringDoorbell ring value) := nofun
theorem ringPop (ring : BitVec 6) (value : BitVec 32) : Statement (.ringPop ring value) := nofun
theorem pmCountRead : Statement .pmCountRead := nofun
theorem pmLatchCapture (value : BitVec 32) : Statement (.pmLatchCapture value) := nofun
theorem stopCtrlUrgent (value : BitVec 32) : Statement (.stopCtrlUrgent value) := nofun
theorem crEnableWrite (value : BitVec 32) : Statement (.crEnableWrite value) := nofun
theorem keyLoadBegin (value : BitVec 32) : Statement (.keyLoadBegin value) := nofun
theorem keyWindowLock (value : BitVec 32) : Statement (.keyWindowLock value) := nofun
theorem keyWindowZeroize (value : BitVec 32) : Statement (.keyWindowZeroize value) := nofun
theorem keyDataWrite (value : BitVec 32) : Statement (.keyDataWrite value) := nofun
theorem tapReset : Statement .tapReset := nofun
theorem ijtagAccessSelect : Statement .ijtagAccessSelect := nofun
theorem sibOpen (sib : Sib) : Statement (.sibOpen sib) := nofun
theorem coreCapUpdate (core : CoreIdx) (load : Bool) (beat : BitVec 128) (last : Bool) : Statement (.coreCapUpdate core load beat last) := nofun
theorem standbyTestDone (region : RegionIdx) (pass : Bool) : Statement (.standbyTestDone region pass) := nofun
theorem routerLost (region : RegionIdx) (router : BitVec 7) : Statement (.routerLost region router) := nofun
theorem resetWindowExpiry : Statement .resetWindowExpiry := nofun

end Sys2Proof.Laws.NoWord
end

