-- ==== Sys2Proof/Laws/Shared.lean ====
section
/-! SUPPORT. What the shared operations write. -/

namespace Sys2Proof.Machine

open Sys2Proof

@[simp] theorem setSvc_svc (st : SvcState) (b : Block) : (setSvc st b).svc = { b.svc with state := st } := by
  unfold setSvc
  split
  · rename_i h
    cases hb : b.svc
    simp_all
  · simp

@[simp] theorem setPmState_state (st : PmState) (b : Block) : (setPmState st b).pm = { b.pm with state := st } := by
  unfold setPmState
  split
  · rename_i h
    cases hb : b.pm
    simp_all
  · simp

theorem forEach_keep {α β : Type} (g : Block → β) (f : α → Block → Block) (h : ∀ a b, g (f a b) = g b) (xs : List α) (b : Block) :
    g (forEach xs f b) = g b := by
  induction xs generalizing b with
  | nil => rfl
  | cons x r ih => exact (ih (f x b)).trans (h x b)

/-- A property that every step of a fold keeps. -/
theorem forEach_inv {α : Type} {P : Block → Prop} {f : α → Block → Block} (h : ∀ a b, P b → P (f a b)) {xs : List α} {b : Block} (hb : P b) :
    P (forEach xs f b) := by
  induction xs generalizing b with
  | nil => exact hb
  | cons x r ih => exact ih (h x b hb)

/-- What one step of a fold establishes and every later step keeps. -/
theorem forEach_mem {α : Type} {P : Block → Prop} {f : α → Block → Block} {x : α} {xs : List α} (hx : x ∈ xs) (h1 : ∀ b, P (f x b))
    (h2 : ∀ a b, P b → P (f a b)) (b : Block) : P (forEach xs f b) := by
  induction xs generalizing b with
  | nil => cases hx
  | cons y r ih =>
    rcases List.mem_cons.1 hx with rfl | hx
    · show P (forEach r f (f x b))
      exact forEach_inv h2 (h1 b)
    · show P (forEach r f (f y b))
      exact ih hx (f y b)

/-- Entering SAFE changes only the state and its cause, ends a reset under way, and halts the controller cores after LOCKSTEP
or HO_TEST_FAIL. -/
theorem enterSafe_svc (code : Nat) (b : Block) :
    (enterSafe code b).svc = { (if b.svc.state = .safe then b.svc else { b.svc with state := .safe, safeCause := code, reset := 0 }) with
      halted := b.svc.halted || decide (code = 2 ∨ code = 3) } := by
  unfold enterSafe
  simp only [Block.modJob_svc, endFills_keeps_svc, setGen_keeps_svc]
  rw [forEach_keeps_svc]
  · by_cases h : b.svc.state = .safe <;> by_cases h2 : code = 2 ∨ code = 3 <;> cases hb : b.svc <;> simp_all
  · exact fun _ _ => rfl

@[simp] theorem enterSafe_state (code : Nat) (b : Block) : (enterSafe code b).svc.state = .safe := by
  rw [enterSafe_svc]
  split
  · assumption
  · rfl

@[simp] theorem raiseAlarm_alarmN (code : Nat) (b : Block) (h : b.outs.alarmN = true ∨ b.outs.alarmCode = 1) :
    (raiseAlarm code b).outs = { b.outs with alarmN := false, alarmCode := BitVec.ofNat 4 code } := by
  unfold raiseAlarm
  rw [if_pos (h.imp_right .inl)]
  simp

/-- What the interrupt and error registers leave of the management registers: the measurement and the wafer number. -/
def Mgmt.fixed (m : Mgmt) : BitVec 15 × Bool × BitVec 384 × Bool × Bool × Nat := (m.wafer, m.waferVld, m.meas, m.measSlot, m.measVld, m.measLen)

@[simp] theorem placeRecord_fixed (r : Nat) (rc : List Byte) (b : Block) : (placeRecord r rc b).ho.mgmt.fixed = b.ho.mgmt.fixed := rfl
@[simp] theorem recordErr_fixed (o c : Nat) (b : Block) : (recordErr o c b).ho.mgmt.fixed = b.ho.mgmt.fixed := rfl
@[simp] theorem setIrqMisc_fixed (i : Nat) (b : Block) : (setIrqMisc i b).ho.mgmt.fixed = b.ho.mgmt.fixed := rfl
@[simp] theorem setIrqRing_fixed (i : Nat) (b : Block) : (setIrqRing i b).ho.mgmt.fixed = b.ho.mgmt.fixed := rfl

theorem ite_fixed (p : Prop) [Decidable p] (x y : Block) : (if p then x else y).ho.mgmt.fixed = if p then x.ho.mgmt.fixed else y.ho.mgmt.fixed := by
  split <;> rfl

@[simp] theorem putEvent_fixed (r code pm unit occ : Nat) (body : List Byte) (b : Block) : (putEvent r code pm unit occ body b).ho.mgmt.fixed = b.ho.mgmt.fixed := by
  unfold putEvent
  dsimp only
  rw [Block.modRing_ho_mgmt, placeRecord_fixed]

@[simp] theorem putLost_fixed (r : Nat) (b : Block) : (putLost r b).ho.mgmt.fixed = b.ho.mgmt.fixed := by
  unfold putLost
  rw [ite_fixed, Block.modRing_ho_mgmt, putEvent_fixed, ite_self]

@[simp] theorem admitEvent_fixed (code pm unit occ : Nat) (body : List Byte) (b : Block) : (admitEvent code pm unit occ body b).ho.mgmt.fixed = b.ho.mgmt.fixed := by
  simp only [admitEvent, ite_fixed, putEvent_fixed, recordErr_fixed, Block.modRing_ho_mgmt, putLost_fixed, ite_self]

@[simp] theorem traceEvent_fixed (code pm unit : Nat) (body : List Byte) (b : Block) : (traceEvent code pm unit body b).ho.mgmt.fixed = b.ho.mgmt.fixed := by
  unfold traceEvent
  dsimp only
  split
  · split
    · rw [admitEvent_fixed]
      rfl
    · rfl
  · rfl

@[simp] theorem hoEvent_fixed (code : Nat) (body : List Byte) (b : Block) : (hoEvent code body b).ho.mgmt.fixed = b.ho.mgmt.fixed := by
  unfold hoEvent postEvent postEventN
  rw [ite_fixed, admitEvent_fixed, traceEvent_fixed, ite_self]

@[simp] theorem setSvc_fixed (st : SvcState) (b : Block) : (setSvc st b).ho.mgmt.fixed = b.ho.mgmt.fixed := by
  unfold setSvc
  split
  · rfl
  · rw [hoEvent_fixed, setIrqMisc_fixed]
    rfl

theorem fixed_eq {m n : Mgmt} (h : m.fixed = n.fixed) :
    m.wafer = n.wafer ∧ m.waferVld = n.waferVld ∧ m.meas = n.meas ∧ m.measSlot = n.measSlot ∧ m.measVld = n.measVld ∧ m.measLen = n.measLen := by
  simpa [Mgmt.fixed] using h

/-! ### A Letterbox's event touches no core but its own counters -/

theorem lbEvent_core (i code : Nat) (body : List Byte) (b : Block) (j : Nat) : (lbEvent i code body b).core j = (bumpCtr i code 1 b).core j := by
  unfold lbEvent
  dsimp only
  split
  · exact Block.core_same ((frame_fileEvent _ _ _ _ (Frame.refl _ _) (fun _ h => h)).get .cores (by decide)) j
  · rfl

/-- What a count leaves of a core: everything but its counters. -/
theorem bumpCtr_core (i code n : Nat) (b : Block) (j : Nat) :
    ∃ l, (bumpCtr i code n b).core j = { b.core j with ctl := { (b.core j).ctl with counters := l } } := by
  by_cases h : j = i
  · subst h; exact ⟨_, Block.modCore_self _ _ _⟩
  · exact ⟨(b.core j).ctl.counters, Block.modCore_ne _ _ h⟩

/-- An Office apart from its step aggregation and its relocation table. -/
def Office.idle (o : Office) : Office := { o with st := {}, relocs := [] }

theorem ite_idle (p : Prop) [Decidable p] (x y : Block) (q : Nat) : ((if p then x else y).office q).idle = if p then (x.office q).idle else (y.office q).idle := by
  split <;> rfl

@[simp] theorem addReason_idle (r k : Nat) (b : Block) (q : Nat) : ((addReason r k b).office q).idle = (b.office q).idle := by
  unfold addReason
  by_cases h : q = r
  · subst h; simp [Office.idle]
  · rw [Block.modOffice_ne _ _ h]

@[simp] theorem nameRole_idle (r i k : Nat) (b : Block) (q : Nat) : ((nameRole r i k b).office q).idle = (b.office q).idle := by
  unfold nameRole
  by_cases h : q = r
  · subst h; simp [Office.idle]
  · rw [Block.modOffice_ne _ _ h]

theorem Block.setHist_office (b : Block) (i : Nat) (h : CoreHist) (q : Nat) : (b.setHist i h).office q = b.office q := rfl
theorem Block.modHist_office (b : Block) (i : Nat) (f : CoreHist → CoreHist) (q : Nat) : (b.modHist i f).office q = b.office q := rfl

@[simp] theorem modRelocs_idle (r : Nat) (f : List Reloc → List Reloc) (b : Block) (q : Nat) : ((modRelocs r f b).office q).idle = (b.office q).idle := by
  unfold modRelocs
  rw [Block.modJob_office]
  by_cases h : q = r
  · subst h; simp [Office.idle]
  · rw [Block.modOffice_ne _ _ h]

@[simp] theorem stopJobNext_keep_office (b : Block) (q : Nat) : (stopJobNext b).office q = b.office q :=
  Block.office_same ((frame_stopJobNext (Frame.refl _ b) (fun _ h => h)).get .offices (by decide)) q

@[simp] theorem failFill_idle (role code : Nat) (b : Block) (q : Nat) : ((failFill role code b).office q).idle = (b.office q).idle := by
  unfold failFill
  dsimp only
  split
  · simp only [stopJobNext_keep_office, hoEvent_keep_office, fillTo_keep_office]
    exact forEach_keep (fun c => (c.office q).idle) _ (fun f c => modRelocs_idle _ _ c q) _ b
  · rfl

@[simp] theorem failTarget_idle (i : Nat) (b : Block) (q : Nat) : ((failTarget i b).office q).idle = (b.office q).idle :=
  forEach_keep (fun c => (c.office q).idle) _ (fun f c => failFill_idle _ _ c q) _ b

@[simp] theorem fenceState_idle (i : Nat) (x : Bool) (b : Block) (q : Nat) : ((fenceState i x b).office q).idle = (b.office q).idle := by
  unfold fenceState
  dsimp only
  split <;> simp only [ite_idle, nameRole_idle, addReason_idle, failTarget_idle, fenceHold_keep_office, bmChanged_keep_office, Block.setHist_office, ite_self]

@[simp] theorem unscreen_idle (i : Nat) (b : Block) (q : Nat) : ((unscreen i b).office q).idle = (b.office q).idle := by
  unfold unscreen
  split
  · rfl
  · dsimp only
    split <;> simp [Block.modHist_office]

@[simp] theorem failTest_idle (i : Nat) (b : Block) (q : Nat) : ((failTest i b).office q).idle = (b.office q).idle := by
  unfold failTest
  dsimp only
  split <;> simp [Block.modHist_office]

@[simp] theorem applyTested_idle (i : Nat) (x : Bool) (b : Block) (q : Nat) : ((applyTested i x b).office q).idle = (b.office q).idle := by
  unfold applyTested
  split
  · simp [Block.modHist_office]
  · split <;> simp [Block.modHist_office]

/-- Bits of a mask after one is set or cleared. -/
theorem maskBit_maskSet {w : Nat} (m : BitVec w) (i j : Nat) (x : Bool) (h : i < w) :
    maskBit (maskSet m i x) j = if j = i then x else maskBit m j := by
  unfold maskBit maskSet
  by_cases hj : j < w
  · cases x
    · simp only [Bool.false_eq_true, if_false, BitVec.getLsbD_and, BitVec.getLsbD_not, BitVec.getLsbD_shiftLeft, hj, decide_true, Bool.true_and]
      by_cases e : j = i
      · subst e; simp; omega
      · simp only [if_neg e]
        by_cases l : j < i
        · simp [l]
        · have : ¬ j - i = 0 := by omega
          simp [l, this]
    · simp only [if_true, BitVec.getLsbD_or, BitVec.getLsbD_shiftLeft, hj, decide_true, Bool.true_and]
      by_cases e : j = i
      · subst e; simp; omega
      · simp only [if_neg e]
        by_cases l : j < i
        · simp [l]
        · have : ¬ j - i = 0 := by omega
          simp [l, this]
  · have : j ≠ i := by omega
    simp only [if_neg this]
    rw [BitVec.getLsbD_of_ge _ _ (by omega), BitVec.getLsbD_of_ge _ _ (by omega)]

/-! ### Direction tables change no more than themselves (R289, R300) -/

@[simp] theorem Router.setDirs_lost (ver : Bool) (t : Tab (BitVec 8)) (x : Router) : (Router.setDirs ver t x).lost = x.lost := by
  cases ver <;> rfl
@[simp] theorem Router.setDirs_net (ver : Bool) (t : Tab (BitVec 8)) (x : Router) : (Router.setDirs ver t x).net = x.net := by
  cases ver <;> rfl
@[simp] theorem Router.setDirs_same (ver : Bool) (t : Tab (BitVec 8)) (x : Router) : (Router.setDirs ver t x).dirs ver = t := by
  cases ver <;> rfl
@[simp] theorem Router.setDirs_other (ver : Bool) (t : Tab (BitVec 8)) (x : Router) : (Router.setDirs ver t x).dirs (!ver) = x.dirs (!ver) := by
  cases ver <;> rfl

@[simp] theorem writeTables_lost (ver : Bool) (r : Nat) (dead : List Nat) (b : Block) (k : Nat) :
    ((writeTables ver r dead b).router k).lost = (b.router k).lost := by
  refine forEach_keep (fun c => (c.router k).lost) _ (fun j c => ?_) _ b
  by_cases h : k = 128 * r + j
  · subst h; simp
  · rw [Block.modRouter_ne _ _ h]

@[simp] theorem setAround_lost (ver : Bool) (t : Tab (BitVec 128)) (r : Nat) (a : BitVec 128) (b : Block) (k : Nat) :
    ((setAround ver t r a b).router k).lost = (b.router k).lost := by simp [setAround]

theorem fenceCluster_keep_router (r i : Nat) (b : Block) (k : Nat) :
    (if (tget b.ho.bm.blocked i).isSome then b
      else blockCore i 6 (fenceHold i (match b.roleOf i with
        | some role => if b.ho.job.launched then nameRole r role 6 (addReason r 6 b) else b
        | none => b))).router k = b.router k := by
  split
  · rfl
  · simp only [blockCore_keep_router, fenceHold_keep_router]
    split
    · split <;> simp
    · rfl

@[simp] theorem loseRouter_lost (r k : Nat) (b : Block) : ((loseRouter r k b).router (128 * r + k)).lost = true := by
  unfold loseRouter
  refine (congrArg Router.lost (forEach_keep (fun c => c.router (128 * r + k)) _ (fun i c => fenceCluster_keep_router r i c _) _ _)).trans ?_
  simp

@[simp] theorem loseFirst_lost (r k : Nat) (b : Block) : ((loseFirst r k b).router (128 * r + k)).lost = true := by
  simp [loseFirst]

/-! ### Advancing the count changes only the count and the time since the last pulse -/

@[simp] theorem advTo_pm_powered (n : Nat) (b : Block) : (advTo n b).pm.powered = b.pm.powered := by unfold advTo; split <;> simp
@[simp] theorem advTo_pm_state (n : Nat) (b : Block) : (advTo n b).pm.state = b.pm.state := by unfold advTo; split <;> simp
@[simp] theorem advTo_pm_slip (n : Nat) (b : Block) : (advTo n b).pm.slip = b.pm.slip := by unfold advTo; split <;> simp
@[simp] theorem advTo_pm_missing (n : Nat) (b : Block) : (advTo n b).pm.missing = b.pm.missing := by unfold advTo; split <;> simp
@[simp] theorem advTo_pm_drift (n : Nat) (b : Block) : (advTo n b).pm.drift = b.pm.drift := by unfold advTo; split <;> simp
@[simp] theorem advTo_pm_width (n : Nat) (b : Block) : (advTo n b).pm.width = b.pm.width := by unfold advTo; split <;> simp
@[simp] theorem advTo_pm_cap (n : Nat) (b : Block) : (advTo n b).pm.cap = b.pm.cap := by unfold advTo; split <;> simp
@[simp] theorem advTo_pm_latch (n : Nat) (b : Block) : (advTo n b).pm.latch = b.pm.latch := by unfold advTo; split <;> simp
@[simp] theorem advTo_pm_syncLatch (n : Nat) (b : Block) : (advTo n b).pm.syncLatch = b.pm.syncLatch := by unfold advTo; split <;> simp
@[simp] theorem advTo_pm_loadV (n : Nat) (b : Block) : (advTo n b).pm.loadV = b.pm.loadV := by unfold advTo; split <;> simp
@[simp] theorem advTo_pm_loadP (n : Nat) (b : Block) : (advTo n b).pm.loadP = b.pm.loadP := by unfold advTo; split <;> simp
@[simp] theorem advTo_pm_loadedAt (n : Nat) (b : Block) : (advTo n b).pm.loadedAt = b.pm.loadedAt := by unfold advTo; split <;> simp
@[simp] theorem advTo_pm_hourAt (n : Nat) (b : Block) : (advTo n b).pm.hourAt = b.pm.hourAt := by unfold advTo; split <;> simp
@[simp] theorem advTo_pm_baseV (n : Nat) (b : Block) : (advTo n b).pm.baseV = b.pm.baseV := by unfold advTo; split <;> simp
@[simp] theorem advTo_pm_baseP (n : Nat) (b : Block) : (advTo n b).pm.baseP = b.pm.baseP := by unfold advTo; split <;> simp
@[simp] theorem advTo_pm_lastK (n : Nat) (b : Block) : (advTo n b).pm.lastK = b.pm.lastK := by unfold advTo; split <;> simp
@[simp] theorem advTo_pm_offsets (n : Nat) (b : Block) : (advTo n b).pm.offsets = b.pm.offsets := by unfold advTo; split <;> simp
@[simp] theorem advTo_pm_fresh (n : Nat) (b : Block) : (advTo n b).pm.fresh = b.pm.fresh := by unfold advTo; split <;> simp
@[simp] theorem advTo_pm_drifted (n : Nat) (b : Block) : (advTo n b).pm.drifted = b.pm.drifted := by unfold advTo; split <;> simp
@[simp] theorem advTo_pm_coldCount (n : Nat) (b : Block) : (advTo n b).pm.coldCount = b.pm.coldCount := by unfold advTo; split <;> simp

/-- The fields of the debug unit that tracing leaves. -/
def Debug.sameBut (d e : Debug) : Prop :=
  e = { d with state := e.state, trace := e.trace, trig := e.trig, matched := e.matched, post := e.post }

theorem traceEvent_ind {P : Block → Prop} (c p u : Nat) (y : List Byte) {b : Block} (h0 : P b)
    (h1 : P (admitEvent evTraceFull b.now 0x400000 1 [] (b.modDebug (fun d => { d with state := 2 }))))
    (h2 : ∀ f : Debug → Debug, (∀ d, Debug.sameBut d (f d)) → P (b.modDebug f)) : P (traceEvent c p u y b) := by
  unfold traceEvent
  dsimp only
  split
  · split
    · exact h1
    · exact h2 _ (fun _ => rfl)
  · exact h0

theorem admitEvent_ind {P : Block → Prop} (c p u o : Nat) (y : List Byte) {b : Block}
    (h1 : P (putEvent (evRing c) c p u o y (putLost (evRing c) b)))
    (h2 : P (recordErr (evRing c) 8 ((putLost (evRing c) b).modRing (evRing c) (fun x => { x with lost := x.lost + 1 })))) :
    P (admitEvent c p u o y b) := by
  unfold admitEvent
  dsimp only
  split
  · exact h1
  · exact h2

/-! ### An event writes rings, error registers and the trace only -/

@[simp] theorem modRing_mail_sessions (r : Nat) (g : Ring → Ring) (b : Block) : (b.modRing r g).ho.mail.sessions = b.ho.mail.sessions := by simp [Block.modRing]
@[simp] theorem setIrqRing_mail_sessions (r : Nat) (b : Block) : (setIrqRing r b).ho.mail.sessions = b.ho.mail.sessions := by unfold setIrqRing; simp
@[simp] theorem recordErr_mail_sessions (o c : Nat) (b : Block) : (recordErr o c b).ho.mail.sessions = b.ho.mail.sessions := by unfold recordErr; simp
@[simp] theorem putEvent_mail_sessions (r c p u o : Nat) (y : List Byte) (b : Block) : (putEvent r c p u o y b).ho.mail.sessions = b.ho.mail.sessions := by unfold putEvent placeRecord; simp
@[simp] theorem putLost_mail_sessions (r : Nat) (b : Block) : (putLost r b).ho.mail.sessions = b.ho.mail.sessions := by unfold putLost; split <;> simp
@[simp] theorem admitEvent_mail_sessions (c p u o : Nat) (y : List Byte) (b : Block) : (admitEvent c p u o y b).ho.mail.sessions = b.ho.mail.sessions := admitEvent_ind (P := fun x => x.ho.mail.sessions = b.ho.mail.sessions) c p u o y (by simp) (by simp)
@[simp] theorem traceEvent_mail_sessions (c p u : Nat) (y : List Byte) (b : Block) : (traceEvent c p u y b).ho.mail.sessions = b.ho.mail.sessions := traceEvent_ind (P := fun x => x.ho.mail.sessions = b.ho.mail.sessions) c p u y rfl (by simp) (fun g h => by simp)
@[simp] theorem postEventN_mail_sessions (c p u o : Nat) (y : List Byte) (b : Block) : (postEventN c p u o y b).ho.mail.sessions = b.ho.mail.sessions := by unfold postEventN; split <;> simp
@[simp] theorem postEvent_mail_sessions (c u : Nat) (y : List Byte) (b : Block) : (postEvent c u y b).ho.mail.sessions = b.ho.mail.sessions := by unfold postEvent; simp
@[simp] theorem hoEvent_mail_sessions (c : Nat) (y : List Byte) (b : Block) : (hoEvent c y b).ho.mail.sessions = b.ho.mail.sessions := by unfold hoEvent; simp
@[simp] theorem modRing_mail_cache (r : Nat) (g : Ring → Ring) (b : Block) : (b.modRing r g).ho.mail.cache = b.ho.mail.cache := by simp [Block.modRing]
@[simp] theorem setIrqRing_mail_cache (r : Nat) (b : Block) : (setIrqRing r b).ho.mail.cache = b.ho.mail.cache := by unfold setIrqRing; simp
@[simp] theorem recordErr_mail_cache (o c : Nat) (b : Block) : (recordErr o c b).ho.mail.cache = b.ho.mail.cache := by unfold recordErr; simp
@[simp] theorem putEvent_mail_cache (r c p u o : Nat) (y : List Byte) (b : Block) : (putEvent r c p u o y b).ho.mail.cache = b.ho.mail.cache := by unfold putEvent placeRecord; simp
@[simp] theorem putLost_mail_cache (r : Nat) (b : Block) : (putLost r b).ho.mail.cache = b.ho.mail.cache := by unfold putLost; split <;> simp
@[simp] theorem admitEvent_mail_cache (c p u o : Nat) (y : List Byte) (b : Block) : (admitEvent c p u o y b).ho.mail.cache = b.ho.mail.cache := admitEvent_ind (P := fun x => x.ho.mail.cache = b.ho.mail.cache) c p u o y (by simp) (by simp)
@[simp] theorem traceEvent_mail_cache (c p u : Nat) (y : List Byte) (b : Block) : (traceEvent c p u y b).ho.mail.cache = b.ho.mail.cache := traceEvent_ind (P := fun x => x.ho.mail.cache = b.ho.mail.cache) c p u y rfl (by simp) (fun g h => by simp)
@[simp] theorem postEventN_mail_cache (c p u o : Nat) (y : List Byte) (b : Block) : (postEventN c p u o y b).ho.mail.cache = b.ho.mail.cache := by unfold postEventN; split <;> simp
@[simp] theorem postEvent_mail_cache (c u : Nat) (y : List Byte) (b : Block) : (postEvent c u y b).ho.mail.cache = b.ho.mail.cache := by unfold postEvent; simp
@[simp] theorem hoEvent_mail_cache (c : Nat) (y : List Byte) (b : Block) : (hoEvent c y b).ho.mail.cache = b.ho.mail.cache := by unfold hoEvent; simp
@[simp] theorem modRing_mail_outSeq (r : Nat) (g : Ring → Ring) (b : Block) : (b.modRing r g).ho.mail.outSeq = b.ho.mail.outSeq := by simp [Block.modRing]
@[simp] theorem setIrqRing_mail_outSeq (r : Nat) (b : Block) : (setIrqRing r b).ho.mail.outSeq = b.ho.mail.outSeq := by unfold setIrqRing; simp
@[simp] theorem recordErr_mail_outSeq (o c : Nat) (b : Block) : (recordErr o c b).ho.mail.outSeq = b.ho.mail.outSeq := by unfold recordErr; simp
@[simp] theorem putEvent_mail_outSeq (r c p u o : Nat) (y : List Byte) (b : Block) : (putEvent r c p u o y b).ho.mail.outSeq = b.ho.mail.outSeq := by unfold putEvent placeRecord; simp
@[simp] theorem putLost_mail_outSeq (r : Nat) (b : Block) : (putLost r b).ho.mail.outSeq = b.ho.mail.outSeq := by unfold putLost; split <;> simp
@[simp] theorem admitEvent_mail_outSeq (c p u o : Nat) (y : List Byte) (b : Block) : (admitEvent c p u o y b).ho.mail.outSeq = b.ho.mail.outSeq := admitEvent_ind (P := fun x => x.ho.mail.outSeq = b.ho.mail.outSeq) c p u o y (by simp) (by simp)
@[simp] theorem traceEvent_mail_outSeq (c p u : Nat) (y : List Byte) (b : Block) : (traceEvent c p u y b).ho.mail.outSeq = b.ho.mail.outSeq := traceEvent_ind (P := fun x => x.ho.mail.outSeq = b.ho.mail.outSeq) c p u y rfl (by simp) (fun g h => by simp)
@[simp] theorem postEventN_mail_outSeq (c p u o : Nat) (y : List Byte) (b : Block) : (postEventN c p u o y b).ho.mail.outSeq = b.ho.mail.outSeq := by unfold postEventN; split <;> simp
@[simp] theorem postEvent_mail_outSeq (c u : Nat) (y : List Byte) (b : Block) : (postEvent c u y b).ho.mail.outSeq = b.ho.mail.outSeq := by unfold postEvent; simp
@[simp] theorem hoEvent_mail_outSeq (c : Nat) (y : List Byte) (b : Block) : (hoEvent c y b).ho.mail.outSeq = b.ho.mail.outSeq := by unfold hoEvent; simp
@[simp] theorem modRing_mail_outst (r : Nat) (g : Ring → Ring) (b : Block) : (b.modRing r g).ho.mail.outst = b.ho.mail.outst := by simp [Block.modRing]
@[simp] theorem setIrqRing_mail_outst (r : Nat) (b : Block) : (setIrqRing r b).ho.mail.outst = b.ho.mail.outst := by unfold setIrqRing; simp
@[simp] theorem recordErr_mail_outst (o c : Nat) (b : Block) : (recordErr o c b).ho.mail.outst = b.ho.mail.outst := by unfold recordErr; simp
@[simp] theorem putEvent_mail_outst (r c p u o : Nat) (y : List Byte) (b : Block) : (putEvent r c p u o y b).ho.mail.outst = b.ho.mail.outst := by unfold putEvent placeRecord; simp
@[simp] theorem putLost_mail_outst (r : Nat) (b : Block) : (putLost r b).ho.mail.outst = b.ho.mail.outst := by unfold putLost; split <;> simp
@[simp] theorem admitEvent_mail_outst (c p u o : Nat) (y : List Byte) (b : Block) : (admitEvent c p u o y b).ho.mail.outst = b.ho.mail.outst := admitEvent_ind (P := fun x => x.ho.mail.outst = b.ho.mail.outst) c p u o y (by simp) (by simp)
@[simp] theorem traceEvent_mail_outst (c p u : Nat) (y : List Byte) (b : Block) : (traceEvent c p u y b).ho.mail.outst = b.ho.mail.outst := traceEvent_ind (P := fun x => x.ho.mail.outst = b.ho.mail.outst) c p u y rfl (by simp) (fun g h => by simp)
@[simp] theorem postEventN_mail_outst (c p u o : Nat) (y : List Byte) (b : Block) : (postEventN c p u o y b).ho.mail.outst = b.ho.mail.outst := by unfold postEventN; split <;> simp
@[simp] theorem postEvent_mail_outst (c u : Nat) (y : List Byte) (b : Block) : (postEvent c u y b).ho.mail.outst = b.ho.mail.outst := by unfold postEvent; simp
@[simp] theorem hoEvent_mail_outst (c : Nat) (y : List Byte) (b : Block) : (hoEvent c y b).ho.mail.outst = b.ho.mail.outst := by unfold hoEvent; simp
@[simp] theorem putEvent_dbg (r c p u o : Nat) (y : List Byte) (b : Block) : (putEvent r c p u o y b).dbg = b.dbg := by unfold putEvent placeRecord; simp
@[simp] theorem putLost_dbg (r : Nat) (b : Block) : (putLost r b).dbg = b.dbg := by unfold putLost; split <;> simp
@[simp] theorem admitEvent_dbg (c p u o : Nat) (y : List Byte) (b : Block) : (admitEvent c p u o y b).dbg = b.dbg :=
  admitEvent_ind (P := fun x => x.dbg = b.dbg) c p u o y (by simp) (by simp)
@[simp] theorem traceEvent_dbg_ctrl (c p u : Nat) (y : List Byte) (b : Block) : (traceEvent c p u y b).dbg.ctrl = b.dbg.ctrl := traceEvent_ind (P := fun x => x.dbg.ctrl = b.dbg.ctrl) c p u y rfl (by simp) (fun g h => by simpa using congrArg Debug.ctrl (h b.dbg))
@[simp] theorem postEventN_dbg_ctrl (c p u o : Nat) (y : List Byte) (b : Block) : (postEventN c p u o y b).dbg.ctrl = b.dbg.ctrl := by unfold postEventN; split <;> simp
@[simp] theorem postEvent_dbg_ctrl (c u : Nat) (y : List Byte) (b : Block) : (postEvent c u y b).dbg.ctrl = b.dbg.ctrl := by unfold postEvent; simp
@[simp] theorem hoEvent_dbg_ctrl (c : Nat) (y : List Byte) (b : Block) : (hoEvent c y b).dbg.ctrl = b.dbg.ctrl := by unfold hoEvent; simp
@[simp] theorem traceEvent_dbg_tapIr (c p u : Nat) (y : List Byte) (b : Block) : (traceEvent c p u y b).dbg.tapIr = b.dbg.tapIr := traceEvent_ind (P := fun x => x.dbg.tapIr = b.dbg.tapIr) c p u y rfl (by simp) (fun g h => by simpa using congrArg Debug.tapIr (h b.dbg))
@[simp] theorem postEventN_dbg_tapIr (c p u o : Nat) (y : List Byte) (b : Block) : (postEventN c p u o y b).dbg.tapIr = b.dbg.tapIr := by unfold postEventN; split <;> simp
@[simp] theorem postEvent_dbg_tapIr (c u : Nat) (y : List Byte) (b : Block) : (postEvent c u y b).dbg.tapIr = b.dbg.tapIr := by unfold postEvent; simp
@[simp] theorem hoEvent_dbg_tapIr (c : Nat) (y : List Byte) (b : Block) : (hoEvent c y b).dbg.tapIr = b.dbg.tapIr := by unfold hoEvent; simp
@[simp] theorem traceEvent_dbg_tap (c p u : Nat) (y : List Byte) (b : Block) : (traceEvent c p u y b).dbg.tap = b.dbg.tap := traceEvent_ind (P := fun x => x.dbg.tap = b.dbg.tap) c p u y rfl (by simp) (fun g h => by simpa using congrArg Debug.tap (h b.dbg))
@[simp] theorem postEventN_dbg_tap (c p u o : Nat) (y : List Byte) (b : Block) : (postEventN c p u o y b).dbg.tap = b.dbg.tap := by unfold postEventN; split <;> simp
@[simp] theorem postEvent_dbg_tap (c u : Nat) (y : List Byte) (b : Block) : (postEvent c u y b).dbg.tap = b.dbg.tap := by unfold postEvent; simp
@[simp] theorem hoEvent_dbg_tap (c : Nat) (y : List Byte) (b : Block) : (hoEvent c y b).dbg.tap = b.dbg.tap := by unfold hoEvent; simp
@[simp] theorem traceEvent_dbg_tapSh (c p u : Nat) (y : List Byte) (b : Block) : (traceEvent c p u y b).dbg.tapSh = b.dbg.tapSh := traceEvent_ind (P := fun x => x.dbg.tapSh = b.dbg.tapSh) c p u y rfl (by simp) (fun g h => by simpa using congrArg Debug.tapSh (h b.dbg))
@[simp] theorem postEventN_dbg_tapSh (c p u o : Nat) (y : List Byte) (b : Block) : (postEventN c p u o y b).dbg.tapSh = b.dbg.tapSh := by unfold postEventN; split <;> simp
@[simp] theorem postEvent_dbg_tapSh (c u : Nat) (y : List Byte) (b : Block) : (postEvent c u y b).dbg.tapSh = b.dbg.tapSh := by unfold postEvent; simp
@[simp] theorem hoEvent_dbg_tapSh (c : Nat) (y : List Byte) (b : Block) : (hoEvent c y b).dbg.tapSh = b.dbg.tapSh := by unfold hoEvent; simp
@[simp] theorem traceEvent_dbg_tdo (c p u : Nat) (y : List Byte) (b : Block) : (traceEvent c p u y b).dbg.tdo = b.dbg.tdo := traceEvent_ind (P := fun x => x.dbg.tdo = b.dbg.tdo) c p u y rfl (by simp) (fun g h => by simpa using congrArg Debug.tdo (h b.dbg))
@[simp] theorem postEventN_dbg_tdo (c p u o : Nat) (y : List Byte) (b : Block) : (postEventN c p u o y b).dbg.tdo = b.dbg.tdo := by unfold postEventN; split <;> simp
@[simp] theorem postEvent_dbg_tdo (c u : Nat) (y : List Byte) (b : Block) : (postEvent c u y b).dbg.tdo = b.dbg.tdo := by unfold postEvent; simp
@[simp] theorem hoEvent_dbg_tdo (c : Nat) (y : List Byte) (b : Block) : (hoEvent c y b).dbg.tdo = b.dbg.tdo := by unfold hoEvent; simp
@[simp] theorem traceEvent_dbg_tdoEn (c p u : Nat) (y : List Byte) (b : Block) : (traceEvent c p u y b).dbg.tdoEn = b.dbg.tdoEn := traceEvent_ind (P := fun x => x.dbg.tdoEn = b.dbg.tdoEn) c p u y rfl (by simp) (fun g h => by simpa using congrArg Debug.tdoEn (h b.dbg))
@[simp] theorem postEventN_dbg_tdoEn (c p u o : Nat) (y : List Byte) (b : Block) : (postEventN c p u o y b).dbg.tdoEn = b.dbg.tdoEn := by unfold postEventN; split <;> simp
@[simp] theorem postEvent_dbg_tdoEn (c u : Nat) (y : List Byte) (b : Block) : (postEvent c u y b).dbg.tdoEn = b.dbg.tdoEn := by unfold postEvent; simp
@[simp] theorem hoEvent_dbg_tdoEn (c : Nat) (y : List Byte) (b : Block) : (hoEvent c y b).dbg.tdoEn = b.dbg.tdoEn := by unfold hoEvent; simp
@[simp] theorem traceEvent_dbg_netDue (c p u : Nat) (y : List Byte) (b : Block) : (traceEvent c p u y b).dbg.netDue = b.dbg.netDue := traceEvent_ind (P := fun x => x.dbg.netDue = b.dbg.netDue) c p u y rfl (by simp) (fun g h => by simpa using congrArg Debug.netDue (h b.dbg))
@[simp] theorem postEventN_dbg_netDue (c p u o : Nat) (y : List Byte) (b : Block) : (postEventN c p u o y b).dbg.netDue = b.dbg.netDue := by unfold postEventN; split <;> simp
@[simp] theorem postEvent_dbg_netDue (c u : Nat) (y : List Byte) (b : Block) : (postEvent c u y b).dbg.netDue = b.dbg.netDue := by unfold postEvent; simp
@[simp] theorem hoEvent_dbg_netDue (c : Nat) (y : List Byte) (b : Block) : (hoEvent c y b).dbg.netDue = b.dbg.netDue := by unfold hoEvent; simp
@[simp] theorem traceEvent_dbg_netOpen (c p u : Nat) (y : List Byte) (b : Block) : (traceEvent c p u y b).dbg.netOpen = b.dbg.netOpen := traceEvent_ind (P := fun x => x.dbg.netOpen = b.dbg.netOpen) c p u y rfl (by simp) (fun g h => by simpa using congrArg Debug.netOpen (h b.dbg))
@[simp] theorem postEventN_dbg_netOpen (c p u o : Nat) (y : List Byte) (b : Block) : (postEventN c p u o y b).dbg.netOpen = b.dbg.netOpen := by unfold postEventN; split <;> simp
@[simp] theorem postEvent_dbg_netOpen (c u : Nat) (y : List Byte) (b : Block) : (postEvent c u y b).dbg.netOpen = b.dbg.netOpen := by unfold postEvent; simp
@[simp] theorem hoEvent_dbg_netOpen (c : Nat) (y : List Byte) (b : Block) : (hoEvent c y b).dbg.netOpen = b.dbg.netOpen := by unfold hoEvent; simp
@[simp] theorem traceEvent_dbg_sibs (c p u : Nat) (y : List Byte) (b : Block) : (traceEvent c p u y b).dbg.sibs = b.dbg.sibs := traceEvent_ind (P := fun x => x.dbg.sibs = b.dbg.sibs) c p u y rfl (by simp) (fun g h => by simpa using congrArg Debug.sibs (h b.dbg))
@[simp] theorem postEventN_dbg_sibs (c p u o : Nat) (y : List Byte) (b : Block) : (postEventN c p u o y b).dbg.sibs = b.dbg.sibs := by unfold postEventN; split <;> simp
@[simp] theorem postEvent_dbg_sibs (c u : Nat) (y : List Byte) (b : Block) : (postEvent c u y b).dbg.sibs = b.dbg.sibs := by unfold postEvent; simp
@[simp] theorem hoEvent_dbg_sibs (c : Nat) (y : List Byte) (b : Block) : (hoEvent c y b).dbg.sibs = b.dbg.sibs := by unfold hoEvent; simp
@[simp] theorem traceEvent_dbg_spurious (c p u : Nat) (y : List Byte) (b : Block) : (traceEvent c p u y b).dbg.spurious = b.dbg.spurious := traceEvent_ind (P := fun x => x.dbg.spurious = b.dbg.spurious) c p u y rfl (by simp) (fun g h => by simpa using congrArg Debug.spurious (h b.dbg))
@[simp] theorem postEventN_dbg_spurious (c p u o : Nat) (y : List Byte) (b : Block) : (postEventN c p u o y b).dbg.spurious = b.dbg.spurious := by unfold postEventN; split <;> simp
@[simp] theorem postEvent_dbg_spurious (c u : Nat) (y : List Byte) (b : Block) : (postEvent c u y b).dbg.spurious = b.dbg.spurious := by unfold postEvent; simp
@[simp] theorem hoEvent_dbg_spurious (c : Nat) (y : List Byte) (b : Block) : (hoEvent c y b).dbg.spurious = b.dbg.spurious := by unfold hoEvent; simp
@[simp] theorem traceEvent_dbg_exporting (c p u : Nat) (y : List Byte) (b : Block) : (traceEvent c p u y b).dbg.exporting = b.dbg.exporting := traceEvent_ind (P := fun x => x.dbg.exporting = b.dbg.exporting) c p u y rfl (by simp) (fun g h => by simpa using congrArg Debug.exporting (h b.dbg))
@[simp] theorem postEventN_dbg_exporting (c p u o : Nat) (y : List Byte) (b : Block) : (postEventN c p u o y b).dbg.exporting = b.dbg.exporting := by unfold postEventN; split <;> simp
@[simp] theorem postEvent_dbg_exporting (c u : Nat) (y : List Byte) (b : Block) : (postEvent c u y b).dbg.exporting = b.dbg.exporting := by unfold postEvent; simp
@[simp] theorem hoEvent_dbg_exporting (c : Nat) (y : List Byte) (b : Block) : (hoEvent c y b).dbg.exporting = b.dbg.exporting := by unfold hoEvent; simp
@[simp] theorem traceEvent_dbg_exportLeft (c p u : Nat) (y : List Byte) (b : Block) : (traceEvent c p u y b).dbg.exportLeft = b.dbg.exportLeft := traceEvent_ind (P := fun x => x.dbg.exportLeft = b.dbg.exportLeft) c p u y rfl (by simp) (fun g h => by simpa using congrArg Debug.exportLeft (h b.dbg))
@[simp] theorem postEventN_dbg_exportLeft (c p u o : Nat) (y : List Byte) (b : Block) : (postEventN c p u o y b).dbg.exportLeft = b.dbg.exportLeft := by unfold postEventN; split <;> simp
@[simp] theorem postEvent_dbg_exportLeft (c u : Nat) (y : List Byte) (b : Block) : (postEvent c u y b).dbg.exportLeft = b.dbg.exportLeft := by unfold postEvent; simp
@[simp] theorem hoEvent_dbg_exportLeft (c : Nat) (y : List Byte) (b : Block) : (hoEvent c y b).dbg.exportLeft = b.dbg.exportLeft := by unfold hoEvent; simp
@[simp] theorem traceEvent_dbg_exportTodo (c p u : Nat) (y : List Byte) (b : Block) : (traceEvent c p u y b).dbg.exportTodo = b.dbg.exportTodo := traceEvent_ind (P := fun x => x.dbg.exportTodo = b.dbg.exportTodo) c p u y rfl (by simp) (fun g h => by simpa using congrArg Debug.exportTodo (h b.dbg))
@[simp] theorem postEventN_dbg_exportTodo (c p u o : Nat) (y : List Byte) (b : Block) : (postEventN c p u o y b).dbg.exportTodo = b.dbg.exportTodo := by unfold postEventN; split <;> simp
@[simp] theorem postEvent_dbg_exportTodo (c u : Nat) (y : List Byte) (b : Block) : (postEvent c u y b).dbg.exportTodo = b.dbg.exportTodo := by unfold postEvent; simp
@[simp] theorem hoEvent_dbg_exportTodo (c : Nat) (y : List Byte) (b : Block) : (hoEvent c y b).dbg.exportTodo = b.dbg.exportTodo := by unfold hoEvent; simp

/-! ### Fills and relocation tables -/

@[simp] theorem modRelocs_job (r : Nat) (f : List Reloc → List Reloc) (b : Block) :
    (modRelocs r f b).ho.job = { b.ho.job with relocs := tset b.ho.job.relocs r (f (b.office r).relocs) } := by simp [modRelocs]
@[simp] theorem fillTo_job (pick : Fill → Bool) (ph : Nat) (b : Block) :
    (fillTo pick ph b).ho.job = { b.ho.job with fills := b.ho.job.fills.map (fun f => if pick f then { f with phase := ph } else f) } := by simp [fillTo]

/-! ### A member that has failed -/

/-- Whether a member has failed. -/
def Office.failed (o : Office) (mb : Bool) : Bool := if mb then o.memB.failed else o.memA.failed

@[simp] theorem queueUnit_failed (r : Nat) (u : TestUnit) (b : Block) (q : Nat) (mb : Bool) : ((queueUnit r u b).office q).failed mb = (b.office q).failed mb := by
  unfold queueUnit
  dsimp only
  by_cases h : q = r
  · subst h; split <;> simp [Office.failed]
  · split <;> simp [Block.modOffice_ne _ _ h]

theorem restartFill_failed (r : Nat) (f : Fill) (b : Block) (q : Nat) (mb : Bool) : ((restartFill r f b).office q).failed mb = (b.office q).failed mb := by
  unfold restartFill
  dsimp only
  split
  · rw [queueUnit_failed]
    by_cases h : q = r
    · subst h; simp [Office.failed]
    · simp [Block.modOffice_ne _ _ h]
  · rfl
  · rfl

theorem forEach_office_ind {α : Type} {P : Office → Prop} {q : Nat} {f : α → Block → Block} (h : ∀ a b, P (b.office q) → P ((f a b).office q))
    (l : List α) {b : Block} (hb : P (b.office q)) : P ((forEach l f b).office q) := by
  unfold forEach
  induction l generalizing b with
  | nil => exact hb
  | cons x r ih => exact ih (h x b hb)

/-- A member that fails has failed, whatever follows from it. -/
theorem failMember_failed (r : Nat) (mb : Bool) (b : Block) : ((failMember r mb b).office r).failed mb = true := by
  unfold failMember
  dsimp only
  have h0 : ((b.modOffice r (fun o => if mb then { o with memB := o.memB.gone } else { o with memA := o.memA.gone })).office r).failed mb = true := by
    cases mb <;> simp [Office.failed, Member.gone]
  generalize b.modOffice r _ = c at h0
  have k : ∀ x : Block, (x.office r).idle = (c.office r).idle → (x.office r).failed mb = true := by
    intro x hx
    rw [← h0]
    exact congrArg (fun o => o.failed mb) hx
  split
  · exact h0
  · have h1 : ((officeSwitch r c).office r).failed mb = true := by
      apply k
      unfold officeSwitch
      split
      · rfl
      · split
        · rfl
        · simp
    generalize officeSwitch r c = d at h1
    split
    · unfold officeDead
      refine forEach_office_ind (P := fun o => o.failed mb = true) ?_ _ (by simpa [Office.failed] using h1)
      intro i x hx
      exact (congrArg (fun o => Office.failed o mb) (unscreen_idle i x r)).trans hx
    · unfold restartFills
      refine forEach_office_ind (P := fun o => o.failed mb = true) ?_ _ ?_
      · intro f x hx
        rw [restartFill_failed]; exact hx
      · rw [Block.office_same ((frame_writeServing r (!mb) (Frame.refl _ _) (fun _ h => h)).get .offices (by decide))]
        unfold takeOver
        dsimp only
        split <;> cases mb <;> simp [Office.failed, Member.serves] at * <;> split <;> simp_all

/-! ### Image targets -/

/-- With no open target out of service, a sweep fails none. -/
theorem imgSweep_eq {b : Block} (h : ∀ i ∈ b.ho.image.targets, b.imgOpen i = true → b.imgLost i = false) : imgSweep b = b := by
  unfold imgSweep
  rw [List.filter_eq_nil_iff.2 (fun i hi => by
    have := h i hi
    cases ho : b.imgOpen i <;> simp_all)]
  rfl

/-- While a target is still open, a load goes on. -/
theorem imgCheck_eq {b : Block} (h : ∀ i ∈ b.ho.image.targets, b.imgOpen i = true → b.imgLost i = false)
    (ho : b.ho.image.targets.any b.imgOpen = true) : imgCheck b = b := by
  unfold imgCheck
  rw [imgSweep_eq h]
  dsimp only
  rw [if_neg]
  rintro ⟨-, ha⟩
  obtain ⟨i, hi, hx⟩ := List.any_eq_true.1 ho
  have := List.all_eq_true.1 ha i hi
  simp [hx] at this

/-! ### A letter that is carried out -/

/-- The answer to a letter by its row's reply. -/
def answerOf (r : Nat) (l : Letter) : Reply → Block → Block
  | .refuse st d, b => answerRefuse r l st d b
  | .done res b, _ => answerOk r l res b
  | .later acc b, _ => answerLater r l acc b
  | .interim res acc b, _ => answerInterim r l res acc b
  | .whole res st d res2 b, _ => answerWhole r l res st d res2 b
  | .parts ps b, _ => answerParts r l ps b

theorem letterRow_carries {r op : Nat} {l : Letter} {b : Block} (h : b.carries r op l) (f : Letter → Block → Reply) :
    letterRow r op f b = answerOf r l (f l b) b := by
  obtain ⟨h1, h2, h3, h4, h5, h6⟩ := h
  unfold letterRow
  rw [h1]
  dsimp only
  rw [if_neg (by simp [h2])]
  simp only [h3]
  rw [if_neg (by rintro ⟨a, c, d⟩; rcases h4 a with h | h <;> contradiction),
    if_neg (by rintro ⟨a, c, d⟩; rcases h5 a with h | h <;> simp_all), if_neg (by rintro ⟨a, c⟩; simp_all)]
  cases f l b <;> rfl

theorem act_letter {r op : Nat} {l : Letter} {s : State} (hr : s.released) (h : s.blk.carries r op l) (f : Letter → Block → Reply) :
    act (letterRow r op f) s = .next (s.after (answerOf r l (f l s.blk) s.blk)) := act_after hr (letterRow_carries h f)

/-! ### Receipts leave the measurement alone (R121, R448) -/

/-- The measurement registers of two blocks agree. -/
def Block.sameMeasure (a b : Block) : Prop :=
  b.ho.mgmt.meas = a.ho.mgmt.meas ∧ b.ho.mgmt.measSlot = a.ho.mgmt.measSlot ∧ b.ho.mgmt.measVld = a.ho.mgmt.measVld ∧ b.ho.mgmt.measLen = a.ho.mgmt.measLen

theorem sameMeasure_of_mgmt {a b c : Block} (h : Block.sameMeasure a b) (e : c.ho.mgmt = b.ho.mgmt) : Block.sameMeasure a c := by
  simpa [Block.sameMeasure, e] using h

theorem putReceipt_sameMeasure {a b : Block} (r : Nat) (reply : Option (Nat × Nat × Nat)) (rc : List Byte) (h : Block.sameMeasure a b) :
    Block.sameMeasure a (putReceipt r reply rc b) := by
  unfold putReceipt
  split
  · refine sameMeasure_of_mgmt (b := setIrqRing r _) ?_ ((frame_sendReply _ _ _ _ _ _ (Frame.refl [.post] _) (fun _ x => x)).get .mgmt (by decide))
    exact h
  · split
    · exact h
    · split
      · exact h
      · exact h

theorem issue_sameMeasure {a b : Block} (o : Outst) (zeroTag final more : Bool) (status part parts detail : Nat) (res : List Byte)
    (h : Block.sameMeasure a b) : Block.sameMeasure a (issue o zeroTag final more status part parts detail res b) := by
  unfold issue
  exact forEach_inv (P := Block.sameMeasure a) (fun _ _ k => putReceipt_sameMeasure _ _ _ k) (putReceipt_sameMeasure o.ring o.reply _ h)

theorem pump_sameMeasure {a : Block} (r fuel : Nat) {b : Block} (h : Block.sameMeasure a b) : Block.sameMeasure a (pump r fuel b) := by
  induction fuel generalizing b with
  | zero => exact h
  | succ n ih =>
    unfold pump
    dsimp only
    split
    · exact h
    · split
      · exact h
      · split
        · exact h
        · split
          · exact ih (putReceipt_sameMeasure _ _ _ h)
          · exact ih (putReceipt_sameMeasure _ _ _ h)
          · exact ih h
          · split
            · exact ih (issue_sameMeasure _ _ _ _ _ _ _ _ _ h)
            · exact h

/-- Letters that are taken from the rings leave the measurement registers alone. -/
theorem pumpAll_sameMeasure (b : Block) : Block.sameMeasure b (pumpAll b) :=
  forEach_inv (P := Block.sameMeasure b) (fun _ _ k => pump_sameMeasure _ _ k) ⟨rfl, rfl, rfl, rfl⟩

end Sys2Proof.Machine
end

