-- ==== Sys2Proof/Laws/Tap.lean ====
section
/-! SUPPORT. What tp_tck cycles do: the controller, the instruction register and the network behind it. -/

namespace Sys2Proof.Machine

open Sys2Proof

/-! ### Controller state and instruction -/

theorem tapIdle_tap (b : Block) : (tapIdle b).dbg.tap = b.dbg.tap := by
  unfold tapIdle; split
  · dsimp only; split <;> simp
  · rfl
theorem tapIdle_tapIr (b : Block) : (tapIdle b).dbg.tapIr = b.dbg.tapIr := by
  unfold tapIdle; split
  · dsimp only; split <;> simp
  · rfl
theorem tapSelect_tap (c : Nat) (b : Block) : (tapSelect c b).dbg.tap = b.dbg.tap := by
  unfold tapSelect; dsimp only; split <;> simp [zeroize]
theorem tapSelect_tapIr (c : Nat) (b : Block) : (tapSelect c b).dbg.tapIr = BitVec.ofNat 8 c := by
  unfold tapSelect; dsimp only; split <;> simp [zeroize]

/-- A cycle moves the controller by tp_tms alone. -/
theorem tapClock_tap (tms tdi : Bool) (b : Block) : (tapClock tms tdi b).dbg.tap = b.dbg.tap.next tms := by
  unfold tapClock tapEnter
  generalize b.dbg.tap.next tms = st
  cases st <;> simp [tapIdle_tap, tapSelect_tap]

/-- What the present state does is a write of the shift register. -/
theorem tapMove_eq (tdi : Bool) (b : Block) : ∃ l, tapMove tdi b = b.modDebug (fun d => { d with tapSh := l }) := by
  unfold tapMove; split <;> first | exact ⟨_, rfl⟩ | exact ⟨b.dbg.tapSh, rfl⟩

theorem tapScan_cons (x : Bool × Bool) (l : List (Bool × Bool)) (b : Block) : tapScan (x :: l) b = tapScan l (tapClock x.1 x.2 b) := rfl
theorem tapScan_nil (b : Block) : tapScan [] b = b := rfl
theorem tapScan_append (l m : List (Bool × Bool)) (b : Block) : tapScan (l ++ m) b = tapScan m (tapScan l b) := by
  induction l generalizing b with
  | nil => rfl
  | cons x r ih => exact ih _

/-- What every cycle keeps, a scan keeps. -/
theorem tapScan_ind {P : Block → Prop} (h : ∀ (b : Block) (x : Bool × Bool), P b → P (tapClock x.1 x.2 b)) (l : List (Bool × Bool)) {b : Block} (hb : P b) : P (tapScan l b) := by
  induction l generalizing b with
  | nil => exact hb
  | cons x r ih => exact ih (h b x hb)

/-- Test-Logic-Reset writes the debug unit alone. -/
theorem tapReset_frame (b : Block) : Frame [.dbg] b (tapReset b) := by
  unfold tapReset; split
  · exact frame_modDebug _ (frame_modDebug _ (Frame.refl _ _) (fun _ h => h)) (fun _ h => h)
  · exact Frame.refl _ _

/-! ### Outside MANUFACTURE and RMA -/

/-- Where the network is closed to the life-cycle state, a scan writes the debug unit alone and opens nothing. -/
theorem tapScan_closed (l : List (Bool × Bool)) (b : Block) (h1 : b.dbg.netDue = false) (h2 : b.svc.lc ≠ .manufacture) (h3 : b.svc.lc ≠ .rma) :
    Frame [.dbg] b (tapScan l b) ∧ (tapScan l b).dbg.netOpen = b.dbg.netOpen ∧ (tapScan l b).dbg.netDue = false := by
  refine tapScan_ind (P := fun c => Frame [.dbg] b c ∧ c.dbg.netOpen = b.dbg.netOpen ∧ c.dbg.netDue = false) ?_ l ⟨Frame.refl _ _, rfl, h1⟩
  intro c x ⟨k1, k2, k3⟩
  have lc : c.svc.lc = b.svc.lc := by rw [k1.get .svc (by decide)]
  obtain ⟨l, hl⟩ := tapMove_eq x.2 c
  unfold tapClock tapEnter
  rw [hl]
  generalize c.dbg.tap.next x.1 = st
  have f : ∀ g, Frame [.dbg] b (c.modDebug g) := fun g => frame_modDebug _ k1 (fun _ h => h)
  cases st
  case runTestIdle => simp [tapIdle, k3]; exact ⟨frame_modDebug _ (f _) (fun _ h => h), k2⟩
  case updateIr => simp [tapSelect, lc, h2, h3]; exact ⟨frame_modDebug _ (frame_modDebug _ (f _) (fun _ h => h)) (fun _ h => h), k2, k3⟩
  case testLogicReset => exact ⟨frame_modDebug _ (frame_modDebug _ (f _) (fun _ h => h)) (fun _ h => h), k2, k3⟩
  all_goals exact ⟨frame_modDebug _ (f _) (fun _ h => h), k2, k3⟩

/-! ### In MANUFACTURE and RMA -/

/-- The network and what the Ledger records of it, against those of a block it comes from: closed and unrecorded, or
opened and recorded once. -/
def NetOnce (o b : Block) : Prop :=
  b.svc.lc = o.svc.lc ∧ b.now = o.now ∧
    ((b.dbg.netOpen = false ∧ b.ledger.openings = o.ledger.openings) ∨ (b.dbg.netOpen = true ∧ b.ledger.openings = o.ledger.openings ++ [o.now]))

theorem NetOnce.modDebug {o b : Block} (g : Debug → Debug) (h : NetOnce o b) (h1 : (g b.dbg).netOpen = b.dbg.netOpen) : NetOnce o (b.modDebug g) := by
  obtain ⟨a1, a2, a3⟩ := h
  refine ⟨a1, a2, ?_⟩
  simp only [Block.modDebug_dbg, Block.modDebug_ledger, h1]
  assumption

theorem NetOnce.tapIdle {o b : Block} (h : NetOnce o b) : NetOnce o (tapIdle b) := by
  unfold Machine.tapIdle
  split
  · obtain ⟨a1, a2, a3⟩ := h
    dsimp only; split
    · exact ⟨a1, a2, a3⟩
    · rename_i hno
      simp only [Block.modDebug_dbg] at hno
      rcases a3 with a3 | a3
      · refine ⟨by simpa using a1, by simpa [Block.now] using a2, .inr ⟨by simp, ?_⟩⟩
        simp [a3.2]; exact a2
      · exact absurd a3.1 hno
  · exact h

theorem NetOnce.tapSelect {o b : Block} (c : Nat) (h : NetOnce o b) : NetOnce o (tapSelect c b) := by
  unfold Machine.tapSelect
  dsimp only
  split
  · obtain ⟨a1, a2, a3⟩ := h
    exact ⟨by simpa [zeroize] using a1, by simpa [zeroize, Block.now] using a2, by simpa [zeroize] using a3⟩
  · exact h.modDebug _ rfl

theorem NetOnce.tapClock {o b : Block} (h : NetOnce o b) (tms tdi : Bool) : NetOnce o (tapClock tms tdi b) := by
  obtain ⟨l, hl⟩ := tapMove_eq tdi b
  unfold Machine.tapClock tapEnter
  rw [hl]
  have hs : NetOnce o (b.modDebug (fun d => { d with tapSh := l })) := h.modDebug _ rfl
  generalize b.dbg.tap.next tms = st
  generalize b.modDebug (fun d => { d with tapSh := l }) = c at hs
  cases st
  case runTestIdle => exact (hs.modDebug _ rfl).tapIdle
  case updateIr => exact (hs.modDebug _ rfl).tapSelect _
  case testLogicReset => exact (hs.modDebug _ rfl).modDebug _ rfl
  all_goals exact hs.modDebug _ rfl

theorem NetOnce.tapScan {o b : Block} (h : NetOnce o b) (l : List (Bool × Bool)) : NetOnce o (tapScan l b) :=
  tapScan_ind (P := NetOnce o) (fun _ x h => h.tapClock x.1 x.2) l h

/-! ### The scan of IJTAG_ACCESS -/

theorem tapScan_five (b : Block) : (tapScan (List.replicate 5 (true, false)) b).dbg.tap = .testLogicReset := by
  simp only [List.replicate, tapScan_cons, tapScan_nil, tapClock_tap]
  cases b.dbg.tap <;> rfl

theorem tapClock_capture (b : Block) (h : b.dbg.tap = .captureIr) :
    (tapClock false false b).dbg.tapSh = bitsOf 8 b.tapCapture ∧ (tapClock false false b).dbg.tap = .shiftIr := by
  refine ⟨?_, by rw [tapClock_tap, h]; rfl⟩
  simp [tapClock, tapEnter, h, TapSt.next, tapMove]

theorem tapClock_shift (b : Block) (h : b.dbg.tap = .shiftIr) (m t : Bool) : (tapClock m t b).dbg.tapSh = b.dbg.tapSh.drop 1 ++ [t] := by
  cases m <;> simp [tapClock, tapEnter, h, TapSt.next, tapMove]

theorem tapScan_shift (l : List Bool) (b : Block) (h : b.dbg.tap = .shiftIr) (hne : b.dbg.tapSh ≠ []) :
    (tapScan (l.map (fun t => (false, t))) b).dbg.tapSh = (b.dbg.tapSh ++ l).drop l.length ∧
      (tapScan (l.map (fun t => (false, t))) b).dbg.tap = .shiftIr := by
  induction l generalizing b with
  | nil => simp [tapScan_nil, h]
  | cons t r ih =>
    obtain ⟨i1, i2⟩ := ih (tapClock false t b) (by rw [tapClock_tap, h]; rfl) (by rw [tapClock_shift b h]; simp)
    simp only [List.map_cons, tapScan_cons]
    refine ⟨?_, i2⟩
    rw [i1, tapClock_shift b h]
    cases e : b.dbg.tapSh <;> simp [e] at hne ⊢

/-- Update-IR with IJTAG_ACCESS shifted in. -/
theorem tapClock_update (b : Block) (h : b.dbg.tap = .exit1Ir) (hs : b.dbg.tapSh = [true, false, false, false, false, true, false, false]) :
    (tapClock true false b).dbg.tap = .updateIr ∧ (tapClock true false b).dbg.tapIr = 0x21 ∧
      (b.svc.lc = .manufacture ∨ b.svc.lc = .rma → (tapClock true false b).dbg.netDue = true ∧ (tapClock true false b).outs.keysZero = true ∧
        (tapClock true false b).keys.slots = [0, 0, 0, 0]) := by
  refine ⟨by rw [tapClock_tap, h]; rfl, ?_, ?_⟩
  · simp [tapClock, tapEnter, h, TapSt.next, tapMove, tapSelect_tapIr, hs]; decide
  · intro hl
    have e : ofBits [true, false, false, false, false, true, false, false] = 0x21 := by decide
    simp [tapClock, tapEnter, h, TapSt.next, tapMove, tapSelect, hs, e, hl, zeroize]

/-- The scan of IJTAG_ACCESS up to Exit1-IR: its bits are in the shift register. -/
theorem tapScan_shifted (b : Block) :
    (tapScan ((selectCycles 0x21).take 18) b).dbg.tapSh = [true, false, false, false, false, true, false, false] ∧
      (tapScan ((selectCycles 0x21).take 18) b).dbg.tap = .exit1Ir := by
  rw [show (selectCycles 0x21).take 18 = List.replicate 5 (true, false) ++ ([(false, false), (true, false), (true, false), (false, false)] ++ ([(false, false)] ++
    (([true, false, false, false, false, true, false].map (fun t => (false, t))) ++ [(true, false)]))) from by decide]
  have h5 := tapScan_five b
  simp only [tapScan_append]
  generalize tapScan (List.replicate 5 (true, false)) b = c at h5
  have h10 : (tapScan [(false, false), (true, false), (true, false), (false, false)] c).dbg.tap = .captureIr := by
    simp only [tapScan_cons, tapScan_nil, tapClock_tap, h5]; rfl
  generalize tapScan [(false, false), (true, false), (true, false), (false, false)] c = d at h10
  obtain ⟨k1, k2⟩ := tapClock_capture d h10
  rw [show tapScan [(false, false)] d = tapClock false false d from rfl]
  generalize tapClock false false d = e at k1 k2
  obtain ⟨g1, g2⟩ := tapScan_shift [true, false, false, false, false, true, false] e k2 (by rw [k1]; simp [bitsOf])
  generalize tapScan _ e = f at g1 g2
  rw [show tapScan [(true, false)] f = tapClock true false f from rfl]
  refine ⟨?_, by rw [tapClock_tap, g2]; rfl⟩
  rw [tapClock_shift f g2, g1, k1]; rfl

/-- After the scan the instruction is IJTAG_ACCESS and the controller in Run-Test/Idle; in MANUFACTURE and RMA the keys
are zero and the network is open. -/
theorem tapScan_select (b : Block) :
    (tapScan (selectCycles 0x21) b).dbg.tapIr = 0x21 ∧ (tapScan (selectCycles 0x21) b).dbg.tap = .runTestIdle ∧
      ((b.svc.lc = .manufacture ∨ b.svc.lc = .rma) → b.dbg.netOpen = false → (tapScan (selectCycles 0x21) b).dbg.netOpen = true ∧
        (tapScan (selectCycles 0x21) b).keys.slots = [0, 0, 0, 0]) := by
  have k : b.dbg.netOpen = false → NetOnce b (tapScan ((selectCycles 0x21).take 18) b) := fun ho => NetOnce.tapScan ⟨rfl, rfl, .inl ⟨ho, rfl⟩⟩ _
  have g := tapScan_shifted b
  rw [show tapScan (selectCycles 0x21) b = tapScan [(true, false), (false, false)] (tapScan ((selectCycles 0x21).take 18) b) from by
    rw [← tapScan_append]; congr 1]
  generalize tapScan ((selectCycles 0x21).take 18) b = p at g k
  obtain ⟨u1, u2, u3⟩ := tapClock_update p g.2 g.1
  rw [show tapScan [(true, false), (false, false)] p = tapClock false false (tapClock true false p) from rfl]
  refine ⟨?_, by rw [tapClock_tap, u1]; rfl, ?_⟩
  · generalize tapClock true false p = q at u1 u2
    simp [tapClock, tapEnter, u1, TapSt.next, tapMove, tapIdle_tapIr, u2]
  · intro hl ho
    obtain ⟨v1, v2, v3⟩ := u3 (by rw [(k ho).1]; exact hl)
    generalize tapClock true false p = q at u1 v1 v2 v3
    have e2 : (tapMove false q) = q := by simp [tapMove, u1]
    simp [tapClock, tapEnter, u1, TapSt.next, e2, tapIdle, v1, v2]
    split
    · rename_i hh; exact ⟨hh, v3⟩
    · exact ⟨by simp, by simpa using v3⟩

end Sys2Proof.Machine
end

