-- ==== Sys2Proof/WellFormed.lean ====
section
/-! DEFINITION. Which commands the block's surroundings can give: ranges of operands that their widths do not fix. -/

namespace Sys2Proof

/-- Letters come on command rings 0 to 55; rings 56 to 63 carry events (R396). -/
def wfLetterRing (r : BitVec 6) : Bool := decide (r.toNat < 56)
/-- Host-side rings 0 to 39 (R396). -/
def wfHostRing (r : BitVec 6) : Bool := decide (r.toNat < 40)
/-- Message channels 0 to 9 of a Courier port (R107). -/
def wfChannel (vc : BitVec 4) : Bool := decide (vc.toNat < 10)
/-- A leg measurement is 64 round trips (R141). -/
def wfLeg (l : LegSample) : Bool := decide (l.trips.length = 64)
/-- A range of core positions (R36). -/
def wfRange (p : Nat × Nat) : Bool := decide (p.1 ≤ p.2) && decide (p.2 < 2 ^ 20)
/-- A capture moves 1 to 4,096 beats (R78). -/
def wfBeats (n : BitVec 13) : Bool := decide (1 ≤ n.toNat) && decide (n.toNat ≤ 4096)
/-- A source of a transit slot: 15 other ports, or the Head Office as 16 (R323). -/
def wfSource (x : BitVec 5) : Bool := decide (x.toNat ≤ 16)
/-- Pages read from a copy hold 4,096 bytes (R366). -/
def wfAnswers (a : RestoreAnswers) : Bool := a.head1.all (fun p => decide (p.length = 4096)) && a.head2.all (fun p => decide (p.length = 4096))

/-- The command is well formed. -/
def Instr.wf : Instr → Bool
  | .blockPowerOnReset => true
  | .blockResetRelease _ _ _ _ _ _ _ _ _ => true
  | .postmarkDomainTestDone _ legs => legs.all wfLeg
  | .headOfficeTestDone _ _ _ _ => true
  | .configurationCheck image present => Machine.Memory.wf image && present.all wfRange
  | .ledgerReloadDone _ _ => true
  | .officeMemberTestDone _ _ _ legs => legs.all wfLeg
  | .routerLoopbackDone _ _ _ => true
  | .courierDomainTestDone _ _ _ => true
  | .officeLedgerDelivered _ => true
  | .waveRequest => true
  | .waveAck => true
  | .waveFail => true
  | .waveTimeout => true
  | .boardMapPublication => true
  | .corePorAssert _ => true
  | .corePorRelease _ _ _ => true
  | .alignmentEpochCheck _ _ => true
  | .clockChangeDeclared _ => true
  | .clockChangeEnded _ => true
  | .weightBeat _ _ => true
  | .activationBeat _ _ => true
  | .accumulatorDrain _ _ => true
  | .rowCompare _ => true
  | .outputBeat _ _ => true
  | .saturationPulse _ => true
  | .flushSticky _ _ => true
  | .tileVerdict _ _ => true
  | .coreSummary _ => true
  | .milestone _ _ _ => true
  | .stall _ => true
  | .waitBegin _ _ _ => true
  | .waitClear _ => true
  | .shadowDescriptorRead _ _ => true
  | .fenceOrder _ _ => true
  | .fenceAck _ => true
  | .fenceTimeout _ => true
  | .coreRelease _ => true
  | .testRequest _ => true
  | .testAck _ => true
  | .testDone _ _ _ => true
  | .testTimeout _ => true
  | .captureRequest _ _ beats => wfBeats beats
  | .captureAck _ => true
  | .captureBeat _ _ _ => true
  | .captureTimeout _ => true
  | .captureClose _ => true
  | .intakeBeat _ _ => true
  | .egressInputBeat _ _ => true
  | .egressOutputBeat _ _ => true
  | .egressStepEnd _ _ => true
  | .frankPresent => true
  | .frankAccept _ => true
  | .crLinkUp _ => true
  | .crLinkDown _ => true
  | .crWriteResponse _ _ _ => true
  | .crReadBeat _ _ _ _ _ _ => true
  | .crFlitTransmit _ vc => wfChannel vc
  | .crCreditReturn _ vc => wfChannel vc
  | .crFlitReceive _ _ _ => true
  | .fleetPacketReceive _ vc => wfChannel vc
  | .transitSlotReport _ => true
  | .transitLost _ vc source => wfChannel vc && wfSource source
  | .hostDone => true
  | .externalResetRequest => true
  | .syncPulse _ => true
  | .syncMissing => true
  | .refLost => true
  | .legRemeasure legs => legs.all wfLeg
  | .powerIdValid _ _ _ _ => true
  | .regionVokFall _ _ => true
  | .testWindow _ => true
  | .shutdownRequest => true
  | .archiveDone _ => true
  | .keyPortWord _ _ _ => true
  | .zeroizeRequest => true
  | .stopInput _ => true
  | .stopOutputPulseEnd => true
  | .stopCountReached => true
  | .stopReleased => true
  | .resumeCountReached => true
  | .resumeLate => true
  | .launchArmDeadline => true
  | .launchCountReached => true
  | .stepBoundary => true
  | .diceFill _ _ _ => true
  | .officeVerdictReceive _ _ => true
  | .coreSummaryReceive _ _ => true
  | .regionVerdictDeadline _ => true
  | .regionRecordReceive => true
  | .egressSummaryReceive => true
  | .stepDecision => true
  | .decisionReceive _ => true
  | .fillPhaseComplete _ _ _ => true
  | .fillTimeout _ _ => true
  | .cleanHour => true
  | .waitGraphBuild => true
  | .stallEventReceive _ _ => true
  | .eventForward _ => true
  | .testUnitPlace _ => true
  | .standbyPeriod _ => true
  | .standbyCopyDone _ => true
  | .plannedSwap _ => true
  | .routerRound _ _ => true
  | .officePrimaryFail _ => true
  | .lockstepDisagree => true
  | .sramUncorrectable _ => true
  | .routerFrame _ => true
  | .seamDeliver _ _ => true
  | .terminalReceive _ _ => true
  | .returnedReceive _ => true
  | .resendTimer _ => true
  | .congestionSample _ _ => true
  | .regionMapSend _ => true
  | .waferMapBroadcast => true
  | .tableSwapStart _ _ => true
  | .tableVersionRetire => true
  | .stagedActivation _ => true
  | .stageAckTimeout _ _ => true
  | .fleetHello => true
  | .helloPeriodic => true
  | .partnerStale _ => true
  | .partnerRemove _ => true
  | .letterMessage => true
  | .letterFwd => true
  | .receiptMessage => true
  | .replyTimeout _ => true
  | .fragmentTimeout _ _ => true
  | .ringLetterRelay ring => wfHostRing ring
  | .bulkOpen => true
  | .bulkGrant => true
  | .bulkData => true
  | .bulkCredit => true
  | .bulkCreditTimeout _ => true
  | .collUp => true
  | .collDown => true
  | .collTimeout _ => true
  | .hostWarmTimeout => true
  | .hostColdTimeout => true
  | .parcelPrepare => true
  | .parcelReserveRenew => true
  | .parcelVoteLate => true
  | .parcelStop => true
  | .parcelRootBuild => true
  | .parcelCommitSend => true
  | .parcelOverrun => true
  | .parcelUngate => true
  | .parcelCommitAnswer _ _ => true
  | .parcelCommitTimeout _ => true
  | .reservationLapse _ _ => true
  | .teardownQuiesced => true
  | .teardownForce => true
  | .imagePacket _ _ => true
  | .imageRoundEnd _ => true
  | .imageReadbackDone _ _ => true
  | .hello ring => wfLetterRing ring
  | .identify ring => wfLetterRing ring
  | .inventory ring => wfLetterRing ring
  | .measure ring => wfLetterRing ring
  | .jobLoad ring _ => wfLetterRing ring
  | .launch ring _ => wfLetterRing ring
  | .stopAt ring => wfLetterRing ring
  | .urgentStop ring => wfLetterRing ring
  | .stopRelease ring => wfLetterRing ring
  | .jobTeardown ring => wfLetterRing ring
  | .postmarkLoad ring => wfLetterRing ring
  | .formatLoad ring _ _ => wfLetterRing ring
  | .diceRates ring => wfLetterRing ring
  | .canaryBands ring => wfLetterRing ring
  | .verdictPolicy ring => wfLetterRing ring
  | .stepQuery ring => wfLetterRing ring
  | .coreQuery ring => wfLetterRing ring
  | .testPolicy ring => wfLetterRing ring
  | .testSweep ring => wfLetterRing ring
  | .coreRestore ring => wfLetterRing ring
  | .testCourier ring _ => wfLetterRing ring
  | .officeSwap ring => wfLetterRing ring
  | .courierPower ring _ _ => wfLetterRing ring
  | .fleetRings ring => wfLetterRing ring
  | .courierEnable ring => wfLetterRing ring
  | .partnerQuery ring => wfLetterRing ring
  | .parcelPolicy ring => wfLetterRing ring
  | .holderCap ring => wfLetterRing ring
  | .parcelReserve ring => wfLetterRing ring
  | .parcelCommit ring => wfLetterRing ring
  | .parcelQuery ring => wfLetterRing ring
  | .parcelRelease ring => wfLetterRing ring
  | .parcelRestore ring answers => wfLetterRing ring && wfAnswers answers
  | .warmReset ring => wfLetterRing ring
  | .coldReset ring => wfLetterRing ring
  | .resetPolicy ring => wfLetterRing ring
  | .counterSelect ring => wfLetterRing ring
  | .counterRead ring => wfLetterRing ring
  | .traceControl ring => wfLetterRing ring
  | .traceTrigger => true
  | .exportData ring => wfLetterRing ring
  | .imageLoad ring _ => wfLetterRing ring
  | .imageStatus ring => wfLetterRing ring
  | .imageAbort ring => wfLetterRing ring
  | .registerWrite _ _ => true
  | .managementPortReset => true
  | .ringDoorbell _ _ => true
  | .ringPop _ _ => true
  | .pmCountRead => true
  | .pmLatchCapture _ => true
  | .stopCtrlUrgent _ => true
  | .crEnableWrite _ => true
  | .keyLoadBegin _ => true
  | .keyWindowLock _ => true
  | .keyWindowZeroize _ => true
  | .keyDataWrite _ => true
  | .tapReset => true
  | .ijtagAccessSelect => true
  | .sibOpen _ => true
  | .coreCapUpdate _ _ _ _ => true
  | .standbyTestDone _ _ => true
  | .routerLost _ _ => true
  | .resetWindowExpiry => true

end Sys2Proof
end

