-- ==== Sys2Proof/Tests/Slice0.lean ====
section
/-! SUPPORT. Smoke tests of the well-formedness checks, single steps and numbers from the spec's worked examples, and
for each statement a state and operands that meet the hypotheses of each of its clauses together. -/

section

set_option Elab.async false

open Sys2Proof Sys2Proof.Machine

namespace Sys2Proof.Tests

/-- An integration configuration of one region with four cores, one test slice and one bank. -/
def cfg0 : IntegrationConfig where
  regions := 1
  present := [(0, 3)]
  regionCfg := [{}]
  csLen := 2
  fullLen := 1000
  slices := [(100, 0)]
  bankLen := 50
  bankSigs := [0]
  images := true

/-- A core position out of reset, released and aligned. -/
def core0 : Core where
  porN := true
  pins := { fenceN := true, isoN := true, holdN := true }
  time := { aligned := true }

/-- A region's Office with both members eligible and its Ledger delivered. -/
def office0 : Office where
  powered := true
  memA := { passed := true, eligible := true }
  memB := { passed := true, eligible := true }
  ledgerIn := true
  looped := BitVec.allOnes 128

/-- A Courier domain with its port up. -/
def courier0 : Courier where
  powered := true
  en := true
  linkUp := true
  credits := List.replicate 10 64

/-- A block in READY with one region of four cores and Courier domain 0. -/
def ready : Block where
  env := { porN := true, blkVok := true, rgnVok := 1, arPresent := true }
  outs := { alarmN := true, alarmCode := 0 }
  pm := { powered := true, count := 1000000, state := .loaded }
  svc := { state := .ready, hoOn := true, dbgOn := true, hoPassed := true, imageOk := true, ledgerOk := true, pmOk := true, lc := .field }
  cfg := some cfg0
  ledger := { epoch := 1 }
  units :=
    { cores := [(0, core0), (1, core0), (2, core0), (3, core0)]
      offices := [(0, office0)]
      couriers := [(0, courier0)] }

/-- The same block in a slot of a launched job. -/
def inSlot : Block :=
  { ready.modJob (fun j => { j with
      man := some { slotLen := 1000000 }
      launched := true
      inSlot := true }) with
    svc := { ready.svc with state := .job } }

/-- The same block during bring-up, with its Head Office running. -/
def rise : Block := ready.modSvc (fun v => { v with state := .bringup })

/-- A state with nothing waiting. -/
def at0 (b : Block) : State := { blk := b }

/-- The 32 bytes before a letter's parameters, and the parameters. -/
def letterBytes (op : Nat) (params : List Byte) : List Byte :=
  le 2 (1 + 16 * op) ++ [0, BitVec.ofNat 8 params.length] ++ le 28 0 ++ params

/-- A block with the letter at the head of ring 0, ready for its row. -/
def post (op : Nat) (params : List Byte) (b : Block) : Block :=
  { b.modRing 0 (fun x => { x with
      ltrTail := 1
      ready := true }) with
    letters := memWrites [] 0 (letterBytes op params) }

/-- The letter itself. -/
def ltr (op : Nat) (params : List Byte) : Letter := ⟨0, letterBytes op params, none, none⟩

/-- A well-formed packet of one flit for a service, its CRCs right. -/
def pkt (svc : Nat) (f : Flit) : Packet :=
  let h := BitVec.ofNat 128 (packF [(3, 1), (43, svc)])
  { hdr := h
    pl := [f]
    crc := pktCrc h [f] }
/-- The same packet turned back to its sender (packet type 3). -/
def ret : Packet :=
  let h := BitVec.ofNat 128 (packF [(0, 3), (3, 1), (43, 2)])
  { hdr := h
    pl := [0]
    crc := pktCrc h [0] }
/-- Core position 3 is a SPARE, the others ACTIVE. -/
def withSpare (b : Block) : Block :=
  { b with ledger := { b.ledger with hist := [(0, { st := .active }), (1, { st := .active }), (2, { st := .active }), (3, { st := .spare })] } }
/-- Core position 0 carries role 7. -/
def withRole : Block := ready.modBm (fun m => { m with roles := [(0, 7)] })
/-- A parcel is being taken: its record stands in the Ledger. -/
def taking (b : Block) : Block := setGen (some { state := .capturing }) b
/-- A HELLO of protocol version 1 from a wafer of the same rings. -/
def helloBytes : List Byte :=
  le 32 (packF [(0, 0x11), (16, (crc16 (List.replicate 8 1)).toNat)])
/-- The hop list and header of a fleet packet that has arrived. -/
def fleetRoute : Flit := 0
def fleetHdr : Flit := BitVec.ofNat 128 (packF [(3, 1), (7, 1)])
def fleetFlits : List CourierFlit := packFleet fleetHdr [fleetRoute] (BitVec.ofNat 32 (fcrcOf [fleetRoute]))
def oddPar : BitVec 64 := 0
/-- An image under distribution to core 0: its first round. -/
def imaging (l : List Byte) : Block :=
  ready.modImage (fun x => { x with
    active := true
    bytes := l
    digest := sha384v l
    imageId := 7
    regions := 1
    targets := [0] })
/-- A manifest with one section and no role. -/
def man0 : List Byte :=
  le 4 0x4D465331 ++ [1, 1, 16, 0] ++ le 8 0 ++ le 4 1000000 ++ le 4 1 ++ le 8 0 ++ le 16 1 ++ le 208 0 ++ le 16 1
/-- Parameters of JOB_LOAD for those bytes and their SHA-384. -/
def loadParams (d : List Byte) : List Byte := le 8 0 ++ le 8 d.length ++ le 48 8499805820139790524226904745781363072910073614039908009889621711559392763993283381661589462934302888279903575834303
/-- What the two Holders answer: the given root, and one page. -/
def restore0 (r : BitVec 384) : RestoreAnswers where
  root1 := r
  root2 := r
  head1 := [[0]]
  head2 := []
  data1 := []
  data2 := []
  back1 := []
  back2 := []
  records := []
  promotions := []
  bursts := []
  rates := (0, 0, 0, 0)
  counters := []
/-- Parameters of IMAGE_LOAD for 16 bytes of value 5 and their SHA-384. -/
def imgParams : List Byte := le 8 0 ++ le 4 16 ++ le 4 0 ++ le 48 21823334423690040474290582789062953792130034252745770076331581954136162331157416115442648640650597360612191387436718 ++ le 16 1 ++ [0]

/-! ### Ill-formed commands, one for each check -/

theorem test_wf_leg : (Instr.legRemeasure [⟨0, List.replicate 63 9⟩]).wf = false := by decide
theorem test_wf_image : (Instr.configurationCheck [(5, 1), (4, 1)] []).wf = false := by decide
theorem test_wf_range_order : (Instr.configurationCheck [] [(9, 8)]).wf = false := by decide
theorem test_wf_range_end : (Instr.configurationCheck [] [(0, 1048576)]).wf = false := by decide
theorem test_wf_beats_none : (Instr.captureRequest 0 false 0).wf = false := by decide
theorem test_wf_beats_many : (Instr.captureRequest 0 false 4097).wf = false := by decide
theorem test_wf_channel : (Instr.crCreditReturn 0 10).wf = false := by decide
theorem test_wf_source : (Instr.transitLost 0 0 17).wf = false := by decide
theorem test_wf_letter_ring : (Instr.launch 56 []).wf = false := by decide
theorem test_wf_host_ring : (Instr.ringLetterRelay 40).wf = false := by decide
theorem test_wf_answers : (Instr.parcelRestore 0 (restore0 0)).wf = false := by decide
theorem test_wf_ends : (Instr.captureRequest 0 true 4096).wf = true ∧ (Instr.launch 55 []).wf = true ∧
      (Instr.transitLost 0 9 16).wf = true := by decide

/-! ### Numbers the spec works out -/

/-- Numbering one core (spec/01): region 37, router 107 at (11, 6), port 42. -/
theorem test_unit_number : pathUnit ⟨0, 37, 11, 6, 42, 0⟩ = 0x4BAEA ∧ pathUnit ⟨0, 37, 11, 6, 0, 1⟩ = 0x1012EB ∧ unitMember 37 0 = 0x30004A ∧
    unitMember 37 1 = 0x30004B := by decide
/-- A relocation in the Board Map (spec/01). -/
theorem test_board_map_entries : bmEntry 0x4BAEA 0 3 (some 0x12C40) = 0x00112C400304BAEA ∧ bmEntry 0x4A0C9 4 3 none = 0x000000000344A0C9 ∧
    bmEntry 0x4BAEA 3 3 none = 0x000000000334BAEA ∧ bmEntry 0x4A0C9 1 3 (some 0x12C40) = 0x00112C400314A0C9 := by decide
/-- A stamp of step 3 (spec/04): offset 45,454,546 ticks at 2.2 GHz. -/
theorem test_milestone_offset : cycTicks { p := 22 } 100000003 = 45454546 := by decide
/-- A KAT of 61,536 cycles (spec/08). -/
theorem test_kat_ticks : cycTicksUp { p := 22 } 61536 = 27971 := by decide
/-- Residues of the FP8 tile (spec/05): 0.75, -1.625, a flushed subnormal, 60. -/
theorem test_fp8_residues : psi 0x08F80323 0x3C 0x30 = 6144 ∧ psi 0x08F80323 0xC5 0x30 = 3070 ∧ psi 0x08F80323 0x03 0x4C = 0 ∧
    psi 0x08F80323 0x52 0x4C = 60 := by decide
/-- The accumulator side of both examples (spec/05): -88 and 1,088 under e = -4; -2,580 and 86,400 under e = -8. -/
theorem test_tallies : foldWord 48 0xFFFFFFFFFFA8 = 8103 ∧ rot13 ((8103 + 1088) % M13) (emod13 (-4)) = 4158 ∧
    rot13 ((foldWord 48 (2 ^ 48 - 2580) + foldWord 48 86400) % M13) (emod13 (-8)) = 3783 := by decide
/-- The identity check and the stamp of the FP4 tile (spec/05). -/
theorem test_stamp : stampOf 8 2 0x07000123 4 2 0 = 0x0B244008 := by decide
/-- The header of a tile verdict to its Office (spec/09). -/
theorem test_header : (mkHdr 0 1 false ⟨1, 37, 0, 0, 2, 0⟩ 1 0 ⟨0, 37, 11, 6, 42, 0⟩ 1 0x5C 0).toNat = 0x5C01AB592800084029400008 := by decide
/-- A letter beyond twelve hops (spec/10): its hops, the relay, the first half of the route flit. -/
theorem test_long_route : routeOf [8, 8, 8, 8, 8, 1, 1, 1] 0x123 0x1A07 = [0, 0, 0, 0, 2, 2, 2, 2, 4, 4, 4, 4, 7, 7, 7, 8] ∧
    ((routeOf [8, 8, 8, 8, 8, 1, 1, 1] 0x123 0x1A07).take 12).foldl (hopTo [8, 8, 8, 8, 8, 1, 1, 1]) 0x123 = 7 ∧
    routeFlit 7 0x123 0x400000 [0, 0, 0, 0, 2, 2, 2, 2, 4, 4, 4, 4] = 0x02108410842000000C40000001230007 := by decide
/-- The receipts of LAUNCH (spec/13). -/
theorem test_launch_receipts :
    ofLe ((receiptBytes 0x102 false false false 0x457 7 1 0 1 0 0 (le 20 0)).take 16) = 0x00000100000100070000045714001021 ∧
    ofLe ((receiptBytes 0x102 true false false 0x457 7 0 0 1 0 0 (le 20 0)).take 16) = 0x00000100000000070000045714011021 := by decide
/-- IDCODE (R130). -/
theorem test_idcode : ({ env := { mfgId := 0x2C5 } } : Block).idcode = 0x4F1A158B := by decide

/-! ### One step of the machine -/

/-- Commands in the order they were sent: the second waits. -/
theorem test_step_takes_the_front : (match step { blk := ready, pending := [.zeroizeRequest, .frankPresent] } with
    | .next t => decide (t.pending = [.frankPresent] ∧ t.blk.outs.zeroDone = 1) | _ => false) = true := by decide +kernel
/-- No command: ten ticks. -/
theorem test_idle_tick : (match step (at0 ready) with | .next t => decide (t.blk.now = 1000010) | _ => false) = true := by decide
/-- The doorbell of ring 3 (spec/14): RING_LTR goes from 0x0505 to 0x0605 before the letter is taken. -/
theorem test_doorbell : (match exec (.ringDoorbell 3 1) (at0 ((ready.modSvc (fun v => { v with imageOk := false })).modRing 3 (fun x => { x with
    ltrHead := 5
    ltrTail := 5 }))) with
    | .next t => decide ((t.blk.readWindow 0x1030).1 = 0x0605) | _ => false) = true := by decide +kernel
/-- An alignment epoch of 2,200 cycles at 2.2 GHz (R148), and one that misses. -/
theorem test_alignment : (match exec (.alignmentEpochCheck 0 2200) (at0 (ready.setCore 0 { porN := true })),
      exec (.alignmentEpochCheck 0 2199) (at0 (ready.setCore 0 { porN := true })) with
    | .next t, .next u => (t.blk.core 0).time.aligned && !(u.blk.core 0).time.aligned | _, _ => false) = true := by decide +kernel
/-- A milestone's stamp (spec/04). -/
theorem test_milestone_stamp : (match exec (.milestone 0 1 100000003) (at0 (inSlot.modJob (fun j => { j with slotAt := 1002636000000 }))) with
    | .next t => decide ((t.blk.core 0).time.lastStamp = 1002681454546) | _ => false) = true := by decide +kernel
/-- The last word of a key load (R124): twelve words fill the slot and end the load. -/
theorem test_key_load : (match exec (.keyDataWrite 0x44) (at0 (ready.modKeys (fun k => { k with win := some (2, List.replicate 11 0) }))) with
    | .next t => decide (t.blk.keys.slots.getD 2 0 ≠ 0 ∧ t.blk.keys.slots.getD 1 0 = 0 ∧
      t.blk.keys.win = none) | _ => false) = true := by decide +kernel
/-- A host's letter of ring 0 is answered in its receipt ring: IDENTIFY. -/
theorem test_identify : (match exec (.identify 0) (at0 (post 0x002 [] ready)) with
    | .next t => decide ((t.blk.ring 0).ltrHead = 1 ∧
      ((t.blk.ring 0).recs.headD []).take 3 = [0x21, 0x00, 0x01]) | _ => false) = true := by decide +kernel
/-- In reset nothing but the release acts (R88). -/
theorem test_reset_ignores : exec .externalResetRequest State.reset = .next State.reset := rfl

/-! ### A configuration that the check accepts -/

/-- Pages of a configuration below and above its CRC: region 55 with one core. -/
def cfgLow : List Host.Cell :=
  [(0, 0x31), (1, 0x47), (2, 0x46), (3, 0x43), (4, 1), (7, 0x80), (14, 0x80), (24, 1), (32, 1), (33, 1), (34, 1), (35, 1), (36, 1), (37, 1),
   (38, 1), (39, 1), (40, 1), (41, 1), (48, 1), (56, 0x98), (57, 8), (61, 1), (1464, 1), (1465, 1), (1466, 10), (1467, 1), (1468, 1)]
def cfgHigh : List Host.Cell := [(0x181000, 0x20), (0x181001, 3), (0x201008, 0xC)]
def cfgImage (x : Nat) : List Host.Cell := cfgLow ++ (List.range 8).map (fun i => (4088 + i, (le 8 x).getD i 0)) ++ cfgHigh

/-- Addresses rise strictly from lo. -/
def rises (lo : Nat) : List Host.Cell → Prop
  | [] => True
  | c :: r => lo ≤ c.1 ∧ rises (c.1 + 1) r

theorem rises_mono {lo lo' : Nat} (h : lo' ≤ lo) : ∀ {m : List Host.Cell}, rises lo m → rises lo' m
  | [], _ => trivial
  | _ :: _, w => ⟨Nat.le_trans h w.1, w.2⟩

theorem dropWhile_rises {a : Nat} : ∀ {m : List Host.Cell} {lo : Nat}, rises lo m → rises (max lo a) (m.dropWhile (fun c => decide (c.1 < a)))
  | [], _, _ => trivial
  | c :: r, lo, w => by
    by_cases h : c.1 < a
    · simp only [List.dropWhile_cons, h, decide_true, if_true]
      exact rises_mono (by have h0 : lo ≤ c.1 := w.1; omega) (dropWhile_rises w.2)
    · simp only [List.dropWhile_cons, h, decide_false]
      exact ⟨by have := w.1; omega, w.2⟩

theorem dropWhile_all {a : Nat} {m : List Host.Cell} (w : rises a m) : m.dropWhile (fun c => decide (c.1 < a)) = m := by
  cases m with
  | nil => rfl
  | cons c r => simp [Nat.not_lt.2 w.1]

/-- Cells below the first address make no difference. -/
theorem imgSpan_drop_low (n a : Nat) (m : List Host.Cell) {lo : Nat} (w : rises lo m) :
    imgSpan n a m = imgSpan n a (m.dropWhile (fun c => decide (c.1 < a))) := by
  cases n with
  | zero => rfl
  | succ n =>
    have e : (m.dropWhile (fun c => decide (c.1 < a))).dropWhile (fun c => decide (c.1 < a)) = m.dropWhile (fun c => decide (c.1 < a)) :=
      dropWhile_all (rises_mono (Nat.le_max_right lo a) (dropWhile_rises w))
    simp only [imgSpan, e]

/-- One byte further. -/
theorem imgSpan_tail (n a : Nat) (m : List Host.Cell) (w : rises 0 m) : (imgSpan (n + 1) a m).drop 1 = imgSpan n (a + 1) m := by
  rw [imgSpan_drop_low n (a + 1) m w]
  have w' := dropWhile_rises (a := a) w
  have e : m.dropWhile (fun c => decide (c.1 < a + 1)) = (m.dropWhile (fun c => decide (c.1 < a))).dropWhile (fun c => decide (c.1 < a + 1)) := by
    induction m with
    | nil => rfl
    | cons c r ih =>
      by_cases h : c.1 < a
      · have h' : c.1 < a + 1 := by omega
        simp only [List.dropWhile_cons, h, h', decide_true, if_true]
        exact ih (rises_mono (Nat.zero_le _) w.2) (dropWhile_rises (rises_mono (Nat.zero_le _) w.2))
      · simp [h]
  rw [e]
  simp only [imgSpan]
  cases h : m.dropWhile (fun c => decide (c.1 < a)) with
  | nil => simp
  | cons c r =>
    rw [h] at w'
    obtain ⟨w1, w2⟩ := w'
    by_cases hc : c.1 = a
    · simp only [hc, if_true, List.drop_succ_cons, List.drop_zero]
      rw [← imgSpan_drop_low n (a + 1) (c :: r) (lo := c.1) ⟨Nat.le_refl _, w2⟩, imgSpan_drop_low n (a + 1) (c :: r) (lo := c.1) ⟨Nat.le_refl _, w2⟩]
      have : (c :: r).dropWhile (fun c => decide (c.1 < a + 1)) = r.dropWhile (fun c => decide (c.1 < a + 1)) := by
        simp [hc]
      rw [this, ← imgSpan_drop_low n (a + 1) r w2]
    · simp only [hc, if_false, List.drop_succ_cons, List.drop_zero]
      exact imgSpan_drop_low n (a + 1) (c :: r) (lo := c.1) ⟨Nat.le_refl _, w2⟩

theorem imgSpan_drop (m : List Host.Cell) (w : rises 0 m) : ∀ k n a, (imgSpan (n + k) a m).drop k = imgSpan n (a + k) m
  | 0, n, a => by simp
  | k + 1, n, a => by
    rw [show n + (k + 1) = n + k + 1 from rfl, Nat.add_comm k 1, ← List.drop_drop, imgSpan_tail (n + k) a m w, imgSpan_drop m w k n (a + 1),
      show a + 1 + k = a + (1 + k) from by omega]

/-- The bytes before an address come from the cells before it. -/
theorem imgSpan_take : ∀ (k n a : Nat) (p q r : List Host.Cell), rises (a + k) q → rises (a + k) r →
    (imgSpan n a (p ++ q)).take k = (imgSpan n a (p ++ r)).take k
  | 0, _, _, _, _, _, _, _ => by simp
  | _ + 1, 0, _, _, _, _, _, _ => rfl
  | k + 1, n + 1, a, p, q, r, hq, hr => by
    have dq : q.dropWhile (fun c => decide (c.1 < a)) = q := dropWhile_all (rises_mono (by omega) hq)
    have dr : r.dropWhile (fun c => decide (c.1 < a)) = r := dropWhile_all (rises_mono (by omega) hr)
    have hq' : rises (a + 1 + k) q := rises_mono (by omega) hq
    have hr' : rises (a + 1 + k) r := rises_mono (by omega) hr
    have tail : ∀ (s : List Host.Cell), rises (a + (k + 1)) s → s.dropWhile (fun c => decide (c.1 < a)) = s →
        (imgSpan (n + 1) a s).take (k + 1) = 0 :: (imgSpan n (a + 1) ([] ++ s)).take k := by
      intro s hs ds
      simp only [imgSpan, ds, List.nil_append]
      cases s with
      | nil => simp
      | cons c l =>
        have := hs.1
        simp [show c.1 ≠ a from by omega]
    have step : ∀ (d s : List Host.Cell), s.dropWhile (fun c => decide (c.1 < a)) = s → rises (a + (k + 1)) s →
        p.dropWhile (fun c => decide (c.1 < a)) = d → (p ++ s).dropWhile (fun c => decide (c.1 < a)) = d ++ s := by
      intro d s ds _ hd
      rw [List.dropWhile_append, hd]
      cases d with
      | nil => simpa using ds
      | cons c l => simp
    simp only [imgSpan]
    generalize hd : p.dropWhile (fun c => decide (c.1 < a)) = d
    rw [step d q dq hq hd, step d r dr hr hd]
    cases d with
    | nil =>
      have a1 := tail q hq dq
      have a2 := tail r hr dr
      simp only [imgSpan, dq, dr] at a1 a2
      simp only [List.nil_append]
      rw [a1, a2, imgSpan_take k n (a + 1) [] q r hq' hr']
    | cons c l =>
      simp only [List.cons_append]
      split
      · simp only [List.take_succ_cons]; rw [imgSpan_take k n (a + 1) l q r hq' hr']
      · simp only [List.take_succ_cons, ← List.cons_append]; rw [imgSpan_take k n (a + 1) (c :: l) q r hq' hr']

/-- The CRC of those pages. -/
def cfgCrc : Nat :=
  let pages := imgSpan 0x202000 0 (cfgImage 0)
  (crc64 (pages.take 4088 ++ List.replicate 8 0 ++ pages.drop 4096)).toNat
def cfgPresent : List (Nat × Nat) := [(450560, 450560)]

theorem cfgImage_rises (x : Nat) : rises 0 (cfgImage x) := by
  simp [cfgImage, cfgLow, cfgHigh, rises, List.range, List.range.loop]

theorem cfgImage_pages (x : Nat) :
    (imgSpan 0x202000 0 (cfgImage x)).take 4088 = (imgSpan 0x202000 0 (cfgImage 0)).take 4088 ∧
    (imgSpan 0x202000 0 (cfgImage x)).drop 4096 = (imgSpan 0x202000 0 (cfgImage 0)).drop 4096 := by
  have hr (y : Nat) : rises (0 + 4088) ((List.range 8).map (fun i => (4088 + i, (le 8 y).getD i 0)) ++ cfgHigh) := by
    simp [cfgHigh, rises, List.range, List.range.loop]
  refine ⟨by rw [cfgImage, cfgImage, List.append_assoc, List.append_assoc]; exact imgSpan_take _ _ _ _ _ _ (hr x) (hr 0), ?_⟩
  have e := fun y => imgSpan_drop (cfgImage y) (cfgImage_rises y) 4096 0x201000 0
  have e' := fun y => imgSpan_drop_low 0x201000 (0 + 4096) (cfgImage y) (cfgImage_rises y)
  have hd (y : Nat) : (cfgImage y).dropWhile (fun c => decide (c.1 < 0 + 4096)) = cfgHigh := by
    simp [cfgImage, cfgLow, cfgHigh, List.range, List.range.loop]
  rw [show (0x202000 : Nat) = 0x201000 + 4096 from rfl, e x, e 0, e' x, e' 0, hd, hd]

theorem cfgImage_crc (x : Nat) (h : x < 2 ^ 64) : imgF (cfgImage x) 4088 8 = x := by
  have e : memReads (cfgImage x) 4088 8 = le 8 x := by
    simp [memReads, List.range, List.range.loop, cfgImage, cfgLow, memRead, le]
  rw [imgF, e]
  simp only [le, ofLe, BitVec.toNat_ofNat]
  omega

theorem cfgCrc_lt : cfgCrc < 2 ^ 64 := BitVec.isLt _

/-- A configuration that the check accepts: its CRC is that of its pages. -/
theorem cfg_ok : configOk (cfgImage cfgCrc) (parseConfig (cfgImage cfgCrc) cfgPresent) = true := by
  unfold configOk
  rw [Bool.and_eq_true]
  refine ⟨by decide +kernel, ?_⟩
  obtain ⟨h1, h2⟩ := cfgImage_pages cfgCrc
  simp only [h1, h2, decide_eq_true_eq]
  exact cfgImage_crc cfgCrc cfgCrc_lt

/-! ### Witnesses of the statements -/

/-- A state of the ready block with one command waiting. -/
def with1 (c : Instr) : State := { blk := ready, pending := [c] }

theorem witness_StepRunsFrontCommand : ∃ (s : State) (c : Instr) (rest : List Instr), s.pending = c :: rest :=
  ⟨with1 .frankPresent, .frankPresent, [], rfl⟩

/-- Off; on with room for one more cycle, at the last count it has room; on without. -/
theorem witness_IdleTick :
    (∃ s : State, s.pending = [] ∧ s.blk.pm.powered = false) ∧
    (∃ s : State, s.pending = [] ∧ s.blk.pm.powered = true ∧ s.blk.now + 10 < 2 ^ 64) ∧
    (∃ s : State, s.pending = [] ∧ s.blk.pm.powered = true ∧ 2 ^ 64 ≤ s.blk.now + 10) :=
  ⟨⟨State.reset, rfl, rfl⟩, ⟨at0 { ready with pm := { ready.pm with count := 0xFFFFFFFFFFFFFFF5 } }, rfl, rfl, by decide⟩,
   ⟨at0 { ready with pm := { ready.pm with count := 0xFFFFFFFFFFFFFFF6 } }, rfl, rfl, by decide⟩⟩

theorem witness_OnlyThePowerOnInputActsInReset : ∃ (c : Instr) (s t : State), c ≠ .blockPowerOnReset ∧
    (∀ a1 a2 a3 a4 a5 a6 a7 a8 a9, c ≠ .blockResetRelease a1 a2 a3 a4 a5 a6 a7 a8 a9) ∧ exec c s = .next t ∧ s.blk.env.porN = false :=
  ⟨.syncMissing, State.reset, _, nofun, by intros; nofun, rfl, rfl⟩

/-- A step that enters reset from the ready block, and one that stays in reset. -/
theorem witness_ResetValuesHeldInvariant :
    (∃ s t : State, s.resetHeld ∧ step s = .next t ∧ s.blk.env.porN = true ∧ t.blk.env.porN = false) ∧
    (∃ s t : State, s.resetHeld ∧ step s = .next t ∧ s.blk.env.porN = false) :=
  ⟨⟨with1 .blockPowerOnReset, _, fun h => absurd h (by decide), rfl, rfl, rfl⟩, ⟨State.reset, _, fun _ => rfl, rfl, rfl⟩⟩

theorem witness_LetterMemoryInvariant : ∃ s t : State, s.lettersCanonical ∧ step s = .next t ∧ t.blk.letters = [(0x4E0FC, 1)] :=
  ⟨with1 (.registerWrite 0x67FC 1), _, rfl, rfl, by decide⟩

/-- A command that is no write of a letter window, writes below and above the windows and at an unmapped offset, a byte below
and a byte above the word written, and the first and the last word of the windows. -/
theorem witness_LetterMemoryFrame :
    (∃ (c : Instr) (s t : State), (∀ o v, c ≠ .registerWrite o v) ∧ c ≠ .blockPowerOnReset ∧
      (∀ a1 a2 a3 a4 a5 a6 a7 a8 a9, c ≠ .blockResetRelease a1 a2 a3 a4 a5 a6 a7 a8 a9) ∧ exec c s = .next t) ∧
    (∃ (s t : State) (o : BitVec 16) (v : BitVec 32), exec (.registerWrite o v) s = .next t ∧ o.toNat < 0x4000) ∧
    (∃ (s t : State) (o : BitVec 16) (v : BitVec 32), exec (.registerWrite o v) s = .next t ∧ 0x6800 ≤ o.toNat) ∧
    (∃ (s t : State) (o : BitVec 16) (v : BitVec 32), exec (.registerWrite o v) s = .next t ∧ mapped o.toNat = false) ∧
    (∃ (s t : State) (o : BitVec 16) (v : BitVec 32) (a : Nat), exec (.registerWrite o v) s = .next t ∧ a < letterAddr o.toNat s.blk) ∧
    (∃ (s t : State) (o : BitVec 16) (v : BitVec 32) (a : Nat), exec (.registerWrite o v) s = .next t ∧ letterAddr o.toNat s.blk + 4 ≤ a) ∧
    (∃ (s : State) (o : BitVec 16), s.released ∧ s.lettersCanonical ∧ s.blk.svc.hoOn = true ∧ s.blk.svc.state ≠ .booting ∧
      mapped o.toNat = true ∧ 0x4000 ≤ o.toNat ∧ o.toNat < 0x6800) :=
  ⟨⟨.syncMissing, at0 ready, _, nofun, nofun, by intros; nofun, rfl⟩, ⟨at0 ready, _, 0x3FFC, 1, rfl, by decide⟩,
   ⟨at0 ready, _, 0x6800, 1, rfl, by decide⟩, ⟨at0 ready, _, 0x4001, 1, rfl, by decide⟩,
   ⟨at0 ready, _, 0x4004, 1, 3, rfl, by decide⟩, ⟨at0 ready, _, 0x4004, 1, 8, rfl, by decide⟩,
   ⟨at0 ready, 0x4000, rfl, rfl, by decide, by decide, by decide +kernel, by decide, by decide⟩⟩

theorem witness_ResiduesStayBelow8191 : ∃ x y : Nat, x ≤ 8190 ∧ y ≤ 8190 ∧ 8191 ≤ x + y := ⟨8190, 1, by decide⟩

theorem witness_ResiduesAreExact :
    (∃ (q n : Nat) (e : Int), q < 8191 ∧ (n : Int) % 13 = e % 13) ∧ (∃ b : Nat, 0 < b) ∧
    (∃ (b v w : Nat) (d : Int), 0 < b ∧ sgn w b = sgn v b + d ∧ (8191 : Int) ∣ d) :=
  ⟨⟨8190, 12, -1, by decide⟩, ⟨1, by decide⟩, ⟨48, 0, 8191, 8191, by decide⟩⟩

theorem witness_RoutesReachTheirDestination : ∃ (len : List Nat) (a c : Nat), len.length ≤ 8 ∧ a < fleetSize len ∧ c < fleetSize len :=
  ⟨[16, 16, 16, 1, 1, 1, 1, 1], 4095, 0, by decide⟩

theorem witness_RecordLayouts :
    (∃ (op seq epoch status part parts detail tag : Nat) (res : List Byte), op < 2 ^ 12 ∧ seq < 2 ^ 32 ∧ epoch < 2 ^ 16 ∧ status < 2 ^ 16 ∧
      part < 2 ^ 8 ∧ parts < 2 ^ 8 ∧ detail < 2 ^ 16 ∧ tag < 2 ^ 128 ∧ res.length ≤ 224) ∧
    (∃ (i st cls : Nat) (role : Option Nat), i < 2 ^ 20 ∧ st < 2 ^ 4 ∧ cls < 2 ^ 8 ∧ (∀ r ∈ role, r < 2 ^ 20)) :=
  ⟨⟨0xFFF, 0xFFFFFFFF, 0xFFFF, 0xFFFF, 0xFF, 0xFF, 0xFFFF, 2 ^ 128 - 1, List.replicate 224 0, by decide +kernel⟩,
   ⟨0xFFFFF, 15, 255, some 0xFFFFF, by decide, by decide, by decide, by decide⟩⟩

theorem witness_SafeHoldsUntilColdReset :
    (∃ s : State, s.released ∧ s.blk.svc.hoOn = true ∧ s.blk.svc.state ≠ .safe) ∧
    (∃ s : State, s.released ∧ s.blk.svc.state = .safe) ∧
    (∃ (c : Instr) (s t : State), s.released ∧ s.blk.svc.state = .safe ∧ c ≠ .blockPowerOnReset ∧ exec c s = .next t ∧
      t.blk.svc.state = .coldReset) :=
  ⟨⟨at0 ready, rfl, by decide⟩, ⟨at0 (ready.modSvc (fun v => { v with state := .safe })), rfl, by decide⟩,
   ⟨.externalResetRequest, at0 (ready.modSvc (fun v => { v with state := .safe })), _, rfl, by decide, nofun, rfl, by decide +kernel⟩⟩

theorem witness_WaitDescriptorHeld : ∃ (s : State) (core : CoreIdx), s.released ∧ (s.blk.core core.toNat).lbOn = true :=
  ⟨at0 ready, 3, rfl, by decide⟩

/-- An open tile with no verdict, and one with a mismatch. -/
theorem witness_FenceClosesOpenTiles : ∀ bad : Bool, ∃ (s : State) (core : CoreIdx) (tag : Nat) (x : Tile), s.released ∧
    (s.blk.core core.toNat).lbOn = true ∧ (s.blk.core core.toNat).ctl.test = none ∧ (s.blk.core core.toNat).ctl.cap = none ∧
    (s.blk.core core.toNat).pins.fenceN = true ∧ s.blk.tile core.toNat tag = some x ∧ x.resBad = bad := fun bad =>
  ⟨at0 (ready.setCore 0 { core0 with scr := { tiles := [(0, { tid := 5, resBad := bad })] } }), 0, 0, { tid := 5, resBad := bad }, rfl, rfl,
   rfl, rfl, rfl, rfl, rfl⟩

theorem witness_StopGatesTheClockAlone :
    (∃ (b : Block) (i : Nat), (b.core i).underTest = false ∧ (b.core i).ctl.cap = none ∧ (b.core i).pins.cgN = true) ∧
    (∃ (b : Block) (i : Nat), (b.core i).underTest = false ∧ (b.core i).ctl.cap.isSome = true) ∧
    (∃ (b : Block) (i : Nat) (u : TestRun), (b.core i).underTest = true ∧ (b.core i).ctl.test = some u) ∧
    (∃ (s t : State) (core : CoreIdx), (s.blk.core core.toNat).ctl.stopGated = true ∧ (s.blk.core core.toNat).pins.cgN = false ∧
      exec (.coreRelease core) s = .next t ∧ (t.blk.core core.toNat).pins.fenceN = true) :=
  ⟨⟨ready.setCore 0 { core0 with pins := { core0.pins with cgN := true } }, 0, by decide, by decide, by decide⟩,
   ⟨ready.setCore 0 { core0 with ctl := { cap := some { want := 2 } } }, 0, by decide, by decide⟩,
   ⟨ready.setCore 0 { core0 with ctl := { test := some { mode := 1, trigger := .sweep, requested := true } } }, 0,
    { mode := 1, trigger := .sweep, requested := true }, by decide, by decide⟩,
   ⟨at0 (withRole.setCore 0 { core0 with pins := { cgN := false }, ctl := { stopGated := true } }), _, 0, by decide, by decide,
   rfl, by decide⟩⟩

theorem witness_PipsSaturate : (∃ (b : Block) (i : Nat), b.present i = true) ∧ (∃ (b : Block) (i : Nat), b.present i = false) :=
  ⟨⟨ready, 3, by decide⟩, ⟨ready, 4, by decide⟩⟩

theorem witness_RingPop :
    (∃ (s : State) (r : BitVec 6) (x : List Byte) (xs : List (List Byte)), s.released ∧ s.blk.svc.hoOn = true ∧ s.blk.svc.state ≠ .booting ∧
      56 ≤ r.toNat ∧ (s.blk.ring r.toNat).recs = x :: xs) ∧
    (∃ (s : State) (r : BitVec 6) (x : List Byte) (xs : List (List Byte)), s.released ∧ s.blk.svc.hoOn = true ∧ s.blk.svc.state ≠ .booting ∧
      r.toNat < 40 ∧ (s.blk.ring r.toNat).recs = x :: xs) ∧
    (∃ (s : State) (r : BitVec 6), s.released ∧ s.blk.svc.hoOn = true ∧ s.blk.svc.state ≠ .booting ∧ (56 ≤ r.toNat ∨ r.toNat < 40) ∧
      (s.blk.ring r.toNat).recs = []) :=
  ⟨⟨at0 (ready.modRing 56 (fun x => { x with recs := [[1]] })), 56, [1], [], rfl, by decide⟩,
   ⟨at0 (ready.modRing 39 (fun x => { x with recs := [[1]] })), 39, [1], [], rfl, by decide⟩, ⟨at0 ready, 39, rfl, by decide⟩⟩

theorem witness_ErrorSummary :
    (∃ k : Nat, k < 32) ∧
    (∃ (b : Block) (code : Nat), ringRoom (b.ring (evRing code)) (evRing code) = false ∧ b.ho.mgmt.err = 0) ∧
    (∃ s : State, s.released ∧ s.blk.svc.hoOn = true ∧ s.blk.svc.state ≠ .booting) :=
  ⟨⟨31, by decide⟩, ⟨ready.modRing 58 (fun x => { x with rcpTail := 255 }), evRingOverrun, by decide +kernel⟩, ⟨at0 ready, rfl, by decide⟩⟩

theorem witness_OtherCoresUntouched : ∃ (s t : State) (core : CoreIdx) (c : Instr) (j : Nat),
    c = .corePorAssert core ∧ exec c s = .next t ∧ j ≠ core.toNat ∧ (t.blk.core core.toNat).porN = false ∧ (s.blk.core core.toNat).porN = true :=
  ⟨at0 ready, _, 0, .corePorAssert 0, 3, rfl, rfl, by decide, by decide, by decide⟩

/-- The one hypothesis of the frames: each command answers a next state in the ready block. -/
theorem witness_frames (c : Instr) : ∃ t, exec c (at0 ready) = .next t := by
  cases c <;> exact ⟨_, rfl⟩

/-- The hypotheses of PowerOnResetAndRelease are met together. -/
theorem witness_PowerOnResetAndRelease : ∃ (s : State), s.blk.env.porN = false :=
  ⟨State.reset, by decide⟩

/-- The hypotheses of each clause of FirstBringUpSteps are met together. -/
theorem witness_FirstBringUpSteps :
    (∃ (s : State) (legs : List LegSample), s.released ∧ s.blk.svc.pmOk = false ∧ s.blk.booting = true ∧ s.blk.pm.powered = true ∧
      (∀ l ∈ legs, ¬ (legHo l = true ∧ legBad l = true))) ∧
    (∃ (s : State) (l : LegSample), s.released ∧ s.blk.svc.pmOk = false ∧ s.blk.booting = true ∧ s.blk.pm.powered = true ∧ legBad l = false ∧
      legTie l = false) ∧
    (∃ (s : State), s.released ∧ s.blk.svc.pmOk = false ∧ s.blk.booting = true ∧ s.blk.pm.powered = true) ∧
    (∃ (s : State) (sel : _) (s0 : _) (s1 : _) (k : _) (l : List Byte), s.released ∧ s.blk.svc.hoOn = true ∧ s.blk.svc.hoPassed = false ∧
      s.blk.booting = true ∧ s.blk.svc.lc ≠ .decommissioned ∧ s.blk.env.arPresent = true ∧
      pickImage (BitVec.toNat (w := 1) sel) s0 s1 = some (k, l)) ∧
    (∃ (s : State), s.released ∧ s.blk.svc.hoOn = true ∧ s.blk.svc.hoPassed = false ∧ s.blk.booting = true) ∧
    (∃ (s : State) (image : _) (present : _), s.released ∧ s.blk.hoRuns = true ∧ s.blk.cfg = none ∧ s.blk.svc.state = .bringup ∧
      configOk image (parseConfig image present) = true) :=
  ⟨⟨at0 { env := { porN := true }, pm := { powered := true } }, [⟨0, [8, 9]⟩], rfl, by decide, by decide, by decide, by decide⟩,
   ⟨at0 { env := { porN := true }, pm := { powered := true } }, ⟨3, [4094, 4090]⟩, rfl, by decide, by decide, by decide, by decide, by decide⟩,
   ⟨at0 { env := { porN := true }, pm := { powered := true } }, rfl, by decide, by decide, by decide⟩,
   ⟨at0 { env := { porN := true, arPresent := true }, svc := { hoOn := true } }, 1, some [1], none, 0, [1], rfl, by decide, by decide, by decide, by decide, by decide, by decide⟩,
   ⟨at0 { env := { porN := true, arPresent := true }, svc := { hoOn := true } }, rfl, by decide, by decide, by decide⟩,
   ⟨at0 { rise with cfg := none }, cfgImage cfgCrc, cfgPresent, rfl, by decide, by decide, by decide, cfg_ok⟩⟩

/-- The hypotheses of each clause of OfficeAndRouterBringUp are met together. -/
theorem witness_OfficeAndRouterBringUp :
    (∃ (s : State), s.released ∧ s.blk.hoRuns = true ∧ s.blk.cfg.isSome = true ∧ s.blk.svc.ledgerOk = false ∧ s.blk.svc.state = .bringup) ∧
    (∃ (s : State) (region : RegionIdx), s.released ∧ s.blk.rising = true ∧ (s.blk.office region.toNat).powered = true ∧
      (s.blk.office region.toNat).memA.passed = false ∧ (s.blk.office region.toNat).memA.failed = false) ∧
    (∃ (s : State) (region : RegionIdx), s.released ∧ s.blk.rising = true ∧ (s.blk.office region.toNat).powered = true ∧
      (s.blk.office region.toNat).memB.passed = false ∧ (s.blk.office region.toNat).memB.failed = false) ∧
    (∃ (s : State) (region : RegionIdx) (k : BitVec 7), s.released ∧ s.blk.rising = true ∧ s.blk.officeOn region.toNat = true ∧
      maskBit (s.blk.office region.toNat).looped k.toNat = false) ∧
    (∃ (s : State) (region : RegionIdx) (k : BitVec 7), s.released ∧ s.blk.rising = true ∧ s.blk.officeOn region.toNat = true ∧
      maskBit (s.blk.office region.toNat).looped k.toNat = false) ∧
    (∃ (s : State) (n : BitVec 4), s.released ∧ s.blk.rising = true ∧ (s.blk.courier n.toNat).powered = false ∧ (s.blk.courier n.toNat).domFail = false ∧
      (s.blk.courier n.toNat).linkUp = false ∧ (s.blk.attach (unitCourier n.toNat)).isSome = true) ∧
    (∃ (s : State) (n : BitVec 4), s.released ∧ s.blk.rising = true ∧ (s.blk.courier n.toNat).powered = false) ∧
    (∃ (s : State) (region : RegionIdx), s.released ∧ s.blk.rising = true ∧ s.blk.officeOn region.toNat = true ∧
      (s.blk.office region.toNat).ledgerIn = false) :=
  ⟨⟨at0 (rise.modSvc (fun v => { v with ledgerOk := false })), rfl, by decide, by decide, by decide, by decide⟩,
   ⟨at0 (rise.setOffice 0 { powered := true }), 0, rfl, by decide, by decide, by decide, by decide⟩,
   ⟨at0 (rise.setOffice 0 { powered := true }), 0, rfl, by decide, by decide, by decide, by decide⟩,
   ⟨at0 (rise.setOffice 0 { powered := true, ledgerIn := true, memA := { passed := true, eligible := true } }), 0, 127, rfl, by decide, by decide, by decide⟩,
   ⟨at0 (rise.setOffice 0 { powered := true, ledgerIn := true, memA := { passed := true, eligible := true } }), 0, 127, rfl, by decide, by decide, by decide⟩,
   ⟨at0 (rise.setCourier 0 {}), 0, rfl, by decide, by decide, by decide, by decide, by decide⟩,
   ⟨at0 (rise.setCourier 0 {}), 0, rfl, by decide, by decide⟩,
   ⟨at0 (rise.setOffice 0 { office0 with ledgerIn := false }), 0, rfl, by decide, by decide, by decide⟩⟩

/-- The hypotheses of each clause of WavesAndPublication are met together. -/
theorem witness_WavesAndPublication :
    (∃ (s : State) (w : _), s.released ∧ s.blk.outs.waveReq = false ∧ s.blk.svc.shutting = false ∧ s.blk.svc.state = .bringup ∧
      s.blk.rising = true ∧ s.blk.svc.reset = 0 ∧ nextWave s.blk s.blk.wavesLeft = some (w, [])) ∧
    (∃ (s : State), s.released ∧ s.blk.outs.waveReq = true ∧ s.blk.outs.waveOp = true ∧ s.blk.svc.coldWait = 0 ∧ s.blk.svc.reset ≠ 2) ∧
    (∃ (s : State), s.released ∧ s.blk.outs.waveReq = true ∧ s.blk.outs.waveOp = true ∧ s.blk.svc.coldWait = 0 ∧ s.blk.svc.reset ≠ 2) ∧
    (∃ (s : State), s.released ∧ s.blk.outs.waveReq = true ∧ s.blk.outs.waveOp = true ∧ s.blk.svc.coldWait = 0 ∧ s.blk.svc.reset ≠ 2) ∧
    (∃ (s : State), s.released ∧ s.blk.mayPublish = true) :=
  ⟨⟨at0 rise, 0, rfl, by decide, by decide, by decide, by decide, by decide, by decide +kernel⟩,
   ⟨at0 { rise with outs := { rise.outs with waveReq := true, waveOp := true } }, rfl, by decide, by decide, by decide, by decide⟩,
   ⟨at0 { rise with outs := { rise.outs with waveReq := true, waveOp := true } }, rfl, by decide, by decide, by decide, by decide⟩,
   ⟨at0 { rise with outs := { rise.outs with waveReq := true, waveOp := true } }, rfl, by decide, by decide, by decide, by decide⟩,
   ⟨at0 { rise with svc := { rise.svc with wavesDone := 1 } }, rfl, by decide +kernel⟩⟩

/-- The hypotheses of each clause of CoreTimingCommands are met together. -/
theorem witness_CoreTimingCommands :
    (∃ (s : State) (core : CoreIdx), s.released ∧ (s.blk.core core.toNat).porN = true) ∧
    (∃ (s : State) (core : CoreIdx), s.released ∧ s.blk.present core.toNat = true ∧ (s.blk.core core.toNat).porN = false) ∧
    (∃ (s : State) (core : CoreIdx) (n : BitVec 16), s.released ∧ (s.blk.core core.toNat).lbOn = true ∧ (s.blk.core core.toNat).time.failed = false ∧
      (s.blk.core core.toNat).time.aligned = false ∧ (s.blk.core core.toNat).time.clkChg = false ∧ (s.blk.core core.toNat).ctl.puStage = 0 ∧
      s.blk.unitsLeft core.toNat .restore = false ∧ n.toNat = epochCycles (s.blk.rcfg (regionOf core.toNat)).p (s.blk.rcfg (regionOf core.toNat)).q) ∧
    (∃ (s : State) (core : CoreIdx), s.released ∧ (s.blk.core core.toNat).lbOn = true) ∧
    (∃ (s : State) (core : CoreIdx), s.released ∧ (s.blk.core core.toNat).lbOn = true ∧ (s.blk.core core.toNat).time.clkChg = true) ∧
    (∃ (s : State) (core : CoreIdx), s.released ∧ (s.blk.core core.toNat).lbOn = true ∧ s.blk.ho.job.inSlot = true ∧
      (s.blk.core core.toNat).ctl.stopGated = false ∧ (s.blk.core core.toNat).ctl.test = none ∧ (s.blk.core core.toNat).time.timetable = []) ∧
    (∃ (s : State) (core : CoreIdx) (e : _), s.released ∧ (s.blk.core core.toNat).time.timetable[(s.blk.core core.toNat).time.expect]? = some e ∧
      (s.blk.core core.toNat).lbOn = true ∧ s.blk.ho.job.inSlot = true ∧ (s.blk.core core.toNat).ctl.stopGated = false ∧
      (s.blk.core core.toNat).time.stalled = false ∧ s.blk.roleOf core.toNat = none) ∧
    (∃ (s : State) (core : CoreIdx), s.released ∧ (s.blk.core core.toNat).lbOn = true ∧ (s.blk.core core.toNat).time.stalled = false) ∧
    (∃ (s : State) (core : CoreIdx), s.released ∧ (s.blk.core core.toNat).lbOn = true ∧ (s.blk.core core.toNat).time.stalled = false) ∧
    (∃ (s : State) (core : CoreIdx) (slot : BitVec 8) (d : _), s.released ∧ (s.blk.core core.toNat).lbOn = true ∧
      tget (s.blk.core core.toNat).scr.desc slot.toNat = some d ∧ fld d.toNat 52 3 ≠ 0) ∧
    (∃ (s : State) (core : CoreIdx) (slot : BitVec 8) (clash : _), s.released ∧ (s.blk.core core.toNat).lbOn = true ∧
      (clash = true ∨ tget (s.blk.core core.toNat).scr.desc slot.toNat = none)) :=
  ⟨⟨at0 ready, 3, rfl, by decide⟩,
   ⟨at0 (ready.setCore 3 {}), 3, rfl, by decide, by decide⟩,
   ⟨at0 (ready.setCore 0 { porN := true }), 0, 2200, rfl, by decide, by decide, by decide, by decide, by decide, by decide, by decide⟩,
   ⟨at0 ready, 0, rfl, by decide⟩,
   ⟨at0 (ready.setCore 0 { core0 with time := { clkChg := true } }), 0, rfl, by decide, by decide⟩,
   ⟨at0 inSlot, 0, rfl, by decide, by decide, by decide, by decide, by decide⟩,
   ⟨at0 (inSlot.setCore 0 { core0 with time := { timetable := [{ expCyc := 100 }] } }), 0, { expCyc := 100 }, rfl, by decide, by decide, by decide, by decide, by decide, by decide⟩,
   ⟨at0 ready, 0, rfl, by decide, by decide⟩,
   ⟨at0 ready, 0, rfl, by decide, by decide⟩,
   ⟨at0 (ready.setCore 0 { core0 with scr := { desc := [(0, 0x10000000000000)] } }), 0, 0, 0x10000000000000, rfl, by decide, by decide, by decide⟩,
   ⟨at0 ready, 0, 255, false, rfl, by decide, by decide⟩⟩

/-- The hypotheses of each clause of CoreControlCommands are met together. -/
theorem witness_CoreControlCommands :
    (∃ (s : State) (core : CoreIdx), s.released ∧ (s.blk.core core.toNat).lbOn = true ∧ (s.blk.core core.toNat).ctl.test = none ∧
      (s.blk.core core.toNat).ctl.cap = none ∧ (s.blk.core core.toNat).pins.fenceN = true) ∧
    (∃ (s : State) (core : CoreIdx), s.released ∧ (s.blk.core core.toNat).lbOn = true ∧ (s.blk.core core.toNat).ctl.fencing = true) ∧
    (∃ (s : State) (core : CoreIdx), s.released ∧ (s.blk.core core.toNat).lbOn = true ∧ (s.blk.core core.toNat).ctl.fencing = true ∧
      (s.blk.core core.toNat).ctl.fenceAck = false ∧ ((s.blk.core core.toNat).ctl.stopGated = false ∨ (s.blk.core core.toNat).pins.cgN = true)) ∧
    (∃ (s : State) (core : CoreIdx), s.released ∧ s.blk.mayRelease = true ∧ s.blk.releasableCore core.toNat = true) ∧
    (∃ (s : State) (core : CoreIdx) (u : _), s.released ∧ (s.blk.core core.toNat).ctl.test = some u ∧ u.requested = false ∧ u.mode ≠ 0 ∧
      (s.blk.core core.toNat).lbOn = true ∧ (s.blk.core core.toNat).ctl.cap = none ∧ s.blk.officeOn (regionOf core.toNat) = true ∧
      (s.blk.core core.toNat).ctl.fenceTo = false ∧ (s.blk.core core.toNat).ctl.fenceAck = true ∧ (s.blk.core core.toNat).pins.isoN = false ∧
      (s.blk.core core.toNat).ctl.fencing = false ∧ (s.blk.core core.toNat).ctl.stopGated = false) ∧
    (∃ (s : State) (core : CoreIdx) (m : BitVec 2), s.released ∧ (s.blk.core core.toNat).ctl.test = none ∧ m ≠ 0 ∧ s.blk.tapOn = true ∧
      s.blk.dbg.netOpen = true ∧ (s.blk.core core.toNat).lbOn = true ∧ (s.blk.core core.toNat).ctl.cap = none ∧
      (s.blk.core core.toNat).ctl.fenceTo = false ∧ (s.blk.core core.toNat).ctl.fenceAck = true ∧ (s.blk.core core.toNat).pins.isoN = false ∧
      (s.blk.core core.toNat).ctl.fencing = false ∧ (s.blk.core core.toNat).ctl.stopGated = false) ∧
    (∃ (s : State) (core : CoreIdx) (u : _), s.released ∧ (s.blk.core core.toNat).ctl.test = some u ∧ u.requested = true) ∧
    (∃ (s : State) (core : CoreIdx) (u : _), s.released ∧ (s.blk.core core.toNat).ctl.test = some u ∧ u.acked = true ∧ u.lost = false ∧ u.aborted = false) ∧
    (∃ (s : State) (core : CoreIdx) (u : _), s.released ∧ (s.blk.core core.toNat).ctl.test = some u ∧ u.requested = true) ∧
    (∃ (s : State) (core : CoreIdx) (load : _), s.released ∧ (s.blk.core core.toNat).lbOn = true ∧ (s.blk.core core.toNat).ctl.cap = none ∧
      (s.blk.core core.toNat).ctl.test = none ∧ (s.blk.core core.toNat).ctl.fencing = false ∧ (s.blk.core core.toNat).ctl.stopGated = true ∧
      s.blk.capLen core.toNat load ≠ 0) ∧
    (∃ (b : Block), b.capturing = false) ∧
    (∃ (s : State) (core : CoreIdx) (k : _), s.released ∧ (s.blk.core core.toNat).ctl.cap = some k ∧ k.ended = false) ∧
    (∃ (s : State) (core : CoreIdx) (k : _), s.released ∧ (s.blk.core core.toNat).ctl.cap = some k ∧ k.acked = true ∧ k.ended = false ∧ k.load = false ∧
      k.moved + 1 < k.want) ∧
    (∃ (s : State) (core : CoreIdx) (k : _), s.released ∧ (s.blk.core core.toNat).ctl.cap = some k ∧ k.acked = true ∧ k.ended = false ∧ k.load = false ∧
      k.moved + 1 = k.want) ∧
    (∃ (s : State) (core : CoreIdx) (k : _), s.released ∧ (s.blk.core core.toNat).ctl.cap = some k ∧ k.acked = true ∧ k.ended = false ∧ k.load = false ∧
      k.moved + 1 < k.want) ∧
    (∃ (s : State) (core : CoreIdx) (k : _), s.released ∧ (s.blk.core core.toNat).ctl.cap = some k ∧ k.ended = false) ∧
    (∃ (s : State) (core : CoreIdx) (k : _), s.released ∧ (s.blk.core core.toNat).ctl.cap = some k ∧ k.ended = true ∧ s.blk.roleOf core.toNat = none ∧
      (s.blk.core core.toNat).ctl.toHold = false ∧ (∀ f ∈ s.blk.ho.job.fills, f.src ≠ core.toNat ∧ f.dst ≠ core.toNat)) :=
  ⟨⟨at0 ready, 0, rfl, by decide, by decide, by decide, by decide⟩,
   ⟨at0 (ready.setCore 0 { core0 with ctl := { fencing := true } }), 0, rfl, by decide, by decide⟩,
   ⟨at0 (ready.setCore 0 { core0 with ctl := { fencing := true } }), 0, rfl, by decide, by decide, by decide, by decide⟩,
   ⟨at0 (withRole.setCore 0 { core0 with pins := {} }), 0, rfl, by decide, by decide⟩,
   ⟨at0 (ready.setCore 0 { core0 with pins := { core0.pins with fenceN := false, isoN := false }, ctl := { fenceAck := true, test := some { mode := 1, trigger := .sweep } } }), 0, { mode := 1, trigger := .sweep }, rfl, by decide, by decide, by decide, by decide, by decide, by decide, by decide, by decide, by decide, by decide, by decide⟩,
   ⟨at0 ((ready.modDebug (fun d => { d with netOpen := true })).setCore 0 { core0 with pins := { core0.pins with fenceN := false, isoN := false }, ctl := { fenceAck := true } }), 0, 1, rfl, by decide, by decide, by decide, by decide, by decide, by decide, by decide, by decide, by decide, by decide, by decide⟩,
   ⟨at0 (ready.setCore 0 { core0 with ctl := { test := some { mode := 1, trigger := .sweep, requested := true } } }), 0, { mode := 1, trigger := .sweep, requested := true }, rfl, by decide, by decide⟩,
   ⟨at0 (ready.setCore 0 { core0 with ctl := { test := some { mode := 1, trigger := .sweep, requested := true, acked := true } } }), 0, { mode := 1, trigger := .sweep, requested := true, acked := true }, rfl, by decide, by decide, by decide, by decide⟩,
   ⟨at0 (ready.setCore 0 { core0 with ctl := { test := some { mode := 1, trigger := .sweep, requested := true } } }), 0, { mode := 1, trigger := .sweep, requested := true }, rfl, by decide, by decide⟩,
   ⟨at0 (ready.setCore 0 { core0 with ctl := { stopGated := true } }), 0, false, rfl, by decide, by decide, by decide, by decide, by decide, by decide⟩,
   ⟨ready, by decide⟩,
   ⟨at0 (ready.setCore 0 { core0 with ctl := { cap := some { want := 2 } } }), 0, { want := 2 }, rfl, by decide, by decide⟩,
   ⟨at0 (ready.setCore 0 { core0 with ctl := { cap := some { want := 2, acked := true } } }), 0, { want := 2, acked := true }, rfl, by decide, by decide, by decide, by decide, by decide⟩,
   ⟨at0 (ready.setCore 0 { core0 with ctl := { cap := some { want := 2, acked := true, moved := 1 } } }), 0, { want := 2, acked := true, moved := 1 }, rfl, by decide, by decide, by decide, by decide, by decide⟩,
   ⟨at0 (ready.setCore 0 { core0 with ctl := { cap := some { want := 2, acked := true } } }), 0, { want := 2, acked := true }, rfl, by decide, by decide, by decide, by decide, by decide⟩,
   ⟨at0 (ready.setCore 0 { core0 with ctl := { cap := some { want := 2 } } }), 0, { want := 2 }, rfl, by decide, by decide⟩,
   ⟨at0 (ready.setCore 0 { core0 with ctl := { cap := some { want := 2, ended := true } } }), 0, { want := 2, ended := true }, rfl, by decide, by decide, by decide, by decide, by decide⟩⟩

/-- The hypotheses of each clause of TileCommands are met together. -/
theorem witness_TileCommands :
    (∃ (s : State) (core : CoreIdx) (w : WeightBeat), s.released ∧ (s.blk.core core.toNat).tapsRead = true ∧ w.first = true ∧
      s.blk.tile core.toNat w.tag.toNat = none ∧ (s.blk.core core.toNat).scr.tagBusy.contains w.tag.toNat = false) ∧
    (∃ (s : State) (core : CoreIdx) (w : WeightBeat) (x : _), s.released ∧ (s.blk.core core.toNat).tapsRead = true ∧ w.first = false ∧
      s.blk.tile core.toNat w.tag.toNat = some x ∧ x.wLast = false ∧ x.closed = false) ∧
    (∃ (s : State) (core : CoreIdx) (a : ActBeat) (x : _), s.released ∧ (s.blk.core core.toNat).tapsRead = true ∧
      s.blk.tile core.toNat a.tag.toNat = some x ∧ x.closed = false ∧ x.wLast = true ∧ a.rowLast = false) ∧
    (∃ (s : State) (core : CoreIdx) (a : AccBeat), s.released ∧ (s.blk.core core.toNat).tapsRead = true ∧ (s.blk.core core.toNat).porN = true ∧
      s.blk.tile core.toNat a.tag.toNat = none ∧ accSplit a = false ∧ a.rowLast = true) ∧
    (∃ (s : State) (core : CoreIdx) (tag : _) (y : _) (last : _) (rest : _) (k : _) (x : _), s.released ∧
      (s.blk.core core.toNat).scr.tlyq = (tag, y, last) :: rest ∧ (s.blk.core core.toNat).scr.rowq.findIdx? (fun r => decide (r.1 = tag)) = some k ∧
      s.blk.tile core.toNat tag = some x ∧ x.closed = false ∧ x.special = false ∧ x.misuse = false ∧ s.blk.planting core.toNat x = none) ∧
    (∃ (s : State) (core : CoreIdx) (o : OutBeat) (x : _), s.released ∧ (s.blk.core core.toNat).tapsRead = true ∧
      s.blk.tile core.toNat (s.blk.outSlot core.toNat o.tag.toNat) = some x ∧ x.outEnd = false ∧ x.closed = false) ∧
    (∃ (s : State) (core : CoreIdx), s.released ∧ (s.blk.core core.toNat).tapsRead = true) ∧
    (∃ (s : State) (core : CoreIdx), s.released ∧ (s.blk.core core.toNat).lbOn = true) ∧
    (∃ (s : State) (core : CoreIdx), s.released ∧ (s.blk.core core.toNat).lbOn = true) ∧
    (∃ (s : State) (core : CoreIdx) (tag : BitVec 2) (x : _), s.released ∧ (s.blk.core core.toNat).lbOn = true ∧
      s.blk.tile core.toNat (tag.toNat + 4) = none ∧ s.blk.tile core.toNat tag.toNat = some x ∧ s.blk.tileReady core.toNat tag.toNat x = true ∧
      x.test = true) ∧
    (∃ (s : State) (core : CoreIdx) (tag : BitVec 2) (x : _), s.released ∧ (s.blk.core core.toNat).lbOn = true ∧
      s.blk.tile core.toNat (tag.toNat + 4) = none ∧ s.blk.tile core.toNat tag.toNat = some x ∧ s.blk.tileReady core.toNat tag.toNat x = true ∧
      x.test = false ∧ x.kind = 0) ∧
    (∃ (s : State) (core : CoreIdx), s.released ∧ (s.blk.core core.toNat).lbOn = true ∧ (s.blk.core core.toNat).ctl.test = none ∧
      (s.blk.core core.toNat).scr.summarySent = false ∧ (s.blk.core core.toNat).time.finalSeen = true ∧ s.blk.ho.job.inSlot = true ∧
      (s.blk.roleOf core.toNat).isSome = true) :=
  ⟨⟨at0 ready, 0, { first := true, last := true, tag := 0, fmt := 0, k := 0, n := 0, kseg := 0, data := 0, scale := 0, stamp := 0, tid := 5 }, rfl, by decide, by decide, by decide, by decide⟩,
   ⟨at0 (ready.setCore 0 { core0 with scr := { tiles := [(0, { tid := 5, n := 2 })] } }), 0, { first := false, last := true, tag := 0, fmt := 0, k := 0, n := 0, kseg := 0, data := 0, scale := 0, stamp := 0, tid := 5 }, { tid := 5, n := 2 }, rfl, by decide, by decide, by decide, by decide, by decide⟩,
   ⟨at0 (ready.setCore 0 { core0 with scr := { tiles := [(0, { tid := 5, wLast := true })] } }), 0, { tag := 0, fmt := 0, kseg := 0, rowLast := false, tileLast := false, data := 0, scale := 0 }, { tid := 5, wLast := true }, rfl, by decide, by decide, by decide, by decide, by decide⟩,
   ⟨at0 ready, 0, { vld := 1, data := 0, wide := false, lsbExp := 0, tag := 0, rowLast := true, tileLast := true }, rfl, by decide, by decide, by decide, by decide, by decide⟩,
   ⟨at0 (ready.setCore 0 { core0 with scr := { tiles := [(0, { tid := 5 })], tlyq := [(0, 7, true)], rowq := [(0, 7)] } }), 0, 0, 7, true, [], 0, { tid := 5 }, rfl, by decide, by decide, by decide, by decide, by decide, by decide, by decide⟩,
   ⟨at0 (ready.setCore 0 { core0 with scr := { tiles := [(0, { tid := 5 })] } }), 0, { tag := 0, fmt := 0, rowLast := true, tileLast := true, data := 0 }, { tid := 5 }, rfl, by decide, by decide, by decide, by decide⟩,
   ⟨at0 ready, 0, rfl, by decide⟩,
   ⟨at0 ready, 0, rfl, by decide⟩,
   ⟨at0 ready, 0, rfl, by decide⟩,
   ⟨at0 (ready.setCore 0 { core0 with scr := { tiles := [(0, { tid := 5, closed := true, test := true })] } }), 0, 0, { tid := 5, closed := true, test := true }, rfl, by decide, by decide, by decide, by decide, by decide⟩,
   ⟨at0 (ready.setCore 0 { core0 with scr := { tiles := [(0, { tid := 5, closed := true })] } }), 0, 0, { tid := 5, closed := true }, rfl, by decide, by decide, by decide, by decide, by decide, by decide⟩,
   ⟨at0 ((inSlot.setCore 0 { core0 with time := { finalSeen := true } }).modBm (fun m => { m with roles := [(0, 7)] })), 0, rfl, by decide, by decide, by decide, by decide, by decide, by decide⟩⟩

/-- The hypotheses of each clause of TapCommands are met together. -/
theorem witness_TapCommands :
    (∃ (s : State) (n : BitVec 4) (x : IntakeBeat), s.released ∧ (s.blk.courier n.toNat).tapsOn = true ∧ x.first = true ∧ x.last = false ∧
      (s.blk.courier n.toNat).itTile = none) ∧
    (∃ (s : State) (n : BitVec 4) (x : IntakeBeat) (u : _), s.released ∧ (s.blk.courier n.toNat).tapsOn = true ∧ x.first = false ∧ x.last = true ∧
      (s.blk.courier n.toNat).itTile = some u ∧ u.beats + 1 = tileBeats u.k u.n ∧ u.wide = false ∧ tcnt u.cols x.kseg.toNat < u.n ∧
      x.kseg.toNat < ceilDiv u.k 32) ∧
    (∃ (s : State) (n : BitVec 4) (x : EgressBeat), s.released ∧ (s.blk.courier n.toNat).tapsOn = true ∧ x.first = true ∧
      (s.blk.courier n.toNat).groups.find? (fun g => g.grp = x.grp.toNat) = none ∧ (s.blk.courier n.toNat).groups.length < 64) ∧
    (∃ (s : State) (n : BitVec 4) (x : EgressBeat), s.released ∧ (s.blk.courier n.toNat).tapsOn = true ∧ x.first = true ∧
      (s.blk.courier n.toNat).groups.find? (fun g => g.grp = x.grp.toNat) = none ∧ (s.blk.courier n.toNat).groups.length < 64) ∧
    (∃ (s : State) (n : BitVec 4), s.released ∧ (s.blk.courier n.toNat).tapsOn = true) ∧
    (∃ (s : State) (x : _) (r : _), s.released ∧ s.blk.ho.job.due = x :: r ∧ s.blk.svc.state ≠ .safe ∧ s.blk.hoRuns = true) ∧
    (∃ (s : State) (n : BitVec 4), s.released ∧ (s.blk.courier n.toNat).frVld = true ∧ s.blk.franksHeld = false ∧ s.blk.svc.state ≠ .safe) ∧
    (∃ (s : State) (n : BitVec 4) (x : _) (l : _), s.released ∧ (s.blk.courier n.toNat).frVld = true ∧ s.blk.svc.state = .safe ∧
      (s.blk.courier n.toNat).notices.drop 1 = x :: l ∧ x.frank = true) :=
  ⟨⟨at0 ready, 0, { first := true, last := false, fmt := 0, k := 1, n := 1, kseg := 0, tid := 9, data := 0, scale := 0 }, rfl, by decide, by decide, by decide, by decide⟩,
   ⟨at0 (ready.setCourier 0 { courier0 with itTile := some { tid := 9 } }), 0, { first := false, last := true, fmt := 0, k := 1, n := 1, kseg := 0, tid := 9, data := 0, scale := 0 }, { tid := 9 }, rfl, by decide, by decide, by decide, by decide, by decide, by decide, by decide, by decide⟩,
   ⟨at0 ready, 0, { first := true, last := false, grp := 0, lv := 0xFF, lsbExp := 0, data := 0, step := 1 }, rfl, by decide, by decide, by decide, by decide⟩,
   ⟨at0 ready, 0, { first := true, last := false, grp := 0, lv := 0xFF, lsbExp := 0, data := 0, step := 1 }, rfl, by decide, by decide, by decide, by decide⟩,
   ⟨at0 ready, 0, rfl, by decide⟩,
   ⟨at0 (ready.modJob (fun j => { j with due := [{ frank := true }] })), { frank := true }, [], rfl, by decide, by decide, by decide⟩,
   ⟨at0 (ready.setCourier 0 { courier0 with frVld := true }), 0, rfl, by decide, by decide, by decide⟩,
   ⟨at0 ((ready.modSvc (fun v => { v with state := .safe })).setCourier 0 { courier0 with frVld := true, notices := [{ frank := false }, { frank := true }] }), 0, { frank := true }, [], rfl, by decide, by decide, by decide, by decide⟩⟩

/-- The hypotheses of each clause of CourierPortCommands are met together. -/
theorem witness_CourierPortCommands :
    (∃ (s : State) (n : BitVec 4), s.released ∧ (s.blk.courier n.toNat).en = false) ∧
    (∃ (s : State) (n : BitVec 4), s.released ∧ (s.blk.courier n.toNat).powered = true ∧ (s.blk.courier n.toNat).domFail = false ∧
      (s.blk.courier n.toNat).en = true) ∧
    (∃ (s : State) (n : BitVec 4), s.released ∧ (s.blk.courier n.toNat).en = true) ∧
    (∃ (s : State) (n : BitVec 4) (id : BitVec 10) (x : _), s.released ∧ s.blk.portUp n.toNat = true ∧
      (s.blk.courier n.toNat).xfers.find? (fun x => decide (x.id = id.toNat) && x.write) = some x) ∧
    (∃ (s : State) (n : BitVec 4) (id : BitVec 10) (data : _) (par : BitVec 64) (x : _), s.released ∧ s.blk.portUp n.toNat = true ∧
      (s.blk.courier n.toNat).xfers.find? (fun x => decide (x.id = id.toNat) && !x.write) = some x ∧
      laneParityBad 64 (BitVec.toNat (w := 2048) data) par.toNat = false) ∧
    (∃ (s : State) (n : BitVec 4) (vc : BitVec 4) (f : CourierFlit) (r : _), s.released ∧ s.blk.portUp n.toNat = true ∧ vc.toNat < 10 ∧
      0 < lnat (s.blk.courier n.toNat).credits vc.toNat ∧ (tget (s.blk.courier n.toNat).txq vc.toNat).getD [] = f :: r) ∧
    (∃ (s : State) (n : BitVec 4) (vc : BitVec 4), s.released ∧ s.blk.portUp n.toNat = true ∧ vc.toNat < 10) ∧
    (∃ (s : State) (n : BitVec 4) (vc : BitVec 4) (f : CourierFlit), s.released ∧ s.blk.portUp n.toNat = true ∧ vc.toNat < 10 ∧
      0 < lnat (s.blk.courier n.toNat).hostCr vc.toNat ∧
      laneParityBad 16 (BitVec.toNat (w := 512) f.data) (BitVec.toNat (w := 16) f.par) = false) ∧
    (∃ (s : State) (n : BitVec 4) (vc : BitVec 4) (fs : List CourierFlit) (hdr : _) (pl : _) (fcrc : _) (b : _), s.released ∧ s.blk.portUp n.toNat = true ∧
      vc.toNat < 10 ∧ firstPacket ((tget (s.blk.courier n.toNat).rxq vc.toNat).getD []) = some fs ∧ unpackFleet fs = .good hdr pl fcrc ∧
      fleetOnward n.toNat vc.toNat hdr pl fcrc s.blk = some b) ∧
    (∃ (s : State) (n : BitVec 4), s.released ∧ (s.blk.courier n.toNat).tapsOn = true ∧ s.blk.hoRuns = true) ∧
    (∃ (s : State) (n : BitVec 4), s.released ∧ (s.blk.courier n.toNat).tapsOn = true ∧ s.blk.hoRuns = false) ∧
    (∃ (s : State) (n : BitVec 4) (vc : BitVec 4) (src : BitVec 5), s.released ∧ vc.toNat < 10 ∧ src.toNat < 16 ∧
      (s.blk.slotAt n.toNat vc.toNat src.toNat).sent ≠ (s.blk.slotAt n.toNat vc.toNat src.toNat).arrived) :=
  ⟨⟨at0 (ready.setCourier 0 {}), 0, rfl, by decide⟩,
   ⟨at0 ready, 0, rfl, by decide, by decide, by decide⟩,
   ⟨at0 ready, 0, rfl, by decide⟩,
   ⟨at0 (ready.setCourier 0 { courier0 with xfers := [{ id := 4, write := true }] }), 0, 4, { id := 4, write := true }, rfl, by decide, by decide⟩,
   ⟨at0 (ready.setCourier 0 { courier0 with xfers := [{ id := 4 }] }), 0, 4, 0, oddPar, { id := 4 }, rfl, by decide, by decide, by decide +kernel⟩,
   ⟨at0 (ready.setCourier 0 { courier0 with txq := [(9, [{ sop := true, eop := true, data := 0, par := 0 }])] }), 0, 9, { sop := true, eop := true, data := 0, par := 0 }, [], rfl, by decide, by decide, by decide, rfl⟩,
   ⟨at0 ready, 0, 9, rfl, by decide, by decide⟩,
   ⟨at0 ready, 0, 9, { sop := true, eop := true, data := 0, par := 0 }, rfl, by decide, by decide, by decide, by decide +kernel⟩,
   ⟨at0 (ready.setCourier 0 { courier0 with rxq := [(0, fleetFlits)] }), 0, 0, fleetFlits, fleetHdr, [fleetRoute], BitVec.ofNat 32 (fcrcOf [fleetRoute]), _, rfl, by decide, by decide, by decide +kernel, by decide +kernel, rfl⟩,
   ⟨at0 ready, 0, rfl, by decide, by decide⟩,
   ⟨at0 (ready.modSvc (fun v => { v with halted := true })), 0, rfl, by decide, by decide⟩,
   ⟨at0 (ready.setCourier 0 { courier0 with transit := [(16 * 9 + 15, { sent := 1 })] }), 0, 9, 15, rfl, by decide, by decide, by decide⟩⟩

/-- The hypotheses of each clause of ResetAndSupplyCommands are met together. -/
theorem witness_ResetAndSupplyCommands :
    (∃ (s : State) (k : _), s.released ∧ s.blk.arch.step = some k ∧ k ≠ 0 ∧ k < 3) ∧
    (∃ (s : State), s.released ∧ s.blk.arch.step = some 3) ∧
    (∃ (s : State) (k : _) (status : BitVec 2), s.released ∧ s.blk.arch.step = some k ∧ status ≠ 0) ∧
    (∃ (s : State), s.released ∧ s.blk.env.shdnReq = false ∧ s.blk.inJob = false) ∧
    (∃ (s : State), s.released ∧ s.blk.svc.hoOn = true) ∧
    (∃ (s : State), s.released ∧ s.blk.svc.hoOn = true) ∧
    (∃ (s : State) (core : CoreIdx), s.released ∧ (s.blk.core core.toNat).porN = true) ∧
    (∃ (s : State) (r : RegionIdx), s.released ∧ (s.blk.office r.toNat).powered = true) ∧
    (∃ (s : State), s.released ∧ s.blk.svc.hoOn = true) ∧
    (∃ (s : State) (n : BitVec 4) (id : BitVec 10) (x : _), s.released ∧ (s.blk.courier n.toNat).xfers.find? (fun x => x.id = id.toNat) = some x) ∧
    (∃ (s : State), s.released ∧ s.blk.dbg.trace ≠ []) ∧
    (∃ (s : State), s.released ∧ s.blk.outs.coldReq = false ∧ s.blk.outs.warmReq = true) ∧
    (∃ (s : State), s.released ∧ s.blk.outs.coldReq = true) ∧
    (∃ (s : State), s.released ∧ s.blk.outs.coldReq = false ∧ s.blk.outs.warmReq = false) ∧
    (∃ (s : State), s.released) ∧
    (∃ (s : State), s.released ∧ s.blk.outs.warmReq = true) ∧
    (∃ (s : State), s.released ∧ s.blk.outs.coldReq = true ∧ s.blk.svc.state = .safe) ∧
    (∃ (s : State), s.released ∧ s.blk.outs.coldReq = true ∧ s.blk.svc.state ≠ .safe) ∧
    (∃ (s : State), s.released ∧ s.blk.ho.resets.inWindow ≠ 0) ∧
    (∃ (s : State), s.released ∧ s.blk.svc.pmOk = true) ∧
    (∃ (s : State), s.released ∧ s.blk.env.idVld = false) ∧
    (∃ (s : State), s.released) ∧
    (∃ (s : State) (core : CoreIdx), s.released ∧ (s.blk.core core.toNat).ctl.test = none ∧ (s.blk.core core.toNat).ctl.puStage = 1 ∧
      s.blk.windowOk core.toNat = false) :=
  ⟨⟨at0 { ready with arch := { step := some 1 } }, 1, rfl, by decide, by decide, by decide⟩,
   ⟨at0 { ready with arch := { step := some 3 } }, rfl, by decide⟩,
   ⟨at0 { ready with arch := { step := some 0 } }, 0, 3, rfl, by decide, by decide⟩,
   ⟨at0 ready, rfl, by decide, by decide⟩,
   ⟨at0 ready, rfl, by decide⟩,
   ⟨at0 ready, rfl, by decide⟩,
   ⟨at0 ready, 0, rfl, by decide⟩,
   ⟨at0 ready, 0, rfl, by decide⟩,
   ⟨at0 ready, rfl, by decide⟩,
   ⟨at0 (ready.setCourier 0 { courier0 with xfers := [{ id := 4 }] }), 0, 4, { id := 4 }, rfl, by decide⟩,
   ⟨at0 (ready.modDebug (fun d => { d with trace := [{ pm := 1 }] })), rfl, by decide⟩,
   ⟨at0 { ready with outs := { ready.outs with warmReq := true } }, rfl, by decide, by decide⟩,
   ⟨at0 { ready with outs := { ready.outs with coldReq := true } }, rfl, by decide⟩,
   ⟨at0 ready, rfl, by decide, by decide⟩,
   ⟨at0 ready, rfl⟩,
   ⟨at0 { ready with outs := { ready.outs with warmReq := true } }, rfl, by decide⟩,
   ⟨at0 { ready with outs := { ready.outs with coldReq := true }, svc := { ready.svc with state := .safe } }, rfl, by decide, by decide⟩,
   ⟨at0 { ready with outs := { ready.outs with coldReq := true } }, rfl, by decide, by decide⟩,
   ⟨at0 { ready with ho := { resets := { inWindow := 1 } } }, rfl, by decide⟩,
   ⟨at0 ready, rfl, by decide⟩,
   ⟨at0 ready, rfl, by decide⟩,
   ⟨at0 ready, rfl⟩,
   ⟨at0 (ready.setCore 0 { core0 with ctl := { puStage := 1 } }), 0, rfl, by decide, by decide, by decide⟩⟩

/-- The hypotheses of each clause of SyncAndStopPins are met together. -/
theorem witness_SyncAndStopPins :
    (∃ (s : State), s.released ∧ s.blk.pm.powered = true ∧ s.blk.pm.state = .armed ∧ (∀ n, (advTo s.blk.edge s.blk).pm.since = some n → 1000 ≤ n)) ∧
    (∃ (s : State) (n : _), s.released ∧ s.blk.pm.powered = true ∧ (advTo s.blk.edge s.blk).pm.since = some n ∧ n < 1000) ∧
    (∃ (s : State) (n : _), s.released ∧ s.blk.pm.state = .loaded ∧ s.blk.pm.since = some n) ∧
    (∃ (s : State), s.released ∧ s.blk.pm.powered = true ∧ s.blk.inForce = false) ∧
    (∃ (s : State), s.released) ∧
    (∃ (s : State) (t : _), s.released ∧ s.blk.stop.pulseAt = some t) :=
  ⟨⟨at0 { ready with pm := { ready.pm with state := .armed } }, rfl, by decide, by decide, fun n h => nomatch (show (none : Option Nat) = some n from h)⟩,
   ⟨at0 { ready with pm := { ready.pm with since := some 999 } }, _, rfl, by decide, rfl, by decide⟩,
   ⟨at0 { ready with pm := { ready.pm with since := some 7 } }, 7, rfl, by decide, by decide⟩,
   ⟨at0 ready, rfl, by decide, by decide⟩,
   ⟨at0 ready, rfl⟩,
   ⟨at0 (ready.modStop (fun x => { x with pulseAt := some 5 })), 5, rfl, by decide⟩⟩

/-- The hypotheses of each clause of StopLaunchAndBoundary are met together. -/
theorem witness_StopLaunchAndBoundary :
    (∃ (s : State) (t : _), s.released ∧ s.blk.stop.at_ = some t) ∧
    (∃ (s : State) (t : _), s.released ∧ s.blk.stop.at_ = none ∧ s.blk.stop.sched = some t ∧ s.blk.stop.stopped = false) ∧
    (∃ (s : State), s.released ∧ s.blk.releasable = true) ∧
    (∃ (s : State) (t : _), s.released ∧ s.blk.stop.resumeAt = some t) ∧
    (∃ (s : State) (t : _), s.released ∧ s.blk.stop.ownR = some t ∧ s.blk.stop.resumeAt = none) ∧
    (∃ (s : State) (u : _) (r : _), s.released ∧ s.blk.ho.job.armed = true ∧ s.blk.ho.job.unarmed = u :: r) ∧
    (∃ (s : State), s.released ∧ s.blk.ho.job.armed = true ∧ s.blk.inForce = false ∧ s.blk.ho.job.unarmed = [] ∧ s.blk.stop.sched = none) ∧
    (∃ (s : State), s.released ∧ s.blk.ho.job.armed = true ∧ s.blk.inForce = true) ∧
    (∃ (s : State), s.released ∧ s.blk.ho.job.launched = true ∧ s.blk.stop.stopped = false ∧ s.blk.ho.job.decided = true ∧
      s.blk.ho.job.fills.filter (fun f => decide (f.phase < 5)) = [] ∧ s.blk.ho.parcel.voting = false ∧ s.blk.stop.at_ = none ∧
      s.blk.beforeSlot s.blk.stop.sched = false ∧ s.blk.ho.job.stopNext = true) ∧
    (∃ (s : State), s.released ∧ s.blk.ho.job.launched = true ∧ s.blk.stop.stopped = false ∧ s.blk.ho.job.decided = true ∧
      s.blk.ho.job.fills.filter (fun f => decide (f.phase < 5)) = [] ∧ s.blk.ho.parcel.voting = false ∧ s.blk.stop.at_ = none ∧
      s.blk.beforeSlot s.blk.stop.sched = false ∧ s.blk.ho.job.stopNext = false ∧ s.blk.beforeSlot s.blk.ho.parcel.stopAt = false) :=
  ⟨⟨at0 (ready.modStop (fun j => { j with at_ := some 5 })), 5, rfl, by decide⟩,
   ⟨at0 (ready.modStop (fun j => { j with sched := some 5 })), 5, rfl, by decide, by decide, by decide⟩,
   ⟨at0 (ready.modStop (fun j => { j with stopped := true })), rfl, by decide⟩,
   ⟨at0 (ready.modStop (fun j => { j with resumeAt := some 5 })), 5, rfl, by decide⟩,
   ⟨at0 (ready.modStop (fun j => { j with ownR := some 5 })), 5, rfl, by decide, by decide⟩,
   ⟨at0 (ready.modJob (fun j => { j with armed := true, unarmed := [3] })), 3, [], rfl, by decide, by decide⟩,
   ⟨at0 (ready.modJob (fun j => { j with armed := true })), rfl, by decide, by decide, by decide, by decide⟩,
   ⟨at0 (((ready.modJob (fun j => { j with armed := true }))).modStop (fun x => { x with stopped := true })), rfl, by decide, by decide⟩,
   ⟨at0 (inSlot.modJob (fun j => { j with decided := true, stopNext := true })), rfl, by decide, by decide, by decide, by decide, by decide, by decide, by decide, by decide⟩,
   ⟨at0 (inSlot.modJob (fun j => { j with decided := true })), rfl, by decide, by decide, by decide, by decide, by decide, by decide, by decide, by decide, by decide⟩⟩

/-- The hypotheses of each clause of ManagementPortCommands are met together. -/
theorem witness_ManagementPortCommands :
    (∃ (s : State) (o : BitVec 16), s.released ∧ s.blk.svc.hoOn = true ∧ s.blk.svc.state ≠ .booting ∧ mapped o.toNat = true ∧ 0x4000 ≤ o.toNat ∧
      o.toNat < 0x6800) ∧
    (∃ (s : State) (o : BitVec 16), s.released ∧ s.blk.svc.hoOn = true ∧ mapped o.toNat = false) ∧
    (∃ (s : State), s.released ∧ s.blk.svc.hoOn = true ∧ s.blk.svc.state ≠ .booting) ∧
    (∃ (s : State) (r : BitVec 6), s.released ∧ s.blk.svc.hoOn = true ∧ s.blk.svc.state ≠ .booting ∧ mapped (0x1004 + 16 * r.toNat) = true ∧
      ((s.blk.ring r.toNat).ltrTail + 1) % 32 ≠ (s.blk.ring r.toNat).ltrHead) ∧
    (∃ (s : State) (r : BitVec 6), s.released ∧ s.blk.svc.hoOn = true ∧ s.blk.svc.state ≠ .booting ∧ mapped (0x1004 + 16 * r.toNat) = true ∧
      ((s.blk.ring r.toNat).ltrTail + 1) % 32 = (s.blk.ring r.toNat).ltrHead) ∧
    (∃ (s : State) (r : BitVec 6) (x : _) (xs : _), s.released ∧ s.blk.svc.hoOn = true ∧ s.blk.svc.state ≠ .booting ∧ 56 ≤ r.toNat ∧
      (s.blk.ring r.toNat).recs = x :: xs) ∧
    (∃ (s : State) (r : BitVec 6) (x : _) (xs : _), s.released ∧ s.blk.svc.hoOn = true ∧ s.blk.svc.state ≠ .booting ∧ r.toNat < 40 ∧
      (s.blk.ring r.toNat).recs = x :: xs) ∧
    (∃ (s : State), s.released ∧ s.blk.svc.hoOn = true) ∧
    (∃ (s : State), s.released ∧ s.blk.svc.hoOn = true) ∧
    (∃ (s : State), s.released ∧ s.blk.svc.hoOn = true ∧ s.blk.svc.state ≠ .booting) ∧
    (∃ (s : State) (v : BitVec 32), s.released ∧ s.blk.svc.hoOn = true ∧ s.blk.svc.state ≠ .booting ∧ rsvCauses 0x700 v.toNat = [] ∧
      s.blk.capturing = false) ∧
    (∃ (s : State) (v : BitVec 32), s.released ∧ s.blk.svc.hoOn = true ∧ s.blk.svc.state ≠ .booting ∧ rsvCauses 0x700 v.toNat = [] ∧
      s.blk.capturing = true) :=
  ⟨⟨at0 ready, 0x67FC, rfl, by decide, by decide, by decide, by decide +kernel, by decide⟩,
   ⟨at0 ready, 0x24, rfl, by decide, by decide⟩,
   ⟨at0 ready, rfl, by decide, by decide⟩,
   ⟨at0 ready, 39, rfl, by decide, by decide, by decide, by decide +kernel⟩,
   ⟨at0 (ready.modRing 0 (fun x => { x with ltrTail := 31 })), 0, rfl, by decide, by decide, by decide, by decide +kernel⟩,
   ⟨at0 (ready.modRing 63 (fun x => { x with recs := [[1]] })), 63, [1], [], rfl, by decide, by decide, by decide, by decide⟩,
   ⟨at0 (ready.modRing 39 (fun x => { x with recs := [[1], [2]] })), 39, [1], [[2]], rfl, by decide, by decide, by decide, by decide⟩,
   ⟨at0 ready, rfl, by decide⟩,
   ⟨at0 ready, rfl, by decide⟩,
   ⟨at0 ready, rfl, by decide, by decide⟩,
   ⟨at0 ready, 0xFFFF, rfl, by decide, by decide, by decide, by decide⟩,
   ⟨at0 (setGen (some { state := .capturing }) ready), 0, rfl, by decide, by decide, by decide, by decide⟩⟩

/-- The hypotheses of each clause of KeyAndTapCommands are met together. -/
theorem witness_KeyAndTapCommands :
    (∃ (s : State), s.released ∧ s.blk.svc.hoOn = true ∧ s.blk.svc.state ≠ .booting ∧ s.blk.keysOpen = true ∧ s.blk.keys.locked = false ∧
      s.blk.keys.win = none ∧ s.blk.keys.port = none) ∧
    (∃ (s : State), s.released ∧ s.blk.svc.hoOn = true ∧ s.blk.svc.state ≠ .booting ∧ s.blk.keysOpen = true ∧ s.blk.keys.locked = false ∧
      s.blk.keys.win = none) ∧
    (∃ (s : State), s.released ∧ s.blk.svc.hoOn = true ∧ s.blk.svc.state ≠ .booting) ∧
    (∃ (s : State) (k : _) (ws : _), s.released ∧ s.blk.svc.hoOn = true ∧ s.blk.svc.state ≠ .booting ∧ s.blk.keysOpen = true ∧
      s.blk.keys.locked = false ∧ s.blk.keys.win = some (k, ws) ∧ ws.length = 11) ∧
    (∃ (s : State) (k : _) (ws : _), s.released ∧ s.blk.svc.hoOn = true ∧ s.blk.svc.state ≠ .booting ∧ s.blk.keysOpen = true ∧
      s.blk.keys.locked = false ∧ s.blk.keys.win = some (k, ws) ∧ ws.length ≠ 11) ∧
    (∃ (s : State), s.released ∧ s.blk.svc.hoOn = true ∧ s.blk.svc.state ≠ .booting ∧ s.blk.keys.locked = true) ∧
    (∃ (s : State), s.released ∧ s.blk.keysOpen = true ∧ s.blk.keys.port = none ∧ s.blk.keys.win = none) ∧
    (∃ (s : State) (k : BitVec 2) (ws : _), s.released ∧ s.blk.keysOpen = true ∧ s.blk.keys.port = some (k.toNat, ws) ∧ s.blk.keys.win = none ∧
      ws.length = 11) ∧
    (∃ (s : State), s.released ∧ s.blk.tapOn = true) ∧
    (∃ (s : State), s.released ∧ s.blk.tapOn = false) ∧
    (∃ (s : State), s.released ∧ s.blk.tapOn = true ∧ s.blk.dbg.netDue = false ∧ s.blk.svc.lc ≠ .manufacture ∧ s.blk.svc.lc ≠ .rma) ∧
    (∃ (b : Block), b.dbg.netOpen = false ∧ b.dbg.tapIr = 0x21) ∧
    (∃ (s : State), s.released ∧ s.blk.tapOn = true ∧ (s.blk.svc.lc = .manufacture ∨ s.blk.svc.lc = .rma) ∧ s.blk.dbg.netOpen = false) ∧
    (∃ (s : State) (r : RegionIdx), s.released ∧ s.blk.tapOn = true ∧ s.blk.dbg.netOpen = true ∧ s.blk.dbg.sibs.contains (.rg r) = false) ∧
    (∃ (s : State), s.released ∧ s.blk.tapOn = true ∧ s.blk.dbg.netOpen = true ∧ s.blk.dbg.sibs.contains .ho = false ∧ s.blk.svc.hoOn = true) ∧
    (∃ (s : State) (core : CoreIdx), s.released ∧ s.blk.tapOn = true ∧ s.blk.dbg.netOpen = true ∧ s.blk.dbg.sibs.contains (.cap core) = true ∧
      s.blk.dbg.sibs.contains (.ls core) = false ∧ (s.blk.core core.toNat).lbOn = true ∧ (s.blk.core core.toNat).ctl.stopGated = true ∧
      (s.blk.core core.toNat).ctl.cap = none ∧ (s.blk.core core.toNat).ctl.test = none) :=
  ⟨⟨at0 ready, rfl, by decide, by decide, by decide, by decide, by decide, by decide⟩,
   ⟨at0 ready, rfl, by decide, by decide, by decide, by decide, by decide⟩,
   ⟨at0 ready, rfl, by decide, by decide⟩,
   ⟨at0 (ready.modKeys (fun k => { k with win := some (3, (List.replicate 11 0)) })), 3, (List.replicate 11 0), rfl, by decide, by decide, by decide, by decide, by decide, by decide⟩,
   ⟨at0 (ready.modKeys (fun k => { k with win := some (3, []) })), 3, [], rfl, by decide, by decide, by decide, by decide, by decide, by decide⟩,
   ⟨at0 (ready.modKeys (fun k => { k with locked := true })), rfl, by decide, by decide, by decide⟩,
   ⟨at0 ready, rfl, by decide, by decide, by decide⟩,
   ⟨at0 (ready.modKeys (fun k => { k with port := some (3, (List.replicate 11 0)) })), 3, (List.replicate 11 0), rfl, by decide, by decide, by decide, by decide⟩,
   ⟨at0 ready, rfl, by decide⟩,
   ⟨at0 (ready.modSvc (fun v => { v with dbgOn := false })), rfl, by decide⟩,
   ⟨at0 ready, rfl, by decide, by decide, by decide, by decide⟩,
   ⟨ready.modDebug (fun d => { d with tapIr := 0x21 }), by decide, by decide⟩,
   ⟨at0 (ready.modSvc (fun v => { v with lc := .rma })), rfl, by decide, .inr rfl, by decide⟩,
   ⟨at0 (ready.modDebug (fun d => { d with netOpen := true })), 127, rfl, by decide, by decide, by decide⟩,
   ⟨at0 (ready.modDebug (fun d => { d with netOpen := true })), rfl, by decide, by decide, by decide, by decide⟩,
   ⟨at0 ((ready.modDebug (fun d => { d with
    netOpen := true
    sibs := [.cap 0] })).setCore 0 { core0 with ctl := { stopGated := true } }), 0, rfl, by decide, by decide, by decide, by decide, by decide, by decide, by decide, by decide⟩⟩

/-- The hypotheses of each clause of StepVerdictCommands are met together. -/
theorem witness_StepVerdictCommands :
    (∃ (s : State) (r : RegionIdx) (c : BitVec 7) (p : _) (b : _), s.released ∧ s.blk.officeOn r.toNat = true ∧
      takeEvq r.toNat c.toNat (fun p => decide (hSvc p.hdr = 0x01) && !isSummary (s.blk.office r.toNat).st.step (p.pl.headD 0)) s.blk = some (p, b)) ∧
    (∃ (s : State) (r : RegionIdx) (c : BitVec 7) (p : Packet) (b : Block), s.released ∧ s.blk.officeWorks r.toNat = true ∧
      takeEvq r.toNat c.toNat (fun p => decide (hSvc p.hdr = 0x01) && isSummary (s.blk.office r.toNat).st.step (p.pl.headD 0)) s.blk = some (p, b) ∧
      (b.office r.toNat).st.sent = false ∧ b.unverdicted (pathUnit (hSrc p.hdr)) = false ∧ fld (p.pl.headD 0).toNat 56 2 = 0) ∧
    (∃ (s : State) (r : RegionIdx) (c : BitVec 7) (p : _) (b : _), s.released ∧ s.blk.officeWorks r.toNat = true ∧
      takeEvq r.toNat c.toNat (fun p => decide (hSvc p.hdr = 0x08)) s.blk = some (p, b)) ∧
    (∃ (s : State), s.released ∧ s.blk.undecided = true ∧ s.blk.ho.job.graphed = false ∧ s.blk.tEndHeld = false ∧ s.blk.ho.job.stalls = []) ∧
    (∃ (s : State) (r : RegionIdx), s.released ∧ s.blk.officeWorks r.toNat = true ∧ (s.blk.office r.toNat).st.sent = false ∧
      s.blk.ho.job.decided = false ∧ s.blk.tEndHeld = false ∧ s.blk.ho.job.graphed = true) ∧
    (∃ (s : State) (p : _) (b : _), s.released ∧ s.blk.hoRuns = true ∧ takeHo 0x10 s.blk = some (p, b) ∧ e2eBad p = none ∧ b.deadPkt p = false ∧
      b.undecided = true ∧ fld (p.pl.getD 0 0).toNat 0 32 = b.ho.job.step) ∧
    (∃ (s : State) (p : _) (b : _), s.released ∧ s.blk.hoRuns = true ∧ takeHo 0x14 s.blk = some (p, b) ∧ e2eBad p = none ∧ b.deadPkt p = false ∧
      b.undecided = true ∧ fld (p.pl.getD 0 0).toNat 0 32 = b.ho.job.step) ∧
    (∃ (s : State), s.released ∧ s.blk.undecided = true ∧ s.blk.tEndHeld = false ∧ (forEach s.blk.popRegions regionVerdict s.blk).undecided = true) :=
  ⟨⟨at0 (inSlot.setOffice 0 { office0 with evq := [(127, [pkt 0x01 1])] }), 0, 127, _, _, rfl, by decide, rfl⟩,
   ⟨at0 (inSlot.setOffice 0 { office0 with evq := [(0, [pkt 0x01 0])] }), 0, 0, _, _, rfl, by decide, rfl, rfl, rfl, by decide +kernel⟩,
   ⟨at0 (inSlot.setOffice 0 { office0 with evq := [(0, [pkt 0x08 0])] }), 0, 0, _, _, rfl, by decide, rfl⟩,
   ⟨at0 inSlot, rfl, by decide, by decide, by decide, by decide⟩,
   ⟨at0 (inSlot.modJob (fun j => { j with graphed := true })), 0, rfl, by decide, by decide, by decide, by decide, by decide⟩,
   ⟨at0 (inSlot.modPost (fun c => { c with net := { rx := [pkt 0x10 0] } })), _, _, rfl, by decide, rfl, by decide +kernel, by decide +kernel, rfl, by decide +kernel⟩,
   ⟨at0 (inSlot.modPost (fun c => { c with net := { rx := [pkt 0x14 0] } })), _, _, rfl, by decide, rfl, by decide +kernel, by decide +kernel, rfl, by decide +kernel⟩,
   ⟨at0 (inSlot.modJob (fun j => { j with graphed := true })), rfl, by decide, by decide, by decide +kernel⟩⟩

/-- The hypotheses of each clause of FillAndDiceCommands are met together. -/
theorem witness_FillAndDiceCommands :
    (∃ (s : State) (r : RegionIdx), s.released ∧ s.blk.officeWorks r.toNat = true ∧ s.blk.ho.job.decided = true ∧ s.blk.ho.job.withheld ≠ 0 ∧
      s.blk.ho.job.stopNext = false ∧ (s.blk.office r.toNat).st.named = []) ∧
    (∃ (s : State) (r : RegionIdx) (role : Nat) (reason : _) (src : _) (dst : _), s.released ∧ s.blk.officeWorks r.toNat = true ∧
      s.blk.ho.job.decided = true ∧ s.blk.ho.job.withheld ≠ 0 ∧ s.blk.ho.job.stopNext = false ∧ (s.blk.office r.toNat).st.named = [(role, reason)] ∧
      s.blk.ho.job.fills.any (fun f => decide (f.role = role) && decide (f.phase < 5)) = false ∧ s.blk.coreOf role = some src ∧
      s.blk.coreState src ≠ .unscreened ∧ s.blk.spareFor src = some dst) ∧
    (∃ (s : State) (r : RegionIdx) (role : BitVec 20) (f : Fill), s.released ∧
      s.blk.ho.job.fills.find? (fun f => decide (f.role = role.toNat) && decide (f.phase < 5) && decide (regionOf f.dst = r.toNat)) = some f ∧
      s.blk.stop.stopped = false ∧ s.blk.officeOn r.toNat = true ∧ f.phase = 2 ∧ s.blk.unitsLeft f.dst .fill = false ∧
      (s.blk.core f.src).pins.isoN = false) ∧
    (∃ (s : State) (r : RegionIdx) (role : BitVec 20) (f : Fill), s.released ∧
      s.blk.ho.job.fills.find? (fun f => decide (f.role = role.toNat) && decide (f.phase < 5) && decide (regionOf f.dst = r.toNat)) = some f ∧
      s.blk.stop.stopped = false ∧ s.blk.officeOn r.toNat = true ∧ f.phase = 3 ∧ f.image ≠ []) ∧
    (∃ (s : State) (r : RegionIdx) (role : BitVec 20) (f : _), s.released ∧
      s.blk.ho.job.fills.find? (fun f => decide (f.role = role.toNat) && decide (f.phase < 5) && decide (regionOf f.dst = r.toNat)) = some f ∧
      s.blk.stop.stopped = false ∧ s.blk.officeOn r.toNat = true ∧ f.phase = 4 ∧ s.blk.coreState f.dst = .spare ∧ f.loaded = true) ∧
    (∃ (s : State) (r : RegionIdx) (role : BitVec 20) (f : Fill), s.released ∧
      s.blk.ho.job.fills.find? (fun f => decide (f.role = role.toNat) && decide (f.phase < 5) && decide (regionOf f.dst = r.toNat)) = some f ∧
      s.blk.stop.stopped = false ∧ s.blk.officeOn r.toNat = true) ∧
    (∃ (s : State) (r : RegionIdx) (role : BitVec 20) (f : Fill), s.released ∧
      s.blk.ho.job.fills.find? (fun f => decide (f.role = role.toNat) && decide (f.phase < 5) && decide (regionOf f.dst = r.toNat)) = some f ∧
      s.blk.stop.stopped = false) ∧
    (∃ (s : State) (r : RegionIdx), s.released ∧ s.blk.officeOn r.toNat = true ∧ (s.blk.office r.toNat).reload = false ∧ s.blk.ho.job.man.isSome = true ∧
      (s.blk.office r.toNat).st.filled = false ∧ s.blk.ho.job.launched = false) :=
  ⟨⟨at0 (inSlot.modJob (fun j => { j with
    decided := true
    withheld := 2 })), 0, rfl, by decide, by decide, by decide, by decide, by decide⟩,
   ⟨at0 (withSpare (((inSlot.modJob (fun j => { j with decided := true, withheld := 1 })).setOffice 0 { office0 with st := { named := [(7, 1)] } }).modBm (fun m => { m with roles := [(0, 7)] }))), 0, 7, 1, 0, 3, rfl, by decide, by decide, by decide, by decide, by decide, by decide, by decide, by decide, by decide +kernel⟩,
   ⟨at0 (((inSlot.setCore 0 { core0 with pins := { core0.pins with isoN := false } })).modJob (fun j => { j with fills := [{ role := 7, src := 0, dst := 3, phase := 2, image := [] }] })), 0, 7, { role := 7, src := 0, dst := 3, phase := 2, image := [] }, rfl, by decide, by decide, by decide, by decide, by decide, by decide⟩,
   ⟨at0 ((inSlot).modJob (fun j => { j with fills := [{ role := 7, src := 0, dst := 3, phase := 3, image := [5] }] })), 0, 7, { role := 7, src := 0, dst := 3, phase := 3, image := [5] }, rfl, by decide, by decide, by decide, by decide, by decide⟩,
   ⟨at0 (withSpare (inSlot.modJob (fun j => { j with fills := [{ role := 7, src := 0, dst := 3, phase := 4, image := [], loaded := true }] }))), 0, 7, { role := 7, src := 0, dst := 3, phase := 4, image := [], loaded := true }, rfl, by decide, by decide, by decide, by decide, by decide, by decide⟩,
   ⟨at0 ((inSlot).modJob (fun j => { j with fills := [{ role := 7, src := 0, dst := 3, phase := 1, image := [] }] })), 0, 7, { role := 7, src := 0, dst := 3, phase := 1, image := [] }, rfl, by decide, by decide, by decide⟩,
   ⟨at0 ((inSlot).modJob (fun j => { j with fills := [{ role := 7, src := 0, dst := 3, phase := 4, image := [] }] })), 0, 7, { role := 7, src := 0, dst := 3, phase := 4, image := [] }, rfl, by decide, by decide⟩,
   ⟨at0 (ready.modJob (fun j => { j with man := some {} })), 0, rfl, by decide, by decide, by decide, by decide, by decide⟩⟩

/-- The hypotheses of each clause of OfficeDutyCommands are met together. -/
theorem witness_OfficeDutyCommands :
    (∃ (s : State) (r : RegionIdx) (u : _) (t : _) (w : _), s.released ∧ s.blk.officeOn r.toNat = true ∧ s.blk.unitBusy r.toNat = false ∧
      s.blk.nextUnit r.toNat = some (u, t, w)) ∧
    (∃ (s : State) (r : RegionIdx) (u : _) (n : _), s.released ∧ s.blk.officeOn r.toNat = true ∧ s.blk.unitBusy r.toNat = false ∧
      s.blk.nextUnit r.toNat = none ∧ (s.blk.office r.toNat).testq = [] ∧ s.blk.ho.policy.spareSweep = true ∧
      s.blk.sweepNext r.toNat = some (u, n)) ∧
    (∃ (s : State) (r : RegionIdx), s.released ∧ s.blk.officeOn r.toNat = true ∧ (s.blk.office r.toNat).standby.live = true ∧
      (s.blk.office r.toNat).standby.eligible = true ∧ (s.blk.office r.toNat).standby.testing = false) ∧
    (∃ (s : State) (r : RegionIdx), s.released ∧ (s.blk.office r.toNat).standby.testing = true) ∧
    (∃ (s : State) (r : RegionIdx), s.released ∧ (s.blk.office r.toNat).standby.testing = true) ∧
    (∃ (s : State) (r : RegionIdx), s.released ∧ (s.blk.office r.toNat).standby.copying = true) ∧
    (∃ (s : State) (r : RegionIdx), s.released ∧ s.blk.officeOn r.toNat = true ∧ (s.blk.office r.toNat).standby.live = true ∧
      (s.blk.office r.toNat).standby.eligible = true ∧ s.blk.inJob = false ∧ s.blk.ho.mail.outst = []) ∧
    (∃ (s : State) (r : RegionIdx), s.released ∧ s.blk.officeOn r.toNat = true) ∧
    (∃ (s : State) (r : RegionIdx) (k : _), s.released ∧ s.blk.officeWorks r.toNat = true ∧ s.blk.ho.policy.routerRound = true ∧
      (s.blk.office r.toNat).st.filled = true ∧ (s.blk.office r.toNat).st.rounded = false ∧ s.blk.tEndHeld = false ∧
      s.blk.roundRouter r.toNat = some k ∧ s.blk.noneFor r.toNat k = true) ∧
    (∃ (s : State) (r : RegionIdx) (e : _) (l : _), s.released ∧ s.blk.officeOn r.toNat = true ∧ s.blk.hoRuns = true ∧
      (s.blk.office r.toNat).events = e :: l) ∧
    (∃ (s : State), s.released ∧ s.blk.hoRuns = true ∧ s.blk.inJob = true) :=
  ⟨⟨at0 (ready.setOffice 0 { office0 with testq := [{ core := 0, mode := 1, trigger := .sweep }] }), 0, { core := 0, mode := 1, trigger := .sweep }, 1000000, 3, rfl, by decide, by decide, by decide +kernel⟩,
   ⟨at0 (withSpare ready), 0, { core := 3, mode := 1, trigger := .spareSweep, due := 1000000 }, 1, rfl, by decide, by decide, by decide +kernel, by decide, by decide, by decide +kernel⟩,
   ⟨at0 ready, 0, rfl, by decide, by decide, by decide, by decide⟩,
   ⟨at0 (ready.setOffice 0 { office0 with memB := { passed := true, testing := true } }), 0, rfl, by decide⟩,
   ⟨at0 (ready.setOffice 0 { office0 with memB := { passed := true, testing := true } }), 0, rfl, by decide⟩,
   ⟨at0 (ready.setOffice 0 { office0 with memB := { passed := true, copying := true } }), 0, rfl, by decide⟩,
   ⟨at0 ready, 0, rfl, by decide, by decide, by decide, by decide, by decide⟩,
   ⟨at0 ready, 0, rfl, by decide⟩,
   ⟨at0 (inSlot.setOffice 0 { office0 with st := { filled := true } }), 0, 0, rfl, by decide, by decide, by decide, by decide, by decide, by decide +kernel, by decide⟩,
   ⟨at0 (ready.setOffice 0 { office0 with events := [{ code := 1 }] }), 0, { code := 1 }, [], rfl, by decide, by decide, by decide⟩,
   ⟨at0 inSlot, rfl, by decide, by decide⟩⟩

/-- The hypotheses of each clause of PostNetworkCommands are met together. -/
theorem witness_PostNetworkCommands :
    (∃ (s : State) (u : BitVec 24), s.released ∧ unitKind u.toNat = 1 ∧ unitIndex u.toNat < 16384 ∧
      (s.blk.office (unitIndex u.toNat / 128)).powered = true ∧ (s.blk.router (unitIndex u.toNat)).lost = false ∧
      (∀ j, 128 * (unitIndex u.toNat / 128) ≤ j → j < 128 * (unitIndex u.toNat / 128) + 128 → (s.blk.router j).lost = false → (s.blk.router (unitIndex u.toNat)).frame ≤ (s.blk.router j).frame)) ∧
    (∃ (s : State) (u : BitVec 24), s.released ∧ unitKind u.toNat = 2 ∧ unitIndex u.toNat < 16384 ∧ (s.blk.office (unitIndex u.toNat)).powered = true ∧
      (s.blk.node (unitIndex u.toNat)).lost = false) ∧
    (∃ (s : State) (u : BitVec 24) (dir : BitVec 2) (x : _) (r : _), s.released ∧ unitKind u.toNat = 2 ∧
      (tget (s.blk.node (unitIndex u.toNat)).seams dir.toNat).getD [] = x :: r ∧
      tget (s.blk.node (torusStep (unitIndex u.toNat) dir.toNat)).inp (opp dir.toNat) = none) ∧
    (∃ (s : State) (core : CoreIdx) (p : _) (rest : _) (f : _), s.released ∧ (s.blk.core core.toNat).porN = true ∧
      takeRx (fun p => decide (hPtype p.hdr ≠ 3) && !ownRow core.toNat p) (s.blk.net core.toNat).rx = some (p, rest) ∧ e2eBad p = none ∧
      hPtype p.hdr = 0 ∧ hSvc p.hdr = 0x02 ∧ hEpoch p.hdr = (s.blk.net core.toNat).epoch.toNat ∧ s.blk.ho.job.man.isSome = true ∧
      hFleet p.hdr = false ∧ p.pl = [f] ∧ fld f.toNat 52 3 ≠ 1) ∧
    (∃ (s : State) (u : BitVec 24) (p : _) (rest : _), s.released ∧ s.blk.termOn (s.blk.termOf u.toNat) = true ∧ unitKind (s.blk.termOf u.toNat) ≠ 0 ∧
      takeRx (fun p => decide (hPtype p.hdr ≠ 3) && !ownRow (s.blk.termOf u.toNat) p) (s.blk.net (s.blk.termOf u.toNat)).rx = some (p, rest) ∧
      e2eBad p = none ∧ hPtype p.hdr ≠ 2 ∧ implemented (unitKind (s.blk.termOf u.toNat)) (hSvc p.hdr) = false) ∧
    (∃ (b : Block) (u : Nat), (b.net u).lookup1 = false) ∧
    (∃ (b : Block), (b.net unitHO).lookup1 = true) ∧
    (∃ (b : Block) (m : Nat), m < 256 ∧ (b.net (unitMember 0 m)).lookup1 = true) ∧
    (∃ (s : State) (core : CoreIdx) (p : Packet) (rest : List Packet), s.released ∧ (s.blk.core core.toNat).porN = true ∧
      takeRx (fun p => decide (hPtype p.hdr = 3)) (s.blk.net core.toNat).rx = some (p, rest) ∧ e2eBad p = none ∧
      (s.blk.net core.toNat).held.find? (heldFor (p.pl.getD 0 0)) = none) ∧
    (∃ (s : State) (u : BitVec 24) (x : _), s.released ∧ (s.blk.net (s.blk.termOf u.toNat)).held.find? (·.waiting) = some x ∧
      s.blk.termOn (s.blk.termOf u.toNat) = true) ∧
    (∃ (s : State) (r : RegionIdx) (k : BitVec 7), s.released ∧ (s.blk.office r.toNat).powered = true ∧
      (s.blk.router (128 * r.toNat + k.toNat)).lost = false ∧ (s.blk.router (128 * r.toNat + k.toNat)).offered ≠ 0) ∧
    (∃ (s : State) (r : RegionIdx), s.released ∧ (s.blk.office r.toNat).powered = true ∧ (s.blk.office r.toNat).dead = false ∧
      (s.blk.office r.toNat).server.maps = 8 ∧
      ((List.range 128).all (fun k => (s.blk.router (128 * r.toNat + k)).lost || (tget (s.blk.office r.toNat).samples k).isSome)) = true) ∧
    (∃ (s : State), s.released ∧ s.blk.hoRuns = true ∧ s.blk.dbg.exporting = none) ∧
    (∃ (s : State) (r : RegionIdx), s.released ∧ s.blk.hoRuns = true ∧ s.blk.populated r.toNat = true ∧ s.blk.ho.post.swapAt = none) ∧
    (∃ (s : State) (r : RegionIdx) (a : _), s.released ∧ s.blk.hoRuns = true ∧ s.blk.populated r.toNat = true ∧ s.blk.ho.post.swapAt = some a) ∧
    (∃ (s : State) (a : _), s.released ∧ s.blk.ho.post.swapAt = some a ∧ s.blk.ho.post.swapq = []) ∧
    (∃ (s : State) (u : BitVec 24) (st : _) (l : _), s.released ∧ s.blk.stagesOf u.toNat = st :: l ∧ stageWhole st = true) ∧
    (∃ (s : State) (u : BitVec 24) (st : _) (l : _), s.released ∧ s.blk.stagesOf u.toNat = st :: l ∧ stageWhole st = false) ∧
    (∃ (s : State) (u : BitVec 24) (tgt : BitVec 24) (x : _), s.released ∧
      (s.blk.net u.toNat).sends.find? (fun x => x.missing.any (fun m => decide (m.1 = tgt.toNat) && decide (m.2 < 4))) = some x) ∧
    (∃ (s : State) (r : RegionIdx) (k : BitVec 7), s.released ∧ s.blk.populated r.toNat = true ∧ (s.blk.router (128 * r.toNat + k.toNat)).lost = false) :=
  ⟨⟨at0 ready, 0x100000, rfl, by decide, by decide, by decide, by decide, by intro j _ _ _; simp [at0, ready, Block.router, tget]⟩,
   ⟨at0 ready, 0x200000, rfl, by decide, by decide, by decide, by decide⟩,
   ⟨at0 { ready with units := { ready.units with nodes := [(0, { seams := [(0, [{ pkt := pkt 0x01 0 }])] })] } }, 0x200000, 0, { pkt := pkt 0x01 0 }, [], rfl, by decide, rfl, by decide⟩,
   ⟨at0 ((ready.modJob (fun j => { j with man := some {} })).setCore 0 { core0 with net := { rx := [pkt 0x02 0] } }), 0, pkt 0x02 0, [], 0, rfl, by decide, rfl, by decide +kernel, by decide, by decide, by decide, by decide, by decide, rfl, by decide⟩,
   ⟨at0 (ready.modPost (fun c => { c with net := { rx := [pkt 0x02 0] } })), 0x400000, pkt 0x02 0, [], rfl, by decide, by decide, rfl, by decide +kernel, by decide, by decide⟩,
   ⟨ready, unitHO, by decide⟩,
   ⟨(ready.modPost (fun c => { c with net := { lookup1 := true } })), by decide⟩,
   ⟨(ready.setOffice 0 { office0 with memA := { passed := true, eligible := true, net := { lookup1 := true } } }), 0, by decide, by decide⟩,
   ⟨at0 (ready.setCore 0 { core0 with net := { rx := [ret] } }), 0, ret, [], rfl, by decide, rfl, by decide +kernel, by decide⟩,
   ⟨at0 (ready.setCore 0 { core0 with net := { held := [{ pkt := pkt 0x02 0, waiting := true }] } }), 0, { pkt := pkt 0x02 0, waiting := true }, rfl, rfl, by decide⟩,
   ⟨at0 { ready with units := { ready.units with routers := [(127, { offered := 1 })] } }, 0, 127, rfl, by decide, by decide, by decide⟩,
   ⟨at0 (ready.setOffice 0 { office0 with memA := { passed := true, eligible := true, maps := 8 }, samples := (List.range 128).map (fun k => (k, 0)) }), 0, rfl, by decide, by decide, by decide, by decide +kernel⟩,
   ⟨at0 ready, rfl, by decide, by decide⟩,
   ⟨at0 ready, 0, rfl, by decide, by decide, by decide⟩,
   ⟨at0 (ready.modPost (fun c => { c with swapAt := some 4 })), 0, 4, rfl, by decide, by decide, by decide⟩,
   ⟨at0 (ready.modPost (fun c => { c with swapAt := some 4 })), 4, rfl, by decide, by decide⟩,
   ⟨at0 (ready.setCore 0 { core0 with net := { stages := [{ sender := 1, stageId := 2, act := 5, cnt := 1, got := [(0, [])], svc := 0x11 }] } }), 0, { sender := 1, stageId := 2, act := 5, cnt := 1, got := [(0, [])], svc := 0x11 }, [], rfl, by decide, by decide⟩,
   ⟨at0 (ready.setCore 0 { core0 with net := { stages := [{ sender := 1, stageId := 2, act := 5, cnt := 1, got := [], svc := 0x11 }] } }), 0, { sender := 1, stageId := 2, act := 5, cnt := 1, got := [], svc := 0x11 }, [], rfl, by decide, by decide⟩,
   ⟨at0 (ready.setCore 0 { core0 with net := { sends := [{ stageId := 2, act := 5, missing := [(9, 3)] }] } }), 0, 9, { stageId := 2, act := 5, missing := [(9, 3)] }, rfl, by decide⟩,
   ⟨at0 ready, 0, 127, rfl, by decide, by decide⟩⟩

/-- The hypotheses of each clause of FleetMessageCommands are met together. -/
theorem witness_FleetMessageCommands :
    (∃ (s : State) (m : FleetMsg), s.released ∧ s.blk.hoRuns = true ∧ firstOf 0x01 s.blk.ho.fleet.requests = some m ∧
      m.final = (takeRequest m s.blk).wafer ∧ m.bytes.length = 32 ∧ fld (ofLe m.bytes) 89 3 = 0 ∧ fld (ofLe m.bytes) 192 64 = 0 ∧
      (takeRequest m s.blk).helloRefuse m.src (ofLe m.bytes) = 0) ∧
    (∃ (s : State) (m : FleetMsg), s.released ∧ s.blk.hoRuns = true ∧ firstOf 0x01 s.blk.ho.fleet.requests = none ∧
      firstOf 0x02 s.blk.ho.fleet.replies = some m ∧ (takeReply m s.blk).replyFits m = true ∧ m.bytes.length = 32 ∧ fld (ofLe m.bytes) 89 3 = 0 ∧
      fld (ofLe m.bytes) 192 64 = 0) ∧
    (∃ (s : State) (t : _), s.released ∧ s.blk.hoRuns = true ∧ s.blk.ho.fleet.helloAt = some t ∧ s.blk.ledger.gens = []) ∧
    (∃ (s : State) (w : BitVec 16) (p : _), s.released ∧ s.blk.hoRuns = true ∧ tget s.blk.ho.fleet.partners w.toNat = some p ∧ p.state = 0 ∧
      s.blk.taking = none ∧ s.blk.ho.parcel.rerep = none) ∧
    (∃ (s : State) (w : BitVec 16) (p : _), s.released ∧ s.blk.hoRuns = true ∧ tget s.blk.ho.fleet.partners w.toNat = some p ∧ p.state ≠ 0 ∧
      s.blk.isHolder w.toNat = false ∧ s.blk.isHoldee w.toNat = false) ∧
    (∃ (s : State) (m : FleetMsg), s.released ∧ s.blk.hoRuns = true ∧
      s.blk.ho.fleet.requests.find? (fun m => decide (m.mtype = 0x10) && decide (m.final = s.blk.wafer)) = some m ∧ s.blk.refusedSender m.src = none ∧
      (s.blk.ring (40 + m.src % 16)).inbox.length < 31) ∧
    (∃ (s : State) (m : FleetMsg) (l : _), s.released ∧ s.blk.hoRuns = true ∧ s.blk.ho.fleet.forwards = m :: l ∧ m.final = s.blk.wafer ∧
      s.blk.refusedSender m.src = none ∧ (s.blk.ring (40 + m.src % 16)).inbox.length < 31) ∧
    (∃ (s : State) (m : FleetMsg), s.released ∧ s.blk.hoRuns = true ∧ s.blk.ho.fleet.forwards = [] ∧
      s.blk.ho.fleet.requests.find? (fun m => decide (m.mtype = 0x10) && decide (m.final ≠ s.blk.wafer)) = some m ∧
      (sendRequestFrom m.src 0x12 m.final m.epoch m.bytes none (some (m.orig, m.rtag, m.reqSeq)) true (takeRequest m s.blk)).1 = 0) ∧
    (∃ (s : State) (m : FleetMsg) (x : _) (r : _), s.released ∧ s.blk.hoRuns = true ∧
      s.blk.ho.fleet.replies.find? (fun m => decide (m.mtype = 0x11) || decide (m.mtype = 0x13)) = some m ∧ m.mtype = 0x11 ∧
      tget s.blk.ho.fleet.slots m.rtag = some x ∧ x.reqSeq = m.reqSeq ∧ x.relay = none ∧ x.ring = some r) ∧
    (∃ (s : State) (k : BitVec 10) (x : _) (r : _), s.released ∧ tget s.blk.ho.fleet.slots k.toNat = some x ∧ x.ring = some r) ∧
    (∃ (s : State) (k : BitVec 10) (x : _), s.released ∧ tget s.blk.ho.fleet.slots k.toNat = some x ∧ x.ring = none ∧ x.own = none) ∧
    (∃ (s : State) (src : BitVec 16) (rs : BitVec 16) (m : FleetMsg), s.released ∧
      s.blk.ho.fleet.parts.find? (fun m => decide (m.src = src.toNat) && decide (m.reqSeq = rs.toNat)) = some m) ∧
    (∃ (s : State) (r : BitVec 6) (dst : _) (l : _), s.released ∧ s.blk.consumes = true ∧ (s.blk.ring r.toNat).away = some dst ∧
      (s.blk.ring r.toNat).relayed = false ∧ s.blk.headLetter r.toNat = some l ∧
      (sendRequest 0x10 dst l.epoch l.bytes (some r.toNat) (ensureLive dst s.blk)).1 = 0) ∧
    (∃ (s : State) (m : _) (k : _), s.released ∧ s.blk.hoRuns = true ∧ firstOf 0x20 s.blk.ho.fleet.requests = some m ∧
      m.final = (takeRequest m s.blk).wafer ∧ freeStream (takeRequest m s.blk).ho.fleet.streams = some k) ∧
    (∃ (s : State) (m : _) (x : _) (k : _), s.released ∧ s.blk.hoRuns = true ∧ firstOf 0x21 s.blk.ho.fleet.replies = some m ∧
      tget s.blk.ho.fleet.slots m.rtag = some x ∧ freeStream s.blk.ho.fleet.bulkOut = some k ∧ x.reqSeq = m.reqSeq ∧ x.mtype = 0x20) ∧
    (∃ (s : State) (m : _) (k : _) (st : _), s.released ∧ s.blk.hoRuns = true ∧ firstOf 0x22 s.blk.ho.fleet.bulk = some m ∧
      streamOf s.blk.ho.fleet.streams m.src m.reqSeq = some (k, st)) ∧
    (∃ (m : FleetMsg) (l : List FleetMsg), m ∈ l) ∧
    (∃ (s : State) (m : _) (k : _) (st : _), s.released ∧ s.blk.hoRuns = true ∧ firstOf 0x23 s.blk.ho.fleet.replies = some m ∧
      streamOf s.blk.ho.fleet.bulkOut m.src m.reqSeq = some (k, st) ∧ st.pkts = []) ∧
    (∃ (s : State) (k : BitVec 6) (st : _), s.released ∧ tget s.blk.ho.fleet.bulkOut k.toNat = some st ∧ st.credits = 0) ∧
    (∃ (s : State) (m : FleetMsg), s.released ∧ s.blk.hoRuns = true ∧ firstOf 0x30 s.blk.ho.fleet.colls = some m ∧ m.rtag = 14 ∧
      (childrenOf s.blk.ho.fleet.len s.blk.wafer).any (fun c => decide (c.2 = m.src)) = true ∧ s.blk.ho.fleet.ended = [] ∧
      tget s.blk.ho.fleet.coll 14 = none) ∧
    (∃ (s : State) (m : FleetMsg) (port : _), s.released ∧ s.blk.hoRuns = true ∧ firstOf 0x31 s.blk.ho.fleet.colls = some m ∧ s.blk.ho.fleet.ended = [] ∧
      parentOf s.blk.ho.fleet.len s.blk.wafer = some (port, m.src)) ∧
    (∃ (s : State) (id : BitVec 4) (c : _), s.released ∧ tget s.blk.ho.fleet.coll id.toNat = some c) :=
  ⟨⟨at0 (ready.modFleet (fun f => { f with requests := [{ src := 1, mtype := 1, frags := [(0, helloBytes)] }] })), { src := 1, mtype := 1, frags := [(0, helloBytes)] }, rfl, by decide, rfl, by decide +kernel, by decide +kernel, by decide +kernel, by decide +kernel, by decide +kernel⟩,
   ⟨at0 (ready.modFleet (fun f => { f with
    replies := [{ src := 1, mtype := 2, frags := [(0, helloBytes)], rtag := 3, reqSeq := 4 }]
    slots := [(3, { reqSeq := 4 })] })), { src := 1, mtype := 2, frags := [(0, helloBytes)], rtag := 3, reqSeq := 4 }, rfl, by decide, by decide, rfl, by decide +kernel, by decide +kernel, by decide +kernel, by decide +kernel⟩,
   ⟨at0 (ready.modFleet (fun f => { f with helloAt := some 5 })), 5, rfl, by decide, by decide, by decide⟩,
   ⟨at0 (ready.modFleet (fun f => { f with partners := [(7, {})] })), 7, {}, rfl, by decide, by decide, by decide, by decide, by decide⟩,
   ⟨at0 (ready.modFleet (fun f => { f with partners := [(7, { state := 1 })] })), 7, { state := 1 }, rfl, by decide, by decide, by decide, by decide, by decide⟩,
   ⟨at0 (ready.modFleet (fun f => { f with requests := [{ src := 1, mtype := 0x10 }] })), { src := 1, mtype := 0x10 }, rfl, by decide, by decide, by decide, by decide +kernel⟩,
   ⟨at0 (ready.modFleet (fun f => { f with forwards := [{ src := 1, mtype := 0x10 }] })), { src := 1, mtype := 0x10 }, [], rfl, by decide, by decide, by decide, by decide, by decide +kernel⟩,
   ⟨at0 (ready.modFleet (fun f => { f with
    requests := [{ src := 1, mtype := 0x10, final := 1 }]
    len := [2, 1, 1, 1, 1, 1, 1, 1]
    partners := [(1, {})] })), { src := 1, mtype := 0x10, final := 1 }, rfl, by decide, by decide, by decide, by decide +kernel⟩,
   ⟨at0 (ready.modFleet (fun f => { f with
    replies := [{ src := 1, mtype := 0x11, rtag := 3, reqSeq := 4 }]
    slots := [(3, { reqSeq := 4, ring := some 2 })] })), { src := 1, mtype := 0x11, rtag := 3, reqSeq := 4 }, { reqSeq := 4, ring := some 2 }, 2, rfl, by decide, by decide, by decide, by decide, by decide, by decide, by decide⟩,
   ⟨at0 (ready.modFleet (fun f => { f with slots := [(1023, { reqSeq := 4, ring := some 2 })] })), 1023, { reqSeq := 4, ring := some 2 }, 2, rfl, by decide, by decide⟩,
   ⟨at0 (ready.modFleet (fun f => { f with slots := [(1023, { reqSeq := 4 })] })), 1023, { reqSeq := 4 }, rfl, by decide, by decide, by decide⟩,
   ⟨at0 (ready.modFleet (fun f => { f with parts := [{ src := 1, reqSeq := 4 }] })), 1, 4, { src := 1, reqSeq := 4 }, rfl, by decide⟩,
   ⟨at0 (((post 0x303 [] ready).modRing 0 (fun x => { x with away := some 1 })).modFleet (fun f => { f with
    len := [2, 1, 1, 1, 1, 1, 1, 1]
    partners := [(1, {})] })), 0, 1, ltr 0x303 [], rfl, by decide, by decide, by decide, by decide, by decide +kernel⟩,
   ⟨at0 (ready.modFleet (fun f => { f with requests := [{ src := 1, mtype := 0x20 }] })), { src := 1, mtype := 0x20 }, 0, rfl, by decide, by decide, by decide, by decide⟩,
   ⟨at0 (ready.modFleet (fun f => { f with replies := [{ src := 1, mtype := 0x21, rtag := 3, reqSeq := 4 }], slots := [(3, { reqSeq := 4, mtype := 0x20 })] })), { src := 1, mtype := 0x21, rtag := 3, reqSeq := 4 }, { reqSeq := 4, mtype := 0x20 }, 0, rfl, by decide, by decide, by decide, by decide, by decide, by decide⟩,
   ⟨at0 (ready.modFleet (fun f => { f with bulk := [{ src := 1, mtype := 0x22, reqSeq := 4 }], streams := [(5, { peer := 1, tag := 4, credits := 64 })] })), { src := 1, mtype := 0x22, reqSeq := 4 }, 5, { peer := 1, tag := 4, credits := 64 }, rfl, by decide, by decide, by decide⟩,
   ⟨{ src := 1 }, [{ src := 1 }], by decide⟩,
   ⟨at0 (ready.modFleet (fun f => { f with replies := [{ src := 1, mtype := 0x23, reqSeq := 4 }], bulkOut := [(5, { peer := 1, tag := 4 })] })), { src := 1, mtype := 0x23, reqSeq := 4 }, 5, { peer := 1, tag := 4 }, rfl, by decide, by decide, by decide, by decide⟩,
   ⟨at0 (ready.modFleet (fun f => { f with bulkOut := [(63, { peer := 1, tag := 4 })] })), 63, { peer := 1, tag := 4 }, rfl, by decide, by decide⟩,
   ⟨at0 (ready.modFleet (fun f => { f with
    colls := [{ src := 1, mtype := 0x30, rtag := 14 }]
    len := [2, 1, 1, 1, 1, 1, 1, 1] })), { src := 1, mtype := 0x30, rtag := 14 }, rfl, by decide, by decide, by decide, by decide +kernel, by decide, by decide⟩,
   ⟨at0 ((ready.modMgmt (fun m => { m with wafer := 1 })).modFleet (fun f => { f with
    colls := [{ src := 0, mtype := 0x31, rtag := 14 }]
    len := [2, 1, 1, 1, 1, 1, 1, 1] })), { src := 0, mtype := 0x31, rtag := 14 }, 1, rfl, by decide, by decide, by decide, by decide +kernel⟩,
   ⟨at0 (ready.modFleet (fun f => { f with coll := [(15, {})] })), 15, {}, rfl, by decide⟩⟩

/-- The hypotheses of each clause of ParcelAndTeardownCommands are met together. -/
theorem witness_ParcelAndTeardownCommands :
    (∃ (s : State), s.released ∧ s.blk.ho.job.launched = true ∧ s.blk.ho.policy.interval ≠ 0 ∧ s.blk.hoRuns = true) ∧
    (∃ (s : State) (w : _), s.released ∧ s.blk.ho.job.launched = true ∧ s.blk.hoRuns = true ∧ s.blk.ho.parcel.holder1 = some w ∧ s.blk.taking = none) ∧
    (∃ (s : State), s.released ∧ s.blk.ho.parcel.voting = true ∧ s.blk.ho.job.launched = true) ∧
    (∃ (s : State) (n : _), s.released ∧ s.blk.ho.parcel.stopAt = some n ∧ s.blk.ho.job.launched = true ∧ s.blk.inForce = true) ∧
    (∃ (s : State) (g : _), s.released ∧ s.blk.taking = some g ∧ s.blk.dataDone = true ∧ s.blk.ho.parcel.rooting = false ∧ s.blk.hoRuns = true) ∧
    (∃ (s : State) (g : _), s.released ∧ s.blk.taking = some g ∧ s.blk.ho.parcel.rooting = true ∧ s.blk.ho.parcel.committing = false ∧
      s.blk.ho.parcel.fail1 = false ∧ s.blk.ho.parcel.fail2 = false ∧
      (List.range s.blk.moves.length).all (fun i => s.blk.ho.parcel.done1.contains i) = true ∧
      (List.range s.blk.moves.length).all (fun i => s.blk.ho.parcel.done2.contains i) = true) ∧
    (∃ (s : State) (n : _), s.released ∧ s.blk.ho.parcel.inStop = some n ∧ s.blk.capturing = true ∧ s.blk.ho.parcel.pagesLeft ≠ 0 ∧
      (advTo (n + s.blk.ho.policy.tStop - 100000) s.blk).capturing = true) ∧
    (∃ (s : State) (n : _), s.released ∧ s.blk.ho.parcel.inStop = some n ∧ s.blk.stop.causes = [.parcelStop] ∧ s.blk.stop.latch = false) ∧
    (∃ (s : State), s.released ∧ s.blk.ho.parcel.committing = true) ∧
    (∃ (b : Block) (g : _), b.taking = some g ∧ b.ho.parcel.ans1 = none ∧ b.ho.parcel.ans2 = none) ∧
    (∃ (s : State), s.released ∧ s.blk.ho.parcel.committing = true ∧ s.blk.ho.parcel.ans1 = none) ∧
    (∃ (s : State), s.released ∧ s.blk.ho.parcel.committing = true ∧ s.blk.ho.parcel.ans2 = none) ∧
    (∃ (s : State) (w : BitVec 16) (g : BitVec 32) (h : _), s.released ∧ s.blk.ledger.holds.find? (fun h => h.holdee = w.toNat ∧ h.gen = g.toNat ∧
      ¬ h.committed) = some h) ∧
    (∃ (s : State) (n : _), s.released ∧ s.blk.ho.job.tearing = some n ∧ s.blk.quiet = true) ∧
    (∃ (s : State) (n : _), s.released ∧ s.blk.ho.job.tearing = some n) :=
  ⟨⟨at0 inSlot, rfl, by decide, by decide, by decide⟩,
   ⟨at0 (inSlot.modParcel (fun p => { p with holder1 := some 9 })), 9, rfl, by decide, by decide, by decide, by decide⟩,
   ⟨at0 (inSlot.modParcel (fun p => { p with voting := true })), rfl, by decide, by decide⟩,
   ⟨at0 ((inSlot.modParcel (fun p => { p with stopAt := some 5 })).modStop (fun x => { x with stopped := true })), 5, rfl, by decide, by decide, by decide⟩,
   ⟨at0 (taking (inSlot.modParcel (fun p => { p with done1 := List.range 40, done2 := List.range 40 }))), { state := .capturing }, rfl, by decide, by decide +kernel, by decide, by decide⟩,
   ⟨at0 (taking (inSlot.modParcel (fun p => { p with rooting := true, done1 := List.range 40, done2 := List.range 40 }))), { state := .capturing }, rfl, by decide, by decide, by decide, by decide, by decide, by decide +kernel, by decide +kernel⟩,
   ⟨at0 ((setGen (some { state := .capturing }) inSlot).modParcel (fun p => { p with inStop := some 5, pagesLeft := 1 })), 5, rfl, by decide, by decide, by decide, by decide +kernel⟩,
   ⟨at0 ((inSlot.modParcel (fun p => { p with inStop := some 5 })).modStop (fun x => { x with stopped := true, causes := [.parcelStop] })), 5, rfl, by decide, by decide, by decide⟩,
   ⟨at0 (inSlot.modParcel (fun p => { p with committing := true })), rfl, by decide⟩,
   ⟨(taking inSlot), { state := .capturing }, by decide, by decide, by decide⟩,
   ⟨at0 (inSlot.modParcel (fun p => { p with committing := true })), rfl, by decide, by decide⟩,
   ⟨at0 (inSlot.modParcel (fun p => { p with committing := true })), rfl, by decide, by decide⟩,
   ⟨at0 { ready with ledger := { ready.ledger with holds := [{ holdee := 9, gen := 4 }] } }, 9, 4, { holdee := 9, gen := 4 }, rfl, by decide⟩,
   ⟨at0 (ready.modJob (fun j => { j with tearing := some 5 })), 5, rfl, by decide, by decide⟩,
   ⟨at0 (ready.modJob (fun j => { j with tearing := some 5 })), 5, rfl, by decide⟩⟩

/-- The hypotheses of each clause of ImageCommands are met together. -/
theorem witness_ImageCommands :
    (∃ (s : State) (core : CoreIdx) (p : ImagePacket), s.released ∧ (imgSweep s.blk).imgOpen core.toNat = true ∧
      ((imgSweep s.blk).core core.toNat).lbOn = true ∧ (imgSweep s.blk).attached core.toNat = true ∧ p.imageId = (imgSweep s.blk).ho.image.imageId ∧
      ((imgSweep s.blk).core core.toNat).img.got.contains p.pktIdx.toNat = false) ∧
    (∃ (s : State) (core : CoreIdx) (p : ImagePacket), s.released ∧ (imgSweep s.blk).imgOpen core.toNat = true ∧
      ((imgSweep s.blk).core core.toNat).lbOn = true ∧ (imgSweep s.blk).attached core.toNat = true ∧ p.imageId = (imgSweep s.blk).ho.image.imageId ∧
      ((imgSweep s.blk).core core.toNat).img.got.contains p.pktIdx.toNat = true) ∧
    (∃ (s : State) (r : RegionIdx), s.released ∧ s.blk.ho.image.active = true ∧ maskBit s.blk.ho.image.regions r.toNat = true ∧
      maskBit s.blk.ho.image.ended r.toNat = false ∧ s.blk.ho.image.targets = [] ∧
      maskSet s.blk.ho.image.ended r.toNat true ≠ s.blk.ho.image.regions ∧ s.blk.ho.mail.outst = []) ∧
    (∃ (s : State) (core : CoreIdx) (data : List Byte), s.released ∧ (imgSweep s.blk).imgOpen core.toNat = true ∧
      ((imgSweep s.blk).core core.toNat).lbOn = true ∧ (imgSweep s.blk).imgMissing core.toNat = [] ∧ sha384v data ≠ (imgSweep s.blk).ho.image.digest ∧
      ((imgSweep s.blk).core core.toNat).img.misses = 0) ∧
    (∃ (s : State) (core : CoreIdx) (data : List Byte), s.released ∧ (imgSweep s.blk).imgOpen core.toNat = true ∧
      ((imgSweep s.blk).core core.toNat).lbOn = true ∧ (imgSweep s.blk).imgMissing core.toNat = [] ∧ sha384v data = (imgSweep s.blk).ho.image.digest) ∧
    (∃ (s : State) (core : CoreIdx) (p : ImagePacket), s.released ∧ (∀ i ∈ s.blk.ho.image.targets, s.blk.imgOpen i = true → s.blk.imgLost i = false) ∧
      s.blk.imgOpen core.toNat = true ∧ (s.blk.core core.toNat).lbOn = true ∧ s.blk.attached core.toNat = true ∧ p.imageId = s.blk.ho.image.imageId ∧
      (s.blk.core core.toNat).img.got.contains p.pktIdx.toNat = false) ∧
    (∃ (s : State) (core : CoreIdx) (p : ImagePacket), s.released ∧ (∀ i ∈ s.blk.ho.image.targets, s.blk.imgOpen i = true → s.blk.imgLost i = false) ∧
      s.blk.imgOpen core.toNat = true ∧ (s.blk.core core.toNat).lbOn = true ∧ s.blk.attached core.toNat = true ∧ p.imageId = s.blk.ho.image.imageId ∧
      (s.blk.core core.toNat).img.got.contains p.pktIdx.toNat = true) ∧
    (∃ (s : State) (r : RegionIdx), s.released ∧ (∀ i ∈ s.blk.ho.image.targets, s.blk.imgOpen i = true → s.blk.imgLost i = false) ∧
      s.blk.ho.image.active = true ∧ maskBit s.blk.ho.image.regions r.toNat = true ∧ maskBit s.blk.ho.image.ended r.toNat = false ∧
      maskSet s.blk.ho.image.ended r.toNat true ≠ s.blk.ho.image.regions ∧ s.blk.ho.image.targets.any s.blk.imgOpen = true ∧
      (∀ i ∈ s.blk.ho.image.targets, regionOf i = r.toNat → s.blk.imgOpen i = true → s.blk.imgMissing i = [] ∨ (s.blk.core i).img.again = false ∧
      s.blk.ho.image.round < 8)) ∧
    (∃ (s : State) (core : CoreIdx) (data : List Byte), s.released ∧ (∀ i ∈ s.blk.ho.image.targets, s.blk.imgOpen i = true → s.blk.imgLost i = false) ∧
      s.blk.imgOpen core.toNat = true ∧ (s.blk.core core.toNat).lbOn = true ∧ s.blk.imgMissing core.toNat = [] ∧
      sha384v data ≠ s.blk.ho.image.digest ∧ (s.blk.core core.toNat).img.misses = 0) ∧
    (∃ (s : State) (core : CoreIdx) (data : List Byte), s.released ∧ (∀ i ∈ s.blk.ho.image.targets, s.blk.imgOpen i = true → s.blk.imgLost i = false) ∧
      s.blk.imgOpen core.toNat = true ∧ (s.blk.core core.toNat).lbOn = true ∧ s.blk.imgMissing core.toNat = [] ∧
      sha384v data = s.blk.ho.image.digest ∧ s.blk.mayRelease = false ∧ s.blk.ho.mail.outst = []) :=
  ⟨⟨at0 (imaging [1, 2]), 0, { pktIdx := 0, imageId := 7, bytes := 0 }, rfl, by decide +kernel, by decide +kernel, by decide +kernel, by decide +kernel, by decide +kernel⟩,
   ⟨at0 ((imaging [1, 2]).modCore 0 (fun c => { c with img := { got := [0] } })), 0, { pktIdx := 0, imageId := 7, bytes := 0 }, rfl, by decide +kernel, by decide +kernel, by decide +kernel, by decide +kernel, by decide +kernel⟩,
   ⟨at0 (ready.modImage (fun x => { x with active := true, regions := 3 })), 0, rfl, by decide, by decide, by decide, by decide, by decide, by decide⟩,
   ⟨at0 ((imaging [1, 2]).modCore 0 (fun c => { c with img := { got := [0] } })), 0, [1], rfl, by decide +kernel, by decide +kernel, by decide +kernel, by decide +kernel, by decide +kernel⟩,
   ⟨at0 ((imaging [1, 2]).modCore 0 (fun c => { c with img := { got := [0] } })), 0, [1, 2], rfl, by decide +kernel, by decide +kernel, by decide +kernel, rfl⟩,
   ⟨at0 (imaging [1, 2]), 0, { pktIdx := 0, imageId := 7, bytes := 0 }, rfl, by decide +kernel, by decide +kernel, by decide +kernel, by decide +kernel, by decide +kernel, by decide +kernel⟩,
   ⟨at0 ((imaging [1, 2]).modCore 0 (fun c => { c with img := { got := [0] } })), 0, { pktIdx := 0, imageId := 7, bytes := 0 }, rfl, by decide +kernel, by decide +kernel, by decide +kernel, by decide +kernel, by decide +kernel, by decide +kernel⟩,
   ⟨at0 ((imaging [1, 2]).modImage (fun x => { x with regions := 3 })), 0, rfl, by decide +kernel, by decide +kernel, by decide +kernel, by decide +kernel, by decide +kernel, by decide +kernel, by decide +kernel⟩,
   ⟨at0 ((imaging [1, 2]).modCore 0 (fun c => { c with img := { got := [0] } })), 0, [9], rfl, by decide +kernel, by decide +kernel, by decide +kernel, by decide +kernel, by decide +kernel, by decide +kernel⟩,
   ⟨at0 { ((imaging [1, 2]).modCore 0 (fun c => { c with img := { got := [0] } })).modJob (fun j => { j with man := some { slotLen := 1000000 }, launched := true, inSlot := true, shift := 1000 }) with pm := { powered := true, count := 5, state := .loaded } }, 0, [1, 2], rfl, by decide +kernel, by decide +kernel, by decide +kernel, by decide +kernel, by decide +kernel, by decide +kernel, by decide +kernel⟩⟩

/-- The hypotheses of each clause of IdentityLetters are met together. -/
theorem witness_IdentityLetters :
    (∃ (s : State) (ring : BitVec 6) (l : Letter), s.released ∧ s.blk.carries ring.toNat 0x001 l ∧ fld (l.p 0 1) 0 4 ≤ 1 ∧ 1 ≤ fld (l.p 0 1) 4 4) ∧
    (∃ (s : State) (ring : BitVec 6) (l : Letter), s.released ∧ s.blk.carries ring.toNat 0x001 l ∧ (1 < fld (l.p 0 1) 0 4 ∨ fld (l.p 0 1) 4 4 = 0)) ∧
    (∃ (s : State) (ring : BitVec 6) (l : Letter), s.released ∧ s.blk.carries ring.toNat 0x002 l) ∧
    (∃ (s : State) (ring : BitVec 6) (l : Letter), s.released ∧ s.blk.carries ring.toNat 0x003 l) ∧
    (∃ (s : State) (ring : BitVec 6) (l : Letter), s.released ∧ s.blk.carries ring.toNat 0x004 l) :=
  ⟨⟨at0 (post 0x001 [0x11] (ready)), 0, ltr 0x001 [0x11], rfl, by unfold Block.carries; decide +kernel, by decide, by decide⟩,
   ⟨at0 (post 0x001 [0x02] (ready)), 0, ltr 0x001 [0x02], rfl, by unfold Block.carries; decide +kernel, by decide⟩,
   ⟨at0 (post 0x002 [] (ready)), 0, ltr 0x002 [], rfl, by unfold Block.carries; decide +kernel⟩,
   ⟨at0 (post 0x003 [] (ready)), 0, ltr 0x003 [], rfl, by unfold Block.carries; decide +kernel⟩,
   ⟨at0 (post 0x004 [] (ready)), 0, ltr 0x004 [], rfl, by unfold Block.carries; decide +kernel⟩⟩

/-- The hypotheses of each clause of JobLetters are met together. -/
theorem witness_JobLetters :
    (∃ (s : State) (ring : BitVec 6) (data : Option (List Byte)) (l : Letter) (d : List Byte) (n : _), s.released ∧ s.blk.carries ring.toNat 0x101 l ∧
      s.blk.svc.state = .ready ∧ s.blk.ho.job.man = none ∧ s.blk.hostRead data (l.p 8 8) = some d ∧ sha384v d = BitVec.ofNat 384 (l.p 16 48) ∧
      mayExceed (parseManifest d) = false ∧ manifestFault s.blk d (parseManifest d) (freshBit s.blk).1 = none ∧
      (loadManifest (parseManifest d) s.blk).tMin = some n) ∧
    (∃ (s : State) (ring : BitVec 6) (data : Option (List Byte)) (l : Letter) (d : List Byte), s.released ∧ s.blk.carries ring.toNat 0x101 l ∧
      s.blk.svc.state = .ready ∧ s.blk.ho.job.man = none ∧ s.blk.hostRead data (l.p 8 8) = some d ∧ sha384v d ≠ BitVec.ofNat 384 (l.p 16 48)) ∧
    (∃ (s : State) (ring : BitVec 6) (l : _), s.released ∧ s.blk.carries ring.toNat 0x102 l ∧ s.blk.ho.job.man.isSome = true ∧ s.blk.inJob = false ∧
      s.blk.pm.state = .loaded ∧ l.p 0 8 % 1000 = 0 ∧ s.blk.now + 2000000 ≤ l.p 0 8 ∧ s.blk.unscreenedRoles ≤ s.blk.ho.policy.unscreenedLimit ∧
      (∀ i ∈ s.blk.workCores, s.blk.attached i = true)) ∧
    (∃ (s : State) (ring : BitVec 6) (l : _) (missing : List CoreIdx) (i : Nat), s.released ∧ s.blk.carries ring.toNat 0x102 l ∧
      s.blk.ho.job.man.isSome = true ∧ s.blk.inJob = false ∧ s.blk.pm.state = .loaded ∧ l.p 0 8 % 1000 = 0 ∧ s.blk.now + 2000000 ≤ l.p 0 8 ∧
      s.blk.unscreenedRoles ≤ s.blk.ho.policy.unscreenedLimit ∧ i ∈ s.blk.workCores ∧ (missing.map (·.toNat)).contains i = true) ∧
    (∃ (s : State) (ring : BitVec 6) (l : Letter), s.released ∧ s.blk.carries ring.toNat 0x102 l ∧ s.blk.ho.job.man.isSome = true ∧ s.blk.inJob = false ∧
      s.blk.pm.state = .loaded ∧ l.p 0 8 % 1000 = 0 ∧ l.p 0 8 < s.blk.now + 2000000) ∧
    (∃ (s : State) (ring : BitVec 6) (l : Letter), s.released ∧ s.blk.carries ring.toNat 0x103 l ∧ l.p 0 8 % 1000 = 0 ∧ s.blk.now + 200000 ≤ l.p 0 8) ∧
    (∃ (s : State) (ring : BitVec 6) (l : Letter), s.released ∧ s.blk.carries ring.toNat 0x104 l) ∧
    (∃ (s : State) (ring : BitVec 6) (l : Letter), s.released ∧ s.blk.carries ring.toNat 0x105 l ∧ s.blk.env.stopInN = true) ∧
    (∃ (s : State) (ring : BitVec 6) (l : Letter), s.released ∧ s.blk.carries ring.toNat 0x105 l ∧ s.blk.env.stopInN = false) ∧
    (∃ (s : State) (ring : BitVec 6) (l : Letter), s.released ∧ s.blk.carries ring.toNat 0x106 l) ∧
    (∃ (s : State) (ring : BitVec 6) (l : Letter), s.released ∧ s.blk.carries ring.toNat 0x107 l ∧ 1000 ≤ l.p 8 4 ∧ l.p 8 4 ≤ 1000000000 ∧
      s.blk.inJob = false) ∧
    (∃ (s : State) (ring : BitVec 6) (l : Letter), s.released ∧ s.blk.carries ring.toNat 0x107 l ∧ (l.p 8 4 < 1000 ∨ 1000000000 < l.p 8 4)) :=
  ⟨⟨at0 (post 0x101 (loadParams man0) ready), 0, some man0, ltr 0x101 (loadParams man0), man0, 8002000, rfl, by unfold Block.carries; decide +kernel, by decide, by decide, by decide +kernel, by decide +kernel, by decide +kernel, by decide +kernel, by decide +kernel⟩,
   ⟨at0 (post 0x101 [] ready), 0, some [], ltr 0x101 [], [], rfl, by unfold Block.carries; decide +kernel, by decide, by decide, by decide +kernel, by decide +kernel⟩,
   ⟨at0 (post 0x102 (le 8 3000000) ({ (ready.modJob (fun j => { j with man := some {} })) with svc := { ready.svc with state := .job } })), 0, ltr 0x102 (le 8 3000000), rfl, by unfold Block.carries; decide +kernel, by decide, by decide, by decide, by decide, by decide, by decide, by decide⟩,
   ⟨at0 (post 0x102 (le 8 3000000) ({ ((withSpare withRole).modJob (fun j => { j with man := some {} })) with svc := { ready.svc with state := .job } })), 0, ltr 0x102 (le 8 3000000), [0], 0, rfl, by unfold Block.carries; decide +kernel, by decide, by decide, by decide, by decide, by decide, by decide +kernel, by decide +kernel, by decide⟩,
   ⟨at0 (post 0x102 (le 8 2999000) ({ (ready.modJob (fun j => { j with man := some {} })) with svc := { ready.svc with state := .job } })), 0, ltr 0x102 (le 8 2999000), rfl, by unfold Block.carries; decide +kernel, by decide, by decide, by decide, by decide, by decide⟩,
   ⟨at0 (post 0x103 (le 8 1200000) (inSlot)), 0, ltr 0x103 (le 8 1200000), rfl, by unfold Block.carries; decide +kernel, by decide, by decide⟩,
   ⟨at0 (post 0x104 [] (ready)), 0, ltr 0x104 [], rfl, by unfold Block.carries; decide +kernel⟩,
   ⟨at0 (post 0x105 [] ({ ready with env := { ready.env with stopInN := true } })), 0, ltr 0x105 [], rfl, by unfold Block.carries; decide +kernel, by decide⟩,
   ⟨at0 (post 0x105 [] ({ ready with env := { ready.env with stopInN := false } })), 0, ltr 0x105 [], rfl, by unfold Block.carries; decide +kernel, by decide⟩,
   ⟨at0 (post 0x106 [] (inSlot)), 0, ltr 0x106 [], rfl, by unfold Block.carries; decide +kernel⟩,
   ⟨at0 (post 0x107 (le 8 0 ++ le 4 1000000000) (ready)), 0, ltr 0x107 (le 8 0 ++ le 4 1000000000), rfl, by unfold Block.carries; decide +kernel, by decide, by decide, by decide⟩,
   ⟨at0 (post 0x107 (le 8 0 ++ le 4 999) (ready)), 0, ltr 0x107 (le 8 0 ++ le 4 999), rfl, by unfold Block.carries; decide +kernel, .inl (by decide +kernel)⟩⟩

/-- The hypotheses of each clause of ScreeningLetters are met together. -/
theorem witness_ScreeningLetters :
    (∃ (s : State) (ring : BitVec 6) (l : _), s.released ∧ s.blk.carries ring.toNat 0x201 l ∧ s.blk.inJob = false ∧ 1 ≤ l.p 1 1 ∧ l.p 1 1 ≤ 16 ∧
      l.p 0 1 + l.p 1 1 ≤ 16 ∧ (∀ i, i < l.p 1 1 → fmtOk (BitVec.ofNat 64 (l.p (4 + 8 * i) 8)) = true) ∧
      (∀ i ∈ s.blk.liveCores, s.blk.attached i = true)) ∧
    (∃ (s : State) (ring : BitVec 6) (l : _), s.released ∧ s.blk.carries ring.toNat 0x201 l ∧ s.blk.inJob = false ∧ 1 ≤ l.p 1 1 ∧ l.p 1 1 ≤ 16 ∧
      l.p 0 1 + l.p 1 1 ≤ 16 ∧ (∀ i, i < l.p 1 1 → fmtOk (BitVec.ofNat 64 (l.p (4 + 8 * i) 8)) = true)) ∧
    (∃ (s : State) (ring : BitVec 6) (l : Letter), s.released ∧ s.blk.carries ring.toNat 0x201 l ∧ s.blk.inJob = true) ∧
    (∃ (s : State) (ring : BitVec 6) (l : Letter), s.released ∧ s.blk.carries ring.toNat 0x202 l ∧ s.blk.inJob = false ∧ rateOk (l.p 0 1) = true ∧
      rateOk (l.p 1 1) = true ∧ rateOk (l.p 2 1) = true) ∧
    (∃ (s : State) (ring : BitVec 6) (l : Letter), s.released ∧ s.blk.carries ring.toNat 0x203 l ∧ s.blk.inJob = false ∧ l.p 0 1 ≤ 2 ∧ l.p 1 1 ≤ 2 ∧
      l.p 2 1 ≤ 2 ∧ l.p 3 1 ≤ 1 ∧ l.p 4 1 ≤ 2 ∧ l.p 6 1 = 1 ∧ l.p 5 1 ≤ 255 ∧ fld (l.p 8 1) 0 4 ≤ fld (l.p 8 1) 4 4) ∧
    (∃ (s : State) (ring : BitVec 6) (l : Letter), s.released ∧ s.blk.carries ring.toNat 0x301 l ∧ s.blk.inJob = false ∧ 1 ≤ l.p 0 1 ∧ l.p 0 1 ≤ 4) ∧
    (∃ (s : State) (ring : BitVec 6) (l : Letter) (x : StepRec), s.released ∧ s.blk.carries ring.toNat 0x302 l ∧
      s.blk.ho.job.hist.find? (fun x => decide (x.step = l.p 0 4)) = some x) ∧
    (∃ (s : State) (ring : BitVec 6) (l : Letter), s.released ∧ s.blk.carries ring.toNat 0x303 l ∧ l.p 0 4 < 2 ^ 20) :=
  ⟨⟨at0 (post 0x201 ([15, 1, 0, 0] ++ le 8 0) (ready)), 0, ltr 0x201 ([15, 1, 0, 0] ++ le 8 0), rfl, by unfold Block.carries; decide +kernel, by decide, by decide, by decide, by decide, by decide +kernel, by decide +kernel⟩,
   ⟨at0 (post 0x201 ([15, 1, 0, 0] ++ le 8 0) (ready)), 0, ltr 0x201 ([15, 1, 0, 0] ++ le 8 0), rfl, by unfold Block.carries; decide +kernel, by decide, by decide, by decide, by decide, by decide +kernel⟩,
   ⟨at0 (post 0x201 [] (inSlot)), 0, ltr 0x201 [], rfl, by unfold Block.carries; decide +kernel, by decide⟩,
   ⟨at0 (post 0x202 [0, 3, 6] (ready)), 0, ltr 0x202 [0, 3, 6], rfl, by unfold Block.carries; decide +kernel, by decide, by decide, by decide, by decide⟩,
   ⟨at0 (post 0x203 [1, 0, 1, 0, 0, 8, 1, 0, 0x10] (ready)), 0, ltr 0x203 [1, 0, 1, 0, 0, 8, 1, 0, 0x10], rfl, by unfold Block.carries; decide +kernel, by decide, by decide, by decide, by decide, by decide, by decide, by decide, by decide, by decide⟩,
   ⟨at0 (post 0x301 [4] (ready)), 0, ltr 0x301 [4], rfl, by unfold Block.carries; decide +kernel, by decide, by decide, by decide⟩,
   ⟨at0 (post 0x302 (le 4 7) (ready.modJob (fun j => { j with hist := [{ step := 7 }] }))), 0, ltr 0x302 (le 4 7), { step := 7 }, rfl, by unfold Block.carries; decide +kernel, rfl⟩,
   ⟨at0 (post 0x303 (le 4 0xFFFFF) (ready)), 0, ltr 0x303 (le 4 0xFFFFF), rfl, by unfold Block.carries; decide +kernel, by decide⟩⟩

/-- The hypotheses of each clause of TestLetters are met together. -/
theorem witness_TestLetters :
    (∃ (s : State) (ring : BitVec 6) (l : Letter), s.released ∧ s.blk.carries ring.toNat 0x401 l ∧ s.blk.inJob = false ∧ 8 ≤ l.p 0 2 ∧
      l.p 0 2 ≤ 400 ∧ s.blk.longestUnit ≤ 1000 * l.p 0 2 ∧ l.p 3 1 ≤ 1 ∧ 1 ≤ l.p 4 1 ∧ l.p 4 1 ≤ 168 ∧ l.p 5 1 ≤ 1) ∧
    (∃ (s : State) (ring : BitVec 6) (l : Letter) (b : Block), s.released ∧ s.blk.carries ring.toNat 0x402 l ∧ s.blk.inJob = false ∧
      l.p 17 1 ≤ 1 ∧ s.blk.outOp 0x402 = false ∧
      b = answerInterim ring.toNat l [] [0, 0, 0] (forEach (s.blk.popRegions.filter (fun r => bit (l.p 0 16) r)) (fun r b => b.modOffice r (fun o => { o with sweepq := b.sweepCores r (decide (l.p 17 1 = 1)) })) s.blk)) ∧
    (∃ (s : State) (ring : BitVec 6) (l : Letter), s.released ∧ s.blk.carries ring.toNat 0x403 l ∧ s.blk.inJob = false ∧ l.p 0 4 < 2 ^ 20 ∧
      s.blk.coreState (l.p 0 4) = .fenced ∧ tget s.blk.ho.bm.blocked (l.p 0 4) = none ∧ (s.blk.hist (l.p 0 4)).fences = 1) ∧
    (∃ (s : State) (ring : BitVec 6) (l : Letter), s.released ∧ s.blk.carries ring.toNat 0x403 l ∧ s.blk.inJob = false ∧
      (s.blk.hist (l.p 0 4)).fences ≠ 1) ∧
    (∃ (s : State) (ring : BitVec 6) (l : Letter), s.released ∧ s.blk.carries ring.toNat 0x404 l ∧ l.p 0 1 < 16 ∧ s.blk.capturing = false ∧
      (s.blk.courier (l.p 0 1)).powered = true ∧ (s.blk.courier (l.p 0 1)).domFail = false) ∧
    (∃ (s : State) (ring : BitVec 6) (l : Letter), s.released ∧ s.blk.carries ring.toNat 0x404 l ∧ l.p 0 1 < 16 ∧ s.blk.capturing = false ∧
      (s.blk.courier (l.p 0 1)).powered = true ∧ (s.blk.courier (l.p 0 1)).domFail = false) ∧
    (∃ (s : State) (ring : BitVec 6) (l : Letter), s.released ∧ s.blk.carries ring.toNat 0x405 l ∧ s.blk.populated (l.p 0 1) = true) ∧
    (∃ (s : State) (ring : BitVec 6) (pp : _) (tp : _) (l : Letter) (b : Block), s.released ∧ s.blk.carries ring.toNat 0x406 l ∧
      s.blk.inJob = false ∧ l.p 0 1 < 16 ∧
      b = courierTested (l.p 0 1) pp tp ((portStop (l.p 0 1) s.blk).setCourier (l.p 0 1) { linkUp := ((portStop (l.p 0 1) s.blk).courier (l.p 0 1)).linkUp })) :=
  ⟨⟨at0 (post 0x401 (le 2 400 ++ [4, 1, 168, 1]) (ready)), 0, ltr 0x401 (le 2 400 ++ [4, 1, 168, 1]), rfl, by unfold Block.carries; decide +kernel, by decide, by decide, by decide, by decide +kernel, by decide, by decide, by decide, by decide⟩,
   ⟨at0 (post 0x402 (le 16 1) (ready)), 0, ltr 0x402 (le 16 1), _, rfl, by unfold Block.carries; decide +kernel, by decide, by decide, by decide, rfl⟩,
   ⟨at0 (post 0x403 (le 4 3) ({ ready with ledger := { ready.ledger with hist := [(1048575, {}), (3, { st := .fenced, fences := 1 })] } })), 0, ltr 0x403 (le 4 3), rfl, by unfold Block.carries; decide +kernel, by decide, by decide, by decide +kernel, by decide, by decide⟩,
   ⟨at0 (post 0x403 (le 4 2) ({ ready with ledger := { ready.ledger with hist := [(1048575, {}), (3, { st := .fenced, fences := 1 })] } })), 0, ltr 0x403 (le 4 2), rfl, by unfold Block.carries; decide +kernel, by decide, by decide⟩,
   ⟨at0 (post 0x404 [0] (ready)), 0, ltr 0x404 [0], rfl, by unfold Block.carries; decide +kernel, by decide, by decide, by decide, by decide⟩,
   ⟨at0 (post 0x404 [0] (ready)), 0, ltr 0x404 [0], rfl, by unfold Block.carries; decide +kernel, by decide, by decide, by decide, by decide⟩,
   ⟨at0 (post 0x405 [0] (ready)), 0, ltr 0x405 [0], rfl, by unfold Block.carries; decide +kernel, by decide⟩,
   ⟨at0 (post 0x406 [15] (ready)), 0, true, true, ltr 0x406 [15], _, rfl, by unfold Block.carries; decide +kernel, by decide, by decide, rfl⟩⟩

/-- The hypotheses of each clause of NetworkAndParcelLetters are met together. -/
theorem witness_NetworkAndParcelLetters :
    (∃ (s : State) (ring : BitVec 6) (l : Letter), s.released ∧ s.blk.carries ring.toNat 0x501 l ∧ s.blk.inJob = false ∧ (∀ r, r < 8 → l.p r 1 ≠ 0) ∧
      fleetSize ((List.range 8).map (fun r => l.p r 1)) ≤ 32768 ∧ ((List.range 8).map (fun r => l.p r 1)).foldl (fun a x => a + x / 2) 0 ≤ 24 ∧
      l.p 8 2 < fleetSize ((List.range 8).map (fun r => l.p r 1))) ∧
    (∃ (s : State) (ring : BitVec 6) (l : Letter), s.released ∧ s.blk.carries ring.toNat 0x502 l ∧ s.blk.capturing = false) ∧
    (∃ (s : State) (ring : BitVec 6) (l : Letter), s.released ∧ s.blk.carries ring.toNat 0x502 l ∧ s.blk.capturing = true) ∧
    (∃ (s : State) (ring : BitVec 6) (l : Letter), s.released ∧ s.blk.carries ring.toNat 0x503 l ∧ 1 ≤ l.p 2 1 ∧ l.p 2 1 ≤ 6) ∧
    (∃ (s : State) (ring : BitVec 6) (l : Letter), s.released ∧ s.blk.carries ring.toNat 0x601 l ∧ s.blk.inJob = false ∧ s.blk.ho.job.man = none ∧
      (l.p 0 2 = 0 ∨ (5 ≤ l.p 0 2 ∧ l.p 0 2 ≤ 1440)) ∧ 1 ≤ l.p 2 1 ∧ l.p 2 1 ≤ 8 ∧ l.p 4 4 % 1000 = 0 ∧ l.p 4 4 ≤ 45000000) ∧
    (∃ (s : State) (ring : BitVec 6) (l : Letter), s.released ∧ s.blk.carries ring.toNat 0x602 l) ∧
    (∃ (s : State) (ring : BitVec 6) (l : Letter), s.released ∧ s.blk.carries ring.toNat 0x610 l ∧
      s.blk.ledger.holds.find? (fun h => decide (h.holdee = l.holdee) && decide (h.gen = l.p 0 4) && !h.committed) = none ∧
      s.blk.pagesHeld + l.p 8 4 ≤ s.blk.ho.policy.holderCap * 262144) ∧
    (∃ (s : State) (ring : BitVec 6) (l : Letter), s.released ∧ s.blk.carries ring.toNat 0x610 l ∧
      s.blk.ledger.holds.find? (fun h => decide (h.holdee = l.holdee) && decide (h.gen = l.p 0 4) && !h.committed) = none ∧
      s.blk.ho.policy.holderCap * 262144 < s.blk.pagesHeld + l.p 8 4) ∧
    (∃ (s : State) (ring : BitVec 6) (l : Letter) (h : HoldRec), s.released ∧ s.blk.carries ring.toNat 0x611 l ∧
      s.blk.ledger.holds.find? (fun h => decide (h.holdee = l.holdee) && decide (h.gen = l.p 0 4)) = some h ∧ h.epoch = l.p 4 2 ∧ h.pages = l.p 8 4 ∧
      h.committed = false) ∧
    (∃ (s : State) (ring : BitVec 6) (l : Letter) (hs : List HoldRec), s.released ∧ s.blk.carries ring.toNat 0x612 l ∧
      hs = s.blk.ledger.holds.filter (fun h => decide (h.holdee = l.p 0 2) && h.committed)) ∧
    (∃ (s : State) (ring : BitVec 6) (l : Letter), s.released ∧ s.blk.carries ring.toNat 0x613 l) ∧
    (∃ (s : State) (ring : BitVec 6) (a : RestoreAnswers) (l : _) (root : _), s.released ∧ s.blk.carries ring.toNat 0x620 l ∧
      s.blk.ho.job.man.isSome = true ∧ s.blk.inJob = false ∧
      chooseRoot (if l.p 0 2 = s.blk.wafer then ((s.blk.ledger.gens.find? (fun g => decide (g.gen = l.p 4 4))).map (·.root)).getD 0 else BitVec.ofNat 384 (l.p 12 48)) a.root1 a.root2 = .use root [false, true] false false ∧
      (List.range 16).any (fun p => s.blk.portUp p) = true ∧ sha384v a.head1.flatten = root ∧ restoreMapOk s.blk a.head1.flatten a.records = true ∧
      (∀ i, i < (pageKinds a.head1.flatten).length → pageWhole a.head1.flatten i (a.data1.getD i []) = true ∨ pageWhole a.head1.flatten i (a.data2.getD i []) = true) ∧
      (∀ i, i < (pageKinds a.head1.flatten).length → lnat (pageKinds a.head1.flatten) i ≠ 4 → pageWhole a.head1.flatten i (a.back1.getD i []) = true)) ∧
    (∃ (s : State) (ring : BitVec 6) (a : RestoreAnswers) (l : Letter) (d : _), s.released ∧ s.blk.carries ring.toNat 0x620 l ∧
      s.blk.ho.job.man.isSome = true ∧ s.blk.inJob = false ∧
      chooseRoot (if l.p 0 2 = s.blk.wafer then ((s.blk.ledger.gens.find? (fun g => decide (g.gen = l.p 4 4))).map (·.root)).getD 0 else BitVec.ofNat 384 (l.p 12 48)) a.root1 a.root2 = .fail d) :=
  ⟨⟨at0 (post 0x501 ([16, 16, 16, 1, 1, 1, 1, 1] ++ le 2 4095) (ready)), 0, ltr 0x501 ([16, 16, 16, 1, 1, 1, 1, 1] ++ le 2 4095), rfl, by unfold Block.carries; decide +kernel, by decide, by decide +kernel, by decide +kernel, by decide +kernel, by decide +kernel⟩,
   ⟨at0 (post 0x502 [] (ready)), 0, ltr 0x502 [], rfl, by unfold Block.carries; decide +kernel, by decide⟩,
   ⟨at0 (post 0x502 [] ((setGen (some { state := .capturing }) ready))), 0, ltr 0x502 [], rfl, by unfold Block.carries; decide +kernel, by decide⟩,
   ⟨at0 (post 0x503 [0, 0, 6] (ready)), 0, ltr 0x503 [0, 0, 6], rfl, by unfold Block.carries; decide +kernel, by decide, by decide⟩,
   ⟨at0 (post 0x601 (le 2 1440 ++ [8, 0] ++ le 4 45000000) (ready)), 0, ltr 0x601 (le 2 1440 ++ [8, 0] ++ le 4 45000000), rfl, by unfold Block.carries; decide +kernel, by decide, by decide, .inr (by decide +kernel), by decide, by decide, by decide, by decide⟩,
   ⟨at0 (post 0x602 [] (ready)), 0, ltr 0x602 [], rfl, by unfold Block.carries; decide +kernel⟩,
   ⟨at0 (post 0x610 (le 4 7 ++ le 4 0 ++ le 4 262144) ((ready.modPolicy (fun p => { p with holderCap := 1 })))), 0, ltr 0x610 (le 4 7 ++ le 4 0 ++ le 4 262144), rfl, by unfold Block.carries; decide +kernel, by decide, by decide⟩,
   ⟨at0 (post 0x610 (le 4 7 ++ le 4 0 ++ le 4 262145) ((ready.modPolicy (fun p => { p with holderCap := 1 })))), 0, ltr 0x610 (le 4 7 ++ le 4 0 ++ le 4 262145), rfl, by unfold Block.carries; decide +kernel, by decide, by decide⟩,
   ⟨at0 (post 0x611 (le 4 7 ++ le 2 1 ++ le 2 0 ++ le 4 5) ({ ready with ledger := { ready.ledger with holds := [{ gen := 7, epoch := 1, pages := 5 }] } })), 0, ltr 0x611 (le 4 7 ++ le 2 1 ++ le 2 0 ++ le 4 5), { gen := 7, epoch := 1, pages := 5 }, rfl, by unfold Block.carries; decide +kernel, rfl, by decide, by decide, by decide⟩,
   ⟨at0 (post 0x612 [] (ready)), 0, ltr 0x612 [], _, rfl, by unfold Block.carries; decide +kernel, rfl⟩,
   ⟨at0 (post 0x613 [] (ready)), 0, ltr 0x613 [], rfl, by unfold Block.carries; decide +kernel⟩,
   ⟨at0 (post 0x620 [] (ready.modJob (fun j => { j with man := some {} }))), 0, restore0 (sha384v [0]), ltr 0x620 [], sha384v [0], rfl, by unfold Block.carries; decide +kernel, by decide, by decide, by decide +kernel, by decide +kernel, by decide +kernel, by decide +kernel, by decide +kernel, by decide +kernel⟩,
   ⟨at0 (post 0x620 [] (ready.modJob (fun j => { j with man := some {} }))), 0, restore0 0, ltr 0x620 [], _, rfl, by unfold Block.carries; decide +kernel, by decide, by decide, rfl⟩⟩

/-- The hypotheses of each clause of ResetAndImageLetters are met together. -/
theorem witness_ResetAndImageLetters :
    (∃ (s : State) (ring : BitVec 6) (l : Letter), s.released ∧ s.blk.carries ring.toNat 0x701 l ∧ s.blk.escalates = false) ∧
    (∃ (s : State) (ring : BitVec 6) (l : Letter), s.released ∧ s.blk.carries ring.toNat 0x701 l ∧ s.blk.escalates = true) ∧
    (∃ (s : State) (ring : BitVec 6) (l : Letter), s.released ∧ s.blk.carries ring.toNat 0x702 l) ∧
    (∃ (s : State) (ring : BitVec 6) (l : Letter), s.released ∧ s.blk.carries ring.toNat 0x703 l ∧ s.blk.inJob = false ∧ 1 ≤ l.p 0 1 ∧
      l.p 0 1 ≤ 15 ∧ l.p 1 1 ≤ 1 ∧ 1 ≤ l.p 2 2 ∧ l.p 2 2 ≤ 1440) ∧
    (∃ (s : State) (ring : BitVec 6) (data : Option (List Byte)) (l : Letter) (d : List Byte) (c : _) (b : Block), s.released ∧
      s.blk.carries ring.toNat 0x901 l ∧ s.blk.inJob = false ∧ l.p 8 4 % 16 = 0 ∧ l.p 8 4 ≤ 786432 ∧ l.p 80 1 ≤ 1 ∧ s.blk.cfg = some c ∧
      c.images = true ∧ s.blk.hostRead data (l.p 8 4) = some d ∧ sha384v d = BitVec.ofNat 384 (l.p 16 48) ∧ s.blk.outOp 0x901 = false ∧
      b = answerInterim ring.toNat l [] [] ((clearImages s.blk).modImage (fun _ => { active := true, bytes := d, digest := sha384v d, imageId := BitVec.ofNat 16 l.seq, round := 1, regions := BitVec.ofNat 128 (l.p 64 16 &&& (clearImages s.blk).regionMask), targets := (clearImages s.blk).imageTargets (BitVec.ofNat 128 (l.p 64 16 &&& (clearImages s.blk).regionMask)) (decide (l.p 80 1 = 1)) }))) ∧
    (∃ (s : State) (ring : BitVec 6) (l : Letter), s.released ∧ s.blk.carries ring.toNat 0x902 l) ∧
    (∃ (s : State) (ring : BitVec 6) (l : Letter), s.released ∧ s.blk.carries ring.toNat 0x903 l ∧ s.blk.ho.image.active = true) ∧
    (∃ (s : State) (ring : BitVec 6) (l : Letter), s.released ∧ s.blk.carries ring.toNat 0x903 l ∧ s.blk.ho.image.active = false) :=
  ⟨⟨at0 (post 0x701 [] (ready)), 0, ltr 0x701 [], rfl, by unfold Block.carries; decide +kernel, by decide⟩,
   ⟨at0 (post 0x701 [] ({ ready with ho := { resets := { warmAt := [999997, 999998, 999999] } } })), 0, ltr 0x701 [], rfl, by unfold Block.carries; decide +kernel, by decide⟩,
   ⟨at0 (post 0x702 [] (ready)), 0, ltr 0x702 [], rfl, by unfold Block.carries; decide +kernel⟩,
   ⟨at0 (post 0x703 ([15, 1] ++ le 2 1440) (ready)), 0, ltr 0x703 ([15, 1] ++ le 2 1440), rfl, by unfold Block.carries; decide +kernel, by decide, by decide, by decide, by decide, by decide, by decide⟩,
   ⟨at0 (post 0x901 imgParams ready), 0, some (List.replicate 16 5), ltr 0x901 imgParams, List.replicate 16 5, cfg0, _, rfl, by unfold Block.carries; decide +kernel, by decide, by decide +kernel, by decide +kernel, by decide +kernel, rfl, by decide, by decide +kernel, by decide +kernel, by decide, rfl⟩,
   ⟨at0 (post 0x902 [] (ready)), 0, ltr 0x902 [], rfl, by unfold Block.carries; decide +kernel⟩,
   ⟨at0 (post 0x903 [] (imaging [1])), 0, ltr 0x903 [], rfl, by unfold Block.carries; decide +kernel, by decide⟩,
   ⟨at0 (post 0x903 [] (ready)), 0, ltr 0x903 [], rfl, by unfold Block.carries; decide +kernel, by decide⟩⟩

/-- The hypotheses of each clause of DebugCommands are met together. -/
theorem witness_DebugCommands :
    (∃ (s : State) (ring : BitVec 6) (l : Letter), s.released ∧ s.blk.carries ring.toNat 0x801 l ∧ l.p 0 4 ≤ l.p 4 4 ∧ l.p 4 4 < 2 ^ 20 ∧
      l.p 8 1 ≤ 15 ∧ counterCode (l.p 10 2) = true) ∧
    (∃ (s : State) (ring : BitVec 6) (l : Letter), s.released ∧ s.blk.carries ring.toNat 0x802 l ∧ s.blk.present (l.p 0 4) = true ∧
      (s.blk.core (l.p 0 4)).porN = true) ∧
    (∃ (s : State) (ring : BitVec 6) (l : Letter), s.released ∧ s.blk.carries ring.toNat 0x803 l ∧ fld (l.p 0 8) 10 2 ≠ 3) ∧
    (∃ (s : State) (k : _), s.released ∧ s.blk.dbg.matched = some k ∧ fld s.blk.dbg.ctrl.toNat 10 2 ≠ 2) ∧
    (∃ (s : State) (k : _) (b : Block), s.released ∧ s.blk.dbg.matched = some k ∧ fld s.blk.dbg.ctrl.toNat 10 2 = 2 ∧
      s.blk.stop.stopped = false ∧ b = hoEvent evTraceTrigger [] (s.blk.modDebug (fun d => { d with trig := some k, matched := none }))) ∧
    (∃ (s : State) (ring : BitVec 6) (l : Letter) (size : _) (es : _) (bytes : _) (pieces : _) (res : _) (b : Block), s.released ∧
      s.blk.carries ring.toNat 0x804 l ∧ s.blk.exportEntries (l.p 0 1) = some (size, es) ∧ l.p 4 8 % 256 = 0 ∧ s.blk.capturing = false ∧
      64 ≤ l.p 12 8 ∧ s.blk.outOp 0x804 = false ∧
      bytes = s.blk.exportHeader (l.p 0 1) size (min es.length ((l.p 12 8 - 64) / size)) (es.take (min es.length ((l.p 12 8 - 64) / size))).flatten ++ (es.take (min es.length ((l.p 12 8 - 64) / size))).flatten ∧
      pieces = cutPieces (bytes.length / 65536 + 2) 0 (l.p 4 8) bytes ∧
      res = le 4 (min es.length ((l.p 12 8 - 64) / size)) ++ le 1 (b01 (decide (min es.length ((l.p 12 8 - 64) / size) < es.length))) ++ [0, 0, 0] ++ le 8 bytes.length ∧
      b = answerInterim ring.toNat l [] [] (s.blk.modDebug (fun d => { d with exporting := some res, exportLeft := pieces.length, exportTodo := pieces })) ∧
      b.outOp 0x804 = true ∧ b.dbg.exporting = some res ∧ b.dbg.exportLeft ≠ 0) :=
  ⟨⟨at0 (post 0x801 (le 4 1048575 ++ le 4 1048575 ++ [15, 0] ++ le 2 0x8223) (ready)), 0, ltr 0x801 (le 4 1048575 ++ le 4 1048575 ++ [15, 0] ++ le 2 0x8223), rfl, by unfold Block.carries; decide +kernel, by decide, by decide, by decide, by decide⟩,
   ⟨at0 (post 0x802 (le 4 3) (ready)), 0, ltr 0x802 (le 4 3), rfl, by unfold Block.carries; decide +kernel, by decide, by decide⟩,
   ⟨at0 (post 0x803 (le 8 0x800) (ready)), 0, ltr 0x803 (le 8 0x800), rfl, by unfold Block.carries; decide +kernel, by decide⟩,
   ⟨at0 (ready.modDebug (fun d => { d with matched := some 2 })), 2, rfl, by decide, by decide⟩,
   ⟨at0 (ready.modDebug (fun d => { d with
    matched := some 2
    ctrl := 0x800 })), 2, _, rfl, by decide, by decide, by decide, rfl⟩,
   ⟨at0 (post 0x804 ([6, 0, 0, 0] ++ le 8 256 ++ le 8 64) ready), 0, ltr 0x804 ([6, 0, 0, 0] ++ le 8 256 ++ le 8 64), _, _, _, _, _, _, rfl, by unfold Block.carries; decide +kernel, rfl, by decide +kernel, by decide, by decide +kernel, by decide, rfl, rfl, rfl, rfl, by decide +kernel, by decide +kernel, by decide +kernel⟩⟩

end Sys2Proof.Tests

end
end

section
/-! The waiting-on descriptor of a core's tap (R66). A WAIT_BEGIN or WAIT_CLEAR writes the descriptor and may then send a
WAIT_UPDATE; sending reaches only the core's Post Network end and its event counters, so the descriptor stays as written. -/

namespace Sys2Proof.Machine

open Sys2Proof

/-! ### Sending a packet touches no core but its network end and its event counters -/

/-- A core apart from its Post Network end and its event counters: its pins, timing, screening, control and image. -/
def Core.offNet (c : Core) : Core := { c with net := {}, ctl := { c.ctl with counters := [] } }

theorem Core.time_of_offNet {c d : Core} (h : c.offNet = d.offNet) : c.time = d.time := (congrArg Core.time h :)

theorem Core.lbOn_of_offNet {c d : Core} (h : c.offNet = d.offNet) : c.lbOn = d.lbOn := (congrArg Core.lbOn h :)

theorem modCore_offNet (i : Nat) (f : Core → Core) (b : Block) (j : Nat) (hf : ∀ c, (f c).offNet = c.offNet) :
    ((b.modCore i f).core j).offNet = (b.core j).offNet := by
  by_cases h : j = i
  · subst h; rw [Block.modCore_self, hf]
  · rw [Block.modCore_ne _ _ h]

@[simp] theorem modNet_offNet (u : Nat) (f : NetEnd → NetEnd) (b : Block) (j : Nat) :
    ((b.modNet u f).core j).offNet = (b.core j).offNet := by
  unfold Block.modNet
  split
  · exact modCore_offNet _ _ b j (fun _ => rfl)
  all_goals rfl

@[simp] theorem bumpCtr_offNet (i code n : Nat) (b : Block) (j : Nat) : ((bumpCtr i code n b).core j).offNet = (b.core j).offNet :=
  modCore_offNet _ _ b j (fun _ => rfl)

@[simp] theorem lbEvent_offNet (i code : Nat) (body : List Byte) (b : Block) (j : Nat) :
    ((lbEvent i code body b).core j).offNet = (b.core j).offNet := by
  rw [lbEvent_core, bumpCtr_offNet]

@[simp] theorem enqueue_offNet (u : Nat) (p : Packet) (b : Block) (j : Nat) : ((enqueue u p b).core j).offNet = (b.core j).offNet := by
  unfold enqueue
  split
  · exact modNet_offNet u _ b j
  · split
    · dsimp only
      split <;> simp only [lbEvent_offNet]
    · rw [bumpCtr_offNet, modNet_offNet]

@[simp] theorem sendKept_offNet (u : Nat) (p : Packet) (b : Block) (j : Nat) : ((sendKept u p b).core j).offNet = (b.core j).offNet := by
  unfold sendKept
  rw [enqueue_offNet, modNet_offNet]

@[simp] theorem sendPktL_offNet (lane : Nat) (fcrc : BitVec 32) (src dst ptype svc ssvc epoch : Nat) (fleet : Bool) (pl : List Flit)
    (b : Block) (j : Nat) : ((sendPktL lane fcrc src dst ptype svc ssvc epoch fleet pl b).core j).offNet = (b.core j).offNet := by
  unfold sendPktL
  split
  · rw [sendKept_offNet, modNet_offNet]
  · rfl

@[simp] theorem unicast_offNet (src dst svc : Nat) (pl : List Flit) (b : Block) (j : Nat) :
    ((unicast src dst svc pl b).core j).offNet = (b.core j).offNet := sendPktL_offNet ..

@[simp] theorem sendStall_offNet (i : Nat) (update : Bool) (b : Block) (j : Nat) :
    ((sendStall i update b).core j).offNet = (b.core j).offNet := by
  unfold sendStall
  split
  · rfl
  · exact unicast_offNet ..

@[simp] theorem waitUpdate_offNet (i : Nat) (b : Block) (j : Nat) : ((waitUpdate i b).core j).offNet = (b.core j).offNet := by
  unfold waitUpdate
  split
  · exact sendStall_offNet i true b j
  · rfl

/-! ### The descriptor after WAIT_BEGIN and WAIT_CLEAR -/

/-- A running Letterbox's WAIT_BEGIN leaves its core as it was but for the new descriptor, its network end and counters. -/
theorem waitBegin_core {i : Nat} {b : Block} (chan peer : Nat) (h : (b.core i).lbOn = true) :
    ((waitBegin i chan peer b).core i).offNet =
      ({ b.core i with time := { (b.core i).time with wait := some (chan, peer), cleared := false } } : Core).offNet := by
  unfold waitBegin modTime
  rw [if_neg (not_not_intro h), waitUpdate_offNet, Block.modCore_self]

/-- A running Letterbox's WAIT_CLEAR leaves its core as it was but for the cleared descriptor, its network end and counters. -/
theorem waitClear_core {i : Nat} {b : Block} (h : (b.core i).lbOn = true) :
    ((waitClear i b).core i).offNet =
      ({ b.core i with
        time := { (b.core i).time with wait := none, cleared := (b.core i).time.wait.isSome || (b.core i).time.cleared } } : Core).offNet := by
  unfold waitClear modTime
  rw [if_neg (not_not_intro h), waitUpdate_offNet, Block.modCore_self]

/-- WAIT_BEGIN completes with the new descriptor held, whatever was held before. -/
theorem exec_waitBegin_wait {s : State} {core : CoreIdx} (chan : BitVec 8) (peer : BitVec 20) (hr : s.released)
    (hl : (s.blk.core core.toNat).lbOn = true) :
    ∃ t, exec (.waitBegin core chan peer) s = .next t ∧ (t.blk.core core.toNat).time.wait = some (chan.toNat, peer.toNat) := by
  have hcore := waitBegin_core chan.toNat peer.toNat hl
  refine act_next hr ?_
  rw [held_core, Core.time_of_offNet hcore]

/-- WAIT_CLEAR completes with no descriptor held, on a block still released and a Letterbox still running. -/
theorem exec_waitClear_wait {s : State} {core : CoreIdx} (hr : s.released) (hl : (s.blk.core core.toNat).lbOn = true) :
    ∃ t, exec (.waitClear core) s = .next t ∧ t.released ∧ (t.blk.core core.toNat).time.wait = none ∧
      (t.blk.core core.toNat).lbOn = true := by
  have hcore := waitClear_core hl
  refine act_next hr ⟨(held_porN _ _).trans hr, ?_, ?_⟩
  · rw [held_core, Core.time_of_offNet hcore]
  · rw [held_core, Core.lbOn_of_offNet hcore]
    exact hl

/-- Settles O15: sending the WAIT_UPDATE keeps the descriptor just written, and WAIT_CLEAR leaves the Letterbox running, so the
WAIT_BEGIN that the model takes after it (log 5) writes its own. -/
theorem waitDescriptorHeld : Obligations.WaitDescriptorHeld := by
  refine ⟨fun s core chan peer hr hl => exec_waitBegin_wait chan peer hr hl, fun s core hr hl => ?_, fun s core chan peer hr hl => ?_⟩
  · obtain ⟨t, ht, -, hwait, hon⟩ := exec_waitClear_wait hr hl
    exact ⟨t, ht, hwait, hon⟩
  · obtain ⟨t, ht, hreleased, -, hon⟩ := exec_waitClear_wait hr hl
    obtain ⟨u, hu, hwait⟩ := exec_waitBegin_wait chan peer hreleased hon
    exact ⟨t, u, ht, hu, hwait⟩

end Sys2Proof.Machine
end

section
/-! The IDCODE word of R130. -/

namespace Sys2Proof.Machine

open Sys2Proof

/-- A field is read back from a word whose lower part stays below the field and whose upper part starts above it. -/
theorem fld_of_parts {v x lo w : Nat} (low high : Nat) (hv : v = low + 2 ^ lo * (x + 2 ^ w * high)) (hlow : low < 2 ^ lo) (hx : x < 2 ^ w) :
    fld v lo w = x := by
  rw [fld, hv, Nat.add_mul_div_left _ _ (Nat.two_pow_pos lo), Nat.div_eq_of_lt hlow, Nat.zero_add, Nat.add_mul_mod_self_left,
    Nat.mod_eq_of_lt hx]

/-- The IDCODE word as a number. -/
theorem idcode_eq (b : Block) : b.idcode = 4 * 2 ^ 28 + 0xF1A1 * 2 ^ 12 + b.env.mfgId.toNat * 2 + 1 := by
  simp [Block.idcode, packF]

/-- Settles O13: the manufacturer's 11 bits end below the part number, so no field of the sum reaches into the next. -/
theorem idCode : Obligations.IdCode := by
  intro b
  have hid := idcode_eq b
  have hm : b.env.mfgId.toNat < 2 ^ 11 := b.env.mfgId.isLt
  refine ⟨?version, ?part, ?manufacturer, ?one, by omega, ?worked⟩
  case version => exact fld_of_parts (0xF1A1 * 2 ^ 12 + b.env.mfgId.toNat * 2 + 1) 0 (by omega) (by omega) (by omega)
  case part => exact fld_of_parts (b.env.mfgId.toNat * 2 + 1) 4 (by omega) (by omega) (by omega)
  case manufacturer => exact fld_of_parts 1 (4 * 2 ^ 16 + 0xF1A1) (by omega) (by omega) hm
  case one =>
    have hbit : fld b.idcode 0 1 = 1 :=
      fld_of_parts 0 (4 * 2 ^ 27 + 0xF1A1 * 2 ^ 11 + b.env.mfgId.toNat) (by omega) (by omega) (by omega)
    exact decide_eq_true hbit
  case worked =>
    intro h
    rw [hid, h]
    rfl

end Sys2Proof.Machine
end

section
/-! The range of the residues modulo 8,191 (R162). -/

namespace Sys2Proof.Machine

open Sys2Proof

/-- What an adder that reduces modulo 8,191 puts out. -/
theorem mod_M13_le (n : Nat) : n % M13 ≤ 8190 :=
  Nat.le_of_lt_succ (Nat.mod_lt n (by decide))

/-- A running sum that starts at 0 and is reduced after each addend stays a residue. -/
theorem foldl_mod_M13_le {α : Type} (l : List α) (next : Nat → α → Nat) : l.foldl (fun acc x => next acc x % M13) 0 ≤ 8190 :=
  List.foldlRecOn (motive := (· ≤ 8190)) l _ (Nat.zero_le _) fun acc _ x _ => mod_M13_le (next acc x)

theorem rot13_le (q t : Nat) : rot13 q t ≤ 8190 := mod_M13_le _

theorem negRes_le (r : Nat) : negRes r ≤ 8190 := mod_M13_le _

theorem resOf_le (neg : Bool) (q : Nat) (e : Int) : resOf neg q e ≤ 8190 := by
  cases neg with
  | false => exact rot13_le q (emod13 e)
  | true => exact negRes_le (rot13 q (emod13 e))

theorem foldWord_le (b v : Nat) : foldWord b v ≤ 8190 := mod_M13_le _

/-- A lane that converts to a residue holds 0 (an operand flushed) or a product reduced modulo 8,191. -/
theorem convLane_res {d : BitVec 64} {c sc r : Nat} (h : (convLane d c sc).res = some r) : r = 0 ∨ ∃ n, r = n % M13 := by
  unfold convLane at h
  split at h
  case isTrue => cases h
  case isFalse =>
    split at h
    case h_6 s q e s2 q2 e2 _ _ =>
      split at h
      case isTrue => exact .inl (Option.some.inj h).symm
      case isFalse =>
        split at h
        case isTrue => exact .inl (Option.some.inj h).symm
        case isFalse => exact .inr ⟨resOf s q e * resOf s2 q2 e2, (Option.some.inj h).symm⟩
    all_goals cases h

theorem convLane_res_le {d : BitVec 64} {c sc r : Nat} (h : (convLane d c sc).res = some r) : r ≤ 8190 := by
  obtain rfl | ⟨n, rfl⟩ := convLane_res h
  · exact Nat.zero_le _
  · exact mod_M13_le n

/-- A term of the Intake Stamp: a lane's residue, or its codes reduced for a special or invalid value (R178). -/
theorem psi_le (d : BitVec 64) (c sc : Nat) : psi d c sc ≤ 8190 := by
  unfold psi
  split
  case h_1 r hr => exact convLane_res_le hr
  case h_2 => exact mod_M13_le (c + 256 * sc)

theorem accFold_le (a : AccBeat) : accFold a ≤ 8190 := foldl_mod_M13_le _ _

theorem egressFold_le (lv : BitVec 8) (data : BitVec 512) (e : BitVec 8) : egressFold lv data e ≤ 8190 := rot13_le _ _

theorem beatP_le (d : BitVec 64) (k kseg col data scale : Nat) : beatP d k kseg col data scale ≤ 8190 := foldl_mod_M13_le _ _

/-- Two residues sum to less than twice 8,191, so one subtraction reduces the sum. -/
theorem add_mod_M13 {x y : Nat} (hx : x ≤ 8190) (hy : y ≤ 8190) :
    (x + y) % M13 = if 8191 ≤ x + y then x + y - 8191 else x + y := by
  have hx : x < M13 := Nat.lt_succ_of_le hx
  have hy : y < M13 := Nat.lt_succ_of_le hy
  rw [Nat.add_mod_eq_ite, Nat.mod_eq_of_lt hx, Nat.mod_eq_of_lt hy, M13]

/-- Settles O9: each residue leaves an adder that reduces modulo 8,191, or is the 0 of a flushed operand. -/
theorem residuesStayBelow8191 : Obligations.ResiduesStayBelow8191 :=
  ⟨resOf_le, foldWord_le, psi_le, accFold_le, egressFold_le, beatP_le, fun _ _ => add_mod_M13⟩

end Sys2Proof.Machine
end

section
/-! The rings' receipt registers (R433) and the error summary (R446, R447). A pop of RING_RCPT drops the record at rcp_head;
the receipts and letters that then find room are placed behind the records still held. -/

namespace Sys2Proof.Machine

open Sys2Proof

/-! ### The bits of ERR_SUMMARY -/

/-- Bit i of a register's value is its bit i; bits beyond its width read 0. -/
theorem bit_toNat {w : Nat} (m : BitVec w) (i : Nat) : bit m.toNat i = maskBit m i :=
  (Nat.testBit_eq_decide_div_mod_eq (x := m.toNat) (i := i)).symm

@[simp] theorem recordErr_err (o k : Nat) (b : Block) : (recordErr o k b).ho.mgmt.err = maskSet b.ho.mgmt.err k true := rfl

/-- A recorded access leaves its bit set exactly when ERR_SUMMARY, of 9 bits (R446), has that bit. -/
theorem bit_recordErr (o k : Nat) (b : Block) : bit (recordErr o k b).ho.mgmt.err.toNat k = decide (k < 9) := by
  rw [bit_toNat, recordErr_err]
  by_cases hk : k < 9
  · rw [maskBit_maskSet _ _ _ _ hk, if_pos rfl, decide_eq_true hk]
  · rw [decide_eq_false hk]
    exact BitVec.getLsbD_of_ge _ _ (Nat.le_of_not_lt hk)

/-- Refutes O20: the statement lets a cause run to 31, the width of ERR_FIRST's cause field, but ERR_SUMMARY has bits 0 to 8
only (R446). Recording cause 9 sets none of them, here in the reset block. -/
theorem not_errorSummary : ¬ Obligations.ErrorSummary := by
  intro h
  obtain ⟨hrecord, -, -⟩ := h
  obtain ⟨hbit, -, -⟩ := hrecord {} 0 9 (by decide)
  rw [bit_recordErr] at hbit
  exact absurd hbit (by decide)

/-! ### Placing receipts and taking letters keeps the records that a ring holds at its front -/

section
variable {q : Nat} {xs : List (List Byte)} {b : Block}

theorem modRing_recs (r : Nat) (f : Ring → Ring) (hf : ∀ x : Ring, x.recs <+: (f x).recs) (h : xs <+: (b.ring q).recs) :
    xs <+: ((b.modRing r f).ring q).recs := by
  by_cases hq : q = r
  · subst hq
    rw [Block.modRing_self]
    exact h.trans (hf _)
  · rwa [Block.modRing_ne _ _ hq]

theorem placeRecord_recs (r : Nat) (rc : List Byte) (h : xs <+: (b.ring q).recs) : xs <+: ((placeRecord r rc b).ring q).recs := by
  unfold placeRecord
  rw [setIrqRing_keep_ring]
  exact modRing_recs r _ (fun _ => List.prefix_append ..) h

@[simp] theorem sendReply_ring (mtype dst rtag reqSeq epoch : Nat) (bytes : List Byte) (b : Block) (i : Nat) :
    (sendReply mtype dst rtag reqSeq epoch bytes b).ring i = b.ring i :=
  Block.ring_same ((frame_sendReply _ _ _ _ _ _ (Frame.refl [.post] b) (fun _ h => h)).get .mail (by decide)) i

theorem putReceipt_recs (r : Nat) (reply : Option (Nat × Nat × Nat)) (rc : List Byte) (h : xs <+: (b.ring q).recs) :
    xs <+: ((putReceipt r reply rc b).ring q).recs := by
  unfold putReceipt
  split
  · rw [sendReply_ring, setIrqRing_keep_ring]
    exact modRing_recs r _ (fun _ => List.prefix_rfl) h
  · split
    · exact h
    · split
      · exact placeRecord_recs r rc h
      · exact modRing_recs r _ (fun _ => List.prefix_rfl) h

theorem issue_recs (o : Outst) (zeroTag final more : Bool) (status part parts detail : Nat) (res : List Byte)
    (h : xs <+: (b.ring q).recs) : xs <+: ((issue o zeroTag final more status part parts detail res b).ring q).recs := by
  unfold issue
  exact forEach_inv (P := fun c => xs <+: (c.ring q).recs) (fun _ _ k => putReceipt_recs _ _ _ k) (putReceipt_recs o.ring o.reply _ h)

theorem advanceHead_recs (r : Nat) (h : xs <+: (b.ring q).recs) : xs <+: ((advanceHead r b).ring q).recs :=
  modRing_recs r _ (fun _ => List.prefix_rfl) h

theorem pump_recs (r fuel : Nat) (h : xs <+: (b.ring q).recs) : xs <+: ((pump r fuel b).ring q).recs := by
  induction fuel generalizing b with
  | zero => exact h
  | succ n ih =>
    unfold pump
    dsimp only
    split
    · exact h
    · split
      · exact h
      · split
        · exact modRing_recs r _ (fun _ => List.prefix_rfl) h
        · split
          · exact ih (advanceHead_recs r (putReceipt_recs _ _ _ h))
          · exact ih (advanceHead_recs r (putReceipt_recs _ _ _ h))
          · exact ih (advanceHead_recs r h)
          · split
            · exact ih (advanceHead_recs r (issue_recs _ _ _ _ _ _ _ _ _ h))
            · exact modRing_recs r _ (fun _ => List.prefix_rfl) h

theorem drainHeld_recs (r : Nat) (h : xs <+: (b.ring q).recs) : xs <+: ((drainHeld r b).ring q).recs := by
  unfold drainHeld
  split
  · split
    · exact pump_recs r 32 (placeRecord_recs r _ (modRing_recs r _ (fun _ => List.prefix_rfl) h))
    · exact h
  · exact pump_recs r 32 h

end

/-! ### A pop through RING_RCPT -/

@[simp] theorem respond_ring (data err : Nat) (b : Block) (i : Nat) : (respond data err b).ring i = b.ring i := rfl

theorem popRing_of_empty {r : Nat} {b : Block} (h : (b.ring r).recs = []) : popRing r 0x80000000 b = recordErr (0x1008 + 16 * r) 3 b := by
  simp [popRing, h, bit, fld]

theorem popRing_of_cons {r : Nat} {b : Block} {x : List Byte} {xs : List (List Byte)} (h : (b.ring r).recs = x :: xs) :
    popRing r 0x80000000 b =
      if r < 40 then drainHeld r (b.modRing r (fun y => { y with recs := y.recs.drop 1, rcpHead := (y.rcpHead + 1) % ringSize r }))
      else b.modRing r (fun y => { y with recs := y.recs.drop 1, rcpHead := (y.rcpHead + 1) % ringSize r }) := by
  simp [popRing, h, bit, fld]

theorem rcpt_mod (r : Nat) : (0x1008 + 16 * r) % 16 = 8 := by omega

theorem rcpt_ring (r : Nat) : (0x1008 + 16 * r - 0x1000) / 16 = r := by omega

/-- RING_RCPT of every ring is mapped (R431). -/
theorem mapped_rcpt {r : Nat} (hr : r < 64) : mapped (0x1008 + 16 * r) = true := by
  have hregs : ringRegMapped (0x1008 + 16 * r) = true := by simp [ringRegMapped]
  unfold mapped
  rw [if_neg (by omega), if_neg (by omega), if_pos (by omega), hregs]

/-- Bit 31 of RING_RCPT, the pop, is reserved in the fleet command rings 40 to 55 only (R431). -/
theorem rsvCauses_rcpt_pop {r : Nat} (hr : r < 40 ∨ 56 ≤ r) (h64 : r < 64) : rsvCauses (0x1008 + 16 * r) 0x80000000 = [] := by
  have hmask : rsvMask (0x1008 + 16 * r) = (0x7F00FF00, 0) := by
    unfold rsvMask
    rw [if_neg (by omega), if_pos (by omega), rcpt_mod, rcpt_ring]
    simp only
    rw [if_neg (by omega)]
  rw [rsvCauses, hmask]
  rfl

/-- A pop written to RING_RCPT of a host-side command ring or an event ring is the pop of that ring, answered OKAY. -/
theorem writeReg_rcpt {r : Nat} (hr : r < 40 ∨ 56 ≤ r) (h64 : r < 64) (b : Block) :
    writeReg (0x1008 + 16 * r) 0x80000000 b = (0, popRing r 0x80000000 b) := by
  unfold writeReg
  rw [if_neg (by omega), if_neg (by omega), if_neg (by omega), if_neg (by omega), if_neg (by omega), if_neg (by omega),
    if_neg (by omega), if_pos (by omega), rsvCauses_rcpt_pop hr h64, rcpt_mod, rcpt_ring]
  simp only [recordErrs]
  rw [if_neg (by omega)]

/-- The pop command of such a ring, while the register window answers, is the pop of that ring. -/
theorem exec_ringPop {s : State} {r : BitVec 6} (hr : s.released) (hon : s.blk.svc.hoOn = true) (hst : s.blk.svc.state ≠ .booting)
    (hring : r.toNat < 40 ∨ 56 ≤ r.toNat) :
    exec (.ringPop r 0x80000000) s = .next (s.after (respond 0 0 (popRing r.toNat 0x80000000 s.blk))) := by
  refine act_after hr ?_
  unfold winWrite
  simp [hon, hst, mapped_rcpt r.isLt, writeReg_rcpt hring r.isLt]

/-- Settles O19: a pop drops the first record; what a receipt ring then places comes behind the records still held. -/
theorem ringPop : Obligations.RingPop := by
  refine ⟨fun s r x xs hr hon hst hring hrecs => ?event, fun s r x xs hr hon hst hring hrecs => ?receipt,
    fun s r hr hon hst hring hrecs => ?empty⟩
  case event =>
    refine ⟨_, exec_ringPop hr hon hst (.inr hring), ?_⟩
    rw [popRing_of_cons hrecs, if_neg (by omega)]
    simp [hrecs, ringSize, Nat.not_lt.2 hring]
  case receipt =>
    have hkept : xs <+: ((popRing r.toNat 0x80000000 s.blk).ring r.toNat).recs := by
      rw [popRing_of_cons hrecs, if_pos hring]
      refine drainHeld_recs _ ?_
      simp [hrecs]
    obtain ⟨ys, hys⟩ := hkept
    exact ⟨_, ys, exec_ringPop hr hon hst (.inl hring), hys.symm⟩
  case empty =>
    refine ⟨_, exec_ringPop hr hon hst hring.symm, ?_⟩
    rw [popRing_of_empty hrecs]
    exact ⟨recordErr_keep_ring .., bit_recordErr ..⟩

end Sys2Proof.Machine
end

section
/-! Routes between wafers (R313 to R315). A wafer is the mixed-radix number of its coordinates, a hop moves one
coordinate by one, and a route sets the coordinates of its destination ring by ring. -/

namespace Sys2Proof.Machine

open Sys2Proof

/-! ### Wafers and their coordinates -/

theorem foldl_radix_mul (len : List Nat) (k : Nat) :
    len.foldl (fun a l => a * max l 1) k = k * len.foldl (fun a l => a * max l 1) 1 := by
  induction len generalizing k with
  | nil => simp
  | cons l r ih => rw [List.foldl_cons, List.foldl_cons, ih, ih (1 * max l 1), Nat.one_mul, Nat.mul_assoc]

theorem fleetSize_cons (l : Nat) (r : List Nat) : fleetSize (l :: r) = max l 1 * fleetSize r := by
  rw [fleetSize, List.foldl_cons, foldl_radix_mul, Nat.one_mul, fleetSize]

/-- Coordinates within the rings: one for each ring, below its length. -/
def coordsOk (len cs : List Nat) : Prop := cs.length = len.length ∧ ∀ i, i < len.length → lnat cs i < max (lnat len i) 1

theorem coords_length (len : List Nat) (w : Nat) : (coords len w).length = len.length := by
  induction len generalizing w with
  | nil => rfl
  | cons l r ih => simp [coords, ih]

theorem getD_of_lt {α : Type} {l : List α} {i : Nat} (d : α) (h : i < l.length) : l.getD i d = l[i] := by
  rw [List.getD_eq_getElem?_getD, List.getElem?_eq_getElem h, Option.getD_some]

theorem sum_map_le {α : Type} (xs : List α) {f g : α → Nat} (h : ∀ x, f x ≤ g x) : (xs.map f).sum ≤ (xs.map g).sum := by
  induction xs with
  | nil => exact Nat.le_refl _
  | cons x xs ih =>
    rw [List.map_cons, List.map_cons, List.sum_cons, List.sum_cons]
    exact Nat.add_le_add (h x) ih

theorem coords_ok (len : List Nat) (w : Nat) : coordsOk len (coords len w) := by
  refine ⟨coords_length len w, ?_⟩
  induction len generalizing w with
  | nil => simp
  | cons l r ih =>
    intro i hi
    cases i with
    | zero => simpa [lnat, coords] using Nat.mod_lt w (by omega : 0 < max l 1)
    | succ i => simpa [lnat, coords] using ih (w / max l 1) i (by simpa using hi)

/-- A wafer of the fleet is the number of its coordinates. -/
theorem ofCoords_coords {len : List Nat} {w : Nat} (h : w < fleetSize len) : ofCoords len (coords len w) = w := by
  induction len generalizing w with
  | nil => simp only [fleetSize, List.foldl_nil] at h; simp [ofCoords]; omega
  | cons l r ih =>
    rw [fleetSize_cons] at h
    rw [coords, ofCoords, ih (Nat.div_lt_of_lt_mul h)]
    exact Nat.mod_add_div w (max l 1)

/-- Coordinates are read back from the wafer they number. -/
theorem coords_ofCoords {len cs : List Nat} (h : coordsOk len cs) : coords len (ofCoords len cs) = cs := by
  induction len generalizing cs with
  | nil => rw [List.length_eq_zero_iff.1 h.1]; rfl
  | cons l r ih =>
    obtain ⟨hlen, hlt⟩ := h
    obtain _ | ⟨c, s⟩ := cs
    · simp at hlen
    have hc : c < max l 1 := by simpa [lnat] using hlt 0 (by simp)
    have hs : coordsOk r s := ⟨by simpa using hlen, fun i hi => by simpa [lnat] using hlt (i + 1) (by simpa using hi)⟩
    have hpos : 0 < max l 1 := by omega
    rw [ofCoords, coords, Nat.add_mul_mod_self_left, Nat.mod_eq_of_lt hc, Nat.add_mul_div_left _ _ hpos, Nat.div_eq_of_lt hc,
      Nat.zero_add, ih hs]

theorem lnat_set_self {cs : List Nat} {r : Nat} (x : Nat) (h : r < cs.length) : lnat (cs.set r x) r = x := by simp [lnat, h]

theorem lnat_set_ne (cs : List Nat) {r i : Nat} (x : Nat) (h : i ≠ r) : lnat (cs.set r x) i = lnat cs i := by
  simp [lnat, List.getD, List.getElem?_set_ne (Ne.symm h)]

theorem coordsOk_set {len cs : List Nat} {r x : Nat} (h : coordsOk len cs) (hx : x < max (lnat len r) 1) : coordsOk len (cs.set r x) := by
  refine ⟨by simpa using h.1, fun i hi => ?_⟩
  by_cases hir : i = r
  · subst hir; rw [lnat_set_self x (h.1 ▸ hi)]; exact hx
  · rw [lnat_set_ne cs x hir]; exact h.2 i hi

/-! ### Hops -/

/-- Coordinate x of a ring of length l after d hops through its ports of one direction. -/
def ringMove (l : Nat) (up : Bool) (d x : Nat) : Nat := if up then (x + d) % max l 1 else (x + d * (max l 1 - 1)) % max l 1

/-- A hop moves the coordinate of its port's ring by one. -/
theorem hopTo_ofCoords {len cs : List Nat} (h : coordsOk len cs) (r : Nat) (up : Bool) :
    hopTo len (ofCoords len cs) (2 * r + if up then 0 else 1) = ofCoords len (cs.set r (ringMove (lnat len r) up 1 (lnat cs r))) := by
  have hpos : 1 ≤ max (lnat len r) 1 := by omega
  unfold hopTo ringMove
  dsimp only
  rw [coords_ofCoords h]
  cases up
  · simp only [Bool.false_eq_true, if_false, Nat.one_mul]
    rw [show (2 * r + 1) / 2 = r by omega, if_neg (by omega), Nat.add_sub_assoc hpos]
  · simp only [if_true, Nat.add_zero]
    rw [show 2 * r / 2 = r by omega, if_pos (by omega)]

theorem ringMove_lt (l : Nat) (up : Bool) (d x : Nat) : ringMove l up d x < max l 1 := by
  unfold ringMove
  split <;> exact Nat.mod_lt _ (by omega)

theorem ringMove_succ (l : Nat) (up : Bool) (d x : Nat) : ringMove l up d (ringMove l up 1 x) = ringMove l up (d + 1) x := by
  cases up with
  | false =>
    have hsteps : x + (max l 1 - 1) + d * (max l 1 - 1) = x + (d + 1) * (max l 1 - 1) := by
      rw [Nat.succ_mul, Nat.add_assoc, Nat.add_comm (max l 1 - 1)]
    simp only [ringMove, Bool.false_eq_true, if_false, Nat.one_mul, Nat.mod_add_mod, hsteps]
  | true => simp only [ringMove, if_true, Nat.mod_add_mod, Nat.add_assoc, Nat.add_comm 1 d]

/-- Hops of one direction on a ring, one after another, move its coordinate by as many. -/
theorem foldl_hopTo_replicate {len : List Nat} {r : Nat} (hr : r < len.length) (up : Bool) (d : Nat) {cs : List Nat} (h : coordsOk len cs) :
    (List.replicate d (2 * r + if up then 0 else 1)).foldl (hopTo len) (ofCoords len cs) =
      ofCoords len (cs.set r (ringMove (lnat len r) up d (lnat cs r))) := by
  induction d generalizing cs with
  | zero =>
    have hcs : lnat cs r < max (lnat len r) 1 := h.2 r hr
    have hmove : ringMove (lnat len r) up 0 (lnat cs r) = lnat cs r := by
      cases up <;> simp [ringMove, Nat.mod_eq_of_lt hcs]
    have hr' : r < cs.length := h.1 ▸ hr
    rw [hmove, lnat, getD_of_lt _ hr', List.set_getElem_self]
    rfl
  | succ d ih =>
    rw [List.replicate_succ, List.foldl_cons, hopTo_ofCoords h, ih (coordsOk_set h (ringMove_lt ..)), List.set_set,
      lnat_set_self _ (h.1 ▸ hr), ringMove_succ]

/-- Steps up from coordinate a to c of a ring. -/
theorem ringMove_up {l a c : Nat} (ha : a < max l 1) (hc : c < max l 1) : ringMove l true ((c + l - a) % max l 1) a = c := by
  rw [ringMove, if_pos rfl, Nat.add_mod_mod]
  obtain rfl | hl := Nat.eq_zero_or_pos l
  · have hc0 : 0 = c := by omega
    rw [Nat.max_eq_right (Nat.zero_le 1), Nat.mod_one]
    exact hc0
  · rw [show a + (c + l - a) = c + l by omega, Nat.max_eq_left hl, Nat.add_mod_right, Nat.mod_eq_of_lt (by omega)]

/-- Steps down from coordinate a come to where the others of the ring's steps come up. -/
theorem ringMove_down {l d : Nat} (a : Nat) (hd : d < l) : ringMove l false (l - d) a = ringMove l true d a := by
  obtain ⟨k, rfl⟩ := Nat.exists_eq_add_of_lt hd
  have hsteps : (d + k + 1 - d) * (d + k + 1 - 1) = d + (d + k + 1) * k := by
    rw [show d + k + 1 - d = k + 1 by omega, Nat.add_sub_cancel, Nat.succ_mul, Nat.succ_mul, Nat.mul_comm k]
    omega
  rw [ringMove, ringMove, if_neg Bool.false_ne_true, if_pos rfl, Nat.max_eq_left (by omega), hsteps, ← Nat.add_assoc,
    Nat.add_mul_mod_self_left]

/-- The hops on one ring set its coordinate to the destination's (R315). -/
theorem foldl_hopTo_ringHops {len : List Nat} {r c : Nat} (hr : r < len.length) {cs : List Nat} (h : coordsOk len cs)
    (hc : c < max (lnat len r) 1) :
    (ringHops r (lnat len r) (lnat cs r) c).foldl (hopTo len) (ofCoords len cs) = ofCoords len (cs.set r c) := by
  have hup := ringMove_up (h.2 r hr) hc
  unfold ringHops
  dsimp only
  split
  case isTrue => rw [show 2 * r = 2 * r + if true then 0 else 1 from rfl, foldl_hopTo_replicate hr true _ h, hup]
  case isFalse hlong =>
    have hd : (c + lnat len r - lnat cs r) % max (lnat len r) 1 < lnat len r := by
      have hlt := Nat.mod_lt (c + lnat len r - lnat cs r) (by omega : 0 < max (lnat len r) 1)
      omega
    rw [show 2 * r + 1 = 2 * r + if false then 0 else 1 from rfl, foldl_hopTo_replicate hr false _ h, ringMove_down _ hd, hup]

/-- A ring past the last of the fleet takes no hop. -/
theorem ringHops_none (r : Nat) : ringHops r 0 0 0 = [] := rfl

theorem ringHops_length (r l a c : Nat) : (ringHops r l a c).length ≤ l / 2 := by
  unfold ringHops
  dsimp only
  split <;> rw [List.length_replicate] <;> omega

/-! ### Whole routes -/

theorem lnat_of_le {l : List Nat} {i : Nat} (h : l.length ≤ i) : lnat l i = 0 := by simp [lnat, h]

/-- The destination's coordinates on the first k rings, the start's on the others. -/
def coordsUpTo (cs cc : List Nat) (k : Nat) : List Nat := cc.take k ++ cs.drop k

theorem coordsUpTo_succ {cs cc : List Nat} {k : Nat} (hlen : cs.length = cc.length) (hk : k < cs.length) :
    coordsUpTo cs cc (k + 1) = (coordsUpTo cs cc k).set k (lnat cc k) := by
  have hk' : k < cc.length := hlen ▸ hk
  have htake : (cc.take k).length = k := by simp; omega
  rw [coordsUpTo, coordsUpTo, List.set_append_right _ _ (by omega), htake, Nat.sub_self, List.drop_eq_getElem_cons hk, List.set_cons_zero,
    List.take_succ_eq_append_getElem hk', List.append_assoc, lnat, getD_of_lt _ hk']
  rfl

theorem lnat_coordsUpTo {cs cc : List Nat} {k : Nat} (hlen : cs.length = cc.length) (hk : k < cs.length) :
    lnat (coordsUpTo cs cc k) k = lnat cs k := by
  have htake : (cc.take k).length = k := by simp; omega
  simp only [lnat, coordsUpTo, List.getD]
  rw [List.getElem?_append_right (by omega), htake, Nat.sub_self, List.getElem?_drop, Nat.add_zero]

/-- After the hops on the first k rings a route from cs to cc has set their coordinates. -/
theorem foldl_hopTo_rings {len cs cc : List Nat} (hs : coordsOk len cs) (hc : coordsOk len cc) (k : Nat) (hk : k ≤ len.length) :
    coordsOk len (coordsUpTo cs cc k) ∧
    ((List.range k).flatMap (fun r => ringHops r (lnat len r) (lnat cs r) (lnat cc r))).foldl (hopTo len) (ofCoords len cs) =
      ofCoords len (coordsUpTo cs cc k) := by
  induction k with
  | zero => exact ⟨hs, rfl⟩
  | succ k ih =>
    obtain ⟨hok, hfold⟩ := ih (by omega)
    have hlen : cs.length = cc.length := hs.1.trans hc.1.symm
    have hk' : k < cs.length := hs.1 ▸ hk
    rw [coordsUpTo_succ hlen hk']
    refine ⟨coordsOk_set hok (hc.2 k hk), ?_⟩
    rw [List.range_succ, List.flatMap_append, List.foldl_append, hfold, List.flatMap_singleton, ← lnat_coordsUpTo hlen hk']
    exact foldl_hopTo_ringHops hk hok (hc.2 k hk)

/-- The hops of a fleet's rings are those of all eight. -/
theorem routeOf_eq {len : List Nat} (a c : Nat) (h : len.length ≤ 8) :
    routeOf len a c = (List.range len.length).flatMap (fun r =>
      ringHops r (lnat len r) (lnat (coords len a) r) (lnat (coords len c) r)) := by
  obtain ⟨k, hk⟩ := Nat.exists_eq_add_of_le h
  have hrest : ((List.range k).map (fun i => len.length + i)).flatMap (fun r =>
      ringHops r (lnat len r) (lnat (coords len a) r) (lnat (coords len c) r)) = [] := by
    refine List.flatMap_eq_nil_iff.2 fun r hr => ?_
    obtain ⟨i, -, rfl⟩ := List.mem_map.1 hr
    rw [lnat_of_le (by omega), lnat_of_le (by rw [coords_length]; omega), lnat_of_le (by rw [coords_length]; omega), ringHops_none]
  rw [routeOf, hk, List.range_add, List.flatMap_append, hrest, List.append_nil]

theorem routeOf_length_le {len : List Nat} (a c : Nat) (h : len.length ≤ 8) : (routeOf len a c).length ≤ (len.map (fun l => l / 2)).sum := by
  have hsum : (len.map (fun l => l / 2)) = (List.range len.length).map (fun r => lnat len r / 2) := by
    refine List.ext_getElem (by simp) fun i hi _ => ?_
    simp [lnat, List.getElem?_eq_getElem (by simpa using hi : i < len.length)]
  rw [routeOf_eq a c h, List.length_flatMap, hsum]
  exact sum_map_le _ fun r => ringHops_length ..

/-- Settles O11: the hops of each ring set one coordinate, so those of all rings leave the destination's; the shorter way round a
ring is at most half of it. -/
theorem routesReachTheirDestination : Obligations.RoutesReachTheirDestination := by
  intro len a c hlen ha hc
  refine ⟨?_, routeOf_length_le a c hlen⟩
  have hs := coords_ok len a
  have hd := coords_ok len c
  obtain ⟨-, hfold⟩ := foldl_hopTo_rings hs hd len.length (Nat.le_refl _)
  have hall : coordsUpTo (coords len a) (coords len c) len.length = coords len c := by
    rw [coordsUpTo, List.take_of_length_le (Nat.le_of_eq (coords_length ..)),
      List.drop_of_length_le (Nat.le_of_eq (coords_length ..)), List.append_nil]
  rw [ofCoords_coords ha, hall, ofCoords_coords hc] at hfold
  rw [routeOf_eq a c hlen, hfold]

end Sys2Proof.Machine
end

section
/-! What holds of every command of the table and of every step: completion, the pins of rs_por_n, the letter memory
(R88, R132, R133, R432). A command is an effect on the released block, with three exceptions: the two of rs_por_n and the
register write, which also stores a letter's word. -/

namespace Sys2Proof.Machine

open Sys2Proof

/-! ### What a command's next state is -/

/-- The next state of a command that is an effect f. -/
theorem act_next_eq {f : Block → Block} {s t : State} (h : act f s = .next t) :
    t = { blk := if s.blk.env.porN then held s.blk (f s.blk) else s.blk, pending := s.pending } :=
  (Host.Outcome.next.inj h).symm

/-- The block after a register write: the effect on the registers, and the letter memory with the word stored. -/
def afterWrite (o : BitVec 16) (v : BitVec 32) (b : Block) : Block :=
  if b.env.porN then { held b (winWrite o.toNat v.toNat b) with letters := letterWrite o.toNat v.toNat b } else b

theorem exec_registerWrite (o : BitVec 16) (v : BitVec 32) (s : State) :
    exec (.registerWrite o v) s = .next { s with blk := afterWrite o v s.blk } := by
  show execRegisterWrite o v s = _
  unfold execRegisterWrite afterWrite act
  cases hp : s.blk.env.porN <;> simp

theorem exec_blockResetRelease (lc lcInv : BitVec 3) (ar idv : Bool) (feed loop : BitVec 16) (rack : BitVec 24) (mfg : BitVec 11)
    (vok : BitVec 128) (s : State) : exec (.blockResetRelease lc lcInv ar idv feed loop rack mfg vok) s =
      .next { s with blk := resetRelease lc lcInv ar idv feed loop rack mfg vok s.blk } := rfl

theorem exec_blockPowerOnReset (s : State) : exec .blockPowerOnReset s = .next { s with blk := { free := s.blk.free } } := rfl

/-- The forms a command can take. -/
theorem exec_cases (c : Instr) : c = .blockPowerOnReset ∨ (∃ a1 a2 a3 a4 a5 a6 a7 a8 a9, c = .blockResetRelease a1 a2 a3 a4 a5 a6 a7 a8 a9) ∨
    (∃ o v, c = .registerWrite o v) ∨ ∀ s, ∃ f, exec c s = act f s := by
  by_cases h1 : c = .blockPowerOnReset
  · exact .inl h1
  by_cases h2 : ∃ a1 a2 a3 a4 a5 a6 a7 a8 a9, c = .blockResetRelease a1 a2 a3 a4 a5 a6 a7 a8 a9
  · exact .inr (.inl h2)
  by_cases h3 : ∃ o v, c = .registerWrite o v
  · exact .inr (.inr (.inl h3))
  · exact .inr (.inr (.inr fun s => exec_act c s h1 (fun a1 a2 a3 a4 a5 a6 a7 a8 a9 e => h2 ⟨a1, a2, a3, a4, a5, a6, a7, a8, a9, e⟩)
      (fun o v e => h3 ⟨o, v, e⟩)))

/-- Settles O3: each of the four forms of a command answers a next state with the queue it was given. -/
theorem everyCommandCompletes : Obligations.EveryCommandCompletes := by
  intro c s
  obtain rfl | ⟨lc, lcInv, ar, idv, feed, loop, rack, mfg, vok, rfl⟩ | ⟨o, v, rfl⟩ | hact := exec_cases c
  · exact ⟨_, exec_blockPowerOnReset s, rfl⟩
  · exact ⟨_, exec_blockResetRelease .., rfl⟩
  · exact ⟨_, exec_registerWrite o v s, rfl⟩
  · obtain ⟨f, hf⟩ := hact s
    exact ⟨_, hf, rfl⟩

/-! ### In reset -/

theorem held_straps (o n : Block) : (held o n).straps = o.straps := rfl

theorem afterWrite_straps (o : BitVec 16) (v : BitVec 32) (b : Block) : (afterWrite o v b).straps = b.straps := by
  unfold afterWrite
  split <;> rfl

theorem afterWrite_reset {o : BitVec 16} {v : BitVec 32} {b : Block} (h : b.env.porN = false) : afterWrite o v b = b := by
  simp [afterWrite, h]

/-- Settles O5: an effect is applied outside reset only, and is held to the straps it found. -/
theorem onlyThePowerOnInputActsInReset : Obligations.OnlyThePowerOnInputActsInReset := by
  intro c s t hpor hrel ht
  obtain rfl | ⟨a1, a2, a3, a4, a5, a6, a7, a8, a9, rfl⟩ | ⟨o, v, rfl⟩ | hact := exec_cases c
  · exact absurd rfl hpor
  · exact absurd rfl (hrel a1 a2 a3 a4 a5 a6 a7 a8 a9)
  · rw [exec_registerWrite] at ht
    obtain rfl := Host.Outcome.next.inj ht
    refine ⟨afterWrite_straps o v s.blk, fun h => ?_⟩
    rw [afterWrite_reset h]
  · obtain ⟨f, hf⟩ := hact s
    obtain rfl := act_next_eq (hf ▸ ht)
    cases h : s.blk.env.porN
    · exact ⟨rfl, fun _ => rfl⟩
    · exact ⟨held_straps _ _, nofun⟩

/-- rs_por_n is 1 after every command but power-on reset, where it was 1. -/
theorem exec_porN {c : Instr} {s t : State} (hpor : c ≠ .blockPowerOnReset) (h : s.blk.env.porN = true) (ht : exec c s = .next t) :
    t.blk.env.porN = true := by
  by_cases hrel : ∃ a1 a2 a3 a4 a5 a6 a7 a8 a9, c = .blockResetRelease a1 a2 a3 a4 a5 a6 a7 a8 a9
  · obtain ⟨a1, a2, a3, a4, a5, a6, a7, a8, a9, rfl⟩ := hrel
    rw [exec_blockResetRelease] at ht
    obtain rfl := Host.Outcome.next.inj ht
    simp [resetRelease, h]
  · have hrel' : ∀ a1 a2 a3 a4 a5 a6 a7 a8 a9, c ≠ .blockResetRelease a1 a2 a3 a4 a5 a6 a7 a8 a9 :=
      fun a1 a2 a3 a4 a5 a6 a7 a8 a9 e => hrel ⟨a1, a2, a3, a4, a5, a6, a7, a8, a9, e⟩
    obtain ⟨hstraps, -⟩ := onlyThePowerOnInputActsInReset c s t hpor hrel' ht
    exact (congrArg (fun x => x.1) hstraps : t.blk.env.porN = s.blk.env.porN).trans h

theorem resetRelease_porN (lc lcInv : BitVec 3) (ar idv : Bool) (feed loop : BitVec 16) (rack : BitVec 24) (mfg : BitVec 11)
    (vok : BitVec 128) (b : Block) : (resetRelease lc lcInv ar idv feed loop rack mfg vok b).env.porN = true := by
  unfold resetRelease
  split
  · assumption
  · rfl

/-! ### Steps -/

theorem step_cons {s : State} {c : Instr} {rest : List Instr} (h : s.pending = c :: rest) : step s = exec c { s with pending := rest } := by
  rw [step, h]

theorem step_nil {s : State} (h : s.pending = []) : step s = idle s := by rw [step, h]

/-- Settles O1. -/
theorem stepRunsFrontCommand : Obligations.StepRunsFrontCommand := fun _ _ _ h => step_cons h

theorem frame_tick {l : List Part} {a b : Block} (h : Frame l a b) (m : ∀ p ∈ ([.pm] : List Part), p ∈ l) : Frame l a (tick b) := by
  unfold tick
  split
  · exact frame_modPm _ h m
  · exact h

/-- The idle step's next state. -/
theorem idle_next {s t : State} (h : idle s = .next t) : t = { s with blk := tick s.blk } := by
  unfold idle at h
  split at h
  · nomatch h
  · exact (Host.Outcome.next.inj h).symm

theorem tick_now {b : Block} (hp : b.pm.powered = true) (hlt : b.now + 10 < 2 ^ 64) : (tick b).now = b.now + 10 := by
  have hadd : (b.pm.count + 10).toNat = (b.now + 10) % 2 ^ 64 := BitVec.toNat_add ..
  rw [tick, if_pos hp]
  exact hadd.trans (Nat.mod_eq_of_lt hlt)

/-- Settles O2: on an empty queue the step is the tick, which faults at the end of the count alone. -/
theorem idleTick : Obligations.IdleTick := by
  refine ⟨fun s hq hp => ?off, fun s hq hp hlt => ?on, fun s hq hp hle => ?wrap⟩
  case off =>
    rw [step_nil hq, idle, if_neg (by simp [hp]), tick, if_neg (by simp [hp])]
  case on =>
    refine ⟨{ s with blk := tick s.blk }, ?_, tick_now hp hlt, hq, frame_tick (.refl _ _) fun _ h => h⟩
    rw [step_nil hq, idle, if_neg (by omega)]
  case wrap => rw [step_nil hq, idle, if_pos ⟨hp, hle⟩]

/-- Settles O4: the model evaluates it. -/
theorem resetStateIsSafe : Obligations.ResetStateIsSafe := ⟨⟨fun _ => rfl, rfl⟩, rfl, rfl, rfl, rfl, rfl, rfl, rfl⟩

/-- An invariant of the block that every command and the tick keep is kept by every step. -/
theorem step_keeps {P : Block → Prop} (hexec : ∀ (c : Instr) (s t : State), P s.blk → exec c s = .next t → P t.blk)
    (htick : ∀ b, P b → P (tick b)) {s t : State} (hs : P s.blk) (ht : step s = .next t) : P t.blk := by
  cases hq : s.pending with
  | nil =>
    rw [step_nil hq] at ht
    rw [idle_next ht]
    exact htick _ hs
  | cons c rest =>
    rw [step_cons hq] at ht
    exact hexec c { s with pending := rest } t hs ht

/-- A block whose registers hold their reset values while rs_por_n is 0. -/
def Block.resetHeld (b : Block) : Prop := b.env.porN = false → b = { free := b.free }

theorem exec_resetHeld (c : Instr) (s t : State) (hs : s.blk.resetHeld) (ht : exec c s = .next t) : t.blk.resetHeld := by
  intro hoff
  by_cases hpor : c = .blockPowerOnReset
  · subst hpor
    obtain rfl := Host.Outcome.next.inj ht
    rfl
  by_cases hrel : ∃ a1 a2 a3 a4 a5 a6 a7 a8 a9, c = .blockResetRelease a1 a2 a3 a4 a5 a6 a7 a8 a9
  · obtain ⟨a1, a2, a3, a4, a5, a6, a7, a8, a9, rfl⟩ := hrel
    rw [exec_blockResetRelease] at ht
    obtain rfl := Host.Outcome.next.inj ht
    exact absurd ((resetRelease_porN ..).symm.trans hoff) nofun
  · have hin : s.blk.env.porN = false := by
      cases h : s.blk.env.porN with
      | false => rfl
      | true => exact absurd ((exec_porN hpor h ht).symm.trans hoff) nofun
    obtain ⟨-, hsame⟩ := onlyThePowerOnInputActsInReset c s t hpor
      (fun a1 a2 a3 a4 a5 a6 a7 a8 a9 e => hrel ⟨a1, a2, a3, a4, a5, a6, a7, a8, a9, e⟩) ht
    rw [hsame hin]
    exact hs hin

/-- The Postmark domain is not powered while the registers hold their reset values, so no tick counts (R88). -/
theorem tick_resetHeld (b : Block) (h : b.resetHeld) : (tick b).resetHeld := by
  intro hoff
  have henv : (tick b).env = b.env := (frame_tick (.refl [.pm] b) (fun _ h => h)).get .env (by decide)
  have hb := h (henv ▸ hoff)
  have hp : b.pm.powered = false := by rw [hb]
  rw [tick, hp]
  exact hb

/-- Settles O6: a step in reset is the release, which raises rs_por_n, or leaves the block as it was. -/
theorem resetValuesHeldInvariant : Obligations.ResetValuesHeldInvariant :=
  fun _ _ => step_keeps (P := Block.resetHeld) exec_resetHeld tick_resetHeld

/-! ### The letter memory -/

theorem hoLost_self (b : Block) : hoLost b b = false := hoLost_same rfl rfl

theorem hoLost_held (o n : Block) : hoLost o (held o n) = hoLost o n := rfl

theorem held_letters (o n : Block) : (held o n).letters = if hoLost o n then [] else o.letters := rfl

theorem letterWrite_wf {b : Block} (o v : Nat) (h : Memory.wf b.letters = true) : Memory.wf (letterWrite o v b) = true := by
  unfold letterWrite
  split
  · exact memWrites_wf _ _ h
  · exact h

theorem afterWrite_letters (o : BitVec 16) (v : BitVec 32) (b : Block) :
    (afterWrite o v b).letters = if b.env.porN then letterWrite o.toNat v.toNat b else b.letters := by
  unfold afterWrite
  split <;> rfl

/-- An effect leaves the letter memory, or loses all of it with the Head Office domain. -/
theorem act_letters {f : Block → Block} {s t : State} (h : act f s = .next t) :
    t.blk.letters = if hoLost s.blk t.blk then [] else s.blk.letters := by
  obtain rfl := act_next_eq h
  cases hp : s.blk.env.porN
  · simp only [Bool.false_eq_true, if_false, hoLost_self]
  · simp only [if_true, hoLost_held, held_letters]

theorem exec_lettersCanonical (c : Instr) (s t : State) (hs : Memory.wf s.blk.letters = true) (ht : exec c s = .next t) :
    Memory.wf t.blk.letters = true := by
  obtain rfl | ⟨a1, a2, a3, a4, a5, a6, a7, a8, a9, rfl⟩ | ⟨o, v, rfl⟩ | hact := exec_cases c
  · obtain rfl := Host.Outcome.next.inj ht
    rfl
  · rw [exec_blockResetRelease] at ht
    obtain rfl := Host.Outcome.next.inj ht
    simp only [resetRelease]
    split
    · exact hs
    · rfl
  · rw [exec_registerWrite] at ht
    obtain rfl := Host.Outcome.next.inj ht
    rw [afterWrite_letters]
    split
    · exact letterWrite_wf _ _ hs
    · exact hs
  · obtain ⟨f, hf⟩ := hact s
    rw [act_letters (hf ▸ ht)]
    split
    · rfl
    · exact hs

/-- Settles O7: a step stores a word byte by byte in the canonical form, empties the memory, or leaves it. -/
theorem letterMemoryInvariant : Obligations.LetterMemoryInvariant :=
  fun _ _ => step_keeps (P := fun b => Memory.wf b.letters = true) exec_lettersCanonical fun b h => by
    rw [(frame_tick (.refl [.pm] b) (fun _ h => h)).get .letters (by decide)]
    exact h

/-- The value of a number's little-endian bytes. -/
theorem ofLe_le (n v : Nat) (h : v < 256 ^ n) : ofLe (le n v) = v := by
  induction n generalizing v with
  | zero => simp only [Nat.pow_zero, Nat.lt_one_iff] at h; rw [h]; rfl
  | succ n ih =>
    rw [le, ofLe, ih (v / 256) (by rw [Nat.pow_succ] at h; omega), BitVec.toNat_ofNat]
    omega

theorem le_length (n v : Nat) : (le n v).length = n := by
  induction n generalizing v with
  | zero => rfl
  | succ n ih => simp [le, ih]

/-- Bytes written are read back. -/
theorem memReads_memWrites {m : List Host.Cell} (a : Nat) (l : List Byte) (h : Memory.wf m = true) :
    memReads (memWrites m a l) a l.length = l := by
  refine List.ext_getElem (by simp [memReads]) fun i hi hi' => ?_
  simp [memReads, memRead_writes_in a i l h hi']

theorem letterWrite_outside {b : Block} {o : Nat} (v : Nat) (h : o < 0x4000 ∨ 0x6800 ≤ o ∨ mapped o = false) :
    letterWrite o v b = b.letters := by
  unfold letterWrite
  rw [if_neg]
  rintro ⟨-, hm, hlo, hhi, -⟩
  rcases h with h | h | h
  · omega
  · omega
  · simp [hm] at h

theorem memRead_letterWrite_ne {b : Block} (o v : Nat) {a : Nat} (h : a < letterAddr o b ∨ letterAddr o b + 4 ≤ a) :
    memRead (letterWrite o v b) a = memRead b.letters a := by
  unfold letterWrite
  split
  · exact memRead_writes_out _ (by rwa [le_length])
  · rfl

/-- Settles O8: an effect leaves the letter memory or loses it whole; a register write stores at most the four bytes of its word. -/
theorem letterMemoryFrame : Obligations.LetterMemoryFrame := by
  refine ⟨fun c s t hw hpor hrel ht a => ?effect, fun s t o v ht ho a => ?elsewhere, fun s t o v ht a ha => ?otherBytes,
    fun s o v hr hwf hon hst hm hlo hhi => ?word⟩
  case effect =>
    obtain ⟨f, hf⟩ := exec_act c s hpor hrel hw
    rw [act_letters (hf ▸ ht)]
    split <;> rfl
  case elsewhere =>
    rw [exec_registerWrite] at ht
    obtain rfl := Host.Outcome.next.inj ht
    rw [afterWrite_letters, letterWrite_outside _ ho, ite_self]
  case otherBytes =>
    rw [exec_registerWrite] at ht
    obtain rfl := Host.Outcome.next.inj ht
    rw [afterWrite_letters]
    split
    · exact memRead_letterWrite_ne _ _ ha
    · rfl
  case word =>
    have hstored : (afterWrite o v s.blk).letters = memWrites s.blk.letters (letterAddr o.toNat s.blk) (le 4 v.toNat) := by
      rw [afterWrite_letters, if_pos (show s.blk.env.porN = true from hr), letterWrite, if_pos ⟨hon, hm, hlo, hhi, hst⟩]
    have hread : memReads (afterWrite o v s.blk).letters (letterAddr o.toNat s.blk) 4 = le 4 v.toNat := by
      have hbytes := memReads_memWrites (letterAddr o.toNat s.blk) (le 4 v.toNat) hwf
      rwa [← hstored, le_length] at hbytes
    exact ⟨_, exec_registerWrite o v s, hread, by rw [hread, ofLe_le 4 _ v.isLt]⟩

end Sys2Proof.Machine
end

section
/-! What each command leaves alone. A command is an effect on the block; the parts that the effect's own frame lists are
those the command can change, with the letter memory where the effect can power the Head Office domain off (R359). -/

namespace Sys2Proof.Machine

open Sys2Proof

/-- A frame that lists the letter memory, or neither of the two parts that say whether the Head Office domain lost its power. -/
def framesPower (l : List Part) : Bool :=
  decide (Part.letters ∈ l) || (decide (Part.svc ∉ l) && decide (Part.pm ∉ l))

/-- Holding the sampled inputs and the letter memory keeps the frame of an effect. -/
theorem Frame.held_of_framesPower {l : List Part} {o n : Block} (h : Frame l o n) (hl : framesPower l = true) : Frame l o (Machine.held o n) := by
  simp only [framesPower, Bool.or_eq_true, Bool.and_eq_true, decide_eq_true_eq] at hl
  obtain hmem | ⟨hs, hp⟩ := hl
  · intro p
    obtain hp | hp := h p
    · exact .inl hp
    · cases p
      case letters => exact .inl hmem
      case env => exact .inr (by simp only [Part.same] at hp ⊢; rw [Machine.held, hp])
      all_goals exact .inr hp
  · exact h.held' hs hp

/-- A command leaves what its effect leaves. -/
theorem act_frame {l : List Part} {f : Block → Block} {s t : State} (hf : Frame l s.blk s.blk → Frame l s.blk (f s.blk))
    (hl : framesPower l = true) (h : act f s = .next t) : Frame l s.blk t.blk := by
  obtain rfl := Host.Outcome.next.inj h
  dsimp only
  split
  · exact (hf (.refl l _)).held_of_framesPower hl
  · exact .refl l _

/-- A letter's command leaves what the checks, the receipts and the letter's own meaning leave. -/
theorem letter_frame {l : List Part} {r op : Nat} {f : Letter → Block → Reply} {s t : State}
    (hf : ∀ {x b}, Frame l s.blk b → Reply.within l s.blk (f x b))
    (m : ∀ p ∈ ([.ledger, .dbg, .mgmt, .mail, .fleet, .post] : List Part), p ∈ l) (hl : framesPower l = true)
    (h : act (letterRow r op f) s = .next t) : Frame l s.blk t.blk :=
  act_frame (fun h0 => frame_letterRow r op f h0 (fun _ _ => hf) m) hl h

/-- A register write leaves what the write of the register leaves; its word goes to the letter memory, which the frame lists. -/
theorem registerWrite_frame {o : BitVec 16} {v : BitVec 32} {s t : State} (h : exec (.registerWrite o v) s = .next t) :
    Frame [.outs, .pm, .svc, .keys, .ledger, .stop, .dbg, .letters, .free, .mgmt, .mail, .job, .fleet, .parcel, .post, .cores, .offices,
      .routers, .couriers] s.blk t.blk := by
  obtain rfl := Host.Outcome.next.inj h
  refine frame_with_letters (b := if s.blk.env.porN then held s.blk (winWrite o.toNat v.toNat s.blk) else s.blk) ?_ _ (subs_of rfl)
  split
  · exact (frame_winWrite _ _ (.refl _ _) (subs_of rfl)).held_of_framesPower rfl
  · exact .refl _ _

/-- Settles O50, command by command. -/
theorem bringUpFrames : Obligations.BringUpFrames :=
  ⟨fun _ _ _ _ => act_frame (fun h => frame_postmarkTestDone _ _ h (subs_of rfl)) rfl,
   fun _ _ _ _ _ _ => act_frame (fun h => frame_headOfficeTestDone _ _ _ _ _ h (subs_of rfl)) rfl,
   fun _ _ _ _ => act_frame (fun h => frame_configurationCheck _ _ h (subs_of rfl)) rfl,
   fun _ _ _ _ => act_frame (fun h => frame_ledgerReloadDone _ _ h (subs_of rfl)) rfl,
   fun _ _ _ _ _ _ => act_frame (fun h => frame_officeMemberTestDone _ _ _ _ h (subs_of rfl)) rfl,
   fun _ _ _ _ _ => act_frame (fun h => frame_routerLoopbackDone _ _ _ h (subs_of rfl)) rfl,
   fun _ _ _ _ _ => act_frame (fun h => frame_courierDomainTestDone _ _ _ h (subs_of rfl)) rfl,
   fun _ _ _ => act_frame (fun h => frame_officeLedgerDelivered _ h (subs_of rfl)) rfl,
   fun _ _ => act_frame (fun h => frame_waveRequest h (subs_of rfl)) rfl,
   fun _ _ => act_frame (fun h => frame_waveAck h (subs_of rfl)) rfl,
   fun _ _ => act_frame (fun h => frame_waveFailed h (subs_of rfl)) rfl,
   fun _ _ => act_frame (fun h => .ite (frame_waveFailed (frame_advTo _ h (subs_of rfl)) (subs_of rfl)) h) rfl,
   fun _ _ => act_frame (fun h => frame_boardMapPublication h (subs_of rfl)) rfl⟩

/-- Settles O51, command by command. -/
theorem coreTapFrames : Obligations.CoreTapFrames :=
  ⟨fun _ _ _ => act_frame (fun h => frame_corePorAssert _ h (subs_of rfl)) rfl,
   fun _ _ _ _ _ => act_frame (fun h => frame_corePorRelease _ _ _ h (subs_of rfl)) rfl,
   fun _ _ _ _ => act_frame (fun h => frame_alignmentEpochCheck _ _ h (subs_of rfl)) rfl,
   fun _ _ _ => act_frame (fun h => frame_clockDeclared _ h (subs_of rfl)) rfl,
   fun _ _ _ => act_frame (fun h => frame_clockEnded _ h (subs_of rfl)) rfl,
   fun _ _ _ _ => act_frame (fun h => frame_weightBeat _ _ h (subs_of rfl)) rfl,
   fun _ _ _ _ => act_frame (fun h => frame_activationBeat _ _ h (subs_of rfl)) rfl,
   fun _ _ _ _ => act_frame (fun h => frame_accumulatorDrain _ _ h (subs_of rfl)) rfl,
   fun _ _ _ => act_frame (fun h => frame_rowCompare _ h (subs_of rfl)) rfl,
   fun _ _ _ _ => act_frame (fun h => frame_outputBeat _ _ h (subs_of rfl)) rfl,
   fun _ _ _ => act_frame (fun h => frame_saturationPulse _ h (subs_of rfl)) rfl,
   fun _ _ _ _ => act_frame (fun h => frame_flushSticky _ _ h (subs_of rfl)) rfl,
   fun _ _ _ _ => act_frame (fun h => frame_tileVerdict _ _ h (subs_of rfl)) rfl,
   fun _ _ _ => act_frame (fun h => frame_coreSummary _ h (subs_of rfl)) rfl,
   fun _ _ _ _ _ => act_frame (fun h => frame_milestone _ _ _ h (subs_of rfl)) rfl,
   fun _ _ _ => act_frame (fun h => frame_stall _ h (subs_of rfl)) rfl,
   fun _ _ _ _ _ => act_frame (fun h => frame_waitBegin _ _ _ h (subs_of rfl)) rfl,
   fun _ _ _ => act_frame (fun h => frame_waitClear _ h (subs_of rfl)) rfl,
   fun _ _ _ _ => act_frame (fun h => frame_shadowRead _ _ _ h (subs_of rfl)) rfl,
   fun _ _ _ _ => act_frame (fun h => frame_fenceOrder _ _ h (subs_of rfl)) rfl,
   fun _ _ _ => act_frame (fun h => frame_fenceAck _ h (subs_of rfl)) rfl,
   fun _ _ _ => act_frame (fun h => frame_fenceTimeout _ h (subs_of rfl)) rfl,
   fun _ _ _ => act_frame (fun h => frame_coreRelease _ h (subs_of rfl)) rfl,
   fun _ _ _ => act_frame (fun h => frame_testRequest _ _ h (subs_of rfl)) rfl,
   fun _ _ _ => act_frame (fun h => frame_testAck _ h (subs_of rfl)) rfl,
   fun _ _ _ _ _ => act_frame (fun h => frame_testDone _ _ _ h (subs_of rfl)) rfl,
   fun _ _ _ => act_frame (fun h => frame_testTimeout _ h (subs_of rfl)) rfl,
   fun _ _ _ _ _ => act_frame (fun h => frame_captureRequest _ _ _ h (subs_of rfl)) rfl,
   fun _ _ _ => act_frame (fun h => frame_captureAck _ h (subs_of rfl)) rfl,
   fun _ _ _ _ _ => act_frame (fun h => frame_captureBeat _ _ _ h (subs_of rfl)) rfl,
   fun _ _ _ => act_frame (fun h => frame_captureTimeout _ h (subs_of rfl)) rfl,
   fun _ _ _ => act_frame (fun h => frame_captureClose _ h (subs_of rfl)) rfl⟩

/-- Settles O52, command by command. -/
theorem tapAndCourierFrames : Obligations.TapAndCourierFrames :=
  ⟨fun _ _ _ _ => act_frame (fun h => frame_intakeBeat _ _ h (subs_of rfl)) rfl,
   fun _ _ _ _ => act_frame (fun h => frame_egressTap _ _ _ h (subs_of rfl)) rfl,
   fun _ _ _ _ => act_frame (fun h => frame_egressTap _ _ _ h (subs_of rfl)) rfl,
   fun _ _ _ _ => act_frame (fun h => frame_egressStepEnd _ _ h (subs_of rfl)) rfl,
   fun _ _ => act_frame (fun h => frame_frankPresent h (subs_of rfl)) rfl,
   fun _ _ _ => act_frame (fun h => frame_frankAccept _ h (subs_of rfl)) rfl,
   fun _ _ _ => act_frame (fun h => frame_crLinkUp _ h (subs_of rfl)) rfl,
   fun _ _ _ => act_frame (fun h => frame_crLinkDown _ h (subs_of rfl)) rfl,
   fun _ _ _ _ _ => act_frame (fun h => frame_crWriteResponse _ _ _ h (subs_of rfl)) rfl,
   fun _ _ _ _ _ _ _ _ => act_frame (fun h => frame_crReadBeat _ _ _ _ _ _ h (subs_of rfl)) rfl,
   fun _ _ _ _ => act_frame (fun h => frame_crFlitTransmit _ _ h (subs_of rfl)) rfl,
   fun _ _ _ _ => act_frame (fun h => frame_crCreditReturn _ _ h (subs_of rfl)) rfl,
   fun _ _ _ _ _ => act_frame (fun h => frame_crFlitReceive _ _ _ h (subs_of rfl)) rfl,
   fun _ _ _ _ => act_frame (fun h => frame_fleetPacketReceive _ _ h (subs_of rfl)) rfl,
   fun _ _ _ => act_frame (fun h => frame_transitReport _ h (subs_of rfl)) rfl,
   fun _ _ _ _ _ => act_frame (fun h => frame_transitLost _ _ _ h (subs_of rfl)) rfl⟩

/-- Settles O53, command by command. -/
theorem resetAndStopFrames : Obligations.ResetAndStopFrames :=
  ⟨fun _ _ => act_frame (fun h => frame_hostDone h (subs_of rfl)) rfl,
   fun _ _ => act_frame (fun h => frame_startCold _ h (subs_of rfl)) rfl,
   fun _ _ _ => act_frame (fun h => frame_syncPulse _ h (subs_of rfl)) rfl,
   fun _ _ => act_frame (fun h => frame_syncMissing h (subs_of rfl)) rfl,
   fun _ _ => act_frame (fun h => .ite (frame_enterSafe _ h (subs_of rfl)) h) rfl,
   fun _ _ _ => act_frame (fun h => frame_legRemeasure _ h (subs_of rfl)) rfl,
   fun _ _ _ _ _ _ => act_frame (fun h => frame_powerIdValid _ _ _ _ h (subs_of rfl)) rfl,
   fun _ _ _ _ => act_frame (fun h => frame_regionVokFall _ _ h (subs_of rfl)) rfl,
   fun _ _ _ => act_frame (fun h => frame_testWindow _ h (subs_of rfl)) rfl,
   fun _ _ => act_frame (fun h => frame_shutdownRequest h (subs_of rfl)) rfl,
   fun _ _ _ => act_frame (fun h => frame_archiveDone _ h (subs_of rfl)) rfl,
   fun _ _ _ => act_frame (fun h => frame_stopInput _ h (subs_of rfl)) rfl,
   fun _ _ => act_frame (fun h => frame_stopPulseEnd h (subs_of rfl)) rfl,
   fun _ _ => act_frame (fun h => frame_stopCountReached h (subs_of rfl)) rfl,
   fun _ _ => act_frame (fun h => .ite (frame_releaseStop h (subs_of rfl)) h) rfl,
   fun _ _ => act_frame (fun h => frame_resumeReached h (subs_of rfl)) rfl,
   fun _ _ => act_frame (fun h => frame_resumeLate h (subs_of rfl)) rfl,
   fun _ _ => act_frame (fun h => frame_armDeadline h (subs_of rfl)) rfl,
   fun _ _ => act_frame (fun h => frame_launchReached h (subs_of rfl)) rfl,
   fun _ _ => act_frame (fun h => frame_stepBoundary h (subs_of rfl)) rfl,
   fun _ _ => act_frame (fun h => .ite (frame_enterSafe _ h (subs_of rfl)) h) rfl,
   fun _ _ _ => act_frame (fun h => frame_sramUncorrectable _ h (subs_of rfl)) rfl,
   fun _ _ => act_frame (fun h => frame_hostWarmTimeout h (subs_of rfl)) rfl,
   fun _ _ => act_frame (fun h => frame_hostColdTimeout h (subs_of rfl)) rfl,
   fun _ _ => act_frame (fun h => frame_resetWindowExpiry h (subs_of rfl)) rfl⟩

/-- Settles O54, command by command. -/
theorem stepFrames : Obligations.StepFrames :=
  ⟨fun _ _ _ _ _ => act_frame (fun h => frame_diceFill _ _ _ h (subs_of rfl)) rfl,
   fun _ _ _ _ => act_frame (fun h => frame_officeVerdict _ _ h (subs_of rfl)) rfl,
   fun _ _ _ _ => act_frame (fun h => frame_summaryReceive _ _ h (subs_of rfl)) rfl,
   fun _ _ _ => act_frame (fun h => frame_regionVerdict _ h (subs_of rfl)) rfl,
   fun _ _ => act_frame (fun h => frame_regionRecord h (subs_of rfl)) rfl,
   fun _ _ => act_frame (fun h => frame_egressReceive h (subs_of rfl)) rfl,
   fun _ _ => act_frame (fun h => frame_stepDecision h (subs_of rfl)) rfl,
   fun _ _ _ => act_frame (fun h => frame_decisionReceive _ h (subs_of rfl)) rfl,
   fun _ _ _ _ _ => act_frame (fun h => frame_fillPhase _ _ _ h (subs_of rfl)) rfl,
   fun _ _ _ _ => act_frame (fun h => frame_fillTimeout _ _ h (subs_of rfl)) rfl,
   fun _ _ => act_frame (fun h => frame_cleanHour h (subs_of rfl)) rfl,
   fun _ _ => act_frame (fun h => frame_waitGraph h (subs_of rfl)) rfl,
   fun _ _ _ _ => act_frame (fun h => frame_stallReceive _ _ h (subs_of rfl)) rfl,
   fun _ _ _ => act_frame (fun h => frame_eventForward _ h (subs_of rfl)) rfl,
   fun _ _ _ => act_frame (fun h => frame_testUnitPlace _ h (subs_of rfl)) rfl,
   fun _ _ _ => act_frame (fun h => frame_standbyPeriod _ h (subs_of rfl)) rfl,
   fun _ _ _ => act_frame (fun h => frame_standbyCopyDone _ h (subs_of rfl)) rfl,
   fun _ _ _ => act_frame (fun h => frame_plannedSwap _ h (subs_of rfl)) rfl,
   fun _ _ _ _ => act_frame (fun h => frame_routerRound _ _ h (subs_of rfl)) rfl,
   fun _ _ _ => act_frame (fun h => .ite (frame_failMember _ _ h (subs_of rfl)) h) rfl,
   fun _ _ _ _ => act_frame (fun h => frame_standbyTestDone _ _ h (subs_of rfl)) rfl⟩

/-- Settles O55, command by command. -/
theorem networkAndFleetFrames : Obligations.NetworkAndFleetFrames :=
  ⟨fun _ _ _ => act_frame (fun h => frame_routerFrame _ _ h (subs_of rfl)) rfl,
   fun _ _ _ _ => act_frame (fun h => frame_seamDeliver _ _ h (subs_of rfl)) rfl,
   fun _ _ _ _ => act_frame (fun h => frame_terminalReceive _ _ h (subs_of rfl)) rfl,
   fun _ _ _ => act_frame (fun h => frame_returnedReceive _ h (subs_of rfl)) rfl,
   fun _ _ _ => act_frame (fun h => frame_resendTimer _ h (subs_of rfl)) rfl,
   fun _ _ _ _ => act_frame (fun h => frame_congestionSample _ _ h (subs_of rfl)) rfl,
   fun _ _ _ => act_frame (fun h => frame_regionMapSend _ h (subs_of rfl)) rfl,
   fun _ _ => act_frame (fun h => frame_waferMapBroadcast h (subs_of rfl)) rfl,
   fun _ _ _ _ => act_frame (fun h => frame_tableSwapStart _ _ _ h (subs_of rfl)) rfl,
   fun _ _ => act_frame (fun h => frame_tableVersionRetire h (subs_of rfl)) rfl,
   fun _ _ _ => act_frame (fun h => frame_stagedActivation _ h (subs_of rfl)) rfl,
   fun _ _ _ _ => act_frame (fun h => frame_stageAckTimeout _ _ h (subs_of rfl)) rfl,
   fun _ _ => act_frame (fun h => frame_fleetHello h (subs_of rfl)) rfl,
   fun _ _ => act_frame (fun h => frame_helloPeriodic h (subs_of rfl)) rfl,
   fun _ _ _ => act_frame (fun h => frame_partnerStale _ h (subs_of rfl)) rfl,
   fun _ _ _ => act_frame (fun h => frame_partnerRemove _ h (subs_of rfl)) rfl,
   fun _ _ => act_frame (fun h => frame_letterMessage h (subs_of rfl)) rfl,
   fun _ _ => act_frame (fun h => frame_letterFwd h (subs_of rfl)) rfl,
   fun _ _ => act_frame (fun h => frame_receiptMessage h (subs_of rfl)) rfl,
   fun _ _ _ => act_frame (fun h => frame_replyTimeout _ h (subs_of rfl)) rfl,
   fun _ _ _ _ => act_frame (fun h => frame_fragmentTimeout _ _ h (subs_of rfl)) rfl,
   fun _ _ _ => act_frame (fun h => frame_ringLetterRelay _ h (subs_of rfl)) rfl,
   fun _ _ => act_frame (fun h => frame_bulkOpen h (subs_of rfl)) rfl,
   fun _ _ => act_frame (fun h => frame_bulkGrant h (subs_of rfl)) rfl,
   fun _ _ => act_frame (fun h => frame_bulkData h (subs_of rfl)) rfl,
   fun _ _ => act_frame (fun h => frame_bulkCredit h (subs_of rfl)) rfl,
   fun _ _ _ => act_frame (fun h => frame_bulkCreditTimeout _ h (subs_of rfl)) rfl,
   fun _ _ => act_frame (fun h => frame_collUp h (subs_of rfl)) rfl,
   fun _ _ => act_frame (fun h => frame_collDown h (subs_of rfl)) rfl,
   fun _ _ _ => act_frame (fun h => frame_collTimeout _ h (subs_of rfl)) rfl,
   fun _ _ _ _ => act_frame (fun h => frame_routerLost _ _ h (subs_of rfl)) rfl⟩

/-- Settles O56, command by command. -/
theorem parcelAndImageFrames : Obligations.ParcelAndImageFrames :=
  ⟨fun _ _ => act_frame (fun h => frame_parcelPrepare h (subs_of rfl)) rfl,
   fun _ _ => act_frame (fun h => frame_parcelRenew h (subs_of rfl)) rfl,
   fun _ _ => act_frame (fun h => frame_parcelVoteLate h (subs_of rfl)) rfl,
   fun _ _ => act_frame (fun h => frame_parcelStop h (subs_of rfl)) rfl,
   fun _ _ => act_frame (fun h => frame_parcelRootBuild h (subs_of rfl)) rfl,
   fun _ _ => act_frame (fun h => frame_parcelCommitSend h (subs_of rfl)) rfl,
   fun _ _ => act_frame (fun h => frame_parcelOverrun h (subs_of rfl)) rfl,
   fun _ _ => act_frame (fun h => frame_parcelUngate h (subs_of rfl)) rfl,
   fun _ _ _ _ => act_frame (fun h => .ite (frame_commitAnswer _ _ h (subs_of rfl)) h) rfl,
   fun _ _ _ => act_frame (fun h => .ite (frame_failCopy _ (frame_advTo _ h (subs_of rfl)) (subs_of rfl)) h) rfl,
   fun _ _ _ _ => act_frame (fun h => frame_reservationLapse _ _ h (subs_of rfl)) rfl,
   fun _ _ => act_frame (fun h => frame_teardownQuiesced h (subs_of rfl)) rfl,
   fun _ _ => act_frame (fun h => frame_teardownForce h (subs_of rfl)) rfl,
   fun _ _ _ _ => act_frame (fun h => frame_imagePacket _ _ h (subs_of rfl)) rfl,
   fun _ _ _ => act_frame (fun h => frame_imageRoundEnd _ h (subs_of rfl)) rfl,
   fun _ _ _ _ => act_frame (fun h => frame_imageReadback _ _ h (subs_of rfl)) rfl⟩

/-- Settles O57, command by command. -/
theorem letterFrames : Obligations.LetterFrames :=
  ⟨fun _ _ _ => letter_frame (fun h => reply_helloL _ h (subs_of rfl)) (subs_of rfl) rfl,
   fun _ _ _ => letter_frame (fun h => reply_identifyL _ h (subs_of rfl)) (subs_of rfl) rfl,
   fun _ _ _ => letter_frame (fun h => reply_inventoryL _ h (subs_of rfl)) (subs_of rfl) rfl,
   fun _ _ _ => letter_frame (fun h => reply_measureL _ h (subs_of rfl)) (subs_of rfl) rfl,
   fun _ _ _ _ => letter_frame (fun h => reply_jobLoadL _ _ h (subs_of rfl)) (subs_of rfl) rfl,
   fun _ _ _ _ => letter_frame (fun h => reply_launchL _ _ h (subs_of rfl)) (subs_of rfl) rfl,
   fun _ _ _ => letter_frame (fun h => reply_stopAtL _ h (subs_of rfl)) (subs_of rfl) rfl,
   fun _ _ _ => letter_frame (fun h => reply_urgentStopL _ h (subs_of rfl)) (subs_of rfl) rfl,
   fun _ _ _ => letter_frame (fun h => reply_stopReleaseL _ h (subs_of rfl)) (subs_of rfl) rfl,
   fun _ _ _ => letter_frame (fun h => reply_jobTeardownL _ h (subs_of rfl)) (subs_of rfl) rfl,
   fun _ _ _ => letter_frame (fun h => reply_postmarkLoadL _ h (subs_of rfl)) (subs_of rfl) rfl,
   fun _ _ _ _ _ => letter_frame (fun h => reply_outside _ _ (reply_formatLoadL _ _ _ h (subs_of rfl))) (subs_of rfl) rfl,
   fun _ _ _ => letter_frame (fun h => reply_outside _ _ (reply_diceRatesL _ h (subs_of rfl))) (subs_of rfl) rfl,
   fun _ _ _ => letter_frame (fun h => reply_outside _ _ (reply_canaryBandsL _ h (subs_of rfl))) (subs_of rfl) rfl,
   fun _ _ _ => letter_frame (fun h => reply_outside _ _ (reply_verdictPolicyL _ h (subs_of rfl))) (subs_of rfl) rfl,
   fun _ _ _ => letter_frame (fun h => reply_stepQueryL _ h (subs_of rfl)) (subs_of rfl) rfl,
   fun _ _ _ => letter_frame (fun h => reply_coreQueryL _ h (subs_of rfl)) (subs_of rfl) rfl,
   fun _ _ _ => letter_frame (fun h => reply_outside _ _ (reply_testPolicyL _ h (subs_of rfl))) (subs_of rfl) rfl,
   fun _ _ _ => act_frame (fun h => frame_testSweep _ h (subs_of rfl)) rfl,
   fun _ _ _ => letter_frame (fun h => reply_outside _ _ (reply_coreRestoreL _ h (subs_of rfl))) (subs_of rfl) rfl,
   fun _ _ _ _ => letter_frame (fun h => reply_testCourierL _ _ h (subs_of rfl)) (subs_of rfl) rfl,
   fun _ _ _ => letter_frame (fun h => reply_officeSwapL _ h (subs_of rfl)) (subs_of rfl) rfl,
   fun _ _ _ _ _ => letter_frame (fun h => reply_outside _ _ (reply_courierPowerL _ _ _ h (subs_of rfl))) (subs_of rfl) rfl,
   fun _ _ _ => letter_frame (fun h => reply_outside _ _ (reply_fleetRingsL _ h (subs_of rfl))) (subs_of rfl) rfl,
   fun _ _ _ => letter_frame (fun h => reply_courierEnableL _ h (subs_of rfl)) (subs_of rfl) rfl,
   fun _ _ _ => letter_frame (fun h => reply_partnerQueryL _ h (subs_of rfl)) (subs_of rfl) rfl,
   fun _ _ _ => letter_frame (fun h => reply_outside _ _ (reply_parcelPolicyL _ h (subs_of rfl))) (subs_of rfl) rfl,
   fun _ _ _ => letter_frame (fun h => reply_holderCapL _ h (subs_of rfl)) (subs_of rfl) rfl,
   fun _ _ _ => letter_frame (fun h => reply_parcelReserveL _ h (subs_of rfl)) (subs_of rfl) rfl,
   fun _ _ _ => act_frame (fun h => frame_parcelCommit _ h (subs_of rfl)) rfl,
   fun _ _ _ => letter_frame (fun h => reply_parcelQueryL _ h (subs_of rfl)) (subs_of rfl) rfl,
   fun _ _ _ => letter_frame (fun h => reply_parcelReleaseL _ h (subs_of rfl)) (subs_of rfl) rfl,
   fun _ _ _ _ => letter_frame (fun h => reply_parcelRestoreL _ _ h (subs_of rfl)) (subs_of rfl) rfl,
   fun _ _ _ => letter_frame (fun h => reply_warmResetL _ h (subs_of rfl)) (subs_of rfl) rfl,
   fun _ _ _ => act_frame (fun h => frame_coldReset _ h (subs_of rfl)) rfl,
   fun _ _ _ => letter_frame (fun h => reply_outside _ _ (reply_resetPolicyL _ h (subs_of rfl))) (subs_of rfl) rfl,
   fun _ _ _ => letter_frame (fun h => reply_counterSelectL _ h (subs_of rfl)) (subs_of rfl) rfl,
   fun _ _ _ => letter_frame (fun h => reply_counterReadL _ h (subs_of rfl)) (subs_of rfl) rfl,
   fun _ _ _ => letter_frame (fun h => reply_traceControlL _ h (subs_of rfl)) (subs_of rfl) rfl,
   fun _ _ => act_frame (fun h => frame_traceTrigger h (subs_of rfl)) rfl,
   fun _ _ _ => act_frame (fun h => frame_exportRow _ h (subs_of rfl)) rfl,
   fun _ _ _ _ => act_frame (fun h => frame_imageLoad _ _ h (subs_of rfl)) rfl,
   fun _ _ _ => letter_frame (fun h => reply_imageStatusL _ h (subs_of rfl)) (subs_of rfl) rfl,
   fun _ _ _ => letter_frame (fun h => reply_imageAbortL _ h (subs_of rfl)) (subs_of rfl) rfl,
   fun _ _ => act_frame (fun _ => tapReset_frame _) rfl,
   fun _ _ => act_frame (fun h => frame_ijtagSelect h (subs_of rfl)) rfl,
   fun _ _ _ => act_frame (fun h => frame_sibOpen _ h (subs_of rfl)) rfl,
   fun _ _ _ _ _ _ => act_frame (fun h => frame_coreCapUpdate _ _ _ _ h (subs_of rfl)) rfl⟩

/-- Settles O58, command by command. -/
theorem managementWindowFrames : Obligations.ManagementWindowFrames :=
  ⟨fun _ _ _ _ _ => act_frame (fun h => frame_keyPort _ _ _ h (subs_of rfl)) rfl,
   fun _ _ => act_frame (fun h => frame_zeroize h (subs_of rfl)) rfl,
   fun _ _ _ _ => registerWrite_frame,
   fun _ _ => act_frame (f := fun b => b.modOuts (fun o => { o with rspData := 0, rspErr := 0 })) (fun h => frame_modOuts _ h (subs_of rfl)) rfl,
   fun _ _ _ _ => act_frame (fun h => frame_winWrite _ _ h (subs_of rfl)) rfl,
   fun _ _ _ _ => act_frame (fun h => frame_winWrite _ _ h (subs_of rfl)) rfl,
   fun _ _ => act_frame (fun h => .ite (frame_respond _ _ (frame_modPm _ (frame_hoCount h (subs_of rfl)) (subs_of rfl)) (subs_of rfl)) h) rfl,
   fun _ _ _ => act_frame (fun h => frame_winWrite _ _ h (subs_of rfl)) rfl,
   fun _ _ _ => act_frame (fun h => frame_winWrite _ _ h (subs_of rfl)) rfl,
   fun _ _ _ => act_frame (fun h => frame_winWrite _ _ h (subs_of rfl)) rfl,
   fun _ _ _ => act_frame (fun h => frame_winWrite _ _ h (subs_of rfl)) rfl,
   fun _ _ _ => act_frame (fun h => frame_winWrite _ _ h (subs_of rfl)) rfl,
   fun _ _ _ => act_frame (fun h => frame_winWrite _ _ h (subs_of rfl)) rfl,
   fun _ _ _ => act_frame (fun h => frame_winWrite _ _ h (subs_of rfl)) rfl⟩

end Sys2Proof.Machine
end

section
/-! SAFE is entered with every host core fenced and held in reset, and is left only through a cold reset (R30). The commands
that can write the service state at all are those whose frame lists it; each of them keeps SAFE, or begins a cold reset. -/

namespace Sys2Proof.Machine

open Sys2Proof

/-! ### Entering SAFE (R30) -/

theorem raiseAlarm_low {code : Nat} {b : Block} (h : (raiseAlarm code b).outs.alarmN = true) : False := by
  unfold raiseAlarm at h
  split at h
  case isTrue => cases h
  case isFalse hno => exact hno (.inl h)

/-- What SAFE does to a core that lives: fenced, isolated, held in reset, its open tiles closed. -/
def Core.inSafe (c : Core) : Core := settleTags { c with pins := holdPins c.pins, scr := closeTiles c.scr }

/-- The block as SAFE finds it, with the alarm and the service state written. -/
def Block.safeEntered (code : Nat) (b : Block) : Block :=
  let c := raiseAlarm code b
  let c := if c.svc.state = .safe then c else setSvc .safe (c.modSvc (fun s => { s with safeCause := code, reset := 0 }))
  if code = 2 ∨ code = 3 then c.modSvc (fun s => { s with halted := true }) else c

theorem enterSafe_core (code : Nat) (b : Block) (i : Nat) : (enterSafe code b).core i =
    (forEach (b.safeEntered code).liveCores (fun i c => c.modCore i Core.inSafe) (b.safeEntered code)).core i := by
  unfold enterSafe
  rw [Block.modJob_core, endFills_keep_core, setGen_keep_core]
  rfl

theorem frame_safeEntered (code : Nat) (b : Block) : Frame [.outs, .svc, .dbg, .mgmt, .mail] b (b.safeEntered code) := by
  have halarm : Frame [.outs, .svc, .dbg, .mgmt, .mail] b (raiseAlarm code b) := frame_raiseAlarm _ (.refl _ _) (subs_of rfl)
  have hentered := Frame.ite (p := (raiseAlarm code b).svc.state = .safe) halarm (frame_setSvc .safe (frame_modSvc
    (fun s => { s with safeCause := code, reset := 0 }) halarm (subs_of rfl)) (subs_of rfl))
  exact .ite (frame_modSvc _ hentered (subs_of rfl)) hentered

theorem enterSafe_cfg (code : Nat) (b : Block) : (enterSafe code b).cfg = b.cfg :=
  (frame_enterSafe code (.refl [.outs, .svc, .ledger, .dbg, .letters, .mgmt, .mail, .job, .parcel, .cores] b) (subs_of rfl)).get .cfg (by decide)

theorem enterSafe_outs (code : Nat) (b : Block) : (enterSafe code b).outs = (raiseAlarm code b).outs := by
  unfold enterSafe
  rw [Block.modJob_outs, endFills_keeps_outs, setGen_keeps_outs, forEach_keeps_outs]
  · split <;> split <;> simp
  · exact fun _ _ => rfl

theorem enterSafe_alarmN (code : Nat) (b : Block) : (enterSafe code b).outs.alarmN = false := by
  rw [enterSafe_outs]
  exact Bool.eq_false_iff.2 raiseAlarm_low

/-- What SAFE does to the cores leaves alone what putting one core in SAFE leaves alone. -/
theorem enterSafe_core_keep {β : Type} (g : Core → β) (hg : ∀ c : Core, g c.inSafe = g c) (code : Nat) (b : Block) (i : Nat) :
    g ((enterSafe code b).core i) = g (b.core i) := by
  rw [enterSafe_core, forEach_keep (fun c => g (c.core i)) _ (fun j c => ?_) _ _]
  · exact congrArg g (Block.core_same ((frame_safeEntered code b).get .cores (by decide)) i)
  · by_cases h : i = j
    · subst h; rw [Block.modCore_self, hg]
    · rw [Block.modCore_ne _ _ h]

theorem popRegions_same {b c : Block} (h : c.cfg = b.cfg) : c.popRegions = b.popRegions := by
  simp only [Block.popRegions, Block.populated_same h]

theorem regionCores_same {b c : Block} (h : c.cfg = b.cfg) (r : Nat) : c.regionCores r = b.regionCores r := by
  simp only [Block.regionCores, Block.present_same h]

theorem presentCores_same {b c : Block} (h : c.cfg = b.cfg) : c.presentCores = b.presentCores := by
  simp only [Block.presentCores, popRegions_same h, regionCores_same h]

/-- The cores that live are those of the configuration that are out of reset. -/
theorem liveCores_same {b c : Block} (h : c.cfg = b.cfg) (hp : ∀ i, (c.core i).porN = (b.core i).porN) : c.liveCores = b.liveCores := by
  simp only [Block.liveCores, presentCores_same h, hp]

/-- Every core that lives in SAFE has been fenced, isolated and held. -/
theorem enterSafe_held {code : Nat} {b : Block} {i : Nat} (hi : i ∈ (enterSafe code b).liveCores) :
    ((enterSafe code b).core i).pins.fenceN = false ∧ ((enterSafe code b).core i).pins.isoN = false ∧
      ((enterSafe code b).core i).pins.holdN = false := by
  have hframe := frame_safeEntered code b
  have hlive : (enterSafe code b).liveCores = (b.safeEntered code).liveCores := by
    refine liveCores_same ((enterSafe_cfg code b).trans (hframe.get .cfg (by decide)).symm) fun j => ?_
    exact (enterSafe_core_keep Core.porN (fun _ => rfl) code b j).trans
      (congrArg Core.porN (Block.core_same (hframe.get .cores (by decide)) j)).symm
  rw [enterSafe_core]
  refine forEach_mem (P := fun c => (c.core i).pins.fenceN = false ∧ (c.core i).pins.isoN = false ∧ (c.core i).pins.holdN = false)
    (hlive ▸ hi) (fun c => ?_) (fun j c h => ?_) _
  · rw [Block.modCore_self]
    exact ⟨rfl, rfl, rfl⟩
  · by_cases hij : i = j
    · subst hij
      rw [Block.modCore_self]
      exact ⟨rfl, rfl, rfl⟩
    · rwa [Block.modCore_ne _ _ hij]

/-- After LOCKSTEP the Head Office's controller cores stop (R30). -/
theorem enterSafe_lockstep_hoRuns (b : Block) : (enterSafe 2 b).hoRuns = false := by
  have hhalted : (enterSafe 2 b).svc.halted = true := by
    rw [enterSafe_svc]
    simp
  simp [Block.hoRuns, hhalted]

/-! ### Staying in SAFE -/

/-- Every part of the block but the service state. -/
def besideSvc : List Part :=
  [.env, .outs, .pm, .keys, .cfg, .ledger, .arch, .stop, .dbg, .letters, .free, .mgmt, .mail, .job, .policy, .resets, .fleet, .parcel,
    .image, .post, .bm, .cores, .offices, .routers, .nodes, .couriers]

/-- The block is in SAFE. -/
def Block.inSafe (b : Block) : Prop := b.svc.state = .safe

/-- The block is in SAFE, or a cold reset takes it out. -/
def Block.safeOrCold (b : Block) : Prop := b.svc.state = .safe ∨ b.svc.state = .coldReset

theorem Block.inSafe.safeOrCold {b : Block} (h : b.inSafe) : b.safeOrCold := .inl h

/-- What leaves the service state keeps SAFE. -/
theorem Block.inSafe.frame {b c : Block} (h : b.inSafe) (hf : Frame besideSvc b b → Frame besideSvc b c) : c.inSafe :=
  (congrArg Svc.state ((hf (.refl _ b)).get .svc (by decide))).trans h

theorem Block.inSafe.of_eq {b c : Block} (h : b.inSafe) (hc : c = b) : c.inSafe := hc ▸ h

theorem Block.inSafe.ite {b c : Block} {p : Prop} [Decidable p] (hb : p → b.inSafe) (hc : ¬p → c.inSafe) : (if p then b else c).inSafe := by
  split
  · exact hb ‹p›
  · exact hc ‹¬p›

theorem inSafe_forEach {α : Type} {f : α → Block → Block} (hf : ∀ a b, b.inSafe → (f a b).inSafe) (xs : List α) {b : Block} (h : b.inSafe) :
    (forEach xs f b).inSafe := forEach_inv (P := Block.inSafe) hf h

theorem inSafe_modSvc {b : Block} {f : Svc → Svc} (h : b.inSafe) (hf : ∀ v : Svc, (f v).state = v.state) : (b.modSvc f).inSafe := (hf _).trans h

theorem inSafe_enterSafe (code : Nat) (b : Block) : (enterSafe code b).inSafe := enterSafe_state code b

/-! A cold reset begins, goes on or waits. -/

theorem coldProgress_state (b : Block) : (coldProgress b).svc.state = b.svc.state := by
  unfold coldProgress
  split <;> rfl

theorem inSafe_coldProgress {b : Block} (h : b.inSafe) : (coldProgress b).inSafe := (coldProgress_state b).trans h

theorem beginCold_state (cause : Nat) (b : Block) : (beginCold cause b).svc.state = .coldReset := by
  unfold beginCold
  dsimp only
  rw [coldProgress_state]
  refine (congrArg Svc.state ((frame_startPersist (.refl [.outs, .arch] _) fun _ h => h).get .svc (by decide))).trans ?_
  rw [Block.modOuts_svc, setSvc_svc]

theorem safeOrCold_startCold (cause : Nat) {b : Block} (h : b.safeOrCold) : (startCold cause b).safeOrCold := by
  unfold startCold
  split
  · exact h
  · split
    · exact h
    · exact .inr (beginCold_state cause b)

theorem safeOrCold_afterWave {b : Block} (h : b.inSafe) : (afterWave b).safeOrCold := by
  have hcold : ∀ c : Block, c.inSafe → (if c.svc.coldWait ≠ 0 then beginCold c.svc.coldWait c else coldProgress c).safeOrCold := by
    intro c hc
    split
    · exact .inr (beginCold_state _ _)
    · exact (inSafe_coldProgress hc).safeOrCold
  unfold afterWave
  have hslow : (b.modSvc (fun s => { s with slow := true })).inSafe := h
  exact hcold _ (.ite (fun _ => hslow.frame fun h0 => frame_hoEvent _ _ h0 (subs_of rfl)) fun _ => h)

theorem inSafe_waveOff (w : Nat) {b : Block} (h : b.inSafe) : (waveOff w b).inSafe := by
  unfold waveOff
  refine inSafe_modSvc (inSafe_forEach (fun i c hc => ?_) _ h) fun _ => rfl
  exact hc.frame fun h0 => frame_setCore _ _ h0 (subs_of rfl)

theorem safeOrCold_waveAck {b : Block} (h : b.inSafe) : (waveAck b).safeOrCold := by
  unfold waveAck
  split
  · exact h.safeOrCold
  · have hend : ((b.modOuts (fun o => { o with waveReq := false })).modSvc (fun s => { s with wavePhase := 2 })).inSafe := h
    exact safeOrCold_afterWave (.ite (fun _ => inSafe_modSvc hend fun _ => rfl) fun _ => inSafe_waveOff _ hend)

theorem safeOrCold_waveFailed {b : Block} (h : b.inSafe) : (waveFailed b).safeOrCold := by
  unfold waveFailed
  split
  · exact h.safeOrCold
  · refine safeOrCold_afterWave ?_
    have hblocked : ∀ w : Nat, ∀ c : Block, c.inSafe → (forEach (c.waveCores w) (fun i b => blockCore i 1 b) c).inSafe := fun w c hc =>
      inSafe_forEach (fun i c hc => hc.frame fun h0 => frame_blockCore _ _ h0 (subs_of rfl)) _ hc
    exact .ite (fun _ => hblocked _ _ h) fun _ => inSafe_waveOff _ (hblocked _ _ h)

theorem safeOrCold_waveTimeout {b : Block} (h : b.inSafe) :
    (if b.outs.waveReq then waveFailed (advTo (b.svc.waveAt.getD b.now + 5000000) b) else b).safeOrCold := by
  split
  · exact safeOrCold_waveFailed (h.frame fun h0 => frame_advTo _ h0 (subs_of rfl))
  · exact h.safeOrCold

theorem inSafe_persistDone {b : Block} (h : b.inSafe) : (persistDone b).inSafe := by
  unfold persistDone
  exact inSafe_coldProgress h

theorem inSafe_archiveDone (status : Nat) {b : Block} (h : b.inSafe) : (archiveDone status b).inSafe := by
  unfold archiveDone
  split
  · exact h
  · split
    · exact inSafe_coldProgress h
    · split
      · exact .ite (fun _ => h) fun _ => h
      · exact .ite (fun _ => h) fun _ => .ite (fun _ => h) fun _ => inSafe_persistDone h

/-! Bring-up, publication and loading need another service state. -/

theorem inSafe_waveRequest {b : Block} (h : b.inSafe) : (waveRequest b).inSafe := by
  have hcold : b.svc.state ≠ .coldReset := by rw [h]; decide
  have hrising : b.rising = false := by simp [Block.rising, show b.svc.state = .safe from h]
  unfold waveRequest
  refine .ite (fun _ => h) fun _ => ?_
  rw [if_neg hcold, if_pos (.inl (by simp [hrising]))]
  exact h

theorem inSafe_boardMapPublication {b : Block} (h : b.inSafe) : boardMapPublication b = b := by
  have hno : b.mayPublish = false := by simp [Block.mayPublish, show b.svc.state = .safe from h]
  unfold boardMapPublication
  rw [if_pos (by simp [hno])]

theorem inSafe_booting {b : Block} (h : b.inSafe) : b.booting = false := by simp [Block.booting, show b.svc.state = .safe from h]

theorem inSafe_postmarkTestDone {pass : Bool} {legs : List LegSample} {b : Block} (h : b.inSafe) : postmarkTestDone pass legs b = b := by
  unfold postmarkTestDone
  rw [if_pos (.inr (.inl (by simp [inSafe_booting h])))]

theorem inSafe_headOfficeTestDone {pass dbg : Bool} {sel : Nat} {s0 s1 : Option (List Byte)} {b : Block} (h : b.inSafe) :
    headOfficeTestDone pass dbg sel s0 s1 b = b := by
  unfold headOfficeTestDone
  rw [if_pos (.inr (.inr (by simp [inSafe_booting h])))]

theorem inSafe_ne_bringup {b : Block} (h : b.inSafe) : b.svc.state ≠ .bringup := by rw [h]; decide

theorem inSafe_configurationCheck {image : List Host.Cell} {present : List (Nat × Nat)} {b : Block} (h : b.inSafe) :
    configurationCheck image present b = b := by
  unfold configurationCheck
  rw [if_pos (.inr (.inr (inSafe_ne_bringup h)))]

theorem inSafe_ledgerReloadDone {sa sb : Option LedgerImage} {b : Block} (h : b.inSafe) : ledgerReloadDone sa sb b = b := by
  unfold ledgerReloadDone
  rw [if_pos (.inr (.inr (.inr (inSafe_ne_bringup h))))]

/-! The end of a teardown, a hang and a step decision leave SAFE. -/

theorem inSafe_endTeardown {b : Block} (h : b.inSafe) : (endTeardown b).inSafe := by
  unfold endTeardown
  dsimp only
  have hquiet : ∀ c : Block, c.inSafe → (applyLegs (c.modJob (fun j => { j with tearing := none }))).inSafe := fun c hc =>
    hc.frame fun h0 => frame_applyLegs (frame_modJob _ h0 (subs_of rfl)) (subs_of rfl)
  have hraised : ∀ (p : Prop) [Decidable p] (c : Block), c.inSafe → (if p then raiseWarm c else c).inSafe := fun p _ c hc =>
    .ite (fun _ => inSafe_modSvc (hc.frame fun h0 => frame_modOuts _ h0 (subs_of rfl)) fun _ => rfl) fun _ => hc
  have hready : ∀ c : Block, c.inSafe → (if c.svc.state = .job then setSvc .ready c else c).inSafe := fun c hc => by
    rw [if_neg (by rw [hc]; decide)]
    exact hc
  refine hready _ (hraised _ _ (hquiet _ ?_))
  refine h.frame fun h0 => frame_finishOp _ _ _ _ (frame_clearCause _ ?_ (subs_of rfl)) (subs_of rfl)
  have hended := frame_hoEvent evJobEnded (teardownRes b) (frame_dropCopies h0 (subs_of rfl)) (subs_of rfl)
  exact .ite hended (frame_clearCause _ hended (subs_of rfl))

theorem inSafe_hangTest (stalled : Nat) (ends : List ChainEnd) {b : Block} (h : b.inSafe) : (hangTest stalled ends b).inSafe := by
  unfold hangTest
  dsimp only
  have hcounted : ∀ n, (b.modJob (fun j => { j with hangs := n })).inSafe := fun _ => h
  refine .ite (fun _ => ?_) fun _ => hcounted _
  have hevent : ∀ c : Block, c.inSafe → (if c.ho.policy.autoWarm = true ∧ c.svc.state = .job then startWarm 2 c else c).inSafe := fun c hc => by
    rw [if_neg (by rintro ⟨-, hj⟩; rw [hc] at hj; cases hj)]
    exact hc
  exact hevent _ ((hcounted _).frame fun h0 => frame_hoEvent _ _ (frame_modJob _ h0 (subs_of rfl)) (subs_of rfl))

theorem inSafe_waitGraph {b : Block} (h : b.inSafe) : (waitGraph b).inSafe := by
  unfold waitGraph
  refine .ite (fun _ => h) fun _ => inSafe_hangTest _ _ (h.frame fun h0 => ?_)
  refine .forEach1 (.forEach1 (.forEach1 (frame_modJob _ (frame_advTo _ h0 (subs_of rfl)) (subs_of rfl)) fun p c hc => ?_)
    fun role c hc => ?_) fun role c hc => ?_
  · exact frame_externalStall _ hc (subs_of rfl)
  · exact frame_sendRoot _ hc (subs_of rfl)
  · split
    · exact frame_modSt _ _ hc (subs_of rfl)
    · exact hc

theorem inSafe_regionVerdict (r : Nat) {b : Block} (h : b.inSafe) : (regionVerdict r b).inSafe := by
  unfold regionVerdict
  have hgraphed : (if b.ho.job.graphed then b else waitGraph b).inSafe := .ite (fun _ => h) fun _ => inSafe_waitGraph h
  exact .ite (fun _ => h) fun _ => .ite (fun _ => hgraphed.frame fun h0 => frame_formRecord _ h0 (subs_of rfl)) fun _ => hgraphed

theorem inSafe_stepDecision {b : Block} (h : b.inSafe) : (stepDecision b).inSafe := by
  unfold stepDecision
  refine .ite (fun _ => h) fun _ => ?_
  have hfiled : (forEach b.popRegions regionVerdict b).inSafe := inSafe_forEach (f := regionVerdict) (fun r c hc => inSafe_regionVerdict r hc) b.popRegions h
  refine .ite (fun _ => hfiled) fun _ => hfiled.frame fun h0 => ?_
  refine frame_parcelVote _ (.ite (frame_stopJobNext (frame_hoEvent _ _ (.ite ?_ ?_) (subs_of rfl)) (subs_of rfl)) (.ite ?_ ?_)) (subs_of rfl)
  all_goals
    first
      | refine frame_frankCores (frame_modJob _ ?_ (subs_of rfl)) (subs_of rfl)
      | refine frame_orderReplay ?_ (subs_of rfl)
    refine frame_hoEvent _ _ (frame_modLedger _ (frame_modJob _ ?_ (subs_of rfl)) (subs_of rfl)) (subs_of rfl)
    exact frame_stepDigest (frame_advTo _ h0 (subs_of rfl)) (subs_of rfl)

theorem inSafe_stepBoundary {b : Block} (h : b.inSafe) : (stepBoundary b).inSafe := by
  have hdecided : (if b.ho.job.decided then b else stepDecision b).inSafe := .ite (fun _ => h) fun _ => inSafe_stepDecision h
  have hvoted : ∀ c : Block, c.inSafe → (if c.ho.parcel.voting then parcelVoteLate c else c).inSafe := fun c hc =>
    .ite (fun _ => hc.frame fun h0 => frame_parcelVoteLate h0 (subs_of rfl)) fun _ => hc
  have hstart := hvoted _ (hdecided.frame fun h0 => frame_expireFills h0 (subs_of rfl))
  have hcount := hstart.frame fun h0 => frame_stopCountReached h0 (subs_of rfl)
  unfold stepBoundary
  refine .ite (fun _ => h) fun _ => .ite (fun _ => hstart) fun _ => .ite (fun _ => hcount) fun _ => .ite (fun _ => hcount) fun _ =>
    .ite (fun _ => ?scheduled) fun _ => .ite (fun _ => ?parcel) fun _ => ?slot
  case scheduled => exact hstart.frame fun h0 => frame_scheduledStop _ h0 (subs_of rfl)
  case parcel => exact hstart.frame fun h0 => frame_parcelStop h0 (subs_of rfl)
  case slot => exact hstart.frame fun h0 => frame_openSlot _ _ _ _ (frame_advTo _ h0 (subs_of rfl)) (subs_of rfl)

/-! A router's frame: two lookups of the Head Office that differ put the block in SAFE (R281); every other hop leaves the service
state. -/

theorem inSafe_lookupDiffers (u i : Nat) {b : Block} (h : b.inSafe) : (lookupDiffers u i b).inSafe := by
  unfold lookupDiffers
  refine .ite (fun _ => h.frame fun h0 => frame_modNet _ _ h0 (subs_of rfl)) fun _ => ?_
  dsimp only
  split
  · exact inSafe_enterSafe _ _
  · exact h.frame fun h0 => frame_failMember _ _ (frame_postEvent _ _ _ (frame_modNet _ _ h0 (subs_of rfl)) (subs_of rfl)) (subs_of rfl)
  · exact h.frame fun h0 => frame_postEvent _ _ _ (frame_modNet _ _ h0 (subs_of rfl)) (subs_of rfl)

/-- A packet leaves the terminal's queue, and the fleet port's transit slot is claimed. -/
theorem frame_taken {l : List Part} {o b : Block} (src : Nat) (f : NetEnd → NetEnd) (p : Prop) [Decidable p] (port lane from_ : Nat)
    (h0 : Frame l o b) (m : ∀ p ∈ ([.post, .cores, .offices, .routers, .couriers] : List Part), p ∈ l) :
    Frame l o (if p then claimSlot port lane from_ (b.modNet src f) else b.modNet src f) :=
  .ite (frame_claimSlot _ _ _ (frame_modNet _ _ h0 fun p hp => m p (subs_of rfl p hp)) fun p hp => m p (subs_of rfl p hp))
    (frame_modNet _ _ h0 fun p hp => m p (subs_of rfl p hp))

theorem inSafe_injectFrom (nd : Bool) (k : Nat) (differs : Bool) (u : FrameUse) (src : Nat) {b : Block} (h : b.inSafe) :
    (injectFrom nd k differs u src b).2.inSafe := by
  unfold injectFrom
  split
  case h_1 => exact h
  case h_2 =>
    dsimp only
    split
    · exact inSafe_lookupDiffers _ _ h
    · split
      · exact h.frame fun h0 => frame_discard _ _ _ _ _ (frame_taken _ _ _ _ _ _ h0 (subs_of rfl)) (subs_of rfl)
      · split
        · split
          · exact h.frame fun h0 => frame_toTerm _ _ _ (frame_taken _ _ _ _ _ _ h0 (subs_of rfl)) (subs_of rfl)
          · exact h
        · split
          · exact h.frame fun h0 => frame_sendOut _ _ _ _ (frame_taken _ _ _ _ _ _ h0 (subs_of rfl)) (subs_of rfl)
          · exact h

theorem inSafe_injectRound (nd : Bool) (k : Nat) (differs : Bool) (u : FrameUse) (ps : List Nat) {b : Block} (h : b.inSafe) :
    (injectRound nd k differs u ps b).2.2.inSafe := by
  induction ps generalizing b with
  | nil => exact h
  | cons p ps ih =>
    unfold injectRound
    cases b.placeUnit nd k p with
    | none => exact ih h
    | some src =>
      have hfrom := inSafe_injectFrom nd k differs u src h
      dsimp only
      revert hfrom
      generalize injectFrom nd k differs u src b = z
      intro hfrom
      split
      · exact ih hfrom
      · exact hfrom

theorem inSafe_injectTurn (nd : Bool) (k : Nat) (differs : Bool) (u : FrameUse) {b : Block} (h : b.inSafe) :
    (injectTurn nd k differs u b).2.2.inSafe := by
  have hhop : ∀ (c : Block) (f : Router → Router), c.inSafe → (c.modHop nd k f).inSafe := fun c f hc =>
    hc.frame fun h0 => frame_modHop _ _ _ h0 (subs_of rfl)
  unfold injectTurn
  dsimp only
  split
  · exact hhop _ _ (inSafe_injectFrom _ _ _ _ _ h)
  · have hturned : ∀ p : Bool, (if p then b.modHop nd k (fun y => { y with gateTurn := true }) else b).inSafe := fun p =>
      .ite (fun _ => hhop _ _ h) fun _ => h
    split
    · exact hturned _
    · exact inSafe_injectRound _ _ _ _ _ (hturned _)

theorem inSafe_routerFrame (u : Nat) (differs : Bool) {b : Block} (h : b.inSafe) : (routerFrame u differs b).inSafe := by
  unfold routerFrame
  refine .ite (fun _ => h) fun _ => ?_
  unfold frameOf
  dsimp only
  refine Block.inSafe.frame (inSafe_injectTurn _ _ _ _ ?_) fun h0 => frame_waitSeams _ _ (frame_modHop _ _ _ h0 (subs_of rfl)) (subs_of rfl)
  exact h.frame fun h0 => frame_arbitrates _ _ _ (_, _) (frame_modHop _ _ _ h0 (subs_of rfl)) (subs_of rfl)

/-! Resets, pins and failures. -/

theorem inSafe_hostDone {b : Block} (h : b.inSafe) : (hostDone b).inSafe := by
  unfold hostDone
  exact .ite (fun _ => h) fun _ => .ite (fun _ => h) fun _ => h.frame fun h0 =>
    frame_hoEvent _ _ (frame_modDebug _ h0 (subs_of rfl)) (subs_of rfl)

theorem inSafe_powerIdValid (vld : Bool) (feed loop : BitVec 16) (rack : BitVec 24) {b : Block} (h : b.inSafe) :
    (powerIdValid vld feed loop rack b).inSafe := by
  have hheld : (if vld then (b.modEnv (fun e => { e with idVld := vld, feedIn := feed, loopIn := loop, rackIn := rack })).modSvc
      (fun s => { s with feed := feed, loop := loop, rack := rack })
      else b.modEnv (fun e => { e with idVld := vld, feedIn := feed, loopIn := loop, rackIn := rack })).inSafe := .ite (fun _ => h) fun _ => h
  unfold powerIdValid
  refine .ite (fun _ => hheld.frame fun h0 => ?_) fun _ => hheld
  exact frame_reselect (.forEach1 (frame_hoEvent _ _ h0 (subs_of rfl)) fun w c hc => frame_sendHello _ hc (subs_of rfl)) (subs_of rfl)

theorem inSafe_shutdownRequest {b : Block} (h : b.inSafe) : (shutdownRequest b).inSafe := by
  have hasked : ((setIrqMisc 3 (b.modEnv (fun e => { e with shdnReq := true }))).modSvc (fun s => { s with shutting := true })).inSafe :=
    inSafe_modSvc (h.frame fun h0 => frame_setIrqMisc _ (frame_modEnv _ h0 (subs_of rfl)) (subs_of rfl)) fun _ => rfl
  unfold shutdownRequest
  refine .ite (fun _ => h) fun _ => hasked.frame fun h0 => ?_
  have hevent := frame_hoEvent evShutdownReq [] h0 (subs_of rfl)
  exact frame_startPersist (frame_abandonCapture (.ite (frame_originate _ hevent (subs_of rfl)) hevent) (subs_of rfl)) (subs_of rfl)

theorem inSafe_sramUncorrectable (m : SramUnit) {b : Block} (h : b.inSafe) : (sramUncorrectable m b).inSafe := by
  cases m with
  | letterbox core => exact .ite (fun _ => h.frame fun h0 => frame_failLetterbox _ h0 (subs_of rfl)) fun _ => h
  | office region member => exact .ite (fun _ => h.frame fun h0 => frame_failMember _ _ h0 (subs_of rfl)) fun _ => h
  | headOffice => exact .ite (fun _ => inSafe_enterSafe _ _) fun _ => h
  | courier n id =>
    unfold sramUncorrectable
    dsimp only
    split
    · exact h.frame fun h0 => frame_xferEnd _ _ _ h0 (subs_of rfl)
    · exact h
  | trace => exact h.frame fun h0 => frame_dropTrace h0 (subs_of rfl)

theorem safeOrCold_hostWarmTimeout {b : Block} (h : b.inSafe) : (hostWarmTimeout b).safeOrCold := by
  unfold hostWarmTimeout
  split
  · refine safeOrCold_startCold _ (Block.inSafe.safeOrCold (h.frame fun h0 => ?_))
    exact frame_hoEvent _ _ (frame_advTo _ h0 (subs_of rfl)) (subs_of rfl)
  · exact h.safeOrCold

theorem inSafe_hostColdTimeout {b : Block} (h : b.inSafe) : (hostColdTimeout b).inSafe := by
  unfold hostColdTimeout
  refine .ite (fun _ => ?_) fun _ => h
  have htold : ∀ f : Outs → Outs, (hoEvent evHostColdTimeout [] ((advTo b.svc.resetDue b).modOuts f)).inSafe := fun f =>
    h.frame fun h0 => frame_hoEvent _ _ (frame_modOuts _ (frame_advTo _ h0 (subs_of rfl)) (subs_of rfl)) (subs_of rfl)
  exact .ite (fun _ => htold _) fun hno => absurd (htold _) hno

theorem inSafe_teardownQuiesced {b : Block} (h : b.inSafe) : (teardownQuiesced b).inSafe := by
  unfold teardownQuiesced
  split
  · exact h
  · exact .ite (fun _ => inSafe_endTeardown (h.frame fun h0 => frame_advTo _ h0 (subs_of rfl))) fun _ => h

theorem inSafe_teardownForce {b : Block} (h : b.inSafe) : (teardownForce b).inSafe := by
  unfold teardownForce
  split
  · exact h
  · refine inSafe_endTeardown (h.frame fun h0 => ?_)
    exact frame_modJob _ (frame_modFleet _ (frame_allCouriers _ (frame_advTo _ h0 (subs_of rfl)) (subs_of rfl)) (subs_of rfl)) (subs_of rfl)

theorem inSafe_sibFail (x : Sib) {b : Block} (h : b.inSafe) : (sibFail x b).inSafe := by
  cases x with
  | ho => exact .ite (fun _ => inSafe_enterSafe _ _) fun _ => h
  | pm => exact .ite (fun _ => inSafe_enterSafe _ _) fun _ => h
  | cr n => exact h.frame fun h0 => frame_disableDomain _ h0 (subs_of rfl)
  | oa r => exact .ite (fun _ => h.frame fun h0 => frame_failMember _ _ h0 (subs_of rfl)) fun _ => h
  | ob r => exact .ite (fun _ => h.frame fun h0 => frame_failMember _ _ h0 (subs_of rfl)) fun _ => h
  | rs r c => exact h.frame fun h0 => frame_routerLost _ _ h0 (subs_of rfl)
  | ls core => exact .ite (fun _ => h.frame fun h0 => frame_failLetterbox _ h0 (subs_of rfl)) fun _ => h
  | _ => exact h

theorem inSafe_sibOpen (x : Sib) {b : Block} (h : b.inSafe) : (sibOpen x b).inSafe := by
  unfold sibOpen
  exact .ite (fun _ => h) fun _ => inSafe_sibFail x h

/-! Letters and register writes. -/

/-- A letter that SAFE refuses leaves the service state. -/
theorem inSafe_refusedLetter {r op st : Nat} {f : Letter → Block → Reply} {b : Block} (hop : admits .safe op = some st) (h : b.inSafe) :
    (letterRow r op f b).inSafe := by
  unfold letterRow
  split
  · exact h
  · refine .ite (fun _ => h) fun _ => ?_
    rw [show b.svc.state = .safe from h, hop]
    exact h.frame fun h0 => frame_answerRefuse _ _ _ _ h0 (subs_of rfl)

theorem safeOrCold_coldReset (r : Nat) {b : Block} (h : b.inSafe) : (coldReset r b).safeOrCold := by
  unfold coldReset
  split
  · refine safeOrCold_startCold _ (Block.inSafe.safeOrCold (h.frame fun h0 => ?_))
    exact frame_letterRow _ _ _ h0 (fun _ _ hb => hb) (subs_of rfl)
  · exact h.safeOrCold

theorem inSafe_plainWrite (o v : Nat) {b : Block} (h : b.inSafe) : (plainWrite o v b).inSafe := by
  have hmgmt : ∀ f : Mgmt → Mgmt, (b.modMgmt f).inSafe := fun _ => h
  have hpm : ∀ f, (b.modPm f).inSafe := fun _ => h
  unfold plainWrite
  split
  case h_7 => exact hpm _
  case h_8 => exact inSafe_modSvc h fun _ => rfl
  case h_9 => exact h
  all_goals exact hmgmt _

/-- What a write of a register of the window does beside the service registers leaves the service state. -/
theorem inSafe_writeReg (o v : Nat) {b : Block} (h : b.inSafe) : (writeReg o v b).2.inSafe := by
  have hrsv : (recordErrs o (rsvCauses o v) b).inSafe := h.frame fun h0 => frame_recordErrs _ _ h0 (subs_of rfl)
  unfold writeReg
  split
  · exact h.frame fun h0 => frame_pmLatch _ h0 (subs_of rfl)
  split
  · exact h.frame fun h0 => frame_stopCtrl _ h0 (subs_of rfl)
  split
  · exact h.frame fun h0 => frame_crEnable _ h0 (subs_of rfl)
  split
  · exact h.frame fun h0 => frame_errClear _ h0 (subs_of rfl)
  split
  · exact h.frame fun h0 => frame_keyCtrl _ h0 (subs_of rfl)
  split
  · exact h.frame fun h0 => frame_keyData _ h0 (subs_of rfl)
  split
  · exact (inSafe_plainWrite o v h).frame fun h0 => frame_recordErrs _ _ h0 (subs_of rfl)
  split
  · dsimp only
    split
    · exact hrsv.frame fun h0 => frame_ringBell _ _ h0 (subs_of rfl)
    · exact .ite (fun _ => hrsv) fun _ => hrsv.frame fun h0 => frame_popRing _ _ h0 (subs_of rfl)
    · exact hrsv.frame fun h0 => frame_modRing _ _ h0 (subs_of rfl)
    · exact hrsv
  · exact h

theorem inSafe_winWrite (o v : Nat) {b : Block} (h : b.inSafe) : (winWrite o v b).inSafe := by
  have hanswered : ∀ (d e : Nat) (c : Block), c.inSafe → (respond d e c).inSafe := fun d e c hc =>
    hc.frame fun h0 => frame_respond _ _ h0 (subs_of rfl)
  unfold winWrite
  refine .ite (fun _ => h) fun _ => .ite (fun _ => hanswered _ _ _ (h.frame fun h0 => frame_recordErr _ _ h0 (subs_of rfl))) fun _ =>
    .ite (fun _ => hanswered _ _ _ h) fun _ => ?_
  exact hanswered _ _ _ (inSafe_writeReg o v h)

/-! The commands. -/

theorem act_safeOrCold {f : Block → Block} {s t : State} (hf : (f s.blk).safeOrCold) (hs : s.blk.inSafe) (h : act f s = .next t) :
    t.blk.safeOrCold := by
  obtain rfl := act_next_eq h
  dsimp only
  split
  · exact hf
  · exact hs.safeOrCold

theorem act_inSafe {f : Block → Block} {s t : State} (hf : (f s.blk).inSafe) (hs : s.blk.inSafe) (h : act f s = .next t) : t.blk.safeOrCold :=
  act_safeOrCold hf.safeOrCold hs h

/-- A command whose effect leaves the service state keeps SAFE. -/
theorem act_besideSvc {f : Block → Block} {s t : State} (hf : Frame besideSvc s.blk s.blk → Frame besideSvc s.blk (f s.blk)) (hs : s.blk.inSafe)
    (h : act f s = .next t) : t.blk.safeOrCold := act_inSafe (hs.frame hf) hs h

/-- A letter whose meaning leaves the service state keeps SAFE. -/
theorem letter_besideSvc {r op : Nat} {f : Letter → Block → Reply} {s t : State}
    (hf : ∀ {x b}, Frame besideSvc s.blk b → Reply.within besideSvc s.blk (f x b)) (hs : s.blk.inSafe) (h : act (letterRow r op f) s = .next t) :
    t.blk.safeOrCold := act_besideSvc (fun h0 => frame_letterRow r op f h0 (fun _ _ => hf) (subs_of rfl)) hs h

theorem blockResetRelease_safeOrCold {lc lcInv : BitVec 3} {arPresent idVld : Bool} {feed loop : BitVec 16} {rack : BitVec 24} {mfgId : BitVec 11}
    {rgnVok : BitVec 128} {s t : State} (hlive : s.blk.env.porN = true) (hs : s.blk.inSafe)
    (h : exec (.blockResetRelease lc lcInv arPresent idVld feed loop rack mfgId rgnVok) s = .next t) : t.blk.safeOrCold := by
  rw [exec_blockResetRelease] at h
  obtain rfl := Host.Outcome.next.inj h
  refine Block.inSafe.safeOrCold (hs.of_eq ?_)
  dsimp only
  unfold resetRelease
  rw [if_pos hlive]

theorem registerWrite_safeOrCold {o : BitVec 16} {v : BitVec 32} {s t : State} (hs : s.blk.inSafe)
    (h : exec (.registerWrite o v) s = .next t) : t.blk.safeOrCold := by
  obtain rfl := Host.Outcome.next.inj h
  have hwritten : (if s.blk.env.porN then held s.blk (winWrite o.toNat v.toNat s.blk) else s.blk).inSafe :=
    .ite (fun _ => inSafe_winWrite _ _ hs) fun _ => hs
  exact hwritten.safeOrCold

/-- SAFE stays, or a cold reset takes the block out of it: what each command does. -/
theorem exec_safeOrCold {c : Instr} {s t : State} (hpor : c ≠ .blockPowerOnReset) (hlive : s.blk.env.porN = true) (hs : s.blk.inSafe)
    (h : exec c s = .next t) : t.blk.safeOrCold := by
  cases c with
  | blockPowerOnReset => exact absurd rfl hpor
  | blockResetRelease _ _ _ _ _ _ _ _ _ => exact blockResetRelease_safeOrCold hlive hs h
  | postmarkDomainTestDone _ _ => exact act_inSafe (hs.of_eq (inSafe_postmarkTestDone hs)) hs h
  | headOfficeTestDone _ _ _ _ => exact act_inSafe (hs.of_eq (inSafe_headOfficeTestDone hs)) hs h
  | configurationCheck _ _ => exact act_inSafe (hs.of_eq (inSafe_configurationCheck hs)) hs h
  | ledgerReloadDone _ _ => exact act_inSafe (hs.of_eq (inSafe_ledgerReloadDone hs)) hs h
  | officeMemberTestDone _ _ _ _ => exact act_besideSvc (fun h0 => frame_officeMemberTestDone _ _ _ _ h0 (subs_of rfl)) hs h
  | routerLoopbackDone _ _ _ => exact act_besideSvc (fun h0 => frame_routerLoopbackDone _ _ _ h0 (subs_of rfl)) hs h
  | courierDomainTestDone _ _ _ => exact act_besideSvc (fun h0 => frame_courierDomainTestDone _ _ _ h0 (subs_of rfl)) hs h
  | officeLedgerDelivered _ => exact act_besideSvc (fun h0 => frame_officeLedgerDelivered _ h0 (subs_of rfl)) hs h
  | waveRequest => exact act_inSafe (inSafe_waveRequest hs) hs h
  | waveAck => exact act_safeOrCold (safeOrCold_waveAck hs) hs h
  | waveFail => exact act_safeOrCold (safeOrCold_waveFailed hs) hs h
  | waveTimeout => exact act_safeOrCold (safeOrCold_waveTimeout hs) hs h
  | boardMapPublication => exact act_inSafe (hs.of_eq (inSafe_boardMapPublication hs)) hs h
  | corePorAssert _ => exact act_besideSvc (fun h0 => frame_corePorAssert _ h0 (subs_of rfl)) hs h
  | corePorRelease _ _ _ => exact act_besideSvc (fun h0 => frame_corePorRelease _ _ _ h0 (subs_of rfl)) hs h
  | alignmentEpochCheck _ _ => exact act_besideSvc (fun h0 => frame_alignmentEpochCheck _ _ h0 (subs_of rfl)) hs h
  | clockChangeDeclared _ => exact act_besideSvc (fun h0 => frame_clockDeclared _ h0 (subs_of rfl)) hs h
  | clockChangeEnded _ => exact act_besideSvc (fun h0 => frame_clockEnded _ h0 (subs_of rfl)) hs h
  | weightBeat _ _ => exact act_besideSvc (fun h0 => frame_weightBeat _ _ h0 (subs_of rfl)) hs h
  | activationBeat _ _ => exact act_besideSvc (fun h0 => frame_activationBeat _ _ h0 (subs_of rfl)) hs h
  | accumulatorDrain _ _ => exact act_besideSvc (fun h0 => frame_accumulatorDrain _ _ h0 (subs_of rfl)) hs h
  | rowCompare _ => exact act_besideSvc (fun h0 => frame_rowCompare _ h0 (subs_of rfl)) hs h
  | outputBeat _ _ => exact act_besideSvc (fun h0 => frame_outputBeat _ _ h0 (subs_of rfl)) hs h
  | saturationPulse _ => exact act_besideSvc (fun h0 => frame_saturationPulse _ h0 (subs_of rfl)) hs h
  | flushSticky _ _ => exact act_besideSvc (fun h0 => frame_flushSticky _ _ h0 (subs_of rfl)) hs h
  | tileVerdict _ _ => exact act_besideSvc (fun h0 => frame_tileVerdict _ _ h0 (subs_of rfl)) hs h
  | coreSummary _ => exact act_besideSvc (fun h0 => frame_coreSummary _ h0 (subs_of rfl)) hs h
  | milestone _ _ _ => exact act_besideSvc (fun h0 => frame_milestone _ _ _ h0 (subs_of rfl)) hs h
  | stall _ => exact act_besideSvc (fun h0 => frame_stall _ h0 (subs_of rfl)) hs h
  | waitBegin _ _ _ => exact act_besideSvc (fun h0 => frame_waitBegin _ _ _ h0 (subs_of rfl)) hs h
  | waitClear _ => exact act_besideSvc (fun h0 => frame_waitClear _ h0 (subs_of rfl)) hs h
  | shadowDescriptorRead _ _ => exact act_besideSvc (fun h0 => frame_shadowRead _ _ _ h0 (subs_of rfl)) hs h
  | fenceOrder _ _ => exact act_besideSvc (fun h0 => frame_fenceOrder _ _ h0 (subs_of rfl)) hs h
  | fenceAck _ => exact act_besideSvc (fun h0 => frame_fenceAck _ h0 (subs_of rfl)) hs h
  | fenceTimeout _ => exact act_besideSvc (fun h0 => frame_fenceTimeout _ h0 (subs_of rfl)) hs h
  | coreRelease _ => exact act_besideSvc (fun h0 => frame_coreRelease _ h0 (subs_of rfl)) hs h
  | testRequest _ => exact act_besideSvc (fun h0 => frame_testRequest _ _ h0 (subs_of rfl)) hs h
  | testAck _ => exact act_besideSvc (fun h0 => frame_testAck _ h0 (subs_of rfl)) hs h
  | testDone _ _ _ => exact act_besideSvc (fun h0 => frame_testDone _ _ _ h0 (subs_of rfl)) hs h
  | testTimeout _ => exact act_besideSvc (fun h0 => frame_testTimeout _ h0 (subs_of rfl)) hs h
  | captureRequest _ _ _ => exact act_besideSvc (fun h0 => frame_captureRequest _ _ _ h0 (subs_of rfl)) hs h
  | captureAck _ => exact act_besideSvc (fun h0 => frame_captureAck _ h0 (subs_of rfl)) hs h
  | captureBeat _ _ _ => exact act_besideSvc (fun h0 => frame_captureBeat _ _ _ h0 (subs_of rfl)) hs h
  | captureTimeout _ => exact act_besideSvc (fun h0 => frame_captureTimeout _ h0 (subs_of rfl)) hs h
  | captureClose _ => exact act_besideSvc (fun h0 => frame_captureClose _ h0 (subs_of rfl)) hs h
  | intakeBeat _ _ => exact act_besideSvc (fun h0 => frame_intakeBeat _ _ h0 (subs_of rfl)) hs h
  | egressInputBeat _ _ => exact act_besideSvc (fun h0 => frame_egressTap _ _ _ h0 (subs_of rfl)) hs h
  | egressOutputBeat _ _ => exact act_besideSvc (fun h0 => frame_egressTap _ _ _ h0 (subs_of rfl)) hs h
  | egressStepEnd _ _ => exact act_besideSvc (fun h0 => frame_egressStepEnd _ _ h0 (subs_of rfl)) hs h
  | frankPresent => exact act_besideSvc (fun h0 => frame_frankPresent h0 (subs_of rfl)) hs h
  | frankAccept _ => exact act_besideSvc (fun h0 => frame_frankAccept _ h0 (subs_of rfl)) hs h
  | crLinkUp _ => exact act_besideSvc (fun h0 => frame_crLinkUp _ h0 (subs_of rfl)) hs h
  | crLinkDown _ => exact act_besideSvc (fun h0 => frame_crLinkDown _ h0 (subs_of rfl)) hs h
  | crWriteResponse _ _ _ => exact act_besideSvc (fun h0 => frame_crWriteResponse _ _ _ h0 (subs_of rfl)) hs h
  | crReadBeat _ _ _ _ _ _ => exact act_besideSvc (fun h0 => frame_crReadBeat _ _ _ _ _ _ h0 (subs_of rfl)) hs h
  | crFlitTransmit _ _ => exact act_besideSvc (fun h0 => frame_crFlitTransmit _ _ h0 (subs_of rfl)) hs h
  | crCreditReturn _ _ => exact act_besideSvc (fun h0 => frame_crCreditReturn _ _ h0 (subs_of rfl)) hs h
  | crFlitReceive _ _ _ => exact act_besideSvc (fun h0 => frame_crFlitReceive _ _ _ h0 (subs_of rfl)) hs h
  | fleetPacketReceive _ _ => exact act_besideSvc (fun h0 => frame_fleetPacketReceive _ _ h0 (subs_of rfl)) hs h
  | transitSlotReport _ => exact act_besideSvc (fun h0 => frame_transitReport _ h0 (subs_of rfl)) hs h
  | transitLost _ _ _ => exact act_besideSvc (fun h0 => frame_transitLost _ _ _ h0 (subs_of rfl)) hs h
  | hostDone => exact act_inSafe (inSafe_hostDone hs) hs h
  | externalResetRequest => exact act_safeOrCold (safeOrCold_startCold _ hs.safeOrCold) hs h
  | syncPulse _ => exact act_besideSvc (fun h0 => frame_syncPulse _ h0 (subs_of rfl)) hs h
  | syncMissing => exact act_besideSvc (fun h0 => frame_syncMissing h0 (subs_of rfl)) hs h
  | refLost => exact act_inSafe (.ite (fun _ => inSafe_enterSafe _ _) fun _ => hs) hs h
  | legRemeasure _ => exact act_besideSvc (fun h0 => frame_legRemeasure _ h0 (subs_of rfl)) hs h
  | powerIdValid _ _ _ _ => exact act_inSafe (inSafe_powerIdValid _ _ _ _ hs) hs h
  | regionVokFall _ _ => exact act_besideSvc (fun h0 => frame_regionVokFall _ _ h0 (subs_of rfl)) hs h
  | testWindow _ => exact act_besideSvc (fun h0 => frame_testWindow _ h0 (subs_of rfl)) hs h
  | shutdownRequest => exact act_inSafe (inSafe_shutdownRequest hs) hs h
  | archiveDone _ => exact act_inSafe (inSafe_archiveDone _ hs) hs h
  | keyPortWord _ _ _ => exact act_besideSvc (fun h0 => frame_keyPort _ _ _ h0 (subs_of rfl)) hs h
  | zeroizeRequest => exact act_besideSvc (fun h0 => frame_zeroize h0 (subs_of rfl)) hs h
  | stopInput _ => exact act_besideSvc (fun h0 => frame_stopInput _ h0 (subs_of rfl)) hs h
  | stopOutputPulseEnd => exact act_besideSvc (fun h0 => frame_stopPulseEnd h0 (subs_of rfl)) hs h
  | stopCountReached => exact act_besideSvc (fun h0 => frame_stopCountReached h0 (subs_of rfl)) hs h
  | stopReleased => exact act_besideSvc (fun h0 => .ite (frame_releaseStop h0 (subs_of rfl)) h0) hs h
  | resumeCountReached => exact act_besideSvc (fun h0 => frame_resumeReached h0 (subs_of rfl)) hs h
  | resumeLate => exact act_besideSvc (fun h0 => frame_resumeLate h0 (subs_of rfl)) hs h
  | launchArmDeadline => exact act_besideSvc (fun h0 => frame_armDeadline h0 (subs_of rfl)) hs h
  | launchCountReached => exact act_besideSvc (fun h0 => frame_launchReached h0 (subs_of rfl)) hs h
  | stepBoundary => exact act_inSafe (inSafe_stepBoundary hs) hs h
  | diceFill _ _ _ => exact act_besideSvc (fun h0 => frame_diceFill _ _ _ h0 (subs_of rfl)) hs h
  | officeVerdictReceive _ _ => exact act_besideSvc (fun h0 => frame_officeVerdict _ _ h0 (subs_of rfl)) hs h
  | coreSummaryReceive _ _ => exact act_besideSvc (fun h0 => frame_summaryReceive _ _ h0 (subs_of rfl)) hs h
  | regionVerdictDeadline _ => exact act_inSafe (inSafe_regionVerdict _ hs) hs h
  | regionRecordReceive => exact act_besideSvc (fun h0 => frame_regionRecord h0 (subs_of rfl)) hs h
  | egressSummaryReceive => exact act_besideSvc (fun h0 => frame_egressReceive h0 (subs_of rfl)) hs h
  | stepDecision => exact act_inSafe (inSafe_stepDecision hs) hs h
  | decisionReceive _ => exact act_besideSvc (fun h0 => frame_decisionReceive _ h0 (subs_of rfl)) hs h
  | fillPhaseComplete _ _ _ => exact act_besideSvc (fun h0 => frame_fillPhase _ _ _ h0 (subs_of rfl)) hs h
  | fillTimeout _ _ => exact act_besideSvc (fun h0 => frame_fillTimeout _ _ h0 (subs_of rfl)) hs h
  | cleanHour => exact act_besideSvc (fun h0 => frame_cleanHour h0 (subs_of rfl)) hs h
  | waitGraphBuild => exact act_inSafe (inSafe_waitGraph hs) hs h
  | stallEventReceive _ _ => exact act_besideSvc (fun h0 => frame_stallReceive _ _ h0 (subs_of rfl)) hs h
  | eventForward _ => exact act_besideSvc (fun h0 => frame_eventForward _ h0 (subs_of rfl)) hs h
  | testUnitPlace _ => exact act_besideSvc (fun h0 => frame_testUnitPlace _ h0 (subs_of rfl)) hs h
  | standbyPeriod _ => exact act_besideSvc (fun h0 => frame_standbyPeriod _ h0 (subs_of rfl)) hs h
  | standbyCopyDone _ => exact act_besideSvc (fun h0 => frame_standbyCopyDone _ h0 (subs_of rfl)) hs h
  | plannedSwap _ => exact act_besideSvc (fun h0 => frame_plannedSwap _ h0 (subs_of rfl)) hs h
  | routerRound _ _ => exact act_besideSvc (fun h0 => frame_routerRound _ _ h0 (subs_of rfl)) hs h
  | officePrimaryFail _ => exact act_besideSvc (fun h0 => .ite (frame_failMember _ _ h0 (subs_of rfl)) h0) hs h
  | lockstepDisagree => exact act_inSafe (.ite (fun _ => inSafe_enterSafe _ _) fun _ => hs) hs h
  | sramUncorrectable _ => exact act_inSafe (inSafe_sramUncorrectable _ hs) hs h
  | routerFrame _ => exact act_inSafe (inSafe_routerFrame _ _ hs) hs h
  | seamDeliver _ _ => exact act_besideSvc (fun h0 => frame_seamDeliver _ _ h0 (subs_of rfl)) hs h
  | terminalReceive _ _ => exact act_besideSvc (fun h0 => frame_terminalReceive _ _ h0 (subs_of rfl)) hs h
  | returnedReceive _ => exact act_besideSvc (fun h0 => frame_returnedReceive _ h0 (subs_of rfl)) hs h
  | resendTimer _ => exact act_besideSvc (fun h0 => frame_resendTimer _ h0 (subs_of rfl)) hs h
  | congestionSample _ _ => exact act_besideSvc (fun h0 => frame_congestionSample _ _ h0 (subs_of rfl)) hs h
  | regionMapSend _ => exact act_besideSvc (fun h0 => frame_regionMapSend _ h0 (subs_of rfl)) hs h
  | waferMapBroadcast => exact act_besideSvc (fun h0 => frame_waferMapBroadcast h0 (subs_of rfl)) hs h
  | tableSwapStart _ _ => exact act_besideSvc (fun h0 => frame_tableSwapStart _ _ _ h0 (subs_of rfl)) hs h
  | tableVersionRetire => exact act_besideSvc (fun h0 => frame_tableVersionRetire h0 (subs_of rfl)) hs h
  | stagedActivation _ => exact act_besideSvc (fun h0 => frame_stagedActivation _ h0 (subs_of rfl)) hs h
  | stageAckTimeout _ _ => exact act_besideSvc (fun h0 => frame_stageAckTimeout _ _ h0 (subs_of rfl)) hs h
  | fleetHello => exact act_besideSvc (fun h0 => frame_fleetHello h0 (subs_of rfl)) hs h
  | helloPeriodic => exact act_besideSvc (fun h0 => frame_helloPeriodic h0 (subs_of rfl)) hs h
  | partnerStale _ => exact act_besideSvc (fun h0 => frame_partnerStale _ h0 (subs_of rfl)) hs h
  | partnerRemove _ => exact act_besideSvc (fun h0 => frame_partnerRemove _ h0 (subs_of rfl)) hs h
  | letterMessage => exact act_besideSvc (fun h0 => frame_letterMessage h0 (subs_of rfl)) hs h
  | letterFwd => exact act_besideSvc (fun h0 => frame_letterFwd h0 (subs_of rfl)) hs h
  | receiptMessage => exact act_besideSvc (fun h0 => frame_receiptMessage h0 (subs_of rfl)) hs h
  | replyTimeout _ => exact act_besideSvc (fun h0 => frame_replyTimeout _ h0 (subs_of rfl)) hs h
  | fragmentTimeout _ _ => exact act_besideSvc (fun h0 => frame_fragmentTimeout _ _ h0 (subs_of rfl)) hs h
  | ringLetterRelay _ => exact act_besideSvc (fun h0 => frame_ringLetterRelay _ h0 (subs_of rfl)) hs h
  | bulkOpen => exact act_besideSvc (fun h0 => frame_bulkOpen h0 (subs_of rfl)) hs h
  | bulkGrant => exact act_besideSvc (fun h0 => frame_bulkGrant h0 (subs_of rfl)) hs h
  | bulkData => exact act_besideSvc (fun h0 => frame_bulkData h0 (subs_of rfl)) hs h
  | bulkCredit => exact act_besideSvc (fun h0 => frame_bulkCredit h0 (subs_of rfl)) hs h
  | bulkCreditTimeout _ => exact act_besideSvc (fun h0 => frame_bulkCreditTimeout _ h0 (subs_of rfl)) hs h
  | collUp => exact act_besideSvc (fun h0 => frame_collUp h0 (subs_of rfl)) hs h
  | collDown => exact act_besideSvc (fun h0 => frame_collDown h0 (subs_of rfl)) hs h
  | collTimeout _ => exact act_besideSvc (fun h0 => frame_collTimeout _ h0 (subs_of rfl)) hs h
  | hostWarmTimeout => exact act_safeOrCold (safeOrCold_hostWarmTimeout hs) hs h
  | hostColdTimeout => exact act_inSafe (inSafe_hostColdTimeout hs) hs h
  | parcelPrepare => exact act_besideSvc (fun h0 => frame_parcelPrepare h0 (subs_of rfl)) hs h
  | parcelReserveRenew => exact act_besideSvc (fun h0 => frame_parcelRenew h0 (subs_of rfl)) hs h
  | parcelVoteLate => exact act_besideSvc (fun h0 => frame_parcelVoteLate h0 (subs_of rfl)) hs h
  | parcelStop => exact act_besideSvc (fun h0 => frame_parcelStop h0 (subs_of rfl)) hs h
  | parcelRootBuild => exact act_besideSvc (fun h0 => frame_parcelRootBuild h0 (subs_of rfl)) hs h
  | parcelCommitSend => exact act_besideSvc (fun h0 => frame_parcelCommitSend h0 (subs_of rfl)) hs h
  | parcelOverrun => exact act_besideSvc (fun h0 => frame_parcelOverrun h0 (subs_of rfl)) hs h
  | parcelUngate => exact act_besideSvc (fun h0 => frame_parcelUngate h0 (subs_of rfl)) hs h
  | parcelCommitAnswer _ _ => exact act_besideSvc (fun h0 => .ite (frame_commitAnswer _ _ h0 (subs_of rfl)) h0) hs h
  | parcelCommitTimeout _ => exact act_besideSvc (fun h0 => .ite (frame_failCopy _ (frame_advTo _ h0 (subs_of rfl)) (subs_of rfl)) h0) hs h
  | reservationLapse _ _ => exact act_besideSvc (fun h0 => frame_reservationLapse _ _ h0 (subs_of rfl)) hs h
  | teardownQuiesced => exact act_inSafe (inSafe_teardownQuiesced hs) hs h
  | teardownForce => exact act_inSafe (inSafe_teardownForce hs) hs h
  | imagePacket _ _ => exact act_besideSvc (fun h0 => frame_imagePacket _ _ h0 (subs_of rfl)) hs h
  | imageRoundEnd _ => exact act_besideSvc (fun h0 => frame_imageRoundEnd _ h0 (subs_of rfl)) hs h
  | imageReadbackDone _ _ => exact act_besideSvc (fun h0 => frame_imageReadback _ _ h0 (subs_of rfl)) hs h
  | hello _ => exact letter_besideSvc (fun h0 => reply_helloL _ h0 (subs_of rfl)) hs h
  | identify _ => exact letter_besideSvc (fun h0 => reply_identifyL _ h0 (subs_of rfl)) hs h
  | inventory _ => exact letter_besideSvc (fun h0 => reply_inventoryL _ h0 (subs_of rfl)) hs h
  | measure _ => exact letter_besideSvc (fun h0 => reply_measureL _ h0 (subs_of rfl)) hs h
  | jobLoad _ _ => exact act_inSafe (inSafe_refusedLetter (st := 0x0301) rfl hs) hs h
  | launch _ _ => exact letter_besideSvc (fun h0 => reply_launchL _ _ h0 (subs_of rfl)) hs h
  | stopAt _ => exact letter_besideSvc (fun h0 => reply_stopAtL _ h0 (subs_of rfl)) hs h
  | urgentStop _ => exact letter_besideSvc (fun h0 => reply_urgentStopL _ h0 (subs_of rfl)) hs h
  | stopRelease _ => exact letter_besideSvc (fun h0 => reply_stopReleaseL _ h0 (subs_of rfl)) hs h
  | jobTeardown _ => exact letter_besideSvc (fun h0 => reply_jobTeardownL _ h0 (subs_of rfl)) hs h
  | postmarkLoad _ => exact letter_besideSvc (fun h0 => reply_postmarkLoadL _ h0 (subs_of rfl)) hs h
  | formatLoad _ _ _ => exact letter_besideSvc (fun h0 => reply_outside _ _ (reply_formatLoadL _ _ _ h0 (subs_of rfl))) hs h
  | diceRates _ => exact letter_besideSvc (fun h0 => reply_outside _ _ (reply_diceRatesL _ h0 (subs_of rfl))) hs h
  | canaryBands _ => exact letter_besideSvc (fun h0 => reply_outside _ _ (reply_canaryBandsL _ h0 (subs_of rfl))) hs h
  | verdictPolicy _ => exact letter_besideSvc (fun h0 => reply_outside _ _ (reply_verdictPolicyL _ h0 (subs_of rfl))) hs h
  | stepQuery _ => exact letter_besideSvc (fun h0 => reply_stepQueryL _ h0 (subs_of rfl)) hs h
  | coreQuery _ => exact letter_besideSvc (fun h0 => reply_coreQueryL _ h0 (subs_of rfl)) hs h
  | testPolicy _ => exact letter_besideSvc (fun h0 => reply_outside _ _ (reply_testPolicyL _ h0 (subs_of rfl))) hs h
  | testSweep _ => exact act_besideSvc (fun h0 => frame_testSweep _ h0 (subs_of rfl)) hs h
  | coreRestore _ => exact letter_besideSvc (fun h0 => reply_outside _ _ (reply_coreRestoreL _ h0 (subs_of rfl))) hs h
  | testCourier _ _ => exact letter_besideSvc (fun h0 => reply_testCourierL _ _ h0 (subs_of rfl)) hs h
  | officeSwap _ => exact letter_besideSvc (fun h0 => reply_officeSwapL _ h0 (subs_of rfl)) hs h
  | courierPower _ _ _ => exact letter_besideSvc (fun h0 => reply_outside _ _ (reply_courierPowerL _ _ _ h0 (subs_of rfl))) hs h
  | fleetRings _ => exact letter_besideSvc (fun h0 => reply_outside _ _ (reply_fleetRingsL _ h0 (subs_of rfl))) hs h
  | courierEnable _ => exact letter_besideSvc (fun h0 => reply_courierEnableL _ h0 (subs_of rfl)) hs h
  | partnerQuery _ => exact letter_besideSvc (fun h0 => reply_partnerQueryL _ h0 (subs_of rfl)) hs h
  | parcelPolicy _ => exact letter_besideSvc (fun h0 => reply_outside _ _ (reply_parcelPolicyL _ h0 (subs_of rfl))) hs h
  | holderCap _ => exact letter_besideSvc (fun h0 => reply_holderCapL _ h0 (subs_of rfl)) hs h
  | parcelReserve _ => exact letter_besideSvc (fun h0 => reply_parcelReserveL _ h0 (subs_of rfl)) hs h
  | parcelCommit _ => exact act_besideSvc (fun h0 => frame_parcelCommit _ h0 (subs_of rfl)) hs h
  | parcelQuery _ => exact letter_besideSvc (fun h0 => reply_parcelQueryL _ h0 (subs_of rfl)) hs h
  | parcelRelease _ => exact letter_besideSvc (fun h0 => reply_parcelReleaseL _ h0 (subs_of rfl)) hs h
  | parcelRestore _ _ => exact letter_besideSvc (fun h0 => reply_parcelRestoreL _ _ h0 (subs_of rfl)) hs h
  | warmReset _ => exact act_inSafe (inSafe_refusedLetter (st := 0x0301) rfl hs) hs h
  | coldReset _ => exact act_safeOrCold (safeOrCold_coldReset _ hs) hs h
  | resetPolicy _ => exact letter_besideSvc (fun h0 => reply_outside _ _ (reply_resetPolicyL _ h0 (subs_of rfl))) hs h
  | counterSelect _ => exact letter_besideSvc (fun h0 => reply_counterSelectL _ h0 (subs_of rfl)) hs h
  | counterRead _ => exact letter_besideSvc (fun h0 => reply_counterReadL _ h0 (subs_of rfl)) hs h
  | traceControl _ => exact letter_besideSvc (fun h0 => reply_traceControlL _ h0 (subs_of rfl)) hs h
  | traceTrigger => exact act_besideSvc (fun h0 => frame_traceTrigger h0 (subs_of rfl)) hs h
  | exportData _ => exact act_besideSvc (fun h0 => frame_exportRow _ h0 (subs_of rfl)) hs h
  | imageLoad _ _ => exact act_besideSvc (fun h0 => frame_imageLoad _ _ h0 (subs_of rfl)) hs h
  | imageStatus _ => exact letter_besideSvc (fun h0 => reply_imageStatusL _ h0 (subs_of rfl)) hs h
  | imageAbort _ => exact letter_besideSvc (fun h0 => reply_imageAbortL _ h0 (subs_of rfl)) hs h
  | registerWrite _ _ => exact registerWrite_safeOrCold hs h
  | managementPortReset => exact act_besideSvc (f := fun b => b.modOuts (fun o => { o with rspData := 0, rspErr := 0 })) (fun h0 => frame_modOuts _ h0 (subs_of rfl)) hs h
  | ringDoorbell _ _ => exact act_inSafe (inSafe_winWrite _ _ hs) hs h
  | ringPop _ _ => exact act_inSafe (inSafe_winWrite _ _ hs) hs h
  | pmCountRead => exact act_besideSvc (fun h0 => .ite (frame_respond _ _ (frame_modPm _ (frame_hoCount h0 (subs_of rfl)) (subs_of rfl)) (subs_of rfl)) h0) hs h
  | pmLatchCapture _ => exact act_inSafe (inSafe_winWrite _ _ hs) hs h
  | stopCtrlUrgent _ => exact act_inSafe (inSafe_winWrite _ _ hs) hs h
  | crEnableWrite _ => exact act_inSafe (inSafe_winWrite _ _ hs) hs h
  | keyLoadBegin _ => exact act_inSafe (inSafe_winWrite _ _ hs) hs h
  | keyWindowLock _ => exact act_inSafe (inSafe_winWrite _ _ hs) hs h
  | keyWindowZeroize _ => exact act_inSafe (inSafe_winWrite _ _ hs) hs h
  | keyDataWrite _ => exact act_inSafe (inSafe_winWrite _ _ hs) hs h
  | tapReset => exact act_besideSvc (fun h0 => (tapReset_frame _).mono (subs_of rfl)) hs h
  | ijtagAccessSelect => exact act_besideSvc (fun h0 => frame_ijtagSelect h0 (subs_of rfl)) hs h
  | sibOpen _ => exact act_inSafe (inSafe_sibOpen _ hs) hs h
  | coreCapUpdate _ _ _ _ => exact act_besideSvc (fun h0 => frame_coreCapUpdate _ _ _ _ h0 (subs_of rfl)) hs h
  | standbyTestDone _ _ => exact act_besideSvc (fun h0 => frame_standbyTestDone _ _ h0 (subs_of rfl)) hs h
  | routerLost _ _ => exact act_besideSvc (fun h0 => frame_routerLost _ _ h0 (subs_of rfl)) hs h
  | resetWindowExpiry => exact act_besideSvc (fun h0 => frame_resetWindowExpiry h0 (subs_of rfl)) hs h

theorem frankPresent_safe {b : Block} (h : b.inSafe) : frankPresent b = b := by
  unfold frankPresent
  split
  · rfl
  · exact if_pos (.inl h)

theorem lockstepDisagree_after {s : State} (hr : s.released) (hon : s.blk.svc.hoOn = true) :
    exec .lockstepDisagree s = .next (s.after (enterSafe 2 s.blk)) :=
  act_after hr (if_pos hon : (if s.blk.svc.hoOn then enterSafe 2 s.blk else s.blk) = enterSafe 2 s.blk)

/-- The pins and the letter memory are all that a command's end puts back. -/
theorem after_liveCores (s : State) (c : Block) : (s.after c).blk.liveCores = c.liveCores := liveCores_same rfl fun _ => rfl

theorem after_core (s : State) (c : Block) (i : Nat) : (s.after c).blk.core i = c.core i := rfl

/-- Settles O14: entering SAFE fences, isolates and holds every core that lives, no Frank is due in SAFE, and each command keeps SAFE or begins
a cold reset. -/
theorem safeHoldsUntilColdReset : Obligations.SafeHoldsUntilColdReset := by
  refine ⟨fun s hr hon _ => ?_, fun s hr hsafe => ?_, fun c s t hr hsafe hpor h => exec_safeOrCold hpor hr hsafe h⟩
  · refine ⟨_, lockstepDisagree_after hr hon, enterSafe_state 2 s.blk, enterSafe_alarmN 2 s.blk, enterSafe_lockstep_hoRuns s.blk, fun i hi => ?_⟩
    rw [after_liveCores] at hi
    rw [after_core]
    exact enterSafe_held hi
  · exact act_eq hr (frankPresent_safe hsafe) rfl rfl rfl rfl

end Sys2Proof.Machine
end

section
/-! Pips: what writes a core's history, and what leaves it (R229). -/

namespace Sys2Proof.Machine

open Sys2Proof

theorem Block.setHist_self (b : Block) (i : Nat) (h : CoreHist) : (b.setHist i h).hist i = h := by
  simp [Block.setHist, Block.hist, Block.modLedger]

theorem Block.setHist_ne (b : Block) {i j : Nat} (h : CoreHist) (hj : j ≠ i) : (b.setHist i h).hist j = b.hist j := by
  simp [Block.setHist, Block.hist, Block.modLedger, tget_tset_ne, hj]

theorem Block.modHist_self (b : Block) (i : Nat) (f : CoreHist → CoreHist) : (b.modHist i f).hist i = f (b.hist i) := Block.setHist_self _ _ _

theorem Block.modHist_ne (b : Block) {i j : Nat} (f : CoreHist → CoreHist) (hj : j ≠ i) : (b.modHist i f).hist j = b.hist j :=
  Block.setHist_ne _ _ hj

theorem bmMark_hist (b : Block) (j : Nat) : (bmMark b).hist j = b.hist j := rfl

theorem publishDue_hist (b : Block) (j : Nat) : (publishDue b).hist j = b.hist j := by
  unfold publishDue
  split <;> rfl

theorem bmChanged_hist (b : Block) (j : Nat) : (bmChanged b).hist j = b.hist j := publishDue_hist _ _

theorem fillTo_hist (pick : Fill → Bool) (ph : Nat) (b : Block) (j : Nat) : (fillTo pick ph b).hist j = b.hist j := rfl

theorem stopJobNext_hist (b : Block) (j : Nat) : (stopJobNext b).hist j = b.hist j :=
  Block.hist_same ((frame_stopJobNext (.refl [.stop, .job] b) (subs_of rfl)).get .ledger (by decide)) j

theorem failFill_hist (role code : Nat) (b : Block) (j : Nat) : (failFill role code b).hist j = b.hist j := by
  unfold failFill
  dsimp only
  split
  · have hvoided : ∀ (f : Fill) (c : Block) (g : List Reloc → List Reloc), (modRelocs (regionOf f.dst) g c).hist j = c.hist j := fun _ _ _ => rfl
    rw [stopJobNext_hist, hoEvent_keep_hist, fillTo_hist]
    exact forEach_keep (fun c => c.hist j) _ (fun _ _ => hvoided _ _ _) _ _
  · rfl

theorem failTarget_hist (i : Nat) (b : Block) (j : Nat) : (failTarget i b).hist j = b.hist j :=
  forEach_keep (fun c => c.hist j) _ (fun _ _ => failFill_hist _ _ _ _) _ _

theorem queueSuspicion_pips (i : Nat) (b : Block) : ((queueSuspicion i b).hist i).pips = (b.hist i).pips := by
  unfold queueSuspicion
  rw [forEach_keep (fun c => (c.hist i).pips) _ (fun u c => ?_), Block.modOffice_hist, Block.modHist_self]
  exact congrArg CoreHist.pips (Block.hist_same ((frame_queueUnit _ _ (.refl [.dbg, .mgmt, .mail, .offices] c) (subs_of rfl)).get .ledger (by decide)) i)

/-- Fencing a core writes its state and its fences alone. -/
theorem fenceState_pips (i : Nat) (byTest : Bool) (b : Block) : ((fenceState i byTest b).hist i).pips = (b.hist i).pips := by
  have hheld : ∀ c : Block, (failTarget i (fenceHold i (bmChanged c))).hist i = c.hist i := fun c => by
    rw [failTarget_hist, fenceHold_keep_hist, bmChanged_hist]
  unfold fenceState
  dsimp only
  generalize (if 2 ≤ (b.hist i).fences + 1 then CoreSt.retired else CoreSt.fenced) = st
  split
  · split
    · rw [nameRole_keep_hist, addReason_keep_hist, hheld, Block.setHist_self]
    · rw [hheld, Block.setHist_self]
  · rw [hheld, Block.setHist_self]

/-- A boundary row moves a core's state and leaves its pips. -/
theorem boundaryState_pips (i : Nat) (b : Block) : ((boundaryState i b).hist i).pips = (b.hist i).pips := by
  have hmarked : ∀ h : CoreHist, h.pips = (b.hist i).pips → ((bmMark (b.setHist i h)).hist i).pips = (b.hist i).pips := fun h hp => by
    rw [bmMark_hist, Block.setHist_self, hp]
  have hsuspect : ∀ (p : Prop) [Decidable p], ((if p then bmMark (b.setHist i { b.hist i with st := .suspect, rolled := false })
      else queueSuspicion i (bmMark (b.setHist i { b.hist i with st := .suspect, rolled := false }))).hist i).pips = (b.hist i).pips := by
    intro p _
    split
    · exact hmarked _ rfl
    · rw [queueSuspicion_pips]
      exact hmarked _ rfl
  unfold boundaryState
  dsimp only
  split
  · rfl
  · split
    · split
      · exact hsuspect _
      · rfl
    · split
      · exact hsuspect _
      · split
        · exact hmarked _ rfl
        · rfl
    · split
      · exact hsuspect _
      · rfl
    · split
      · split
        · exact hmarked _ rfl
        · rfl
      · split
        · exact hmarked _ rfl
        · rfl
    · rfl

theorem charge_pips {b : Block} {i : Nat} (n : Nat) (hi : b.present i = true) :
    ((charge i n b).hist i).pips = min 255 ((b.hist i).pips + n) := by
  have hcharged : ((b.modHist i (fun h => chargedTo (min 255 (h.pips + n)) b.now h)).hist i).pips = min 255 ((b.hist i).pips + n) := by
    rw [Block.modHist_self]
    rfl
  unfold charge
  rw [if_neg (by simp [hi])]
  dsimp only
  split <;> rename_i hfence <;> split
  · rw [fenceState_pips, hcharged]
  · rw [publishDue_hist, boundaryState_pips, fenceState_pips, hcharged]
  · exact hcharged
  · rw [publishDue_hist, boundaryState_pips, hcharged]

theorem cleanPip_self (hour i : Nat) (b : Block) : ((cleanPip hour i b).hist i).pips = (b.hist i).pips - 1 := by
  unfold cleanPip
  dsimp only
  split
  · split
    · rw [bmMark_hist, Block.modHist_self, Block.setHist_self]
    · rw [Block.setHist_self]
  · rw [Block.setHist_self]

theorem cleanPip_ne (hour : Nat) {i j : Nat} (b : Block) (hj : j ≠ i) : (cleanPip hour i b).hist j = b.hist j := by
  unfold cleanPip
  dsimp only
  split
  · split
    · rw [bmMark_hist, Block.modHist_ne _ _ hj, Block.setHist_ne _ _ hj]
    · rw [Block.setHist_ne _ _ hj]
  · rw [Block.setHist_ne _ _ hj]

/-- Settles O18: the pips a charge writes are the history's, and fencing, boundary rows and publication leave them. -/
theorem pipsSaturate : Obligations.PipsSaturate :=
  ⟨fun _ _ n hi => charge_pips n hi, fun b i n hi => if_pos (by simp [hi]),
    fun b hour i => ⟨cleanPip_self hour i b, fun _ hj => cleanPip_ne hour b hj⟩⟩

end Sys2Proof.Machine
end

section
/-! One core's fence, stop and tap: what a stop and a fence leave at the core, and that the other cores are left alone. -/

namespace Sys2Proof.Machine

open Sys2Proof

/-! ### A stop gates the clock alone (R73) -/

/-- What gating for a stop does to its core, the stop record apart. -/
def Core.gated (rc : BitVec 128) (c : Core) : Core :=
  if c.underTest then { c with ctl := { c.ctl with stopRec := rc, test := c.ctl.test.map (fun u => { u with aborted := true }) } }
  else { c with
    pins := { c.pins with cgN := c.pins.cgN && c.ctl.cap.isSome }
    time := { c.time with armed := none }
    ctl := { c.ctl with stopRec := rc, stopGated := true } }

theorem gateCore_core (t i : Nat) (b : Block) : ∃ rc, (gateCore t i b).core i = (b.core i).gated rc := by
  unfold gateCore
  dsimp only
  rw [Block.modCore_self]
  split
  · exact ⟨_, rfl⟩
  · exact ⟨_, rfl⟩

theorem gateCore_core_ne (t : Nat) {i j : Nat} (b : Block) (hj : j ≠ i) : (gateCore t i b).core j = b.core j := by
  unfold gateCore
  dsimp only
  rw [Block.modCore_ne _ _ hj]
  split <;> rfl

theorem Core.gated_of_idle {c : Core} (h : c.underTest = false) (rc : BitVec 128) : c.gated rc = { c with
    pins := { c.pins with cgN := c.pins.cgN && c.ctl.cap.isSome }
    time := { c.time with armed := none }
    ctl := { c.ctl with stopRec := rc, stopGated := true } } := if_neg (by simp [h])

theorem Core.gated_of_test {c : Core} (h : c.underTest = true) (rc : BitVec 128) : c.gated rc =
    { c with ctl := { c.ctl with stopRec := rc, test := c.ctl.test.map (fun u => { u with aborted := true }) } } := if_pos h

theorem coreRelease_cgN {i : Nat} {b : Block} (hs : (b.core i).ctl.stopGated = true) (hc : (b.core i).pins.cgN = false) :
    ((coreRelease i b).core i).pins.cgN = false := by
  unfold coreRelease
  split
  · unfold releaseCore
    rw [Block.modCore_self]
    simp [hs]
  · exact hc

/-- Settles O17: the three states of a core when a stop gates it, and a release under a stop. -/
theorem stopGatesTheClockAlone : Obligations.StopGatesTheClockAlone := by
  refine ⟨fun b t i ht hc => ?_, fun b t i ht hc => ?_, fun b t i u ht hu => ?_, fun s t core hs hc h => ?_⟩
  · obtain ⟨rc, h⟩ := gateCore_core t i b
    rw [h, Core.gated_of_idle ht]
    refine ⟨by simp [hc], rfl, rfl, fun j hj => gateCore_core_ne t b hj⟩
  · obtain ⟨rc, h⟩ := gateCore_core t i b
    rw [h, Core.gated_of_idle ht]
    exact ⟨by simp [hc], rfl, rfl⟩
  · obtain ⟨rc, h⟩ := gateCore_core t i b
    rw [h, Core.gated_of_test ht]
    exact ⟨rfl, rfl, by simp [hu]⟩
  · obtain rfl := act_next_eq h
    dsimp only
    split
    · exact coreRelease_cgN hs hc
    · exact hc

/-! ### A fence closes the open tiles (R74) -/

/-- A tile that a fence closes. -/
def Tile.fenced (x : Tile) : Tile := { x with port := true, closed := true }

theorem tget_tmap {α : Type} (f : Nat → α → α) (t : Tab α) (k : Nat) : tget (tmap f t) k = (tget t k).map (f k) := by
  induction t with
  | nil => rfl
  | cons p t ih =>
    simp only [tget, tmap, List.map_cons, List.find?_cons] at ih ⊢
    by_cases h : p.1 = k
    · simp [h]
    · simpa [h] using ih

theorem beginFence_tile {i tag : Nat} {b : Block} {x : Tile} (hp : (b.core i).porN = true) (hx : b.tile i tag = some x) (toHold : Bool) :
    (b.modCore i (beginFence toHold)).tile i tag = some x.fenced := by
  unfold Block.tile at hx ⊢
  rw [Block.modCore_self]
  unfold beginFence
  rw [if_neg (by simp [hp])]
  exact (tget_tmap (fun _ (y : Tile) => y.fenced) _ _).trans (congrArg (Option.map Tile.fenced) hx)

/-- The verdict of a tile is read from the core's test and format descriptors, which a fence keeps. -/
theorem beginFence_verdictOf (i : Nat) (b : Block) (toHold : Bool) (x : Tile) :
    (b.modCore i (beginFence toHold)).verdictOf i x = b.verdictOf i x := by
  have htest : ((b.modCore i (beginFence toHold)).core i).ctl.test = (b.core i).ctl.test := by
    rw [Block.modCore_self]; unfold beginFence; split <;> rfl
  have hfmt : ((b.modCore i (beginFence toHold)).core i).scr.fmt = (b.core i).scr.fmt := by
    rw [Block.modCore_self]; unfold beginFence; split <;> rfl
  have hkat : (b.modCore i (beginFence toHold)).katOf i = b.katOf i := by 
    unfold Block.katOf; rw [htest, Block.modCore_cfg]
  have hdesc : ∀ ix, (b.modCore i (beginFence toHold)).descOf i x ix = b.descOf i x ix := fun ix => by unfold Block.descOf; rw [hkat, hfmt]
  simp only [Block.verdictOf, Block.classB, Block.flushExcused, hdesc]
  rfl

/-- The port cause comes after the mismatches (R176). -/
theorem verdictOf_fenced (b : Block) (i : Nat) (x : Tile) : b.verdictOf i x.fenced =
    if b.verdictOf i x = .mismatchResidue ∨ b.verdictOf i x = .mismatchStamp then b.verdictOf i x else .uncheckable := by
  have hclass : b.classB i x.fenced = b.classB i x := rfl
  have hexcused : b.flushExcused i x.fenced = b.flushExcused i x := rfl
  unfold Block.verdictOf
  rw [hclass, hexcused]
  by_cases hres : (x.resBad && !b.classB i x) = true ∧ ¬ b.flushExcused i x = true
  · simp [Tile.fenced, hres]
  · by_cases hstamp : x.stampBad = true
    · simp [Tile.fenced, hres, hstamp]
    · by_cases hrest : x.port = true ∨ x.special = true ∨ x.misuse = true ∨ x.missed = true ∨ (x.resBad && !b.classB i x) = true
      · simp only [Tile.fenced, if_neg hres, if_neg hstamp, if_pos hrest, true_or, if_true, reduceCtorEq, or_self, if_false]
      · simp only [Tile.fenced, if_neg hres, if_neg hstamp, if_neg hrest, true_or, if_true, reduceCtorEq, or_self, if_false]

theorem fenceOrder_idle {i : Nat} {b : Block} (hon : (b.core i).lbOn = true) (ht : (b.core i).ctl.test = none) (hc : (b.core i).ctl.cap = none)
    (hf : (b.core i).pins.fenceN = true) : fenceOrder i false b = b.modCore i (beginFence false) := by
  simp [fenceOrder, hon, ht, hc, hf]

theorem Core.porN_of_lbOn {c : Core} (h : c.lbOn = true) : c.porN = true := by
  simp only [Core.lbOn, Bool.and_eq_true] at h
  exact h.1

/-- Settles O16: the fence writes the port cause at each open tile, and the mismatches come before it. -/
theorem fenceClosesOpenTiles : Obligations.FenceClosesOpenTiles := by
  intro s core tag x hr hon ht hc hf hx
  have hp := Core.porN_of_lbOn hon
  refine ⟨_, x.fenced, act_after hr (fenceOrder_idle hon ht hc hf), ?_, beginFence_tile hp hx false, rfl, rfl, ?_⟩
  · rw [after_core, Block.modCore_self, beginFence, if_neg (by simp [hp])]
  · exact (beginFence_verdictOf core.toNat s.blk false x.fenced).trans (verdictOf_fenced s.blk core.toNat x)

/-! ### The other cores (R20, R155) -/

/-- Every core but one is the same. -/
def OnlyCore (i : Nat) (b c : Block) : Prop := ∀ j, j ≠ i → c.core j = b.core j

namespace OnlyCore

theorem refl (i : Nat) (b : Block) : OnlyCore i b b := fun _ _ => rfl

theorem modCore {i : Nat} {b c : Block} (h : OnlyCore i b c) (f : Core → Core) : OnlyCore i b (c.modCore i f) := fun j hj =>
  (Block.modCore_ne _ _ hj).trans (h j hj)

theorem cores {i : Nat} {b c d : Block} (h : OnlyCore i b c) (hd : d.units.cores = c.units.cores) : OnlyCore i b d := fun j hj =>
  (Block.core_same hd j).trans (h j hj)

theorem ite {i : Nat} {b c d : Block} {p : Prop} [Decidable p] (hc : OnlyCore i b c) (hd : OnlyCore i b d) : OnlyCore i b (if p then c else d) := by
  split
  · exact hc
  · exact hd

theorem bumpCtr {i : Nat} {b c : Block} (h : OnlyCore i b c) (code n : Nat) : OnlyCore i b (bumpCtr i code n c) := h.modCore _

theorem modScr {i : Nat} {b c : Block} (h : OnlyCore i b c) (f : CoreScreen → CoreScreen) : OnlyCore i b (modScr i f c) := h.modCore _

theorem putTile {i : Nat} {b c : Block} (h : OnlyCore i b c) (t : Nat) (x : Tile) : OnlyCore i b (putTile i t x c) := h.modScr _

theorem lbEvent {i : Nat} {b c : Block} (h : OnlyCore i b c) (code : Nat) (body : List Byte) : OnlyCore i b (lbEvent i code body c) := by
  unfold Machine.lbEvent
  exact .ite ((h.bumpCtr code 1).cores rfl) (h.bumpCtr code 1)

theorem tileEvent {i : Nat} {b c : Block} (h : OnlyCore i b c) (x : Tile) (code : Nat) : OnlyCore i b (tileEvent i x code c) := by
  unfold Machine.tileEvent
  exact .ite h (h.lbEvent code [])

theorem reportLanes {i : Nat} {b c : Block} (h : OnlyCore i b c) (x : Tile) (sp inv misuse : Bool) :
    OnlyCore i b (reportLanes i x sp inv misuse c).2 := by
  have hsaid : ∀ (p : Prop) [Decidable p] (code : Nat) (d : Block), OnlyCore i b d → OnlyCore i b (if p then Machine.tileEvent i x code d else d) :=
    fun p _ code d hd => .ite (hd.tileEvent x code) hd
  unfold Machine.reportLanes
  exact hsaid _ _ _ (hsaid _ _ _ (hsaid _ _ _ h))

theorem openTile {i : Nat} {b c : Block} (h : OnlyCore i b c) (w : WeightBeat) : OnlyCore i b (openTile i w c) := by
  unfold Machine.openTile
  dsimp only
  have hread : ∀ (f : CoreScreen → CoreScreen) (x : Tile) (p : Bool),
      OnlyCore i b (if p then Machine.tileEvent i x evPortTag (Machine.modScr i f c) else Machine.modScr i f c) :=
    fun f x p => .ite ((h.modScr f).tileEvent x evPortTag) (h.modScr f)
  split
  · exact (hread _ _ _).putTile _ _
  · split
    · exact (((hread _ _ _).modScr _).putTile _ _).putTile _ _
    · split
      · exact (((hread _ _ _).modScr _).putTile _ _).putTile _ _
      · exact (((hread _ _ _).modScr _).putTile _ _).putTile _ _

theorem lagTiles {i : Nat} (fuel : Nat) {b c : Block} (h : OnlyCore i b c) : OnlyCore i b (lagTiles i fuel c) := by
  induction fuel generalizing c with
  | zero => exact h
  | succ fuel ih =>
    unfold Machine.lagTiles
    refine .ite h ?_
    split
    · exact h
    · exact ih (((h.tileEvent _ _).putTile _ _).modScr _)

theorem queueRow {i : Nat} {b c : Block} (h : OnlyCore i b c) (t res : Nat) : OnlyCore i b (queueRow i t res c) := by
  unfold Machine.queueRow
  dsimp only
  split
  · exact .ite (h.lagTiles 8) ((h.lagTiles 8).modScr _)
  · exact h.lagTiles 8

theorem tallyArrives {i : Nat} {b c : Block} (h : OnlyCore i b c) (t res : Nat) (last : Bool) : OnlyCore i b (tallyArrives i t res last c) := by
  have hfreed : ∀ f : CoreScreen → CoreScreen, OnlyCore i b (if last then Machine.modScr i f c else c) := fun f => .ite (h.modScr f) h
  unfold Machine.tallyArrives
  dsimp only
  split
  · exact hfreed _
  · refine .ite (hfreed _) (.ite ((hfreed _).putTile _ _) (.ite (((hfreed _).putTile _ _).modScr _) (.ite (((hfreed _).putTile _ _).putTile _ _) ?_)))
    exact (((hfreed _).putTile _ _).tileEvent _ _).putTile _ _

end OnlyCore

theorem onlyCore_corePorAssert (i : Nat) (b : Block) : OnlyCore i b (corePorAssert i b) := by
  unfold corePorAssert
  exact .ite (fun j hj => Block.setCore_ne _ _ hj) (.refl i b)

theorem onlyCore_weightBeat (i : Nat) (w : WeightBeat) (b : Block) : OnlyCore i b (weightBeat i w b) := by
  have hcounted : OnlyCore i b (bumpCtr i 0x000D 1 b) := (OnlyCore.refl i b).bumpCtr _ _
  have hopened : OnlyCore i b (if w.first then openTile i w (bumpCtr i 0x000D 1 b) else bumpCtr i 0x000D 1 b) := .ite (hcounted.openTile w) hcounted
  unfold weightBeat
  refine .ite (.refl i b) ?_
  dsimp only
  split
  · exact hopened
  · exact .ite hopened ((hopened.reportLanes _ _ _ _).putTile _ _)

theorem onlyCore_activationBeat (i : Nat) (a : ActBeat) (b : Block) : OnlyCore i b (activationBeat i a b) := by
  have hcounted : OnlyCore i b (bumpCtr i 0x000E 1 b) := (OnlyCore.refl i b).bumpCtr _ _
  unfold activationBeat
  refine .ite (.refl i b) ?_
  dsimp only
  split
  · exact hcounted.lbEvent _ _
  · have htold := fun x sp inv mis t y => (hcounted.reportLanes x sp inv mis).putTile t y
    exact .ite hcounted (.ite ((hcounted.tileEvent _ _).putTile _ _) (.ite ((htold _ _ _ _ _ _).queueRow _ _) (htold _ _ _ _ _ _)))

theorem onlyCore_accumulatorDrain (i : Nat) (a : AccBeat) (b : Block) : OnlyCore i b (accumulatorDrain i a b) := by
  have hcounted : OnlyCore i b (bumpCtr i 0x000F 1 b) := (OnlyCore.refl i b).bumpCtr _ _
  have hdrawn : OnlyCore i b (if accSplit a then (freshWord (bumpCtr i 0x000F 1 b)).2 else bumpCtr i 0x000F 1 b) :=
    .ite (hcounted.cores rfl) hcounted
  have htold : ∀ (p : Prop) [Decidable p] (x : Tile), OnlyCore i b (if p then
      (let r := reportLanes i x false false true (if accSplit a then (freshWord (bumpCtr i 0x000F 1 b)).2 else bumpCtr i 0x000F 1 b)
       putTile i a.tag.toNat r.1 r.2) else if accSplit a then (freshWord (bumpCtr i 0x000F 1 b)).2 else bumpCtr i 0x000F 1 b) :=
    fun p _ x => .ite ((hdrawn.reportLanes _ _ _ _).putTile _ _) hdrawn
  have hsummed : ∀ c : Block, OnlyCore i b c → ∀ (p : Prop) [Decidable p] f g h t res last, OnlyCore i b (if p then modScr i f c else
      tallyArrives i t res last ((modScr i g c).modCore i h)) := fun c hc p _ f g h t res last =>
    .ite (hc.modScr f) (((hc.modScr g).modCore h).tallyArrives t res last)
  unfold accumulatorDrain
  refine .ite (.refl i b) ?_
  dsimp only
  refine hsummed _ ?_ _ _ _ _ _ _ _
  split
  · exact htold _ _
  · exact hdrawn

theorem onlyCore_rowCompare (i : Nat) (b : Block) : OnlyCore i b (rowCompare i b) := by
  have htaken : ∀ f, OnlyCore i b (modScr i f b) := fun f => (OnlyCore.refl i b).modScr f
  unfold rowCompare
  dsimp only
  split
  · exact .refl i b
  · split
    · exact .refl i b
    · split
      · exact htaken _
      · refine .ite (htaken _) (.ite ((htaken _).putTile _ _) ?_)
        split
        · exact (htaken _).putTile _ _
        · have hplanted := fun f g => ((htaken f).modScr g).bumpCtr 0x000A 1
          exact .ite (((hplanted _ _).tileEvent _ _).putTile _ _) (((hplanted _ _).bumpCtr _ _).putTile _ _)

theorem onlyCore_outputBeat (i : Nat) (o : OutBeat) (b : Block) : OnlyCore i b (outputBeat i o b) := by
  unfold outputBeat
  refine .ite (.refl i b) ?_
  dsimp only
  split
  · exact .refl i b
  · exact .ite (.refl i b) ((OnlyCore.ite ((OnlyCore.refl i b).tileEvent _ _) (.refl i b)).putTile _ _)

theorem onlyCore_flushSticky (i : Nat) (level : Bool) (b : Block) : OnlyCore i b (flushSticky i level b) := by
  unfold flushSticky
  exact .ite (.refl i b) ((OnlyCore.ite ((OnlyCore.refl i b).bumpCtr _ _) (.refl i b)).modScr _)

/-- A read with no clash is no missed slot of a referee (R215). -/
theorem onlyCore_shadowRead (i slot : Nat) (b : Block) : OnlyCore i b (shadowRead i slot false b) := by
  have hread : ∀ c, c = b → ∀ (f : CorePins → CorePins) (g : CoreScreen → CoreScreen) (p : Prop) [Decidable p],
      OnlyCore i b (if p then bumpCtr i 0x0009 1 (modPins i f c) else modScr i g (modPins i f c)) := by
    rintro c rfl f g p _
    exact .ite (((OnlyCore.refl i c).modCore _).bumpCtr _ _) (((OnlyCore.refl i c).modCore _).modScr _)
  unfold shadowRead
  refine .ite (.refl i b) (hread _ ?_ _ _ _)
  split
  · exact if_neg (by simp)
  · rfl

theorem onlyCore_fenceOrder (i : Nat) (toHold : Bool) (b : Block) : OnlyCore i b (fenceOrder i toHold b) := by
  unfold fenceOrder fenceHold
  exact .ite (.refl i b) (.ite ((OnlyCore.refl i b).modCore _) (.ite (.refl i b) (.ite ((OnlyCore.refl i b).modCore _) ((OnlyCore.refl i b).modCore _))))

theorem onlyCore_fenceAck (i : Nat) (b : Block) : OnlyCore i b (fenceAck i b) := by
  unfold fenceAck
  exact .ite (.refl i b) ((OnlyCore.refl i b).modCore _)

theorem onlyCore_fenceTimeout (i : Nat) (b : Block) : OnlyCore i b (fenceTimeout i b) := by
  unfold fenceTimeout
  exact .ite (.refl i b) (((OnlyCore.refl i b).modCore _).lbEvent _ _)

theorem onlyCore_coreRelease (i : Nat) (b : Block) : OnlyCore i b (coreRelease i b) := by
  unfold coreRelease
  exact .ite ((OnlyCore.refl i b).modCore _) (.refl i b)

theorem onlyCore_testAck (i : Nat) (b : Block) : OnlyCore i b (testAck i b) := by
  unfold testAck
  split
  · exact .ite ((OnlyCore.refl i b).modCore _) (.refl i b)
  · exact .refl i b

theorem onlyCore_captureRequest (i : Nat) (load : Bool) (n : Nat) (b : Block) : OnlyCore i b (captureRequest i load n b) := by
  unfold captureRequest
  exact .ite (.refl i b) ((OnlyCore.refl i b).modCore _)

theorem onlyCore_captureAck (i : Nat) (b : Block) : OnlyCore i b (captureAck i b) := by
  unfold captureAck
  split
  · exact .ite (.refl i b) ((OnlyCore.refl i b).modCore _)
  · exact .refl i b

theorem onlyCore_captureBeat (i : Nat) (data : Flit) (last : Bool) (b : Block) : OnlyCore i b (captureBeat i data last b) := by
  have hmoved := fun f => (OnlyCore.refl i b).modCore (i := i) f
  unfold captureBeat
  split
  · exact .refl i b
  · refine .ite (.refl i b) (.ite (.ite ((hmoved _).modCore _) (hmoved _)) (.ite (((hmoved _).lbEvent _ _).modCore _) (.ite ((hmoved _).modCore _) (hmoved _))))

theorem onlyCore_captureTimeout (i : Nat) (b : Block) : OnlyCore i b (captureTimeout i b) := by
  unfold captureTimeout
  split
  · exact .refl i b
  · exact .ite (.refl i b) (((OnlyCore.refl i b).lbEvent _ _).modCore _)

theorem onlyCore_of_act {i : Nat} {f : Block → Block} {s t : State} (hf : OnlyCore i s.blk (f s.blk)) (h : act f s = .next t) :
    OnlyCore i s.blk t.blk := by
  obtain rfl := act_next_eq h
  dsimp only
  split
  · exact hf.cores rfl
  · exact .refl i _

/-- Settles O21, command by command. -/
theorem otherCoresUntouched : Obligations.OtherCoresUntouched := by
  intro s t core c hc h
  suffices hall : OnlyCore core.toNat s.blk t.blk from hall
  obtain rfl | ⟨_, rfl⟩ | ⟨_, rfl⟩ | ⟨_, rfl⟩ | rfl | ⟨_, rfl⟩ | ⟨_, rfl⟩ | ⟨_, rfl⟩ | ⟨_, rfl⟩ | rfl | rfl | rfl | rfl | ⟨_, _, rfl⟩ | rfl |
    ⟨_, _, rfl⟩ | rfl := hc
  · exact onlyCore_of_act (onlyCore_corePorAssert _ _) h
  · exact onlyCore_of_act (onlyCore_weightBeat _ _ _) h
  · exact onlyCore_of_act (onlyCore_activationBeat _ _ _) h
  · exact onlyCore_of_act (onlyCore_accumulatorDrain _ _ _) h
  · exact onlyCore_of_act (onlyCore_rowCompare _ _) h
  · exact onlyCore_of_act (onlyCore_outputBeat _ _ _) h
  · exact onlyCore_of_act (onlyCore_flushSticky _ _ _) h
  · exact onlyCore_of_act (onlyCore_shadowRead _ _ _) h
  · exact onlyCore_of_act (onlyCore_fenceOrder _ _ _) h
  · exact onlyCore_of_act (onlyCore_fenceAck _ _) h
  · exact onlyCore_of_act (onlyCore_fenceTimeout _ _) h
  · exact onlyCore_of_act (onlyCore_coreRelease _ _) h
  · exact onlyCore_of_act (onlyCore_testAck _ _) h
  · exact onlyCore_of_act (onlyCore_captureRequest _ _ _ _) h
  · exact onlyCore_of_act (onlyCore_captureAck _ _) h
  · exact onlyCore_of_act (onlyCore_captureBeat _ _ _ _) h
  · exact onlyCore_of_act (onlyCore_captureTimeout _ _) h

end Sys2Proof.Machine
end

section
/-! Residues modulo 8,191 stand for exact numbers (R161 to R163): 2^13 is 1, so rotating multiplies and folding adds. -/

namespace Sys2Proof.Machine

open Sys2Proof

theorem mul_mod_congr {a b : Nat} (c : Nat) (h : a % 8191 = b % 8191) : a * c % 8191 = b * c % 8191 := by
  rw [Nat.mul_mod, h, ← Nat.mul_mod]

/-- 2^13 is 1. -/
theorem two_pow_13_mul_mod (k : Nat) : 2 ^ (13 * k) % 8191 = 1 := by
  rw [Nat.pow_mul, Nat.pow_mod, show 2 ^ 13 % 8191 = 1 from rfl, Nat.one_pow]

theorem two_pow_mod (n : Nat) : 2 ^ n % 8191 = 2 ^ (n % 13) % 8191 := by
  have hsplit : 2 ^ n = 2 ^ (13 * (n / 13)) * 2 ^ (n % 13) := by rw [← Nat.pow_add, Nat.div_add_mod]
  rw [hsplit, mul_mod_congr (b := 1) (2 ^ (n % 13)) (two_pow_13_mul_mod (n / 13)), Nat.one_mul]

theorem mul_two_pow_mod (q n : Nat) : q * 2 ^ (n % 13) % 8191 = q * 2 ^ n % 8191 := by
  rw [Nat.mul_comm, mul_mod_congr q (two_pow_mod n).symm, Nat.mul_comm]

/-- Rotation by t multiplies by 2^t (R161). -/
theorem rot13_mod (q t : Nat) : rot13 q t % 8191 = q * 2 ^ t % 8191 := by
  have hsplit : q / 2 ^ (13 - t % 13) = q * 2 ^ (t % 13) / 8192 := by
    have h8192 : 2 ^ (13 - t % 13) * 2 ^ (t % 13) = 8192 := by
      rw [← Nat.pow_add, Nat.sub_add_cancel (Nat.le_of_lt (Nat.mod_lt _ (by decide)))]
    rw [← h8192, Nat.mul_div_mul_right _ _ (Nat.two_pow_pos _)]
  rw [← mul_two_pow_mod]
  unfold rot13 M13
  dsimp only
  rw [hsplit]
  omega

theorem resOf_mod (neg : Bool) (q n : Nat) (e : Int) (hn : (n : Int) % 13 = e % 13) :
    ((resOf neg q e : Int) - (if neg then -((q * 2 ^ n : Nat) : Int) else ((q * 2 ^ n : Nat) : Int))) % 8191 = 0 := by
  have hexp : emod13 e = n % 13 := by unfold emod13; omega
  have hrot : rot13 q (emod13 e) % 8191 = q * 2 ^ n % 8191 := by rw [hexp, rot13_mod, mul_two_pow_mod]
  unfold resOf negRes M13
  generalize q * 2 ^ n = whole at hrot ⊢
  cases neg with
  | false =>
    rw [if_neg Bool.false_ne_true, if_neg Bool.false_ne_true]
    omega
  | true =>
    rw [if_pos rfl, if_pos rfl]
    omega

/-- The first k chunks of a word are congruent to its low 13k bits (R163). -/
theorem chunks_mod (v k : Nat) : (List.range k).foldl (fun acc i => acc + fld v (13 * i) 13) 0 % 8191 = v % 2 ^ (13 * k) % 8191 := by
  induction k with
  | zero => rw [Nat.mul_zero, Nat.pow_zero, Nat.mod_one]; rfl
  | succ k ih =>
    have hlow : v % 2 ^ (13 * (k + 1)) = v % 2 ^ (13 * k) + 2 ^ (13 * k) * fld v (13 * k) 13 := by
      rw [Nat.mul_succ, Nat.pow_add, Nat.mod_mul]
      rfl
    have hone := mul_mod_congr (b := 1) (fld v (13 * k) 13) (two_pow_13_mul_mod k)
    rw [Nat.one_mul] at hone
    rw [List.range_succ, List.foldl_append, List.foldl_cons, List.foldl_nil, hlow]
    generalize 2 ^ (13 * k) * fld v (13 * k) 13 = high at hone ⊢
    generalize v % 2 ^ (13 * k) = low at ih ⊢
    omega

theorem chunkSum_mod {b u : Nat} (hu : u < 2 ^ b) : chunkSum b u % 8191 = u % 8191 := by
  have hwide : b ≤ 13 * ceilDiv b 13 := by unfold ceilDiv; omega
  have h := chunks_mod u (ceilDiv b 13)
  rwa [Nat.mod_eq_of_lt (Nat.lt_of_lt_of_le hu (Nat.pow_le_pow_right (by decide) hwide))] at h

theorem bit_top {b u : Nat} (hb : 0 < b) (hu : u < 2 ^ b) : bit u (b - 1) = decide (2 ^ b ≤ 2 * u) := by
  obtain ⟨b, rfl⟩ := Nat.exists_eq_add_of_lt hb
  rw [Nat.zero_add, Nat.pow_succ] at hu ⊢
  have hq : u / 2 ^ b < 2 := Nat.div_lt_of_lt_mul hu
  have hone : u / 2 ^ b = 1 ↔ 2 ^ b ≤ u := by
    rw [← Nat.one_le_div_iff (Nat.two_pow_pos b)]
    omega
  unfold bit fld
  rw [Nat.add_sub_cancel, Nat.pow_one, Nat.mod_eq_of_lt hq]
  exact decide_eq_decide.2 (hone.trans (by omega))

/-- A folded word is congruent to the number its two's complement stands for. -/
theorem foldWord_mod {b : Nat} (hb : 0 < b) (v : Nat) : ((foldWord b v : Int) - sgn v b) % 8191 = 0 := by
  have hu : v % 2 ^ b < 2 ^ b := Nat.mod_lt _ (Nat.two_pow_pos b)
  have hsum := chunkSum_mod hu
  unfold foldWord sgn M13
  dsimp only
  rw [bit_top hb hu]
  generalize v % 2 ^ b = u at hu hsum ⊢
  generalize chunkSum b u = c at hsum ⊢
  generalize 2 ^ b = p at hu ⊢
  by_cases hneg : 2 * u < p
  · rw [if_pos hneg, decide_eq_false (Nat.not_le.2 hneg), if_neg Bool.false_ne_true]
    omega
  · rw [if_neg hneg, decide_eq_true (Nat.not_lt.1 hneg), if_pos rfl]
    omega

/-- 2^t is a unit: 2^(12t) is its inverse. -/
theorem mul_two_pow_cancel {a b t : Nat} (h : a * 2 ^ t % 8191 = b * 2 ^ t % 8191) : a % 8191 = b % 8191 := by
  have hunit : ∀ x : Nat, x * 2 ^ t * 2 ^ (12 * t) % 8191 = x % 8191 := fun x => by
    rw [Nat.mul_assoc, ← Nat.pow_add, show t + 12 * t = 13 * t by omega, Nat.mul_comm,
      mul_mod_congr (b := 1) x (two_pow_13_mul_mod t), Nat.one_mul]
  rw [← hunit a, mul_mod_congr _ h, hunit b]

/-- Two residues rotate to one residue exactly when they are the same modulo 8,191. -/
theorem rot13_eq_iff (x y t : Nat) : rot13 x t = rot13 y t ↔ x % 8191 = y % 8191 := by
  have hx := rot13_le x t
  have hy := rot13_le y t
  constructor
  · intro h
    refine mul_two_pow_cancel (t := t) ?_
    rw [← rot13_mod, ← rot13_mod, h]
  · intro h
    have hmod : rot13 x t % 8191 = rot13 y t % 8191 := by rw [rot13_mod, rot13_mod, mul_mod_congr _ h]
    rwa [Nat.mod_eq_of_lt (Nat.lt_succ_of_le hx), Nat.mod_eq_of_lt (Nat.lt_succ_of_le hy)] at hmod

/-- Settles O10: rotation multiplies, folding adds, and a rotated residue tells two words apart exactly when 8,191 does not divide
their difference. -/
theorem residuesAreExact : Obligations.ResiduesAreExact := by
  refine ⟨fun neg q n e _ hn => resOf_mod neg q n e hn, fun b v hb => foldWord_mod hb v, fun b v w t d hb hd => ?_⟩
  have hv := foldWord_mod hb v
  have hw := foldWord_mod hb w
  rw [Ne, rot13_eq_iff, hd] at *
  omega

end Sys2Proof.Machine
end

section
/-! Power-on reset and the first bring-up steps: the domain tests and the configuration check (R88, R252, R339). -/

namespace Sys2Proof.Machine

open Sys2Proof

theorem lifeOf_isNone (lc lcInv : BitVec 3) : (lifeOf lc lcInv).isNone = decide (lcInv ≠ ~~~lc ∨ 5 ≤ lc.toNat) := by
  unfold lifeOf
  by_cases hpair : lcInv = ~~~lc
  · rw [if_neg (by simpa using hpair)]
    have hlt := lc.isLt
    have hlife : ∀ n : Nat, n < 8 → (match n with
        | 0 => some LifeCycle.manufacture | 1 => some .provisioned | 2 => some .field | 3 => some .rma | 4 => some .decommissioned
        | _ => none).isNone = decide (5 ≤ n) := by decide
    rw [decide_eq_decide.2 (or_iff_right (not_not_intro hpair))]
    exact hlife lc.toNat hlt
  · simp [hpair]

/-- Settles O22: power-on reset leaves the free counter alone, and the release starts bring-up from the reset state. -/
theorem powerOnResetAndRelease : Obligations.PowerOnResetAndRelease := by
  refine ⟨fun _ => rfl, fun s lc lcInv ar idv feed loop rack mfg vok hp => ?_⟩
  have hrel : resetRelease lc lcInv ar idv feed loop rack mfg vok s.blk = _ := if_neg (by simp [hp])
  refine ⟨_, exec_blockResetRelease .., rfl, ?_⟩
  dsimp only
  rw [hrel]
  refine ⟨rfl, rfl, rfl, rfl, rfl, rfl, lifeOf_isNone lc lcInv, fun hbad => ?_, fun hid => ?_, rfl, rfl, rfl, rfl, rfl⟩
  · have hnone : lifeOf lc lcInv = none := Option.isNone_iff_eq_none.1 ((lifeOf_isNone lc lcInv).trans (decide_eq_true hbad))
    simp [hnone]
  · simp [hid]

end Sys2Proof.Machine
end

section
/-! The domain tests of steps 1 and 2 and the configuration check: when each is taken, and what it writes (R252, R143, R141, R339). -/

namespace Sys2Proof.Machine

open Sys2Proof

/-- The Postmark domain's test is waited for. -/
theorem postmarkTestDone_due {pass : Bool} {legs : List LegSample} {b : Block} (hok : b.svc.pmOk = false) (hboot : b.booting = true)
    (hon : b.pm.powered = true) : postmarkTestDone pass legs b = if ¬ pass ∨ legs.any (fun l => legHo l && legBad l) then enterSafe 5 b
      else (forEach legs calibrate b).modSvc (fun s => { s with pmOk := true, hoOn := true, dbgOn := true }) :=
  if_neg (by simp [hok, hboot, hon])

theorem postmarkTestDone_passed {legs : List LegSample} {b : Block} (hok : b.svc.pmOk = false) (hboot : b.booting = true) (hon : b.pm.powered = true)
    (hlegs : ∀ l ∈ legs, ¬ (legHo l = true ∧ legBad l = true)) :
    postmarkTestDone true legs b = (forEach legs calibrate b).modSvc (fun s => { s with pmOk := true, hoOn := true, dbgOn := true }) := by
  rw [postmarkTestDone_due hok hboot hon, if_neg]
  simpa using fun l hl hho hbad => hlegs l hl ⟨hho, hbad⟩

theorem postmarkTestDone_failed {legs : List LegSample} {b : Block} (hok : b.svc.pmOk = false) (hboot : b.booting = true) (hon : b.pm.powered = true) :
    postmarkTestDone false legs b = enterSafe 5 b := by
  rw [postmarkTestDone_due hok hboot hon, if_pos (.inl (by decide))]

theorem calibrates_svc (legs : List LegSample) (b : Block) : (forEach legs calibrate b).svc = b.svc :=
  forEach_keeps_svc _ _ _ fun l c => (frame_calibrate l (.refl [.pm, .ledger, .free, .post, .bm, .cores, .offices, .routers, .couriers] c) (subs_of rfl)).get .svc
    (by decide)

theorem calibrate_offset {l : LegSample} (b : Block) (hbad : legBad l = false) (htie : legTie l = false) :
    tget (calibrate l b).pm.offsets l.node = some (legOffset false l) := by
  simp [calibrate, hbad, setLeg, measureLeg, htie]

/-- The Head Office domain's test is waited for. -/
theorem headOfficeTestDone_failed {dbg : Bool} {sel : Nat} {s0 s1 : Option (List Byte)} {b : Block} (hon : b.svc.hoOn = true)
    (hpassed : b.svc.hoPassed = false) (hboot : b.booting = true) :
    headOfficeTestDone false dbg sel s0 s1 b = enterSafe 3 (b.modSvc (fun s => { s with dbgFail := !dbg })) := by
  unfold headOfficeTestDone
  rw [if_neg (by simp [hon, hpassed, hboot])]
  rfl

/-- The Head Office as its passed test leaves it, before the boot image. -/
def Block.hoTested (dbg : Bool) (b : Block) : Block :=
  setIrqMisc 4 (((b.modSvc (fun s => { s with dbgFail := !dbg })).modSvc (fun s => { s with hoPassed := true })).modOuts
    (fun o => { o with alarmN := true, alarmCode := 0 }))

theorem headOfficeTestDone_passed {dbg : Bool} {sel : Nat} {s0 s1 : Option (List Byte)} {b : Block} (hon : b.svc.hoOn = true)
    (hpassed : b.svc.hoPassed = false) (hboot : b.booting = true) (hlc : b.svc.lc ≠ .decommissioned) :
    headOfficeTestDone true dbg sel s0 s1 b = pumpAll (loadImage sel s0 s1 (b.hoTested dbg)) := by
  unfold headOfficeTestDone
  rw [if_neg (by simp [hon, hpassed, hboot])]
  dsimp only
  rw [if_neg (by decide), if_neg (by simpa [setIrqMisc] using hlc)]
  rfl

/-- The boot image that is picked is measured, and bring-up begins (R121, R339). -/
theorem loadImage_picked {sel k : Nat} {s0 s1 : Option (List Byte)} {l : List Byte} {b : Block} (har : b.env.arPresent = true)
    (hpick : pickImage sel s0 s1 = some (k, l)) : loadImage sel s0 s1 b =
      setSvc .bringup ((b.modMgmt (fun m => { m with meas := sha384v l, measSlot := decide (k = 1), measVld := true, measLen := l.length })).modSvc
        (fun s => { s with imageOk := true })) := by
  unfold loadImage
  rw [if_pos har, hpick]

theorem setSvc_meas (st : SvcState) (b : Block) : Block.sameMeasure b (setSvc st b) := by
  have h := setSvc_fixed st b
  simp only [Mgmt.fixed, Prod.mk.injEq] at h
  obtain ⟨-, -, hmeas, hslot, hvld, hlen⟩ := h
  exact ⟨hmeas, hslot, hvld, hlen⟩

/-- What a passed test of the Head Office leaves, with a boot image picked. -/
theorem headOfficeTestDone_booted {dbg : Bool} {sel k : Nat} {s0 s1 : Option (List Byte)} {l : List Byte} {b c : Block} (har : b.env.arPresent = true)
    (hpick : pickImage sel s0 s1 = some (k, l)) (hc : c = pumpAll (loadImage sel s0 s1 (b.hoTested dbg))) :
    c.svc.state = .bringup ∧ c.svc.hoPassed = true ∧ c.svc.dbgFail = !dbg ∧ c.svc.imageOk = true ∧ c.outs.alarmN = true ∧ c.outs.alarmCode = 0 ∧
      c.ho.mgmt.meas = sha384v l ∧ c.ho.mgmt.measVld = true ∧ c.ho.mgmt.measLen = l.length := by
  obtain ⟨hpmeas, -, hpvld, hplen⟩ := pumpAll_sameMeasure (loadImage sel s0 s1 (b.hoTested dbg))
  rw [← hc] at hpmeas hpvld hplen
  have hframe := frame_pumpAll (.refl [.ledger, .mgmt, .mail, .post] (loadImage sel s0 s1 (b.hoTested dbg))) (subs_of rfl)
  rw [← hc] at hframe
  have hsvc := hframe.get .svc (by decide)
  have houts := hframe.get .outs (by decide)
  simp only [Part.same] at hsvc houts
  rw [loadImage_picked (b := b.hoTested dbg) har hpick] at *
  obtain ⟨hmeas, -, hvld, hlen⟩ := setSvc_meas .bringup (((b.hoTested dbg).modMgmt
    (fun m => { m with meas := sha384v l, measSlot := decide (k = 1), measVld := true, measLen := l.length })).modSvc (fun s => { s with imageOk := true }))
  rw [setSvc_svc] at hsvc
  rw [setSvc_keeps_outs] at houts
  rw [hsvc, houts, hpmeas, hpvld, hplen, hmeas, hvld, hlen]
  exact ⟨rfl, rfl, rfl, rfl, rfl, rfl, rfl, rfl, rfl⟩

theorem configurationCheck_good {image : List Host.Cell} {present : List (Nat × Nat)} {b : Block} (hruns : b.hoRuns = true) (hnone : b.cfg = none)
    (hstate : b.svc.state = .bringup) (hok : configOk image (parseConfig image present) = true) :
    configurationCheck image present b = { b with cfg := some (parseConfig image present) } := by
  unfold configurationCheck
  rw [if_neg (by simp [hruns, hnone, hstate])]
  exact if_pos hok

/-- Settles O23. -/
theorem firstBringUpSteps : Obligations.FirstBringUpSteps := by
  refine ⟨fun s legs hr hok hboot hon hlegs => ?_, fun s l hr hok hboot hon hbad htie => ?_, fun s legs hr hok hboot hon => ?_,
    fun s dbg sel s0 s1 k l hr hon hpassed hboot hlc har hpick => ?_, fun s dbg sel s0 s1 hr hon hpassed hboot => ?_,
    fun s image present hr hruns hnone hstate hok => ?_⟩
  · refine ⟨_, act_after hr (postmarkTestDone_passed hok hboot hon hlegs), ?_, rfl⟩
    rw [State.after_blk, held_svc, Block.modSvc_svc, calibrates_svc]
  · refine ⟨_, act_after hr (postmarkTestDone_passed hok hboot hon ?_), calibrate_offset s.blk hbad htie⟩
    simp [hbad]
  · refine ⟨_, act_after hr (postmarkTestDone_failed hok hboot hon), (enterSafe_state 5 s.blk :), ?_⟩
    rw [State.after_blk, held_svc, enterSafe_svc]
    split <;> exact hok
  · obtain ⟨hstate, hho, hdbg, himage, halarm, hcode, hmeas, hvld, hlen⟩ :=
      headOfficeTestDone_booted (b := s.blk) (dbg := dbg) har hpick rfl
    refine ⟨s.after (pumpAll (loadImage sel.toNat s0 s1 (s.blk.hoTested dbg))), act_after hr (headOfficeTestDone_passed hon hpassed hboot hlc), ?_⟩
    rw [State.after_blk, held_svc, held_outs, held_ho, State.after_pending]
    exact ⟨hstate, hho, hdbg, himage, halarm, hcode, hmeas, hvld, hlen, rfl⟩
  · refine ⟨_, act_after hr (headOfficeTestDone_failed hon hpassed hboot), ?_, ?_⟩
    · rw [State.after_blk, held_svc, enterSafe_state]
    rw [State.after_blk, held_svc, enterSafe_svc]
    split <;> exact hpassed
  · exact act_eq hr (configurationCheck_good hruns hnone hstate hok) rfl rfl rfl rfl

end Sys2Proof.Machine
end

section
/-! Steps 4 to 7 of bring-up: the Ledger, the Office members, the routers and the Courier domains (R252, R258, R339, R340). -/

namespace Sys2Proof.Machine

open Sys2Proof

/-! ### The Ledger -/

/-- The Ledger that a reload brings: the newer slot's, with a generation under way failed. -/
def reloadedLedger (sa sb : Option LedgerImage) : LedgerData :=
  let d := ((newerSlot sa sb).map (·.data)).getD {}
  { d with inGen := d.inGen.map (fun g => { g with state := .failed }) }

/-- A reload writes the Ledger and the slots, and powers the Offices up. -/
def Block.reloaded (sa sb : Option LedgerImage) (b : Block) : Block :=
  let d := reloadedLedger sa sb
  let b : Block := { b with ledger := d, arch := { b.arch with slotA := sa, slotB := sb } }
  let b := if (match b.cfg with | some c => c.storeCold | none => true) then b else loseHolds b
  (b.modBm (fun m => { m with gen := BitVec.ofNat 32 d.bmGen, digest := d.bmDigest })).modSvc (fun s => { s with ledgerOk := true })

theorem ledgerReloadDone_due {sa sb : Option LedgerImage} {b : Block} (hruns : b.hoRuns = true) (hcfg : b.cfg.isSome = true)
    (hok : b.svc.ledgerOk = false) (hstate : b.svc.state = .bringup) : ledgerReloadDone sa sb b =
      forEach (b.reloaded sa sb).popRegions (fun r b => b.modOffice r (fun o => { o with powered := true })) (b.reloaded sa sb) := by
  unfold ledgerReloadDone
  rw [if_neg]
  · rfl
  · simp [hruns, hok, hstate, Option.isSome_iff_ne_none.1 hcfg]

theorem reloaded_parts (sa sb : Option LedgerImage) (b : Block) : (b.reloaded sa sb).svc = { b.svc with ledgerOk := true } ∧
    (b.reloaded sa sb).arch = { b.arch with slotA := sa, slotB := sb } ∧ (b.reloaded sa sb).cfg = b.cfg ∧
    (b.reloaded sa sb).ledger.hist = (((newerSlot sa sb).map LedgerImage.data).getD {}).hist ∧
    (b.reloaded sa sb).ledger.epoch = (((newerSlot sa sb).map LedgerImage.data).getD {}).epoch := by
  have h : ∀ (p : Prop) [Decidable p] (c : Block), (if p then c else loseHolds c).svc = c.svc ∧ (if p then c else loseHolds c).arch = c.arch ∧
      (if p then c else loseHolds c).cfg = c.cfg ∧ (if p then c else loseHolds c).ledger.hist = c.ledger.hist ∧
      (if p then c else loseHolds c).ledger.epoch = c.ledger.epoch := fun p _ c => by
    split <;> exact ⟨rfl, rfl, rfl, rfl, rfl⟩
  obtain ⟨hsvc, harch, hcfg, hhist, hepoch⟩ := h ((match b.cfg with | some c => c.storeCold | none => true) = true)
    { b with ledger := reloadedLedger sa sb, arch := { b.arch with slotA := sa, slotB := sb } }
  exact ⟨congrArg (fun v : Svc => { v with ledgerOk := true }) hsvc, harch, hcfg, hhist, hepoch⟩

theorem powered_offices (rs : List Nat) (b : Block) {r : Nat} (hr : r ∈ rs) :
    ((forEach rs (fun r b => b.modOffice r (fun o => { o with powered := true })) b).office r).powered = true := by
  refine forEach_mem (P := fun c => (c.office r).powered = true) hr (fun c => by rw [Block.modOffice_self]) (fun q c h => ?_) b
  by_cases hq : r = q
  · subst hq
    rw [Block.modOffice_self]
  · rwa [Block.modOffice_ne _ _ hq]

/-! ### The Office members -/

theorem writeServing_office (r : Nat) (mb : Bool) (b : Block) (q : Nat) : (writeServing r mb b).office q = b.office q :=
  Block.office_same ((frame_writeServing r mb (.refl [.routers, .nodes] b) (subs_of rfl)).get .offices (by decide)) q

/-- A passed member of an Office is eligible, and the first to pass serves. -/
theorem officeMemberTestDone_passed {r : Nat} {legs : List LegSample} {b : Block} (hrising : b.rising = true) (hon : (b.office r).powered = true)
    (hp : (b.office r).memA.passed = false) (hf : (b.office r).memA.failed = false) :
    ∃ c, officeMemberTestDone r false true legs b = c ∧ (c.office r).memA = { (b.office r).memA with passed := true, eligible := true, failed := false } ∧
      ((b.office r).memB.passed = false → (c.office r).serving = false) := by
  refine ⟨_, rfl, ?_⟩
  unfold officeMemberTestDone
  rw [if_neg (by simp [hrising, hon, hp, hf])]
  simp only [Bool.false_eq_true, if_false, if_true]
  split
  · rename_i hother
    refine ⟨?_, fun hno => ?_⟩
    · rw [Block.modOffice_self]
      rfl
    · simp [hno] at hother
  · rw [writeServing_office, Block.modOffice_self, Block.modOffice_self]
    exact ⟨rfl, fun _ => rfl⟩

/-- A failed member of an Office never serves. -/
theorem officeMemberTestDone_failed {r : Nat} {legs : List LegSample} {b : Block} (hrising : b.rising = true) (hon : (b.office r).powered = true)
    (hp : (b.office r).memB.passed = false) (hf : (b.office r).memB.failed = false) :
    ((officeMemberTestDone r true false legs b).office r).memB = { (b.office r).memB with passed := false, eligible := false, failed := true } := by
  have hblocked : ∀ (c : Block) (xs : List Nat), (forEach xs (fun i b => blockCore i 4 b) (postEvent evOfficeTestFail (unitOffice r) [] c)).office r = c.office r :=
    fun c xs => by
      rw [forEach_keep (fun c => c.office r) _ fun i c => ?_]
      · exact Block.office_same (postEvent_keeps_offices _ _ _ _) r
      · exact Block.office_same (blockCore_keeps_offices _ _ _) r
  unfold officeMemberTestDone
  rw [if_neg (by simp [hrising, hon, hp, hf])]
  simp only [Bool.false_eq_true, if_false, if_true]
  split
  · rw [hblocked, Block.modOffice_self]
    rfl
  · rw [Block.modOffice_self]
    rfl

/-! ### The routers -/

theorem routerLoopbackDone_due {r k : Nat} {pass : Bool} {b : Block} (hrising : b.rising = true) (hon : b.officeOn r = true)
    (hnew : maskBit (b.office r).looped k = false) : routerLoopbackDone r k pass b =
      if pass then b.modOffice r (fun o => { o with looped := maskSet o.looped k true })
      else loseFirst r k (b.modOffice r (fun o => { o with looped := maskSet o.looped k true })) := by
  unfold routerLoopbackDone
  rw [if_neg (by simp [hrising, hon, hnew])]

/-! ### The Courier domains -/

theorem courierDomainTestDone_due {n : Nat} {portPass tapPass : Bool} {b : Block} (hrising : b.rising = true) (hon : (b.courier n).powered = false) :
    courierDomainTestDone n portPass tapPass b = courierTested n portPass tapPass b := if_neg (by simp [hrising, hon])

theorem courierTested_passed {n : Nat} {b : Block} (hdom : (b.courier n).domFail = false) (hlink : (b.courier n).linkUp = false)
    (hatt : (b.attach (unitCourier n)).isSome = true) : courierTested n true true b =
      b.setCourier n { b.courier n with powered := true, portFail := false, en := true, itFmt := b.ho.policy.fmt } := by
  have hattached : ∀ f, (b.modCourier n f).attach (unitCourier n) = b.attach (unitCourier n) := fun _ => rfl
  unfold courierTested
  dsimp only
  rw [if_neg, if_pos rfl]
  · unfold enablePort
    dsimp only
    rw [Block.modCourier_modCourier, if_neg (by simp [hlink])]
    rfl
  · rw [hattached, Block.modCourier_self]
    simp [hdom, Option.isSome_iff_ne_none.1 hatt]

theorem courierTested_failed (n : Nat) (portPass : Bool) (b : Block) :
    ((courierTested n portPass false b).courier n).domFail = true ∧ ((courierTested n portPass false b).courier n).notices = [] := by
  unfold courierTested
  dsimp only
  rw [if_pos (.inl (by decide))]
  unfold disableDomain
  rw [Block.modCourier_self]
  exact ⟨rfl, rfl⟩

/-! ### The Offices' Ledger slices -/

/-- The Office takes its slice, and what it then applies to the cores leaves that and lists below. -/
theorem officeLedgerDelivered_due {r : Nat} {b : Block} (hrising : b.rising = true) (hon : b.officeOn r = true) (hin : (b.office r).ledgerIn = false) :
    ((officeLedgerDelivered r b).office r).ledgerIn = true := by
  unfold officeLedgerDelivered
  rw [if_neg (by simp [hrising, hon, hin])]
  dsimp only
  have hidle : ∀ c d : Block, (d.office r).idle = (c.office r).idle → (d.office r).ledgerIn = (c.office r).ledgerIn := fun c d h =>
    (congrArg Office.ledgerIn h :)
  refine (forEach_keep (fun c => (c.office r).ledgerIn) _ (fun i c => ?_) _ _).trans
    ((forEach_keep (fun c => (c.office r).ledgerIn) _ (fun x c => hidle _ _ (applyTested_idle _ _ _ _)) _ _).trans ?_)
  · split
    · exact hidle _ _ (unscreen_idle _ _ _)
    · rfl
  · rw [Block.modOffice_self]

theorem officeLedgerDelivered_frame (r : Nat) (b : Block) :
    Frame [.ledger, .stop, .dbg, .mgmt, .mail, .job, .bm, .cores, .offices] b (officeLedgerDelivered r b) :=
  frame_officeLedgerDelivered r (.refl _ b) (subs_of rfl)

/-- Settles O24. -/
theorem officeAndRouterBringUp : Obligations.OfficeAndRouterBringUp := by
  refine ⟨fun s sa sb hr hruns hcfg hok hstate => ?_, fun s region legs hr hrising hon hp hf => ?_, fun s region legs hr hrising hon hp hf => ?_,
    fun s region k hr hrising hon hnew => ?_, fun s region k hr hrising hon hnew => ?_, fun s n hr hrising hon hdom hlink hatt => ?_,
    fun s n hr hrising hon => ?_, fun s region hr hrising hon hin => ?_⟩
  · obtain ⟨hsvc, harch, hsame, hhist, hepoch⟩ := reloaded_parts sa sb s.blk
    refine ⟨_, act_after hr (ledgerReloadDone_due hruns hcfg hok hstate), ?_⟩
    simp only [State.after_blk, State.after_pending, held_svc, held_arch, held_ledger, held_office, true_and]
    rw [forEach_keeps_svc, forEach_keeps_arch, forEach_keeps_ledger]
    · exact ⟨hsvc, harch, hhist, hepoch, fun r hmem => powered_offices _ _ (popRegions_same hsame ▸ hmem), trivial⟩
    all_goals exact fun _ _ => rfl
  · obtain ⟨c, hc, hmem, hserving⟩ := officeMemberTestDone_passed (legs := legs) hrising hon hp hf
    refine ⟨_, act_after hr hc, ?_⟩
    simp only [State.after_blk, held_office, hmem]
    exact ⟨trivial, trivial, trivial, hserving⟩
  · refine ⟨_, act_after hr rfl, ?_⟩
    simp only [State.after_blk, held_office]
    have hmem := officeMemberTestDone_failed (legs := legs) hrising hon hp hf
    exact ⟨congrArg Member.passed hmem, congrArg Member.failed hmem, congrArg Member.eligible hmem⟩
  · exact act_eq hr (routerLoopbackDone_due hrising hon hnew) rfl rfl rfl rfl
  · refine ⟨_, act_after hr (routerLoopbackDone_due hrising hon hnew), ?_, rfl⟩
    exact loseFirst_lost _ _ _
  · exact act_eq hr ((courierDomainTestDone_due hrising hon).trans (courierTested_passed hdom hlink hatt)) rfl rfl rfl rfl
  · refine ⟨_, act_after hr (courierDomainTestDone_due hrising hon), ?_⟩
    exact courierTested_failed n.toNat true s.blk
  · refine ⟨_, act_after hr rfl, officeLedgerDelivered_due hrising hon hin, ?_, ?_⟩
    · exact (officeLedgerDelivered_frame region.toNat s.blk).get .svc (by decide)
    · exact (officeLedgerDelivered_frame region.toNat s.blk).get .pm (by decide)

end Sys2Proof.Machine
end

section
/-! Power waves: what a request drives and what an answer leaves (R114, R115, R341); and the publication of the Board Map (R344). -/

namespace Sys2Proof.Machine

open Sys2Proof

/-! ### A wave's request -/

theorem waveRequest_next {w : Nat} {b : Block} (hreq : b.outs.waveReq = false) (hshut : b.svc.shutting = false) (hstate : b.svc.state = .bringup)
    (hrising : b.rising = true) (hreset : b.svc.reset = 0) (hnext : nextWave b b.wavesLeft = some (w, [])) :
    waveRequest b = driveWave true w (b.modSvc (fun s => { s with wavesDone := s.wavesDone })) := by
  unfold waveRequest
  rw [if_neg (by simp [hreq, hshut]), if_neg (by simp [hstate]), if_neg (by simp [hrising, hreset]), hnext]
  rfl

/-- The wave request pins, and when they were driven. -/
theorem driveWave_pins (on : Bool) (w : Nat) (b : Block) :
    (driveWave on w b).outs = { b.outs with waveReq := true, waveOp := on, waveId := BitVec.ofNat 6 w } ∧ (driveWave on w b).svc.wavePhase = 1 ∧
      (driveWave on w b).svc.waveAt = some (driveWave on w b).now := by
  unfold driveWave
  dsimp only
  split
  · exact ⟨congrArg (fun o : Outs => { o with waveReq := true, waveOp := on, waveId := BitVec.ofNat 6 w }) (advTo_keeps_outs _ _), rfl, rfl⟩
  · exact ⟨rfl, rfl, rfl⟩

/-! ### A wave's answer -/

/-- A wave that ends late marks a slow bring-up. -/
def Block.lateMarked (b : Block) : Block :=
  let late : Bool := match b.svc.wave1 with | some t => decide (t + 40000000 < b.now) | none => false
  if b.outs.waveOp ∧ late ∧ ¬ b.svc.slow then hoEvent evBringupSlow [] (b.modSvc (fun s => { s with slow := true })) else b

theorem lateMarked_parts (b : Block) : (∃ slow, b.lateMarked.svc = { b.svc with slow := slow }) ∧ b.lateMarked.outs = b.outs ∧
    b.lateMarked.ho.bm = b.ho.bm := by
  unfold Block.lateMarked
  by_cases hlate : b.outs.waveOp = true ∧ (match b.svc.wave1 with | some t => decide (t + 40000000 < b.now) | none => false) = true ∧ ¬ b.svc.slow = true
  · rw [if_pos hlate]
    exact ⟨⟨true, hoEvent_keeps_svc _ _ _⟩, hoEvent_keeps_outs _ _ _, hoEvent_keeps_bm _ _ _⟩
  · rw [if_neg hlate]
    exact ⟨⟨b.svc.slow, rfl⟩, rfl, rfl⟩

/-- With no cold reset waiting or under way, the end of a wave only marks a slow bring-up. -/
theorem afterWave_idle {b : Block} (hwait : b.svc.coldWait = 0) (hreset : b.svc.reset ≠ 2) : afterWave b = b.lateMarked := by
  obtain ⟨⟨slow, hsvc⟩, -⟩ := lateMarked_parts b
  have hend : (if b.lateMarked.svc.coldWait ≠ 0 then beginCold b.lateMarked.svc.coldWait b.lateMarked else coldProgress b.lateMarked) = b.lateMarked := by
    rw [if_neg (by simp [hsvc, hwait])]
    exact if_neg (by simp [hsvc, hreset])
  exact hend

/-- The acknowledge of a wave on, its late mark apart. -/
def Block.waveAcked (b : Block) : Block :=
  ((b.modOuts (fun o => { o with waveReq := false })).modSvc (fun s => { s with wavePhase := 2 })).modSvc (fun s => { s with
    waveOn := maskSet s.waveOn b.outs.waveId.toNat true, wavesDone := maskSet s.wavesDone b.outs.waveId.toNat true })

theorem waveAck_on {b : Block} (hreq : b.outs.waveReq = true) (hop : b.outs.waveOp = true) (hwait : b.svc.coldWait = 0) (hreset : b.svc.reset ≠ 2) :
    waveAck b = b.waveAcked.lateMarked := by
  have hacked : waveAck b = afterWave b.waveAcked := by
    unfold waveAck
    rw [if_neg (by simp [hreq])]
    exact congrArg afterWave (if_pos hop)
  rw [hacked, afterWave_idle (b := b.waveAcked) hwait hreset]

/-- The failure of a wave, its blocked cores and late mark apart. -/
def Block.waveLost (b : Block) : Block :=
  (b.modOuts (fun o => { o with waveReq := false })).modSvc (fun s => { s with
    wavePhase := 3
    waveFail := maskSet s.waveFail b.outs.waveId.toNat true
    wavesDone := maskSet s.wavesDone b.outs.waveId.toNat true })

/-- Blocking cores writes the Board Map and the Ledger alone. -/
theorem blockCores_frame (why : Nat) (xs : List Nat) (b : Block) : Frame [.ledger, .bm] b (forEach xs (fun i c => blockCore i why c) b) :=
  .forEach1 (.refl _ b) fun i _ h => frame_blockCore i why h (subs_of rfl)

theorem blockCore_blocked (i why : Nat) (b : Block) : (blockCore i why b).ho.bm.blocked = tset b.ho.bm.blocked i why := by
  unfold blockCore bmChanged publishDue
  split <;> rfl

theorem blockCores_blocked {i why : Nat} {xs : List Nat} (hi : i ∈ xs) (b : Block) :
    (tget (forEach xs (fun i c => blockCore i why c) b).ho.bm.blocked i).isSome = true := by
  refine forEach_mem (P := fun c => (tget c.ho.bm.blocked i).isSome = true) hi (fun c => ?_) (fun j c h => ?_) b
  · rw [blockCore_blocked, tget_tset_self]
    rfl
  · rw [blockCore_blocked]
    by_cases hj : i = j
    · subst hj
      rw [tget_tset_self]
      rfl
    · rwa [tget_tset_ne _ _ hj]

theorem waveFailed_on {b : Block} (hreq : b.outs.waveReq = true) (hop : b.outs.waveOp = true) (hwait : b.svc.coldWait = 0) (hreset : b.svc.reset ≠ 2) :
    waveFailed b = (forEach (b.waveCores b.outs.waveId.toNat) (fun i c => blockCore i 1 c) b.waveLost).lateMarked := by
  have hframe := blockCores_frame 1 (b.waveCores b.outs.waveId.toNat) b.waveLost
  have hsvc := hframe.get .svc (by decide)
  have houts := hframe.get .outs (by decide)
  simp only [Part.same] at hsvc houts
  have hlost : waveFailed b = afterWave (forEach (b.waveCores b.outs.waveId.toNat) (fun i c => blockCore i 1 c) b.waveLost) := by
    unfold waveFailed
    rw [if_neg (by simp [hreq])]
    refine congrArg afterWave (if_pos ?_)
    exact (congrArg Outs.waveOp houts).trans hop
  rw [hlost, afterWave_idle]
  · rw [hsvc]
    exact hwait
  · rw [hsvc]
    exact hreset

/-- What a failed wave on leaves. -/
theorem waveFailed_parts {b : Block} (hreq : b.outs.waveReq = true) (hop : b.outs.waveOp = true) (hwait : b.svc.coldWait = 0) (hreset : b.svc.reset ≠ 2) :
    (waveFailed b).outs = { b.outs with waveReq := false } ∧ (waveFailed b).svc.wavePhase = 3 ∧
      (waveFailed b).svc.waveFail = maskSet b.svc.waveFail b.outs.waveId.toNat true ∧ (waveFailed b).svc.waveOn = b.svc.waveOn ∧
      ∀ i ∈ b.waveCores b.outs.waveId.toNat, (tget (waveFailed b).ho.bm.blocked i).isSome = true := by
  have hframe := blockCores_frame 1 (b.waveCores b.outs.waveId.toNat) b.waveLost
  have hsvc := hframe.get .svc (by decide)
  have houts := hframe.get .outs (by decide)
  simp only [Part.same] at hsvc houts
  obtain ⟨⟨slow, hlsvc⟩, hlouts, hlbm⟩ := lateMarked_parts (forEach (b.waveCores b.outs.waveId.toNat) (fun i c => blockCore i 1 c) b.waveLost)
  rw [waveFailed_on hreq hop hwait hreset, hlsvc, hlouts, hlbm, hsvc, houts]
  exact ⟨rfl, rfl, rfl, rfl, fun i hi => blockCores_blocked hi _⟩

theorem advTo_waveCores (n : Nat) (b : Block) (w : Nat) : (advTo n b).waveCores w = b.waveCores w := by
  have hcfg := advTo_keeps_cfg n b
  have hwave : ∀ i, (advTo n b).waveOf i = b.waveOf i := fun i => by simp only [Block.waveOf, hcfg]
  simp only [Block.waveCores, presentCores_same hcfg, hwave]

/-! ### The publication of the Board Map -/

theorem publish_bm (b : Block) : (publish b).ho.bm.dirty = false ∧ (publish b).ho.bm.published.map Prod.fst = b.presentCores := by
  refine ⟨rfl, ?_⟩
  exact (List.map_map ..).trans (List.map_id b.presentCores)

/-- The block before its Board Map is published: the cores of a dead Office UNSCREENED, the suspects queued. -/
def Block.toPublish (b : Block) : Block :=
  let b1 := forEach (b.popRegions.filter (fun r => (b.office r).dead)) (fun r b => forEach (b.regionCores r) unscreen b) b
  if b.svc.reset = 1 then b1
  else forEach (b1.presentCores.filter (fun i => decide (b1.coreState i = .suspect) && (b1.roleOf i).isNone && (b1.office (regionOf i)).powered)) queueSuspicion b1

/-- READY, with the reset under way ended. -/
def Block.nowReady (b : Block) : Block :=
  setSvc .ready ((hoEvent evBoardMapReady (le 4 b.ho.bm.gen.toNat ++ le 48 b.ho.bm.digest.toNat) b).modSvc (fun s => { s with reset := 0 }))

/-- The letter of a warm reset and the letters it met end. -/
def Block.warmEnded (warm : Bool) (b : Block) : Block :=
  let b := if warm then clearCause .teardown b else b
  pumpAll (if warm then abortLong 0x0604 (fun op => op = 0x701) (finishOp 0x701 0 0 [] b) else b)

theorem boardMapPublication_due {b : Block} (hmay : b.mayPublish = true) :
    boardMapPublication b = (publish b.toPublish).nowReady.warmEnded (decide (b.svc.reset = 1)) := by
  unfold boardMapPublication
  rw [if_neg (by simp [hmay])]
  simp only [Block.toPublish, Block.nowReady, Block.warmEnded, decide_eq_true_eq]

theorem toPublish_cfg (b : Block) : b.toPublish.cfg = b.cfg := by
  have hunscreened := Frame.forEach1 (.refl [.ledger, .bm, .offices, .dbg, .mgmt, .mail] b) (xs := b.popRegions.filter (fun r => (b.office r).dead))
    (f := fun r c => forEach (c.regionCores r) unscreen c) fun r c hc => .forEach1 hc fun i d hd => frame_unscreen i hd (subs_of rfl)
  unfold Block.toPublish
  dsimp only
  split
  · exact hunscreened.get .cfg (by decide)
  · exact (Frame.forEach1 hunscreened fun i c hc => frame_queueSuspicion i hc (subs_of rfl)).get .cfg (by decide)

theorem nowReady_parts (b : Block) : b.nowReady.svc.state = .ready ∧ b.nowReady.svc.reset = 0 ∧ b.nowReady.ho.bm = b.ho.bm ∧ b.nowReady.cfg = b.cfg := by
  unfold Block.nowReady
  rw [setSvc_svc, setSvc_keeps_bm, setSvc_keeps_cfg]
  exact ⟨rfl, rfl, hoEvent_keeps_bm _ _ _, hoEvent_keeps_cfg _ _ _⟩

theorem warmEnded_frame (warm : Bool) (b : Block) : Frame [.stop, .ledger, .mgmt, .mail, .post] b (b.warmEnded warm) := by
  unfold Block.warmEnded
  have hcleared : Frame [.stop, .ledger, .mgmt, .mail, .post] b (if warm then clearCause .teardown b else b) :=
    .ite (frame_clearCause _ (.refl _ b) (subs_of rfl)) (.refl _ b)
  exact frame_pumpAll (.ite (frame_abortLong _ _ (frame_finishOp _ _ _ _ hcleared (subs_of rfl)) (subs_of rfl)) hcleared) (subs_of rfl)

/-- What follows the publication leaves the Board Map and the configuration; the service state becomes READY. -/
theorem boardMapPublication_parts {b : Block} (hmay : b.mayPublish = true) :
    (boardMapPublication b).svc.state = .ready ∧ (boardMapPublication b).svc.reset = 0 ∧ (boardMapPublication b).ho.bm.dirty = false ∧
      (boardMapPublication b).ho.bm.published.map Prod.fst = b.presentCores ∧ (boardMapPublication b).cfg = b.cfg := by
  obtain ⟨hdirty, hpub⟩ := publish_bm b.toPublish
  obtain ⟨hstate, hreset, hbm, hcfg⟩ := nowReady_parts (publish b.toPublish)
  have hframe := warmEnded_frame (decide (b.svc.reset = 1)) (publish b.toPublish).nowReady
  have hsvc' := hframe.get .svc (by decide)
  have hbm' := hframe.get .bm (by decide)
  have hcfg' := hframe.get .cfg (by decide)
  simp only [Part.same] at hsvc' hbm' hcfg'
  rw [boardMapPublication_due hmay, hsvc', hbm', hcfg', hbm, hcfg]
  exact ⟨hstate, hreset, hdirty, hpub.trans (presentCores_same (toPublish_cfg b)), toPublish_cfg b⟩

/-- Settles O25. -/
theorem wavesAndPublication : Obligations.WavesAndPublication := by
  refine ⟨fun s w hr hreq hshut hstate hrising hreset hnext => ?_, fun s hr hreq hop hwait hreset => ?_, fun s hr hreq hop hwait hreset => ?_,
    fun s hr hreq hop hwait hreset => ?_, fun s hr hmay => ?_⟩
  · obtain ⟨houts, hphase, hat⟩ := driveWave_pins true w (s.blk.modSvc (fun v => { v with wavesDone := v.wavesDone }))
    refine ⟨_, act_after hr (waveRequest_next hreq hshut hstate hrising hreset hnext), ?_⟩
    rw [State.after_blk, State.after_pending, held_outs, held_svc, held_now]
    exact ⟨houts, hphase, hat, rfl⟩
  · obtain ⟨⟨slow, hsvc⟩, houts, -⟩ := lateMarked_parts s.blk.waveAcked
    refine ⟨_, act_after hr (waveAck_on hreq hop hwait hreset), ?_⟩
    rw [State.after_blk, State.after_pending, held_outs, held_svc, hsvc, houts]
    exact ⟨rfl, rfl, rfl, rfl, rfl⟩
  · obtain ⟨houts, hphase, hfail, hon, hblocked⟩ := waveFailed_parts hreq hop hwait hreset
    refine ⟨s.after (waveFailed s.blk), act_after hr rfl, ?_⟩
    rw [State.after_blk, State.after_pending, held_outs, held_svc, held_ho]
    exact ⟨houts, hphase, hfail, hon, hblocked, rfl⟩
  · have hsvc := advTo_keeps_svc (s.blk.svc.waveAt.getD s.blk.now + 5000000) s.blk
    have houts' := advTo_keeps_outs (s.blk.svc.waveAt.getD s.blk.now + 5000000) s.blk
    obtain ⟨houts, hphase, hfail, -, hblocked⟩ := waveFailed_parts (b := advTo (s.blk.svc.waveAt.getD s.blk.now + 5000000) s.blk) (by rw [houts', hreq])
      (by rw [houts', hop]) (by rw [hsvc, hwait]) (by rw [hsvc]; exact hreset)
    rw [houts'] at houts hfail hblocked
    rw [hsvc] at hfail
    rw [advTo_waveCores] at hblocked
    refine ⟨_, act_after hr (if_pos hreq), ?_⟩
    rw [State.after_blk, State.after_pending, held_outs, held_svc, held_ho]
    exact ⟨houts, hphase, hfail, hblocked, rfl⟩
  · obtain ⟨hstate, hreset, hdirty, hpub, hcfg⟩ := boardMapPublication_parts hmay
    refine ⟨s.after (boardMapPublication s.blk), act_after hr rfl, ?_⟩
    rw [State.after_blk, State.after_pending, held_svc, held_ho, held_cfg]
    exact ⟨hstate, hreset, hdirty, hpub, hcfg, rfl⟩

end Sys2Proof.Machine
end

section
/-! One core position's reset, alignment, milestones, waits and descriptors: what each command writes at its core (R48, R147, R148,
R158, R65 to R67, R215, R348). -/

namespace Sys2Proof.Machine

open Sys2Proof

/-! ### Core power-on reset -/

theorem corePorAssert_on {i : Nat} {b : Block} (h : (b.core i).porN = true) : corePorAssert i b = b.setCore i {} := if_pos h

/-- The core as its Letterbox comes out of reset. -/
def Block.porReleased (i : Nat) (ctrlPass checkPass : Bool) (b : Block) : Core := {
  porN := true
  time := { epoch := nextEpochAfter b.now }
  scr := { fmt := if b.svc.reset = 1 then b.ho.policy.fmt else List.replicate 16 0xF }
  ctl := { ctrlFail := !ctrlPass, failed := !checkPass, early := !(b.office (regionOf i)).powered,
           puStage := if ctrlPass ∧ (b.testDue i).isSome ∧ b.officeOn (regionOf i) then 1 else 0 } }

theorem unscreen_cores (i : Nat) (b : Block) : (unscreen i b).units.cores = b.units.cores :=
  (frame_unscreen i (.refl [.ledger, .bm, .offices] b) (subs_of rfl)).get .cores (by decide)

theorem unscreen_svc (i : Nat) (b : Block) : (unscreen i b).svc = b.svc :=
  (frame_unscreen i (.refl [.ledger, .bm, .offices] b) (subs_of rfl)).get .svc (by decide)

theorem reportTest_cores (i mode unit res trig sig exp : Nat) (b : Block) : (reportTest i mode unit res trig sig exp b).units.cores = b.units.cores :=
  (frame_reportTest i mode unit res trig sig exp (.refl [.dbg, .mgmt, .mail] b) (subs_of rfl)).get .cores (by decide)

theorem reportTest_svc (i mode unit res trig sig exp : Nat) (b : Block) : (reportTest i mode unit res trig sig exp b).svc = b.svc :=
  (frame_reportTest i mode unit res trig sig exp (.refl [.dbg, .mgmt, .mail] b) (subs_of rfl)).get .svc (by decide)

/-- A Letterbox that comes out of reset is a new core; what is reported of it stands elsewhere. -/
theorem corePorRelease_off {i : Nat} {check : Bool} {b : Block} (hp : b.present i = true) (hoff : (b.core i).porN = false) :
    (corePorRelease i true check b).core i = b.porReleased i true check ∧ (corePorRelease i true check b).svc = b.svc := by
  have hunscreened : ∀ (p : Prop) [Decidable p] (c : Block), (if p then unscreen i c else c).units.cores = c.units.cores ∧
      (if p then unscreen i c else c).svc = c.svc := fun p _ c => by
    split
    · exact ⟨unscreen_cores i c, unscreen_svc i c⟩
    · exact ⟨rfl, rfl⟩
  unfold corePorRelease
  rw [if_neg (by simp [hp, hoff])]
  dsimp only
  refine ⟨?_, ?_⟩
  · rw [Block.core_same (hunscreened _ _).1, Block.core_same (hunscreened _ _).1, if_pos rfl, Block.core_same (reportTest_cores ..), Block.setCore_self]
    rfl
  · rw [(hunscreened _ _).2, (hunscreened _ _).2, if_pos rfl, reportTest_svc]
    rfl

/-! ### Alignment -/

theorem advTo_core (n : Nat) (b : Block) (i : Nat) : (advTo n b).core i = b.core i := Block.core_same (advTo_keeps_cores n b) i

/-- A handshake that counts the declared cycles aligns the core under p and q (R147). -/
theorem alignmentEpochCheck_match {i n : Nat} {b : Block} (hon : (b.core i).lbOn = true) (hfailed : (b.core i).time.failed = false)
    (haligned : (b.core i).time.aligned = false) (hchg : (b.core i).time.clkChg = false) (hstage : (b.core i).ctl.puStage = 0)
    (hunits : b.unitsLeft i .restore = false) (hn : n = epochCycles (b.rcfg (regionOf i)).p (b.rcfg (regionOf i)).q) :
    alignmentEpochCheck i n b = modTime i (fun t => { t with aligned := true, testRatio := false, cmode := false, tries := 0 })
      (advTo ((b.core i).time.epoch + 1000) b) := by
  have hleft : (advTo ((b.core i).time.epoch + 1000) b).unitsLeft i .restore = false := by
    unfold Block.unitsLeft
    rw [Block.office_same (advTo_keeps_offices _ b), advTo_core]
    exact hunits
  unfold alignmentEpochCheck
  dsimp only
  rw [if_neg (by simp [hon, hfailed]), if_neg (by simp [haligned]), if_neg (by simp [hchg])]
  unfold alignAttempt
  dsimp only
  rw [if_neg (by simp [hstage, hleft]), if_pos hn]

theorem clockDeclared_on {i : Nat} {b : Block} (hon : (b.core i).lbOn = true) :
    clockDeclared i b = b.modCore i (fun c => { c with time := { c.time with clkChg := true, cmode := true } }) := if_pos hon

theorem clockEnded_on {i : Nat} {b : Block} (hon : (b.core i).lbOn = true) (hchg : (b.core i).time.clkChg = true) :
    clockEnded i b = b.modCore i (fun c =>
      { c with time := { c.time with clkChg := false, aligned := false, tries := 0, failed := false, epoch := nextEpochAfter b.now } }) :=
  if_pos ⟨hon, hchg⟩

/-! ### Milestones and stalls -/

/-- A milestone of a core with no Timetable is only stamped and counted. -/
theorem milestone_untimed {i id cyc : Nat} {b : Block} (hon : (b.core i).lbOn = true) (hslot : b.ho.job.inSlot = true)
    (hgated : (b.core i).ctl.stopGated = false) (htest : (b.core i).ctl.test = none) (htt : (b.core i).time.timetable = []) :
    ∃ stamp, ((milestone i id cyc b).core i).time =
      { (b.core i).time with cyc := BitVec.ofNat 48 cyc, lastMs := some id, lastStamp := stamp, cleared := false } := by
  have hstamped : ∀ (stamp : Nat) (f : CoreTime → CoreTime), ((bumpCtr i 0x000C 1 (modTime i f (advTo stamp b))).core i).time = f (b.core i).time := by
    intro stamp f
    rw [Core.time_of_offNet (bumpCtr_offNet _ _ _ _ _)]
    unfold modTime
    rw [Block.modCore_self, advTo_core]
  refine ⟨if (b.core i).time.cmode then b.now else b.slotStart + cycTicks (b.rcfg (regionOf i)) cyc, ?_⟩
  unfold milestone
  rw [if_neg (by simp [hon, hslot, hgated, Core.underTest, htest])]
  dsimp only
  rw [hstamped]
  simp only [htt, List.getElem?_nil, List.isEmpty_nil, if_true]
  rw [hstamped, htt]

/-- A stall writes the core's time; its event and its report stand elsewhere. -/
theorem doStall_core (i entry exp cyc : Nat) (b : Block) :
    ((doStall i entry exp cyc b).core i).time = { (b.core i).time with
      stalled := true, stallEntry := some entry, stallPm := b.now, status := worseStatus (b.core i).time.status 2 } := by
  have hsent : ∀ (p : Prop) [Decidable p] (c : Block), ((if p then addReason (regionOf i) 4 c else c).core i).time = (c.core i).time := fun p _ c => by
    split <;> rfl
  unfold doStall
  dsimp only
  rw [hsent, Core.time_of_offNet (sendStall_offNet _ _ _ _), Core.time_of_offNet (lbEvent_offNet _ _ _ _ _)]
  unfold modTime
  rw [Block.modCore_self]

theorem stall_idle {i : Nat} {e : TtEntry} {b : Block} (he : (b.core i).time.timetable[(b.core i).time.expect]? = some e)
    (hon : (b.core i).lbOn = true) (hslot : b.ho.job.inSlot = true) (hgated : (b.core i).ctl.stopGated = false)
    (hnew : (b.core i).time.stalled = false) :
    ((stall i b).core i).time.stalled = true ∧ ((stall i b).core i).time.stallEntry = some (b.core i).time.expect ∧
      ((stall i b).core i).time.cyc = BitVec.ofNat 48 (e.expCyc + 1024) := by
  unfold stall
  dsimp only
  rw [he]
  dsimp only
  rw [if_neg (by simp [hon, hslot, hgated, hnew]), doStall_core]
  refine ⟨rfl, rfl, ?_⟩
  unfold modTime
  rw [Block.modCore_self]

/-! ### Waits -/

theorem waitUpdate_quiet {i : Nat} {b : Block} (h : (b.core i).time.stalled = false) : waitUpdate i b = b := if_neg (by simp [h])

theorem waitBegin_quiet {i chan peer : Nat} {b : Block} (hon : (b.core i).lbOn = true) (h : (b.core i).time.stalled = false) :
    waitBegin i chan peer b = b.modCore i (fun c => { c with time := { c.time with wait := some (chan, peer), cleared := false } }) := by
  unfold waitBegin
  rw [if_neg (not_not_intro hon), waitUpdate_quiet]
  · rfl
  · unfold modTime
    rw [Block.modCore_self, h]

theorem waitClear_quiet {i : Nat} {b : Block} (hon : (b.core i).lbOn = true) (h : (b.core i).time.stalled = false) :
    waitClear i b = b.modCore i (fun c => { c with time := { c.time with wait := none, cleared := c.time.wait.isSome || c.time.cleared } }) := by
  unfold waitClear
  rw [if_neg (not_not_intro hon), waitUpdate_quiet]
  · rfl
  · unfold modTime
    rw [Block.modCore_self, h]

/-! ### Shadow descriptors -/

/-- A read with no clash drives the descriptor of its slot; no slot of a referee is missed. -/
theorem shadowRead_noClash {i slot : Nat} {b : Block} (hon : (b.core i).lbOn = true) : shadowRead i slot false b =
    (let d := (tget (b.core i).scr.desc slot).getD 0
     if fld d.toNat 52 3 = 0 then bumpCtr i 0x0009 1 (modPins i (fun p => { p with shdDesc := d }) b)
     else modScr i (fun s => { s with reads := s.reads ++ [(slot, d)] }) (modPins i (fun p => { p with shdDesc := d }) b)) := by
  unfold shadowRead
  rw [if_neg (not_not_intro hon)]
  cases hrole : b.roleOf i <;> simp

theorem shadowRead_loaded {i slot : Nat} {d : BitVec 64} {b : Block} (hon : (b.core i).lbOn = true)
    (hd : tget (b.core i).scr.desc slot = some d) (hkind : fld d.toNat 52 3 ≠ 0) : shadowRead i slot false b =
      modScr i (fun s => { s with reads := s.reads ++ [(slot, d)] }) (modPins i (fun p => { p with shdDesc := d }) b) := by
  rw [shadowRead_noClash hon]
  simp [hd, hkind]

/-- A clash, or an empty slot, drives zero; an empty slot is no referee's, so nothing else changes at the core. -/
theorem shadowRead_zero {i slot : Nat} {clash : Bool} {b : Block} (hon : (b.core i).lbOn = true)
    (h : clash = true ∨ tget (b.core i).scr.desc slot = none) : ∃ c, shadowRead i slot clash b = bumpCtr i 0x0009 1 (modPins i (fun p => { p with shdDesc := 0 }) c) ∧
      (tget (b.core i).scr.desc slot = none → c = b) := by
  have hzero : (if clash then 0 else (tget (b.core i).scr.desc slot).getD 0) = (0 : BitVec 64) := by
    rcases h with h | h <;> simp [h]
  unfold shadowRead
  rw [if_neg (not_not_intro hon)]
  dsimp only
  rw [hzero, if_pos (by decide)]
  refine ⟨_, rfl, fun hnone => ?_⟩
  split
  · exact if_neg (by simp [hnone, fld])
  · rfl

/-- Settles O26. -/
theorem coreTimingCommands : Obligations.CoreTimingCommands := by
  refine ⟨fun s core hr hp => ?porAssert, fun s core check hr hp hoff => ?porRelease, fun s core n hr hon hfailed haligned hchg hstage hunits hn => ?align,
    fun s core hr hon => ?declared, fun s core hr hon hchg => ?ended, fun s core id cyc hr hon hslot hgated htest htt => ?milestone,
    fun s core e hr he hon hslot hgated hnew _ => ?stall, fun s core chan peer hr hon hquiet => ?waitBegin, fun s core hr hon hquiet => ?waitClear,
    fun s core slot d hr hon hd hkind => ?read, fun s core slot clash hr hon h => ?readZero⟩
  case porAssert => exact act_eq hr (corePorAssert_on hp) rfl rfl rfl rfl
  case porRelease =>
    obtain ⟨hcore, hsvc⟩ := corePorRelease_off (check := check) hp hoff
    refine ⟨_, act_after hr rfl, ?_⟩
    rw [State.after_blk, State.after_pending, held_core, held_svc, hcore, hsvc]
    exact ⟨rfl, rfl, rfl, rfl, rfl, rfl, rfl⟩
  case align =>
    refine ⟨_, act_after hr (alignmentEpochCheck_match hon hfailed haligned hchg hstage hunits hn), ?_, rfl⟩
    rw [State.after_blk, held_core, modTime, Block.modCore_self, advTo_core]
  case declared => exact act_eq hr (clockDeclared_on hon) rfl rfl rfl rfl
  case ended => exact act_eq hr (clockEnded_on hon hchg) rfl rfl rfl rfl
  case milestone =>
    obtain ⟨stamp, htime⟩ := milestone_untimed (id := id.toNat) (cyc := cyc.toNat) hon hslot hgated htest htt
    refine ⟨_, act_after hr rfl, ?_⟩
    rw [State.after_blk, State.after_pending, held_core, htime]
    exact ⟨by simp, rfl, rfl, rfl⟩
  case stall =>
    obtain ⟨hstalled, hentry, hcyc⟩ := stall_idle he hon hslot hgated hnew
    refine ⟨_, act_after hr rfl, ?_⟩
    rw [State.after_blk, State.after_pending, held_core]
    exact ⟨hstalled, hentry, hcyc, rfl⟩
  case waitBegin => exact act_eq hr (waitBegin_quiet hon hquiet) rfl rfl rfl rfl
  case waitClear => exact act_eq hr (waitClear_quiet hon hquiet) rfl rfl rfl rfl
  case read =>
    refine ⟨_, act_after hr (shadowRead_loaded hon hd hkind), ?_, ?_, ?_⟩
    · rw [State.after_blk, held_core, modScr, modPins, Block.modCore_modCore, Block.modCore_self]
    · rw [State.after_blk, held_core, modScr, modPins, Block.modCore_modCore, Block.modCore_self]
    · exact (frame_modCore _ _ (frame_modCore _ _ (.refl [.cores] s.blk) (subs_of rfl)) (subs_of rfl)).held_of_framesPower rfl
  case readZero =>
    obtain ⟨c, hc, hsame⟩ := shadowRead_zero hon h
    refine ⟨_, act_after hr hc, ?_, fun hnone => ?_⟩
    · rw [State.after_blk, held_core, bumpCtr, modPins, Block.modCore_modCore, Block.modCore_self]
    · rw [State.after_blk, held_core, bumpCtr, modPins, Block.modCore_modCore, Block.modCore_self, hsame hnone]

end Sys2Proof.Machine
end

section
/-! One core's fence and release, test handshake and capture channel: what each command writes at its core (R70 to R79). -/

namespace Sys2Proof.Machine

open Sys2Proof

/-! ### Fence and release -/

theorem fenceAck_fencing {i : Nat} {b : Block} (hon : (b.core i).lbOn = true) (hf : (b.core i).ctl.fencing = true) :
    fenceAck i b = b.modCore i (fun c => isolate { c with ctl := { c.ctl with fenceAck := true } }) := by
  unfold fenceAck
  rw [if_neg (not_not_intro hon)]
  exact congrArg (b.setCore i) (if_pos hf)

theorem fenceTimeout_waiting {i : Nat} {b : Block} (hon : (b.core i).lbOn = true) (hf : (b.core i).ctl.fencing = true)
    (hack : (b.core i).ctl.fenceAck = false) (hrun : (b.core i).ctl.stopGated = false ∨ (b.core i).pins.cgN = true) :
    fenceTimeout i b = lbEvent i evFenceTimeout [] (b.modCore i (fun c => isolate { c with ctl := { c.ctl with fenceTo := true } })) := by
  unfold fenceTimeout
  refine if_neg ?_
  rcases hrun with hrun | hrun <;> simp [hon, hf, hack, hrun]

/-- Isolation lowers ct_iso_n and ends the fence sequence, whether or not it goes on into hold. -/
theorem isolate_parts (c : Core) : (isolate c).pins.isoN = false ∧ (isolate c).ctl.fenceTo = c.ctl.fenceTo ∧ (isolate c).ctl.fencing = false := by
  unfold isolate
  split <;> exact ⟨rfl, rfl, rfl⟩

theorem Core.pins_of_offNet {c d : Core} (h : c.offNet = d.offNet) : c.pins = d.pins := (congrArg Core.pins h :)

theorem Core.fenceTo_of_offNet {c d : Core} (h : c.offNet = d.offNet) : c.ctl.fenceTo = d.ctl.fenceTo := (congrArg (fun x : Core => x.ctl.fenceTo) h :)

theorem Core.fencing_of_offNet {c d : Core} (h : c.offNet = d.offNet) : c.ctl.fencing = d.ctl.fencing := (congrArg (fun x : Core => x.ctl.fencing) h :)

theorem coreRelease_due {i : Nat} {b : Block} (hmay : b.mayRelease = true) (hcore : b.releasableCore i = true) :
    coreRelease i b = b.modCore i (fun c => { c with
      pins := { c.pins with fenceN := true, isoN := true, holdN := true, cgN := !c.ctl.stopGated && !c.ctl.launchGated }
      ctl := { c.ctl with toHold := false, fenceAck := false, fenceTo := false } }) := if_pos ⟨hmay, hcore⟩

/-! ### The test handshake -/

/-- The core is fenced and isolated, and its clock is its own: a unit can be driven (R75). -/
structure Core.testable (c : Core) : Prop where
  on : c.lbOn = true
  cap : c.ctl.cap = none
  fenceTo : c.ctl.fenceTo = false
  fenceAck : c.ctl.fenceAck = true
  isoN : c.pins.isoN = false
  fencing : c.ctl.fencing = false
  stopGated : c.ctl.stopGated = false

theorem testRequest_driven {i : Nat} {engine : Option (BitVec 2 × BitVec 16)} {u : TestRun} {b : Block} (hu : b.unitToDrive i engine = some u)
    (hc : (b.core i).testable) (hoffice : u.engine = true ∨ b.officeOn (regionOf i) = true) (hmode : u.mode ≠ 0) :
    testRequest i engine b = driveTest i u b := by
  unfold testRequest
  rw [hu]
  dsimp only
  rw [if_neg, if_neg (by simp [hc.fenceTo]), if_neg (by simp [hc.fenceAck, hc.isoN, hc.fencing]), if_neg (by simp [hc.stopGated]),
    if_neg (by simp [hmode])]
  rcases hoffice with h | h <;> simp [hc.on, hc.cap, h]

theorem driveTest_core {i : Nat} {u : TestRun} (b : Block) (hmode : u.mode ≠ 0) : ((driveTest i u b).core i).pins.tstReq = true ∧
    ((driveTest i u b).core i).pins.tstMode = BitVec.ofNat 3 u.mode ∧ ((driveTest i u b).core i).pins.cgN = true ∧
    ((driveTest i u b).core i).pins.tstBudget = BitVec.ofNat 20 (b.declLen u.mode u.unit) ∧
    ((driveTest i u b).core i).ctl.test = some { u with requested := true } := by
  unfold driveTest
  dsimp only
  rw [if_neg hmode, Block.modCore_self]
  exact ⟨rfl, rfl, rfl, rfl, rfl⟩

theorem driveTest_frame (i : Nat) (u : TestRun) (b : Block) : Frame [.cores] b (driveTest i u b) := frame_driveTest i u (.refl _ b) (subs_of rfl)

theorem unitToDrive_placed {i : Nat} {u : TestRun} {b : Block} (hu : (b.core i).ctl.test = some u) (hreq : u.requested = false) :
    b.unitToDrive i none = some u := by
  unfold Block.unitToDrive
  rw [hu]
  exact if_neg (by simp [hreq])

/-- A unit that the test network drives (R274). -/
def engineUnit (m : BitVec 2) (n : BitVec 16) : TestRun := { mode := m.toNat, unit := n.toNat, trigger := .sweep, engine := true }

theorem unitToDrive_engine {i : Nat} {m : BitVec 2} {n : BitVec 16} {b : Block} (htest : (b.core i).ctl.test = none) (htap : b.tapOn = true)
    (hopen : b.dbg.netOpen = true) : b.unitToDrive i (some (m, n)) = some (engineUnit m n) := by
  unfold Block.unitToDrive
  rw [htest]
  exact if_pos (by simp [htap, hopen])

theorem testAck_requested {i : Nat} {u : TestRun} {b : Block} (hu : (b.core i).ctl.test = some u) (hreq : u.requested = true) :
    testAck i b = b.modCore i (fun c => { c with ctl := { c.ctl with test := some { u with acked := true } } }) := by
  unfold testAck
  rw [hu]
  exact if_pos hreq

theorem testDone_acked {i : Nat} {u : TestRun} {pass : Bool} {sig : Nat} {b : Block} (hu : (b.core i).ctl.test = some u) (hack : u.acked = true)
    (hlost : u.lost = false) (habort : u.aborted = false) : testDone i pass sig b = finishTest i u (b.judge u pass sig) sig b := by
  unfold testDone
  rw [hu]
  dsimp only
  rw [if_neg (not_not_intro hack), if_neg (by simp [hlost]), if_neg (by simp [habort])]

theorem testTimeout_requested {i : Nat} {u : TestRun} {b : Block} (hu : (b.core i).ctl.test = some u) (hreq : u.requested = true) :
    testTimeout i b = finishTest i u .timeout 0 (lbEvent i evTestTimeout [] b) := by
  unfold testTimeout
  rw [hu]
  exact if_pos hreq

/-! ### The capture channel -/

theorem captureRequest_due {i n : Nat} {load : Bool} {b : Block} (hon : (b.core i).lbOn = true) (hcap : (b.core i).ctl.cap = none)
    (htest : (b.core i).ctl.test = none) (hfencing : (b.core i).ctl.fencing = false) (hgated : (b.core i).ctl.stopGated = true)
    (hlen : b.capLen i load ≠ 0) : captureRequest i load n b = b.modCore i (fun c => { c with
      pins := { c.pins with capReq := true, capDir := load, cgN := true }
      ctl := { c.ctl with cap := some { load := load, want := b.capLen i load, gated := !c.pins.cgN, short := b.capturing && decide (b.capLen i load = b.pcLen) && !load } } }) :=
  if_neg (by simp [hon, hcap, htest, hfencing, hgated, hlen])

theorem captureAck_due {i : Nat} {k : Capture} {b : Block} (hk : (b.core i).ctl.cap = some k) (hend : k.ended = false) :
    captureAck i b = b.modCore i (fun c => { c with
      pins := { c.pins with
        capRdy := !k.load, capWvld := k.load
        capWdata := if k.load then b.loadBeat i k.moved 0 else c.pins.capWdata
        capWlast := if k.load then decide (k.moved + 1 = k.want) else c.pins.capWlast }
      ctl := { c.ctl with cap := some { k with acked := true } } }) := by
  unfold captureAck
  rw [hk]
  dsimp only
  rw [if_neg (by simp [hend])]
  cases hload : k.load <;> rfl

/-- A beat read from the core that is not the last and is not the last wanted. -/
theorem captureBeat_more {i : Nat} {k : Capture} {data : Flit} {b : Block} (hk : (b.core i).ctl.cap = some k) (hack : k.acked = true)
    (hend : k.ended = false) (hload : k.load = false) (hmore : k.moved + 1 < k.want) : captureBeat i data false b =
      b.modCore i (fun c => { c with ctl := { c.ctl with cap := some { k with moved := k.moved + 1, beats := k.beats ++ [data] } } }) := by
  have hne : k.moved + 1 ≠ k.want := Nat.ne_of_lt hmore
  unfold captureBeat
  rw [hk]
  dsimp only
  rw [if_neg (by simp [hack, hend])]
  simp [hload, hne]

theorem captureBeat_whole {i : Nat} {k : Capture} {data : Flit} {b : Block} (hk : (b.core i).ctl.cap = some k) (hack : k.acked = true)
    (hend : k.ended = false) (hload : k.load = false) (hwhole : k.moved + 1 = k.want) : captureBeat i data true b =
      b.modCore i (fun c => { c with
        pins := { c.pins with capReq := false, capRdy := false, capWvld := false, capWlast := false }
        ctl := { c.ctl with cap := some { k with moved := k.moved + 1, beats := k.beats ++ [data], ended := true } } }) := by
  unfold captureBeat
  rw [hk]
  dsimp only
  rw [if_neg (by simp [hack, hend])]
  simp [hload, hwhole, endCapture, Block.modCore_modCore]

/-- A last beat too soon ends the capture invalid. -/
theorem captureBeat_short {i : Nat} {k : Capture} {data : Flit} {b : Block} (hk : (b.core i).ctl.cap = some k) (hack : k.acked = true)
    (hend : k.ended = false) (hload : k.load = false) (hmore : k.moved + 1 < k.want) : ∃ f, captureBeat i data true b =
      endCapture i { k with moved := k.moved + 1, beats := k.beats ++ [data], invalid := true } (lbEvent i evCaptureTimeout [] (b.modCore i f)) := by
  have hne : k.moved + 1 ≠ k.want := Nat.ne_of_lt hmore
  unfold captureBeat
  rw [hk]
  dsimp only
  rw [if_neg (by simp [hack, hend]), if_neg (by simp [hload]), if_pos (by simp [hne])]
  simp only [hload, Bool.false_eq_true, false_and, if_false]
  exact ⟨_, rfl⟩

theorem captureTimeout_due {i : Nat} {k : Capture} {b : Block} (hk : (b.core i).ctl.cap = some k) (hend : k.ended = false) :
    captureTimeout i b = endCapture i { k with invalid := true } (lbEvent i evCaptureTimeout [] b) := by
  unfold captureTimeout
  rw [hk]
  exact if_neg (by simp [hend])

theorem endCapture_core (i : Nat) (k : Capture) (b : Block) : ((endCapture i k b).core i).pins.capReq = false ∧
    ((endCapture i k b).core i).ctl.cap = some { k with ended := true } := by
  unfold endCapture
  rw [Block.modCore_self]
  exact ⟨rfl, rfl⟩

theorem find?_eq_none_of_ne {fills : List Fill} {i : Nat} {p : Fill → Bool} (hp : ∀ f, p f = true → f.src = i ∨ f.dst = i)
    (h : ∀ f ∈ fills, f.src ≠ i ∧ f.dst ≠ i) : fills.find? p = none := by
  refine List.find?_eq_none.2 fun f hf hpf => ?_
  obtain ⟨hsrc, hdst⟩ := h f hf
  exact (hp f hpf).elim hsrc hdst

/-- The capture of a core with no role and no fill goes nowhere. -/
theorem deliverCapture_unused {i : Nat} (k : Capture) {b : Block} (hrole : b.roleOf i = none) (hfills : ∀ f ∈ b.ho.job.fills, f.src ≠ i ∧ f.dst ≠ i) :
    deliverCapture i k b = b := by
  unfold deliverCapture
  dsimp only
  have hload := find?_eq_none_of_ne (p := fun f => decide (f.dst = i) && decide (f.phase = 4))
    (fun f hf => .inr (of_decide_eq_true (Bool.and_eq_true_iff.1 hf).1)) hfills
  have htake := find?_eq_none_of_ne (p := fun f => decide (f.src = i) && decide (f.phase = 3))
    (fun f hf => .inl (of_decide_eq_true (Bool.and_eq_true_iff.1 hf).1)) hfills
  rw [hload, htake, hrole]
  exact ite_self _

/-- The core at the end of its capture. -/
def Core.capClosed (k : Capture) (c : Core) : Core := { c with
  pins := { c.pins with cgN := if c.ctl.stopGated ∨ (k.gated ∧ (c.ctl.launchGated ∨ c.ctl.toHold)) then false else c.pins.cgN }
  ctl := { c.ctl with cap := none, fenceWait := false } }

/-- The fence that waited for the end of a capture. -/
def fenceAfter (i : Nat) (wait : Bool) (b : Block) : Block :=
  if (b.core i).ctl.toHold ∧ (b.core i).pins.holdN then fenceHold i b
  else if wait ∧ (b.core i).pins.fenceN then b.modCore i (beginFence false)
  else b

theorem captureClose_ended {i : Nat} {k : Capture} {b : Block} (hk : (b.core i).ctl.cap = some k) (hend : k.ended = true) :
    captureClose i b = fenceAfter i (b.core i).ctl.fenceWait (deliverCapture i k (b.modCore i (Core.capClosed k))) := by
  unfold captureClose
  rw [hk]
  exact if_neg (not_not_intro hend)

theorem captureClose_unused {i : Nat} {k : Capture} {b : Block} (hk : (b.core i).ctl.cap = some k) (hend : k.ended = true) (hrole : b.roleOf i = none)
    (hhold : (b.core i).ctl.toHold = false) (hfills : ∀ f ∈ b.ho.job.fills, f.src ≠ i ∧ f.dst ≠ i) : captureClose i b =
      if (b.core i).ctl.fenceWait ∧ (b.core i).pins.fenceN then (b.modCore i (Core.capClosed k)).modCore i (beginFence false)
      else b.modCore i (Core.capClosed k) := by
  have hdeliver : deliverCapture i k (b.modCore i (Core.capClosed k)) = b.modCore i (Core.capClosed k) :=
    deliverCapture_unused k hrole hfills
  rw [captureClose_ended hk hend, hdeliver]
  unfold fenceAfter
  rw [Block.modCore_self, if_neg (by simp [Core.capClosed, hhold])]
  rfl

theorem beginFence_keeps (toHold : Bool) (c : Core) : (beginFence toHold c).ctl.cap = c.ctl.cap ∧ (beginFence toHold c).pins.cgN = c.pins.cgN := by
  unfold beginFence
  split <;> exact ⟨rfl, rfl⟩

theorem captureClose_core {i : Nat} {k : Capture} {b c : Block} {p : Prop} [Decidable p]
    (hc : c = if p then (b.modCore i (Core.capClosed k)).modCore i (beginFence false) else b.modCore i (Core.capClosed k)) :
    (c.core i).ctl.cap = none ∧ ((b.core i).ctl.stopGated = true → (c.core i).pins.cgN = false) ∧ Frame [.cores] b c := by
  have hclosed := frame_modCore (k := i) (Core.capClosed k) (.refl [.cores] b) (subs_of rfl)
  subst hc
  split
  · obtain ⟨hcap, hcg⟩ := beginFence_keeps false ((b.core i).capClosed k)
    rw [Block.modCore_self, Block.modCore_self, hcap, hcg]
    exact ⟨rfl, fun hs => if_pos (.inl hs), frame_modCore _ _ hclosed (subs_of rfl)⟩
  · rw [Block.modCore_self]
    exact ⟨rfl, fun hs => if_pos (.inl hs), hclosed⟩

/-- Settles O27. -/
theorem coreControlCommands : Obligations.CoreControlCommands := by
  refine ⟨fun s core hr hon htest hcap hf => ?fenceOrder, fun s core hr hon hf => ?fenceAck, fun s core hr hon hf hack hrun => ?fenceTimeout,
    fun s core hr hmay hcore => ?release, fun s core u hr hu hreq hmode hon hcap hoffice hto hack hiso hfencing hgated => ?request,
    fun s core m n hr htest hm htap hopen hon hcap hto hack hiso hfencing hgated => ?engine, fun s core u hr hu hreq => ?ack,
    fun s core u pass sig hr hu hack hlost habort => ?done, fun s core u hr hu hreq => ?timeout,
    fun s core load beats hr hon hcap htest hfencing hgated hlen => ?capRequest, fun b hb i load => ?capLen, fun s core k hr hk hend => ?capAck,
    fun s core k data hr hk hack hend hload hmore => ?more, fun s core k data hr hk hack hend hload hwhole => ?whole,
    fun s core k data hr hk hack hend hload hmore => ?short, fun s core k hr hk hend => ?capTimeout,
    fun s core k hr hk hend hrole hhold hfills => ?close⟩
  case fenceOrder => exact act_eq hr (fenceOrder_idle hon htest hcap hf) rfl rfl rfl rfl
  case fenceAck => exact act_eq hr (fenceAck_fencing hon hf) rfl rfl rfl rfl
  case fenceTimeout =>
    have hcore : (((lbEvent core.toNat evFenceTimeout [] (s.blk.modCore core.toNat (fun c => isolate { c with ctl := { c.ctl with fenceTo := true } }))).core
        core.toNat).offNet) = (isolate { s.blk.core core.toNat with ctl := { (s.blk.core core.toNat).ctl with fenceTo := true } }).offNet := by
      rw [lbEvent_offNet, Block.modCore_self]
    obtain ⟨hiso, hto, hfencing⟩ := isolate_parts { s.blk.core core.toNat with ctl := { (s.blk.core core.toNat).ctl with fenceTo := true } }
    refine ⟨_, act_after hr (fenceTimeout_waiting hon hf hack hrun), ?_, ?_, ?_, ?_⟩
    · rw [State.after_blk, held_core, Core.pins_of_offNet hcore, hiso]
    · rw [State.after_blk, held_core, Core.fenceTo_of_offNet hcore, hto]
    · rw [State.after_blk, held_core, Core.fencing_of_offNet hcore, hfencing]
    · exact (frame_lbEvent _ _ _ (frame_modCore _ _ (.refl _ s.blk) (subs_of rfl)) (subs_of rfl)).held_of_framesPower rfl
  case release => exact act_eq hr (coreRelease_due hmay hcore) rfl rfl rfl rfl
  case request =>
    obtain ⟨hpin, hpmode, hcg, hbudget, hunit⟩ := driveTest_core (i := core.toNat) s.blk hmode
    refine ⟨_, act_after hr (testRequest_driven (unitToDrive_placed hu hreq) ⟨hon, hcap, hto, hack, hiso, hfencing, hgated⟩ (.inr hoffice) hmode), ?_⟩
    rw [State.after_blk, held_core]
    exact ⟨hpin, hpmode, hcg, hbudget, hunit, (driveTest_frame _ _ _).held_of_framesPower rfl⟩
  case engine =>
    have hmode : (engineUnit m n).mode ≠ 0 := fun h => hm (BitVec.eq_of_toNat_eq h)
    obtain ⟨hpin, hpmode, hcg, -, -⟩ := driveTest_core (i := core.toNat) s.blk hmode
    refine ⟨_, act_after hr (testRequest_driven (unitToDrive_engine htest htap hopen) ⟨hon, hcap, hto, hack, hiso, hfencing, hgated⟩ (.inl rfl) hmode), ?_⟩
    rw [State.after_blk, held_core]
    exact ⟨hpin, hpmode, hcg, (driveTest_frame _ _ _).held_of_framesPower rfl⟩
  case ack => exact act_eq hr (testAck_requested hu hreq) rfl rfl rfl rfl
  case done => exact act_after hr (testDone_acked hu hack hlost habort)
  case timeout => exact act_after hr (testTimeout_requested hu hreq)
  case capRequest => exact act_eq hr (captureRequest_due hon hcap htest hfencing hgated hlen) rfl rfl rfl rfl
  case capLen => exact if_neg (by simp [hb])
  case capAck => exact act_eq hr (captureAck_due hk hend) rfl rfl rfl rfl
  case more => exact act_eq hr (captureBeat_more hk hack hend hload hmore) rfl rfl rfl rfl
  case whole => exact act_eq hr (captureBeat_whole hk hack hend hload hwhole) rfl rfl rfl rfl
  case short =>
    obtain ⟨f, hf⟩ := captureBeat_short (data := data) hk hack hend hload hmore
    obtain ⟨hreq, hcap⟩ := endCapture_core core.toNat { k with moved := k.moved + 1, beats := k.beats ++ [data], invalid := true }
      (lbEvent core.toNat evCaptureTimeout [] (s.blk.modCore core.toNat f))
    refine ⟨_, act_after hr hf, ?_⟩
    rw [State.after_blk, held_core]
    refine ⟨hreq, hcap, ?_⟩
    exact (frame_endCapture _ _ (frame_lbEvent _ _ _ (frame_modCore _ _ (.refl [.cores, .offices] s.blk) (subs_of rfl)) (subs_of rfl))
      (subs_of rfl)).held_of_framesPower rfl
  case capTimeout =>
    obtain ⟨hreq, hcap⟩ := endCapture_core core.toNat { k with invalid := true } (lbEvent core.toNat evCaptureTimeout [] s.blk)
    refine ⟨_, act_after hr (captureTimeout_due hk hend), ?_⟩
    rw [State.after_blk, held_core]
    refine ⟨hreq, hcap, ?_⟩
    exact (frame_endCapture _ _ (frame_lbEvent _ _ _ (.refl [.cores, .offices] s.blk) (subs_of rfl)) (subs_of rfl)).held_of_framesPower rfl
  case close =>
    obtain ⟨hcap, hcg, hframe⟩ := captureClose_core (captureClose_unused hk hend hrole hhold hfills)
    refine ⟨_, act_after hr rfl, ?_⟩
    rw [State.after_blk, held_core]
    exact ⟨hcap, fun _ hs => hcg hs, hframe.held_of_framesPower rfl⟩

end Sys2Proof.Machine
end

section
/-! One core's tap port and Tally Reducer: the tile after each beat, drain, comparison, output and verdict (R52 to R64, R172, R175, R176,
R182, R218, R219). -/

namespace Sys2Proof.Machine

open Sys2Proof

/-! ### What an event, a counter and a packet leave of a core's screening -/

theorem Core.scr_of_offNet {c d : Core} (h : c.offNet = d.offNet) : c.scr = d.scr := (congrArg Core.scr h :)

theorem modScr_scr (i : Nat) (f : CoreScreen → CoreScreen) (b : Block) : ((modScr i f b).core i).scr = f (b.core i).scr := by
  unfold modScr
  rw [Block.modCore_self]

theorem bumpCtr_scr (i code n : Nat) (b : Block) : ((bumpCtr i code n b).core i).scr = (b.core i).scr := Core.scr_of_offNet (bumpCtr_offNet ..)

theorem tile_eq {i : Nat} {b c : Block} (h : (b.core i).scr = (c.core i).scr) (t : Nat) : b.tile i t = c.tile i t := by
  unfold Block.tile
  rw [h]

theorem putTile_tile (i t : Nat) (x : Tile) (b : Block) : (putTile i t x b).tile i t = some x := by
  unfold Block.tile putTile
  rw [modScr_scr, tget_tset_self]

theorem tget_tdel {α : Type} (t : Tab α) (k : Nat) : tget (tdel t k) k = none := by
  induction t with
  | nil => rfl
  | cons p t ih =>
    unfold tdel at ih ⊢
    rw [List.filter_cons]
    split
    · rename_i hp
      have hne : ¬ p.1 = k := by simpa using hp
      unfold tget
      rw [if_neg hne, ih]
    · exact ih

/-! ### Weight beats -/

/-- A tile keeps its identity, and its weights begin with a beat. -/
theorem foldWeight_parts (d : BitVec 64) (w : WeightBeat) (x : Tile) : (foldWeight d w x).tid = x.tid ∧ (foldWeight d w x).k = x.k ∧
    (foldWeight d w x).n = x.n ∧ (foldWeight d w x).wBeats = x.wBeats + 1 ∧ (foldWeight d w x).stampIn = x.stampIn ∧
    (foldWeight d w x).wLast = (x.wLast || w.last) := by
  unfold foldWeight
  dsimp only
  split
  · rename_i h
    exact ⟨rfl, rfl, rfl, rfl, rfl, by simp [h]⟩
  · rename_i h
    exact ⟨rfl, rfl, rfl, rfl, rfl, by simp [h]⟩

/-- What reports of lanes leave of a tile. -/
theorem reportLanes_tile (i : Nat) (x : Tile) (sp inv misuse : Bool) (b : Block) : ∃ s m a e u, (reportLanes i x sp inv misuse b).1 =
    { x with special := s, misuse := m, saidSpecial := a, saidEncoding := e, saidMisuse := u } := ⟨_, _, _, _, _, rfl⟩

/-- The tile that a first weight beat opens. -/
def openedTile (i : Nat) (w : WeightBeat) (b : Block) : Tile := {
  age := (b.core i).scr.nextAge
  tid := w.tid
  step := BitVec.ofNat 32 b.ho.job.step
  kind := ((b.readFor i w.tid.toNat).map (·.1)).getD 0
  slot := ((b.readFor i w.tid.toNat).map (·.2)).getD 0
  test := (b.core i).ctl.test.isSome
  wFmt := w.fmt.toNat
  k := w.k.toNat + 1
  n := w.n.toNat + 1
  stampIn := w.stamp
  flush := (b.core i).scr.sticky }

theorem openTile_free {i : Nat} {w : WeightBeat} {b : Block} (hnone : b.tile i w.tag.toNat = none)
    (hfree : (b.core i).scr.tagBusy.contains w.tag.toNat = false) : (openTile i w b).tile i w.tag.toNat = some (openedTile i w b) := by
  unfold openTile
  dsimp only
  rw [hfree]
  simp only [Bool.false_eq_true, if_false]
  have hkeep : ∀ f : CoreScreen → CoreScreen, (f (b.core i).scr).tiles = (b.core i).scr.tiles → (modScr i f b).tile i w.tag.toNat = none := fun f hf => by
    unfold Block.tile at hnone ⊢
    rw [modScr_scr, hf, hnone]
  rw [hkeep _ rfl]
  exact putTile_tile ..

/-- A weight beat of an open tile. -/
theorem weightBeat_open {i : Nat} {w : WeightBeat} {x : Tile} {b c : Block} (hread : (b.core i).tapsRead = true)
    (hc : (if w.first then openTile i w (bumpCtr i 0x000D 1 b) else bumpCtr i 0x000D 1 b) = c) (hx : c.tile i w.tag.toNat = some x)
    (hlast : x.wLast = false) (hopen : x.closed = false) : ∃ y, (weightBeat i w b).tile i w.tag.toNat = some y ∧ y.tid = x.tid ∧ y.k = x.k ∧ y.n = x.n ∧
      y.wBeats = x.wBeats + 1 ∧ y.stampIn = x.stampIn ∧ y.wLast = w.last := by
  unfold weightBeat
  dsimp only
  rw [if_neg (not_not_intro hread), hc, hx]
  dsimp only
  rw [if_neg (by simp [hlast, hopen])]
  refine ⟨_, putTile_tile .., ?_⟩
  obtain ⟨s, m, a, e, u, hy⟩ := reportLanes_tile i x ((lanesOf (c.descOf i x x.wFmt) x.k w.kseg.toNat w.data.toNat w.scale.toNat).map (·.2) |>.any (·.special))
    ((lanesOf (c.descOf i x x.wFmt) x.k w.kseg.toNat w.data.toNat w.scale.toNat).map (·.2) |>.any (·.invalid)) (!inputType (fElem (c.descOf i x x.wFmt))) c
  obtain ⟨htid, hk, hn, hbeats, hstamp, hwlast⟩ := foldWeight_parts (c.descOf i x x.wFmt) w { x with special := s, misuse := m, saidSpecial := a, saidEncoding := e, saidMisuse := u }
  rw [hy, htid, hk, hn, hbeats, hstamp, hwlast]
  exact ⟨rfl, rfl, rfl, rfl, rfl, by simp [hlast]⟩

/-! ### Activation beats -/

/-- Counting rows against tallies writes the residue verdict alone. -/
theorem rowsDiffer_keep {β : Type} (g : Tile → β) (hg : ∀ (x : Tile) (r : Bool), g { x with resBad := r } = g x) (x : Tile) : g (rowsDiffer x) = g x := by
  unfold rowsDiffer
  split
  · exact hg x true
  · rfl

theorem activationBeat_row {i : Nat} {a : ActBeat} {x : Tile} {b : Block} (hread : (b.core i).tapsRead = true) (hx : b.tile i a.tag.toNat = some x)
    (hopen : x.closed = false) (hweights : x.wLast = true) (hrow : a.rowLast = false) : ∃ y, (activationBeat i a b).tile i a.tag.toNat = some y ∧
      y.aFmt = some (x.aFmt.getD a.fmt.toNat) ∧ y.rowsAct = x.rowsAct ∧ y.actEnd = (x.actEnd || a.tileLast) ∧ y.closed = false := by
  have hx' : (bumpCtr i 0x000E 1 b).tile i a.tag.toNat = some x := (tile_eq (bumpCtr_scr ..) _).trans hx
  unfold activationBeat
  dsimp only
  rw [if_neg (not_not_intro hread), hx']
  dsimp only
  rw [if_neg (by simp [hopen]), if_neg (by simp [hweights]), if_neg (by simp [hrow])]
  refine ⟨_, putTile_tile .., ?_⟩
  rw [rowsDiffer_keep Tile.aFmt fun _ _ => rfl, rowsDiffer_keep Tile.rowsAct fun _ _ => rfl, rowsDiffer_keep Tile.actEnd fun _ _ => rfl,
    rowsDiffer_keep Tile.closed fun _ _ => rfl]
  exact ⟨rfl, by rw [hrow]; rfl, rfl, hopen⟩

/-! ### The accumulator drain -/

/-- A residue that no open tile waits for leaves the pins. -/
theorem tallyArrives_none {i t res : Nat} {last : Bool} {b : Block} (hnone : b.tile i t = none) :
    ((tallyArrives i t res last b).core i).pins = (b.core i).pins := by
  have hfreed : ∀ f : CoreScreen → CoreScreen, (f (b.core i).scr).tiles = (b.core i).scr.tiles →
      (if last then modScr i f b else b).tile i t = none ∧ ((if last then modScr i f b else b).core i).pins = (b.core i).pins := fun f hf => by
    split
    · unfold Block.tile at hnone ⊢
      rw [modScr_scr, hf, hnone]
      unfold modScr
      rw [Block.modCore_self]
      exact ⟨rfl, rfl⟩
    · exact ⟨hnone, rfl⟩
  obtain ⟨htile, hpins⟩ := hfreed (fun s => { s with tagBusy := s.tagBusy.filter (· ≠ t) }) rfl
  unfold tallyArrives
  dsimp only
  rw [htile]
  exact hpins

/-- The residue of a row that a drain drives (R58, R59): its sum under the row's exponent. -/
def drainedRow (i : Nat) (a : AccBeat) (b : Block) : Nat :=
  rot13 ((((tget (b.core i).scr.tacc a.tag.toNat).getD {}).acc + accFold a) % M13)
    (emod13 (sgn (((tget (b.core i).scr.tacc a.tag.toNat).getD {}).exp.getD a.lsbExp).toNat 8))

theorem accumulatorDrain_row {i : Nat} {a : AccBeat} {b : Block} (hread : (b.core i).tapsRead = true) (hon : (b.core i).porN = true)
    (hnone : b.tile i a.tag.toNat = none) (hsplit : accSplit a = false) (hrow : a.rowLast = true) : ((accumulatorDrain i a b).core i).pins =
      { (b.core i).pins with tlyVld := true, tlyRes := BitVec.ofNat 13 (drainedRow i a b), tlyTag := a.tag, tlyLast := a.tileLast } := by
  have hnone' : (bumpCtr i 0x000F 1 b).tile i a.tag.toNat = none := (tile_eq (bumpCtr_scr ..) _).trans hnone
  have hpins : ((bumpCtr i 0x000F 1 b).core i).pins = (b.core i).pins := Core.pins_of_offNet (bumpCtr_offNet ..)
  unfold accumulatorDrain
  dsimp only
  rw [if_neg (by simp [hread, hon])]
  simp only [hsplit, hrow, Bool.false_eq_true, if_false, not_true, hnone', bumpCtr_scr]
  have hkeep : ∀ (f : CoreScreen → CoreScreen) (g : Core → Core), (f (b.core i).scr).tiles = (b.core i).scr.tiles →
      (∀ c, (g c).scr = c.scr) → ((modScr i f (bumpCtr i 0x000F 1 b)).modCore i g).tile i a.tag.toNat = none := fun f g hf hg => by
    unfold Block.tile at hnone ⊢
    rw [Block.modCore_self, hg, modScr_scr, bumpCtr_scr, hf, hnone]
  rw [tallyArrives_none]
  · rw [Block.modCore_self]
    unfold modScr
    rw [Block.modCore_self]
    dsimp only
    rw [hpins]
    rfl
  · exact hkeep _ _ rfl fun _ => rfl

/-! ### Row comparison -/

theorem rowCompare_plain {i tag y k : Nat} {last : Bool} {rest : List (Nat × Nat × Bool)} {x : Tile} {b : Block}
    (hq : (b.core i).scr.tlyq = (tag, y, last) :: rest) (hk : (b.core i).scr.rowq.findIdx? (fun r => decide (r.1 = tag)) = some k)
    (hx : b.tile i tag = some x) (hopen : x.closed = false) (hsp : x.special = false) (hmis : x.misuse = false) (hplant : b.planting i x = none) :
    ∃ z, rowCompare i b = putTile i tag z (modScr i (fun s => { s with tlyq := rest, rowq := s.rowq.eraseIdx k }) b) ∧ z.compared = x.compared + 1 ∧
      z.resBad = (x.resBad || decide ((((b.core i).scr.rowq.getD k (0, 0)).2 + M13 - y) % M13 ≠ 0)) := by
  have hx' : (modScr i (fun s => { s with tlyq := rest, rowq := s.rowq.eraseIdx k }) b).tile i tag = some x := by
    unfold Block.tile at hx ⊢
    rw [modScr_scr, hx]
  have hplant' : (modScr i (fun s => { s with tlyq := rest, rowq := s.rowq.eraseIdx k }) b).planting i x = none := by
    unfold Block.planting at hplant ⊢
    rw [modScr_scr]
    exact hplant
  unfold rowCompare
  dsimp only
  rw [hq]
  dsimp only
  rw [hk]
  dsimp only
  rw [hx']
  dsimp only
  rw [if_neg (by simp [hopen]), if_neg (by simp [hsp, hmis]), hplant']
  refine ⟨_, rfl, ?_⟩
  split
  · rename_i hzero
    exact ⟨rfl, by rw [decide_eq_false (not_not_intro hzero), Bool.or_false]⟩
  · rename_i hne
    exact ⟨rfl, by rw [decide_eq_true hne, Bool.or_true]⟩

/-! ### Output beats -/

theorem outputBeat_open {i : Nat} {o : OutBeat} {x : Tile} {b : Block} (hread : (b.core i).tapsRead = true)
    (hx : b.tile i (b.outSlot i o.tag.toNat) = some x) (hend : x.outEnd = false) (hopen : x.closed = false) :
    ∃ y, (outputBeat i o b).tile i (b.outSlot i o.tag.toNat) = some y ∧ y.outEnd = o.tileLast ∧ y.oFmt = some (x.oFmt.getD o.fmt.toNat) ∧
      y.outRows.length = x.outRows.length + b01 o.rowLast := by
  unfold outputBeat
  dsimp only
  rw [if_neg (not_not_intro hread), hx]
  dsimp only
  rw [if_neg (by simp [hend, hopen])]
  refine ⟨_, putTile_tile .., ?_⟩
  cases hrow : o.rowLast
  · exact ⟨rfl, rfl, rfl⟩
  · exact ⟨rfl, rfl, by simp [b01]⟩

/-! ### Saturation and the sticky flush -/

theorem saturationPulse_scr {i : Nat} {b : Block} (hread : (b.core i).tapsRead = true) : ((saturationPulse i b).core i).scr =
    { (b.core i).scr with tiles := tmap (fun _ (x : Tile) => { x with sat := true }) (b.core i).scr.tiles } := by
  unfold saturationPulse
  rw [if_neg (not_not_intro hread), bumpCtr_scr, modScr_scr]

theorem flushSticky_scr {i : Nat} {level : Bool} {b : Block} (hon : (b.core i).lbOn = true) : ((flushSticky i level b).core i).scr.sticky = level ∧
    ((flushSticky i level b).core i).scr.tiles =
      if level then tmap (fun _ (x : Tile) => { x with flush := true }) (b.core i).scr.tiles else (b.core i).scr.tiles := by
  have hcounted : ∀ (p : Prop) [Decidable p] (code n : Nat), ((if p then bumpCtr i code n b else b).core i).scr = (b.core i).scr := fun p _ code n => by
    split
    · exact bumpCtr_scr ..
    · rfl
  unfold flushSticky
  dsimp only
  rw [if_neg (not_not_intro hon), modScr_scr, hcounted]
  exact ⟨rfl, rfl⟩

/-! ### The verdict -/

/-- The tile of a tag is taken away with the rows and residues that wait for it. -/
def closeTile (i k : Nat) (b : Block) : Block := modScr i (fun s => { s with
  tiles := tdel s.tiles k
  rowq := s.rowq.filter (fun r => r.1 ≠ k)
  tlyq := s.tlyq.filter (fun r => r.1 ≠ k) }) b

theorem closeTile_tile (i k : Nat) (b : Block) : (closeTile i k b).tile i k = none := by
  unfold closeTile Block.tile
  rw [modScr_scr, tget_tdel]

/-- The tile whose verdict is due: the tag's one ready tile. -/
theorem readyTile {i t : Nat} {x : Tile} {b : Block} (hnone : b.tile i (t + 4) = none) (hx : b.tile i t = some x) (hready : b.tileReady i t x = true) :
    ([t + 4, t].filterMap (fun k => (b.tile i k).map (fun x => (k, x)))).find? (fun p => b.tileReady i p.1 p.2) = some (t, x) := by
  simp [hnone, hx, hready]

theorem tileVerdict_test {i t : Nat} {x : Tile} {b : Block} (hon : (b.core i).lbOn = true) (hnone : b.tile i (t + 4) = none)
    (hx : b.tile i t = some x) (hready : b.tileReady i t x = true) (htest : x.test = true) :
    tileVerdict i t b = closeTile i t (katTile i x b) := by
  unfold tileVerdict
  dsimp only
  rw [readyTile hnone hx hready]
  dsimp only
  rw [if_neg (not_not_intro hon), if_pos htest]
  rfl

/-- The verdict of a tile of the core's own is counted, noted and sent, and the tile closed. -/
theorem tileVerdict_own {i t : Nat} {x : Tile} {b : Block} (hon : (b.core i).lbOn = true) (hnone : b.tile i (t + 4) = none)
    (hx : b.tile i t = some x) (hready : b.tileReady i t x = true) (htest : x.test = false) (hkind : x.kind = 0) :
    ∃ c, tileVerdict i t b = c ∧ c.tile i t = none ∧ (c.core i).scr.ownTiles = (b.core i).scr.ownTiles + 1 := by
  refine ⟨_, rfl, ?_⟩
  unfold tileVerdict
  dsimp only
  rw [readyTile hnone hx hready]
  dsimp only
  rw [if_neg (not_not_intro hon), if_neg (by simp [htest]), if_pos hkind]
  have hclosed : ∀ (p : List Flit) (c : Block), (unicast (unitCore i) (unitOffice (regionOf i)) 0x01 p (closeTile i t c)).tile i t = none ∧
      ((unicast (unitCore i) (unitOffice (regionOf i)) 0x01 p (closeTile i t c)).core i).scr.ownTiles = (c.core i).scr.ownTiles := fun p c => by
    have hsent := Core.scr_of_offNet (unicast_offNet (unitCore i) (unitOffice (regionOf i)) 0x01 p (closeTile i t c) i)
    rw [tile_eq hsent, hsent, closeTile_tile]
    unfold closeTile
    rw [modScr_scr]
    exact ⟨rfl, rfl⟩
  have hsaid : ∀ (p : Prop) [Decidable p] (code : Nat) (c : Block), ((if p then lbEvent i code [] c else c).core i).scr = (c.core i).scr := fun p _ code c => by
    split
    · exact Core.scr_of_offNet (lbEvent_offNet ..)
    · rfl
  have hnoted : ∀ (p : Prop) [Decidable p] (f : Office → Office) (c : Block), ((if p then c.modOffice (regionOf i) f else c).core i).scr = (c.core i).scr :=
    fun p _ f c => by split <;> rfl
  refine ⟨(hclosed _ _).1, (hclosed _ _).2.trans ?_⟩
  rw [hnoted, bumpCtr_scr, bumpCtr_scr, modScr_scr, hsaid, hsaid]

/-! ### The summary -/

theorem coreSummary_due {i : Nat} {b : Block} (hon : (b.core i).lbOn = true) (htest : (b.core i).ctl.test = none)
    (hsent : (b.core i).scr.summarySent = false) (hfinal : (b.core i).time.finalSeen = true) (hslot : b.ho.job.inSlot = true)
    (hrole : (b.roleOf i).isSome = true) : ((coreSummary i b).core i).scr.summarySent = true := by
  unfold coreSummary
  dsimp only
  rw [if_neg, Core.scr_of_offNet (unicast_offNet ..), modScr_scr]
  simp [hon, htest, hsent, hfinal, hslot, Option.isSome_iff_ne_none.1 hrole]

/-- A command on the tap port that is an effect of the block leaves what the effect leaves. -/
theorem after_frame {l : List Part} {s : State} {c : Block} (h : Frame l s.blk c) (hl : framesPower l = true) : Frame l s.blk (s.after c).blk :=
  h.held_of_framesPower hl

/-- Settles O28. -/
theorem tileCommands : Obligations.TileCommands := by
  refine ⟨fun s core w hr hread hfirst hnone hfree => ?first, fun s core w x hr hread hfirst hx hlast hopen => ?next,
    fun s core a x hr hread hx hopen hweights hrow => ?activation, fun s core a hr hread hon hnone hsplit hrow => ?drain,
    fun s core tag y last rest k x hr hq hk hx hopen hsp hmis hplant => ?compare, fun s core o x hr hread hx hend hopen => ?output,
    fun s core hr hread => ?saturation, fun s core hr hon => ?flush, fun s core hr hon => ?flushEnd,
    fun s core tag x hr hon hnone hx hready htest => ?verdictTest, fun s core tag x hr hon hnone hx hready htest hkind => ?verdictOwn,
    fun s core hr hon htest hsent hfinal hslot hrole => ?summary⟩
  case first =>
    have hscr := bumpCtr_scr core.toNat 0x000D 1 s.blk
    have hopened := openTile_free (w := w) ((tile_eq hscr _).trans hnone) (by rw [hscr]; exact hfree)
    obtain ⟨y, hy, htid, hyk, hyn, hbeats, hstamp, hwlast⟩ := weightBeat_open hread (if_pos hfirst) hopened rfl rfl
    refine ⟨_, y, act_after hr rfl, hy, htid, hyk, hyn, hbeats, hstamp, hwlast, ?_⟩
    exact after_frame (frame_weightBeat _ _ (.refl _ _) (subs_of rfl)) rfl
  case next =>
    have hx' := (tile_eq (bumpCtr_scr core.toNat 0x000D 1 s.blk) _).trans hx
    obtain ⟨y, hy, htid, -, -, hbeats, -, hwlast⟩ := weightBeat_open hread (if_neg (by simp [hfirst])) hx' hlast hopen
    refine ⟨_, y, act_after hr rfl, hy, htid, hbeats, hwlast, ?_⟩
    exact after_frame (frame_weightBeat _ _ (.refl _ _) (subs_of rfl)) rfl
  case activation =>
    obtain ⟨y, hy, hfmt, hrows, hend, hclosed⟩ := activationBeat_row hread hx hopen hweights hrow
    refine ⟨_, y, act_after hr rfl, hy, hfmt, hrows, hend, hclosed, ?_⟩
    exact after_frame (frame_activationBeat _ _ (.refl _ _) (subs_of rfl)) rfl
  case drain =>
    have hpins := accumulatorDrain_row hread hon hnone hsplit hrow
    refine ⟨_, act_after hr rfl, ?_⟩
    rw [State.after_blk, held_core, hpins]
    exact ⟨rfl, rfl, rfl, rfl, after_frame (frame_accumulatorDrain _ _ (.refl _ _) (subs_of rfl)) rfl⟩
  case compare =>
    obtain ⟨z, hz, hcompared, hbad⟩ := rowCompare_plain hq hk hx hopen hsp hmis hplant
    refine ⟨_, z, act_after hr hz, putTile_tile .., hcompared, hbad, ?_, ?_, ?_⟩
    · rw [State.after_blk, held_core, putTile, modScr_scr, modScr_scr]
    · rw [State.after_blk, held_core, putTile, modScr_scr, modScr_scr]
    · exact after_frame (hz ▸ frame_rowCompare _ (.refl _ _) (subs_of rfl)) rfl
  case output =>
    obtain ⟨y, hy, hyend, hfmt, hrows⟩ := outputBeat_open hread hx hend hopen
    refine ⟨_, y, act_after hr rfl, hy, hyend, hfmt, hrows, ?_⟩
    exact after_frame (frame_outputBeat _ _ (.refl _ _) (subs_of rfl)) rfl
  case saturation =>
    refine ⟨_, act_after hr rfl, saturationPulse_scr hread, ?_⟩
    exact after_frame (frame_saturationPulse _ (.refl _ _) (subs_of rfl)) rfl
  case flush =>
    obtain ⟨hsticky, htiles⟩ := flushSticky_scr (level := true) hon
    refine ⟨_, act_after hr rfl, hsticky, htiles, ?_⟩
    exact after_frame (frame_flushSticky _ _ (.refl _ _) (subs_of rfl)) rfl
  case flushEnd =>
    obtain ⟨hsticky, htiles⟩ := flushSticky_scr (level := false) hon
    refine ⟨_, act_after hr rfl, hsticky, htiles, ?_⟩
    exact after_frame (frame_flushSticky _ _ (.refl _ _) (subs_of rfl)) rfl
  case verdictTest =>
    refine ⟨_, act_after hr (tileVerdict_test hon hnone hx hready htest), closeTile_tile .., ?_⟩
    exact after_frame (frame_modCore _ _ (frame_katTile _ _ (.refl _ _) (subs_of rfl)) (subs_of rfl)) rfl
  case verdictOwn =>
    obtain ⟨c, hc, htile, hown⟩ := tileVerdict_own hon hnone hx hready htest hkind
    exact ⟨_, act_after hr hc, htile, hown, rfl⟩
  case summary =>
    have hframe := frame_coreSummary core.toNat (.refl [.post, .cores, .offices, .routers, .couriers] s.blk) (subs_of rfl)
    exact ⟨_, act_after hr rfl, coreSummary_due hon htest hsent hfinal hslot hrole, hframe.get .svc (by decide), hframe.get .ledger (by decide),
      hframe.get .job (by decide), rfl⟩

end Sys2Proof.Machine
end

section
/-! The taps and Frank ports of a Courier domain: a tile of the Intake Tap, a group of the Egress Tap, and a notice at a Frank port
(R91, R92, R96 to R102, R132, R484). -/

namespace Sys2Proof.Machine

open Sys2Proof

/-! ### The Intake Tap -/

/-- An intake beat that keeps R91 changes its Courier alone. -/
theorem intakeBeat_quiet {n : Nat} {x : IntakeBeat} {c : Courier} {b : Block} (hon : (b.courier n).tapsOn = true)
    (hstep : intakeStep x { b.courier n with itStamps := [] } = (false, c)) : intakeBeat n x b = b.setCourier n c := by
  unfold intakeBeat
  rw [if_neg (not_not_intro hon), hstep]
  rfl

/-- A first beat opens a tile. -/
theorem intakeStep_first {x : IntakeBeat} {c : Courier} (hfirst : x.first = true) (hlast : x.last = false) (hnone : c.itTile = none) :
    intakeStep x c = (false, { c with itTile := some (foldIntake (c.itFmt.getD x.fmt.toNat 0xF) x
      { tid := x.tid, fmt := x.fmt.toNat, k := x.k.toNat + 1, n := x.n.toNat + 1 }) }) := by
  simp [intakeStep, hfirst, hlast, hnone]

/-- The last beat of a tile that kept R91 ends it with its stamp. -/
theorem intakeStep_last {x : IntakeBeat} {u : IntakeTile} {c : Courier} (hfirst : x.first = false) (hlast : x.last = true) (hu : c.itTile = some u)
    (hbeats : u.beats + 1 = tileBeats u.k u.n) (hwide : u.wide = false) (hcol : tcnt u.cols x.kseg.toNat < u.n)
    (hseg : x.kseg.toNat < ceilDiv u.k 32) :
    intakeStep x c = (false, emitStamp (foldIntake (c.itFmt.getD u.fmt 0xF) x u) false c) := by
  have hgood : (foldIntake (c.itFmt.getD u.fmt 0xF) x u).wide = false := by simp [foldIntake, hwide, hcol, hseg]
  have hcount : (foldIntake (c.itFmt.getD u.fmt 0xF) x u).beats = tileBeats u.k u.n := hbeats
  have hbroken : ((foldIntake (c.itFmt.getD u.fmt 0xF) x u).wide ||
      decide ((foldIntake (c.itFmt.getD u.fmt 0xF) x u).beats ≠ tileBeats u.k u.n)) = false := by
    rw [hgood, Bool.false_or, decide_eq_false (not_not_intro hcount)]
  unfold intakeStep
  rw [hfirst, hu]
  simp only [Bool.false_eq_true, if_false, hlast, if_true]
  exact Prod.ext hbroken (congrArg (fun p => emitStamp (foldIntake (c.itFmt.getD u.fmt 0xF) x u) p c) hbroken)

/-! ### The Egress Tap -/

/-- The group that a first beat begins. -/
def beginGroup (out : Bool) (x : EgressBeat) : EgressGroup :=
  if out then { grp := x.grp.toNat, outExp := some x.lsbExp, outSum := egressFold x.lv x.data x.lsbExp % M13, outEnd := x.last }
  else { grp := x.grp.toNat, step := some x.step.toNat, inExp := some x.lsbExp, inSum := egressFold x.lv x.data x.lsbExp % M13, inEnd := x.last }

theorem replaceGroup_append {groups : List EgressGroup} {g g' : EgressGroup} (hnew : groups.find? (fun y => y.grp = g'.grp) = none) (hg : g.grp = g'.grp) :
    (groups ++ [g]).map (fun y => if y.grp = g'.grp then g' else y) = groups ++ [g'] := by
  have hkeep : groups.map (fun y => if y.grp = g'.grp then g' else y) = groups := by
    refine (List.map_congr_left fun y hy => ?_).trans (List.map_id groups)
    have hne := List.find?_eq_none.1 hnew y hy
    exact if_neg (by simpa using hne)
  rw [List.map_append, hkeep, List.map_singleton, if_pos hg]

/-- A first beat of a group not yet begun, with room for it, begins it. -/
theorem egressBeat_first {out : Bool} {x : EgressBeat} {c : Courier} (hfirst : x.first = true)
    (hnew : c.groups.find? (fun g => g.grp = x.grp.toNat) = none) (hroom : c.groups.length < 64) :
    egressBeat out x c = (false, false, { c with groups := c.groups ++ [beginGroup out x] }) := by
  have hlag : decide (64 ≤ c.groups.length) = false := decide_eq_false (by omega)
  have hsame : (match c.groups with | g :: _ => if false = true then closeGroup { g with unchk := true } c else c | [] => c) = c := by
    split <;> simp
  unfold egressBeat
  dsimp only
  rw [hnew]
  dsimp only
  rw [if_pos hfirst, hlag]
  have hput : ∀ g : EgressGroup, g.grp = x.grp.toNat → ∀ d : Courier, d = c → ∀ g' : EgressGroup, g'.grp = x.grp.toNat → (g'.inEnd && g'.outEnd) = false →
      putGroup g' { d with groups := d.groups ++ [g] } = { c with groups := c.groups ++ [g'] } := by
    rintro g hg d rfl g' hg' hend
    unfold putGroup
    dsimp only
    rw [if_neg (by simp [hend]), replaceGroup_append (hg' ▸ hnew) (hg.trans hg'.symm)]
  cases out
  · refine congrArg (fun d => (false, false, d)) ((hput _ rfl _ hsame _ rfl (Bool.and_false _)).trans ?_)
    simp [beginGroup]
  · refine congrArg (fun d => (false, false, d)) ((hput _ rfl _ hsame _ rfl (Bool.false_and _)).trans ?_)
    simp [beginGroup]

theorem egressTap_first {out : Bool} {n : Nat} {x : EgressBeat} {b : Block} (hon : (b.courier n).tapsOn = true) (hfirst : x.first = true)
    (hnew : (b.courier n).groups.find? (fun g => g.grp = x.grp.toNat) = none) (hroom : (b.courier n).groups.length < 64) :
    egressTap out n x b = b.setCourier n { b.courier n with groups := (b.courier n).groups ++ [beginGroup out x] } := by
  unfold egressTap
  rw [if_neg (not_not_intro hon), egressBeat_first hfirst hnew hroom]
  rfl

theorem egressStepEnd_on {n step : Nat} {b : Block} (hon : (b.courier n).tapsOn = true) : egressStepEnd n step b =
    unicast (unitEgress n) unitHO 0x14 [summaryFlit (stepEnd step (b.courier n)).1] (b.setCourier n (stepEnd step (b.courier n)).2) :=
  if_neg (not_not_intro hon)

/-! ### The Frank ports -/

theorem frankPresent_due {x : Notice} {r : List Notice} {b : Block} (hdue : b.ho.job.due = x :: r) (hsafe : b.svc.state ≠ .safe) (hruns : b.hoRuns = true) :
    frankPresent b = forEach (List.range 16) (frankDue x) (advTo x.pm.toNat (b.modJob (fun j => { j with due := r }))) := by
  unfold frankPresent
  rw [hdue]
  exact if_neg (by simp [hsafe, hruns])

/-- A port whose shown notice has been accepted. -/
def Courier.accepted (c : Courier) : Courier := { c with notices := c.notices.drop 1, frVld := false }

theorem frankAccept_shown {n : Nat} {b : Block} (hvld : (b.courier n).frVld = true) :
    frankAccept n b = presentHead n (b.modCourier n Courier.accepted) := if_pos hvld

/-- The next notice follows at once where nothing holds it. -/
theorem frankAccept_next {n : Nat} {b : Block} (hvld : (b.courier n).frVld = true) (hfree : b.franksHeld = false) (hsafe : b.svc.state ≠ .safe) :
    frankAccept n b = b.setCourier n { b.courier n with
      notices := (b.courier n).notices.drop 1, frVld := !((b.courier n).notices.drop 1).isEmpty } := by
  have hfranks : (b.modCourier n Courier.accepted).franksHeld = false := hfree
  have hheld : ¬ (b.modCourier n Courier.accepted).noticeHeld n = true := by
    unfold Block.noticeHeld
    rw [hfranks, Block.modCourier_svc, decide_eq_false hsafe]
    exact Bool.false_ne_true
  rw [frankAccept_shown hvld]
  unfold presentHead
  rw [if_neg hheld, Block.modCourier_modCourier]
  rfl

/-- In SAFE a FRANK that is next is not issued. -/
theorem frankAccept_safe {n : Nat} {x : Notice} {l : List Notice} {b : Block} (hvld : (b.courier n).frVld = true) (hsafe : b.svc.state = .safe)
    (hnext : (b.courier n).notices.drop 1 = x :: l) (hfrank : x.frank = true) :
    frankAccept n b = b.setCourier n { b.courier n with notices := x :: l, frVld := false } := by
  have hheld : (b.modCourier n Courier.accepted).noticeHeld n = true := by
    have hnotices : ((b.modCourier n Courier.accepted).courier n).notices = x :: l := by
      rw [Block.modCourier_self]
      exact hnext
    unfold Block.noticeHeld
    rw [hnotices, Block.modCourier_svc, decide_eq_true hsafe]
    dsimp only
    rw [hfrank]
    exact Bool.or_true _
  rw [frankAccept_shown hvld]
  unfold presentHead
  rw [if_pos hheld, ← hnext]
  rfl

theorem setCourier_frame (n : Nat) (c : Courier) (b : Block) : Frame [.couriers] b (b.setCourier n c) := frame_setCourier n c (.refl _ b) (subs_of rfl)

/-- Settles O29. -/
theorem tapCommands : Obligations.TapCommands := by
  refine ⟨fun s n x hr hon hfirst hlast hnone => ?intakeFirst, fun s n x u hr hon hfirst hlast hu hbeats hwide hcol hseg => ?intakeLast,
    fun s n x hr hon hfirst hnew hroom => ?egressIn, fun s n x hr hon hfirst hnew hroom => ?egressOut, fun s n step hr hon => ?stepEnd,
    fun s x r hr hdue hsafe hruns => ?present, fun s n hr hvld hfree hsafe => ?accept, fun s n x l hr hvld hsafe hnext hfrank => ?acceptSafe⟩
  case intakeFirst =>
    refine ⟨_, foldIntake (((s.blk.courier n.toNat).itFmt).getD x.fmt.toNat 0xF) x { tid := x.tid, fmt := x.fmt.toNat, k := x.k.toNat + 1, n := x.n.toNat + 1 },
      act_after hr (intakeBeat_quiet hon (intakeStep_first hfirst hlast hnone)), ?_, ?_⟩
    · rw [State.after_blk, held_courier, Block.setCourier_self]
    · exact ⟨rfl, rfl, rfl, rfl, by simp [foldIntake, tcnt, tget], after_frame (setCourier_frame _ _ _) rfl⟩
  case intakeLast =>
    refine ⟨_, act_after hr (intakeBeat_quiet hon (intakeStep_last hfirst hlast hu hbeats hwide hcol hseg)), ?_⟩
    rw [State.after_blk, held_courier, Block.setCourier_self]
    exact ⟨rfl, rfl, rfl, rfl, after_frame (setCourier_frame _ _ _) rfl⟩
  case egressIn =>
    refine ⟨_, act_after hr (egressTap_first hon hfirst hnew hroom), ?_, after_frame (setCourier_frame _ _ _) rfl⟩
    rw [State.after_blk, held_courier, Block.setCourier_self]
    rfl
  case egressOut =>
    refine ⟨_, act_after hr (egressTap_first hon hfirst hnew hroom), ?_, after_frame (setCourier_frame _ _ _) rfl⟩
    rw [State.after_blk, held_courier, Block.setCourier_self]
    rfl
  case stepEnd => exact act_after hr (egressStepEnd_on hon)
  case present => exact act_after hr (frankPresent_due hdue hsafe hruns)
  case accept => exact act_eq hr (frankAccept_next hvld hfree hsafe) rfl rfl rfl rfl
  case acceptSafe => exact act_eq hr (frankAccept_safe hvld hsafe hnext hfrank) rfl rfl rfl rfl

end Sys2Proof.Machine
end

section
/-! Stops, their release, the launch and the step boundary (R43, R127, R128, R150 to R155, R236, R242, R452 to R459). -/

namespace Sys2Proof.Machine

open Sys2Proof

/-! ### Stops and their release -/

theorem stopCountReached_due {t : Nat} {b : Block} (hat : b.stop.at_ = some t) : stopCountReached b = takeStop t (advTo t b) := by
  unfold stopCountReached
  rw [hat]

theorem stopCountReached_scheduled {t : Nat} {b : Block} (hat : b.stop.at_ = none) (hsched : b.stop.sched = some t) (hrun : b.stop.stopped = false) :
    stopCountReached b = scheduledStop t b := by
  unfold stopCountReached
  rw [hat, hsched]
  exact if_neg (by simp [hrun])

theorem ungateAll_stop (b : Block) : (ungateAll b).stop = { b.stop with stopped := false, ownR := none, resumeAt := none } := by
  unfold ungateAll
  dsimp only
  rw [Block.modStop_stop, forEach_keep (fun b => b.stop)]
  intro i c
  split
  · simp
  · rfl

/-- The resume count ends the stop. -/
theorem resumeReached_stop {t : Nat} {b : Block} (hat : b.stop.resumeAt = some t) :
    (resumeReached b).stop = { b.stop with stopped := false, ownR := none, resumeAt := none } := by
  unfold resumeReached
  rw [hat]
  dsimp only
  rw [hoEvent_keeps_stop, Block.modJob_stop, ungateAll_stop, advTo_keeps_stop]

theorem resumeLate_due {t : Nat} {b : Block} (hown : b.stop.ownR = some t) (hnone : b.stop.resumeAt = none) :
    resumeLate b = originate .stopCtrl (hoEvent evResumeLate [] (advTo (t - 300000) b)) := by
  unfold resumeLate
  rw [hown, hnone]

/-! ### The launch -/

theorem armDeadline_unarmed {u : Nat} {r : List Nat} {b : Block} (harmed : b.ho.job.armed = true) (hun : b.ho.job.unarmed = u :: r) :
    armDeadline b = clearCause .launchAbort (originate .launchAbort (advTo (b.ho.job.launchAt - 200000) b)) :=
  if_pos ⟨harmed, by rw [hun]; exact Bool.false_ne_true⟩

theorem launchReached_clear {b : Block} (harmed : b.ho.job.armed = true) (hfree : b.inForce = false) (hall : b.ho.job.unarmed = [])
    (hsched : b.stop.sched = none) : launchReached b = doLaunch b := by
  unfold launchReached
  rw [if_neg (not_not_intro harmed), if_neg (by simp [hfree]), if_neg (by simp [hall]), if_neg (by simp [hsched])]

theorem launchReached_inForce {b : Block} (harmed : b.ho.job.armed = true) (hforce : b.inForce = true) :
    launchReached b = abortLaunch (advTo b.ho.job.launchAt b) := by
  unfold launchReached
  rw [if_neg (not_not_intro harmed), if_pos hforce]

/-! ### The step boundary -/

section
variable {b : Block} (hlaunched : b.ho.job.launched = true) (hrun : b.stop.stopped = false) (hdecided : b.ho.job.decided = true)
  (hfills : b.ho.job.fills.filter (fun f => decide (f.phase < 5)) = []) (hvote : b.ho.parcel.voting = false) (hat : b.stop.at_ = none)
  (hsched : b.beforeSlot b.stop.sched = false)
include hlaunched hrun hdecided hfills hvote hat hsched

/-- A boundary with nothing late stops, takes the parcel's stop or opens the next slot. -/
theorem stepBoundary_clear : stepBoundary b =
    if b.ho.job.stopNext = true then scheduledStop b.nextSlot b
    else if b.beforeSlot b.ho.parcel.stopAt = true then parcelStop b
    else openSlot b.nextSlot (if b.ho.job.withheld = 0 then b.ho.job.step + 1 else b.ho.job.step) b.ho.job.withheld (b.ho.job.slotIx + 1)
      (advTo b.nextSlot b) := by
  have hexpire : expireFills b = b := by
    unfold expireFills
    rw [hfills]
    rfl
  unfold stepBoundary
  rw [if_neg (by simp [hlaunched, hrun])]
  dsimp only
  rw [if_pos hdecided, hexpire, if_neg (c := b.ho.parcel.voting = true) (by simp [hvote]), if_neg (by simp [hlaunched, hdecided]),
    if_neg (by simp [Block.beforeSlot, hat]), if_neg (by simp [hsched])]

end

/-- The slot that opens. -/
theorem openSlot_job (t step replay ix : Nat) (b : Block) : ∃ j : Job, (openSlot t step replay ix b).ho.job = { j with
    step := step, slotAt := t, shift := 0, shifts := [], lateShift := 0, slotIx := ix, inSlot := true, decided := false, graphed := false,
    replay := replay, stopNext := false, hoReasons := 0, recs := [], egress := [], stalls := [] } := by
  refine ⟨(forEach (boundaryCores (forEach b.liveCores realign b)).liveCores (fun i b => b.modCore i (slotCore (b.office (regionOf i)).st.filled))
    (boundaryCores (forEach b.liveCores realign b))).ho.job, ?_⟩
  unfold openSlot
  dsimp only
  rw [forEach_keeps_job _ _ _ (fun r c => (frame_slotOffice r step (.refl [.dbg, .mgmt, .mail, .offices] c) (subs_of rfl)).get .job (by decide))]
  rfl

/-- Settles O33. -/
theorem stopLaunchAndBoundary : Obligations.StopLaunchAndBoundary := by
  refine ⟨fun s t hr hat => ?due, fun s t hr hat hsched hrun => ?scheduled, fun s hr hrel => ?released, fun s t hr hat => ?resumed,
    fun s t hr hown hnone => ?late, fun s u r hr harmed hun => ?deadline, fun s hr harmed hfree hall hsched => ?launch,
    fun s hr harmed hforce => ?abort, fun s hr hl hrun hd hf hv hat hsched hnext => ?stopNext,
    fun s hr hl hrun hd hf hv hat hsched hnext hparcel => ?next, fun b t step replay ix => ?slot⟩
  case due => exact act_after hr (stopCountReached_due hat)
  case scheduled => exact act_after hr (stopCountReached_scheduled hat hsched hrun)
  case released => exact act_after hr (if_pos hrel)
  case resumed =>
    refine ⟨_, act_after hr rfl, ?_⟩
    rw [State.after_blk, State.after_pending, held_stop, resumeReached_stop hat]
    exact ⟨rfl, rfl, rfl, rfl⟩
  case late => exact act_after hr (resumeLate_due hown hnone)
  case deadline => exact act_after hr (armDeadline_unarmed harmed hun)
  case launch => exact act_after hr (launchReached_clear harmed hfree hall hsched)
  case abort => exact act_after hr (launchReached_inForce harmed hforce)
  case stopNext => exact act_after hr ((stepBoundary_clear hl hrun hd hf hv hat hsched).trans (if_pos hnext))
  case next =>
    exact act_after hr ((stepBoundary_clear hl hrun hd hf hv hat hsched).trans
      ((if_neg (by simp [hnext])).trans (if_neg (by simp [hparcel]))))
  case slot =>
    obtain ⟨j, hj⟩ := openSlot_job t step replay ix b
    rw [hj]
    exact ⟨rfl, rfl, rfl, rfl, rfl, rfl⟩

end Sys2Proof.Machine
end

section
/-! The sync pulse and the stop pins (R86, R126, R136, R137, R454). -/

namespace Sys2Proof.Machine

open Sys2Proof

/-! ### The sync pulse -/

theorem setPmState_pm (st : PmState) (b : Block) : (setPmState st b).pm = { b.pm with state := st } := by
  unfold setPmState
  split
  case isTrue heq => rw [← heq]
  case isFalse => exact (frame_setIrqMisc _ (.refl [.mgmt] _) (subs_of rfl)).get .pm (by decide)

/-- A pulse that follows the last one at 1,000 cycles or more loads an ARMED count. -/
theorem syncPulse_armed {b : Block} (hon : b.pm.powered = true) (harmed : b.pm.state = .armed)
    (hwide : ∀ n, (advTo b.edge b).pm.since = some n → 1000 ≤ n) :
    syncPulse false b = applyLoad ((advTo b.edge b).modPm (fun p => { p with since := some 0 })) := by
  have hlate : ¬ (match (advTo b.edge b).pm.since with | some n => decide (n < 1000) | none => false) = true := by
    cases hs : (advTo b.edge b).pm.since with
    | none => exact Bool.false_ne_true
    | some n => simpa using hwide n hs
  unfold syncPulse
  rw [if_neg (not_not_intro hon)]
  refine (if_neg hlate).trans ?_
  dsimp only
  rw [if_neg Bool.false_ne_true, Block.modPm_pm, advTo_pm_state, harmed]

/-- A pulse that follows the last one too soon is not taken. -/
theorem syncPulse_short {long : Bool} {n : Nat} {b : Block} (hon : b.pm.powered = true) (hs : (advTo b.edge b).pm.since = some n) (hn : n < 1000) :
    syncPulse long b = syncWidth (advTo b.edge b) := by
  unfold syncPulse
  rw [if_neg (not_not_intro hon)]
  dsimp only
  rw [hs]
  exact if_pos (decide_eq_true hn)

theorem syncMissing_loaded {n : Nat} {b : Block} (hloaded : b.pm.state = .loaded) (hs : b.pm.since = some n) : syncMissing b =
    hoEvent evSyncMissing [] ((advTo (b.now + 10 * (2 * b.pm.baseP - n)) b).modPm (fun p => { p with missing := true })) := by
  unfold syncMissing
  rw [hloaded, hs]

/-! ### The stop pins -/

/-- A falling edge of bt_stop_in_n with no stop in force orders one. -/
theorem stopInput_low {b : Block} (hon : b.pm.powered = true) (hfree : b.inForce = false) : stopInput false b =
    registerUrgent ((b.modEnv (fun e => { e with stopInN := false })).modStop (fun x => { x with latch := true })) := by
  have hfree' : ((b.modEnv (fun e => { e with stopInN := false })).modStop (fun x => { x with latch := true })).inForce = false := hfree
  unfold stopInput
  dsimp only
  rw [if_neg (by simp [hon])]
  exact if_neg (by simp [hfree'])

theorem stopInput_high (b : Block) : stopInput true b = b.modEnv (fun e => { e with stopInN := true }) := by
  unfold stopInput
  exact if_pos (.inl rfl)

theorem stopPulseEnd_due {t : Nat} {b : Block} (hpulse : b.stop.pulseAt = some t) : stopPulseEnd b =
    ((advTo (t + 1000) b).modOuts (fun o => { o with stopOutN := true })).modStop (fun s => { s with pulseAt := none }) := by
  unfold stopPulseEnd
  rw [hpulse]

/-- Settles O32. -/
theorem syncAndStopPins : Obligations.SyncAndStopPins := by
  refine ⟨fun s hr hon harmed hwide => ?load, fun s long n hr hon hs hn => ?short, fun s n hr hloaded hs => ?missing,
    fun s hr hon hfree => ?low, fun s hr => ?high, fun s t hr hpulse => ?pulseEnd⟩
  case load =>
    refine ⟨_, act_after hr (syncPulse_armed hon harmed hwide), ?_⟩
    rw [State.after_blk, held_pm, applyLoad, setPmState_pm, Block.modPm_pm, Block.modPm_pm]
    exact ⟨advTo_pm_loadV _ _, advTo_pm_loadV _ _, rfl, congrArg BitVec.toNat (advTo_pm_loadV _ _), congrArg BitVec.toNat (advTo_pm_loadP _ _)⟩
  case short =>
    refine ⟨_, act_after hr (syncPulse_short hon hs hn), ?_⟩
    rw [State.after_blk, held_pm, syncWidth, hoEvent_keeps_pm, Block.modPm_pm]
    exact ⟨rfl, advTo_pm_state _ _, advTo_pm_syncLatch _ _⟩
  case missing =>
    refine ⟨_, act_after hr (syncMissing_loaded hloaded hs), ?_⟩
    rw [State.after_blk, held_pm, hoEvent_keeps_pm, Block.modPm_pm]
    exact ⟨rfl, (advTo_pm_state _ _).trans hloaded⟩
  case low => exact act_after hr (stopInput_low hon hfree)
  case high => exact act_after hr (stopInput_high s.blk)
  case pulseEnd =>
    refine ⟨_, act_after hr (stopPulseEnd_due hpulse), ?_⟩
    rw [State.after_blk, held_outs, held_stop, Block.modStop_stop, Block.modOuts_stop, advTo_keeps_stop]
    exact ⟨rfl, rfl, rfl⟩

end Sys2Proof.Machine
end

section
/-! Writes and reads of the register window (R13, R16, R110, R429, R432, R433, R438, R439, R441, R445, R447). -/

namespace Sys2Proof.Machine

open Sys2Proof

/-! ### The window -/

theorem winWrite_mapped {o v : Nat} {b : Block} (hon : b.svc.hoOn = true) (hst : b.svc.state ≠ .booting) (hm : mapped o = true) :
    winWrite o v b = respond 0 (writeReg o v b).1 (writeReg o v b).2 := by
  unfold winWrite
  rw [if_neg (not_not_intro hon), if_neg (not_not_intro hm), if_neg (fun h => hst h.1)]

/-- The registers that answer in BOOTING too. -/
theorem winWrite_boot {o v : Nat} {b : Block} (hon : b.svc.hoOn = true) (hm : mapped o = true) (hboot : bootBlock o = true) :
    winWrite o v b = respond 0 (writeReg o v b).1 (writeReg o v b).2 := by
  unfold winWrite
  rw [if_neg (not_not_intro hon), if_neg (not_not_intro hm), if_neg (fun h => h.2 hboot)]

theorem winWrite_unmapped {o v : Nat} {b : Block} (hon : b.svc.hoOn = true) (hm : mapped o = false) :
    winWrite o v b = respond 0 1 (recordErr o 6 b) := by
  unfold winWrite
  rw [if_neg (not_not_intro hon), if_pos (by simp [hm])]

/-- The block a write of the window leaves, where neither an input nor the power of the Head Office domain changed. -/
theorem exec_registerWrite_eq {o : BitVec 16} {v : BitVec 32} {s : State} {c : Block} (hr : s.released) (hc : winWrite o.toNat v.toNat s.blk = c)
    (he : c.env = s.blk.env) (hl : c.letters = s.blk.letters) (hs : hoLost s.blk c = false) :
    exec (.registerWrite o v) s = .next { s with blk := { c with letters := letterWrite o.toNat v.toNat s.blk } } := by
  rw [exec_registerWrite, afterWrite, if_pos (show s.blk.env.porN = true from hr), hc, held_of_eq he hl hs]

theorem letterWrite_elsewhere {o v : Nat} {b : Block} (h : mapped o = false ∨ o < 0x4000) : letterWrite o v b = b.letters := by
  refine if_neg fun ⟨_, hm, hlow, _⟩ => ?_
  cases h with
  | inl h => exact Bool.false_ne_true (h.symm.trans hm)
  | inr h => omega

/-! ### The registers written -/

theorem writeReg_letters {o v : Nat} (h : 0x1400 ≤ o) (b : Block) : writeReg o v b = (0, b) := by
  unfold writeReg
  rw [if_neg (by omega), if_neg (by omega), if_neg (by omega), if_neg (by omega), if_neg (by omega), if_neg (by omega),
    if_neg (by omega), if_neg (by omega)]

theorem writeReg_crEnable (v : Nat) (b : Block) : writeReg 0x700 v b = (0, crEnable v b) := rfl

theorem doorbell_mod (r : Nat) : (0x1004 + 16 * r) % 16 = 4 := by omega

theorem doorbell_ring (r : Nat) : (0x1004 + 16 * r - 0x1000) / 16 = r := by omega

theorem rsvCauses_doorbell {r : Nat} (h64 : r < 64) : rsvCauses (0x1004 + 16 * r) 1 = [] := by
  have hmask : rsvMask (0x1004 + 16 * r) = (0xFFFFFFFE, 0) := by
    unfold rsvMask
    rw [if_neg (by omega), if_pos (by omega), doorbell_mod]
    rfl
  rw [rsvCauses, hmask]
  rfl

theorem writeReg_doorbell {r : Nat} (h64 : r < 64) (b : Block) : writeReg (0x1004 + 16 * r) 1 b = (0, ringBell r 1 b) := by
  unfold writeReg
  rw [if_neg (by omega), if_neg (by omega), if_neg (by omega), if_neg (by omega), if_neg (by omega), if_neg (by omega),
    if_neg (by omega), if_pos (by omega), rsvCauses_doorbell h64, doorbell_mod, doorbell_ring]
  rfl

theorem ringBell_room {r : Nat} {b : Block} (h : ((b.ring r).ltrTail + 1) % 32 ≠ (b.ring r).ltrHead) :
    ringBell r 1 b = pump r 32 (b.modRing r (fun x => { x with ltrTail := (x.ltrTail + 1) % 32 })) := by
  unfold ringBell
  rw [if_neg (by decide)]
  exact if_neg h

theorem ringBell_full {r : Nat} {b : Block} (h : ((b.ring r).ltrTail + 1) % 32 = (b.ring r).ltrHead) :
    ringBell r 1 b = hoEvent evRingOverrun [] (recordErr (0x1004 + 16 * r) 2 b) := by
  unfold ringBell
  rw [if_neg (by decide)]
  exact if_pos h

/-! ### The count -/

/-- A read of the count gives the count or the one before it (R432). -/
theorem hoCount_near (b : Block) : b.hoCount.1 = BitVec.ofNat 64 b.now ∨ b.hoCount.1 = BitVec.ofNat 64 (b.now - 1) := by
  unfold Block.hoCount
  dsimp only
  split
  · exact .inr rfl
  · exact .inl rfl

/-- What a count command leaves: the response, the Postmark and the free words used. -/
theorem countTaken_frame (data : Nat) (f : Postmark → Postmark) (b : Block) :
    Frame [.outs, .pm, .free] b (respond data 0 (b.hoCount.2.modPm f)) := by
  intro p
  cases p with
  | outs => exact .inl (by decide)
  | pm => exact .inl (by decide)
  | free => exact .inl (by decide)
  | _ => exact .inr rfl

/-! ### Stops and Courier enables -/

theorem crEnable_capturing {v : Nat} {b : Block} (hrsv : rsvCauses 0x700 v = []) (hcap : b.capturing = true) : crEnable v b = recordErr 0x700 4 b := by
  unfold crEnable
  rw [hrsv]
  exact if_pos hcap

theorem crEnable_free {v : Nat} {b : Block} (hrsv : rsvCauses 0x700 v = []) (hcap : b.capturing = false) :
    crEnable v b = forEach (List.range 16) (fun n b =>
      if (bit v n && !(b.courier n).portFail && !(b.courier n).domFail) = (b.courier n).en then b
      else if (bit v n && !(b.courier n).portFail && !(b.courier n).domFail) = true then enablePort n b else disablePort n b) b := by
  unfold crEnable
  rw [hrsv]
  exact if_neg (by simp [recordErrs, hcap])

/-! ### Pops -/

theorem modRing_popped {r : Nat} {x : List Byte} {xs : List (List Byte)} {b : Block} (h : (b.ring r).recs = x :: xs) :
    b.modRing r (fun x => { x with recs := x.recs.drop 1, rcpHead := (x.rcpHead + 1) % ringSize r }) =
      b.modRing r (fun x => { x with recs := xs, rcpHead := (x.rcpHead + 1) % ringSize r }) := by
  have hdrop : (b.ring r).recs.drop 1 = xs := congrArg (List.drop 1) h
  unfold Block.modRing
  dsimp only
  rw [hdrop]

/-- Settles O34. -/
theorem managementPortCommands : Obligations.ManagementPortCommands := by
  refine ⟨fun s o v hr hon hst hm hlow hhigh => ?letters, fun s o v hr hon hm => ?unmapped, fun s v hr hon hst => ?errSummary, fun s hr => ?portReset,
    fun s r hr hon hst hm hroom => ?bell, fun s r hr hon hst hm hfull => ?overrun, fun s r x xs hr hon hst hring hrecs => ?popEvent,
    fun s r x xs hr hon hst hring hrecs => ?popReceipt, fun s hr hon => ?countRead, fun s hr hon => ?countLatch, fun s hr hon hst => ?stop,
    fun s v hr hon hst hrsv hcap => ?enables, fun s v hr hon hst hrsv hcap => ?enablesHeld⟩
  case letters =>
    rw [exec_registerWrite_eq (c := respond 0 0 s.blk) hr (by rw [winWrite_mapped hon hst hm, writeReg_letters (by omega)]) rfl rfl (hoLost_same rfl rfl),
      letterWrite, if_pos ⟨hon, hm, hlow, hhigh, hst⟩]
    rfl
  case unmapped =>
    rw [exec_registerWrite_eq (c := respond 0 1 (recordErr o.toNat 6 s.blk)) hr (winWrite_unmapped hon hm) rfl rfl (hoLost_same rfl rfl),
      letterWrite_elsewhere (.inl hm)]
    rfl
  case errSummary =>
    rw [exec_registerWrite_eq (c := respond 0 0 (errClear v.toNat s.blk)) hr (winWrite_mapped hon hst (by decide)) rfl rfl (hoLost_same rfl rfl),
      letterWrite_elsewhere (.inr (by decide))]
    rfl
  case portReset => exact act_eq (f := fun b => b.modOuts (fun o => { o with rspData := 0, rspErr := 0 })) hr rfl rfl rfl rfl rfl
  case bell =>
    refine act_after hr ((winWrite_mapped hon hst hm).trans ?_)
    rw [show BitVec.toNat (1 : BitVec 32) = 1 from rfl, writeReg_doorbell r.isLt, ringBell_room hroom]
  case overrun =>
    refine act_after hr ((winWrite_mapped hon hst hm).trans ?_)
    rw [show BitVec.toNat (1 : BitVec 32) = 1 from rfl, writeReg_doorbell r.isLt, ringBell_full hfull]
  case popEvent =>
    rw [exec_ringPop hr hon hst (.inr hring), popRing_of_cons hrecs, if_neg (by omega), modRing_popped hrecs]
    exact congrArg _ (after_eq rfl rfl (hoLost_same rfl rfl))
  case popReceipt => rw [exec_ringPop hr hon hst (.inl hring), popRing_of_cons hrecs, if_pos hring, modRing_popped hrecs]
  case countRead =>
    exact ⟨_, act_eq hr (if_pos hon) rfl rfl rfl rfl, hoCount_near s.blk, rfl, rfl, rfl, countTaken_frame _ _ _⟩
  case countLatch =>
    exact ⟨_, act_eq hr (winWrite_boot hon (by decide) (by decide)) rfl rfl rfl rfl, hoCount_near s.blk, rfl, countTaken_frame _ _ _⟩
  case stop => exact act_after hr (winWrite_mapped hon hst (by decide))
  case enables =>
    refine act_after hr ((winWrite_mapped hon hst (by decide)).trans ?_)
    rw [writeReg_crEnable, crEnable_free hrsv hcap]
  case enablesHeld =>
    refine act_eq hr ((winWrite_mapped hon hst (by decide)).trans ?_) rfl rfl rfl rfl
    rw [writeReg_crEnable, crEnable_capturing hrsv hcap]

end Sys2Proof.Machine
end

section
/-! Host handshakes of resets and shutdown, failures that end in SAFE, supplies and identifiers (R30, R87 to R90, R116 to R122, R144,
R256, R357, R360, R361, R442, R482). -/

namespace Sys2Proof.Machine

open Sys2Proof

/-! ### The Archive and the shutdown -/

theorem archiveDone_next {k : Nat} {b : Block} (hstep : b.arch.step = some k) (h0 : k ≠ 0) (h3 : k < 3) :
    archiveDone 0 b = persistNext (k + 1) ledgerPages b := by
  unfold archiveDone
  rw [hstep]
  dsimp only
  rw [if_neg (by decide), if_neg h0]
  obtain rfl | rfl : k = 1 ∨ k = 2 := by omega
  · rfl
  · rfl

theorem archiveDone_last {b : Block} (hstep : b.arch.step = some 3) : archiveDone 0 b = persistDone b := by
  unfold archiveDone
  rw [hstep]
  dsimp only
  rw [if_neg (by decide), if_neg (by decide), if_neg (by decide), if_neg (by decide)]

theorem archiveDone_error {k status : Nat} {b : Block} (hstep : b.arch.step = some k) (hstatus : status ≠ 0) :
    archiveDone status b = coldProgress { b with
      arch := { b.arch with step := none, errors := b.arch.errors + 1 }
      outs := { b.outs with arCmd := none } } := by
  unfold archiveDone
  rw [hstep]
  exact if_pos hstatus

theorem shutdownRequest_idle {b : Block} (hnew : b.env.shdnReq = false) (hidle : b.inJob = false) : shutdownRequest b =
    startPersist (abandonCapture (hoEvent evShutdownReq []
      ((setIrqMisc 3 (b.modEnv (fun e => { e with shdnReq := true }))).modSvc (fun v => { v with shutting := true })))) := by
  unfold shutdownRequest
  rw [if_neg (by simp [hnew])]
  dsimp only
  rw [if_neg]
  rw [hoEvent_keep_inJob, Block.modSvc_inJob, setIrqMisc_keep_inJob, Block.modEnv_inJob, hidle]
  exact Bool.false_ne_true

/-! ### Memories that fail -/

theorem sramUncorrectable_courier {n : BitVec 4} {id : BitVec 10} {x : Xfer} {b : Block}
    (hfind : (b.courier n.toNat).xfers.find? (fun x => x.id = id.toNat) = some x) :
    sramUncorrectable (.courier n id) b = xferEnd n.toNat x 1 b := by
  unfold sramUncorrectable
  dsimp only
  rw [hfind]

theorem dropTrace_length {b : Block} (hsome : b.dbg.trace ≠ []) : (dropTrace b).dbg.trace.length + 1 = b.dbg.trace.length := by
  have hlen : 0 < b.dbg.trace.length := List.length_pos_iff.2 hsome
  unfold dropTrace
  rw [if_neg (by simpa using hsome)]
  show (List.eraseIdx b.dbg.trace _).length + 1 = _
  rw [List.length_eraseIdx, if_pos (Nat.mod_lt _ hlen)]
  omega

/-! ### The host's handshakes -/

theorem hostDone_cold {b : Block} (hcold : b.outs.coldReq = true) : hostDone b =
    (b.modOuts (fun o => { o with coldReq := false })).modSvc (fun v => { v with hostDone := true }) := if_pos hcold

theorem hostDone_warm {b : Block} (hcold : b.outs.coldReq = false) (hwarm : b.outs.warmReq = true) : hostDone b =
    (b.modOuts (fun o => { o with warmReq := false })).modSvc (fun v => { v with hostDone := true }) :=
  (if_neg (by simp [hcold])).trans (if_pos hwarm)

theorem hostDone_spurious {b : Block} (hcold : b.outs.coldReq = false) (hwarm : b.outs.warmReq = false) : hostDone b =
    hoEvent evSpuriousDone [] (b.modDebug (fun d => { d with spurious := d.spurious + 1 })) :=
  (if_neg (by simp [hcold])).trans (if_neg (by simp [hwarm]))

/-- The block at the time limit of a cold request, the request withdrawn. -/
theorem coldTimedOut_svc (b : Block) : (hoEvent evHostColdTimeout [] ((advTo b.svc.resetDue b).modOuts
    (fun o => { o with coldReq := false }))).svc = b.svc := by
  rw [hoEvent_keeps_svc, Block.modOuts_svc, advTo_keeps_svc]

theorem hostColdTimeout_safe {b : Block} (hcold : b.outs.coldReq = true) (hsafe : b.svc.state = .safe) : hostColdTimeout b =
    hoEvent evHostColdTimeout [] ((advTo b.svc.resetDue b).modOuts (fun o => { o with coldReq := false })) := by
  unfold hostColdTimeout
  rw [if_pos hcold]
  exact if_pos (by rw [coldTimedOut_svc, hsafe])

theorem hostColdTimeout_out {b : Block} (hcold : b.outs.coldReq = true) (hsafe : b.svc.state ≠ .safe) : hostColdTimeout b =
    enterOOS ((hoEvent evHostColdTimeout [] ((advTo b.svc.resetDue b).modOuts
      (fun o => { o with coldReq := false }))).modSvc (fun v => { v with reset := 0 })) := by
  unfold hostColdTimeout
  rw [if_pos hcold]
  exact if_neg (by rw [coldTimedOut_svc]; exact hsafe)

/-! ### The reset window, the supplies and the identifiers -/

theorem resetWindowExpiry_open {b : Block} (hopen : b.ho.resets.inWindow ≠ 0) : resetWindowExpiry b =
    (advTo b.rstExpiry b).modResets (fun x => { x with inWindow := (advTo b.rstExpiry b).recordsIn x.warmAt }) := if_neg hopen

theorem powerIdValid_new {feed loop : BitVec 16} {rack : BitVec 24} {b : Block} (hnew : b.env.idVld = false) :
    powerIdValid true feed loop rack b = (b.modEnv (fun e => { e with idVld := true, feedIn := feed, loopIn := loop, rackIn := rack })).modSvc
      (fun s => { s with feed := feed, loop := loop, rack := rack }) := by
  unfold powerIdValid
  rw [hnew]
  rfl

theorem modEnv_modSvc_frame (f : Env → Env) (g : Svc → Svc) (b : Block) : Frame [.env, .svc] b ((b.modEnv f).modSvc g) := by
  intro p
  cases p with
  | env => exact .inl (by decide)
  | svc => exact .inl (by decide)
  | _ => exact .inr rfl

/-- A test window that cannot be given is missed. -/
theorem testWindow_missed {i : Nat} {b : Block} (hnone : (b.core i).ctl.test = none) (hstage : (b.core i).ctl.puStage = 1)
    (hwindow : b.windowOk i = false) :
    testWindow i b = missWindow i (modCtl i (fun x => { x with test := none }) (b.modOffice (regionOf i) (fun o => { o with
      running := match o.running with | some x => if x.core = i then none else some x | none => none }))) := by
  unfold testWindow
  dsimp only
  rw [hnone]
  exact if_pos ⟨decide_eq_true hstage, by simp [hwindow]⟩

/-- Settles O31. -/
theorem resetAndSupplyCommands : Obligations.ResetAndSupplyCommands := by
  refine ⟨fun s k hr hstep h0 h3 => ?archiveNext, fun s hr hstep => ?archiveLast, fun s k status hr hstep hstatus => ?archiveError,
    fun s hr hnew hidle => ?shutdown, fun s hr hon => ?lockstep, fun s hr hon => ?refLost, fun s core hr hp => ?letterbox, fun s r m hr hp => ?office,
    fun s hr hon => ?headOffice, fun s n id x hr hfind => ?courier, fun s hr hsome => ?trace, fun s hr hcold hwarm => ?doneWarm,
    fun s hr hcold => ?doneCold, fun s hr hcold hwarm => ?doneSpurious, fun s hr => ?external, fun s hr hwarm => ?warmTimeout,
    fun s hr hcold hsafe => ?coldSafe, fun s hr hcold hsafe => ?coldOut, fun s hr hopen => ?window, fun s legs hr hpm => ?legs,
    fun s feed loop rack hr hnew => ?identity, fun s r up hr => ?supply, fun s core hr hnone hstage hwindow => ?missed⟩
  case archiveNext => exact act_eq hr (archiveDone_next hstep h0 h3) rfl rfl rfl rfl
  case archiveLast => exact act_after hr (archiveDone_last hstep)
  case archiveError => exact act_after hr (archiveDone_error hstep (fun h => hstatus (BitVec.eq_of_toNat_eq h)))
  case shutdown => exact act_after hr (shutdownRequest_idle hnew hidle)
  case lockstep => exact act_after hr (if_pos hon)
  case refLost => exact act_after hr (if_pos hon)
  case letterbox => exact act_after (f := sramUncorrectable (.letterbox core)) hr (if_pos hp)
  case office => exact act_after (f := sramUncorrectable (.office r m)) hr (if_pos hp)
  case headOffice => exact act_after (f := sramUncorrectable .headOffice) hr (if_pos hon)
  case courier => exact act_after hr (sramUncorrectable_courier hfind)
  case trace =>
    exact ⟨s.after (dropTrace s.blk), act_after hr rfl, dropTrace_length hsome,
      after_frame (frame_dropTrace (.refl [.dbg, .free] s.blk) (subs_of rfl)) rfl⟩
  case doneWarm => exact act_eq hr (hostDone_warm hcold hwarm) rfl rfl rfl rfl
  case doneCold => exact act_eq hr (hostDone_cold hcold) rfl rfl rfl rfl
  case doneSpurious => exact act_after hr (hostDone_spurious hcold hwarm)
  case external => exact act_after hr rfl
  case warmTimeout => exact act_after (f := hostWarmTimeout) hr (if_pos hwarm)
  case coldSafe => exact act_after hr (hostColdTimeout_safe hcold hsafe)
  case coldOut => exact act_after hr (hostColdTimeout_out hcold hsafe)
  case window =>
    refine ⟨_, act_after hr (resetWindowExpiry_open hopen), ?_⟩
    rw [State.after_blk, held_ho]
    have hkeep : (advTo s.blk.rstExpiry s.blk).ho.resets = s.blk.ho.resets :=
      (frame_advTo _ (.refl [.pm] s.blk) (subs_of rfl)).get .resets (by decide)
    rw [← hkeep]
    exact ⟨rfl, rfl⟩
  case legs => exact act_after (f := legRemeasure legs) hr (if_pos hpm)
  case identity =>
    exact ⟨_, act_after hr (powerIdValid_new hnew), rfl, rfl, rfl, rfl, (modEnv_modSvc_frame _ _ _).held (hoLost_same rfl rfl)⟩
  case supply => exact act_after hr rfl
  case missed => exact act_after hr (testWindow_missed hnone hstage hwindow)

end Sys2Proof.Machine
end

section
/-! A Courier port's link, transfers, message lane and transit slots (R103 to R109, R318, R319, R323). -/

namespace Sys2Proof.Machine

open Sys2Proof

/-! ### The link and the transfers -/

/-- The link of a disabled port is followed, and nothing more (log 58). -/
theorem crLinkUp_disabled {n : Nat} {b : Block} (hen : (b.courier n).en = false) :
    crLinkUp n b = b.modCourier n (fun c => { c with linkUp := true }) := by
  refine if_neg ?_
  rw [Block.modCourier_self]
  exact fun h => Bool.false_ne_true (hen.symm.trans h.2.2)

theorem crLinkUp_enabled {n : Nat} {b : Block} (hpow : (b.courier n).powered = true) (hfail : (b.courier n).domFail = false)
    (hen : (b.courier n).en = true) : crLinkUp n b = startPort n (b.modCourier n (fun c => { c with linkUp := true })) := by
  refine if_pos ?_
  rw [Block.modCourier_self]
  exact ⟨hpow, by simp [hfail], hen⟩

theorem crLinkDown_enabled {n : Nat} {b : Block} (hen : (b.courier n).en = true) :
    crLinkDown n b = portStop n (b.modCourier n (fun c => { c with linkUp := false })) := by
  refine if_pos ?_
  rw [Block.modCourier_self]
  exact hen

theorem crWriteResponse_open {n id resp : Nat} {x : Xfer} {b : Block} (hup : b.portUp n = true)
    (hfind : (b.courier n).xfers.find? (fun x => decide (x.id = id) && x.write) = some x) : crWriteResponse n id resp b = xferEnd n x resp b := by
  unfold crWriteResponse
  rw [if_neg (not_not_intro hup), hfind]

/-- A beat that keeps parity and is not the last is stored with its transfer. -/
theorem crReadBeat_middle {n id par resp : Nat} {data : BitVec 2048} {x : Xfer} {b : Block} (hup : b.portUp n = true)
    (hfind : (b.courier n).xfers.find? (fun x => decide (x.id = id) && !x.write) = some x) (hpar : laneParityBad 64 data.toNat par = false) :
    crReadBeat n id data par false resp b = b.modCourier n (fun c => { c with
      xfers := c.xfers.map (fun (z : Xfer) => if z.id = id then { x with got := x.got + 1, data := x.data ++ [data] } else z) }) := by
  unfold crReadBeat
  rw [if_neg (not_not_intro hup), hfind]
  dsimp only
  rw [hpar, if_neg Bool.false_ne_true, if_neg Bool.false_ne_true, Bool.or_false]

/-! ### The message lane -/

theorem loadLane_full {n vc : Nat} {f : CourierFlit} {r : List CourierFlit} {b : Block} (hq : (tget (b.courier n).txq vc).getD [] = f :: r) :
    loadLane n vc b = b := if_pos (by rw [hq]; exact List.cons_ne_nil _ _)

theorem crFlitTransmit_queued {n vc : Nat} {f : CourierFlit} {r : List CourierFlit} {b : Block} (hup : b.portUp n = true) (hvc : vc < 10)
    (hcredit : 0 < lnat (b.courier n).credits vc) (hq : (tget (b.courier n).txq vc).getD [] = f :: r) :
    crFlitTransmit n vc b = b.modCourier n (fun c => { c with
      mt := some (vc, f), txq := tset c.txq vc r, credits := lset c.credits vc (lnat c.credits vc - 1) }) := by
  unfold crFlitTransmit
  rw [if_neg (by simp only [hup, not_true_eq_false, false_or]; omega)]
  dsimp only
  rw [loadLane_full hq, hq]

theorem crCreditReturn_up {n vc : Nat} {b : Block} (hup : b.portUp n = true) (hvc : vc < 10) :
    crCreditReturn n vc b = b.modCourier n (fun c => { c with credits := lset c.credits vc (lnat c.credits vc + 1) }) :=
  if_neg (by simp only [hup, not_true_eq_false, false_or]; omega)

theorem crFlitReceive_good {n vc : Nat} {f : CourierFlit} {b : Block} (hup : b.portUp n = true) (hvc : vc < 10)
    (hcredit : 0 < lnat (b.courier n).hostCr vc) (hpar : laneParityBad 16 f.data.toNat f.par.toNat = false) :
    crFlitReceive n vc f b = b.modCourier n (fun c => { c with
      hostCr := lset c.hostCr vc (lnat c.hostCr vc - 1), rxq := tset c.rxq vc ((tget c.rxq vc).getD [] ++ [f]) }) := by
  unfold crFlitReceive
  rw [if_neg (not_not_intro hup), if_neg (by omega), if_neg (by omega)]
  dsimp only
  rw [hpar, if_neg Bool.false_ne_true]

theorem fleetPacketReceive_good {n vc : Nat} {fs : List CourierFlit} {hdr : BitVec 128} {pl : List (BitVec 128)} {fcrc : BitVec 32} {b c : Block}
    (hup : b.portUp n = true) (hvc : vc < 10) (hfirst : firstPacket ((tget (b.courier n).rxq vc).getD []) = some fs)
    (hgood : unpackFleet fs = .good hdr pl fcrc) (hon : fleetOnward n vc hdr pl fcrc b = some c) :
    fleetPacketReceive n vc b = drainRx n vc fs.length c := by
  unfold fleetPacketReceive
  rw [if_neg (by simp only [hup, not_true_eq_false, false_or]; omega), hfirst]
  dsimp only
  rw [hgood]
  dsimp only
  rw [hon]

/-! ### Transit slots -/

/-- The reports of a port's transit slots leave the service state. -/
theorem reportTo_svc (n src : Nat) (b : Block) : (reportTo n src b).svc = b.svc :=
  (frame_reportTo n src (.refl [.post, .cores, .offices, .routers, .couriers] b) (subs_of rfl)).get .svc (by decide)

theorem Block.hoRuns_of_svc {b c : Block} (h : c.svc = b.svc) : c.hoRuns = b.hoRuns := by
  unfold Block.hoRuns
  rw [h]

theorem reportsTo_hoRuns (n : Nat) (xs : List Nat) (b : Block) : (forEach xs (reportTo n) b).hoRuns = b.hoRuns :=
  Block.hoRuns_of_svc (forEach_keeps_svc _ _ _ (reportTo_svc n))

theorem transitReport_running {n : Nat} {b : Block} (hon : (b.courier n).tapsOn = true) (hruns : b.hoRuns = true) :
    transitReport n b = reportDlv n (forEach (dedup ((b.courier n).transit.map (fun t => t.1 % 16))) (reportTo n) b) := by
  unfold transitReport
  rw [if_pos hon]
  exact if_pos ((reportsTo_hoRuns ..).trans hruns)

theorem transitReport_alone {n : Nat} {b : Block} (hon : (b.courier n).tapsOn = true) (hruns : b.hoRuns = false) :
    transitReport n b = forEach (dedup ((b.courier n).transit.map (fun t => t.1 % 16))) (reportTo n) b := by
  unfold transitReport
  rw [if_pos hon]
  exact if_neg (by rw [reportsTo_hoRuns, hruns]; exact Bool.false_ne_true)

/-- A slot whose packet is lost counts its arrivals again, and the packet counts as dropped. -/
theorem transitLost_open {n vc src : Nat} {b : Block} (hvc : vc < 10) (hsrc : src < 16) (hopen : (b.slotAt n vc src).sent ≠ (b.slotAt n vc src).arrived) :
    transitLost n vc src b = postEvent evTransitLost (if src = n then unitHO else unitCourier src) []
      (((advTo ((b.slotAt n vc src).since + 20000) b).modCourier n (fun c => { c with
        transit := tset c.transit (16 * vc + src) { b.slotAt n vc src with
          sent := (b.slotAt n vc src).arrived, seenArr := (b.slotAt n vc src).arrived, seenFree := (b.slotAt n vc src).freed } })).modFleet
        (fun f => { f with drops := tadd f.drops 2 1 })) := by
  unfold transitLost
  rw [if_neg (by omega)]
  dsimp only
  rw [if_neg (by omega : ¬ 16 ≤ src), if_neg]
  rintro (h | h)
  · omega
  · exact hopen h

/-- Settles O30. -/
theorem courierPortCommands : Obligations.CourierPortCommands := by
  refine ⟨fun s n hr hen => ?upDisabled, fun s n hr hpow hfail hen => ?up, fun s n hr hen => ?down, fun s n id resp x hr hup hfind => ?write,
    fun s n id data par resp x hr hup hfind hpar => ?read, fun s n vc f r hr hup hvc hcredit hq => ?transmit, fun s n vc hr hup hvc => ?credit,
    fun s n vc f hr hup hvc hcredit hpar => ?receive, fun s n vc fs hdr pl fcrc b hr hup hvc hfirst hgood hon => ?packet,
    fun s n hr hon hruns => ?report, fun s n hr hon hruns => ?reportAlone, fun s n vc src hr hvc hsrc hopen => ?lost⟩
  case upDisabled => exact act_eq hr (crLinkUp_disabled hen) rfl rfl rfl rfl
  case up => exact act_after hr (crLinkUp_enabled hpow hfail hen)
  case down => exact act_after hr (crLinkDown_enabled hen)
  case write => exact act_after hr (crWriteResponse_open hup hfind)
  case read => exact act_eq hr (crReadBeat_middle hup hfind hpar) rfl rfl rfl rfl
  case transmit => exact act_eq hr (crFlitTransmit_queued hup hvc hcredit hq) rfl rfl rfl rfl
  case credit => exact act_eq hr (crCreditReturn_up hup hvc) rfl rfl rfl rfl
  case receive => exact act_eq hr (crFlitReceive_good hup hvc hcredit hpar) rfl rfl rfl rfl
  case packet => exact act_after hr (fleetPacketReceive_good hup hvc hfirst hgood hon)
  case report => exact act_after hr (transitReport_running hon hruns)
  case reportAlone => exact act_after hr (transitReport_alone hon hruns)
  case lost =>
    refine ⟨_, act_after hr (transitLost_open hvc hsrc hopen), rfl, ?_, ?_⟩
    · rw [State.after_blk, Block.slotAt, held_courier, postEvent_keep_courier, Block.modFleet_courier, Block.modCourier_self]
      dsimp only
      rw [tget_tset_self]
      rfl
    · rw [State.after_blk, held_ho, postEvent_keeps_fleet, Block.modFleet_ho_fleet]
      dsimp only
      rw [tadd, tcnt, tget_tset_self, Block.modCourier_ho, advTo_keeps_fleet]
      rfl

end Sys2Proof.Machine
end

section
/-! Keys, the key window and the test access port (R124, R125, R129, R131, R274, R449, R450, R466, R469, R471). -/

namespace Sys2Proof.Machine

open Sys2Proof

/-! ### The key window -/

theorem writeReg_keyCtrl (v : Nat) (b : Block) : writeReg 0xA00 v b = keyCtrl v b := rfl

theorem writeReg_keyData (v : Nat) (b : Block) : writeReg 0xA04 v b = keyData (BitVec.ofNat 32 v) b := rfl

/-- What a word that orders a key load says. -/
theorem keyLoad_fields : ∀ k : BitVec 2, bit (BitVec.ofNat 32 (0x100 + k.toNat)).toNat 24 = false ∧ bit (BitVec.ofNat 32 (0x100 + k.toNat)).toNat 16 = false ∧
    bit (BitVec.ofNat 32 (0x100 + k.toNat)).toNat 8 = true ∧ fld (BitVec.ofNat 32 (0x100 + k.toNat)).toNat 0 2 = k.toNat ∧
    rsvCauses 0xA00 (BitVec.ofNat 32 (0x100 + k.toNat)).toNat = [] := by decide

theorem rejectWin_none {b : Block} (h : b.keys.win = none) : rejectWin b = b := by
  unfold rejectWin
  rw [h]

theorem keyCtrl_open {b : Block} (hopen : b.keysOpen = true) (hfree : b.keys.locked = false) : ¬ (b.keys.locked = true ∨ ¬ b.keysOpen = true) := by
  simp [hopen, hfree]

/-- With no load in progress a load order opens the window for its slot. -/
theorem keyCtrl_load {k : BitVec 2} {b : Block} (hopen : b.keysOpen = true) (hfree : b.keys.locked = false) (hwin : b.keys.win = none)
    (hport : b.keys.port = none) :
    keyCtrl (BitVec.ofNat 32 (0x100 + k.toNat)).toNat b = (0, b.modKeys (fun x => { x with win := some (k.toNat, []), winSlot := k })) := by
  obtain ⟨h24, h16, h8, hslot, hrsv⟩ := keyLoad_fields k
  have hnext : ∀ c : Block, c.keys.port = none → ¬ c.keys.port.map Prod.fst = some k.toNat := fun c h => by simp [h]
  unfold keyCtrl
  rw [h24, h16, h8, hslot, hrsv]
  dsimp only
  rw [if_neg Bool.false_ne_true, if_neg (keyCtrl_open hopen hfree), if_neg Bool.false_ne_true, if_pos rfl]
  have hrec : recordErrs 0xA00 ([] ++ if 1 < b01 true + b01 false + b01 false then [5] else []) b = b := rfl
  rw [hrec, rejectWin_none hwin, if_neg, BitVec.ofNat_toNat, BitVec.setWidth_eq]
  exact hnext _ hport

theorem keyCtrl_lock {b : Block} (hopen : b.keysOpen = true) (hfree : b.keys.locked = false) (hwin : b.keys.win = none) :
    keyCtrl 0x10000 b = (0, b.modKeys (fun x => { x with locked := true })) := by
  show (if b.keys.locked = true ∨ ¬ b.keysOpen = true then (2, recordErr 0xA00 7 b)
    else (0, (rejectWin b).modKeys (fun k => { k with locked := true }))) = _
  rw [if_neg (keyCtrl_open hopen hfree), rejectWin_none hwin]

/-- The twelfth word completes a key. -/
theorem keyData_last {w : BitVec 32} {k : Nat} {ws : List (BitVec 32)} {b : Block} (hopen : b.keysOpen = true) (hfree : b.keys.locked = false)
    (hwin : b.keys.win = some (k, ws)) (hlen : ws.length = 11) :
    keyData w b = (0, (acceptKey k (ws ++ [w]) b).modKeys (fun k => { k with win := none, lastOk := true, lastErr := false })) := by
  unfold keyData
  rw [if_neg (keyCtrl_open hopen hfree), hwin]
  exact if_pos hlen

theorem keyData_more {w : BitVec 32} {k : Nat} {ws : List (BitVec 32)} {b : Block} (hopen : b.keysOpen = true) (hfree : b.keys.locked = false)
    (hwin : b.keys.win = some (k, ws)) (hlen : ws.length ≠ 11) :
    keyData w b = (0, b.modKeys (fun x => { x with win := some (k, ws ++ [w]) })) := by
  unfold keyData
  rw [if_neg (keyCtrl_open hopen hfree), hwin]
  exact if_neg hlen

theorem keyData_locked {w : BitVec 32} {b : Block} (hlocked : b.keys.locked = true) : keyData w b = (2, recordErr 0xA04 7 b) := if_pos (.inl hlocked)

/-- An accepted key stands in its slot; nothing else of the keys changes. -/
theorem acceptKey_keys (k : Nat) (ws : List (BitVec 32)) (b : Block) :
    (acceptKey k ws b).keys = { b.keys with slots := lset b.keys.slots k (keyOf ws) } := by
  unfold acceptKey
  rw [hoEvent_keeps_keys, setIrqMisc_keeps_keys]
  rfl

theorem acceptKey_keyErr (k : Nat) (ws : List (BitVec 32)) (b : Block) : (acceptKey k ws b).outs.keyErr = b.outs.keyErr := by
  unfold acceptKey
  rw [hoEvent_keeps_outs, setIrqMisc_keeps_outs]
  rfl

/-! ### Zeroizing -/

theorem zeroize_keys (b : Block) : (zeroize b).keys = { b.keys with
    slots := [0, 0, 0, 0], port := none, win := none, lastErr := b.keys.lastErr || b.keys.win.isSome, lastOk := b.keys.lastOk && !b.keys.win.isSome } := by
  unfold zeroize
  dsimp only
  rw [hoEvent_keeps_keys, setIrqMisc_keeps_keys]
  rfl

theorem zeroize_outs (b : Block) : (zeroize b).outs = { b.outs with keysZero := true, zeroDone := b.outs.zeroDone + 1 } := by
  unfold zeroize
  dsimp only
  rw [hoEvent_keeps_outs, setIrqMisc_keeps_outs]
  rfl

theorem zeroize_senders (b : Block) : (zeroize b).ledger.senders = [] := by
  unfold zeroize
  dsimp only
  rw [hoEvent_keeps_ledger, setIrqMisc_keeps_ledger]
  rfl

theorem zeroize_sessions (b : Block) : (zeroize b).ho.mail.sessions = [] := by
  unfold zeroize
  dsimp only
  rw [hoEvent_mail_sessions, setIrqMisc_keeps_mail]
  rfl

/-! ### The key port -/

theorem keyPort_first {k : Nat} {w : BitVec 32} {b : Block} (hport : b.keys.port = none) (hwin : b.keys.win = none) :
    keyPort k w false b = b.modKeys (fun x => { x with port := some (k, [w]) }) := by
  unfold keyPort
  rw [hport]
  dsimp only
  rw [if_neg (c := Option.map Prod.fst _ = some k ∧ _) (fun h => by simp [hwin] at h), if_pos Bool.false_ne_true, hport]
  rfl

/-- The last word of a load whose twelve words came to one slot stores the key. -/
theorem keyPort_last {k : Nat} {w : BitVec 32} {ws : List (BitVec 32)} {b : Block} (hk : k < 4) (hopen : b.keysOpen = true)
    (hport : b.keys.port = some (k, ws)) (hwin : b.keys.win = none) (hlen : ws.length = 11) :
    keyPort k w true b = acceptKey k (ws ++ [w]) ((b.modKeys (fun x => { x with port := some (k, ws ++ [w]) })).modKeys (fun x => { x with port := none })) := by
  have hwords : keyWords b.keys.port w = ws ++ [w] := by
    rw [hport]
    exact List.take_of_length_le (by simp [hlen])
  unfold keyPort
  rw [hport]
  dsimp only
  rw [if_pos (Nat.mod_eq_of_lt hk), hwords, hport, if_neg (c := Option.map Prod.fst _ = some k ∧ _) (fun h => by simp [hwin] at h),
    if_neg (not_not_intro rfl)]
  exact if_pos ⟨hopen, by simp [hlen], rfl⟩

/-! ### The test access port -/

theorem tapReset_on {b : Block} (hon : b.tapOn = true) :
    tapReset b = b.modDebug (fun d => { d with tap := .testLogicReset, tdoEn := false, tdo := false, tapIr := 0x01 }) := by
  unfold tapReset
  rw [if_pos hon]
  rfl

theorem tapReset_off {b : Block} (hoff : b.tapOn = false) : tapReset b = b := if_neg (by simp [hoff])

theorem ijtagSelect_off {b : Block} (hoff : b.tapOn = false) : ijtagSelect b = b := if_neg (by simp [hoff])

theorem ijtagSelect_on {b : Block} (hon : b.tapOn = true) : ijtagSelect b = tapScan (selectCycles 0x21) b := if_pos hon

/-- A closed network reads as a register of one bit. -/
theorem tapDr_closed {b : Block} (hclosed : b.dbg.netOpen = false) (hir : b.dbg.tapIr = 0x21) : b.tapDr = [false] := by
  unfold Block.tapDr
  rw [hir]
  exact if_neg (by simp [hclosed])

/-- The network that a scan opened is recorded once. -/
theorem tapScan_openings {l : List (Bool × Bool)} {b : Block} (hclosed : b.dbg.netOpen = false) (hopened : (tapScan l b).dbg.netOpen = true) :
    (tapScan l b).ledger.openings = b.ledger.openings ++ [b.now] := by
  obtain ⟨_, _, ⟨hno, _⟩ | ⟨_, hone⟩⟩ := NetOnce.tapScan (o := b) (b := b) ⟨rfl, rfl, .inl ⟨hclosed, rfl⟩⟩ l
  · exact absurd (hno.symm.trans hopened) Bool.false_ne_true
  · exact hone

theorem sibOpen_reached {x : Sib} {b : Block} (hon : b.tapOn = true) (hnet : b.dbg.netOpen = true) (htop : sibParent x = none)
    (hnew : b.dbg.sibs.contains x = false) : sibOpen x b = sibFail x (b.modDebug (fun d => { d with sibs := d.sibs ++ [x] })) := by
  unfold sibOpen
  rw [htop]
  exact if_neg (by simp only [hon, hnet, hnew, not_true_eq_false, Bool.false_eq_true, or_self, not_false_eq_true])

theorem coreCapUpdate_open {core : CoreIdx} {load last : Bool} {beat : BitVec 128} {b : Block} (hon : b.tapOn = true) (hnet : b.dbg.netOpen = true)
    (hcap : b.dbg.sibs.contains (.cap core) = true) (hscan : b.dbg.sibs.contains (.ls core) = false) (hlb : (b.core core.toNat).lbOn = true)
    (hgated : (b.core core.toNat).ctl.stopGated = true) (hnone : (b.core core.toNat).ctl.cap = none) (htest : (b.core core.toNat).ctl.test = none) :
    coreCapUpdate core load beat last b = b.modCore core.toNat (capMove load beat last b.csLen) := by
  unfold coreCapUpdate
  exact if_neg (by simp only [hon, hnet, hcap, hscan, hlb, hgated, hnone, htest, Option.isSome_none, not_true_eq_false, Bool.false_eq_true,
    or_self, not_false_eq_true])

/-- Settles O35. -/
theorem keyAndTapCommands : Obligations.KeyAndTapCommands := by
  refine ⟨fun s k hr hon hst hopen hfree hwin hport => ?load, fun s hr hon hst hopen hfree hwin => ?lock, fun s hr hon hst => ?winZero,
    fun s w k ws hr hon hst hopen hfree hwin hlen => ?dataLast, fun s w k ws hr hon hst hopen hfree hwin hlen => ?dataMore,
    fun s w hr hon hst hlocked => ?dataLocked, fun s k w hr hopen hport hwin => ?portFirst, fun s k w ws hr hopen hport hwin hlen => ?portLast,
    fun s hr => ?zeroize, fun s hr hon => ?tapReset, fun s hr hoff => ?tapOff, fun s hr hon hdue hman hrma => ?closed,
    fun b hclosed hir => ?oneBit, fun s hr hon hlc hclosed => ?opened, fun s r hr hon hnet hnew => ?region, fun s hr hon hnet hnew hho => ?office,
    fun s core load beat last hr hon hnet hcap hscan hlb hgated hnone htest => ?capture⟩
  case load =>
    refine act_eq hr ((winWrite_mapped hon hst (by decide)).trans ?_) rfl rfl rfl rfl
    rw [writeReg_keyCtrl, keyCtrl_load hopen hfree hwin hport]
  case lock =>
    refine act_eq hr ((winWrite_mapped hon hst (by decide)).trans ?_) rfl rfl rfl rfl
    rw [writeReg_keyCtrl, show BitVec.toNat (0x10000 : BitVec 32) = 0x10000 from rfl, keyCtrl_lock hopen hfree hwin]
  case winZero =>
    refine ⟨s.after (respond 0 0 (zeroize s.blk)), act_after hr (winWrite_mapped hon hst (by decide)), ?_⟩
    rw [State.after_blk, held_keys, held_outs, held_ledger, held_ho]
    show (zeroize s.blk).keys.slots = _ ∧ (zeroize s.blk).keys.win = _ ∧ (zeroize s.blk).keys.port = _ ∧ (zeroize s.blk).outs.keysZero = _ ∧ _ ∧ _ ∧
      (zeroize s.blk).keys.locked = _
    rw [zeroize_keys, zeroize_outs]
    exact ⟨rfl, rfl, rfl, rfl, zeroize_senders _, zeroize_sessions _, rfl⟩
  case dataLast =>
    refine ⟨s.after (respond 0 0 ((acceptKey k (ws ++ [w]) s.blk).modKeys (fun k => { k with win := none, lastOk := true, lastErr := false }))),
      act_after hr ((winWrite_mapped hon hst (by decide)).trans ?_), congrArg Keys.slots (acceptKey_keys ..), rfl, rfl, rfl⟩
    rw [writeReg_keyData, BitVec.ofNat_toNat, BitVec.setWidth_eq, keyData_last hopen hfree hwin hlen]
  case dataMore =>
    refine act_eq hr ((winWrite_mapped hon hst (by decide)).trans ?_) rfl rfl rfl rfl
    rw [writeReg_keyData, BitVec.ofNat_toNat, BitVec.setWidth_eq, keyData_more hopen hfree hwin hlen]
  case dataLocked =>
    refine act_eq hr ((winWrite_mapped hon hst (by decide)).trans ?_) rfl rfl rfl rfl
    rw [writeReg_keyData, keyData_locked hlocked]
  case portFirst => exact act_eq hr (keyPort_first hport hwin) rfl rfl rfl rfl
  case portLast =>
    refine ⟨_, act_after hr (keyPort_last k.isLt hopen hport hwin hlen), ?_⟩
    rw [State.after_blk, held_keys, held_outs, acceptKey_keys, acceptKey_keyErr]
    exact ⟨rfl, rfl, rfl⟩
  case zeroize =>
    refine ⟨s.after (Machine.zeroize s.blk), act_after hr rfl, ?_⟩
    rw [State.after_blk, held_keys, held_outs, held_ledger, held_ho, zeroize_keys, zeroize_outs]
    exact ⟨rfl, rfl, rfl, rfl, rfl, zeroize_senders _, zeroize_sessions _⟩
  case tapReset => exact act_eq hr (tapReset_on hon) rfl rfl rfl rfl
  case tapOff => exact ⟨act_eq hr (tapReset_off hoff) rfl rfl rfl rfl, act_eq hr (ijtagSelect_off hoff) rfl rfl rfl rfl⟩
  case closed =>
    obtain ⟨hframe, hnet, _⟩ := tapScan_closed (selectCycles 0x21) s.blk hdue hman hrma
    obtain ⟨hir, htap, _⟩ := tapScan_select s.blk
    exact ⟨_, act_after hr (ijtagSelect_on hon), hir, htap, hnet, after_frame hframe rfl⟩
  case oneBit => exact tapDr_closed hclosed hir
  case opened =>
    obtain ⟨hir, _, hopen⟩ := tapScan_select s.blk
    obtain ⟨hnet, hslots⟩ := hopen hlc hclosed
    exact ⟨_, act_after hr (ijtagSelect_on hon), hnet, hir, hslots, tapScan_openings hclosed hnet⟩
  case region => exact act_eq hr (sibOpen_reached hon hnet rfl hnew) rfl rfl rfl rfl
  case office => exact act_after hr ((sibOpen_reached hon hnet rfl hnew).trans (if_pos hho))
  case capture => exact act_eq hr (coreCapUpdate_open hon hnet hcap hscan hlb hgated hnone htest) rfl rfl rfl rfl

end Sys2Proof.Machine
end

section
/-! What Offices and the Head Office file about a step, and the step decision (R98, R203, R219, R225 to R228, R351, R461). -/

namespace Sys2Proof.Machine

open Sys2Proof

/-! ### What an Office receives -/

section
variable {r c : Nat} {p : Packet} {b d : Block}

theorem officeVerdict_taken (hon : b.officeOn r = true)
    (htake : takeEvq r c (fun p => decide (hSvc p.hdr = 0x01) && !isSummary (b.office r).st.step (p.pl.headD 0)) b = some (p, d)) :
    officeVerdict r c b = if d.deadPkt p then deadLetter 20 d else fileVerdict r (pathUnit (hSrc p.hdr)) (p.pl.headD 0).toNat d := by
  unfold officeVerdict
  rw [if_neg (not_not_intro hon)]
  dsimp only
  rw [htake]

/-- A summary that is in time and has no flag is filed with its role. -/
theorem summaryReceive_taken (hon : b.officeWorks r = true)
    (htake : takeEvq r c (fun p => decide (hSvc p.hdr = 0x01) && isSummary (b.office r).st.step (p.pl.headD 0)) b = some (p, d))
    (hsent : (d.office r).st.sent = false) (hver : d.unverdicted (pathUnit (hSrc p.hdr)) = false) (hflag : fld (p.pl.headD 0).toNat 56 2 = 0) :
    summaryReceive r c b = modSt r (fun s => { s with roles := (tset s.roles (pathUnit (hSrc p.hdr))
      { ((tget s.roles (pathUnit (hSrc p.hdr))).getD {}) with summary := some (fld (p.pl.headD 0).toNat 32 24, 0) }) }) d := by
  unfold summaryReceive
  rw [if_neg (not_not_intro hon)]
  dsimp only
  rw [htake]
  dsimp only
  rw [if_neg (by simp [hsent, hver]), if_pos hflag, hflag]

theorem stallReceive_taken (hon : b.officeWorks r = true) (htake : takeEvq r c (fun p => decide (hSvc p.hdr = 0x08)) b = some (p, d)) :
    stallReceive r c b = unicast (unitOffice r) unitHO 0x08 p.pl d := by
  unfold stallReceive
  rw [if_neg (not_not_intro hon), htake]

theorem regionVerdict_graphed (hon : b.officeWorks r = true) (hsent : (b.office r).st.sent = false) (hdecided : b.ho.job.decided = false)
    (hheld : b.tEndHeld = false) (hgraph : b.ho.job.graphed = true) : regionVerdict r b = formRecord r b := by
  unfold regionVerdict
  rw [if_neg (by simp [hon, hsent, hdecided, hheld])]
  dsimp only
  rw [if_pos hgraph, if_pos hon]

end

/-! ### The wait graph -/

/-- A graph of no stalled role hangs nothing. -/
theorem waitGraph_empty {b : Block} (hopen : b.undecided = true) (hnew : b.ho.job.graphed = false) (hheld : b.tEndHeld = false)
    (hnone : b.ho.job.stalls = []) : waitGraph b =
      ((advTo (b.tEnd + 2000) b).modJob (fun j => { j with graphed := true })).modJob (fun j => { j with hangs := 0 }) := by
  have hstalls : (advTo (b.tEnd + 2000) b).ho.job.stalls = [] := by rw [advTo_keeps_job, hnone]
  unfold waitGraph
  rw [if_neg (by simp [hopen, hnew, hheld])]
  dsimp only
  rw [hstalls]
  rfl

/-! ### What the Head Office receives -/

/-- The record of a region that a packet carries (R227). -/
def regionRecOf (p : Packet) : RegionRec where
  region := unitIndex (pathUnit (hSrc p.hdr))
  step := fld (p.pl.getD 0 0).toNat 0 32
  reasons := BitVec.ofNat 32 (fld (p.pl.getD 0 0).toNat 32 32)
  digestSum := BitVec.ofNat 32 (fld (p.pl.getD 0 0).toNat 64 32)
  tileCount := fld (p.pl.getD 0 0).toNat 96 32
  mismatch := fld (p.pl.getD 1 0).toNat 0 24
  unchk := fld (p.pl.getD 1 0).toNat 24 24
  suspects := fld (p.pl.getD 1 0).toNat 48 16
  unscreened := fld (p.pl.getD 1 0).toNat 64 16

section
variable {p : Packet} {b d : Block} (hruns : b.hoRuns = true) (hgood : e2eBad p = none) (hdead : d.deadPkt p = false) (hopen : d.undecided = true)
  (hstep : fld (p.pl.getD 0 0).toNat 0 32 = d.ho.job.step)
include hruns hgood hdead hopen hstep

theorem regionRecord_filed (htake : takeHo 0x10 b = some (p, d)) : regionRecord b = d.modJob (fun j => { j with
    recs := j.recs.filter (fun y => y.region ≠ (regionRecOf p).region) ++ [regionRecOf p] }) := by
  unfold regionRecord
  rw [if_neg (not_not_intro hruns), htake]
  dsimp only
  rw [hgood]
  dsimp only
  rw [if_neg (by simp [hdead]), if_pos ⟨hopen, hstep⟩]
  rfl

theorem egressReceive_filed (htake : takeHo 0x14 b = some (p, d)) : egressReceive b = d.modJob (fun j => { j with
    egress := j.egress.filter (fun y => y.n ≠ unitIndex (pathUnit (hSrc p.hdr))) ++
      [⟨unitIndex (pathUnit (hSrc p.hdr)), fld (p.pl.getD 0 0).toNat 0 32, bit (p.pl.getD 0 0).toNat 96⟩] }) := by
  unfold egressReceive
  rw [if_neg (not_not_intro hruns), htake]
  dsimp only
  rw [hgood]
  dsimp only
  rw [if_neg (by simp [hdead]), if_pos ⟨hopen, hstep⟩]

end

/-! ### The step decision -/

/-- Blocks whose step decision reads the same: the decision, its mask, the step and its replays, and what the Ledger has of it. -/
structure SameDecision (b c : Block) : Prop where
  decided : c.ho.job.decided = b.ho.job.decided
  mask : c.ho.job.lastMask = b.ho.job.lastMask
  step : c.ho.job.step = b.ho.job.step
  replay : c.ho.job.replay = b.ho.job.replay
  withheld : c.ho.job.withheld = b.ho.job.withheld
  ledgerStep : c.ledger.stepDecided = b.ledger.stepDecided
  ledgerFranked : c.ledger.stepFranked = b.ledger.stepFranked

theorem SameDecision.trans {a b c : Block} (h : SameDecision a b) (k : SameDecision b c) : SameDecision a c where
  decided := k.decided.trans h.decided
  mask := k.mask.trans h.mask
  step := k.step.trans h.step
  replay := k.replay.trans h.replay
  withheld := k.withheld.trans h.withheld
  ledgerStep := k.ledgerStep.trans h.ledgerStep
  ledgerFranked := k.ledgerFranked.trans h.ledgerFranked

theorem SameDecision.of_eq {b c : Block} (hjob : c.ho.job = b.ho.job) (hledger : c.ledger = b.ledger) : SameDecision b c where
  decided := congrArg (·.decided) hjob
  mask := congrArg (·.lastMask) hjob
  step := congrArg (·.step) hjob
  replay := congrArg (·.replay) hjob
  withheld := congrArg (·.withheld) hjob
  ledgerStep := congrArg (·.stepDecided) hledger
  ledgerFranked := congrArg (·.stepFranked) hledger

theorem SameDecision.stopJobNext (b : Block) : SameDecision b (stopJobNext b) := by
  unfold Machine.stopJobNext
  split
  · constructor <;> rfl
  · constructor <;> rfl

theorem SameDecision.stopAfter (code : Nat) (b : Block) : SameDecision b (Machine.stopJobNext (hoEvent code [] b)) :=
  (SameDecision.of_eq (hoEvent_keeps_job ..) (hoEvent_keeps_ledger ..)).trans (.stopJobNext _)

theorem SameDecision.frankCores (b : Block) : SameDecision b (frankCores b) := by
  refine forEach_inv (P := SameDecision b) (fun i c h => h.trans ?_) (.of_eq rfl rfl)
  split <;> constructor <;> rfl

theorem SameDecision.parcelVote (frank : Bool) (b : Block) : SameDecision b (parcelVote frank b) :=
  have hframe := frame_parcelVote frank (.refl [.stop, .dbg, .mgmt, .mail, .fleet, .parcel, .post] b) (subs_of rfl)
  .of_eq (hframe.get .job (by decide)) (hframe.get .ledger (by decide))

/-- A step without a Frank is withheld once more. -/
theorem orderReplay_decision (b : Block) : SameDecision (b.modJob (fun j => { j with withheld := b.ho.job.replay + 1 })) (orderReplay b) := by
  unfold orderReplay
  dsimp only
  split
  · exact .stopAfter ..
  · exact .of_eq rfl rfl

/-- The block in which the decision of a step stands, with its mask and notice, before what follows from it. -/
def Block.judged (b : Block) (mask : BitVec 32) (rc : StepRec) (note : Notice) : Block :=
  (b.modJob (fun j => { j with
    decided := true
    lastMask := mask
    hist := (rc :: j.hist.filter (fun x => x.step ≠ b.ho.job.step)).take 1024
    due := j.due ++ [note] })).modLedger (fun l => { l with
      stepDecided := b.ho.job.step
      stepFranked := if decide (mask = 0) then b.ho.job.step else l.stepFranked })

/-- The cores of a franked step, or the replay of one that is not. -/
def Block.followed (frank : Bool) (b : Block) : Block :=
  if frank then frankCores (b.modJob (fun j => { j with withheld := 0 })) else orderReplay b

/-- The job stops next where more roles are unscreened than the policy allows. -/
def Block.limited (b : Block) : Block :=
  if b.ho.policy.unscreenedLimit < b.unscreenedRoles then stopJobNext (hoEvent evUnscreenedLimit [] b) else b

theorem followed_decision (frank : Bool) (b : Block) :
    SameDecision (b.modJob (fun j => { j with withheld := if frank then 0 else b.ho.job.replay + 1 })) (b.followed frank) := by
  cases frank
  case false => exact orderReplay_decision b
  case true => exact .frankCores _

theorem limited_decision (b : Block) : SameDecision b b.limited := by
  unfold Block.limited
  split
  · exact .stopAfter ..
  · exact .of_eq rfl rfl

theorem event_decision (code w : Nat) (body : List Byte) (b : Block) :
    SameDecision (b.modJob (fun j => { j with withheld := w })) ((hoEvent code body b).modJob (fun j => { j with withheld := w })) :=
  .of_eq (congrArg (fun j : Job => { j with withheld := w }) (hoEvent_keeps_job ..)) (hoEvent_keeps_ledger ..)

/-- A step decision judges the step and follows from it. -/
theorem stepDecision_judged {b : Block} (hopen : b.undecided = true) (hheld : b.tEndHeld = false)
    (hstill : (forEach b.popRegions regionVerdict b).undecided = true) :
    ∃ (c : Block) (mask : BitVec 32) (rc : StepRec) (note : Notice) (body : List Byte), c.ho.job = (forEach b.popRegions regionVerdict b).ho.job ∧
      stepDecision b = parcelVote (decide (mask = 0)) ((hoEvent evStepDecision body (c.judged mask rc note)).followed (decide (mask = 0))).limited := by
  unfold stepDecision
  rw [if_neg (by simp [hopen, hheld])]
  dsimp only
  rw [if_neg (not_not_intro hstill)]
  generalize hdigest : stepDigest _ = dg
  generalize List.foldl _ _ _ = mask
  refine ⟨dg.2, mask,
    { step := dg.2.ho.job.step, frank := decide (mask = 0), replays := dg.2.ho.job.replay, mask := mask, digest := dg.1, fc := dg.2.tEnd + 19000 },
    { frank := decide (mask = 0), step := BitVec.ofNat 32 dg.2.ho.job.step, epoch := BitVec.ofNat 16 dg.2.ledger.epoch, digest := dg.1,
      pm := BitVec.ofNat 64 (dg.2.tEnd + 19000) },
    le 4 mask.toNat ++ le 4 dg.2.ho.job.step, ?_, ?_⟩
  · rw [← hdigest, (frame_stepDigest (.refl [.free] _) (subs_of rfl)).get .job (by decide), advTo_keeps_job]
  · unfold Block.limited Block.followed Block.judged
    rfl

theorem stepDecision_decision {b : Block} (hopen : b.undecided = true) (hheld : b.tEndHeld = false)
    (hstill : (forEach b.popRegions regionVerdict b).undecided = true) :
    ∃ c mask rc note, c.ho.job = (forEach b.popRegions regionVerdict b).ho.job ∧
      SameDecision ((Block.judged c mask rc note).modJob (fun j => { j with withheld := if decide (mask = 0) then 0 else c.ho.job.replay + 1 })) (stepDecision b) := by
  obtain ⟨c, mask, rc, note, body, hjob, hstep⟩ := stepDecision_judged hopen hheld hstill
  have hreplay : (hoEvent evStepDecision body (c.judged mask rc note)).ho.job.replay = c.ho.job.replay := by
    rw [hoEvent_keeps_job]
    rfl
  have hfollow := followed_decision (decide (mask = 0)) (hoEvent evStepDecision body (c.judged mask rc note))
  rw [hreplay] at hfollow
  refine ⟨c, mask, rc, note, hjob, ?_⟩
  rw [hstep]
  exact (event_decision evStepDecision _ body _).trans (hfollow.trans ((limited_decision _).trans (.parcelVote _ _)))

/-- Settles O36. -/
theorem stepVerdictCommands : Obligations.StepVerdictCommands := by
  refine ⟨fun s r c p b hr hon htake => ?verdict, fun s r c p b hr hon htake hsent hver hflag => ?summary, fun s r c p b hr hon htake => ?stall,
    fun s hr hopen hnew hheld hnone => ?graph, fun s r hr hon hsent hdecided hheld hgraph => ?record,
    fun s p b hr hruns htake hgood hdead hopen hstep => ?region, fun s p b hr hruns htake hgood hdead hopen hstep => ?egress,
    fun s hr hopen hheld hstill => ?decision⟩
  case verdict => exact act_after hr (officeVerdict_taken hon htake)
  case summary =>
    refine ⟨_, act_after hr (summaryReceive_taken hon htake hsent hver hflag), ?_, rfl⟩
    rw [State.after_blk, held_office, modSt, Block.modOffice_self]
    dsimp only
    rw [tget_tset_self]
    rfl
  case stall => exact act_after hr (stallReceive_taken hon htake)
  case graph =>
    refine ⟨_, act_after hr (waitGraph_empty hopen hnew hheld hnone), ?_, rfl⟩
    rw [State.after_blk, held_ho]
    show ({ (advTo _ s.blk).ho.job with graphed := true, hangs := 0 } : Job) = _
    rw [advTo_keeps_job]
  case record => exact act_after hr (regionVerdict_graphed hon hsent hdecided hheld hgraph)
  case region =>
    exact ⟨_, regionRecOf p, act_after hr (regionRecord_filed hruns hgood hdead hopen hstep htake), rfl, rfl, rfl, rfl, rfl, rfl, rfl, rfl, rfl⟩
  case egress => exact ⟨_, act_after hr (egressReceive_filed hruns hgood hdead hopen hstep htake), rfl⟩
  case decision =>
    obtain ⟨c, mask, rc, note, hjob, h⟩ := stepDecision_decision hopen hheld hstill
    refine ⟨_, act_after hr rfl, ?_⟩
    rw [State.after_blk, held_ho, held_ledger, h.decided, h.mask, h.step, h.replay, h.withheld, h.ledgerStep, h.ledgerFranked, ← hjob]
    refine ⟨rfl, rfl, rfl, fun hfrank : mask = 0 => ⟨if_pos (decide_eq_true hfrank), if_pos (decide_eq_true hfrank)⟩,
      fun hfrank : mask ≠ 0 => if_neg (fun h => hfrank (of_decide_eq_true h))⟩

end Sys2Proof.Machine
end

section
/-! Fills of spares and the Dice (R192 to R199, R237 to R245). -/

namespace Sys2Proof.Machine

open Sys2Proof

/-! ### The decision that a region receives -/

section
variable {r : Nat} {b : Block} (hon : b.officeWorks r = true) (hdecided : b.ho.job.decided = true) (hwithheld : b.ho.job.withheld ≠ 0)
  (hgoes : b.ho.job.stopNext = false)
include hon hdecided hwithheld hgoes

theorem decisionReceive_none (hnamed : (b.office r).st.named = []) :
    decisionReceive r b = modSt r (fun x => { x with named := [], received := true }) (advTo (b.tEnd + 17500) b) := by
  have hnamed' : ((advTo (b.tEnd + 17500) b).office r).st.named = [] := by rw [advTo_keep_office, hnamed]
  unfold decisionReceive
  rw [if_neg (by simp [hon, hdecided, hwithheld, hgoes])]
  dsimp only
  rw [hnamed']
  rfl

/-- One role named is one role to find a spare for. -/
theorem decisionReceive_one {role reason : Nat} (hnamed : (b.office r).st.named = [(role, reason)]) : ∃ code, decisionReceive r b =
    allocate r role code (modSt r (fun x => { x with named := [], received := true }) (advTo (b.tEnd + 17500) b)) := by
  have hnamed' : ((advTo (b.tEnd + 17500) b).office r).st.named = [(role, reason)] := by rw [advTo_keep_office, hnamed]
  have hnext : (modSt r (fun x => { x with named := [], received := true }) (advTo (b.tEnd + 17500) b)).ho.job.stopNext = false :=
    (congrArg Job.stopNext (advTo_keeps_job ..)).trans hgoes
  refine ⟨relocReason ([(role, reason)] ++ (modSt r (fun x => { x with named := [], received := true })
    (advTo (b.tEnd + 17500) b)).earlierCodes r role) role, ?_⟩
  unfold decisionReceive
  rw [if_neg (by simp [hon, hdecided, hwithheld, hgoes])]
  dsimp only
  rw [hnamed']
  exact if_neg (by rw [hnext]; exact Bool.false_ne_true)

end

/-! ### The allocation of a spare -/

theorem advTo_ho (n : Nat) (b : Block) : (advTo n b).ho = b.ho := by
  unfold advTo
  split
  · exact Block.modPm_ho ..
  · rfl

theorem coreState_same {b c : Block} (hcfg : c.cfg = b.cfg) (hledger : c.ledger = b.ledger) (hho : c.ho = b.ho) : c.coreState = b.coreState := by
  funext i
  unfold Block.coreState
  rw [Block.present_same hcfg, Block.hist_same hledger, hho]

/-- Which spare a core gets rests on the configuration, the Ledger, the Board Map and the fills. -/
theorem spareFor_same {b c : Block} (hcfg : c.cfg = b.cfg) (hledger : c.ledger = b.ledger) (hho : c.ho = b.ho) : c.spareFor = b.spareFor := by
  have hpresent : c.present = b.present := funext (Block.present_same hcfg)
  have hhist : c.hist = b.hist := funext (Block.hist_same hledger)
  have hdist : c.distClass = b.distClass := by
    funext i
    unfold Block.distClass
    rw [hcfg]
  have hrole : c.roleOf = b.roleOf := by
    funext i
    unfold Block.roleOf
    rw [hho]
  funext src
  unfold Block.spareFor Block.regionCores
  rw [hpresent, hhist, hdist, hrole, hho, coreState_same hcfg hledger hho]

theorem fillTo_fills (pick : Fill → Bool) (ph : Nat) (b : Block) :
    (fillTo pick ph b).ho.job.fills = b.ho.job.fills.map (fun f => if pick f then { f with phase := ph } else f) := rfl

theorem map_unpicked {pick : Fill → Bool} {ph : Nat} {l : List Fill} (h : ∀ f ∈ l, pick f = false) :
    l.map (fun f => if pick f then { f with phase := ph } else f) = l := by
  refine (List.map_congr_left (g := id) fun f hf => ?_).trans (List.map_id l)
  rw [h f hf]
  rfl

theorem modJob_appended (f : Fill) (b : Block) :
    (b.modJob (fun j => { j with fills := j.fills ++ [f] })).ho.job.fills = b.ho.job.fills ++ [f] := rfl

theorem putReloc_fills (r : Nat) (x : Reloc) (b : Block) : (putReloc r x b).ho.job.fills = b.ho.job.fills := rfl

theorem queueUnit_fills (r : Nat) (u : TestUnit) (b : Block) : (queueUnit r u b).ho.job.fills = b.ho.job.fills :=
  congrArg Job.fills ((frame_queueUnit _ _ (.refl [.dbg, .mgmt, .mail, .offices] b) (subs_of rfl)).get .job (by decide))

/-- A spare that is found gets a fill in its test phase; the other fills stay. -/
theorem allocate_fills {r role code src dst : Nat} {b : Block}
    (hnew : b.ho.job.fills.any (fun f => decide (f.role = role) && decide (f.phase < 5)) = false) (hsrc : b.coreOf role = some src)
    (hstate : b.coreState src ≠ .unscreened) (hdst : b.spareFor src = some dst) :
    (allocate r role code b).ho.job.fills = b.ho.job.fills ++ [{ role := role, src := src, dst := dst, phase := 2, started := b.now }] := by
  have hold : ∀ f ∈ b.ho.job.fills, f.role = role → 5 ≤ f.phase := by simpa using hnew
  have hone : ∀ f ∈ b.ho.job.fills, (decide (f.role = role) && decide (f.phase = 1)) = false := by
    intro f hf
    have h := hold f hf
    simp only [Bool.and_eq_false_iff, decide_eq_false_iff_not]
    omega
  have hmine : ∀ f ∈ b.ho.job.fills, decide (f = { role := role, src := src, dst := dst, phase := 1, started := b.now }) = false := by
    intro f hf
    refine decide_eq_false fun h => ?_
    have hrole : f.role = role := congrArg Fill.role h
    have hphase : f.phase = 1 := congrArg Fill.phase h
    have := hold f hf hrole
    omega
  unfold allocate
  rw [if_neg (by rw [hnew]; exact Bool.false_ne_true), hsrc]
  dsimp only
  rw [if_neg hstate, hdst]
  dsimp only
  rw [queueUnit_fills, putReloc_fills, fillTo_fills, fillTo_fills, modJob_appended, List.map_append, map_unpicked hmine,
    List.map_append, map_unpicked hone]
  simp

/-! ### The phases of a fill -/

section
variable {r role : Nat} {f : Fill} {b : Block}
  (hfind : b.ho.job.fills.find? (fun f => decide (f.role = role) && decide (f.phase < 5) && decide (regionOf f.dst = r)) = some f)
  (hrun : b.stop.stopped = false)
include hfind hrun

theorem fillTimeout_open : fillTimeout r role b = failFill role evSpareFailed (advTo (f.started + 1000000) b) := by
  unfold fillTimeout
  rw [hfind]
  exact if_neg (by simp [hrun])

variable (hon : b.officeOn r = true)
include hon

theorem fillPhase_failed : fillPhase r role false b = failFill role (if f.phase = 3 then evSourceLost else evSpareFailed) b := by
  unfold fillPhase
  rw [hfind]
  dsimp only
  rw [if_neg (by simp [hrun, hon]), if_pos Bool.false_ne_true]

/-- The test phase of a source already fenced passes to the image. -/
theorem fillPhase_tested (hphase : f.phase = 2) (hdone : b.unitsLeft f.dst .fill = false) (hiso : (b.core f.src).pins.isoN = false) :
    fillPhase r role true b = (setPhase role 3 b).modCore f.src (fun c => c) := by
  have hsrc : ((setPhase role 3 b).core f.src).pins.isoN = false := hiso
  unfold fillPhase
  rw [hfind]
  dsimp only
  rw [if_neg (by simp [hrun, hon]), if_neg (not_not_intro rfl), hphase]
  refine (if_neg (by simp [hdone])).trans ?_
  exact congrArg ((setPhase role 3 b).setCore f.src) (if_neg (by simp [hsrc]))

theorem fillPhase_image (hphase : f.phase = 3) (himage : f.image ≠ []) : fillPhase r role true b = writeContext f (setPhase role 4 b) := by
  unfold fillPhase
  rw [hfind]
  dsimp only
  rw [if_neg (by simp [hrun, hon]), if_neg (not_not_intro rfl), hphase]
  exact if_neg (by simpa using himage)

theorem fillPhase_loaded (hphase : f.phase = 4) (hspare : b.coreState f.dst = .spare) (hloaded : f.loaded = true) :
    fillPhase r role true b = armFill r f b := by
  unfold fillPhase
  rw [hfind]
  dsimp only
  rw [if_neg (by simp [hrun, hon]), if_neg (not_not_intro rfl), hphase]
  show (match b.coreState f.dst with | .spare => if f.loaded then armFill r f b else b | _ => failFill role evSpareFailed b) = _
  rw [hspare]
  exact if_pos hloaded

end

/-! ### The Dice -/

theorem diceShort_st (r n : Nat) (b : Block) : ((diceShort r n b).office r).st = (b.office r).st := by
  unfold diceShort
  split
  · rfl
  · rw [postEventN_keep_office, modDice, Block.modOffice_self]

theorem diceShort_nextStep (r n : Nat) (b : Block) : ((diceShort r n b).office r).dice.nextStep = (b.office r).dice.nextStep := by
  unfold diceShort
  split
  · rfl
  · rw [postEventN_keep_office, modDice, Block.modOffice_self]

theorem fillStep_unlaunched {b : Block} (h : b.ho.job.launched = false) : b.fillStep = b.man.firstStep := if_pos (by simp [h])

/-- The Dice filled for the job's first step. -/
theorem diceFill_first {r : Nat} {tiles late : List (Nat × Nat)} {b : Block} (hon : b.officeOn r = true) (hload : (b.office r).reload = false)
    (hman : b.ho.job.man.isSome = true) (hnew : (b.office r).st.filled = false) (hwait : b.ho.job.launched = false) :
    ((diceFill r tiles late b).office r).st.filled = true ∧ ((diceFill r tiles late b).office r).st.promoteRoles = [] ∧
      ((diceFill r tiles late b).office r).dice.nextStep = b.man.firstStep + 1 := by
  unfold diceFill
  rw [if_neg (by simp [hon, hload, Option.isNone_eq_false_iff.2 hman, hnew, hwait])]
  dsimp only
  rw [diceShort_st, diceShort_nextStep, modSt, Block.modOffice_self]
  refine ⟨rfl, rfl, ?_⟩
  dsimp only
  rw [modDice, Block.modOffice_self, fillStep_unlaunched hwait]

/-- Settles O37. -/
theorem fillAndDiceCommands : Obligations.FillAndDiceCommands := by
  refine ⟨fun s r hr hon hdecided hwithheld hgoes hnamed => ?quiet,
    fun s r role reason src dst hr hon hdecided hwithheld hgoes hnamed hnew hsrc hstate hdst => ?found,
    fun s r role f hr hfind hrun hon hphase hdone hiso => ?tested, fun s r role f hr hfind hrun hon hphase himage => ?image,
    fun s r role f hr hfind hrun hon hphase hspare hloaded => ?loaded, fun s r role f hr hfind hrun hon => ?failed,
    fun s r role f hr hfind hrun => ?timeout, fun s r tiles late hr hon hload hman hnew hwait => ?dice⟩
  case quiet =>
    have h := decisionReceive_none hon hdecided hwithheld hgoes hnamed
    exact (act_after hr rfl).trans (congrArg (fun c => Host.Outcome.next (s.after c)) h)
  case found =>
    obtain ⟨code, hrec⟩ := decisionReceive_one hon hdecided hwithheld hgoes hnamed
    have hho : (advTo (s.blk.tEnd + 17500) s.blk).ho = s.blk.ho := advTo_ho ..
    have hledger : (advTo (s.blk.tEnd + 17500) s.blk).ledger = s.blk.ledger := advTo_keeps_ledger ..
    have hcfg : (advTo (s.blk.tEnd + 17500) s.blk).cfg = s.blk.cfg := advTo_keeps_cfg ..
    have hfills : (decisionReceive r.toNat s.blk).ho.job.fills = s.blk.ho.job.fills ++
        [{ role := role, src := src, dst := dst, phase := 2, started := (advTo (s.blk.tEnd + 17500) s.blk).now }] := by
      rw [hrec, allocate_fills (src := src) (dst := dst) _ _ _ _]
      · rw [modSt, Block.modOffice_ho, hho]
        rfl
      · rw [modSt, Block.modOffice_ho, hho, hnew]
      · rw [Block.coreOf, modSt, Block.modOffice_ho, hho]
        exact hsrc
      · exact fun h => hstate ((congrFun (coreState_same hcfg hledger hho) src).symm.trans h)
      · exact (congrFun (spareFor_same hcfg hledger hho) src).trans hdst
    exact ⟨s.after (decisionReceive r.toNat s.blk), _, act_after hr rfl, hfills, rfl, rfl, rfl, rfl⟩
  case tested => exact act_eq hr (fillPhase_tested hfind hrun hon hphase hdone hiso) rfl rfl rfl rfl
  case image => exact act_eq hr (fillPhase_image hfind hrun hon hphase himage) rfl rfl rfl rfl
  case loaded => exact act_after hr (fillPhase_loaded hfind hrun hon hphase hspare hloaded)
  case failed => exact act_after hr (fillPhase_failed hfind hrun hon)
  case timeout => exact act_after hr (fillTimeout_open hfind hrun)
  case dice =>
    obtain ⟨hfilled, hroles, hstep⟩ := diceFill_first (tiles := tiles.map (fun t => (t.1.toNat, t.2.toNat)))
      (late := late.map (fun t => (t.1.toNat, t.2.toNat))) hon hload hman hnew hwait
    exact ⟨_, act_after hr rfl, hfilled, hroles, hstep,
      after_frame (frame_diceFill _ _ _ (.refl [.dbg, .mgmt, .mail, .post, .cores, .offices, .routers, .couriers] _) (subs_of rfl)) rfl⟩

end Sys2Proof.Machine
end

section
/-! What an Office does beside the step (R24 to R28, R230, R260 to R272, R461). -/

namespace Sys2Proof.Machine

open Sys2Proof

/-! ### Test units -/

theorem testUnitPlace_next {r t w : Nat} {u : TestUnit} {b : Block} (hon : b.officeOn r = true) (hfree : b.unitBusy r = false)
    (hnext : b.nextUnit r = some (u, t, w)) :
    testUnitPlace r b = startUnit r u ((advTo t b).modOffice r (fun o => { o with
      testq := o.testq.erase u
      spent := if w = 3 then o.spent else o.spent ++ [(4 * u.core + w, (advTo t b).declLen u.mode u.unit)] })) := by
  unfold testUnitPlace
  rw [if_neg (by simp [hon, hfree]), hnext]

/-- An Office with nothing queued sweeps its spares. -/
theorem testUnitPlace_sweep {r n : Nat} {u : TestUnit} {b : Block} (hon : b.officeOn r = true) (hfree : b.unitBusy r = false)
    (hnone : b.nextUnit r = none) (hq : (b.office r).testq = []) (hsweep : b.ho.policy.spareSweep = true) (hnext : b.sweepNext r = some (u, n)) :
    testUnitPlace r b = startUnit r u (b.modOffice r (fun o => { o with sweepCore := u.core, sweepUnit := n })) := by
  unfold testUnitPlace
  rw [if_neg (by simp [hon, hfree]), hnone]
  dsimp only
  rw [if_neg (by simp [hq, hsweep]), hnext]

/-! ### The twin -/

theorem Office.modStandby_standby (f : Member → Member) (o : Office) : (o.modStandby f).standby = f o.standby := by
  cases hserving : o.serving <;> simp [Office.modStandby, Office.standby, hserving]

theorem Office.modStandby_serving (f : Member → Member) (o : Office) : (o.modStandby f).serving = o.serving := by
  unfold Office.modStandby
  split <;> rfl

theorem standbyPeriod_due {r : Nat} {b : Block} (hon : b.officeOn r = true) (hlive : (b.office r).standby.live = true)
    (heligible : (b.office r).standby.eligible = true) (hfree : (b.office r).standby.testing = false) : ∃ (n : Nat) (f : Member → Member),
      (∀ m, (f m).testing = true ∧ (f m).eligible = false) ∧
        (standbyPeriod r b).office r = { (b.office r).modStandby f with lastStandby := n } := by
  refine ⟨(advTo ((b.office r).lastStandby + b.ho.policy.standbyHours * 3600000000000) b).now,
    fun m => { m with testing := true, eligible := false, copy := some (Block.twinCopy
      (advTo ((b.office r).lastStandby + b.ho.policy.standbyHours * 3600000000000) b) r) }, fun m => ⟨rfl, rfl⟩, ?_⟩
  unfold standbyPeriod
  dsimp only
  rw [if_neg (by simp [hon, hlive, heligible, hfree]), Block.modOffice_self, advTo_keep_office]

theorem standbyTestDone_passed {r : Nat} {b : Block} (htesting : (b.office r).standby.testing = true) :
    standbyTestDone r true b = b.modOffice r (fun o => o.modStandby (fun m => { m with testing := false, copying := true })) :=
  (if_neg (not_not_intro htesting)).trans (if_pos rfl)

theorem standbyTestDone_failed {r : Nat} {b : Block} (htesting : (b.office r).standby.testing = true) :
    standbyTestDone r false b = postEvent evStandbyFail (unitMember r (b01 (!(b.office r).serving))) []
      (b.modOffice r (fun o => o.modStandby (fun m => { m with testing := false, eligible := false, barred := true }))) :=
  (if_neg (not_not_intro htesting)).trans (if_neg Bool.false_ne_true)

theorem modOffice_frame (r : Nat) (f : Office → Office) (b : Block) : Frame [.offices] b (b.modOffice r f) :=
  frame_modOffice r f (.refl _ b) (subs_of rfl)

/-- Outside a job, and with no order open, a planned swap is the swap alone. -/
theorem plannedSwap_idle {r : Nat} {b : Block} (hon : b.officeOn r = true) (hlive : (b.office r).standby.live = true)
    (heligible : (b.office r).standby.eligible = true) (hidle : b.inJob = false) (hnone : b.ho.mail.outst = []) :
    plannedSwap r b = writeServing r (!(b.office r).serving) (b.modOffice r (fun o => { o with serving := !o.serving, swapWait := false })) := by
  have houtst : (writeServing r (!(b.office r).serving) (b.modOffice r (fun o => { o with serving := !o.serving, swapWait := false }))).ho.mail.outst = [] := by
    rw [(frame_writeServing r _ (.refl [.routers, .nodes] _) (subs_of rfl)).get .mail (by decide)]
    exact hnone
  unfold plannedSwap
  dsimp only
  rw [if_neg (by simp [hon, hlive, heligible, hidle]), if_neg (c := b.inJob = true) (by simp [hidle]), houtst]
  exact if_neg Bool.false_ne_true

theorem officeOn_up {r : Nat} {b : Block} (h : b.officeOn r = true) : (b.office r).up = true := by
  unfold Block.officeOn at h
  exact (Bool.and_eq_true_iff.1 h).1

/-! ### Router rounds, events and hours -/

/-- A router that passes its round is followed by the next. -/
theorem routerRound_passed {r k : Nat} {b : Block} (hon : b.officeWorks r = true) (hround : b.ho.policy.routerRound = true)
    (hfilled : (b.office r).st.filled = true) (hnew : (b.office r).st.rounded = false) (hheld : b.tEndHeld = false)
    (hnext : b.roundRouter r = some k) (hnone : b.noneFor r k = true) :
    (routerRound r true b).office r = { b.office r with round := (k + 1) % 128, st := { (b.office r).st with rounded := true } } := by
  unfold routerRound
  dsimp only
  rw [if_neg (by simp [hon, hround, hfilled, hnew, hheld]), hnext]
  dsimp only
  rw [if_neg (not_not_intro hnone), if_pos rfl, if_pos rfl]
  split
  · rw [Block.modOffice_self, advTo_keep_office]
  · rw [advTo_keep_office, Block.office_same ((frame_setAround _ _ _ _ (.refl [.post, .routers] _) (subs_of rfl)).get .offices (by decide)),
      Block.office_same ((frame_copyTables _ (.refl [.routers, .nodes] _) (subs_of rfl)).get .offices (by decide)), Block.modOffice_self, advTo_keep_office]

theorem eventForward_due {r : Nat} {e : EvHold} {l : List EvHold} {b : Block} (hon : b.officeOn r = true) (hruns : b.hoRuns = true)
    (hevents : (b.office r).events = e :: l) : eventForward r b =
      forEach ((e :: l).filter (fun x => decide ((b.office r).fwdAt x ≤
        (advTo (l.foldl (fun m x => min m ((b.office r).fwdAt x)) ((b.office r).fwdAt e)) b).now))) (forwardOne r)
      (advTo (l.foldl (fun m x => min m ((b.office r).fwdAt x)) ((b.office r).fwdAt e)) b) := by
  unfold eventForward
  dsimp only
  rw [if_neg (by simp [hon, hruns]), hevents]

/-- The hours of a core that are charged, those from hour h on. -/
def CoreHist.chargedFrom (h : Nat) (x : CoreHist) : CoreHist := { x with charged := x.charged.filter (fun k => decide (hourOf h ≤ k)) }

/-- A clean hour inside a job. -/
theorem cleanHour_inJob {b : Block} (hruns : b.hoRuns = true) (hjob : b.inJob = true) : cleanHour b =
    (((advTo b.nextHour b).modPm (fun p => { p with hourAt := b.nextHour })).modLedger (fun l => { l with
      hist := tmap (fun _ x => CoreHist.chargedFrom b.nextHour x) l.hist })).modJob (fun j => { j with
        hourDue := j.hourDue ++ (advTo b.nextHour b).presentCores.filter ((advTo b.nextHour b).earns b.nextHour) }) := by
  unfold cleanHour
  rw [if_neg (not_not_intro hruns)]
  refine if_pos (c := Block.inJob _ = true) ?_
  show (advTo b.nextHour b).inJob = true
  rw [Block.inJob_same (advTo_keeps_job ..), hjob]

theorem chargedFrom_pips (h : Nat) (t : Tab CoreHist) (i : Nat) :
    ((tget (tmap (fun _ x => CoreHist.chargedFrom h x) t) i).getD {}).pips = ((tget t i).getD {}).pips := by
  rw [tget_tmap]
  cases tget t i <;> rfl

/-- Settles O38. -/
theorem officeDutyCommands : Obligations.OfficeDutyCommands := by
  refine ⟨fun s r u t w hr hon hfree hnext => ?place, fun s r u n hr hon hfree hnone hq hsweep hnext => ?sweep,
    fun s r hr hon hlive heligible hfree => ?period, fun s r hr htesting => ?passed, fun s r hr htesting => ?failed, fun s r hr hcopying => ?copied,
    fun s r hr hon hlive heligible hidle hnone => ?swap, fun s r hr hon => ?primary, fun s r k hr hon hround hfilled hnew hheld hnext hnone => ?round,
    fun s r e l hr hon hruns hevents => ?event, fun s hr hruns hjob => ?hour⟩
  case place => exact act_after hr (testUnitPlace_next hon hfree hnext)
  case sweep => exact act_eq hr (testUnitPlace_sweep hon hfree hnone hq hsweep hnext) rfl rfl rfl rfl
  case period =>
    obtain ⟨n, f, hf, hoffice⟩ := standbyPeriod_due hon hlive heligible hfree
    refine ⟨_, act_after hr rfl, ?_⟩
    rw [State.after_blk, held_office, hoffice]
    obtain ⟨htesting, heligible'⟩ := hf (s.blk.office r.toNat).standby
    have hstandby := Office.modStandby_standby f (s.blk.office r.toNat)
    exact ⟨(congrArg Member.testing hstandby).trans htesting, (congrArg Member.eligible hstandby).trans heligible', Office.modStandby_serving ..⟩
  case passed =>
    refine ⟨_, act_after hr (standbyTestDone_passed htesting), ?_⟩
    rw [State.after_blk, held_office, Block.modOffice_self, Office.modStandby_standby]
    exact ⟨rfl, rfl, after_frame (modOffice_frame _ _ _) rfl⟩
  case failed =>
    refine ⟨_, act_after hr (standbyTestDone_failed htesting), ?_⟩
    rw [State.after_blk, held_office, postEvent_keep_office, Block.modOffice_self, Office.modStandby_standby]
    exact ⟨rfl, rfl, rfl, after_frame (frame_postEvent _ _ _ (frame_modOffice _ _ (.refl [.dbg, .mgmt, .mail, .offices] _) (subs_of rfl)) (subs_of rfl)) rfl⟩
  case copied =>
    refine ⟨_, act_after (f := standbyCopyDone r.toNat) hr (if_pos hcopying), ?_⟩
    rw [State.after_blk, held_office, Block.modOffice_self]
    have hstandby := Office.modStandby_standby (fun m => { m with copying := false, eligible := true, copy := none }) (s.blk.office r.toNat)
    exact ⟨congrArg Member.copying hstandby, congrArg Member.eligible hstandby, rfl, after_frame (modOffice_frame _ _ _) rfl⟩
  case swap =>
    refine ⟨_, act_after hr (plannedSwap_idle hon hlive heligible hidle hnone), ?_⟩
    rw [State.after_blk, held_office, writeServing_office, Block.modOffice_self]
    exact ⟨rfl, rfl⟩
  case primary => exact act_after hr (if_pos (officeOn_up hon))
  case round =>
    refine ⟨_, act_after hr rfl, ?_⟩
    rw [State.after_blk, held_office, routerRound_passed hon hround hfilled hnew hheld hnext hnone]
    exact ⟨rfl, rfl⟩
  case event => exact act_after hr (eventForward_due hon hruns hevents)
  case hour =>
    refine ⟨_, act_after hr (cleanHour_inJob hruns hjob), rfl, ?_, fun i => ?_⟩
    · rw [← advTo_keeps_job s.blk.nextHour s.blk]
      rfl
    · rw [State.after_blk, held_hist]
      refine (chargedFrom_pips _ _ i).trans ?_
      rw [Block.modPm_ledger, advTo_keeps_ledger]
      rfl

end Sys2Proof.Machine
end

section
/-! Frames, seams, terminals, returns, congestion samples and table swaps (R22, R283, R287, R292, R294 to R312). -/

namespace Sys2Proof.Machine

open Sys2Proof

/-! ### Frames and seams -/

/-- A router that is not ahead of its region has its turn. -/
theorem frameDue_of_least {k : Nat} {b : Block} (hleast : ∀ j, 128 * (k / 128) ≤ j → j < 128 * (k / 128) + 128 → (b.router j).lost = false →
    (b.router k).frame ≤ (b.router j).frame) : b.frameDue false k = true := by
  unfold Block.frameDue
  rw [Bool.false_or, List.all_eq_true]
  intro j hj
  obtain ⟨i, hi, rfl⟩ := List.mem_map.1 hj
  have hi' := List.mem_range.1 hi
  cases hlost : (b.router (k / 128 * 128 + i)).lost with
  | true => rfl
  | false => exact decide_eq_true (hleast _ (by omega) (by omega) hlost)

theorem routerFrame_router {u : Nat} {d : Bool} {b : Block} (hkind : unitKind u = 1) (hix : unitIndex u < 16384)
    (hpow : (b.office (unitIndex u / 128)).powered = true) (hup : (b.router (unitIndex u)).lost = false) (hdue : b.frameDue false (unitIndex u) = true) :
    routerFrame u d b = frameOf false (unitIndex u) d b := by
  unfold routerFrame
  rw [hkind]
  refine if_neg ?_
  rintro (⟨h, _⟩ | h | h | h | h)
  · exact h rfl
  · exact Nat.not_le_of_gt hix h
  · exact h hpow
  · exact Bool.false_ne_true (hup.symm.trans h)
  · exact h hdue

theorem routerFrame_node {u : Nat} {d : Bool} {b : Block} (hkind : unitKind u = 2) (hix : unitIndex u < 16384)
    (hpow : (b.office (unitIndex u)).powered = true) (hup : (b.node (unitIndex u)).lost = false) :
    routerFrame u d b = frameOf true (unitIndex u) d b := by
  unfold routerFrame
  rw [hkind]
  refine if_neg ?_
  rintro (⟨_, h, _⟩ | h | h | h | h)
  · exact h rfl
  · exact Nat.not_le_of_gt hix h
  · exact h hpow
  · exact Bool.false_ne_true (hup.symm.trans h)
  · exact h rfl

theorem seamDeliver_free {u dir : Nat} {x : SeamSlot} {r : List SeamSlot} {b : Block} (hkind : unitKind u = 2)
    (hseam : (tget (b.node (unitIndex u)).seams dir).getD [] = x :: r) (hfree : tget (b.node (torusStep (unitIndex u) dir)).inp (opp dir) = none) :
    seamDeliver u dir b = (b.modNode (unitIndex u) (fun y => { y with seams := tset y.seams dir r })).modNode
      (torusStep (unitIndex u) dir) (fun y => { y with inp := tset y.inp (opp dir) (ageBy x.frames x.pkt) }) := by
  unfold seamDeliver
  rw [hkind]
  dsimp only
  rw [if_neg (show ¬ (2 = 3) by decide), if_neg, hseam]
  rintro (⟨h, _⟩ | h)
  · exact h rfl
  · rw [hfree] at h
    exact Bool.false_ne_true h

/-! ### Terminals -/

theorem core_unit (core : CoreIdx) : (core.setWidth 24).toNat = core.toNat := by
  rw [BitVec.toNat_setWidth]
  omega

theorem unitKind_core (core : CoreIdx) : unitKind core.toNat = 0 := by
  unfold unitKind
  omega

theorem unitIndex_core (core : CoreIdx) : unitIndex core.toNat = core.toNat := by
  unfold unitIndex
  omega

theorem Block.termOf_core (core : CoreIdx) (b : Block) : b.termOf core.toNat = core.toNat := by
  unfold Block.termOf
  rw [unitKind_core]
  exact if_neg (by decide)

theorem Block.termOn_core (core : CoreIdx) (b : Block) : b.termOn core.toNat = (b.core core.toNat).porN := by
  unfold Block.termOn
  rw [unitKind_core, unitIndex_core]
  rfl

theorem Block.net_core (core : CoreIdx) (b : Block) : b.net core.toNat = (b.core core.toNat).net := by
  unfold Block.net
  rw [unitKind_core, unitIndex_core]
  rfl

theorem Block.modNet_core (core : CoreIdx) (f : NetEnd → NetEnd) (b : Block) :
    b.modNet core.toNat f = b.modCore core.toNat (fun c => { c with net := f c.net }) := by
  unfold Block.modNet
  rw [unitKind_core, unitIndex_core]
  rfl

/-- A descriptor for the epoch of a core is not returned. -/
theorem returnCode_desc {core : CoreIdx} {p : Packet} {b : Block} (hsvc : hSvc p.hdr = 0x02) (hepoch : hEpoch p.hdr = (b.net core.toNat).epoch.toNat) :
    b.returnCode core.toNat false p = none := by
  unfold Block.returnCode
  dsimp only
  rw [unitKind_core, hsvc, if_neg (by decide), if_neg (fun h => h.2.2.2 hepoch), if_neg (by simp), if_neg Bool.false_ne_true, if_neg (by simp)]

theorem deadPkt_inJob {p : Packet} {b : Block} (hsvc : hSvc p.hdr ≠ 0x06) (hman : b.ho.job.man.isSome = true) : b.deadPkt p = false := by
  unfold Block.deadPkt
  rw [decide_eq_false hsvc, Option.isNone_eq_false_iff.2 hman]
  simp

/-- A shadow descriptor is stored where it says. -/
theorem descArrive_one {i : Nat} {f : Flit} {b : Block} (hkind : fld f.toNat 52 3 ≠ 1) : descArrive i [f] b =
    b.modCore i (fun c => { c with scr := { c.scr with desc := tset c.scr.desc (fld f.toNat 64 8) (BitVec.ofNat 64 f.toNat) } }) := by
  unfold descArrive
  dsimp only
  rw [List.filter_cons_of_pos (by simp [hkind]), List.filter_nil]
  rfl

/-- A packet that a core's terminal takes is counted. -/
theorem terminalReceive_desc {core : CoreIdx} {p : Packet} {rest : List Packet} {f : Flit} {b : Block} (hon : (b.core core.toNat).porN = true)
    (htake : takeRx (fun p => decide (hPtype p.hdr ≠ 3) && !ownRow core.toNat p) (b.net core.toNat).rx = some (p, rest)) (hgood : e2eBad p = none)
    (htype : hPtype p.hdr = 0) (hsvc : hSvc p.hdr = 0x02) (hepoch : hEpoch p.hdr = (b.net core.toNat).epoch.toNat) (hman : b.ho.job.man.isSome = true)
    (hone : p.pl = [f]) (hkind : fld f.toNat 52 3 ≠ 1) :
    terminalReceive core.toNat false b =
      (bumpCtr core.toNat 0x0013 1 (b.modNet core.toNat (fun e => { e with rx := rest }))).modCore core.toNat (fun c => { c with
        scr := { c.scr with desc := tset c.scr.desc (fld f.toNat 64 8) (BitVec.ofNat 64 f.toNat) } }) := by
  have hepoch' : hEpoch p.hdr = ((bumpCtr core.toNat 0x0013 1 (b.modNet core.toNat (fun e => { e with rx := rest }))).net core.toNat).epoch.toNat := by
    rw [hepoch, Block.net_core, Block.net_core, bumpCtr, Block.modCore_self, Block.modNet_core, Block.modCore_self]
  have hman' : (bumpCtr core.toNat 0x0013 1 (b.modNet core.toNat (fun e => { e with rx := rest }))).ho.job.man.isSome = true := by
    rw [Block.modNet_core]
    exact hman
  unfold terminalReceive
  dsimp only
  rw [Block.termOf_core, if_neg (by rw [Block.termOn_core]; exact not_not_intro hon), htake]
  dsimp only
  rw [hgood, if_pos (unitKind_core core), unitIndex_core]
  dsimp only
  rw [if_neg (by rw [htype]; decide), returnCode_desc hsvc hepoch']
  dsimp only
  rw [if_neg (by rw [htype]; decide)]
  unfold deliver
  dsimp only
  rw [if_neg (by rw [deadPkt_inJob (by rw [hsvc]; decide) hman']; exact Bool.false_ne_true), unitKind_core, unitIndex_core]
  refine (if_pos hsvc).trans ?_
  rw [hone, descArrive_one hkind]

theorem returnCode_unimplemented {u : Nat} {full : Bool} {p : Packet} {b : Block} (h : implemented (unitKind u) (hSvc p.hdr) = false) :
    b.returnCode u full p = some 3 := if_pos (by simp [h])

/-- A packet of a service that a terminal lacks is returned. -/
theorem terminalReceive_unimplemented {u : Nat} {full : Bool} {p : Packet} {rest : List Packet} {b : Block} (hon : b.termOn (b.termOf u) = true)
    (hkind : unitKind (b.termOf u) ≠ 0)
    (htake : takeRx (fun p => decide (hPtype p.hdr ≠ 3) && !ownRow (b.termOf u) p) (b.net (b.termOf u)).rx = some (p, rest)) (hgood : e2eBad p = none)
    (htype : hPtype p.hdr ≠ 2) (himpl : implemented (unitKind (b.termOf u)) (hSvc p.hdr) = false) :
    terminalReceive u full b = returnPkt (b.termOf u) p 3 [] (b.modNet (b.termOf u) (fun e => { e with rx := rest })) := by
  unfold terminalReceive
  dsimp only
  rw [if_neg (not_not_intro hon), htake]
  dsimp only
  rw [hgood, if_neg hkind]
  dsimp only
  rw [if_neg htype, returnCode_unimplemented himpl]
  rfl

/-- A returned packet that no held packet answers to is lost. -/
theorem returnedReceive_unheld {core : CoreIdx} {p : Packet} {rest : List Packet} {b : Block} (hon : (b.core core.toNat).porN = true)
    (htake : takeRx (fun p => decide (hPtype p.hdr = 3)) (b.net core.toNat).rx = some (p, rest)) (hgood : e2eBad p = none)
    (hnone : (b.net core.toNat).held.find? (heldFor (p.pl.getD 0 0)) = none) :
    returnedReceive core.toNat b = unitEvent core.toNat evReturnLost (bumpCtr core.toNat 0x0014 1
      (bumpCtr core.toNat 0x0013 1 (b.modNet core.toNat (fun e => { e with rx := rest })))) := by
  have hheld : ((bumpCtr core.toNat 0x0014 1 (bumpCtr core.toNat 0x0013 1 (b.modNet core.toNat (fun e => { e with rx := rest })))).net core.toNat).held =
      (b.net core.toNat).held := by
    rw [Block.net_core, Block.net_core, bumpCtr, Block.modCore_self, bumpCtr, Block.modCore_self, Block.modNet_core, Block.modCore_self]
  unfold returnedReceive
  dsimp only
  rw [Block.termOf_core, if_neg (by rw [Block.termOn_core]; exact not_not_intro hon), htake]
  dsimp only
  rw [hgood, if_pos (unitKind_core core), unitIndex_core]
  dsimp only
  rw [hheld, hnone]

theorem resendTimer_waiting {u : Nat} {x : Held} {b : Block} (hfind : (b.net (b.termOf u)).held.find? (·.waiting) = some x)
    (hon : b.termOn (b.termOf u) = true) : resendTimer u b = enqueue (b.termOf u) x.pkt (b.modNet (b.termOf u) (fun e => { e with
      held := e.held.map (fun y => if y = x then { y with waiting := false } else y) })) := by
  unfold resendTimer
  dsimp only
  rw [hfind]
  exact if_neg (not_not_intro hon)

/-! ### The two lookups -/

theorem lookupDiffers_first {u i : Nat} {b : Block} (h : (b.net u).lookup1 = false) :
    lookupDiffers u i b = b.modNet u (fun e => { e with lookup1 := true }) := if_pos (by simp [h])

theorem lookupDiffers_headOffice {i : Nat} {b : Block} (h : (b.net unitHO).lookup1 = true) : (lookupDiffers unitHO i b).svc.state = .safe := by
  unfold lookupDiffers
  rw [if_neg (not_not_intro h)]
  exact enterSafe_state ..

/-- The second difference fails the member of the Office. -/
theorem lookupDiffers_member {m i : Nat} {b : Block} (hm : m < 256) (h : (b.net (unitMember 0 m)).lookup1 = true) :
    ((lookupDiffers (unitMember 0 m) i b).office (m / 2)).failed (decide (m % 2 = 1)) = true := by
  have hkind : unitKind (unitMember 0 m) = 3 := by
    unfold unitKind unitMember
    omega
  have hix : unitIndex (unitMember 0 m) = m := by
    unfold unitIndex unitMember
    omega
  unfold lookupDiffers
  rw [if_neg (not_not_intro h)]
  dsimp only
  rw [hkind, hix]
  exact failMember_failed ..

/-! ### Congestion samples and maps -/

section
variable {α : Type} (xs : List α) (key : α → Nat) (b : Block)

theorem forEach_modRouter_office (f : α → Router → Router) (r : Nat) :
    (forEach xs (fun k b => b.modRouter (key k) (f k)) b).office r = b.office r :=
  forEach_keep (fun b => b.office r) (fun k b => b.modRouter (key k) (f k)) (fun _ _ => rfl) xs b

theorem forEach_modOffice_post (f : α → Office → Office) : (forEach xs (fun k b => b.modOffice (key k) (f k)) b).ho.post = b.ho.post :=
  forEach_keep (fun b => b.ho.post) (fun k b => b.modOffice (key k) (f k)) (fun _ _ => rfl) xs b

end

theorem congestionSample_offered {r k : Nat} {b : Block} (hpow : (b.office r).powered = true) (hup : (b.router (128 * r + k)).lost = false)
    (hsome : (b.router (128 * r + k)).offered ≠ 0) : congestionSample r k b =
      unicast (unitRouter (128 * r + k)) (unitOffice r) 0x12
        [BitVec.ofNat 128 (min 15 (16 * (b.router (128 * r + k)).busy / (b.router (128 * r + k)).offered) +
          16 * min 15 (log2Up (1 + (b.router (128 * r + k)).defl)))]
        ((advTo (sampleTime b.now) b).modRouter (128 * r + k) (fun x => { x with busy := 0, offered := 0, defl := 0 })) := by
  unfold congestionSample
  dsimp only
  rw [if_neg (by simp [hpow, hup]), if_neg hsome]

/-- A packet that a unit other than a core sends changes that unit's network end alone. -/
theorem sendPktL_keep {β : Type} (g : Block → β) {src : Nat} (hkind : unitKind src ≠ 0) (hnet : ∀ f b, g (b.modNet src f) = g b) (lane : Nat)
    (fcrc : BitVec 32) (dst ptype svc ssvc epoch : Nat) (fleet : Bool) (pl : List Flit) (b : Block) :
    g (sendPktL lane fcrc src dst ptype svc ssvc epoch fleet pl b) = g b := by
  unfold sendPktL
  split
  · dsimp only
    rw [sendKept, enqueue, if_pos hkind, hnet, hnet, hnet]
  · rfl

theorem unitKind_office {r : Nat} (hr : r < 2 ^ 20) : unitKind (unitOffice r) = 2 := by
  unfold unitKind unitOffice
  omega

/-- An Office apart from the network ends of its members. -/
def Office.offNet (o : Office) : Office := { o with memA := { o.memA with net := {} }, memB := { o.memB with net := {} } }

theorem Office.maps_of_offNet {o p : Office} (h : o.offNet = p.offNet) : o.server.maps = p.server.maps := by
  have hserving : o.serving = p.serving := (congrArg (fun o => o.serving) h :)
  have hA : o.memA.maps = p.memA.maps := (congrArg (fun o => o.memA.maps) h :)
  have hB : o.memB.maps = p.memB.maps := (congrArg (fun o => o.memB.maps) h :)
  unfold Office.server
  rw [hserving]
  split
  · exact hB
  · exact hA

theorem modNet_officeOffNet (u : Nat) (f : NetEnd → NetEnd) (b : Block) (r : Nat) : ((b.modNet u f).office r).offNet = (b.office r).offNet := by
  have hoffice : ∀ k (g : Office → Office), (∀ o, (g o).offNet = o.offNet) → ((b.modOffice k g).office r).offNet = (b.office r).offNet := by
    intro k g hg
    by_cases h : r = k
    · rw [h, Block.modOffice_self, hg]
    · rw [Block.modOffice_ne _ _ h]
  unfold Block.modNet
  split
  case h_3 =>
    refine hoffice _ _ fun o => ?_
    unfold Office.modServer
    split <;> rfl
  case h_4 =>
    refine hoffice _ _ fun o => ?_
    split <;> rfl
  all_goals rfl

theorem officeSends_offNet {r : Nat} (hr : r < 2 ^ 20) (dst svc : Nat) (pl : List Flit) (b : Block) (q : Nat) :
    ((unicast (unitOffice r) dst svc pl b).office q).offNet = (b.office q).offNet :=
  sendPktL_keep (fun b => (b.office q).offNet) (by rw [unitKind_office hr]; decide) (fun f b => modNet_officeOffNet _ f b q) ..

/-- An Office whose region's map, all routers sampled, has been sent. -/
def Office.mapSent (o : Office) : Prop := o.server.maps = 8 ∧ o.samples = [] ∧ o.returned = 0 ∧ o.discards = 0

theorem Office.mapSent_of_offNet {o p : Office} (h : o.offNet = p.offNet) (hp : p.mapSent) : o.mapSent := by
  obtain ⟨hmaps, hsamples, hreturned, hdiscards⟩ := hp
  exact ⟨(Office.maps_of_offNet h).trans hmaps, (congrArg (fun o => o.samples) h :).trans hsamples, (congrArg (fun o => o.returned) h :).trans hreturned,
    (congrArg (fun o => o.discards) h :).trans hdiscards⟩

theorem Office.modServer_mapSent {f : Member → Member} {o : Office} (hf : ∀ m, (f m).maps = 8) (hsamples : o.samples = []) (hreturned : o.returned = 0)
    (hdiscards : o.discards = 0) : (o.modServer f).mapSent := by
  cases h : o.serving <;> simp [Office.mapSent, Office.modServer, Office.server, h, hf, hsamples, hreturned, hdiscards]

theorem regionMapSend_mapSent {r : Nat} {b : Block} (hr : r < 2 ^ 20) (hpow : (b.office r).powered = true) (hdead : (b.office r).dead = false)
    (hmaps : (b.office r).server.maps = 8)
    (hall : ((List.range 128).all (fun k => (b.router (128 * r + k)).lost || (tget (b.office r).samples k).isSome)) = true) :
    ((regionMapSend r b).office r).mapSent := by
  have hall' : ((List.range 128).all (fun k => ((advTo (sampleTime b.now) b).router (128 * r + k)).lost || (tget (b.office r).samples k).isSome)) = true := by
    simp only [advTo_keep_router]
    exact hall
  have hmin : min 8 ((b.office r).server.maps + 1) = 8 := by omega
  unfold regionMapSend
  dsimp only
  rw [if_neg (by simp [hpow, hdead]), if_pos hall', hmin]
  refine Office.mapSent_of_offNet ((officeSends_offNet hr ..).trans ((officeSends_offNet hr ..).trans (officeSends_offNet hr ..))) ?_
  rw [forEach_modRouter_office, modServing, Block.modOffice_self, Block.modOffice_self]
  exact Office.modServer_mapSent (fun _ => rfl) rfl rfl rfl

/-- The map of the wafer is kept, and every Office gets the most that a map tells of each region. -/
theorem waferMapBroadcast_maps {b : Block} (hruns : b.hoRuns = true) (hfree : b.dbg.exporting = none) :
    (waferMapBroadcast b).ho.post.waferMaps = ((advTo (roundUp b.now 100000) b).waferMap :: b.ho.post.waferMaps).take 256 := by
  unfold waferMapBroadcast
  rw [if_neg (not_not_intro hruns)]
  dsimp only
  rw [forEach_modOffice_post, advTo_keeps_dbg, if_neg (by simp [hfree])]
  show (_ :: (advTo _ b).ho.post.waferMaps).take 256 = _
  rw [advTo_ho]

/-! ### Table swaps -/

theorem tableSwapStart_free {r : Nat} {around : BitVec 128} {away : List Nat} {b : Block} (hruns : b.hoRuns = true) (hpop : b.populated r = true)
    (hfree : b.ho.post.swapAt = none) : tableSwapStart r around away b = beginSwap r around away b :=
  (if_neg (by simp [hruns, hpop])).trans (if_neg (by simp [hfree]))

theorem tableSwapStart_busy {r a : Nat} {around : BitVec 128} {away : List Nat} {b : Block} (hruns : b.hoRuns = true) (hpop : b.populated r = true)
    (hbusy : b.ho.post.swapAt = some a) : tableSwapStart r around away b = b.modPost (fun p => { p with swapq := p.swapq ++ [(r, around)] }) :=
  (if_neg (by simp [hruns, hpop])).trans (if_pos (by simp [hbusy]))

/-- A version that retires with no swap queued leaves none under way. -/
theorem tableVersionRetire_last {a : Nat} {b : Block} (hat : b.ho.post.swapAt = some a) (hq : b.ho.post.swapq = []) :
    (tableVersionRetire b).ho.post.ver = (!b.ho.post.ver) ∧ (tableVersionRetire b).ho.post.swapAt = none := by
  unfold tableVersionRetire
  rw [hat]
  dsimp only
  rw [advTo_ho, hq]
  exact ⟨rfl, rfl⟩

theorem tableVersionRetire_frame {a : Nat} {b : Block} (hat : b.ho.post.swapAt = some a) (hq : b.ho.post.swapq = []) :
    Frame [.pm, .letters, .routers, .nodes, .post] b (tableVersionRetire b) := by
  unfold tableVersionRetire
  rw [hat]
  dsimp only
  rw [advTo_ho, hq]
  exact frame_modPost _ (frame_allHops _ (frame_advTo _ (.refl _ b) (subs_of rfl)) (subs_of rfl)) (subs_of rfl)

theorem stagedActivation_whole {u : Nat} {st : Stage} {l : List Stage} {b : Block} (hstage : b.stagesOf u = st :: l) (hwhole : stageWhole st = true) :
    stagedActivation u b = dropStage u st.stageId (applyStage u st (advTo st.act b)) := by
  unfold stagedActivation
  rw [hstage]
  dsimp only
  rw [if_pos hwhole]

theorem stagedActivation_partial {u : Nat} {st : Stage} {l : List Stage} {b : Block} (hstage : b.stagesOf u = st :: l) (hwhole : stageWhole st = false) :
    stagedActivation u b = dropStage u st.stageId (unitEvent u evStageIncomplete (advTo st.act b)) := by
  unfold stagedActivation
  rw [hstage]
  dsimp only
  rw [if_neg (by simp [hwhole])]

theorem stageAckTimeout_due {u t : Nat} {x : StageSend} {b : Block}
    (hfind : (b.net u).sends.find? (fun x => x.missing.any (fun m => decide (m.1 = t) && decide (m.2 < 4))) = some x) :
    stageAckTimeout u t b = sendPkt u t 1 x.svc x.svc 0 false (stageFlit x.act x.stageId :: x.content.take 3)
      ((advTo (x.sentAt + 30000) b).modNet u (fun e => { e with sends := e.sends.map (fun y =>
        if y.stageId = x.stageId then { y with
          sentAt := (advTo (x.sentAt + 30000) b).now,
          missing := y.missing.map (fun m => if m.1 = t then (t, m.2 + 1) else m) } else y) })) := by
  unfold stageAckTimeout
  rw [hfind]

/-! ### Lost routers -/

section
variable (k : Nat)

theorem modRouter_lost {j : Nat} {f : Router → Router} (hf : ∀ x, (f x).lost = x.lost) (b : Block) : ((b.modRouter j f).router k).lost = (b.router k).lost := by
  by_cases h : k = j
  · rw [h, Block.modRouter_self, hf]
  · rw [Block.modRouter_ne _ _ h]

theorem modNet_lost (u : Nat) (f : NetEnd → NetEnd) (b : Block) : ((b.modNet u f).router k).lost = (b.router k).lost := by
  unfold Block.modNet
  split
  case h_2 => exact modRouter_lost k (f := fun c => { c with net := f c.net }) (fun _ => rfl) b
  all_goals rfl

theorem copyTables_lost (v : Bool) (b : Block) : ((copyTables v b).router k).lost = (b.router k).lost := by
  have hget : ∀ f : Router → Router, (b.allHops f).router k = ((tget b.units.routers k).map f).getD {} := by
    intro f
    show (tget (tmap (fun _ x => f x) b.units.routers) k).getD {} = _
    rw [tget_tmap]
  unfold copyTables
  rw [hget]
  unfold Block.router
  cases tget b.units.routers k with
  | none => rfl
  | some x => exact Router.setDirs_lost ..

theorem enqueue_lost (u : Nat) (p : Packet) (b : Block) : ((enqueue u p b).router k).lost = (b.router k).lost := by
  unfold enqueue
  split
  · exact modNet_lost k u _ b
  · split
    · dsimp only
      split <;> simp only [lbEvent_keep_router]
    · rw [bumpCtr_keep_router, modNet_lost]

theorem sendPkt_lost (src dst ptype svc ssvc epoch : Nat) (fleet : Bool) (pl : List Flit) (b : Block) :
    ((sendPkt src dst ptype svc ssvc epoch fleet pl b).router k).lost = (b.router k).lost := by
  unfold sendPkt sendPktL
  split
  · dsimp only
    rw [sendKept, enqueue_lost, modNet_lost, modNet_lost]
  · rfl

theorem castStage_lost (u act id svc : Nat) (content : List Flit) (targets : List Nat) (b : Block) :
    ((castStage u act id svc content targets b).router k).lost = (b.router k).lost := by
  unfold castStage
  split
  · rfl
  · dsimp only
    rw [forEach_keep (fun b => (b.router k).lost) _ (fun t c => sendPkt_lost ..), modNet_lost]

theorem writeAttach_router (v : Bool) (b : Block) : (writeAttach v b).router k = b.router k :=
  Block.router_same ((frame_writeAttach v (.refl [.post, .offices, .couriers] b) (subs_of rfl)).get .routers (by decide)) k

/-- A swap that begins loses no router. -/
theorem beginSwap_lost (r : Nat) (around : BitVec 128) (away : List Nat) (b : Block) : ((beginSwap r around away b).router k).lost = (b.router k).lost := by
  unfold beginSwap
  dsimp only
  rw [Block.modPost_router, forEach_keep (fun b => (b.router k).lost), writeAttach_router, setAround_lost, copyTables_lost, advTo_keep_router]
  intro q c
  rw [castStage_lost, Block.modNode_router, forEach_keep (fun b => (b.router k).lost)]
  intro j d
  rw [modRouter_lost]
  exact fun _ => rfl

end

/-- A router that is lost stays lost through the swap that follows. -/
theorem routerLost_lost {r k : Nat} {b : Block} (hpop : b.populated r = true) (hup : (b.router (128 * r + k)).lost = false) :
    ((routerLost r k b).router (128 * r + k)).lost = true := by
  unfold routerLost
  rw [if_neg (by simp [hpop, hup])]
  unfold tableSwapStart
  dsimp only
  split
  · exact loseRouter_lost r k b
  · split
    · exact loseRouter_lost r k b
    · rw [beginSwap_lost]
      exact loseRouter_lost r k b

/-- Settles O39. -/
theorem postNetworkCommands : Obligations.PostNetworkCommands := by
  refine ⟨fun s u d hr hkind hix hpow hup hleast => ?router, fun s u d hr hkind hix hpow hup => ?node, fun s u dir x r hr hkind hseam hfree => ?seam,
    fun s core p rest f hr hon htake hgood htype hsvc hepoch hman hfleet hone hk => ?desc,
    fun s u full p rest hr hon hkind htake hgood htype himpl => ?unimplemented, fun b u i h => lookupDiffers_first h,
    fun b i h => lookupDiffers_headOffice h, fun b m i hm h => ?member, fun s core p rest hr hon htake hgood hnone => ?returned,
    fun s u x hr hfind hon => ?resend, fun s r k hr hpow hup hsome => ?sample, fun s r hr hpow hdead hmaps hall => ?map,
    fun s hr hruns hfree => ?wafer, fun s r around away hr hruns hpop hfree => ?swap, fun s r around away a hr hruns hpop hbusy => ?swapQueued,
    fun s a hr hat hq => ?retire, fun s u st l hr hstage hwhole => ?whole, fun s u st l hr hstage hwhole => ?incomplete,
    fun s u tgt x hr hfind => ?ackTimeout, fun s r k hr hpop hup => ?lost⟩
  case router => exact act_after hr (routerFrame_router hkind hix hpow hup (frameDue_of_least hleast))
  case node => exact act_after hr (routerFrame_node hkind hix hpow hup)
  case seam => exact act_eq hr (seamDeliver_free hkind hseam hfree) rfl rfl rfl rfl
  case desc =>
    refine ⟨_, act_after hr ((congrArg (fun u => terminalReceive u false s.blk) (core_unit core)).trans
      (terminalReceive_desc hon htake hgood htype hsvc hepoch hman hone hk)), ?_, rfl⟩
    rw [State.after_blk, held_core, Block.modCore_self]
    exact tget_tset_self ..
  case unimplemented => exact act_after hr (terminalReceive_unimplemented hon hkind htake hgood htype himpl)
  case member =>
    have hfailed := lookupDiffers_member (i := i) hm h
    split
    case isTrue heven =>
      rw [decide_eq_false (by omega)] at hfailed
      exact hfailed
    case isFalse hodd =>
      rw [decide_eq_true (by omega)] at hfailed
      exact hfailed
  case returned =>
    refine act_after hr ((congrArg (fun u => returnedReceive u s.blk) (core_unit core)).trans ?_)
    rw [returnedReceive_unheld hon htake hgood hnone, unitIndex_core]
  case resend => exact act_after hr (resendTimer_waiting hfind hon)
  case sample => exact act_after hr (congestionSample_offered hpow hup hsome)
  case map =>
    obtain ⟨hm, hsamples, hreturned, hdiscards⟩ := regionMapSend_mapSent (by omega) hpow hdead hmaps hall
    exact ⟨_, act_after hr rfl, hm, hsamples, hreturned, hdiscards,
      after_frame (frame_regionMapSend _ (.refl [.pm, .letters, .cores, .offices, .routers, .couriers, .post] _) (subs_of rfl)) rfl⟩
  case wafer =>
    exact ⟨_, act_after hr rfl, waferMapBroadcast_maps hruns hfree,
      after_frame (frame_waferMapBroadcast (.refl [.pm, .letters, .offices, .post] _) (subs_of rfl)) rfl⟩
  case swap => exact act_after hr (tableSwapStart_free hruns hpop hfree)
  case swapQueued => exact act_eq hr (tableSwapStart_busy hruns hpop hbusy) rfl rfl rfl rfl
  case retire =>
    obtain ⟨hver, hdone⟩ := tableVersionRetire_last hat hq
    exact ⟨_, act_after hr rfl, hver, hdone, after_frame (tableVersionRetire_frame hat hq) rfl⟩
  case whole => exact act_after hr (stagedActivation_whole hstage hwhole)
  case incomplete => exact act_after hr (stagedActivation_partial hstage hwhole)
  case ackTimeout => exact act_after hr (stageAckTimeout_due hfind)
  case lost => exact ⟨_, act_after hr rfl, routerLost_lost hpop hup⟩

end Sys2Proof.Machine
end

section
/-! Fleet messages of the Head Office, partners, Bulk streams and collectives (R320 to R336, R384, R385, R396, R399). -/

namespace Sys2Proof.Machine

open Sys2Proof

/-! ### HELLO -/

/-- A HELLO has 32 bytes, and its reserved fields are zero. -/
theorem helloFormed {m : FleetMsg} (hlen : m.bytes.length = 32) (h1 : fld (ofLe m.bytes) 89 3 = 0) (h2 : fld (ofLe m.bytes) 192 64 = 0) :
    ¬ (m.bytes.length ≠ 32 ∨ fld (ofLe m.bytes) 89 3 ≠ 0 ∨ fld (ofLe m.bytes) 192 64 ≠ 0) := by
  simp [hlen, h1, h2]

theorem fleetHello_request {m : FleetMsg} {b : Block} (hruns : b.hoRuns = true) (hfirst : firstOf 0x01 b.ho.fleet.requests = some m)
    (hfinal : m.final = (takeRequest m b).wafer) (hlen : m.bytes.length = 32) (h1 : fld (ofLe m.bytes) 89 3 = 0) (h2 : fld (ofLe m.bytes) 192 64 = 0)
    (hok : (takeRequest m b).helloRefuse m.src (ofLe m.bytes) = 0) :
    fleetHello b = sendReply 0x02 m.orig m.rtag m.reqSeq 0 (partnerHello m.src (ofLe m.bytes) 0 (takeRequest m b)).helloBody
      (partnerHello m.src (ofLe m.bytes) 0 (takeRequest m b)) := by
  unfold fleetHello
  rw [if_neg (not_not_intro hruns), hfirst]
  dsimp only
  rw [if_neg (not_not_intro hfinal), if_neg (helloFormed hlen h1 h2), hok]
  exact if_pos rfl

theorem fleetHello_reply {m : FleetMsg} {b : Block} (hruns : b.hoRuns = true) (hnone : firstOf 0x01 b.ho.fleet.requests = none)
    (hfirst : firstOf 0x02 b.ho.fleet.replies = some m) (hfits : (takeReply m b).replyFits m = true) (hlen : m.bytes.length = 32)
    (h1 : fld (ofLe m.bytes) 89 3 = 0) (h2 : fld (ofLe m.bytes) 192 64 = 0) :
    fleetHello b = partnerHello m.src (ofLe m.bytes) ((takeReply m b).helloRefuse m.src (ofLe m.bytes)) (freeReply m.rtag (takeReply m b)) := by
  unfold fleetHello
  rw [if_neg (not_not_intro hruns), hnone, hfirst]
  dsimp only
  rw [if_neg (not_not_intro hfits), if_neg (helloFormed hlen h1 h2)]

theorem sendHello_ledger (w : Nat) (b : Block) : (sendHello w b).ledger = b.ledger :=
  (frame_sendHello w (.refl [.fleet, .post] b) (subs_of rfl)).get .ledger (by decide)

/-- With no generation held elsewhere, the periodic HELLO goes to the polled partners alone. -/
theorem helloPeriodic_polled {t : Nat} {b : Block} (hruns : b.hoRuns = true) (hat : b.ho.fleet.helloAt = some t) (hnone : b.ledger.gens = []) :
    helloPeriodic b = forEach ((advTo (t + 1000000000) b).modFleet (fun f => { f with
        helloAt := some (advTo (t + 1000000000) b).now })).polled sendHello
      ((advTo (t + 1000000000) b).modFleet (fun f => { f with helloAt := some (advTo (t + 1000000000) b).now })) := by
  unfold helloPeriodic
  rw [if_neg (not_not_intro hruns), hat]
  dsimp only
  rw [forEach_keeps_ledger _ _ _ sendHello_ledger, Block.modFleet_ledger, advTo_keeps_ledger, hnone]
  rfl

/-! ### Partners -/

theorem partnerStale_plain {w : Nat} {p : Partner} {b : Block} (hruns : b.hoRuns = true) (hget : tget b.ho.fleet.partners w = some p)
    (hlive : p.state = 0) (htaking : b.taking = none) (hrerep : b.ho.parcel.rerep = none) :
    partnerStale w b = reselect (hoEvent evPartnerStale [] (modPartner w (fun q => { q with
      state := 1, since := (advTo (p.heard + if b.polled.contains w then 3000000000 else 10000000000) b).now })
        (advTo (p.heard + if b.polled.contains w then 3000000000 else 10000000000) b))) := by
  unfold partnerStale
  rw [hget]
  dsimp only
  rw [if_neg (by simp [hlive, hruns])]
  generalize p.heard + _ = n
  have htaking' : (hoEvent evPartnerStale [] (modPartner w (fun q => { q with state := 1, since := (advTo n b).now }) (advTo n b))).taking = none := by
    unfold Block.taking
    rw [hoEvent_keeps_ledger, modPartner, Block.modFleet_ledger, advTo_keeps_ledger]
    exact htaking
  have hrerep' : (hoEvent evPartnerStale [] (modPartner w (fun q => { q with state := 1, since := (advTo n b).now }) (advTo n b))).ho.parcel.rerep = none := by
    rw [hoEvent_keeps_parcel, modPartner, Block.modFleet_ho_parcel, advTo_keeps_parcel]
    exact hrerep
  rw [htaking']
  dsimp only
  rw [hrerep']

theorem modPartner_congr {w : Nat} {p : Partner} {f g : Partner → Partner} {b : Block} (hget : tget b.ho.fleet.partners w = some p) (h : f p = g p) :
    modPartner w f b = modPartner w g b := by
  have hfleet : ∀ k : Partner → Partner, modPartner w k b = { b with ho := { b.ho with fleet := { b.ho.fleet with
      partners := tset b.ho.fleet.partners w (k p) } } } := by
    intro k
    show Block.modFleet _ _ = _
    unfold Block.modFleet
    dsimp only
    rw [hget]
  rw [hfleet, hfleet, h]

theorem partnerRemove_free {w : Nat} {p : Partner} {b : Block} (hruns : b.hoRuns = true) (hget : tget b.ho.fleet.partners w = some p)
    (hstale : p.state ≠ 0) (hholder : b.isHolder w = false) (hholdee : b.isHoldee w = false) :
    partnerRemove w b = (advTo (p.since + 60000000000) b).modFleet (fun f => { f with partners := tdel f.partners w }) := by
  unfold partnerRemove
  rw [hget]
  exact if_neg (by simp [hstale, hholder, hholdee, hruns])

/-! ### Letters and receipts between wafers -/

theorem placeLetter_room {m : FleetMsg} {b : Block} (hroom : (b.ring (40 + m.src % 16)).inbox.length < 31) :
    placeLetter m b = (true, pump (40 + m.src % 16) 32 (b.modRing (40 + m.src % 16) (fun x => { x with
      inbox := x.inbox ++ [(m.bytes, m.src, m.orig, m.rtag, m.reqSeq)], ltrTail := (x.ltrTail + 1) % 32 }))) := if_neg (by omega)

theorem letterMessage_placed {m : FleetMsg} {b : Block} (hruns : b.hoRuns = true)
    (hfind : b.ho.fleet.requests.find? (fun m => decide (m.mtype = 0x10) && decide (m.final = b.wafer)) = some m) (hok : b.refusedSender m.src = none)
    (hroom : (b.ring (40 + m.src % 16)).inbox.length < 31) :
    letterMessage b = takeRequest m (pump (40 + m.src % 16) 32 (b.modRing (40 + m.src % 16) (fun x => { x with
      inbox := x.inbox ++ [(m.bytes, m.src, m.orig, m.rtag, m.reqSeq)], ltrTail := (x.ltrTail + 1) % 32 }))) := by
  unfold letterMessage
  rw [if_neg (not_not_intro hruns), hfind]
  dsimp only
  rw [hok]
  dsimp only
  rw [placeLetter_room hroom]
  exact if_pos rfl

theorem letterFwd_placed {m : FleetMsg} {l : List FleetMsg} {b : Block} (hruns : b.hoRuns = true) (hfwd : b.ho.fleet.forwards = m :: l)
    (hfinal : m.final = b.wafer) (hok : b.refusedSender m.src = none) (hroom : (b.ring (40 + m.src % 16)).inbox.length < 31) :
    letterFwd b = takeForward m (placeLetter m b).2 := by
  unfold letterFwd
  rw [if_neg (not_not_intro hruns), hfwd]
  dsimp only
  rw [if_neg (not_not_intro hfinal), hok]
  dsimp only
  rw [placeLetter_room hroom]
  exact if_pos rfl

theorem letterFwd_sent {m : FleetMsg} {b : Block} (hruns : b.hoRuns = true) (hfwd : b.ho.fleet.forwards = [])
    (hfind : b.ho.fleet.requests.find? (fun m => decide (m.mtype = 0x10) && decide (m.final ≠ b.wafer)) = some m)
    (hsent : (sendRequestFrom m.src 0x12 m.final m.epoch m.bytes none (some (m.orig, m.rtag, m.reqSeq)) true (takeRequest m b)).1 = 0) :
    letterFwd b = (sendRequestFrom m.src 0x12 m.final m.epoch m.bytes none (some (m.orig, m.rtag, m.reqSeq)) true (takeRequest m b)).2 := by
  unfold letterFwd
  rw [if_neg (not_not_intro hruns), hfwd]
  dsimp only
  rw [hfind]
  exact if_pos hsent

theorem receiptMessage_placed {m : FleetMsg} {x : ReplySlot} {r : Nat} {b : Block} (hruns : b.hoRuns = true)
    (hfind : b.ho.fleet.replies.find? (fun m => decide (m.mtype = 0x11) || decide (m.mtype = 0x13)) = some m) (htype : m.mtype = 0x11)
    (hslot : tget b.ho.fleet.slots m.rtag = some x) (hseq : x.reqSeq = m.reqSeq) (hrelay : x.relay = none) (hring : x.ring = some r) :
    receiptMessage b = pump r 32 (advanceHead r (putReceipt r none m.bytes (freeReply m.rtag (takeReply m b)))) := by
  have hslot' : tget (takeReply m b).ho.fleet.slots m.rtag = some x := hslot
  unfold receiptMessage
  rw [if_neg (not_not_intro hruns), hfind]
  dsimp only
  rw [hslot']
  dsimp only
  rw [if_neg (not_not_intro hseq), hrelay, hring]
  exact if_pos (decide_eq_true htype)

theorem replyTimeout_ring {k r : Nat} {x : ReplySlot} {b : Block} (hslot : tget b.ho.fleet.slots k = some x) (hring : x.ring = some r) :
    replyTimeout k b = localAnswer r 0x0503 0 (freeReply k (advTo (x.since + 10000000) b)) := by
  unfold replyTimeout
  rw [hslot]
  dsimp only
  rw [hring]

theorem replyTimeout_none {k : Nat} {x : ReplySlot} {b : Block} (hslot : tget b.ho.fleet.slots k = some x) (hring : x.ring = none) (hown : x.own = none) :
    replyTimeout k b = freeReply k (advTo (x.since + 10000000) b) := by
  unfold replyTimeout
  rw [hslot]
  dsimp only
  rw [hring, hown]

theorem fragmentTimeout_open {src rs : Nat} {m : FleetMsg} {b : Block}
    (hfind : b.ho.fleet.parts.find? (fun m => decide (m.src = src) && decide (m.reqSeq = rs)) = some m) :
    fragmentTimeout src rs b = giveCredits m ((advTo (m.first + 100000) b).modFleet (fun f => { f with
      parts := f.parts.filter (fun x => !sameMsg m x) })) := by
  unfold fragmentTimeout
  rw [hfind]

theorem ringLetterRelay_sent {r dst : Nat} {l : Letter} {b : Block} (hruns : b.consumes = true) (haway : (b.ring r).away = some dst)
    (hnew : (b.ring r).relayed = false) (hhead : b.headLetter r = some l)
    (hsent : (sendRequest 0x10 dst l.epoch l.bytes (some r) (ensureLive dst b)).1 = 0) :
    ringLetterRelay r b = (sendRequest 0x10 dst l.epoch l.bytes (some r) (ensureLive dst b)).2.modRing r (fun x => { x with relayed := true }) := by
  unfold ringLetterRelay
  rw [haway, hhead]
  dsimp only
  rw [if_neg (by simp [hruns, hnew])]
  exact if_pos hsent

/-! ### Bulk streams -/

theorem sameMsg_self (m : FleetMsg) : sameMsg m m = true := by simp [sameMsg]

theorem dropOne_length {m : FleetMsg} {l : List FleetMsg} (h : m ∈ l) : (dropOne m l).length + 1 = l.length := by
  induction l with
  | nil => exact absurd h List.not_mem_nil
  | cons x l ih =>
    unfold dropOne
    split
    case isTrue => rfl
    case isFalse hx =>
      have htail : m ∈ l := (List.mem_cons.1 h).resolve_left (fun he => hx (he ▸ sameMsg_self m))
      exact congrArg (· + 1) (ih htail)

/-- A stream with nothing to send sends nothing. -/
theorem pumpBulk_empty {k n : Nat} {st : BulkStream} {b : Block} (hget : tget b.ho.fleet.bulkOut k = some st) (hempty : st.pkts = []) :
    pumpBulk k (n + 1) b = b := by
  unfold pumpBulk
  rw [hget]
  dsimp only
  rw [hempty]

theorem bulkOpen_granted {m : FleetMsg} {k : Nat} {b : Block} (hruns : b.hoRuns = true) (hfirst : firstOf 0x20 b.ho.fleet.requests = some m)
    (hfinal : m.final = (takeRequest m b).wafer) (hfree : freeStream (takeRequest m b).ho.fleet.streams = some k) :
    bulkOpen b = sendReply 0x21 m.orig m.rtag m.reqSeq m.epoch [64] ((takeRequest m b).modFleet (fun f => { f with
      streams := tset f.streams k { peer := m.src, tag := m.reqSeq, credits := 64, since := (takeRequest m b).now } })) := by
  unfold bulkOpen
  rw [if_neg (not_not_intro hruns), hfirst]
  dsimp only
  rw [if_neg (not_not_intro hfinal), hfree]

/-- A grant opens the stream of its request, which has nothing to send yet. -/
theorem bulkGrant_opened {m : FleetMsg} {x : ReplySlot} {k : Nat} {b : Block} (hruns : b.hoRuns = true) (hfirst : firstOf 0x21 b.ho.fleet.replies = some m)
    (hslot : tget b.ho.fleet.slots m.rtag = some x) (hfree : freeStream b.ho.fleet.bulkOut = some k) (hseq : x.reqSeq = m.reqSeq)
    (htype : x.mtype = 0x20) :
    bulkGrant b = (freeReply m.rtag (takeReply m b)).modFleet (fun f => { f with bulkOut := (tset f.bulkOut k
      { peer := m.src, sender := true, tag := m.reqSeq, rtag := m.rtag, epoch := m.epoch, credits := min 64 (rd m.bytes 0 1), since := b.now }) }) := by
  unfold bulkGrant
  rw [if_neg (not_not_intro hruns), hfirst]
  dsimp only
  rw [hslot, hfree]
  dsimp only
  rw [if_neg (by simp [hseq, htype])]
  exact pumpBulk_empty (tget_tset_self ..) rfl

theorem bulkData_taken {m : FleetMsg} {k : Nat} {st : BulkStream} {b : Block} (hruns : b.hoRuns = true) (hfirst : firstOf 0x22 b.ho.fleet.bulk = some m)
    (hstream : streamOf b.ho.fleet.streams m.src m.reqSeq = some (k, st)) :
    bulkData b = sendReply 0x23 m.src m.rtag m.reqSeq m.epoch [1] (b.modFleet (fun f => { f with
      bulk := dropOne m f.bulk
      streams := tset f.streams k { st with pkts := (st.pkts ++ [m.bytes]).drop (st.pkts.length + 1 - 64), since := b.now } })) := by
  have hstream' : streamOf (b.modFleet (fun f => { f with bulk := dropOne m f.bulk })).ho.fleet.streams m.src m.reqSeq = some (k, st) := hstream
  unfold bulkData
  rw [if_neg (not_not_intro hruns), hfirst]
  dsimp only
  rw [hstream']
  rfl

theorem bulkCredit_idle {m : FleetMsg} {k : Nat} {st : BulkStream} {b : Block} (hruns : b.hoRuns = true) (hfirst : firstOf 0x23 b.ho.fleet.replies = some m)
    (hstream : streamOf b.ho.fleet.bulkOut m.src m.reqSeq = some (k, st)) (hempty : st.pkts = []) :
    bulkCredit b = (takeReply m b).modFleet (fun f => { f with
      bulkOut := tset f.bulkOut k { st with credits := min 64 (st.credits + 1), since := b.now } }) := by
  have hstream' : streamOf (takeReply m b).ho.fleet.bulkOut m.src m.reqSeq = some (k, st) := hstream
  unfold bulkCredit
  rw [if_neg (not_not_intro hruns), hfirst]
  dsimp only
  rw [hstream']
  exact pumpBulk_empty (tget_tset_self ..) hempty

theorem bulkCreditTimeout_starved {k : Nat} {st : BulkStream} {b : Block} (hget : tget b.ho.fleet.bulkOut k = some st) (hnone : st.credits = 0) :
    bulkCreditTimeout k b = (advTo (st.since + 10000000) b).modFleet (fun f => { f with bulkOut := tdel f.bulkOut k }) := by
  unfold bulkCreditTimeout
  rw [hget]
  exact if_neg (not_not_intro hnone)

/-! ### Collectives -/

/-- The first contribution of a child to collective 14. -/
theorem collUp_first {m : FleetMsg} {b : Block} (hruns : b.hoRuns = true) (hfirst : firstOf 0x30 b.ho.fleet.colls = some m) (hid : m.rtag = 14)
    (hkid : (childrenOf b.ho.fleet.len b.wafer).any (fun c => decide (c.2 = m.src)) = true) (hended : b.ho.fleet.ended = [])
    (hnone : tget b.ho.fleet.coll 14 = none) :
    collUp b = collCheck 14 ((takeColl m b).modFleet (fun f => { f with
      coll := tset f.coll 14 { op := 0, since := b.now, kids := [(m.src, collVals m)] } })) := by
  have hkid' : (childrenOf (takeColl m b).ho.fleet.len (takeColl m b).wafer).any (fun c => decide (c.2 = m.src)) = true := hkid
  have hended' : (takeColl m b).ho.fleet.ended = [] := hended
  have hnone' : tget (takeColl m b).ho.fleet.coll 14 = none := hnone
  unfold collUp
  rw [if_neg (not_not_intro hruns), hfirst]
  dsimp only
  rw [hid, hkid', hended', hnone']
  rfl

theorem collDown_parent {m : FleetMsg} {port : Nat} {b : Block} (hruns : b.hoRuns = true) (hfirst : firstOf 0x31 b.ho.fleet.colls = some m)
    (hended : b.ho.fleet.ended = []) (hparent : parentOf b.ho.fleet.len b.wafer = some (port, m.src)) :
    collDown b = collResult (m.rtag % 16) (m.rtag / 16 % 8) (collVals m) (takeColl m b) := by
  have hended' : (takeColl m b).ho.fleet.ended = [] := hended
  have hparent' : parentOf (takeColl m b).ho.fleet.len (takeColl m b).wafer = some (port, m.src) := hparent
  unfold collDown
  rw [if_neg (not_not_intro hruns), hfirst]
  dsimp only
  rw [if_neg (by simp [hended', hparent'])]

theorem collTimeout_fleet {id : Nat} {c : Coll} {b : Block} (hget : tget b.ho.fleet.coll id = some c) :
    (collTimeout id b).ho.fleet.coll = tdel b.ho.fleet.coll id ∧ id ∈ (collTimeout id b).ho.fleet.ended := by
  unfold collTimeout
  rw [hget]
  dsimp only
  rw [hoEvent_keeps_fleet, Block.modFleet_ho_fleet, advTo_keeps_fleet]
  refine ⟨rfl, ?_⟩
  dsimp only
  split
  case isTrue h => exact List.contains_iff_mem.1 h
  case isFalse => exact List.mem_append_right _ (List.mem_singleton.2 rfl)

/-- Settles O40. -/
theorem fleetMessageCommands : Obligations.FleetMessageCommands := by
  refine ⟨fun s m hr hruns hfirst hfinal hlen h1 h2 hok => ?hello, fun s m hr hruns hnone hfirst hfits hlen h1 h2 => ?helloReply,
    fun s t hr hruns hat hnone => ?periodic, fun s w p hr hruns hget hlive htaking hrerep => ?stale, fun s w p hr hruns hget hstale hh1 hh2 => ?remove,
    fun s m hr hruns hfind hok hroom => ?letter, fun s m l hr hruns hfwd hfinal hok hroom => ?fwdPlaced, fun s m hr hruns hfwd hfind hsent => ?fwdSent,
    fun s m x r hr hruns hfind htype hslot hseq hrelay hring => ?receipt, fun s k x r hr hslot hring => ?replyRing,
    fun s k x hr hslot hring hown => ?replyNone, fun s src rs m hr hfind => ?fragment, fun s r dst l hr hruns haway hnew hhead hsent => ?relay,
    fun s m k hr hruns hfirst hfinal hfree => ?bulkOpen, fun s m x k hr hruns hfirst hslot hfree hseq htype => ?bulkGrant,
    fun s m k st hr hruns hfirst hstream => ?bulkData, fun m l h => dropOne_length h, fun s m k st hr hruns hfirst hstream hempty => ?bulkCredit,
    fun s k st hr hget hnone => ?bulkTimeout, fun s m hr hruns hfirst hid hkid hended hnone => ?collUp,
    fun s m port hr hruns hfirst hended hparent => ?collDown, fun s id c hr hget => ?collTimeout⟩
  case hello => exact act_after (f := fleetHello) hr (fleetHello_request hruns hfirst hfinal hlen h1 h2 hok)
  case helloReply => exact act_after (f := fleetHello) hr (fleetHello_reply hruns hnone hfirst hfits hlen h1 h2)
  case periodic => exact act_after (f := helloPeriodic) hr (helloPeriodic_polled hruns hat hnone)
  case stale =>
    refine act_after (f := partnerStale w.toNat) hr ((partnerStale_plain hruns hget hlive htaking hrerep).trans ?_)
    refine congrArg (fun c => reselect (hoEvent evPartnerStale [] c)) (modPartner_congr (p := p) ?_ rfl)
    rw [advTo_keeps_fleet]
    exact hget
  case remove => exact act_after hr (partnerRemove_free hruns hget hstale hh1 hh2)
  case letter => exact act_after hr (letterMessage_placed hruns hfind hok hroom)
  case fwdPlaced => exact act_after hr (letterFwd_placed hruns hfwd hfinal hok hroom)
  case fwdSent => exact act_after hr (letterFwd_sent hruns hfwd hfind hsent)
  case receipt => exact act_after hr (receiptMessage_placed hruns hfind htype hslot hseq hrelay hring)
  case replyRing => exact act_after hr (replyTimeout_ring hslot hring)
  case replyNone => exact act_after hr (replyTimeout_none hslot hring hown)
  case fragment => exact act_after hr (fragmentTimeout_open hfind)
  case relay => exact act_after hr (ringLetterRelay_sent hruns haway hnew hhead hsent)
  case bulkOpen => exact act_after hr (bulkOpen_granted hruns hfirst hfinal hfree)
  case bulkGrant =>
    refine ⟨_, act_after hr (bulkGrant_opened hruns hfirst hslot hfree hseq htype), ?_, rfl,
      after_frame (frame_modFleet _ (frame_modFleet _ (frame_modFleet _ (.refl [.fleet] _) (subs_of rfl)) (subs_of rfl)) (subs_of rfl)) rfl⟩
    exact tget_tset_self ..
  case bulkData => exact act_after hr (bulkData_taken hruns hfirst hstream)
  case bulkCredit =>
    refine ⟨_, act_after hr (bulkCredit_idle hruns hfirst hstream hempty), ?_,
      after_frame (frame_modFleet _ (frame_modFleet _ (.refl [.fleet] _) (subs_of rfl)) (subs_of rfl)) rfl⟩
    exact tget_tset_self ..
  case bulkTimeout =>
    refine ⟨_, act_after hr (bulkCreditTimeout_starved hget hnone), ?_, rfl⟩
    rw [State.after_blk, held_ho, Block.modFleet_ho_fleet, advTo_keeps_fleet]
  case collUp => exact act_after hr (collUp_first hruns hfirst hid hkid hended hnone)
  case collDown => exact act_after hr (collDown_parent hruns hfirst hended hparent)
  case collTimeout =>
    obtain ⟨hcoll, hended⟩ := collTimeout_fleet hget
    exact ⟨_, act_after hr rfl, hcoll, hended⟩

end Sys2Proof.Machine
end

section
/-! Parcels and the end of a job (R375 to R393). -/

namespace Sys2Proof.Machine

open Sys2Proof

/-! ### The causes of a stop -/

theorem addCause_causes (c : StopCause) (b : Block) : c ∈ (addCause c b).stop.causes := by
  show c ∈ (if b.stop.causes.contains c then b.stop.causes else b.stop.causes ++ [c])
  split
  · next h => exact List.contains_iff_mem.1 h
  · exact List.mem_append_right _ (List.mem_singleton_self c)

theorem abortLaunch_stop (b : Block) : (abortLaunch b).stop = b.stop := (frame_abortLaunch (.refl [.pm, .ledger, .mgmt, .mail, .job, .post, .cores] b) (subs_of rfl)).get .stop (by decide)

theorem abortLaunch_parcel (b : Block) : (abortLaunch b).ho.parcel = b.ho.parcel :=
  (frame_abortLaunch (.refl [.pm, .ledger, .mgmt, .mail, .job, .post, .cores] b) (subs_of rfl)).get .parcel (by decide)

theorem disarm_causes (b : Block) : (disarm b).stop.causes = b.stop.causes := by
  unfold disarm
  rw [abortLaunch_stop]
  rfl

theorem disarm_parcel (b : Block) : (disarm b).ho.parcel = { b.ho.parcel with stopAt := none } := by
  unfold disarm
  rw [abortLaunch_parcel]
  rfl

theorem pulseStop_causes (b : Block) : (pulseStop b).stop.causes = b.stop.causes := by
  unfold pulseStop
  split <;> rfl

theorem pulseStop_ho (b : Block) : (pulseStop b).ho = b.ho := by
  unfold pulseStop
  split <;> rfl

theorem originate_causes (c : StopCause) (b : Block) : c ∈ (originate c b).stop.causes := by
  unfold originate registerUrgent
  dsimp only
  split
  · rw [disarm_causes]
    exact addCause_causes c b
  · rw [pulseStop_causes, disarm_causes]
    exact addCause_causes c b

theorem originate_parcel (c : StopCause) (b : Block) : (originate c b).ho.parcel = { b.ho.parcel with stopAt := none } := by
  unfold originate registerUrgent
  dsimp only
  split
  · exact disarm_parcel _
  · rw [pulseStop_ho]
    exact disarm_parcel _

theorem clearCause_ne {c d : StopCause} {b : Block} (hne : d ≠ c) (hmem : d ∈ b.stop.causes) : d ∈ (clearCause c b).stop.causes :=
  List.mem_filter.2 ⟨hmem, decide_eq_true hne⟩

/-! ### The moves of a parcel keep what its stop and its root set -/

/-- Its stop and its root are the same, and so is whether it is voted on. -/
structure SameParcel (b c : Block) : Prop where
  stopAt : c.ho.parcel.stopAt = b.ho.parcel.stopAt
  inStop : c.ho.parcel.inStop = b.ho.parcel.inStop
  rooting : c.ho.parcel.rooting = b.ho.parcel.rooting
  root : c.ho.parcel.root = b.ho.parcel.root

theorem SameParcel.refl (b : Block) : SameParcel b b := ⟨rfl, rfl, rfl, rfl⟩

theorem SameParcel.trans {b c d : Block} (h : SameParcel b c) (k : SameParcel c d) : SameParcel b d :=
  ⟨k.stopAt.trans h.stopAt, k.inStop.trans h.inStop, k.rooting.trans h.rooting, k.root.trans h.root⟩

theorem SameParcel.of_parcel {b c : Block} (h : c.ho.parcel = b.ho.parcel) : SameParcel b c :=
  ⟨congrArg (·.stopAt) h, congrArg (·.inStop) h, congrArg (·.rooting) h, congrArg (·.root) h⟩

theorem SameParcel.mod {f : Parcel → Parcel} {b : Block}
    (h : (f b.ho.parcel).stopAt = b.ho.parcel.stopAt ∧ (f b.ho.parcel).inStop = b.ho.parcel.inStop ∧
      (f b.ho.parcel).rooting = b.ho.parcel.rooting ∧ (f b.ho.parcel).root = b.ho.parcel.root) : SameParcel b (b.modParcel f) :=
  ⟨h.1, h.2.1, h.2.2.1, h.2.2.2⟩

theorem SameParcel.forEach {α : Type} {f : α → Block → Block} (h : ∀ a b, SameParcel b (f a b)) (xs : List α) (b : Block) :
    SameParcel b (forEach xs f b) :=
  forEach_inv (P := fun c => SameParcel b c) (fun a _ k => k.trans (h a _)) (.refl b)

theorem issueXfer_sameParcel (n : Nat) (write : Bool) (w addr beats : Nat) (use : XferUse) (data : List (BitVec 2048)) (b : Block) :
    SameParcel b (issueXfer n write w addr beats use data b) :=
  .of_parcel ((frame_issueXfer n write w addr beats use data (.refl [.couriers] b) (subs_of rfl)).get .parcel (by decide))

theorem writeCopy_sameParcel (second : Bool) (mv : Nat) (data : List (BitVec 2048)) (b : Block) : SameParcel b (writeCopy second mv data b) := by
  unfold writeCopy
  dsimp only
  generalize (if second then b.ho.parcel.fail2 else b.ho.parcel.fail1) = failed
  cases failed with
  | true => exact .refl b
  | false =>
    rw [if_neg Bool.false_ne_true]
    split
    · exact issueXfer_sameParcel ..
    · exact .mod ⟨rfl, rfl, rfl, rfl⟩
    · exact .refl b

theorem pumpReads_sameParcel (n : Nat) (b : Block) : SameParcel b (pumpReads n b) := by
  induction n generalizing b with
  | zero => exact .refl b
  | succ n ih =>
    unfold pumpReads
    split
    · exact .refl b
    · dsimp only
      split
      · exact .refl b
      · refine .trans ?_ (ih _)
        refine .trans ?_ (issueXfer_sameParcel ..)
        exact .mod ⟨rfl, rfl, rfl, rfl⟩

/-- The data of a move that is read: its CRCs, and the pages that are left. -/
def readPages (mv : Nat) (data : List (BitVec 2048)) (b : Block) : Block :=
  (forEach (List.range (b.moves.getD mv {}).n) (fun i c =>
    c.modParcel (fun p => { p with
      crcs := tset p.crcs ((b.moves.getD mv {}).page + i) (crc64 (beatBytes (slice data (16 * i) 16))) })) b).modParcel (fun p => { p with
    pagesLeft := p.pagesLeft - (b.moves.getD mv {}).n })

theorem readPages_sameParcel (mv : Nat) (data : List (BitVec 2048)) (b : Block) : SameParcel b (readPages mv data b) :=
  (SameParcel.forEach (fun _ _ => .mod ⟨rfl, rfl, rfl, rfl⟩) _ b).trans (.mod ⟨rfl, rfl, rfl, rfl⟩)

theorem readPages_stop (mv : Nat) (data : List (BitVec 2048)) (b : Block) : (readPages mv data b).stop = b.stop := by
  unfold readPages
  rw [Block.modParcel_stop]
  exact forEach_inv (P := fun c => c.stop = b.stop) (fun _ c h => (Block.modParcel_stop c _).trans h) rfl

theorem runRead_eq (mv : Nat) (data : List (BitVec 2048)) (b : Block) :
    runRead mv data b = writeCopy true mv data (writeCopy false mv data
      (if (readPages mv data b).ho.parcel.pagesLeft = 0 then clearCause .parcelOverrun (readPages mv data b) else readPages mv data b)) := rfl

theorem runRead_sameParcel (mv : Nat) (data : List (BitVec 2048)) (b : Block) : SameParcel b (runRead mv data b) := by
  rw [runRead_eq]
  refine .trans ?_ (.trans (writeCopy_sameParcel false mv data _) (writeCopy_sameParcel true mv data _))
  split
  · exact (readPages_sameParcel mv data b).trans (.of_parcel rfl)
  · exact readPages_sameParcel mv data b

theorem writeCopy_stop (second : Bool) (mv : Nat) (data : List (BitVec 2048)) (b : Block) : (writeCopy second mv data b).stop = b.stop :=
  (frame_writeCopy second mv data (.refl [.parcel, .couriers] b) (subs_of rfl)).get .stop (by decide)

/-- A read that ends may end the overrun of a capture, and no other cause of the stop. -/
theorem runRead_cause {c : StopCause} {mv : Nat} {data : List (BitVec 2048)} {b : Block} (hne : c ≠ .parcelOverrun) (hmem : c ∈ b.stop.causes) :
    c ∈ (runRead mv data b).stop.causes := by
  rw [runRead_eq, writeCopy_stop, writeCopy_stop]
  have hread : c ∈ (readPages mv data b).stop.causes := by rwa [readPages_stop]
  split
  · exact clearCause_ne hne hread
  · exact hread

/-- The reads of a capture that are begun keep the stop, the generation and the cause. -/
theorem reads_kept {c : StopCause} (hne : c ≠ .parcelOverrun) (n : Nat) (xs : List Nat) (f : Nat → Block → List (BitVec 2048)) {b : Block}
    (hmem : c ∈ b.stop.causes) :
    SameParcel b (pumpReads n (forEach xs (fun mv b => runRead mv (f mv b) b) b)) ∧
      (pumpReads n (forEach xs (fun mv b => runRead mv (f mv b) b) b)).ledger = b.ledger ∧
      c ∈ (pumpReads n (forEach xs (fun mv b => runRead mv (f mv b) b) b)).stop.causes := by
  have hpump : ∀ x : Block, Frame [.parcel, .couriers] x (pumpReads n x) := fun x => frame_pumpReads n (.refl _ x) (subs_of rfl)
  have hrun : ∀ mv d (x : Block), Frame [.stop, .parcel, .couriers] x (runRead mv d x) := fun mv d x => frame_runRead mv d (.refl _ x) (subs_of rfl)
  rw [(hpump _).get .ledger (by decide), (hpump _).get .stop (by decide)]
  refine ⟨(SameParcel.forEach (fun mv x => runRead_sameParcel mv (f mv x) x) xs b).trans (pumpReads_sameParcel n _), ?_, ?_⟩
  · exact forEach_inv (P := fun x => x.ledger = b.ledger) (fun mv x h => ((hrun mv _ x).get .ledger (by decide)).trans h) rfl
  · exact forEach_inv (P := fun x => c ∈ x.stop.causes) (fun mv x h => runRead_cause hne h) hmem

/-! ### Schedule, vote and stop -/

theorem parcelPrepare_due {b : Block} (hl : b.ho.job.launched = true) (hi : b.ho.policy.interval ≠ 0) (hruns : b.hoRuns = true) :
    parcelPrepare b = prepareParcel (advTo ((b.now / (b.ho.policy.interval * 60000000000) + 1) *
      (b.ho.policy.interval * 60000000000) - 60000000000) b) := by
  have hne : ¬ b.ho.policy.interval * 60000000000 = 0 := by omega
  unfold parcelPrepare
  dsimp only
  exact if_neg (by rw [hl, hruns]; exact fun h => h.elim (absurd rfl) (fun h => h.elim hne (absurd rfl)))

theorem parcelRenew_due {b : Block} {w : Nat} (hl : b.ho.job.launched = true) (hruns : b.hoRuns = true) (hw : b.ho.parcel.holder1 = some w)
    (hg : b.taking = none) :
    parcelRenew b = reserveBoth ((advTo (b.ho.parcel.reservedAt + 60000000000) b).modParcel (fun p => { p with
      reservedAt := (advTo (b.ho.parcel.reservedAt + 60000000000) b).now })) := by
  unfold parcelRenew
  exact if_pos (by simp [hl, hruns, hw, hg])

/-- The stop of a late vote, before a spent vote is skipped. -/
def voteStopped (b : Block) : Block :=
  hoEvent evParcelVoteLate [] (originate .parcelVoteLate ((advTo (b.nextSlot - 300000) b).modParcel (fun p => { p with
    voting := false
    stopAt := none })))

theorem parcelVoteLate_due {b : Block} (hv : b.ho.parcel.voting = true) (hl : b.ho.job.launched = true) :
    parcelVoteLate b = if (voteStopped b).spentVotes then skipDue (voteStopped b) else voteStopped b := by
  unfold parcelVoteLate
  exact if_pos ⟨hv, hl⟩

theorem voteStopped_parcel (b : Block) : (voteStopped b).ho.parcel.voting = false ∧ (voteStopped b).ho.parcel.stopAt = none := by
  unfold voteStopped
  rw [hoEvent_keeps_parcel, originate_parcel]
  exact ⟨rfl, rfl⟩

theorem voteStopped_causes (b : Block) : StopCause.parcelVoteLate ∈ (voteStopped b).stop.causes := by
  unfold voteStopped
  rw [hoEvent_keeps_stop]
  exact originate_causes _ _

theorem skipDue_parcel (b : Block) : (skipDue b).ho.parcel = { b.ho.parcel with due := none } := by
  unfold skipDue
  rw [hoEvent_keeps_parcel]
  rfl

theorem skipDue_stop (b : Block) : (skipDue b).stop = b.stop := by
  unfold skipDue
  rw [hoEvent_keeps_stop]
  rfl

theorem parcelVoteLate_stopped {b : Block} (hv : b.ho.parcel.voting = true) (hl : b.ho.job.launched = true) :
    (parcelVoteLate b).ho.parcel.voting = false ∧ (parcelVoteLate b).ho.parcel.stopAt = none ∧
      StopCause.parcelVoteLate ∈ (parcelVoteLate b).stop.causes := by
  rw [parcelVoteLate_due hv hl]
  split
  · rw [skipDue_parcel, skipDue_stop]
    exact ⟨(voteStopped_parcel b).1, (voteStopped_parcel b).2, voteStopped_causes b⟩
  · exact ⟨(voteStopped_parcel b).1, (voteStopped_parcel b).2, voteStopped_causes b⟩

/-- A parcel stop while a stop is in force begins the capture, and then its reads. -/
theorem parcelStop_inForce {b : Block} {n : Nat} (hat : b.ho.parcel.stopAt = some n) (hl : b.ho.job.launched = true) (hf : b.inForce = true) :
    ∃ x k xs, ∃ f : Nat → Block → List (BitVec 2048), parcelStop b = pumpReads k (forEach xs (fun mv b => runRead mv (f mv b) b) x) ∧ x.ho.parcel.stopAt = none ∧
      x.ho.parcel.inStop = some n ∧ x.ledger.lastGen = b.ledger.lastGen + 1 ∧ StopCause.parcelStop ∈ x.stop.causes := by
  have hforce : (addCause .parcelStop (advTo n b)).inForce = true := by
    show (advTo n b).inForce = true
    unfold Block.inForce
    rw [advTo_keeps_stop]
    exact hf
  have hledger : ∀ xs : List Nat, (forEach xs (fun r b => b.modOffice r (fun o => { o with hist := [] }))
      (addCause .parcelStop (advTo n b))).ledger = b.ledger := fun xs =>
    forEach_inv (P := fun c => c.ledger = b.ledger) (fun r c h => (Block.modOffice_ledger c r _).trans h) (advTo_keeps_ledger n b)
  have hcause : ∀ xs : List Nat, StopCause.parcelStop ∈ (forEach xs (fun r b => b.modOffice r (fun o => { o with hist := [] }))
      (addCause .parcelStop (advTo n b))).stop.causes := fun xs =>
    forEach_inv (P := fun c => StopCause.parcelStop ∈ c.stop.causes) (fun r c h => by rwa [Block.modOffice_stop])
      (addCause_causes _ _)
  unfold parcelStop
  rw [hat]
  dsimp only
  rw [if_neg (not_not_intro hl), if_pos hforce]
  exact ⟨_, _, _, _, rfl, rfl, rfl, congrArg (fun l : LedgerData => l.lastGen + 1) (hledger _), hcause _⟩

theorem parcelStop_capture {b : Block} {n : Nat} (hat : b.ho.parcel.stopAt = some n) (hl : b.ho.job.launched = true) (hf : b.inForce = true) :
    (parcelStop b).ho.parcel.stopAt = none ∧ (parcelStop b).ho.parcel.inStop = some n ∧
      (parcelStop b).ledger.lastGen = b.ledger.lastGen + 1 ∧ StopCause.parcelStop ∈ (parcelStop b).stop.causes := by
  obtain ⟨x, k, xs, f, heq, hstop, hin, hgen, hmem⟩ := parcelStop_inForce hat hl hf
  obtain ⟨hsame, hledger, hcause⟩ := reads_kept (by decide) k xs f hmem
  rw [heq, hledger]
  exact ⟨hsame.stopAt.trans hstop, hsame.inStop.trans hin, hgen, hcause⟩

/-! ### The root and the commits -/

theorem SameParcel.rooted {x c : Block} {r : BitVec 384} (h : SameParcel x c) (hx : x.ho.parcel.rooting = true) (hr : x.ho.parcel.root = some r) :
    c.ho.parcel.rooting = true ∧ c.ho.parcel.root = some r :=
  ⟨h.rooting.trans hx, h.root.trans hr⟩

theorem parcelRootBuild_root {b : Block} {g : GenRec} (hg : b.taking = some g) (hd : b.dataDone = true) (hn : b.ho.parcel.rooting = false)
    (hruns : b.hoRuns = true) :
    (parcelRootBuild b).ho.parcel.rooting = true ∧
      (parcelRootBuild b).ho.parcel.root = some (sha384v (b.page0 g ++ b.crcTable (b.page0 g))) := by
  unfold parcelRootBuild
  rw [hg]
  dsimp only
  rw [if_neg (by simp [hd, hn, hruns])]
  exact SameParcel.rooted (SameParcel.forEach (fun _ _ => (writeCopy_sameParcel ..).trans (writeCopy_sameParcel ..)) _ _) rfl rfl

theorem sendLetter_parcel (dst op : Nat) (params : List Byte) (which : Nat) (b : Block) :
    (sendLetter dst op params which b).ho.parcel = b.ho.parcel :=
  (frame_sendLetter dst op params which (.refl [.mail, .fleet, .post] b) (subs_of rfl)).get .parcel (by decide)

theorem sendLetter_ledger (dst op : Nat) (params : List Byte) (which : Nat) (b : Block) :
    (sendLetter dst op params which b).ledger = b.ledger :=
  (frame_sendLetter dst op params which (.refl [.mail, .fleet, .post] b) (subs_of rfl)).get .ledger (by decide)

/-- The generation with its commits sent. -/
def commitBegun (g : GenRec) (b : Block) : Block :=
  (setGen (some { g with state := .committing }) b).modParcel (fun p => { p with committing := true, commitAt := b.now })

theorem parcelCommitSend_both {b : Block} {g : GenRec} (hg : b.taking = some g) (hr : b.ho.parcel.rooting = true)
    (hc : b.ho.parcel.committing = false) (h1 : b.ho.parcel.fail1 = false) (h2 : b.ho.parcel.fail2 = false)
    (hd1 : (List.range b.moves.length).all (fun i => b.ho.parcel.done1.contains i) = true)
    (hd2 : (List.range b.moves.length).all (fun i => b.ho.parcel.done2.contains i) = true) :
    ∃ pr, parcelCommitSend b = sendLetter g.holder2 0x611 pr 2 (sendLetter g.holder1 0x611 pr 1 (commitBegun g b)) := by
  have hf1 : (commitBegun g b).ho.parcel.fail1 = false := h1
  have hf2 : ∀ pr, (sendLetter g.holder1 0x611 pr 1 (commitBegun g b)).ho.parcel.fail2 = false := fun pr => by
    rw [sendLetter_parcel]
    exact h2
  refine ⟨reserveParams g.gen g.epoch g.pages ++ le 48 g.root.toNat, ?_⟩
  unfold parcelCommitSend
  rw [hg]
  dsimp only
  rw [if_neg (by rw [hr, hc, h1, h2, hd1, hd2]; decide)]
  unfold commitBegun at hf1 hf2 ⊢
  rw [if_neg (Bool.eq_false_iff.1 hf1), if_neg (Bool.eq_false_iff.1 (hf2 _))]

theorem parcelCommitSend_sent {b : Block} {g : GenRec} {pr : List Byte}
    (h : parcelCommitSend b = sendLetter g.holder2 0x611 pr 2 (sendLetter g.holder1 0x611 pr 1 (commitBegun g b))) :
    (parcelCommitSend b).ho.parcel.committing = true ∧ (parcelCommitSend b).ho.parcel.commitAt = b.now ∧
      (parcelCommitSend b).ledger.inGen = some { g with state := .committing } := by
  rw [h, sendLetter_parcel, sendLetter_parcel, sendLetter_ledger, sendLetter_ledger]
  exact ⟨rfl, rfl, rfl⟩

theorem settleGen_waiting {b : Block} (h : b.ho.parcel.ans2 = none) : settleGen b = b := by
  unfold settleGen
  rw [h]
  split
  · contradiction
  · rfl

/-- The generation with the answer of its first Holder. -/
def firstAnswered (g : GenRec) (ok : Bool) (b : Block) : Block :=
  (setGen (some { g with state := if ok ∧ g.state = .committing then .single else g.state }) b).modParcel (fun p => { p with ans1 := some ok })

theorem commitAnswer_first {b : Block} {g : GenRec} (ok : Bool) (hg : b.taking = some g) (h1 : b.ho.parcel.ans1 = none)
    (h2 : b.ho.parcel.ans2 = none) : commitAnswer false ok b = firstAnswered g ok b := by
  unfold commitAnswer
  rw [hg]
  dsimp only
  rw [if_neg (by rw [if_neg Bool.false_ne_true, h1]; exact Bool.false_ne_true)]
  exact settleGen_waiting h2

/-! ### The end of a parcel stop -/

theorem parcelOverrun_running {b : Block} {n : Nat} (hn : b.ho.parcel.inStop = some n) (hp : b.ho.parcel.pagesLeft ≠ 0)
    (hc : (advTo (n + b.ho.policy.tStop - 100000) b).capturing = true) :
    parcelOverrun b = hoEvent evParcelOverrun [] (originate .parcelOverrun (advTo (n + b.ho.policy.tStop - 100000) b)) := by
  unfold parcelOverrun
  rw [hn]
  exact if_pos ⟨hc, by rwa [advTo_keeps_parcel]⟩

theorem ungateAll_ho (b : Block) : (ungateAll b).ho = b.ho := by
  unfold ungateAll
  dsimp only
  rw [Block.modStop_ho, forEach_keep (fun b => b.ho)]
  intro i c
  split
  · exact Block.modCore_ho ..
  · rfl

/-- The parcel stop with its cause cleared. -/
def parcelStopOver (n : Nat) (b : Block) : Block :=
  clearCause .parcelStop ((advTo (n + b.ho.policy.tStop) b).modParcel (fun p => { p with inStop := none }))

theorem parcelUngate_alone {b : Block} {n : Nat} (hn : b.ho.parcel.inStop = some n) (hc : b.stop.causes = [.parcelStop]) (hl : b.stop.latch = false) :
    parcelUngate b = (ungateAll (parcelStopOver n b)).modJob (fun j => { j with lateShift := j.lateShift + (parcelStopOver n b).ho.policy.tStop }) := by
  have hcauses : (parcelStopOver n b).stop.causes = [] := by
    show ((advTo (n + b.ho.policy.tStop) b).stop.causes).filter (fun c => decide (c ≠ StopCause.parcelStop)) = []
    rw [advTo_keeps_stop, hc]
    rfl
  have hlatch : (parcelStopOver n b).stop.latch = false := by
    show (advTo (n + b.ho.policy.tStop) b).stop.latch = false
    rw [advTo_keeps_stop, hl]
  unfold parcelUngate
  rw [hn]
  exact if_pos ⟨by rw [List.isEmpty_iff]; exact hcauses, Bool.eq_false_iff.1 hlatch⟩

theorem parcelStopOver_ho (n : Nat) (b : Block) : (parcelStopOver n b).ho = { b.ho with parcel := { b.ho.parcel with inStop := none } } := by
  show { (advTo (n + b.ho.policy.tStop) b).ho with parcel := { (advTo (n + b.ho.policy.tStop) b).ho.parcel with inStop := none } } = _
  rw [advTo_ho]

theorem parcelUngate_free {b : Block} {n : Nat} (hn : b.ho.parcel.inStop = some n) (hc : b.stop.causes = [.parcelStop]) (hl : b.stop.latch = false) :
    (parcelUngate b).ho.parcel.inStop = none ∧ (parcelUngate b).stop.stopped = false ∧
      (parcelUngate b).ho.job.lateShift = b.ho.job.lateShift + b.ho.policy.tStop := by
  rw [parcelUngate_alone hn hc hl]
  refine ⟨?_, ?_, ?_⟩
  · show (ungateAll (parcelStopOver n b)).ho.parcel.inStop = none
    rw [ungateAll_ho, parcelStopOver_ho]
  · show (ungateAll (parcelStopOver n b)).stop.stopped = false
    rw [ungateAll_stop]
  · show (ungateAll (parcelStopOver n b)).ho.job.lateShift + (parcelStopOver n b).ho.policy.tStop = _
    rw [ungateAll_ho, parcelStopOver_ho]

/-! ### Reservations and the end of a job -/

theorem reservationLapse_due {b : Block} {w g : Nat} {h : HoldRec} (hf : b.ledger.holds.find? (fun h => h.holdee = w ∧ h.gen = g ∧ ¬ h.committed) = some h) :
    reservationLapse w g b = coolSpace h.pages ((advTo (h.since + 600000000000) b).modLedger (fun l => { l with
      holds := l.holds.filter (fun x => !(decide (x.holdee = w) && decide (x.gen = g) && !x.committed)) })) := by
  unfold reservationLapse
  rw [hf]

theorem reservationLapse_cooling {b : Block} {w g : Nat} {h : HoldRec} (hf : b.ledger.holds.find? (fun h => h.holdee = w ∧ h.gen = g ∧ ¬ h.committed) = some h) :
    (reservationLapse w g b).ledger.holds =
        b.ledger.holds.filter (fun x => !(decide (x.holdee = w) && decide (x.gen = g) && !x.committed)) ∧
      (reservationLapse w g b).ho.parcel.cooling.length = b.ho.parcel.cooling.length + 1 := by
  rw [reservationLapse_due hf]
  refine ⟨?_, ?_⟩
  · show (advTo (h.since + 600000000000) b).ledger.holds.filter _ = _
    rw [advTo_keeps_ledger]
  · show ((advTo (h.since + 600000000000) b).ho.parcel.cooling ++ [_]).length = _
    rw [advTo_keeps_parcel, List.length_append, List.length_singleton]

theorem teardownQuiesced_due {b : Block} {n : Nat} (hn : b.ho.job.tearing = some n) (hq : b.quiet = true) :
    teardownQuiesced b = endTeardown (advTo (n + 13000) b) := by
  unfold teardownQuiesced
  rw [hn]
  exact if_pos hq

theorem teardownForce_due {b : Block} {n : Nat} (hn : b.ho.job.tearing = some n) :
    ∃ x r, teardownForce b = endTeardown ((((advTo (n + 50000000) b).allCouriers (fun c => { c with
        xfers := c.xfers.map (fun (y : Xfer) => { y with retired := true }) })).modFleet
        (fun f => { f with slots := [], streams := [], bulkOut := [] })).modJob (fun j => { j with forcedX := x, forcedR := r })) := by
  unfold teardownForce
  rw [hn]
  exact ⟨_, _, rfl⟩

/-- Settles O41. -/
theorem parcelAndTeardownCommands : Obligations.ParcelAndTeardownCommands := by
  refine ⟨fun s hr hl hi hruns => ?prepare, fun s w hr hl hruns hw hg => ?renew, fun s hr hv hl => ?voteLate,
    fun s n hr hat hl hf => ?stop, fun s g hr hg hd hn hruns => ?root, fun s g hr hg hro hc h1 h2 hd1 hd2 => ?commit,
    fun s n hr hn hc hp hcap => ?overrun, fun s n hr hn hc hl => ?ungate, fun s second ok hr hc => ?answer,
    fun b g hg h1 h2 => ?first, fun s hr hc h1 => ?late1, fun s hr hc h2 => ?late2, fun s w g h hr hf => ?lapse,
    fun s n hr hn hq => ?quiesced, fun s n hr hn => ?force⟩
  case prepare => exact act_after hr (parcelPrepare_due hl hi hruns)
  case renew => exact act_after hr (parcelRenew_due hl hruns hw hg)
  case voteLate => exact ⟨_, act_after hr rfl, parcelVoteLate_stopped hv hl⟩
  case stop => exact ⟨_, act_after hr rfl, parcelStop_capture hat hl hf⟩
  case root => exact ⟨_, act_after hr rfl, parcelRootBuild_root hg hd hn hruns⟩
  case commit =>
    obtain ⟨pr, hsent⟩ := parcelCommitSend_both hg hro hc h1 h2 hd1 hd2
    exact ⟨_, act_after hr rfl, parcelCommitSend_sent hsent⟩
  case overrun => exact act_after hr (parcelOverrun_running hn hp hcap)
  case ungate => exact ⟨_, act_after hr rfl, parcelUngate_free hn hc hl⟩
  case answer => exact act_after hr (if_pos hc)
  case first =>
    rw [commitAnswer_first true hg h1 h2]
    refine ⟨rfl, h2, ?_⟩
    show some { g with state := if true = true ∧ g.state = GenState.committing then GenState.single else g.state } = _
    simp only [true_and]
  case late1 => exact act_after hr (if_pos ⟨hc, by rw [if_neg Bool.false_ne_true, h1]; rfl⟩)
  case late2 => exact act_after hr (if_pos ⟨hc, by rw [if_pos rfl, h2]; rfl⟩)
  case lapse => exact ⟨_, act_after hr rfl, reservationLapse_cooling hf⟩
  case quiesced => exact act_after hr (teardownQuiesced_due hn hq)
  case force =>
    obtain ⟨x, r, heq⟩ := teardownForce_due hn
    exact ⟨x, r, act_after hr heq⟩

end Sys2Proof.Machine
end

section
/-! Image packets, rounds and readback (R422 to R427). -/

namespace Sys2Proof.Machine

open Sys2Proof

/-! ### The bytes of a packet -/

theorem le_drop (m k v : Nat) : (le (m + k) v).drop m = le k (v / 2 ^ (8 * m)) := by
  induction m generalizing v with
  | zero => rw [Nat.zero_add, List.drop_zero, Nat.mul_zero, Nat.pow_zero, Nat.div_one]
  | succ m ih =>
    rw [Nat.add_right_comm]
    show (le (m + k) (v / 256)).drop m = _
    rw [ih, Nat.div_div_eq_div_mul, Nat.mul_succ, Nat.pow_add, Nat.mul_comm 256]

/-- The capture channel shows the last 16 of a packet's 48 bytes. -/
theorem segBeats_last (off : Nat) (bytes : BitVec 384) (d : Flit) : (segBeats off bytes).getLastD d = BitVec.ofNat 128 (fld bytes.toNat 256 128) := by
  have hlt : bytes.toNat / 2 ^ 256 < 256 ^ 16 := Nat.div_lt_of_lt_mul bytes.isLt
  have hlast : (le 48 bytes.toNat).drop 32 = le 16 (bytes.toNat / 2 ^ 256) := le_drop 32 16 _
  show bytesFlit (((le 48 bytes.toNat).drop 16).drop 16) = _
  unfold bytesFlit fld
  rw [List.drop_drop, hlast, List.take_of_length_le (Nat.le_of_eq (le_length 16 _)), ofLe_le _ _ hlt,
    Nat.mod_eq_of_lt (show _ < 2 ^ 128 from hlt)]

theorem segLoad_img (off : Nat) (bytes : BitVec 384) (c : Core) :
    (segLoad off bytes c).img = { c.img with store := memWrites c.img.store off (le 48 bytes.toNat) } := rfl

theorem segLoad_capWdata (off : Nat) (bytes : BitVec 384) (c : Core) :
    (segLoad off bytes c).pins.capWdata = BitVec.ofNat 128 (fld bytes.toNat 256 128) :=
  segBeats_last off bytes c.pins.capWdata

/-! ### One core's image -/

theorem modImg_core (i : Nat) (f : CoreImage → CoreImage) (b : Block) : (modImg i f b).core i = { b.core i with img := f (b.core i).img } :=
  Block.modCore_self ..

theorem modImg_img (i : Nat) (f : CoreImage → CoreImage) (b : Block) : ((modImg i f b).core i).img = f (b.core i).img := by
  rw [modImg_core]

theorem modImg_ne {i j : Nat} (f : CoreImage → CoreImage) (b : Block) (hne : j ≠ i) : (modImg i f b).core j = b.core j := Block.modCore_ne _ _ hne

theorem modImg_lost (i : Nat) (f : CoreImage → CoreImage) (b : Block) (j : Nat) : (modImg i f b).imgLost j = b.imgLost j := by
  unfold Block.imgLost
  rw [show (modImg i f b).coreState = b.coreState from coreState_same rfl rfl rfl]

/-- A packet that is new is loaded, and its bit is set. -/
def packetLoaded (i : Nat) (p : ImagePacket) (b : Block) : Block :=
  (b.modCore i (segLoad (48 * p.pktIdx.toNat) p.bytes)).modCore i (fun c => { c with img := { c.img with got := c.img.got ++ [p.pktIdx.toNat] } })

theorem packetLoaded_core (i : Nat) (p : ImagePacket) (b : Block) :
    ((packetLoaded i p b).core i).img = { (b.core i).img with
        got := (b.core i).img.got ++ [p.pktIdx.toNat]
        store := memWrites (b.core i).img.store (48 * p.pktIdx.toNat) (le 48 p.bytes.toNat) } ∧
      ((packetLoaded i p b).core i).pins.capWdata = BitVec.ofNat 128 (fld p.bytes.toNat 256 128) := by
  unfold packetLoaded
  rw [Block.modCore_self, Block.modCore_self]
  simp only [segLoad_img, segLoad_capWdata, and_self]

section
variable {i : Nat} {b : Block}

/-! ### A packet -/

theorem imagePacket_new {p : ImagePacket} (hopen : (imgSweep b).imgOpen i = true) (hon : ((imgSweep b).core i).lbOn = true)
    (hat : (imgSweep b).attached i = true) (hid : p.imageId = (imgSweep b).ho.image.imageId)
    (hnew : ((imgSweep b).core i).img.got.contains p.pktIdx.toNat = false) : imagePacket i p b = packetLoaded i p (imgSweep b) := by
  unfold imagePacket
  dsimp only
  rw [if_neg (by simp [hopen, hon, hat, hid]), if_neg (Bool.eq_false_iff.1 hnew)]
  rfl

theorem imagePacket_again {p : ImagePacket} (hopen : (imgSweep b).imgOpen i = true) (hon : ((imgSweep b).core i).lbOn = true)
    (hat : (imgSweep b).attached i = true) (hid : p.imageId = (imgSweep b).ho.image.imageId)
    (hold : ((imgSweep b).core i).img.got.contains p.pktIdx.toNat = true) :
    imagePacket i p b = modImg i (fun x => { x with dups := x.dups + 1 }) (imgSweep b) := by
  unfold imagePacket
  dsimp only
  rw [if_neg (by simp [hopen, hon, hat, hid])]
  exact if_pos hold

/-! ### A readback -/

theorem imageReadback_differs {data : List Byte} (hopen : (imgSweep b).imgOpen i = true) (hon : ((imgSweep b).core i).lbOn = true)
    (hmiss : (imgSweep b).imgMissing i = []) (hd : sha384v data ≠ (imgSweep b).ho.image.digest) (h0 : ((imgSweep b).core i).img.misses = 0) :
    imageReadback i data b = modImg i (fun x => { x with got := [], misses := 1, again := true }) (imgSweep b) := by
  unfold imageReadback
  dsimp only
  rw [if_neg (by simp [hopen, hon, hmiss]), if_neg hd]
  exact if_pos h0

/-- The target whose readback agrees is done, before the letter's end is looked at. -/
def targetDone (i : Nat) (b : Block) : Block := modImg i (fun x => { x with done := true }) b

theorem imageReadback_agrees {data : List Byte} (hopen : (imgSweep b).imgOpen i = true) (hon : ((imgSweep b).core i).lbOn = true)
    (hmiss : (imgSweep b).imgMissing i = []) (hd : sha384v data = (imgSweep b).ho.image.digest) :
    imageReadback i data b = imgCheck (if (targetDone i (imgSweep b)).mayRelease ∧ (targetDone i (imgSweep b)).releasableCore i then
      releaseCore i (targetDone i (imgSweep b)) else targetDone i (imgSweep b)) := by
  unfold imageReadback
  dsimp only
  rw [if_neg (by simp [hopen, hon, hmiss])]
  exact if_pos hd

theorem imgFail_done (j : Nat) (hdone : (b.core i).img.done = true) : ((imgFail j b).core i).img.done = true := by
  have hmod : ((modImg j (fun x => { x with failed := true }) b).core i).img.done = true := by
    by_cases hij : i = j
    · subst hij
      rw [modImg_img]
      exact hdone
    · rwa [modImg_ne _ _ hij]
  unfold imgFail
  dsimp only
  split
  · exact hmod
  · rwa [Block.core_same (blockCore_keeps_cores ..)]

theorem imgCheck_done (hdone : (b.core i).img.done = true) : ((imgCheck b).core i).img.done = true := by
  have hsweep : ((imgSweep b).core i).img.done = true := forEach_inv (P := fun c => (c.core i).img.done = true) (fun j _ h => imgFail_done j h) hdone
  unfold imgCheck
  dsimp only
  split
  · rw [Block.core_same (finishOp_keeps_cores ..)]
    exact hsweep
  · exact hsweep

theorem releaseCore_img (b : Block) : ((releaseCore i b).core i).img = (b.core i).img := by
  unfold releaseCore
  rw [Block.modCore_self]

theorem imageReadback_done {data : List Byte} (hopen : (imgSweep b).imgOpen i = true) (hon : ((imgSweep b).core i).lbOn = true)
    (hmiss : (imgSweep b).imgMissing i = []) (hd : sha384v data = (imgSweep b).ho.image.digest) :
    ((imageReadback i data b).core i).img.done = true := by
  have hdone : ((targetDone i (imgSweep b)).core i).img.done = true := by
    unfold targetDone
    rw [modImg_img]
  rw [imageReadback_agrees hopen hon hmiss hd]
  refine imgCheck_done ?_
  split
  · rwa [releaseCore_img]
  · exact hdone

end

/-! ### The end of a load -/

theorem finishOp_none (op status detail : Nat) (res : List Byte) {b : Block} (h : b.ho.mail.outst = []) : finishOp op status detail res b = b := by
  unfold finishOp
  rw [h]
  rfl

/-- With no letter that waits for it, the end of a load is only that it is no longer active. -/
theorem imgCheck_over {b : Block} (hkeep : ∀ i ∈ b.ho.image.targets, b.imgOpen i = true → b.imgLost i = false) (ha : b.ho.image.active = true)
    (hall : b.ho.image.targets.any b.imgOpen = false) (hout : b.ho.mail.outst = []) :
    imgCheck b = b.modImage (fun x => { x with active := false }) := by
  unfold imgCheck
  rw [imgSweep_eq hkeep]
  dsimp only
  rw [if_pos ⟨ha, by rw [List.all_eq_not_any_not]; simpa using hall⟩]
  exact finishOp_none _ _ _ _ hout

theorem imgOpen_active {b : Block} {i : Nat} (h : b.imgOpen i = true) : b.ho.image.active = true := by
  unfold Block.imgOpen at h
  simp only [Bool.and_eq_true] at h
  exact h.1.1.1

theorem targetDone_open (i j : Nat) (b : Block) : (targetDone i b).imgOpen j = (decide (j ≠ i) && b.imgOpen j) := by
  by_cases hij : j = i
  · subst hij
    have hdone : ((targetDone j b).core j).img.done = true := by
      unfold targetDone
      rw [modImg_img]
    unfold Block.imgOpen
    rw [hdone]
    simp
  · rw [decide_eq_true hij, Bool.true_and]
    unfold Block.imgOpen targetDone
    rw [modImg_ne _ _ hij]
    rfl

theorem forEach_fixed {α : Type} {f : α → Block → Block} {xs : List α} {b : Block} (h : ∀ x ∈ xs, f x b = b) : forEach xs f b = b := by
  induction xs with
  | nil => rfl
  | cons x xs ih =>
    show forEach xs f (f x b) = b
    rw [h x List.mem_cons_self]
    exact ih fun y hy => h y (List.mem_cons_of_mem x hy)

theorem modImage_active {b : Block} (h : b.ho.image.active = true) : b.modImage (fun x => { x with active := true }) = b := by
  unfold Block.modImage
  rw [← h]

/-- A target that is done and no release: the load is active while another target is open. -/
theorem imageReadback_held {b : Block} {i : Nat} {data : List Byte} (hkeep : ∀ i ∈ b.ho.image.targets, b.imgOpen i = true → b.imgLost i = false)
    (hopen : b.imgOpen i = true) (hon : (b.core i).lbOn = true) (hmiss : b.imgMissing i = []) (hd : sha384v data = b.ho.image.digest)
    (hrel : b.mayRelease = false) (hout : b.ho.mail.outst = []) :
    imageReadback i data b = (targetDone i b).modImage (fun x => { x with
      active := b.ho.image.targets.any (fun j => decide (j ≠ i) && b.imgOpen j) }) := by
  have hs := imgSweep_eq hkeep
  have hkept : ∀ j ∈ (targetDone i b).ho.image.targets, (targetDone i b).imgOpen j = true → (targetDone i b).imgLost j = false := by
    intro j hj ho
    rw [targetDone_open, Bool.and_eq_true] at ho
    exact (modImg_lost ..).trans (hkeep j hj ho.2)
  have hany : (targetDone i b).ho.image.targets.any (targetDone i b).imgOpen = b.ho.image.targets.any (fun j => decide (j ≠ i) && b.imgOpen j) :=
    congrArg _ (funext fun j => targetDone_open i j b)
  have hactive : (targetDone i b).ho.image.active = true := imgOpen_active (b := b) hopen
  rw [imageReadback_agrees (by rwa [hs]) (by rwa [hs]) (by rwa [hs]) (by rwa [hs]), hs, if_neg (fun h => Bool.eq_false_iff.1 hrel h.1)]
  cases hleft : b.ho.image.targets.any (fun j => decide (j ≠ i) && b.imgOpen j) with
  | false => exact imgCheck_over hkept hactive (hany.trans hleft) hout
  | true => rw [imgCheck_eq hkept (hany.trans hleft), modImage_active hactive]

/-! ### The end of a region's round -/

/-- The region's round is over. -/
def roundEnded (r : Nat) (b : Block) : Block :=
  b.modImage (fun x => { x with ended := maskSet x.ended r true, asked := tset x.asked r (b.imgAsked r) })

/-- Where no target is out of service and none fails by the round, the region's round ends and the load is looked at. -/
theorem imageRoundEnd_open {b : Block} {r : Nat} (hkeep : ∀ i ∈ b.ho.image.targets, b.imgOpen i = true → b.imgLost i = false)
    (ha : b.ho.image.active = true) (hr : maskBit b.ho.image.regions r = true) (he : maskBit b.ho.image.ended r = false)
    (hmore : maskSet b.ho.image.ended r true ≠ b.ho.image.regions)
    (hround : ∀ i ∈ b.ho.image.targets, regionOf i = r → b.imgOpen i = true → imgRoundTarget i b = b) :
    imageRoundEnd r b = imgCheck (roundEnded r b) := by
  have hfold : forEach (b.ho.image.targets.filter (fun i => decide (regionOf i = r) && b.imgOpen i)) imgRoundTarget b = b := by
    refine forEach_fixed fun i hi => ?_
    obtain ⟨hmem, hi⟩ := List.mem_filter.1 hi
    rw [Bool.and_eq_true, decide_eq_true_eq] at hi
    exact hround i hmem hi.1 hi.2
  unfold imageRoundEnd
  rw [if_neg (by simp [ha, hr, he]), imgSweep_eq hkeep]
  dsimp only
  rw [hfold]
  exact congrArg imgCheck (if_neg hmore)

theorem imgRoundTarget_waits {b : Block} {i : Nat} (h : b.imgMissing i = [] ∨ (b.core i).img.again = false ∧ b.ho.image.round < 8) :
    imgRoundTarget i b = b := by
  unfold imgRoundTarget
  obtain h | ⟨hagain, hround⟩ := h
  · exact if_pos (by rw [h]; rfl)
  · rw [if_neg (Bool.eq_false_iff.1 hagain), if_neg (Nat.not_le.2 hround), ite_self]

/-- Settles O42. -/
theorem imageCommands : Obligations.ImageCommands := by
  refine ⟨fun s core p hr hopen hon hat hid hnew => ?new, fun s core p hr hopen hon hat hid hold => ?old,
    fun s r hr ha hreg he hno hmore hout => ?last, fun s core data hr hopen hon hmiss hd h0 => ?differs,
    fun s core data hr hopen hon hmiss hd => ?agrees, fun s core p hr hkeep hopen hon hat hid hnew => ?keptNew,
    fun s core p hr hkeep hopen hon hat hid hold => ?keptOld, fun s r hr hkeep ha hreg he hmore hany hround => ?round,
    fun s core data hr hkeep hopen hon hmiss hd h0 => ?keptDiffers,
    fun s core data hr hkeep hopen hon hmiss hd hrel hout => ?keptAgrees⟩
  case new =>
    refine ⟨_, act_after hr (imagePacket_new hopen hon hat hid hnew), ?_⟩
    obtain ⟨himg, hpin⟩ := packetLoaded_core core.toNat p (imgSweep s.blk)
    rw [State.after_blk, held_core, himg, hpin]
    simp only [and_self]
  case old =>
    refine ⟨_, act_after hr (imagePacket_again hopen hon hat hid hold), ?_⟩
    rw [State.after_blk, held_core, modImg_img]
  case last =>
    have hnone : ∀ (P : Nat → Prop), ∀ i ∈ s.blk.ho.image.targets, P i := fun P i hi => by
      rw [hno] at hi
      exact absurd hi List.not_mem_nil
    refine ⟨_, act_after hr ((imageRoundEnd_open (hnone _) ha hreg he hmore (hnone _)).trans
      (imgCheck_over (hnone _) ha (by show s.blk.ho.image.targets.any _ = false; rw [hno]; rfl) hout)), rfl, rfl, rfl⟩
  case differs =>
    refine ⟨_, act_after hr (imageReadback_differs hopen hon hmiss hd h0), ?_⟩
    rw [State.after_blk, held_core, modImg_img]
  case agrees => exact ⟨_, act_after hr rfl, imageReadback_done hopen hon hmiss hd⟩
  case keptNew =>
    have hs := imgSweep_eq hkeep
    have heq : imagePacket core.toNat p s.blk = packetLoaded core.toNat p s.blk :=
      (imagePacket_new (by rwa [hs]) (by rwa [hs]) (by rwa [hs]) (by rwa [hs]) (by rwa [hs])).trans (congrArg _ hs)
    have hframe : Frame [.cores] s.blk (packetLoaded core.toNat p s.blk) := 
      frame_modCore _ _ (frame_modCore _ _ (.refl _ _) (by decide)) (by decide)
    exact ⟨_, act_after hr heq, (packetLoaded_core ..).1, after_frame hframe rfl⟩
  case keptOld =>
    have hs := imgSweep_eq hkeep
    exact act_eq hr ((imagePacket_again (by rwa [hs]) (by rwa [hs]) (by rwa [hs]) (by rwa [hs]) (by rwa [hs])).trans (congrArg _ hs)) rfl rfl rfl rfl
  case round =>
    refine act_eq hr ((imageRoundEnd_open hkeep ha hreg he hmore (fun i hi hri ho => imgRoundTarget_waits (hround i hi hri ho))).trans ?_) rfl rfl rfl rfl
    exact imgCheck_eq hkeep hany
  case keptDiffers =>
    have hs := imgSweep_eq hkeep
    exact act_eq hr ((imageReadback_differs (by rwa [hs]) (by rwa [hs]) (by rwa [hs]) (by rwa [hs]) (by rwa [hs])).trans (congrArg _ hs)) rfl rfl rfl rfl
  case keptAgrees =>
    have heq := imageReadback_held hkeep hopen hon hmiss hd hrel hout
    have hframe : Frame [.cores, .image] s.blk ((targetDone core.toNat s.blk).modImage (fun x => { x with
        active := s.blk.ho.image.targets.any (fun j => decide (j ≠ core.toNat) && s.blk.imgOpen j) })) :=
      frame_modImage _ (frame_modCore _ _ (.refl _ _) (by decide)) (by decide)
    exact ⟨_, act_after hr heq, modImg_img core.toNat (fun x => { x with done := true }) s.blk, rfl, after_frame hframe rfl⟩

end Sys2Proof.Machine
end

section
/-! The letters of identity, and of the job and the Postmark (R9, R127, R128, R136, R150, R153, R393, R409, R412, R419, R421, R448, R457). -/

namespace Sys2Proof.Machine

open Sys2Proof

/-! ### A letter by its row's reply -/

/-- A letter that is carried out is answered by its row's reply. -/
theorem act_reply {r op : Nat} {l : Letter} {s : State} {f : Letter → Block → Reply} {y : Reply} (hr : s.released) (h : s.blk.carries r op l)
    (hf : f l s.blk = y) : act (letterRow r op f) s = .next (s.after (answerOf r l y s.blk)) := by
  rw [act_letter hr h f, hf]

/-! ### Identity -/

theorem helloL_version {l : Letter} {b : Block} (h1 : fld (l.p 0 1) 0 4 ≤ 1) (h2 : 1 ≤ fld (l.p 0 1) 4 4) :
    helloL l b = .done (le 1 1 ++ le 1 archCode ++ le 1 relCode ++ le 1 (pmCode b.pm.state))
      (b.modMail (fun m => { m with sessions := if m.sessions.contains l.sender then m.sessions else m.sessions ++ [l.sender] })) := by
  unfold helloL
  exact if_pos ⟨h1, h2⟩

theorem helloL_otherVersion {l : Letter} {b : Block} (h : 1 < fld (l.p 0 1) 0 4 ∨ fld (l.p 0 1) 4 4 = 0) : helloL l b = .refuse 0x0100 0 := by
  unfold helloL
  exact if_neg (by omega)

/-- Settles O43. -/
theorem identityLetters : Obligations.IdentityLetters := by
  refine ⟨fun s ring l hr hc h1 h2 => ?hello, fun s ring l hr hc h => ?otherVersion, fun s ring l hr hc => ?identify,
    fun s ring l hr hc => ?inventory, fun s ring l hr hc => ?measure⟩
  case hello => exact act_reply hr hc (helloL_version h1 h2)
  case otherVersion => exact act_reply hr hc (helloL_otherVersion h)
  case identify => exact act_letter hr hc identifyL
  case inventory => exact act_letter hr hc inventoryL
  case measure => exact act_letter hr hc measureL

/-! ### JOB_LOAD -/

section
variable {l : Letter} {b : Block} {data : Option (List Byte)} {d : List Byte}

theorem jobLoadL_loads {n : Nat} (hs : b.svc.state = .ready) (hm : b.ho.job.man = none) (hd : b.hostRead data (l.p 8 8) = some d)
    (hh : sha384v d = BitVec.ofNat 384 (l.p 16 48)) (he : mayExceed (parseManifest d) = false)
    (hf : manifestFault b d (parseManifest d) (freshBit b).1 = none) (ht : (loadManifest (parseManifest d) b).tMin = some n) :
    jobLoadL data l b = .whole [] 0 0 (le 2 (loadManifest (parseManifest d) b).ledger.epoch ++ [0, 0] ++
      le 4 (manWorking (parseManifest d)).length ++ le 4 (loadManifest (parseManifest d) b).ho.bm.gen.toNat ++
      le 4 (loadManifest (parseManifest d) b).parcelPages ++ le 4 n) (loadManifest (parseManifest d) b) := by
  unfold jobLoadL
  rw [if_neg (by simp [hs, hm]), hd]
  dsimp only
  rw [if_neg (not_not_intro hh), he, if_neg Bool.false_ne_true, hf]
  dsimp only
  rw [if_neg (by rw [ht]; exact Bool.false_ne_true), ht]
  rfl

theorem jobLoadL_differs (hs : b.svc.state = .ready) (hm : b.ho.job.man = none) (hd : b.hostRead data (l.p 8 8) = some d)
    (hh : sha384v d ≠ BitVec.ofNat 384 (l.p 16 48)) : jobLoadL data l b = .whole [] 0x0406 0 [] b := by
  unfold jobLoadL
  rw [if_neg (by simp [hs, hm]), hd]
  exact if_pos hh

/-! ### LAUNCH -/

/-- What a LAUNCH needs (R150). -/
structure MayLaunch (l : Letter) (b : Block) : Prop where
  man : b.ho.job.man.isSome = true
  idle : b.inJob = false
  loaded : b.pm.state = .loaded
  aligned : l.p 0 8 % 1000 = 0

theorem launchL_soon {missing : List Nat} (h : MayLaunch l b) (hsoon : l.p 0 8 < b.now + 2000000) : launchL missing l b = .refuse 0x0402 0 := by
  obtain ⟨hman, hidle, hloaded, haligned⟩ := h
  unfold launchL
  dsimp only
  rw [if_neg (by rw [Option.isNone_iff_eq_none]; exact Option.isSome_iff_ne_none.1 hman), hidle, if_neg Bool.false_ne_true,
    if_neg (not_not_intro hloaded), if_neg (not_not_intro haligned)]
  exact if_pos hsoon

/-- The working cores that no launch frame reaches. -/
def lateWorkers (missing : List Nat) (b : Block) : List Nat := b.workCores.filter (fun i => missing.contains i || !b.attached i)

/-- The job after a LAUNCH is armed at its count, and it has not begun. -/
structure LaunchedAt (at0 : Nat) (late : List Nat) (b c : Block) : Prop where
  armed : c.ho.job.armed = true
  launchAt : c.ho.job.launchAt = at0
  unarmed : c.ho.job.unarmed = late
  launched : c.ho.job.launched = b.ho.job.launched
  man : c.ho.job.man = b.ho.job.man

theorem LaunchedAt.of_job {at0 : Nat} {late : List Nat} {b c d : Block} (h : LaunchedAt at0 late b c) (hj : d.ho.job = c.ho.job) : LaunchedAt at0 late b d := by
  obtain ⟨h1, h2, h3, h4, h5⟩ := h
  exact ⟨hj ▸ h1, hj ▸ h2, hj ▸ h3, hj ▸ h4, hj ▸ h5⟩

theorem castStage_job (u act id svc : Nat) (content : List Flit) (targets : List Nat) (b : Block) :
    (castStage u act id svc content targets b).ho.job = b.ho.job :=
  (frame_castStage u act id svc content targets (.refl [.post, .cores, .offices, .routers, .couriers] b) (subs_of rfl)).get .job (by decide)

theorem endSweep_job (b : Block) : (endSweep b).ho.job = b.ho.job :=
  (frame_endSweep (.refl [.ledger, .mgmt, .mail, .post, .offices] b) (subs_of rfl)).get .job (by decide)

/-- The block with a launch armed: the job, and each live worker that the launch frame reaches. -/
def launchArmed (missing : List Nat) (at0 : Nat) (b : Block) : Block :=
  let y := (endSweep b).modJob (fun j => { j with
    armed := true
    launchAt := at0
    armedAt := (endSweep b).now
    armedCnt := (b.workCores.filter (fun i => !(missing.contains i || !b.attached i))).length
    unarmed := lateWorkers missing b
    primaryKat := (endSweep b).choosePrimary })
  forEach y.liveWorkers (fun i x => x.modCore i (fun c =>
    if (lateWorkers missing b).contains i then { armWorker at0 c with time := { (armWorker at0 c).time with armed := none } } else armWorker at0 c)) y

/-- The launch frames that go out again to the working cores that are late. -/
def launchStaged (late : List Nat) (at0 : Nat) (c : Block) : Block :=
  forEach c.popRegions (fun r b => castStage (unitOffice r) at0 c.ho.post.stageId 0x03 [BitVec.ofNat 128 at0]
    ((late.filter (fun i => decide (regionOf i = r))).map unitCore) b) (c.modPost (fun p => { p with stageId := (c.ho.post.stageId + 1) % 65536 }))

theorem launchArmed_job (missing : List Nat) (at0 : Nat) (b : Block) : LaunchedAt at0 (lateWorkers missing b) b (launchArmed missing at0 b) := by
  have hjob : ∀ (f : Nat → Core → Core) (xs : List Nat) (x : Block), (forEach xs (fun i y => y.modCore i (f i)) x).ho.job = x.ho.job := fun f xs x =>
    forEach_inv (P := fun y => y.ho.job = x.ho.job) (fun i y h => (congrArg (·.job) (Block.modCore_ho y i (f i))).trans h) rfl
  unfold launchArmed
  refine LaunchedAt.of_job ?_ (hjob _ _ _)
  exact ⟨rfl, rfl, rfl, congrArg (·.launched) (endSweep_job b), congrArg (·.man) (endSweep_job b)⟩

theorem launchStaged_job (late : List Nat) (at0 : Nat) (c : Block) : (launchStaged late at0 c).ho.job = c.ho.job := by
  unfold launchStaged
  exact forEach_inv (P := fun y => y.ho.job = c.ho.job) (fun r y h => (castStage_job ..).trans h) rfl

/-- A LAUNCH that is not refused arms the working cores it reaches; it is answered at once where it reaches them all. -/
theorem launchL_due {missing : List Nat} (h : MayLaunch l b) (hsoon : b.now + 2000000 ≤ l.p 0 8) (hu : b.unscreenedRoles ≤ b.ho.policy.unscreenedLimit) :
    launchL missing l b = if (lateWorkers missing b).isEmpty then
        .interim (le 8 (l.p 0 8) ++ le 8 (launchArmed missing (l.p 0 8) b).ho.job.armedAt ++ le 4 (launchArmed missing (l.p 0 8) b).ho.job.armedCnt) []
          (launchArmed missing (l.p 0 8) b)
      else .later [] (launchStaged (lateWorkers missing b) (l.p 0 8) (launchArmed missing (l.p 0 8) b)) := by
  obtain ⟨hman, hidle, hloaded, haligned⟩ := h
  unfold launchL
  dsimp only
  rw [if_neg (by rw [Option.isNone_iff_eq_none]; exact Option.isSome_iff_ne_none.1 hman), hidle, if_neg Bool.false_ne_true,
    if_neg (not_not_intro hloaded), if_neg (not_not_intro haligned), if_neg (Nat.not_lt.2 hsoon), if_neg (Nat.not_lt.2 hu)]
  rfl

/-! ### Stops, the end of a job and the Postmark -/

theorem stopAtL_due (h1 : l.p 0 8 % 1000 = 0) (h2 : b.now + 200000 ≤ l.p 0 8) :
    stopAtL l b = .done (le 8 (l.p 0 8)) (b.modStop (fun x => { x with sched := some (l.p 0 8) })) := by
  unfold stopAtL
  dsimp only
  rw [if_neg (not_not_intro h1)]
  exact if_neg (Nat.not_lt.2 h2)

theorem stopReleaseL_free (h : b.env.stopInN = true) :
    stopReleaseL l b = .done [] (b.modStop (fun x => { x with causes := x.causes.filter (fun c => !letterCause c), latch := false })) := by
  unfold stopReleaseL
  exact if_neg (not_not_intro h)

theorem stopReleaseL_held (h : b.env.stopInN = false) : stopReleaseL l b = .refuse 0x0308 0 := by
  unfold stopReleaseL
  exact if_pos (Bool.eq_false_iff.1 h)

theorem postmarkLoadL_due (h1 : 1000 ≤ l.p 8 4) (h2 : l.p 8 4 ≤ 1000000000) (hidle : b.inJob = false) :
    postmarkLoadL l b = .done [1] (setPmState .armed (b.modPm (fun x => { x with
      loadV := BitVec.ofNat 64 (l.p 0 8), loadP := BitVec.ofNat 30 (l.p 8 4) }))) := by
  unfold postmarkLoadL
  dsimp only
  rw [if_neg (by omega), hidle]
  rfl

theorem postmarkLoadL_outOfRange (h : l.p 8 4 < 1000 ∨ 1000000000 < l.p 8 4) : postmarkLoadL l b = .refuse 0x0400 40 := by
  unfold postmarkLoadL
  exact if_pos h

end

/-- Settles O44. -/
theorem jobLetters : Obligations.JobLetters := by
  refine ⟨fun s ring data l d n hr hc hs hm hd hh he hf ht => ?load, fun s ring data l d hr hc hs hm hd hh => ?differs,
    fun s ring l hr hc hman hidle hpm hal hsoon hu hat => ?launch,
    fun s ring l missing i hr hc hman hidle hpm hal hsoon hu hi hmiss => ?unarmed,
    fun s ring l missing hr hc hman hidle hpm hal hsoon => ?soon, fun s ring l hr hc h1 h2 => ?stopAt, fun s ring l hr hc => ?urgent,
    fun s ring l hr hc h => ?release, fun s ring l hr hc h => ?held, fun s ring l hr hc => ?teardown,
    fun s ring l hr hc h1 h2 hidle => ?postmark, fun s ring l hr hc h => ?outOfRange⟩
  case load =>
    have h := act_reply hr hc (jobLoadL_loads hs hm hd hh he hf ht)
    exact h
  case differs =>
    have h := act_reply hr hc (jobLoadL_differs hs hm hd hh)
    exact h
  case launch =>
    have hnone : lateWorkers [] s.blk = [] := List.filter_eq_nil_iff.2 fun i hi => by
      rw [hat i hi]
      exact Bool.false_ne_true
    obtain ⟨h1, h2, h3, h4, h5⟩ := launchArmed_job [] (l.p 0 8) s.blk
    have heq := launchL_due (missing := []) ⟨hman, hidle, hpm, hal⟩ hsoon hu
    rw [hnone] at h3 heq
    exact ⟨launchArmed [] (l.p 0 8) s.blk, act_reply hr hc heq, h1, h2, h3, h4, h5⟩
  case unarmed =>
    have hmem : i ∈ lateWorkers (missing.map (·.toNat)) s.blk := List.mem_filter.2 ⟨hi, by rw [hmiss]; rfl⟩
    have heq := launchL_due (missing := missing.map (·.toNat)) ⟨hman, hidle, hpm, hal⟩ hsoon hu
    rw [if_neg (by rw [List.isEmpty_iff]; exact List.ne_nil_of_mem hmem)] at heq
    obtain ⟨h1, h2, h3, h4, -⟩ := (launchArmed_job (missing.map (·.toNat)) (l.p 0 8) s.blk).of_job (launchStaged_job (lateWorkers (missing.map (·.toNat)) s.blk) (l.p 0 8) _)
    have hact := act_reply hr hc heq
    exact ⟨_, hact, h1, h2, by rwa [h3], h4⟩
  case soon => exact act_reply hr hc (launchL_soon ⟨hman, hidle, hpm, hal⟩ hsoon)
  case stopAt => exact act_reply hr hc (stopAtL_due h1 h2)
  case urgent => exact act_letter hr hc urgentStopL
  case release => exact act_reply hr hc (stopReleaseL_free h)
  case held => exact act_reply hr hc (stopReleaseL_held h)
  case teardown => exact act_letter hr hc jobTeardownL
  case postmark => exact act_reply hr hc (postmarkLoadL_due h1 h2 hidle)
  case outOfRange => exact act_reply hr hc (postmarkLoadL_outOfRange h)

end Sys2Proof.Machine
end

section
/-! The letters of screening and verdicts (R41, R166, R183, R184, R193, R211, R236, R247, R411, R413). -/

namespace Sys2Proof.Machine

open Sys2Proof

theorem outside_idle {f : Letter → Block → Reply} {l : Letter} {b : Block} (h : b.inJob = false) : outside f l b = f l b := if_neg (Bool.eq_false_iff.1 h)

theorem outside_inJob {f : Letter → Block → Reply} {l : Letter} {b : Block} (h : b.inJob = true) : outside f l b = .refuse 0x0303 0 := if_pos h

/-! ### FORMAT_LOAD -/

/-- The formats a FORMAT_LOAD names. -/
def letterFmts (l : Letter) : List (BitVec 64) := (List.range (l.p 1 1)).map (fun i => BitVec.ofNat 64 (l.p (4 + 8 * i) 8))

/-- The formats reach the policy, the Letterboxes and the Intake taps that answer. -/
def fmtsLoaded (missedCores missedTaps : List Nat) (l : Letter) (b : Block) : Block :=
  let x := b.modPolicy (fun p => { p with fmt := putFmts (l.p 0 1) (letterFmts l) p.fmt })
  let y := forEach (x.liveCores.filter (fun i => !(missedCores.contains i || !x.attached i))) (fun i b =>
    b.modCore i (fun c => { c with scr := { c.scr with fmt := putFmts (l.p 0 1) (letterFmts l) c.scr.fmt } })) x
  forEach (((List.range 16).filter (fun k => (x.courier k).powered && !(x.courier k).domFail)).filter (fun k => !missedTaps.contains k)) (fun k b =>
    b.modCourier k (fun c => { c with itFmt := putFmts (l.p 0 1) (letterFmts l) c.itFmt })) y

/-- The Letterboxes that do not answer fail, and the taps that do not answer are disabled. -/
def fmtsLost (lost gone : List Nat) (b : Block) : Block := forEach gone disableDomain (forEach lost failLetterbox b)

/-- The Letterboxes that do not answer. -/
def lostCores (missedCores : List Nat) (b : Block) : List Nat := b.liveCores.filter (fun i => missedCores.contains i || !b.attached i)

/-- The taps that do not answer. -/
def lostTaps (missedTaps : List Nat) (b : Block) : List Nat :=
  ((List.range 16).filter (fun k => (b.courier k).powered && !(b.courier k).domFail)).filter (fun k => missedTaps.contains k)

section
variable {l : Letter} {b : Block}

theorem formatLoadL_due {mc mt : List Nat} (h1 : 1 ≤ l.p 1 1) (h16 : l.p 1 1 ≤ 16) (hsum : l.p 0 1 + l.p 1 1 ≤ 16)
    (hok : ∀ i, i < l.p 1 1 → fmtOk (BitVec.ofNat 64 (l.p (4 + 8 * i) 8)) = true) :
    formatLoadL mc mt l b = .done (le 4 ((lostCores mc b).length + (lostTaps mt b).length)) (fmtsLost (lostCores mc b) (lostTaps mt b) (fmtsLoaded mc mt l b)) := by
  have hfind : (List.range (l.p 1 1)).find? (fun i => !fmtOk ((letterFmts l).getD i 0)) = none := by
    refine List.find?_eq_none.2 fun i hi => ?_
    have hlt := List.mem_range.1 hi
    have hget : (letterFmts l).getD i 0 = BitVec.ofNat 64 (l.p (4 + 8 * i) 8) := by
      unfold letterFmts
      rw [getD_of_lt _ (by rwa [List.length_map, List.length_range]), List.getElem_map, List.getElem_range]
    rw [hget, hok i hlt]
    exact Bool.false_ne_true
  unfold formatLoadL
  dsimp only
  rw [if_neg (by omega), if_neg (by omega)]
  unfold letterFmts at hfind
  rw [hfind]
  rfl

theorem fmtsLoaded_policy (mc mt : List Nat) (l : Letter) (b : Block) :
    (fmtsLoaded mc mt l b).ho.policy.fmt = putFmts (l.p 0 1) (letterFmts l) b.ho.policy.fmt := by
  unfold fmtsLoaded
  dsimp only
  rw [forEach_keep (fun c => c.ho.policy.fmt) _ (fun k c => congrArg (·.policy.fmt) (Block.modCourier_ho c k _)),
    forEach_keep (fun c => c.ho.policy.fmt) _ (fun k c => congrArg (·.policy.fmt) (Block.modCore_ho c k _))]
  rfl

theorem fmtsLoaded_frame (mc mt : List Nat) (l : Letter) (b : Block) : Frame [.policy, .cores, .couriers] b (fmtsLoaded mc mt l b) := by
  unfold fmtsLoaded
  refine Frame.forEach1 (Frame.forEach1 (frame_modPolicy _ (.refl _ b) (by decide)) ?_) ?_
  · exact fun i c h => frame_modCore _ _ h (by decide)
  · exact fun k c h => frame_modCourier _ _ h (by decide)

theorem failLetterbox_policy (i : Nat) (b : Block) : (failLetterbox i b).ho.policy = b.ho.policy :=
  (frame_failLetterbox i (.refl [.ledger, .bm, .cores, .offices] b) (subs_of rfl)).get .policy (by decide)

theorem disableDomain_policy (n : Nat) (b : Block) : (disableDomain n b).ho.policy = b.ho.policy :=
  (frame_disableDomain n (.refl [.ledger, .stop, .dbg, .mgmt, .mail, .fleet, .parcel, .post, .cores, .offices, .routers, .couriers] b) (subs_of rfl)).get
    .policy (by decide)

theorem fmtsLost_policy (lost gone : List Nat) (b : Block) : (fmtsLost lost gone b).ho.policy = b.ho.policy := by
  unfold fmtsLost
  rw [forEach_keep (fun c => c.ho.policy) _ disableDomain_policy, forEach_keep (fun c => c.ho.policy) _ failLetterbox_policy]

theorem lostCores_nil (h : ∀ i ∈ b.liveCores, b.attached i = true) : lostCores [] b = [] :=
  List.filter_eq_nil_iff.2 fun i hi => by
    rw [h i hi]
    exact Bool.false_ne_true

theorem lostTaps_nil (b : Block) : lostTaps [] b = [] := List.filter_eq_nil_iff.2 fun _ _ => Bool.false_ne_true

/-! ### Rates, canaries, verdicts and queries -/

theorem diceRatesL_due (h0 : rateOk (l.p 0 1) = true) (h1 : rateOk (l.p 1 1) = true) (h2 : rateOk (l.p 2 1) = true) :
    diceRatesL l b = .done [] (b.modPolicy (fun p => { p with
      rdSuspect := l.p 0 1, rdProbation := l.p 1 1, rdActive := l.p 2 1, thrLd := BitVec.ofNat 32 (l.p 4 4) })) := by
  have hfind : [0, 1, 2].find? (fun o => !rateOk (l.p o 1)) = none := by
    simp [h0, h1, h2]
  unfold diceRatesL
  rw [hfind]

theorem canaryBandsL_one (h0 : l.p 0 1 ≤ 2) (h1 : l.p 1 1 ≤ 2) (h2 : l.p 2 1 ≤ 2) (h3 : l.p 3 1 ≤ 1) (h4 : l.p 4 1 ≤ 2) (h6 : l.p 6 1 = 1)
    (h5 : l.p 5 1 ≤ 255) (hband : fld (l.p 8 1) 0 4 ≤ fld (l.p 8 1) 4 4) :
    canaryBandsL l b = .done [] (b.modPolicy (fun p => { p with
      canary := [l.p 0 1, l.p 1 1, l.p 2 1, l.p 3 1, l.p 4 1]
      bands := tset p.bands (l.p 5 1) (fld (l.p 8 1) 0 4, fld (l.p 8 1) 4 4) })) := by
  have hfind : (List.range 5).find? (fun o => decide ((if o = 3 then 1 else 2) < l.p o 1)) = none := by
    refine List.find?_eq_none.2 fun o ho => ?_
    have hlt := List.mem_range.1 ho
    rw [decide_eq_true_eq, Nat.not_lt]
    obtain rfl | rfl | rfl | rfl | rfl : o = 0 ∨ o = 1 ∨ o = 2 ∨ o = 3 ∨ o = 4 := by omega
    · exact h0
    · exact h1
    · exact h2
    · exact h3
    · exact h4
  have hrise : [0].find? (fun i => decide (fld (l.p (8 + i) 1) 4 4 < fld (l.p (8 + i) 1) 0 4)) = none :=
    List.find?_eq_none.2 fun i hi => by
      rw [List.mem_singleton.1 hi]
      simpa using hband
  unfold canaryBandsL
  dsimp only
  rw [hfind, h6]
  dsimp only
  rw [if_neg (by decide), if_neg (by omega), show List.range 1 = [0] from rfl, hrise]
  rfl

theorem verdictPolicyL_due (h1 : 1 ≤ l.p 0 1) (h4 : l.p 0 1 ≤ 4) :
    verdictPolicyL l b = .done [] (b.modPolicy (fun p => { p with replayLimit := l.p 0 1, unscreenedLimit := l.p 2 2 })) := by
  unfold verdictPolicyL
  exact if_neg (by omega)

theorem stepQueryL_found {x : StepRec} (h : b.ho.job.hist.find? (fun x => decide (x.step = l.p 0 4)) = some x) :
    stepQueryL l b = .done (le 1 (if b.now < x.fc then 0 else if x.frank then 1 else 2) ++
      le 1 x.replays ++ [0, 0] ++ le 4 x.mask.toNat ++ le 16 x.digest.toNat ++ le 8 x.fc) b := by
  unfold stepQueryL
  rw [h]

theorem coreQueryL_due (h : l.p 0 4 < 2 ^ 20) :
    coreQueryL l b = .done (le 8 (b.entry (l.p 0 4)) ++ le 1 (b.hist (l.p 0 4)).pips ++ le 1 (b.hist (l.p 0 4)).fences ++ [0, 0] ++
      le 8 ((b.hist (l.p 0 4)).probStart.getD 0)) b := by
  unfold coreQueryL
  exact if_neg (Nat.not_le.2 h)

end

/-- Settles O45. -/
theorem screeningLetters : Obligations.ScreeningLetters := by
  refine ⟨fun s ring l hr hc hidle h1 h16 hsum hok hat => ?formats, fun s ring m t l hr hc hidle h1 h16 hsum hok => ?someMissed,
    fun s ring m t l hr hc hjob => ?inJob, fun s ring l hr hc hidle h0 h1 h2 => ?rates,
    fun s ring l hr hc hidle h0 h1 h2 h3 h4 h6 h5 hband => ?bands, fun s ring l hr hc hidle h1 h4 => ?policy,
    fun s ring l x hr hc hx => ?step, fun s ring l hr hc hi => ?core⟩
  case formats =>
    have heq := act_reply hr hc ((outside_idle hidle).trans (formatLoadL_due (mc := []) (mt := maskBits (0 : BitVec 16)) h1 h16 hsum hok))
    rw [show maskBits (0 : BitVec 16) = [] from by decide, lostCores_nil hat, lostTaps_nil] at heq
    exact ⟨_, heq, fmtsLoaded_policy .., fmtsLoaded_frame [] [] l s.blk⟩
  case someMissed =>
    have heq := act_reply hr hc ((outside_idle hidle).trans (formatLoadL_due (mc := m.map (·.toNat)) (mt := maskBits t) h1 h16 hsum hok))
    exact ⟨_, _, heq, (congrArg (·.fmt) (fmtsLost_policy ..)).trans (fmtsLoaded_policy ..)⟩
  case inJob => exact act_reply hr hc (outside_inJob hjob)
  case rates => exact act_reply hr hc ((outside_idle hidle).trans (diceRatesL_due h0 h1 h2))
  case bands =>
    have h := act_reply hr hc ((outside_idle hidle).trans (canaryBandsL_one h0 h1 h2 h3 h4 h6 h5 hband))
    exact h
  case policy => exact act_reply hr hc ((outside_idle hidle).trans (verdictPolicyL_due h1 h4))
  case step =>
    have h := act_reply hr hc (stepQueryL_found hx)
    exact h
  case core => exact act_reply hr hc (coreQueryL_due hi)

end Sys2Proof.Machine
end

section
/-! CORE_RESTORE with the Office's test queue full: the event TEST_QUEUE_FULL goes into the trace, so the debug unit changes (R232, R264). -/

namespace Sys2Proof.Machine

open Sys2Proof

/-! ### The trace of an event -/

/-- An event never shortens the trace. -/
theorem traceEvent_length_le (code pm unit : Nat) (body : List Byte) (b : Block) : b.dbg.trace.length ≤ (traceEvent code pm unit body b).dbg.trace.length := by
  unfold traceEvent
  dsimp only
  split
  · split
    · rw [admitEvent_dbg]
      exact Nat.le_refl _
    · show b.dbg.trace.length ≤ ((if decide (16384 ≤ b.dbg.trace.length) = true then b.dbg.trace.drop 1 else b.dbg.trace) ++ [_]).length
      rw [List.length_append, List.length_singleton]
      split
      · rw [List.length_drop]
        omega
      · omega
  · exact Nat.le_refl _

/-- An event whose ring is traced lengthens a trace that has room. -/
theorem traceEvent_length {code : Nat} (pm unit : Nat) (body : List Byte) {b : Block} (hstate : b.dbg.state = 1)
    (hring : bit (fld b.dbg.ctrl.toNat 2 8) (evRing code - 56) = true) (hexp : b.dbg.exporting = none) (hroom : b.dbg.trace.length < 16384) :
    (traceEvent code pm unit body b).dbg.trace.length = b.dbg.trace.length + 1 := by
  have hfull : decide (16384 ≤ b.dbg.trace.length) = false := decide_eq_false (Nat.not_le.2 hroom)
  unfold traceEvent
  dsimp only
  rw [if_pos ⟨hstate, hring, by rw [hexp]; rfl⟩, if_neg (fun h => Bool.false_ne_true (hfull.symm.trans h.1))]
  show ((if decide (16384 ≤ b.dbg.trace.length) = true then b.dbg.trace.drop 1 else b.dbg.trace) ++ [_]).length = _
  rw [hfull, if_neg Bool.false_ne_true, List.length_append, List.length_singleton]

theorem postEvent_trace_le (code unit : Nat) (body : List Byte) (b : Block) : b.dbg.trace.length ≤ (postEvent code unit body b).dbg.trace.length := by
  unfold postEvent postEventN
  split
  · rw [admitEvent_dbg]
    exact traceEvent_length_le ..
  · exact Nat.le_refl _

theorem queueUnit_trace_le (r : Nat) (u : TestUnit) (b : Block) : b.dbg.trace.length ≤ (queueUnit r u b).dbg.trace.length := by
  unfold queueUnit
  dsimp only
  split
  · exact Nat.le_refl _
  · exact postEvent_trace_le _ _ _ (b.modOffice r _)

/-- A unit that finds the queue full is an event. -/
theorem queueUnit_full_trace {r : Nat} (u : TestUnit) {b : Block} (hfull : 1024 ≤ (b.office r).testq.length) (hon : b.svc.hoOn = true)
    (hstate : b.dbg.state = 1) (hring : bit (fld b.dbg.ctrl.toNat 2 8) (evRing evTestQueueFull - 56) = true) (hexp : b.dbg.exporting = none)
    (hroom : b.dbg.trace.length < 16384) : (queueUnit r u b).dbg.trace.length = b.dbg.trace.length + 1 := by
  unfold queueUnit postEvent postEventN
  dsimp only
  rw [if_neg (Nat.not_lt.2 hfull)]
  refine (congrArg (fun c : Block => c.dbg.trace.length) (if_pos hon)).trans ?_
  rw [admitEvent_dbg]
  exact traceEvent_length (b := b.modOffice r _) _ _ _ hstate hring hexp hroom

/-! ### The counterexample -/

/-- The CORE_RESTORE of core 3: its 32 bytes before the parameters, and the core. -/
def restoreLetter : Letter := ⟨0, le 2 (1 + 16 * 0x403) ++ [0, 4] ++ le 28 0 ++ le 4 3, none, none⟩

/-- The letter is at the head of ring 0. Core 3 is fenced once, its Office's test queue is full, and every event ring is traced. -/
def crowded : Block where
  env := { porN := true }
  svc := { state := .ready, hoOn := true, hoPassed := true, imageOk := true }
  cfg := some { regions := 1, present := [(0, 3)] }
  ledger := { hist := [(3, { st := .fenced, fences := 1 })] }
  dbg := { state := 1, ctrl := 0x3FC }
  units := { offices := [(0, { testq := List.replicate 1024 ⟨3, 0, 0, .suspicion, 0, 0⟩ })] }
  ho := { mail := { rings := [(0, { ltrTail := 1, ready := true })] } }
  letters := memWrites [] 0 restoreLetter.bytes

/-- A CORE_RESTORE of core 3 is at the head of ring 0. -/
def crowdedState : State := { blk := crowded }

/-- The core leaves hold and gating for its tests. -/
def restoring (i : Nat) (b : Block) : Block :=
  b.modCore i (fun c => { c with
    pins := { c.pins with holdN := true, cgN := true }
    ctl := { c.ctl with toHold := false, vokFalls := 0 } })

/-- The two units of a CORE_RESTORE are queued. -/
def restoreQueued (i : Nat) (b : Block) : Block :=
  queueUnit (regionOf i) ((restoring i b).unit i 3 (restoring i b).lowKat .restore) (queueUnit (regionOf i) ((restoring i b).unit i 0 0 .restore) (restoring i b))

theorem coreRestoreL_due {l : Letter} {b : Block} (hi : l.p 0 4 < 2 ^ 20) (hst : b.coreState (l.p 0 4) = .fenced)
    (hblk : tget b.ho.bm.blocked (l.p 0 4) = none) (hf : (b.hist (l.p 0 4)).fences = 1) :
    coreRestoreL l b = .interim [] [l.p 0 4] (restoreQueued (l.p 0 4) b) := by
  unfold coreRestoreL
  exact if_neg (by rw [hst, hblk, hf]; simpa using hi)

theorem coreRestore_due {s : State} {ring : BitVec 6} {l : Letter} (hr : s.released) (hc : s.blk.carries ring.toNat 0x403 l)
    (hidle : s.blk.inJob = false) (hi : l.p 0 4 < 2 ^ 20) (hst : s.blk.coreState (l.p 0 4) = .fenced)
    (hblk : tget s.blk.ho.bm.blocked (l.p 0 4) = none) (hf : (s.blk.hist (l.p 0 4)).fences = 1) :
    exec (.coreRestore ring) s = .next (s.after (answerInterim ring.toNat l [] [l.p 0 4] (restoreQueued (l.p 0 4) s.blk))) := by
  have h := act_reply hr hc ((outside_idle hidle).trans (coreRestoreL_due hi hst hblk hf))
  exact h

theorem answerInterim_dbg (r : Nat) (l : Letter) (res : List Byte) (acc : List Nat) (b : Block) : (answerInterim r l res acc b).dbg = b.dbg :=
  (frame_answerInterim r l res acc (.refl [.ledger, .mgmt, .mail, .post] b) (subs_of rfl)).get .dbg (by decide)

theorem answerInterim_after_dbg {s : State} {r : Nat} {l : Letter} {res : List Byte} {acc : List Nat} {b c : Block}
    (h : (Host.Outcome.next (s.after (answerInterim r l res acc b)) : Host.Outcome State Fault Refusal) = .next (s.after (answerInterim r l res acc c))) :
    b.dbg = c.dbg := by
  have hdbg : (answerInterim r l res acc b).dbg = (answerInterim r l res acc c).dbg := congrArg (fun t => t.blk.dbg) (Host.Outcome.next.inj h)
  rwa [answerInterim_dbg, answerInterim_dbg] at hdbg

theorem crowded_full : ((restoring 3 crowded).office (regionOf 3)).testq = List.replicate 1024 ⟨3, 0, 0, .suspicion, 0, 0⟩ := rfl

theorem crowded_trace : (restoreQueued 3 crowded).dbg.trace.length ≠ crowded.dbg.trace.length := by
  have hfull : 1024 ≤ ((restoring 3 crowded).office (regionOf 3)).testq.length := Nat.le_of_eq (by rw [crowded_full, List.length_replicate])
  have hfirst := queueUnit_full_trace (b := restoring 3 crowded) ((restoring 3 crowded).unit 3 0 0 .restore) hfull rfl rfl rfl rfl (show 0 < 16384 by decide)
  have hsecond := queueUnit_trace_le (regionOf 3) ((restoring 3 crowded).unit 3 3 (restoring 3 crowded).lowKat .restore)
    (queueUnit (regionOf 3) ((restoring 3 crowded).unit 3 0 0 .restore) (restoring 3 crowded))
  have hsame : (restoring 3 crowded).dbg = crowded.dbg := rfl
  rw [hfirst, hsame] at hsecond
  unfold restoreQueued
  omega

theorem crowded_carries : crowdedState.blk.carries 0 0x403 restoreLetter := by
  unfold Block.carries
  decide +kernel

theorem restoreLetter_core : restoreLetter.p 0 4 = 3 := by decide

theorem crowded_fenced : crowded.coreState 3 = .fenced := by decide +kernel

/-- Refutes O46: the clause of CORE_RESTORE leaves the debug unit out of what changes, but a unit that finds the Office's test queue
full raises TEST_QUEUE_FULL, and the trace takes it. -/
theorem not_testLetters : ¬ Obligations.TestLetters := by
  rintro ⟨-, -, hrestore, -⟩
  have hr : crowdedState.released := rfl
  have hidle : crowdedState.blk.inJob = false := rfl
  have hi : restoreLetter.p 0 4 < 2 ^ 20 := by rw [restoreLetter_core]; decide
  have hst : crowdedState.blk.coreState (restoreLetter.p 0 4) = .fenced := by rw [restoreLetter_core]; exact crowded_fenced
  have hblk : tget crowdedState.blk.ho.bm.blocked (restoreLetter.p 0 4) = none := rfl
  have hf : (crowdedState.blk.hist (restoreLetter.p 0 4)).fences = 1 := by rw [restoreLetter_core]; rfl
  obtain ⟨b, hb, -, -, -, hframe⟩ := hrestore crowdedState 0 restoreLetter hr crowded_carries hidle hi hst hblk hf
  have hdbg := answerInterim_after_dbg ((coreRestore_due (ring := 0) hr crowded_carries hidle hi hst hblk hf).symm.trans hb)
  have hkept : b.dbg = crowded.dbg := hframe.get .dbg (by decide)
  rw [restoreLetter_core, hkept] at hdbg
  exact crowded_trace (congrArg (fun d : Debug => d.trace.length) hdbg)

end Sys2Proof.Machine
end

section
/-! The letters of network tables, fleet rings and parcels (R314, R329, R330, R373, R374, R386 to R391, R415, R416, R445). -/

namespace Sys2Proof.Machine

open Sys2Proof

section
variable {l : Letter} {b : Block}

/-! ### Rings, links and partners -/

/-- The ring lengths a FLEET_RINGS names. -/
def letterRings (l : Letter) : List Nat := (List.range 8).map (fun r => l.p r 1)

/-- The fleet and the wafer's address in it, as a FLEET_RINGS sets them. -/
def ringsSet (l : Letter) (b : Block) : Block :=
  (b.modFleet (fun f => { f with len := letterRings l })).modMgmt (fun m => { m with wafer := BitVec.ofNat 15 (l.p 8 2), waferVld := true })

theorem fleetRingsL_due (hlen : ∀ r, r < 8 → l.p r 1 ≠ 0) (hsize : fleetSize (letterRings l) ≤ 32768)
    (hhops : (letterRings l).foldl (fun a x => a + x / 2) 0 ≤ 24) (hw : l.p 8 2 < fleetSize (letterRings l)) :
    fleetRingsL l b = .done (le 2 (ringsSet l b).ringSig) (ringsSet l b) := by
  have hfind : (List.range 8).find? (fun r => lnat (letterRings l) r = 0) = none := by
    refine List.find?_eq_none.2 fun r hr => ?_
    have hlt := List.mem_range.1 hr
    have hget : lnat (letterRings l) r = l.p r 1 := by
      unfold letterRings lnat
      rw [getD_of_lt _ (by rwa [List.length_map, List.length_range]), List.getElem_map, List.getElem_range]
    rw [hget, decide_eq_true_eq]
    exact hlen r hlt
  unfold letterRings at hfind hsize hhops hw
  unfold fleetRingsL
  dsimp only
  rw [hfind]
  dsimp only
  rw [if_neg (by omega), if_neg (by omega)]
  rfl

theorem ringsSet_frame (l : Letter) (b : Block) : Frame [.fleet, .mgmt] b (ringsSet l b) :=
  frame_modMgmt _ (frame_modFleet _ (.refl _ b) (by decide)) (by decide)

theorem courierEnableL_free (h : b.capturing = false) :
    courierEnableL l b = .done (le 2 ((crEnable (l.p 0 2) b).crMask (·.en))) (crEnable (l.p 0 2) b) := by
  unfold courierEnableL
  exact if_neg (Bool.eq_false_iff.1 h)

theorem courierEnableL_capturing (h : b.capturing = true) : courierEnableL l b = .refuse 0x0307 0 := by
  unfold courierEnableL
  exact if_pos h

theorem partnerQueryL_due (h1 : 1 ≤ l.p 2 1) (h6 : l.p 2 1 ≤ 6) :
    partnerQueryL l b = .done (le 1 ((b.ho.fleet.partners.filter (fun p => decide (l.p 0 2 ≤ p.1))).take (l.p 2 1)).length ++ [0, 0, 0] ++
      ((b.ho.fleet.partners.filter (fun p => decide (l.p 0 2 ≤ p.1))).take (l.p 2 1)).flatMap (fun p => le 32 (b.partnerEntry p.1 p.2))) b := by
  unfold partnerQueryL
  exact if_neg (by omega)

/-! ### Policy -/

theorem parcelPolicyL_due (hm : b.ho.job.man = none) (hi : l.p 0 2 = 0 ∨ (5 ≤ l.p 0 2 ∧ l.p 0 2 ≤ 1440)) (h1 : 1 ≤ l.p 2 1) (h8 : l.p 2 1 ≤ 8)
    (ht : l.p 4 4 % 1000 = 0) (hmax : l.p 4 4 ≤ 45000000) :
    parcelPolicyL l b = .done [] (b.modPolicy (fun p => { p with interval := l.p 0 2, attempts := l.p 2 1, tStop := l.p 4 4 })) := by
  unfold parcelPolicyL
  dsimp only
  rw [if_neg (by omega), if_neg (by omega), hm]
  refine if_neg ?_
  rintro (h | h | h)
  · exact h ht
  · exact Nat.not_lt.2 hmax h
  · exact Bool.false_ne_true h

/-! ### Reservations at a Holder -/

/-- No reservation of this holdee and generation is open. -/
def Block.unreserved (b : Block) (l : Letter) : Prop :=
  b.ledger.holds.find? (fun h => decide (h.holdee = l.holdee) && decide (h.gen = l.p 0 4) && !h.committed) = none

/-- The base address that a reservation is given. -/
def reserveBase (b : Block) : Nat := (freshWord b).1.toNat / 65536 * 65536

/-- The reservation is recorded. -/
def reserved (l : Letter) (b : Block) : Block :=
  (freshWord b).2.modLedger (fun d => { d with holds := d.holds ++ [{
    holdee := l.holdee, gen := l.p 0 4, epoch := l.p 4 2, base := reserveBase b, pages := l.p 8 4, since := b.now }] })

theorem parcelReserveL_room (hn : b.unreserved l) (hroom : b.pagesHeld + l.p 8 4 ≤ b.ho.policy.holderCap * 262144) :
    parcelReserveL l b = .done (le 8 (reserveBase b)) (reserved l b) := by
  unfold Block.unreserved at hn
  unfold parcelReserveL
  dsimp only
  rw [hn]
  exact if_neg (Nat.not_lt.2 hroom)

theorem parcelReserveL_full (hn : b.unreserved l) (hfull : b.ho.policy.holderCap * 262144 < b.pagesHeld + l.p 8 4) :
    parcelReserveL l b = .refuse 0x0500 0 := by
  unfold Block.unreserved at hn
  unfold parcelReserveL
  dsimp only
  rw [hn]
  exact if_pos hfull

theorem freshWord_frame (b : Block) : Frame [.free] b (freshWord b).2 := frame_freshWord (.refl _ b) (subs_of rfl)

theorem reserved_holds (l : Letter) (b : Block) : (reserved l b).ledger.holds = b.ledger.holds ++ [{
    holdee := l.holdee, gen := l.p 0 4, epoch := l.p 4 2, base := reserveBase b, pages := l.p 8 4, since := b.now }] := by
  have hledger : (freshWord b).2.ledger = b.ledger := (freshWord_frame b).get .ledger (by decide)
  unfold reserved
  rw [Block.modLedger_ledger, hledger]

theorem reserved_frame (l : Letter) (b : Block) : Frame [.ledger, .free] b (reserved l b) :=
  frame_modLedger _ (frame_freshWord (.refl _ b) (by decide)) (by decide)

/-! ### Commits, queries and releases -/

theorem parcelCommitL_due {h : HoldRec} (hf : b.ledger.holds.find? (fun h => decide (h.holdee = l.holdee) && decide (h.gen = l.p 0 4)) = some h)
    (he : h.epoch = l.p 4 2) (hp : h.pages = l.p 8 4) (hc : h.committed = false) :
    parcelCommitL l b = .done [] (b.modLedger (fun d => { d with holds := d.holds.map (fun (x : HoldRec) =>
      if x.holdee = l.holdee ∧ x.gen = h.gen then { x with root := BitVec.ofNat 384 (l.p 12 48), committed := true } else x) })) := by
  unfold parcelCommitL
  dsimp only
  rw [hf]
  dsimp only
  rw [if_neg (not_not_intro he), if_neg (not_not_intro hp)]
  exact if_neg (Bool.eq_false_iff.1 hc)

/-- A commit under the epoch of its reservation is no dead letter. -/
theorem parcelCommit_current {r : Nat} {h : HoldRec} (hhead : b.headLetter r = some l)
    (hf : b.ledger.holds.find? (fun h => decide (h.holdee = l.holdee) && decide (h.gen = l.p 0 4)) = some h) (he : h.epoch = l.p 4 2) :
    parcelCommit r b = letterRow r 0x611 parcelCommitL b := by
  unfold parcelCommit
  rw [hhead]
  dsimp only
  rw [hf]
  dsimp only
  refine if_neg fun h => ?_
  rw [decide_eq_false (not_not_intro he), Bool.and_false] at h
  exact Bool.false_ne_true h

/-- The records that a PARCEL_RELEASE ends. -/
def released (l : Letter) (h : HoldRec) : Bool := decide (h.holdee = l.p 0 2) && decide (h.gen = l.p 4 4)

/-- They are gone, and their space cools down. -/
def spaceReleased (l : Letter) (b : Block) : Block :=
  forEach (b.ledger.holds.filter (released l)) (fun h b => coolSpace h.pages b) (b.modLedger (fun d => { d with holds := d.holds.filter (fun h => !released l h) }))

theorem spaceReleased_holds (l : Letter) (b : Block) : (spaceReleased l b).ledger.holds = b.ledger.holds.filter (fun h => !released l h) := by
  unfold spaceReleased
  rw [forEach_keep (fun c => c.ledger) (fun (h : HoldRec) c => coolSpace h.pages c) (fun _ _ => rfl)]
  rfl

theorem spaceReleased_frame (l : Letter) (b : Block) : Frame [.ledger, .parcel] b (spaceReleased l b) := by
  unfold spaceReleased
  refine Frame.forEach1 (frame_modLedger _ (.refl _ b) (by decide)) fun h c hc => ?_
  exact frame_coolSpace _ hc (by decide)

/-! ### PARCEL_RESTORE -/

/-- This wafer's record of the root: its own Ledger's, or the letter's where the parcel is another wafer's. -/
def ownRoot (l : Letter) (b : Block) : BitVec 384 :=
  if l.p 0 2 = b.wafer then ((b.ledger.gens.find? (fun g => decide (g.gen = l.p 4 4))).map (·.root)).getD 0 else BitVec.ofNat 384 (l.p 12 48)

theorem parcelRestoreL_fails {a : RestoreAnswers} {d : Nat} (hm : b.ho.job.man.isSome = true) (hidle : b.inJob = false)
    (hroot : chooseRoot (ownRoot l b) a.root1 a.root2 = .fail d) : parcelRestoreL a l b = .whole [] 0x0601 d [] b := by
  unfold ownRoot at hroot
  unfold parcelRestoreL
  rw [if_neg (by rw [Option.isNone_iff_eq_none]; exact Option.isSome_iff_ne_none.1 hm), hidle, if_neg Bool.false_ne_true]
  dsimp only
  rw [hroot]

/-- The first copy is read back whole. -/
theorem restorePass_first {a : RestoreAnswers} {head : List Byte}
    (hread : ∀ i, i < (pageKinds head).length → pageWhole head i (a.data1.getD i []) = true ∨ pageWhole head i (a.data2.getD i []) = true)
    (hback : ∀ i, i < (pageKinds head).length → lnat (pageKinds head) i ≠ 4 → pageWhole head i (a.back1.getD i []) = true) :
    restorePass a head [false, true] false = true := by
  have h1 : copyReads head a.data1 (some a.data2) = true := by
    refine List.all_eq_true.2 fun i hi => ?_
    rw [Bool.or_eq_true]
    exact hread i (List.mem_range.1 hi)
  have h2 : readsBack head a.back1 = true := by
    refine List.all_eq_true.2 fun i hi => ?_
    rw [Bool.or_eq_true, decide_eq_true_eq]
    exact (Decidable.em _).imp_right (hback i (List.mem_range.1 hi))
  show (copyReads head a.data1 (some a.data2) && readsBack head a.back1) = true
  rw [h1, h2]
  rfl

theorem parcelRestoreL_whole {a : RestoreAnswers} {root : BitVec 384} (hm : b.ho.job.man.isSome = true) (hidle : b.inJob = false)
    (hroot : chooseRoot (ownRoot l b) a.root1 a.root2 = .use root [false, true] false false) (hup : (List.range 16).any (fun p => b.portUp p) = true)
    (hhead : sha384v a.head1.flatten = root) (hmap : restoreMapOk b a.head1.flatten a.records = true)
    (hpass : restorePass a a.head1.flatten [false, true] false = true) :
    parcelRestoreL a l b = .whole [] 0x0002 0 (le 4 (rd a.head1.flatten 16 4) ++ le 4 (rd a.head1.flatten 20 4)) (applyRestore a (rd a.head1.flatten 16 4) b) := by
  have hcopy : [false, true].find? (fun c => (List.range 16).any (fun p => b.portUp p) &&
      decide (sha384v (if c then a.head2 else a.head1).flatten = root)) = some false :=
    List.find?_cons_of_pos (by rw [hup, if_neg Bool.false_ne_true, decide_eq_true hhead]; rfl)
  unfold ownRoot at hroot
  unfold parcelRestoreL
  rw [if_neg (by rw [Option.isNone_iff_eq_none]; exact Option.isSome_iff_ne_none.1 hm), hidle, if_neg Bool.false_ne_true]
  dsimp only
  rw [hroot]
  dsimp only
  rw [if_neg Bool.false_ne_true, if_neg Bool.false_ne_true, hcopy]
  refine (if_neg (not_not_intro hmap)).trans (if_pos ?_)
  rw [List.any_cons]
  exact Bool.or_eq_true_iff.2 (.inl hpass)

end

/-- Settles O47. -/
theorem networkAndParcelLetters : Obligations.NetworkAndParcelLetters := by
  refine ⟨fun s ring l hr hc hidle hlen hsize hhops hw => ?rings, fun s ring l hr hc hcap => ?enable, fun s ring l hr hc hcap => ?capturing,
    fun s ring l hr hc h1 h6 => ?partners, fun s ring l hr hc hidle hm hi h1 h8 ht hmax => ?policy, fun s ring l hr hc => ?cap,
    fun s ring l hr hc hn hroom => ?reserve, fun s ring l hr hc hn hfull => ?full, fun s ring l h hr hc hf he hp hcom => ?commit,
    fun s ring l hs hr hc hhs => ?query, fun s ring l hr hc => ?release,
    fun s ring a l root hr hc hm hidle hroot hup hhead hmap hread hback => ?restore, fun s ring a l d hr hc hm hidle hroot => ?fails⟩
  case rings =>
    have h := act_reply hr hc ((outside_idle hidle).trans (fleetRingsL_due hlen hsize hhops hw))
    exact ⟨_, h, rfl, rfl, ringsSet_frame l s.blk⟩
  case enable => exact act_reply hr hc (courierEnableL_free hcap)
  case capturing => exact act_reply hr hc (courierEnableL_capturing hcap)
  case partners =>
    have h := act_reply hr hc (partnerQueryL_due h1 h6)
    exact h
  case policy => exact act_reply hr hc ((outside_idle hidle).trans (parcelPolicyL_due hm hi h1 h8 ht hmax))
  case cap => exact act_letter hr hc holderCapL
  case reserve =>
    have h := act_reply hr hc (parcelReserveL_room hn hroom)
    exact ⟨_, _, h, Nat.mul_mod_left _ _, reserved_holds .., reserved_frame l s.blk⟩
  case full => exact act_reply hr hc (parcelReserveL_full hn hfull)
  case commit =>
    have h := act_after hr ((parcelCommit_current hc.1 hf he).trans (letterRow_carries hc parcelCommitL))
    rw [parcelCommitL_due hf he hp hcom] at h
    exact h
  case query =>
    subst hhs
    have h := act_letter hr hc parcelQueryL
    exact h
  case release =>
    have h := act_reply (f := parcelReleaseL) (y := .done [] (spaceReleased l s.blk)) hr hc rfl
    exact ⟨_, h, spaceReleased_holds .., spaceReleased_frame l s.blk⟩
  case restore =>
    have h := act_reply hr hc (parcelRestoreL_whole hm hidle hroot hup hhead hmap (restorePass_first hread hback))
    exact h
  case fails =>
    have h := act_reply hr hc (parcelRestoreL_fails hm hidle hroot)
    exact h

end Sys2Proof.Machine
end

section
/-! The letters of resets and images, of the debug group, and the trace trigger (R356, R359, R363, R365, R417, R418, R422 to R425, R462 to R468, R472). -/

namespace Sys2Proof.Machine

open Sys2Proof

theorem carries_due {b : Block} {r op : Nat} {l : Letter} (h : b.carries r op l) : b.letterDue r op = true := h.2.1

section
variable {l : Letter} {b : Block}

/-! ### Resets -/

theorem warmResetL_resets (h : b.escalates = false) : warmResetL l b = .interim [] [] (startWarm 1 b) := by
  unfold warmResetL
  exact if_neg (Bool.eq_false_iff.1 h)

theorem warmResetL_escalates (h : b.escalates = true) : warmResetL l b = .whole [] 0x0302 0 [] (startWarm 1 b) := by
  unfold warmResetL
  exact if_pos h

theorem coldReset_carries {r : Nat} (h : b.carries r 0x702 l) : coldReset r b = startCold 4 (answerOk r l [] b) := by
  unfold coldReset
  rw [if_pos (carries_due h), letterRow_carries h]
  rfl

/-- The policy of resets, with the records in the window counted anew. -/
def resetPolicySet (l : Letter) (b : Block) : Block :=
  let x := b.modPolicy (fun p => { p with resetCount := l.p 0 1, autoWarm := decide (l.p 1 1 = 1), resetWindow := l.p 2 2 })
  x.modResets (fun y => { y with inWindow := x.recordsIn y.warmAt })

theorem resetPolicyL_due (h1 : 1 ≤ l.p 0 1) (h15 : l.p 0 1 ≤ 15) (hauto : l.p 1 1 ≤ 1) (hw : 1 ≤ l.p 2 2) (hmax : l.p 2 2 ≤ 1440) :
    resetPolicyL l b = .done [] (resetPolicySet l b) := by
  unfold resetPolicyL
  rw [if_neg (by omega), if_neg (by omega), if_neg (by omega)]
  rfl

theorem resetPolicySet_frame (l : Letter) (b : Block) : Frame [.policy, .resets] b (resetPolicySet l b) :=
  frame_modResets _ (frame_modPolicy _ (.refl _ b) (by decide)) (by decide)

/-! ### Images -/

/-- The first round of an image begins. -/
def imageBegun (l : Letter) (d : List Byte) (b : Block) : Block :=
  (clearImages b).modImage (fun _ => {
    active := true
    bytes := d
    digest := sha384v d
    imageId := BitVec.ofNat 16 l.seq
    round := 1
    regions := BitVec.ofNat 128 (l.p 64 16 &&& (clearImages b).regionMask)
    targets := (clearImages b).imageTargets (BitVec.ofNat 128 (l.p 64 16 &&& (clearImages b).regionMask)) (decide (l.p 80 1 = 1)) })

theorem imageLoadL_due {data : Option (List Byte)} {d : List Byte} {c : IntegrationConfig} (h16 : l.p 8 4 % 16 = 0) (hmax : l.p 8 4 ≤ 786432)
    (hspare : l.p 80 1 ≤ 1) (hcfg : b.cfg = some c) (himg : c.images = true) (hd : b.hostRead data (l.p 8 4) = some d)
    (hh : sha384v d = BitVec.ofNat 384 (l.p 16 48)) : imageLoadL data l b = .interim [] [] (imageBegun l d b) := by
  unfold imageLoadL
  dsimp only
  rw [if_neg (by omega), if_neg (by omega), hcfg]
  dsimp only
  rw [if_neg (not_not_intro himg), hd]
  exact if_neg (not_not_intro hh)

theorem imageLoad_carries {r : Nat} {data : Option (List Byte)} (h : b.carries r 0x901 l) (hout : b.outOp 0x901 = false) :
    imageLoad r data b = if (answerOf r l (outside (imageLoadL data) l b) b).outOp 0x901 then
      imgCheck (answerOf r l (outside (imageLoadL data) l b) b) else answerOf r l (outside (imageLoadL data) l b) b := by
  unfold imageLoad
  dsimp only
  rw [letterRow_carries h]
  rw [show (b.letterDue r 0x901 && !b.outOp 0x901) = true by rw [carries_due h, hout]; rfl]
  simp only [true_and]

theorem imageAbortL_active (h : b.ho.image.active = true) :
    imageAbortL l b = .done [] (finishOp 0x901 0x0604 0 [] (b.modImage (fun x => { x with active := false }))) := by
  unfold imageAbortL
  exact if_pos h

theorem imageAbortL_idle (h : b.ho.image.active = false) : imageAbortL l b = .done [] b := by
  unfold imageAbortL
  exact if_neg (Bool.eq_false_iff.1 h)

/-! ### Counters and trace -/

theorem counterSelectL_due (hle : l.p 0 4 ≤ l.p 4 4) (hlt : l.p 4 4 < 2 ^ 20) (h15 : l.p 8 1 ≤ 15) (hcode : counterCode (l.p 10 2) = true) :
    counterSelectL l b = .done [] (forEach (b.liveCores.filter (fun i => decide (l.p 0 4 ≤ i) && decide (i ≤ l.p 4 4)))
      (selectCounter (l.p 8 1) (l.p 10 2)) b) := by
  unfold counterSelectL
  dsimp only
  rw [if_neg (by omega), if_neg (by omega), if_neg (by omega)]
  exact if_neg (not_not_intro hcode)

theorem counterReadL_due (hp : b.present (l.p 0 4) = true) (hon : (b.core (l.p 0 4)).porN = true) : counterReadL l b = .done (b.counterBytes (l.p 0 4)) b := by
  unfold counterReadL
  exact if_neg (by simp [hp, hon])

/-- The trace under a new control word. -/
def traceSet (w : Nat) (b : Block) : Block :=
  b.modDebug (fun d => { d with
    ctrl := BitVec.ofNat 64 w
    state := if bit w 0 then 1 else 0
    trace := if bit w 48 then [] else d.trace
    trig := none
    matched := none
    post := none })

theorem traceControlL_due (h : fld (l.p 0 8) 10 2 ≠ 3) :
    traceControlL l b = .done (le 4 (traceSet (l.p 0 8) b).dbg.trace.length ++ le 4 ((traceSet (l.p 0 8) b).dbg.trig.getD 0xFFFFFFFF) ++
      le 1 (traceSet (l.p 0 8) b).dbg.state) (traceSet (l.p 0 8) b) := by
  unfold traceControlL
  exact if_neg h

/-- The entry that matched is the trigger. -/
def triggered (k : Nat) (b : Block) : Block := hoEvent evTraceTrigger [] (b.modDebug (fun d => { d with trig := some k, matched := none }))

theorem traceTrigger_matched {k : Nat} (h : b.dbg.matched = some k) :
    traceTrigger b = if decide (fld b.dbg.ctrl.toNat 10 2 = 2) ∧ ¬ (triggered k b).stop.stopped then originate .stopCtrl (triggered k b) else triggered k b := by
  unfold traceTrigger
  rw [h]
  rfl

theorem traceTrigger_marks {k : Nat} (h : b.dbg.matched = some k) (hact : fld b.dbg.ctrl.toNat 10 2 ≠ 2) : traceTrigger b = triggered k b := by
  rw [traceTrigger_matched h, decide_eq_false hact]
  exact if_neg fun h => Bool.false_ne_true h.1

theorem traceTrigger_stops {k : Nat} (h : b.dbg.matched = some k) (hact : fld b.dbg.ctrl.toNat 10 2 = 2) (hrun : b.stop.stopped = false) :
    traceTrigger b = originate .stopCtrl (triggered k b) := by
  have hstop : (triggered k b).stop = b.stop := hoEvent_keeps_stop ..
  rw [traceTrigger_matched h, decide_eq_true hact]
  exact if_pos ⟨rfl, by rw [hstop]; exact Bool.eq_false_iff.1 hrun⟩

/-! ### EXPORT -/

/-- Entries that fit where the data sent to the host has at most so many bytes. -/
def exportCount (most size : Nat) (es : List (List Byte)) : Nat := min es.length ((most - 64) / size)

/-- The bytes sent to the host: the header and the entries. -/
def Block.exportBytes (b : Block) (kind size most : Nat) (es : List (List Byte)) : List Byte :=
  b.exportHeader kind size (exportCount most size es) (es.take (exportCount most size es)).flatten ++ (es.take (exportCount most size es)).flatten

/-- The final receipt of EXPORT. -/
def exportResult (most size : Nat) (es : List (List Byte)) (bytes : List Byte) : List Byte :=
  le 4 (exportCount most size es) ++ le 1 (b01 (decide (exportCount most size es < es.length))) ++ [0, 0, 0] ++ le 8 bytes.length

theorem exportL_due {size : Nat} {es : List (List Byte)} (he : b.exportEntries (l.p 0 1) = some (size, es)) (hal : l.p 4 8 % 256 = 0)
    (hcap : b.capturing = false) (hmost : 64 ≤ l.p 12 8) :
    exportL l b = .interim [] [] (b.modDebug (fun d => { d with
      exporting := some (exportResult (l.p 12 8) size es (b.exportBytes (l.p 0 1) size (l.p 12 8) es))
      exportLeft := (cutPieces ((b.exportBytes (l.p 0 1) size (l.p 12 8) es).length / 65536 + 2) 0 (l.p 4 8)
        (b.exportBytes (l.p 0 1) size (l.p 12 8) es)).length
      exportTodo := cutPieces ((b.exportBytes (l.p 0 1) size (l.p 12 8) es).length / 65536 + 2) 0 (l.p 4 8)
        (b.exportBytes (l.p 0 1) size (l.p 12 8) es) })) := by
  have hlt : ¬ l.p 12 8 < 64 := Nat.not_lt.2 hmost
  unfold exportL
  rw [he]
  dsimp only
  rw [if_neg (not_not_intro hal), hcap, if_neg Bool.false_ne_true]
  simp only [if_neg hlt, decide_eq_false hlt, Bool.or_false]
  rfl

theorem exportRow_pumps {r : Nat} {y : Reply} {res : List Byte} (h : b.carries r 0x804 l) (hout : b.outOp 0x804 = false) (hy : exportL l b = y)
    (hnow : (answerOf r l y b).outOp 0x804 = true) (hres : (answerOf r l y b).dbg.exporting = some res) (hleft : (answerOf r l y b).dbg.exportLeft ≠ 0) :
    exportRow r b = pumpExport 1024 (answerOf r l y b) := by
  unfold exportRow
  dsimp only
  rw [letterRow_carries h, hy, if_pos ⟨by rw [carries_due h, hout]; rfl, hnow⟩, hres]
  exact if_neg hleft

end

/-- Settles O48. -/
theorem resetAndImageLetters : Obligations.ResetAndImageLetters := by
  refine ⟨fun s ring l hr hc h => ?warm, fun s ring l hr hc h => ?escalates, fun s ring l hr hc => ?cold,
    fun s ring l hr hc hidle h1 h15 hauto hw hmax => ?policy,
    fun s ring data l d c b hr hc hidle h16 hmax hspare hcfg himg hd hh hout hb => ?load, fun s ring l hr hc => ?status,
    fun s ring l hr hc h => ?abort, fun s ring l hr hc h => ?abortIdle⟩
  case warm => exact act_reply hr hc (warmResetL_resets h)
  case escalates =>
    have h := act_reply hr hc (warmResetL_escalates h)
    exact h
  case cold => exact act_after hr (coldReset_carries hc)
  case policy =>
    have h := act_reply hr hc ((outside_idle hidle).trans (resetPolicyL_due h1 h15 hauto hw hmax))
    exact ⟨_, h, rfl, rfl, rfl, resetPolicySet_frame l s.blk⟩
  case load =>
    have h := act_after hr (imageLoad_carries (data := data) hc hout)
    rw [outside_idle hidle, imageLoadL_due h16 hmax hspare hcfg himg hd hh] at h
    subst hb
    exact h
  case status =>
    have h := act_letter hr hc imageStatusL
    exact h
  case abort => exact act_reply hr hc (imageAbortL_active h)
  case abortIdle => exact act_reply hr hc (imageAbortL_idle h)

/-- Settles O49. -/
theorem debugCommands : Obligations.DebugCommands := by
  refine ⟨fun s ring l hr hc hle hlt h15 hcode => ?select, fun s ring l hr hc hp hon => ?read, fun s ring l hr hc h => ?trace,
    fun s k hr hm hact => ?marks, fun s k b hr hm hact hrun hb => ?stops,
    fun s ring l size es bytes pieces res b hr hc he hal hcap hmost hout hbytes hpieces hres hb hnow hexp hleft => ?exported⟩
  case select =>
    have h := act_reply hr hc (counterSelectL_due hle hlt h15 hcode)
    exact h
  case read => exact act_reply hr hc (counterReadL_due hp hon)
  case trace =>
    have h := act_reply hr hc (traceControlL_due h)
    exact ⟨_, _, h, rfl, rfl, rfl, rfl, frame_modDebug _ (.refl _ s.blk) (by decide)⟩
  case marks => exact act_after hr (traceTrigger_marks hm hact)
  case stops =>
    subst hb
    exact act_after hr (traceTrigger_stops hm hact hrun)
  case exported =>
    subst hbytes hpieces hres hb
    exact act_after hr (exportRow_pumps hc hout (exportL_due he hal hcap hmost) hnow hexp hleft)

end Sys2Proof.Machine
end
